-- ==== Sys2Proof/Word.lean ====
section
/-! DEFINITION. The words of the Logacet 4C2 and the small fixed collections its blocks are numbered by:
four heads, two islands, four multiplexer ports. -/

namespace Sys2Proof

/-- A byte of the configuration image or of a link message. -/
abbrev Byte := BitVec 8
/-- A 16-bit word of the processor bus. -/
abbrev Word := BitVec 16
/-- A field stamp: a value of the 32-bit field count (R3). -/
abbrev Stamp := BitVec 32
/-- A 20-bit byte address of the processor bus (Signal groups). -/
abbrev Addr := BitVec 20

/-- Head 1 to Head 4 (Naming). -/
inductive HeadId where
  | h1 | h2 | h3 | h4
deriving DecidableEq, Repr

/-- Island 1 and Island 2 (Naming). -/
inductive IslandId where
  | i1 | i2
deriving DecidableEq, Repr

/-- A multiplexer input, 1 … 4. -/
inductive Port where
  | p1 | p2 | p3 | p4
deriving DecidableEq, Repr

/-- One thing for each head. -/
structure Four (α : Type) where
  h1 : α
  h2 : α
  h3 : α
  h4 : α
deriving DecidableEq, Repr

/-- One thing for each island. -/
structure Two (α : Type) where
  i1 : α
  i2 : α
deriving DecidableEq, Repr

variable {α β : Type}

/-- The thing of head `h`. -/
def Four.get (v : Four α) : HeadId → α
  | .h1 => v.h1
  | .h2 => v.h2
  | .h3 => v.h3
  | .h4 => v.h4

/-- `v` with the thing of head `h` replaced. -/
def Four.set (v : Four α) (h : HeadId) (x : α) : Four α :=
  match h with
  | .h1 => { v with h1 := x }
  | .h2 => { v with h2 := x }
  | .h3 => { v with h3 := x }
  | .h4 => { v with h4 := x }

/-- `f` at every head. -/
def Four.map (f : α → β) (v : Four α) : Four β := ⟨f v.h1, f v.h2, f v.h3, f v.h4⟩

/-- The same thing for every head. -/
def Four.all (x : α) : Four α := ⟨x, x, x, x⟩

/-- The thing of island `i`. -/
def Two.get (v : Two α) : IslandId → α
  | .i1 => v.i1
  | .i2 => v.i2

/-- `v` with the thing of island `i` replaced. -/
def Two.set (v : Two α) (i : IslandId) (x : α) : Two α :=
  match i with
  | .i1 => { v with i1 := x }
  | .i2 => { v with i2 := x }

/-- `f` at both islands. -/
def Two.map (f : α → β) (v : Two α) : Two β := ⟨f v.i1, f v.i2⟩

/-- The number of a head, 1 … 4. -/
def HeadId.num : HeadId → Nat
  | .h1 => 1
  | .h2 => 2
  | .h3 => 3
  | .h4 => 4

/-- The number of an island, 1 or 2. -/
def IslandId.num : IslandId → Nat
  | .i1 => 1
  | .i2 => 2

/-- The other island. -/
def IslandId.other : IslandId → IslandId
  | .i1 => .i2
  | .i2 => .i1

/-- The number of a port, 1 … 4. -/
def Port.num : Port → Nat
  | .p1 => 1
  | .p2 => 2
  | .p3 => 3
  | .p4 => 4

/-- The four heads in order. -/
def HeadId.list : List HeadId := [.h1, .h2, .h3, .h4]

/-- The four ports in order. -/
def Port.list : List Port := [.p1, .p2, .p3, .p4]

end Sys2Proof
end

