-- ==== Sys2Proof/Config.lean ====
section
/-! DEFINITION. What the spec fixes once for the part (counts, limits, lengths), and the free values: constants
without a body that stand where the spec gives a published field no value, or two. -/

namespace Sys2Proof.Config

/-- The crystal's frequency in cycles per second (Signal groups: 4 MHz). -/
def crystalHz : Nat := 4000000
/-- The lowest frame number a position can hold (Position; R19). -/
def frameMin : Int := -99999
/-- The highest frame number a position can hold (Position; R19). -/
def frameMax : Int := 999999
/-- The widest trim, either way (R1). -/
def trimMax : Int := 1000
/-- Half the width of the acceptance window, and the slack of a regular pulse, in ticks (R6, R9). -/
def window : Nat := 400
/-- The most a flywheel field is lengthened or shortened in SLEWING, in ticks (R12). -/
def slew : Int := 200
/-- The number of intervals the reference period is summed over (R14). -/
def historyLen : Nat := 16
/-- The most cues a cue table holds (R53). -/
def maxCues : Nat := 32
/-- The most takes a take list holds (R92). -/
def maxTakes : Nat := 6
/-- The most entries the alarm table holds (R141). -/
def maxAlarms : Nat := 24
/-- The most events that wait in the event queue (R181). -/
def maxEvents : Nat := 16
/-- The most entries that wait in the transaction queue (R118). -/
def maxWaiting : Nat := 4
/-- The number of transactions a MOVE makes at most (R124). -/
def moveTries : Nat := 3
/-- Ticks an agent word may go without an acknowledge (R172). -/
def wordTimeout : Nat := 16
/-- Ticks after which the speed falls to 0 (R51). -/
def speedTimeout : Nat := 1000000
/-- The most bytes the Configuration Loader reads (R173). -/
def imageMax : Nat := 512
/-- The bytes of the live layout; beyond them a live read returns 0 (R168). -/
def liveSize : Nat := 1664

/-- The published places for which the spec says no reading while what they show is absent. -/
inductive AbsentField where
  | boundaryStamp | lastFrameLength | expectedLength | runupFields | runupFrames
  | parkTarget | parkPosition
  | mirrorPort | confirmTarget | confirmPort | confirmOwner | confirmCut
  | reportedPort | refusedPort | refusedReason
  | followedFrame | takeOutgoing | onAirPort | analogMode | cutBasis | takeCue | relockFrames | keyRefusal
  | trailingWord | spareBits | emptySlot
deriving DecidableEq, Repr

/-- FREE VALUE (log entry 6): what a field of the live window or of an event record reads as while the thing it
shows is absent and no rule gives it a reading. No proof can know it. -/
opaque absentReading : AbsentField → Nat

/-- FREE VALUE (log entry 7): the byte lane a one-byte live read does not ask for (R168 gives only the byte asked for). -/
opaque unaskedLane : Nat → Byte

/-- FREE VALUE (log entry 27): whether the delta of a correction that the range limits is the new frame less the old, as R22
says, or the mark frame less the old, as R69 and R187 say. No proof can know it. -/
opaque deltaFollowsLimit : Bool

end Sys2Proof.Config
end

