-- ==== Sys2Proof/Syntax.lean ====
section
/-! DEFINITION. The commands of the part: one constructor of `Instr` for each row of spec/opcode_table.json.

A command that comes at a moment of its own carries `dt`, the ticks that pass before it is taken (log entry 1).
The twenty-two ring commands carry the target and argument words of their entry as the processor wrote them (R180),
so that every check of a word is made by the part and not by the type. -/

namespace Sys2Proof

/-- One character of the mirror link as the receiver takes it: its data, its address flag, and whether its stop bit
was found at 0 (R115). -/
structure LinkChar where
  data    : Byte
  address : Bool
  framing : Bool
deriving DecidableEq, Repr

/-- One cycle of the processor bus: address, direction, data and the two byte strobes (Signal groups). `low` is the
strobe of the byte at the even address, which is the low byte of the word (section 12.4). -/
structure BusCycle where
  addr  : Addr
  write : Bool
  data  : Word
  low   : Bool
  high  : Bool
deriving DecidableEq, Repr

/-- How memory ends an agent word: an acknowledge, with the word read on a read, or a memory error (R172). -/
inductive MemReply where
  | ack (data : Word)
  | error
deriving DecidableEq, Repr

/-- The two moments of a processor cycle that passes to memory: the processor starts it; memory ends it, with an
acknowledge or with an error. -/
inductive CyclePhase where
  | begins (c : BusCycle)
  | ends (ack : Bool)
deriving DecidableEq, Repr

/-- Words 3 to 14 of a CONFIGURE_HEAD entry (R180), in entry order. -/
structure HeadWords where
  gaugePolicy   : Word
  lockCount     : Word
  runupLead     : Word
  runupDistance : Word
  runupLimit    : Word
  startResponse : Word
  lossTimeout   : Word
  approach      : Word
  parkTolerance : Word
  settleTime    : Word
  sensorOffset  : Word
  lampSettle    : Word
deriving DecidableEq, Repr

/-- The commands (spec/opcode_table.json, in the table's order). -/
inductive Instr where
  /-- POWER_ON (R173). -/
  | powerOn
  /-- RESET_LINE_PULSE (R173). -/
  | resetLinePulse
  /-- CONFIG_LOAD_END (R173): the bytes the serial configuration memory gave. -/
  | configLoadEnd (dt : Nat) (image : List Byte)
  /-- STATION_PULSE (R9). -/
  | stationPulse (dt : Nat)
  /-- FLYWHEEL_EXPIRY (R5). -/
  | flywheelExpiry (dt : Nat)
  /-- ACCEPTANCE_WINDOW_END (R10). -/
  | acceptanceWindowEnd (dt : Nat)
  /-- SLEWING_PULSE_GAP (R12). -/
  | slewingPulseGap (dt : Nat)
  /-- SET_TRIM (R2). -/
  | setTrim (trim : Word)
  /-- TACH_PULSE (R18): the head and the direction line as sampled. -/
  | tachPulse (dt : Nat) (head : HeadId) (forward : Bool)
  /-- TACH_GAP_EXPIRY (R28). -/
  | tachGapExpiry (dt : Nat) (head : HeadId)
  /-- SETTLE_EXPIRY (R26). -/
  | settleExpiry (dt : Nat) (head : HeadId)
  /-- SPEED_TIMEOUT (R51). -/
  | speedTimeout (dt : Nat) (head : HeadId)
  /-- SLOW_START (R49). -/
  | slowStart (head : HeadId)
  /-- CUE_MARK_PULSE (R67). -/
  | cueMarkPulse (dt : Nat) (head : HeadId)
  /-- CLEAR (R177). -/
  | clear
  /-- ACK_ALARMS (R146). -/
  | ackAlarms (source : Word)
  /-- RESET_FLAGS (R184). -/
  | resetFlags
  /-- SET_ANALOG_LIMITS (R139). -/
  | setAnalogLimits (channel low high debounce : Word)
  /-- SET_PANEL_MODE (R162). -/
  | setPanelMode (mode dwell : Word)
  /-- CONFIGURE_HEAD (R35). -/
  | configureHead (head : Word) (words : HeadWords)
  /-- ASSIGN_HEAD (R34). -/
  | assignHead (head island port : Word)
  /-- SET_POSITION (R33). -/
  | setPosition (head : Word) (frame : BitVec 32)
  /-- CUE_UP (R62): words 4 and 5 as one value; a cue id is its low word. -/
  | cueUp (head form : Word) (arg : BitVec 32)
  /-- START (R24). -/
  | start (head : Word)
  /-- STOP (R25). -/
  | stop (head : Word)
  /-- LAMP (R32). -/
  | lamp (head on : Word)
  /-- CLEAR_FAULT (R31). -/
  | clearFault (head : Word)
  /-- LOAD_CUE (R54). -/
  | loadCue (head id kind : Word) (frame : BitVec 32) (window correct : Word)
  /-- DELETE_CUE (R56). -/
  | deleteCue (head id : Word)
  /-- CLEAR_CUES (R57). -/
  | clearCues (head : Word)
  /-- CONFIGURE_ISLAND (R90). -/
  | configureIsland (island address standbyPort lead tolerance policy grace : Word)
  /-- TAKE (R93). -/
  | take (island tag incoming mode : Word) (field : Stamp) (outCue inCue tolerance preroll : Word)
  /-- CANCEL_TAKE (R94). -/
  | cancelTake (island tag : Word)
  /-- ABORT_TAKE (R110). -/
  | abortTake (island : Word)
  /-- STANDBY (R111). -/
  | standby (island : Word)
  /-- START_FIELD_REACHED (R97). -/
  | startFieldReached (island : IslandId)
  /-- COMMIT_FIELD_REACHED (R99). -/
  | commitFieldReached (island : IslandId)
  /-- END_GUARD_REACHED (R105). -/
  | endGuardReached (island : IslandId)
  /-- MOVE_DEADLINE (R103). -/
  | moveDeadline (island : IslandId)
  /-- POLL_COUNTDOWN_EXPIRY (R126). -/
  | pollCountdownExpiry (island : IslandId)
  /-- SEND_COMPLETE (R120). -/
  | sendComplete (dt : Nat)
  /-- REPLY_MESSAGE (R121): the characters received, in order. -/
  | replyMessage (dt : Nat) (chars : List LinkChar)
  /-- REPLY_TIMEOUT (R123). -/
  | replyTimeout (dt : Nat)
  /-- GAP_END (R119). -/
  | gapEnd (dt : Nat)
  /-- SCAN_START (R132). -/
  | scanStart (dt : Nat)
  /-- CONVERSION_COMPLETE (R134): the reading of the scan's next channel. -/
  | conversionComplete (dt : Nat) (reading : BitVec 10)
  /-- DWELL_END (R152): the four return lines of the row, bit k − 1 set for return k down. -/
  | dwellEnd (dt : Nat) (keys : BitVec 4)
  /-- PROCESSOR_CYCLE (R171). -/
  | processorCycle (dt : Nat) (phase : CyclePhase)
  /-- COMMAND_PRODUCER_WRITE (R166): a write of the command ring's producer word, and whether memory acknowledged it. -/
  | commandProducerWrite (dt : Nat) (data : Word) (low high ack : Bool)
  /-- EVENT_CONSUMER_WRITE (R182): a write of the event ring's consumer word, and whether memory acknowledged it. -/
  | eventConsumerWrite (dt : Nat) (data : Word) (low high ack : Bool)
  /-- WITHHELD_WRITE (R167). -/
  | withheldWrite (dt : Nat) (addr : Addr) (data : Word) (low high : Bool)
  /-- LIVE_READ (R168). -/
  | liveRead (dt : Nat) (addr : Addr) (low high : Bool)
  /-- AGENT_WORD_END (R170): how memory ended the agent's word. -/
  | agentWordEnd (dt : Nat) (reply : MemReply)
  /-- AGENT_WORD_TIMEOUT (R172). -/
  | agentWordTimeout (dt : Nat)
  /-- STARVE_EXPIRY (R171). -/
  | starveExpiry (dt : Nat)
deriving DecidableEq, Repr

end Sys2Proof
end

