-- ==== Sys2Proof/WellFormed.lean ====
section
/-! DEFINITION. Which commands a sender can give: what the lines of the part can carry. Every other check of an
operand is the part's own and answers with a status (R23, R54, R90, R93, R139, R146, R162). -/

namespace Sys2Proof

/-- A cycle of the processor bus drives at least one byte strobe (R166, R168: a cycle has one or both). -/
def strobed (low high : Bool) : Bool := low || high

/-- A command the part's lines can carry: an image of at most 512 bytes (R173); a bus cycle with a strobe; at most the
four characters of one link message (R116). -/
def WellFormed : Instr → Bool
  | .configLoadEnd _ image => image.length ≤ Config.imageMax
  | .replyMessage _ chars => chars.length ≤ 4
  | .processorCycle _ (.begins c) => strobed c.low c.high
  | .commandProducerWrite _ _ low high _ => strobed low high
  | .eventConsumerWrite _ _ low high _ => strobed low high
  | .withheldWrite _ _ _ low high => strobed low high
  | .liveRead _ _ low high => strobed low high
  | .processorCycle _ (.ends _) => true
  | .powerOn => true
  | .resetLinePulse => true
  | .stationPulse _ => true
  | .flywheelExpiry _ => true
  | .acceptanceWindowEnd _ => true
  | .slewingPulseGap _ => true
  | .setTrim _ => true
  | .tachPulse _ _ _ => true
  | .tachGapExpiry _ _ => true
  | .settleExpiry _ _ => true
  | .speedTimeout _ _ => true
  | .slowStart _ => true
  | .cueMarkPulse _ _ => true
  | .clear => true
  | .ackAlarms _ => true
  | .resetFlags => true
  | .setAnalogLimits _ _ _ _ => true
  | .setPanelMode _ _ => true
  | .configureHead _ _ => true
  | .assignHead _ _ _ => true
  | .setPosition _ _ => true
  | .cueUp _ _ _ => true
  | .start _ => true
  | .stop _ => true
  | .lamp _ _ => true
  | .clearFault _ => true
  | .loadCue _ _ _ _ _ _ => true
  | .deleteCue _ _ => true
  | .clearCues _ => true
  | .configureIsland _ _ _ _ _ _ _ => true
  | .take _ _ _ _ _ _ _ _ _ => true
  | .cancelTake _ _ => true
  | .abortTake _ => true
  | .standby _ => true
  | .startFieldReached _ => true
  | .commitFieldReached _ => true
  | .endGuardReached _ => true
  | .moveDeadline _ => true
  | .pollCountdownExpiry _ => true
  | .sendComplete _ => true
  | .replyTimeout _ => true
  | .gapEnd _ => true
  | .scanStart _ => true
  | .conversionComplete _ _ => true
  | .dwellEnd _ _ => true
  | .agentWordEnd _ _ => true
  | .agentWordTimeout _ => true
  | .starveExpiry _ => true

end Sys2Proof
end

