-- ==== Sys2Proof/Decode.lean ====
section
/-! DEFINITION. The decoder over the rows of spec/opcode_table.json that give bits. The table gives no row any bits: a
command reaches the part as an entry of the command ring (read by `takeEntry` of Machine/Rings.lean from the formats of
R180) or as an event on a line, never as an instruction word. -/

namespace Sys2Proof

/-- The command a word spells by the table's bits: none, since no row of the table has bits. -/
def decodeTableWord (_nbits _w : Nat) : Option Instr := none

end Sys2Proof
end

