-- ==== Sys2Proof/Machine/State.lean ====
section
/-! DEFINITION. The whole state of the part as plain data, block by block, and what it holds at reset.

INVENTORY.md names the rule and the reset value of every field. `State` is the part and the queue of the commands that
wait; the meanings read and write the part alone. -/

namespace Sys2Proof.Machine

/-! ### Timebase and Field Reference Unit -/

/-- The station standard (R5, R189). -/
inductive Standard where
  | f50 | f60
deriving DecidableEq, Repr

/-- The reference states, in the order of section 1.4. -/
inductive RefState where
  | search | locked | flywheel | slewing
deriving DecidableEq, Repr

/-- The crystal's phase accumulator (R1) and the model's two counts of time: crystal cycles and ticks since the last
reset. -/
structure Timebase where
  acc     : BitVec 22
  crystal : Nat
  now     : Nat
deriving DecidableEq, Repr

/-- The Field Reference Unit (R2 to R14). `begun` and `length` give the flywheel field in progress; its expiry, in
LOCKED the expected time, is their sum. -/
structure RefUnit where
  trim      : Int
  standard  : Standard
  count     : Stamp
  state     : RefState
  pattern   : Nat
  begun     : Nat
  length    : Nat
  lastPulse : Option Nat
  run       : Nat
  raised    : Bool
  barren    : Nat
  misses    : Nat
  delta     : Option Int
  history   : List Nat
  accepted  : Option Nat
deriving DecidableEq, Repr

/-! ### Heads -/

/-- The drive states, in the order of section 2.1. -/
inductive DriveState where
  | stopped | parked | cueFast | cueInch | settling | runup | locked | unlocked | stopping | fault
deriving DecidableEq, Repr

/-- The three latched head faults (R30). -/
inductive FaultKind where
  | tachLoss | filmBreak | jam
deriving DecidableEq, Repr

/-- The causes of HEAD_STATE, in the order of R36. -/
inductive Cause where
  | command | key | scheduler | cue | cadence | cueUp | settle | motion | tachLoss | filmBreak | jam | clear
deriving DecidableEq, Repr

/-- The film gauges (Position). -/
inductive Gauge where
  | g35 | g16
deriving DecidableEq, Repr

/-- The lamp policies (R17). -/
inductive LampPolicy where
  | auto | manual
deriving DecidableEq, Repr

/-- The thirteen settings of a head (R35). Times are in milliseconds, the run-up lead and limit in fields, the run-up
distance, approach distance and sensor offset in frames, the park tolerance in perfs. -/
structure HeadSettings where
  gauge         : Gauge
  lockCount     : Nat
  runupLead     : Nat
  runupDistance : Nat
  runupLimit    : Nat
  startResponse : Nat
  lossTimeout   : Nat
  approach      : Nat
  parkTolerance : Nat
  settleTime    : Nat
  sensorOffset  : Nat
  lampPolicy    : LampPolicy
  lampSettle    : Nat
deriving DecidableEq, Repr

/-- A frame number and a perf phase (Position). -/
structure Position where
  frame : Int
  phase : Nat
deriving DecidableEq, Repr

/-- The five outputs of a head (R16, R17). -/
structure Outputs where
  fwd   : Bool
  rev   : Bool
  speed : Bool
  sync  : Bool
  lamp  : Bool
deriving DecidableEq, Repr

/-- The cue-up in progress: its target frame and the direction of the leg (R62, R63). -/
structure CueUp where
  target : Int
  ahead  : Bool
deriving DecidableEq, Repr

/-- The park record (R66). -/
structure ParkRecord where
  target   : Int
  position : Position
deriving DecidableEq, Repr

/-- Which end of the position range COUNT_LIMIT was raised at (R19). -/
inductive LimitSide where
  | highest | lowest
deriving DecidableEq, Repr

/-- A head's assignment: an island and a port of it (R34). -/
structure Assignment where
  island : IslandId
  port   : Port
deriving DecidableEq, Repr

/-- The deviation of a provisional frame (R43). -/
inductive Deviation where
  | plus | minus
deriving DecidableEq, Repr

/-- The run-up measured at a first lock (R48). -/
structure Runup where
  fields : Int
  frames : Int
deriving DecidableEq, Repr

/-- The Cadence Monitor of a head (section 3.1). `phase` is the expected length of the frame in progress on the 3:2
cadence; `slowStart` says that the SLOW_START condition is present (R49). -/
structure Cadence where
  measuring   : Bool
  startStamp  : Option Stamp
  startFrame  : Option Int
  firstLock   : Bool
  boundary    : Option Stamp
  fields      : Nat
  lastLength  : Option Nat
  phase       : Option Nat
  provisional : Option Deviation
  run         : Nat
  unlockStamp : Option Stamp
  lastTime    : Option Nat
  speed       : Nat
  lastRunup   : Option Runup
  slowStart   : Bool
deriving DecidableEq, Repr

/-- The cue kinds (R53). -/
inductive CueKind where
  | sop | changeover | ending | stop | mark
deriving DecidableEq, Repr

/-- The confirm states of a cue (R53). -/
inductive ConfirmState where
  | none | confirmed | unconfirmed
deriving DecidableEq, Repr

/-- A cue (R53). -/
structure Cue where
  id      : Nat
  frame   : Int
  kind    : CueKind
  window  : Option Nat
  correct : Bool
  passed  : Bool
  confirm : ConfirmState
deriving DecidableEq, Repr

/-- What belongs to one head: the Head Controller (chapter 2), its Cadence Monitor, its cue table and its mark latch.
`gapFrom` and `settleFrom` are the ticks the two measurements count from, absent while disarmed. -/
structure Head where
  drive      : DriveState
  outputs    : Outputs
  lampPolicy : LampPolicy
  lampOnAt   : Option Nat
  pos        : Position
  gapFrom    : Option Nat
  settleFrom : Option Nat
  attempts   : Nat
  cueUp      : Option CueUp
  park       : Option ParkRecord
  fault      : Option FaultKind
  countLimit : Option LimitSide
  assigned   : Option Assignment
  settings   : HeadSettings
  cadence    : Cadence
  cues       : List Cue
  mark       : Option Int
deriving DecidableEq, Repr

/-! ### Islands -/

/-- A source of an island, or UNKNOWN (R89). -/
inductive Source where
  | standby
  | head (h : HeadId)
  | unknown
deriving DecidableEq, Repr

/-- The mirror states (R89). -/
inductive MirrorState where
  | atPort (p : Port)
  | moving (p : Port)
  | unknown
deriving DecidableEq, Repr

/-- Whose move awaits confirmation (R89). -/
inductive Owner where
  | take | island
deriving DecidableEq, Repr

/-- The authorities of an island (R91). -/
inductive Authority where
  | remote | panel
deriving DecidableEq, Repr

/-- The fault policies of an island (R90). -/
inductive FaultPolicy where
  | fallback | hold
deriving DecidableEq, Repr

/-- The six settings of an island (R90). -/
structure IslandSettings where
  address     : Nat
  standbyPort : Port
  lead        : Nat
  tolerance   : Nat
  policy      : FaultPolicy
  grace       : Nat
deriving DecidableEq, Repr

/-- A committed move that awaits confirmation (R89, R101). -/
structure Confirmation where
  target   : Source
  port     : Port
  cut      : Stamp
  deadline : Stamp
  owner    : Owner
deriving DecidableEq, Repr

/-- The modes of a take (R92). -/
inductive TakeMode where
  | atCue | atField | now
deriving DecidableEq, Repr

/-- The prerolls of a take (R92). -/
inductive Preroll where
  | auto | manual
deriving DecidableEq, Repr

/-- The states of a take (R92). -/
inductive TakeState where
  | queued | armed | starting | ready | held | committed
deriving DecidableEq, Repr

/-- The outcomes of a take (R92). -/
inductive TakeOutcome where
  | done | slipped | early | emergency | fallback | failed | cancelled | aborted
deriving DecidableEq, Repr

/-- The reason codes of TAKE_END, in the order of R186. -/
inductive Reason where
  | none | sameSource | incomingFault | incomingStopped | mirror | lateStart | runout | command | standby | clear
deriving DecidableEq, Repr

/-- The bases of a prediction (R75). -/
inductive Basis where
  | exact | estimate | frozen | reached | absent
deriving DecidableEq, Repr

/-- A prediction record (R75). -/
structure Pred where
  head  : HeadId
  frame : Int
  value : Option Stamp
  basis : Basis
deriving DecidableEq, Repr

/-- A cue chosen by a take: its id and its frame (R96). -/
structure CueRef where
  id    : Nat
  frame : Int
deriving DecidableEq, Repr

/-- A take (R92). `cut` and `sop` are the prediction records it follows; `short` is whether the last computation of
F_start fell in the short-leader case (R81); `lost` are the fields of the incoming picture an EARLY take loses. -/
structure Take where
  tag        : Word
  incoming   : Source
  mode       : TakeMode
  effective  : TakeMode
  field      : Stamp
  outCue     : Option Nat
  inCue      : Option Nat
  tolerance  : Option Nat
  preroll    : Preroll
  state      : TakeState
  outgoing   : Option Source
  sopCue     : Option CueRef
  changeCue  : Option CueRef
  cut        : Option Pred
  fCut       : Option Stamp
  fStart     : Option Stamp
  sop        : Option Pred
  error      : Option Int
  commitAt   : Option Stamp
  heldCut    : Option Stamp
  slip       : Int
  outcome    : TakeOutcome
  lost       : Option Int
  short      : Option Bool
deriving DecidableEq, Repr

/-- An island record (R89) with its take list (R92) and its F_end record (R75). -/
structure Island where
  onAir    : Source
  mirror   : MirrorState
  confirm  : Option Confirmation
  authority : Authority
  preset   : Source
  settings : IslandSettings
  takes    : List Take
  fEnd     : Option Pred
deriving DecidableEq, Repr

/-! ### Mirror Link -/

/-- The line rates (R114). -/
inductive LineRate where
  | b9600 | b19200 | b38400
deriving DecidableEq, Repr

/-- The line's settings (R114). -/
structure LineSettings where
  rate     : LineRate
  gap      : Nat
  timeout  : Nat
  interval : Nat
deriving DecidableEq, Repr

/-- The online states of a station (R117). -/
inductive Online where
  | unknown | online | offline
deriving DecidableEq, Repr

/-- The last REFUSE of a station: the port refused and the reason (R117). -/
structure Refusing where
  port   : Port
  reason : Byte
deriving DecidableEq, Repr

/-- A station record (R117). -/
structure Station where
  online    : Online
  port      : Option Port
  moving    : Bool
  fault     : Bool
  misses    : Nat
  refusal   : Option Refusing
  fast      : Bool
  countdown : Nat
  due       : Bool
deriving DecidableEq, Repr

/-- A MOVE, with its port and asked field, or a POLL (section 7.3). -/
inductive Request where
  | move (p : Port) (asked : Stamp)
  | poll
deriving DecidableEq, Repr

/-- An entry of the transaction queue: it names an island, never an address (section 7.3). -/
structure Entry where
  island  : IslandId
  request : Request
deriving DecidableEq, Repr

/-- The entry in flight (section 7.3): the transactions it has begun, the address the last was sent to, and whether its
outcome is no longer counted because the island's address has changed (R130). -/
structure Flight where
  entry  : Entry
  tries  : Nat
  sentTo : Nat
  orphan : Bool
deriving DecidableEq, Repr

/-- The line states (R119). -/
inductive LineState where
  | idle | sending | awaiting | gap
deriving DecidableEq, Repr

/-- The Mirror Link Controller (chapter 7). `transmit` is the transmit enable: the part drives the pair while it is on, and
`sending` are the characters of the request it then sends (R115, R120). `since` is the crystal cycle at which SENDING or GAP
began, `timer` the tick at which the reply timer started, `assembling` the characters of the message being assembled
(R121). -/
structure LinkUnit where
  settings   : LineSettings
  stations   : Two Station
  queue      : List Entry
  flight     : Option Flight
  line       : LineState
  transmit   : Bool
  sending    : List LinkChar
  since      : Nat
  timer      : Nat
  assembling : List LinkChar
deriving DecidableEq, Repr

/-! ### Analog Scanner -/

/-- The nine analog channels by kind (R132). -/
inductive ChannelId where
  | reference
  | lamp (h : HeadId)
  | tension (h : HeadId)
deriving DecidableEq, Repr

/-- The two sides of a window (R133). -/
inductive Side where
  | low | high
deriving DecidableEq, Repr

/-- The conditions a channel can hold present (R133). -/
inductive Condition where
  | lampFail | lampStuck | filmBreak | jam | analogRef
deriving DecidableEq, Repr

/-- The judging modes of R135 and R136. -/
inductive JudgingMode where
  | lampOn | warming | lampOff | driven | clearing | idle
deriving DecidableEq, Repr

/-- The limits and debounce of a channel (R133). -/
structure Limits where
  low      : Nat
  high     : Nat
  debounce : Nat
deriving DecidableEq, Repr

/-- A channel record (R133). `frozen` says that its judgement was suspended by ANALOG_REF and that it has had no
conversion since (R137). -/
structure Channel where
  limits    : Limits
  last      : Nat
  outCount  : Nat
  outSide   : Side
  inCount   : Nat
  condition : Option Condition
  mode      : Option JudgingMode
  frozen    : Bool
deriving DecidableEq, Repr

/-- The Analog Scanner (chapter 8): `period` in milliseconds, `begun` the tick the scan began, `next` the number of the
channel whose conversion completes next (9 when the scan's nine are done). -/
structure Analog where
  reference : Channel
  lamp      : Four Channel
  tension   : Four Channel
  period    : Nat
  begun     : Nat
  next      : Nat
deriving DecidableEq, Repr

/-! ### Alarm Table -/

/-- The sources of alarms and of events (R141, R186). -/
inductive AlarmSource where
  | device
  | head (h : HeadId)
  | island (i : IslandId)
  | reference
  | analog
deriving DecidableEq, Repr

/-- The alarm kinds, in the order of section 9.5. -/
inductive AlarmKind where
  | tachLoss | filmBreak | jam | lampFail | lampStuck | slowStart | lockLoss | cueFault | countLimit
  | lateStart | runout | mirrorFault | noSafeSource | stationOffline | refLoss | analogRef | memoryFault
  | windowViolation | config
deriving DecidableEq, Repr

/-- The severities (R141). -/
inductive Severity where
  | warning | fault | critical
deriving DecidableEq, Repr

/-- The states of an alarm entry (R141). -/
inductive EntryState where
  | activeNew | activeAck | clearedNew
deriving DecidableEq, Repr

/-- An alarm entry (R141); its severity is fixed by its kind. -/
structure AlarmEntry where
  source : AlarmSource
  kind   : AlarmKind
  state  : EntryState
  stamp  : Stamp
deriving DecidableEq, Repr

/-- The Alarm Table (chapter 9), oldest entry first, with its overflow record (R145) and the horn (R147). -/
structure AlarmTable where
  entries      : List AlarmEntry
  overflow     : Bool
  overflowHorn : Bool
  horn         : Bool
deriving DecidableEq, Repr

/-- The actions an ALARM event reports (R148); NOT_ENTERED carries the state the entry would have entered (R145, log
entry 18). -/
inductive AlarmAction where
  | raised | cleared | acknowledged | removed
  | notEntered (would : EntryState)
  | emptied
deriving DecidableEq, Repr

/-- The causes of REMOVED (R148); EVICTED carries the state of the evicted entry (R145, log entry 18). -/
inductive RemovalCause where
  | cleared | acknowledged
  | evicted (was : EntryState)
deriving DecidableEq, Repr

/-! ### Operator Panel -/

/-- The display modes (R161). -/
inductive DisplayMode where
  | feet | frames
deriving DecidableEq, Repr

/-- A key position: its debounced state and its agreement count (R154). -/
structure KeyPos where
  down  : Bool
  agree : Nat
deriving DecidableEq, Repr

/-- The four key positions of a row, by return line. -/
structure RowKeys where
  r1 : KeyPos
  r2 : KeyPos
  r3 : KeyPos
  r4 : KeyPos
deriving DecidableEq, Repr

/-- A displayed value as latched (R153, R161): the magnitude of V and whether the frame number is negative. -/
structure Shown where
  negative  : Bool
  magnitude : Nat
deriving DecidableEq, Repr

/-- The Panel Scanner (chapter 10). `row` is the active row from 0, `dwellNow` the setting the dwell in progress was
begun with, `image` the points as last driven, row by row. -/
structure Panel where
  mode     : DisplayMode
  dwell    : Nat
  row      : Fin 8
  begun    : Nat
  dwellNow : Nat
  shown    : Four (Option Shown)
  image    : Vector (BitVec 24) 8
  keys     : Vector RowKeys 8
deriving DecidableEq, Repr

/-- The outcomes a KEY event carries (R155). -/
inductive KeyOutcome where
  | acted | refused | eventOnly
deriving DecidableEq, Repr

/-! ### Window Decoder, Memory Agent, Command Unit, Event Unit -/

/-- The window kinds (R165). -/
inductive WindowKind where
  | command | event | live | guard
deriving DecidableEq, Repr

/-- A window (R165): `ring` is the ring size, 0 for LIVE and GUARD. -/
structure Window where
  base : Nat
  log2 : Nat
  kind : WindowKind
  ring : Nat
deriving DecidableEq, Repr

/-- The causes of a violation (R167). -/
inductive ViolationCause where
  | withheld | badIndex
deriving DecidableEq, Repr

/-- The violation record when it is not empty (R167). -/
structure Violation where
  addr  : Addr
  kind  : WindowKind
  cause : ViolationCause
  more  : Bool
deriving DecidableEq, Repr

/-- The live latch when it is not empty: the offset of the high word in the live window, and the snapshot (R169). -/
structure Latch where
  offset : Nat
  value  : Word
deriving DecidableEq, Repr

/-- Who holds the memory port (R171). -/
inductive Holder where
  | free
  | processor (c : BusCycle)
  | agent
deriving DecidableEq, Repr

/-- The Window Decoder and the memory port (chapter 11). `waiting` is a processor cycle that waits for the port;
`answer` is the word the decoder last answered a live read with. -/
structure Bus where
  windows   : List Window
  violation : Option Violation
  latch     : Option Latch
  holder    : Holder
  waiting   : Option BusCycle
  answer    : Option Word
deriving DecidableEq, Repr

/-- The kinds of agent job, in the order of R170; the start-up read names the word it reads. -/
inductive JobKind where
  | commandFetch | statusWrite | consumerWrite | eventWrite | producerWrite | startupCommand | startupEvent
deriving DecidableEq, Repr

/-- An agent job (R170): the address of its first word, and the words it writes, or how many it reads. -/
structure Job where
  kind  : JobKind
  addr  : Addr
  reads : Nat
  data  : List Word
deriving DecidableEq, Repr

/-- Where the agent's next word stands (R171): ready for the port, or on it since a tick. -/
inductive WordState where
  | idle
  | ready (since : Nat)
  | active (since : Nat)
deriving DecidableEq, Repr

/-- The Memory Agent (R170, R171): the jobs in order of submission, and how far the front one has come. -/
structure Agent where
  jobs    : List Job
  done    : Nat
  got     : List Word
  word    : WordState
  starved : Bool
  limit   : Nat
deriving DecidableEq, Repr

/-- The statuses of a command, in the order of R179. -/
inductive Status where
  | ok | clamped | badCommand | badTarget | badArgument | busy | localAuthority | tableFull | listFull | duplicate
  | notFound | inUse | active | tooLate | onAir | notAssigned | portTaken | faultLatched | conditionPresent | memFault
deriving DecidableEq, Repr

/-- The fetch states of the Command Unit (R176). -/
inductive FetchState where
  | idle | fetching | executing | completing
deriving DecidableEq, Repr

/-- The Command Unit (R176 to R178); `status` is the status in hand, the last one a command was given. -/
structure CommandUnit where
  consumer : Nat
  producer : Nat
  fetch    : FetchState
  status   : Option Status
deriving DecidableEq, Repr

/-- The kinds of lock a LOCK event reports (R47). -/
inductive LockKind where
  | first | relock
deriving DecidableEq, Repr

/-- The causes of ON_AIR (R112). -/
inductive OnAirCause where
  | confirmed | failed | report | clear
deriving DecidableEq, Repr

/-- The causes of STATION (R129). -/
inductive StationCause where
  | online | offline | report | refused
deriving DecidableEq, Repr

/-- What an event carries, by kind, in the order of the codes of R187. -/
inductive EventItem where
  | started (command event : Nat)
  | headState (new old : DriveState) (cause : Cause) (frame : Int)
  | parkLost (parked new : Position)
  | lock (kind : LockKind) (runupFrames : Option Int) (fields : Int) (frame : Int)
  | unlock (unsettled : Bool) (measured : Nat) (expected : Option Nat) (frame : Int)
  | cuePassed (id : Nat) (kind : CueKind) (confirm : ConfirmState) (inCorrection : Bool) (frame : Int)
  | cueConfirmed (off : Int) (id : Nat) (corrected : Bool) (delta : Int) (frame : Int)
  | markMissed (id : Nat) (passed : Bool) (deadline : Int) (frame : Int)
  | strayMark (frame : Int)
  | shortLeader (tag : Word) (incoming : HeadId) (distance : Nat) (leader : Int)
  | takeActive (tag : Word) (incoming : Source) (outgoing : Option Source) (mode : TakeMode) (basis : Option Basis)
      (sopCue changeCue : Option Nat) (fCut fStart : Option Stamp)
  | takeReady (tag : Word) (fCut : Option Stamp) (sop : Option Stamp) (basis : Option Basis) (error : Option Int)
  | takeCommit (tag : Word) (port : Port) (fCut : Option Stamp) (error : Option Int) (outcome : TakeOutcome) (slip : Int)
  | takeEnd (tag : Word) (outcome : TakeOutcome) (reason : Reason) (incoming : Source) (outgoing : Option Source)
      (fCut : Option Stamp) (error : Option Int) (slip : Int) (lost : Option Int)
  | onAir (cause : OnAirCause) (new old : Source) (port : Option Port) (cut : Option Stamp)
  | station (cause : StationCause) (address : Nat) (health : Online) (port : Option Port) (moving fault : Bool)
      (misses : Nat) (refusal : Option Refusing)
  | moveLate (address : Nat) (port : Port) (asked : Stamp) (sent : Stamp) (late : Int)
  | alarm (action : AlarmAction) (cause : Option RemovalCause) (state : Option EntryState) (kind : Option AlarmKind)
      (notEntered : Bool) (detail1 detail2 : Word)
  | key (outcome : KeyOutcome) (authority : Option Authority) (row line : Nat) (refusal : Option Status)
  | refState (new old : RefState)
deriving DecidableEq, Repr

/-- An event as made at its posting: source, field stamp and items (R181). -/
structure Event where
  source : AlarmSource
  stamp  : Stamp
  item   : EventItem
deriving DecidableEq, Repr

/-- The Event Unit (R181 to R184); `attention` is the attention line. -/
structure EventUnit where
  queue     : List Event
  producer  : Nat
  consumer  : Nat
  writing   : Bool
  lost      : Bool
  attention : Bool
deriving DecidableEq, Repr

/-- How far the initialisation of the rings has come (R174). -/
inductive Init where
  | waiting
  | readCommand
  | readEvent
  | writing (commandDone eventDone : Bool)
  | done
deriving DecidableEq, Repr

/-! ### The part -/

/-- The loader's internal copy of the stored defaults (R173). -/
structure Defaults where
  trim        : Int
  heads       : Four HeadSettings
  islands     : Two IslandSettings
  assignments : Four (Option Assignment)
  reference   : Limits
  lamp        : Four Limits
  tension     : Four Limits
deriving DecidableEq, Repr

/-- Whether the configuration load is in progress, has failed, or has completed validly (R173). -/
inductive PartMode where
  | loading | transparent | running
deriving DecidableEq, Repr

/-- The part: its fourteen blocks (Block overview). -/
structure Part where
  mode     : PartMode
  time     : Timebase
  ref      : RefUnit
  heads    : Four Head
  analog   : Analog
  islands  : Two Island
  link     : LinkUnit
  alarms   : AlarmTable
  panel    : Panel
  bus      : Bus
  agent    : Agent
  cmd      : CommandUnit
  evt      : EventUnit
  init     : Init
  defaults : Defaults
deriving DecidableEq, Repr

/-- The machine: the part, and the commands that wait to be taken, first in first out. -/
structure State where
  part    : Part
  pending : List Instr
deriving DecidableEq, Repr

/-- The faults of the machine. It has none: no rule gives a command that stops the part. -/
inductive Fault
deriving DecidableEq, Repr

/-- The refusals of the machine. -/
inductive Refusal where
  /-- Raised by exec's arm of a command that has no meaning yet; no command is in that case. Safe. -/
  | notModelled (mnemonic : String)
deriving DecidableEq, Repr

/-! ### Reset

Log entry 5: what the spec gives no reset value before a valid load holds the value of a newly prepared image. -/

/-- The settings of a head in a newly prepared image (R35, default column). -/
def HeadSettings.stored : HeadSettings :=
  { gauge := .g35, lockCount := 4, runupLead := 150, runupDistance := 24, runupLimit := 300, startResponse := 1000,
    lossTimeout := 120, approach := 48, parkTolerance := 1, settleTime := 200, sensorOffset := 0,
    lampPolicy := .auto, lampSettle := 300 }

/-- The settings of an island in a newly prepared image (R90, default column). -/
def IslandSettings.stored (address : Nat) : IslandSettings :=
  { address := address, standbyPort := .p4, lead := 6, tolerance := 2, policy := .fallback, grace := 10 }

/-- The reference channel's row of R133. -/
def Limits.reference : Limits := { low := 480, high := 544, debounce := 3 }
/-- The lamp channels' row of R133. -/
def Limits.lamp : Limits := { low := 200, high := 900, debounce := 3 }
/-- The tension channels' row of R133. -/
def Limits.tension : Limits := { low := 150, high := 850, debounce := 3 }

/-- The defaults of a newly prepared image; it assigns no head (log entry 5). -/
def Defaults.stored : Defaults :=
  { trim := 0, heads := .all .stored, islands := ⟨.stored 1, .stored 2⟩, assignments := .all none,
    reference := .reference, lamp := .all .lamp, tension := .all .tension }

/-- All five outputs off (R30, R37). -/
def Outputs.off : Outputs := { fwd := false, rev := false, speed := false, sync := false, lamp := false }

/-- The Cadence Monitor after reset (R52). -/
def Cadence.reset : Cadence :=
  { measuring := false, startStamp := none, startFrame := none, firstLock := false, boundary := none, fields := 0,
    lastLength := none, phase := none, provisional := none, run := 0, unlockStamp := none, lastTime := none,
    speed := 0, lastRunup := none, slowStart := false }

/-- A head after reset, with the settings and the assignment it takes (R37, R74). The spec gives the lamp switch-on time no
reset value: it holds none until the first switch-on (R17, log entry 52). -/
def Head.reset (c : HeadSettings) (a : Option Assignment) : Head :=
  { drive := .stopped, outputs := .off, lampPolicy := c.lampPolicy, lampOnAt := none, pos := ⟨0, 0⟩, gapFrom := none,
    settleFrom := none, attempts := 0, cueUp := none, park := none, fault := none, countLimit := none, assigned := a,
    settings := c, cadence := .reset, cues := [], mark := none }

/-- A channel record after reset, with the limits it takes (R140). -/
def Channel.reset (l : Limits) : Channel :=
  { limits := l, last := 0, outCount := 0, outSide := .low, inCount := 0, condition := none, mode := none,
    frozen := false }

/-- An island after reset, before its initial standby commit (R113). -/
def Island.reset (c : IslandSettings) : Island :=
  { onAir := .unknown, mirror := .unknown, confirm := none, authority := .remote, preset := .standby, settings := c,
    takes := [], fEnd := none }

/-- A station record after reset, with the poll interval (R131). -/
def Station.reset (interval : Nat) : Station :=
  { online := .unknown, port := none, moving := false, fault := false, misses := 0, refusal := none, fast := false,
    countdown := interval, due := false }

/-- The Mirror Link Controller after reset, with the line settings it takes (R131). -/
def LinkUnit.reset (c : LineSettings) : LinkUnit :=
  { settings := c, stations := ⟨.reset c.interval, .reset c.interval⟩, queue := [], flight := none, line := .idle,
    transmit := false, sending := [], since := 0, timer := 0, assembling := [] }

/-- The Field Reference Unit after reset (R15). -/
def RefUnit.reset : RefUnit :=
  { trim := 0, standard := .f50, count := 0, state := .search, pattern := 0, begun := 0, length := 20000,
    lastPulse := none, run := 0, raised := false, barren := 0, misses := 0, delta := none, history := [],
    accepted := none }

/-- The Alarm Table after reset (R151). -/
def AlarmTable.reset : AlarmTable := { entries := [], overflow := false, overflowHorn := false, horn := false }

/-- A key position UP with agreement count 0 (R163). -/
def KeyPos.up : KeyPos := { down := false, agree := 0 }
/-- A row of key positions UP. -/
def RowKeys.up : RowKeys := ⟨.up, .up, .up, .up⟩

/-- The Panel Scanner before its first scan (R163), with the display mode and dwell it takes. -/
def Panel.reset (m : DisplayMode) (d : Nat) : Panel :=
  { mode := m, dwell := d, row := 0, begun := 0, dwellNow := d, shown := .all none, image := .replicate 8 0,
    keys := .replicate 8 .up }

/-- The Window Decoder and the port after reset (R175). -/
def Bus.reset : Bus :=
  { windows := [], violation := none, latch := none, holder := .free, waiting := none, answer := none }

/-- The Memory Agent after reset, with the starve limit it takes (R175). -/
def Agent.reset (limit : Nat) : Agent :=
  { jobs := [], done := 0, got := [], word := .idle, starved := false, limit := limit }

/-- The part right after power-on or a pulse on the reset line: the load is in progress (R173, R175, R185). The four ring
indices, which the spec first gives at the start-up reads, hold 0 until then (log entry 5). -/
def Part.reset : Part :=
  { mode := .loading
    time := { acc := 0, crystal := 0, now := 0 }
    ref := .reset
    heads := .all (.reset .stored none)
    analog := { reference := .reset .reference, lamp := .all (.reset .lamp), tension := .all (.reset .tension),
                period := 10, begun := 0, next := 0 }
    islands := ⟨.reset (.stored 1), .reset (.stored 2)⟩
    link := .reset { rate := .b19200, gap := 2, timeout := 20, interval := 10 }
    alarms := .reset
    panel := .reset .feet 31
    bus := .reset
    agent := .reset 32
    cmd := { consumer := 0, producer := 0, fetch := .idle, status := none }
    evt := { queue := [], producer := 0, consumer := 0, writing := false, lost := false, attention := false }
    init := .waiting
    defaults := .stored }

/-- The machine right after reset, with no command waiting. -/
def State.reset : State := { part := .reset, pending := [] }

end Sys2Proof.Machine
end

