-- ==== Sys2Proof/Machine/Formats.lean ====
section
/-! DEFINITION. The codes and byte layouts seen outside the part: enumerations (R186), event records (R187) and link
messages (R190). The live layout (R188) is in Live.lean and the configuration image (R189) in Image.lean. -/

namespace Sys2Proof.Machine

/-! ### Codes (R186): from 0 in the order of the defining rule, where no other code is given -/

/-- The code of a drive state (section 2.1). -/
def DriveState.code : DriveState → Nat
  | .stopped => 0 | .parked => 1 | .cueFast => 2 | .cueInch => 3 | .settling => 4
  | .runup => 5 | .locked => 6 | .unlocked => 7 | .stopping => 8 | .fault => 9

/-- The code of a HEAD_STATE cause (R36). -/
def Cause.code : Cause → Nat
  | .command => 0 | .key => 1 | .scheduler => 2 | .cue => 3 | .cadence => 4 | .cueUp => 5 | .settle => 6
  | .motion => 7 | .tachLoss => 8 | .filmBreak => 9 | .jam => 10 | .clear => 11

/-- The code of a reference state (section 1.4). -/
def RefState.code : RefState → Nat
  | .search => 0 | .locked => 1 | .flywheel => 2 | .slewing => 3

/-- The code of a recorded fault kind: 0 for none (R186). -/
def faultCode : Option FaultKind → Nat
  | none => 0 | some .tachLoss => 1 | some .filmBreak => 2 | some .jam => 3

/-- The code of a source of an island (R186). -/
def Source.code : Source → Nat
  | .standby => 0 | .head h => h.num | .unknown => 7

/-- The code of an alarm or event source (R186). -/
def AlarmSource.code : AlarmSource → Nat
  | .device => 0 | .head h => h.num | .island i => 4 + i.num | .reference => 7 | .analog => 8

/-- The code of an alarm kind (section 9.5). -/
def AlarmKind.code : AlarmKind → Nat
  | .tachLoss => 0 | .filmBreak => 1 | .jam => 2 | .lampFail => 3 | .lampStuck => 4 | .slowStart => 5 | .lockLoss => 6
  | .cueFault => 7 | .countLimit => 8 | .lateStart => 9 | .runout => 10 | .mirrorFault => 11 | .noSafeSource => 12
  | .stationOffline => 13 | .refLoss => 14 | .analogRef => 15 | .memoryFault => 16 | .windowViolation => 17
  | .config => 18

/-- The code of a severity (R141). -/
def Severity.code : Severity → Nat
  | .warning => 0 | .fault => 1 | .critical => 2

/-- The code of an entry state (R141). -/
def EntryState.code : EntryState → Nat
  | .activeNew => 0 | .activeAck => 1 | .clearedNew => 2

/-- The code of an ALARM action (R148). -/
def AlarmAction.code : AlarmAction → Nat
  | .raised => 0 | .cleared => 1 | .acknowledged => 2 | .removed => 3 | .notEntered _ => 4 | .emptied => 5

/-- The code of a removal cause (R148). -/
def RemovalCause.code : RemovalCause → Nat
  | .cleared => 0 | .acknowledged => 1 | .evicted _ => 2

/-- The code of a take mode (R92). -/
def TakeMode.code : TakeMode → Nat
  | .atCue => 0 | .atField => 1 | .now => 2

/-- The code of a take state (R92). -/
def TakeState.code : TakeState → Nat
  | .queued => 0 | .armed => 1 | .starting => 2 | .ready => 3 | .held => 4 | .committed => 5

/-- The code of an outcome (R92). -/
def TakeOutcome.code : TakeOutcome → Nat
  | .done => 0 | .slipped => 1 | .early => 2 | .emergency => 3 | .fallback => 4 | .failed => 5 | .cancelled => 6
  | .aborted => 7

/-- The code of a reason (R186). -/
def Reason.code : Reason → Nat
  | .none => 0 | .sameSource => 1 | .incomingFault => 2 | .incomingStopped => 3 | .mirror => 4 | .lateStart => 5
  | .runout => 6 | .command => 7 | .standby => 8 | .clear => 9

/-- The code of a basis (R75). -/
def Basis.code : Basis → Nat
  | .exact => 0 | .estimate => 1 | .frozen => 2 | .reached => 3 | .absent => 4

/-- The code of a cue kind (R53). -/
def CueKind.code : CueKind → Nat
  | .sop => 0 | .changeover => 1 | .ending => 2 | .stop => 3 | .mark => 4

/-- The code of a confirm state (R53). -/
def ConfirmState.code : ConfirmState → Nat
  | .none => 0 | .confirmed => 1 | .unconfirmed => 2

/-- The code of a line state (R119). -/
def LineState.code : LineState → Nat
  | .idle => 0 | .sending => 1 | .awaiting => 2 | .gap => 3

/-- The code of an online state (R117). -/
def Online.code : Online → Nat
  | .unknown => 0 | .online => 1 | .offline => 2

/-- The code of a STATION cause (R129). -/
def StationCause.code : StationCause → Nat
  | .online => 0 | .offline => 1 | .report => 2 | .refused => 3

/-- The code of an ON_AIR cause (R112). -/
def OnAirCause.code : OnAirCause → Nat
  | .confirmed => 0 | .failed => 1 | .report => 2 | .clear => 3

/-- The code of a KEY outcome (R155). -/
def KeyOutcome.code : KeyOutcome → Nat
  | .acted => 0 | .refused => 1 | .eventOnly => 2

/-- The code of a kind of lock (R47). -/
def LockKind.code : LockKind → Nat
  | .first => 0 | .relock => 1

/-- The code of an authority (R91). -/
def Authority.code : Authority → Nat
  | .remote => 0 | .panel => 1

/-- The code of a job kind (R170); the two start-up reads are one kind. -/
def JobKind.code : JobKind → Nat
  | .commandFetch => 0 | .statusWrite => 1 | .consumerWrite => 2 | .eventWrite => 3 | .producerWrite => 4
  | .startupCommand => 5 | .startupEvent => 5

/-- The code of a status (R179). -/
def Status.code : Status → Nat
  | .ok => 0x00 | .clamped => 0x01 | .badCommand => 0x02 | .badTarget => 0x03 | .badArgument => 0x04 | .busy => 0x05
  | .localAuthority => 0x06 | .tableFull => 0x07 | .listFull => 0x08 | .duplicate => 0x09 | .notFound => 0x0A
  | .inUse => 0x0B | .active => 0x0C | .tooLate => 0x0D | .onAir => 0x0E | .notAssigned => 0x0F | .portTaken => 0x10
  | .faultLatched => 0x11 | .conditionPresent => 0x12 | .memFault => 0x13

/-- Yes is 1 and no is 0 (log entry 8). -/
def flag (b : Bool) : Nat := if b then 1 else 0

/-! ### Fields of words -/

/-- A value limited to the range of a field of `w` bits (R186). -/
def limit (w n : Nat) : Nat := min n (2 ^ w - 1)

/-- Fields packed from bit 0 upward, each a width and a value, each value limited to its width (log entry 9). -/
def pack : List (Nat × Nat) → Nat
  | [] => 0
  | (w, n) :: rest => limit w n + 2 ^ w * pack rest

/-- A word whose low byte and high byte are given ("id, kind"; R187). -/
def pair (lo hi : Nat) : Word := BitVec.ofNat 16 (pack [(8, lo), (8, hi)])

/-- A count in a word, carried as 65,535 when it is above (R186). -/
def word (n : Nat) : Word := BitVec.ofNat 16 (limit 16 n)

/-- The low word of a 32-bit value. -/
def lowWord (x : BitVec 32) : Word := x.extractLsb' 0 16
/-- The high word of a 32-bit value. -/
def highWord (x : BitVec 32) : Word := x.extractLsb' 16 16
/-- The 32-bit value of two words, low word first (section 12.4). -/
def join32 (lo hi : Word) : BitVec 32 := hi ++ lo
/-- A signed number in 32 bits (R186). -/
def signed32 (x : Int) : BitVec 32 := BitVec.ofInt 32 x

/-- A signed number limited to −m … +m. -/
def clampInt (m x : Int) : Int := max (-m) (min m x)

/-- An error or a fields-late figure in 16 bits: limited to ±32,767, −32,768 for absent (R186). -/
def figure16 : Option Int → Word
  | some x => BitVec.ofInt 16 (clampInt 32767 x)
  | none => BitVec.ofInt 16 (-32768)

/-- The signed modular difference of two stamps, `b` less `a`, in −2^31 … 2^31 − 1 (Field count and field stamps). -/
def Stamp.diff (b a : Stamp) : Int := (b - a).toInt

/-- A count in a word, limited to the word's range (R186). No rule says whether run-up frames, run-up fields and fields since
unlock are signed in their words: a negative figure is limited to 0 (R47, R48, log entry 53). -/
def count16 (x : Int) : Word := word x.toNat

/-- A near field: the field less the event's stamp (R186). -/
def near (stamp : Stamp) : Option Stamp → Word
  | some f => figure16 (some (Stamp.diff f stamp))
  | none => figure16 none

/-- A position in an event: frame × 4 + phase, in 32 bits (R186). -/
def position32 (p : Position) : BitVec 32 := signed32 (p.frame * 4 + p.phase)

/-- What an absent thing reads as where no rule says (log entry 6). -/
def orAbsent (f : Config.AbsentField) : Option Nat → Nat
  | some n => n
  | none => Config.absentReading f

/-- The word behind the last item of a record (log entry 6). -/
def trailing : Word := BitVec.ofNat 16 (Config.absentReading .trailingWord)

/-! ### Severity -/

/-- The severity fixed by an alarm kind (section 9.5). -/
def AlarmKind.severity : AlarmKind → Severity
  | .tachLoss | .filmBreak | .jam | .lampFail | .lateStart | .runout | .mirrorFault | .stationOffline | .analogRef
  | .memoryFault => .fault
  | .lampStuck | .slowStart | .lockLoss | .cueFault | .countLimit | .refLoss | .windowViolation => .warning
  | .noSafeSource | .config => .critical

/-! ### Event records (R187) -/

/-- The kind code of an event (R187). -/
def EventItem.code : EventItem → Nat
  | .started .. => 0x00 | .headState .. => 0x01 | .parkLost .. => 0x02 | .lock .. => 0x03 | .unlock .. => 0x04
  | .cuePassed .. => 0x05 | .cueConfirmed .. => 0x06 | .markMissed .. => 0x07 | .strayMark .. => 0x08
  | .shortLeader .. => 0x09 | .takeActive .. => 0x0A | .takeReady .. => 0x0B | .takeCommit .. => 0x0C
  | .takeEnd .. => 0x0D | .onAir .. => 0x0E | .station .. => 0x0F | .moveLate .. => 0x10 | .alarm .. => 0x11
  | .key .. => 0x12 | .refState .. => 0x13

/-- The code of the basis of a take's F_cut; a cut that is set and not predicted has none (R75, log entry 6). -/
def cutBasisCode : Option Basis → Nat
  | some b => b.code
  | none => Config.absentReading .cutBasis

/-- Byte X of an event record (R187). -/
def EventItem.byteX : EventItem → Nat
  | .lock k .. => k.code
  | .unlock u .. => flag u
  | .cueConfirmed off .. => (BitVec.ofInt 8 (max (-128) (min 127 off))).toNat
  | .takeActive _ _ _ mode basis sop change _ _ =>
      pack [(2, mode.code), (3, cutBasisCode basis), (1, flag sop.isSome), (1, flag change.isSome)]
  | .takeReady _ _ _ basis _ => (basis.getD .absent).code
  | .takeCommit _ _ _ _ outcome _ => outcome.code
  | .takeEnd _ outcome reason .. => pack [(4, outcome.code), (4, reason.code)]
  | .onAir cause .. => cause.code
  | .station cause .. => cause.code
  | .alarm action cause .. => pack [(4, action.code), (4, (cause.map RemovalCause.code).getD 0)]
  | .key outcome .. => outcome.code
  | .started .. | .headState .. | .parkLost .. | .cuePassed .. | .markMissed .. | .strayMark .. | .shortLeader ..
  | .moveLate .. | .refState .. => 0

/-- The code of the outgoing source of a take, absent before its activation (log entry 6). -/
def outgoingCode (o : Option Source) : Nat := orAbsent .takeOutgoing (o.map Source.code)

/-- Byte Y of an event record (R187). -/
def EventItem.byteY : EventItem → Nat
  | .takeActive _ incoming outgoing .. => pack [(4, incoming.code), (4, outgoingCode outgoing)]
  | .takeCommit _ port .. => port.num
  | .takeEnd _ _ _ incoming outgoing .. => pack [(4, incoming.code), (4, outgoingCode outgoing)]
  | .onAir _ new old .. => pack [(4, new.code), (4, old.code)]
  | .alarm _ _ state .. => (state.map EntryState.code).getD 15
  | .key _ authority .. => (authority.map Authority.code).getD 2
  | .started .. | .headState .. | .parkLost .. | .lock .. | .unlock .. | .cuePassed .. | .cueConfirmed ..
  | .markMissed .. | .strayMark .. | .shortLeader .. | .takeReady .. | .station .. | .moveLate .. | .refState .. => 0

/-- A 32-bit item as two words, low word first. -/
def two (x : BitVec 32) : List Word := [lowWord x, highWord x]

/-- The reported port of a station: 0 for absent (R187). -/
def portCode (p : Option Port) : Nat := (p.map Port.num).getD 0

/-- Words 4 to 7 of an event record (R187); `s` is the event's stamp. The run-up frames and fields of LOCK and the fields since
unlock of RELOCK are unsigned counts (R47, R48, log entry 53). -/
def EventItem.items (s : Stamp) : EventItem → List Word
  | .started c e => [word c, word e, trailing, trailing]
  | .headState new old cause frame => [pair new.code old.code, word cause.code] ++ two (signed32 frame)
  | .parkLost a b => two (position32 a) ++ two (position32 b)
  | .lock _ frames fields frame =>
      [count16 (frames.getD (Config.absentReading .relockFrames)), count16 fields] ++ two (signed32 frame)
  | .unlock _ measured expected frame => [word measured, word (expected.getD 0)] ++ two (signed32 frame)
  | .cuePassed id kind confirm fired frame =>
      [pair id kind.code, pair confirm.code (flag fired)] ++ two (signed32 frame)
  | .cueConfirmed _ id corrected delta frame =>
      [pair id (flag corrected), figure16 (some delta)] ++ two (signed32 frame)
  | .markMissed id passed deadline frame =>
      [pair id (flag passed), figure16 (some (deadline - frame))] ++ two (signed32 frame)
  | .strayMark p => [0, 0] ++ two (signed32 p)
  | .shortLeader tag incoming distance leader => [tag, pair incoming.num distance] ++ two (signed32 leader)
  | .takeActive tag _ _ _ _ sop change cut start =>
      [tag, pair (orAbsent .takeCue sop) (orAbsent .takeCue change), near s cut, near s start]
  | .takeReady tag cut sop _ e => [tag, near s cut, near s sop, figure16 e]
  | .takeCommit tag _ cut e _ slip => [tag, near s cut, figure16 e, count16 slip]
  | .takeEnd tag outcome _ _ _ cut e slip lost =>
      [tag, near s cut, figure16 (if outcome = .early then lost else e), count16 slip]
  | .onAir _ _ _ port cut =>
      [word (orAbsent .onAirPort (port.map Port.num)), near s cut, trailing, trailing]
  | .station _ address health port moving fault misses refusal =>
      [pair address health.code,
       BitVec.ofNat 16 (pack [(8, portCode port), (1, flag moving), (1, flag fault)]),
       word misses,
       pair (orAbsent .refusedPort (refusal.map (·.port.num))) (orAbsent .refusedReason (refusal.map (·.reason.toNat)))]
  | .moveLate address port asked _ late => [pair address port.num] ++ two asked ++ [figure16 (some late)]
  | .alarm _ _ _ kind notEntered d1 d2 =>
      [pair ((kind.map AlarmKind.code).getD 255) ((kind.map (·.severity.code)).getD 255), word (flag notEntered), d1, d2]
  | .key _ _ row line refusal => [pair row line, word (orAbsent .keyRefusal (refusal.map Status.code)), trailing, trailing]
  | .refState new old => [pair new.code old.code, trailing, trailing, trailing]

/-- The eight words of an event record (R187). -/
def Event.words (e : Event) : List Word :=
  [pair e.item.code e.item.byteX, pair e.source.code e.item.byteY] ++ two e.stamp ++ e.item.items e.stamp

/-! ### Link messages (R190) -/

/-- The four bytes of a request to a station: the check byte makes their sum 0 modulo 256 (R116, R190). -/
def requestBytes (address : Nat) (r : Request) : List Byte :=
  let a : Byte := BitVec.ofNat 8 (address % 16)
  let (c, g) : Byte × Byte :=
    match r with
    | .move p _ => (0x01, BitVec.ofNat 8 p.num)
    | .poll => (0x02, 0x00)
  [a, c, g, 0 - (a + c + g)]

/-- The address byte of a reply from a station: direction bit 7 at 1 (R190). -/
def replyAddress (address : Nat) : Byte := BitVec.ofNat 8 (address % 16 + 128)

/-- The port a number names, when it names one. -/
def portOfNat : Nat → Option Port
  | 1 => some .p1
  | 2 => some .p2
  | 3 => some .p3
  | 4 => some .p4
  | _ => none

/-- What a reply says (R116). -/
inductive Reply where
  | accept
  | refuse (reason : Byte)
  | status (port : Port) (moving fault : Bool)
deriving DecidableEq, Repr

/-- The reply a good message carries to a request sent to `address`, or none when the message is bad (R121, R190). -/
def readReply (address : Nat) (r : Request) (chars : List LinkChar) : Option Reply :=
  match chars with
  | [a, c, g, k] =>
    if a.framing || c.framing || g.framing || k.framing then none
    else if a.data + c.data + g.data + k.data ≠ 0 then none
    else if a.data ≠ replyAddress address then none
    else
      match r with
      | .move p _ =>
        if c.data = 0x81 then (if g.data.toNat = p.num then some .accept else none)
        else if c.data = 0x82 then some (.refuse g.data)
        else none
      | .poll =>
        if c.data = 0x83 then
          (portOfNat (g.data.toNat % 8)).map fun q => .status q (g.data.getLsbD 6) (g.data.getLsbD 7)
        else none
  | _ => none

end Sys2Proof.Machine
end

