-- ==== Sys2Proof/Machine/Operands.lean ====
section
/-! DEFINITION. The words of a command as the part reads them: targets, enumerations and numbers (R180, R186), and the
clamping of settings (Numbers and outcomes). -/

namespace Sys2Proof.Machine

/-- The head a number names, 1 … 4. -/
def headOfNat : Nat → Option HeadId
  | 1 => some .h1
  | 2 => some .h2
  | 3 => some .h3
  | 4 => some .h4
  | _ => none

/-- The head a target word names (R23). -/
def readHead (w : Word) : Option HeadId := headOfNat w.toNat

/-- The island a number names, 1 or 2. -/
def islandOfNat : Nat → Option IslandId
  | 1 => some .i1
  | 2 => some .i2
  | _ => none

/-- The island a target word names (R90). -/
def readIsland (w : Word) : Option IslandId := islandOfNat w.toNat

/-- The multiplexer port a word names. -/
def readPort (w : Word) : Option Port := portOfNat w.toNat

/-- The incoming source a word names: STANDBY or a head (R93, R186). -/
def readIncoming (w : Word) : Option Source :=
  match w.toNat with
  | 0 => some .standby
  | n + 1 => (headOfNat (n + 1)).map .head

/-- The mode of a take (R92). -/
def readMode (w : Word) : Option TakeMode :=
  match w.toNat with
  | 0 => some .atCue
  | 1 => some .atField
  | 2 => some .now
  | _ => none

/-- The preroll of a take (R92). -/
def readPreroll (w : Word) : Option Preroll :=
  match w.toNat with
  | 0 => some .auto
  | 1 => some .manual
  | _ => none

/-- A cue id that may be absent: 65,535 is absent, any other value above 255 is malformed (section 12.1). -/
def readCueId (w : Word) : Option (Option Nat) :=
  if w = 0xFFFF then some none
  else if w.toNat ≤ 255 then some (some w.toNat)
  else none

/-- The kind of a cue (R53). -/
def readCueKind (w : Word) : Option CueKind :=
  match w.toNat with
  | 0 => some .sop
  | 1 => some .changeover
  | 2 => some .ending
  | 3 => some .stop
  | 4 => some .mark
  | _ => none

/-- A yes or a no (log entry 8). -/
def readFlag (w : Word) : Option Bool :=
  match w.toNat with
  | 0 => some false
  | 1 => some true
  | _ => none

/-- The gauge a number names (R35). -/
def gaugeOfNat : Nat → Option Gauge
  | 0 => some .g35
  | 1 => some .g16
  | _ => none

/-- The lamp policy a number names (R17). -/
def policyOfNat : Nat → Option LampPolicy
  | 0 => some .auto
  | 1 => some .manual
  | _ => none

/-- The fault policy a number names (R90). -/
def faultPolicyOfNat : Nat → Option FaultPolicy
  | 0 => some .fallback
  | 1 => some .hold
  | _ => none

/-- The display mode a number names (R161). -/
def displayModeOfNat : Nat → Option DisplayMode
  | 0 => some .feet
  | 1 => some .frames
  | _ => none

/-- The scope of an acknowledgement: all sources, or one (R146, R186). -/
def readScope (w : Word) : Option (Option AlarmSource) :=
  match w.toNat with
  | 255 => some none
  | 0 => some (some .device)
  | 5 => some (some (.island .i1))
  | 6 => some (some (.island .i2))
  | 7 => some (some .reference)
  | 8 => some (some .analog)
  | n => (headOfNat n).map fun h => some (.head h)

/-- The channel a number names, 0 … 8, in the order of R132. -/
def channelOfNat : Nat → Option ChannelId
  | 0 => some .reference
  | 1 => some (.lamp .h1)
  | 2 => some (.tension .h1)
  | 3 => some (.lamp .h2)
  | 4 => some (.tension .h2)
  | 5 => some (.lamp .h3)
  | 6 => some (.tension .h3)
  | 7 => some (.lamp .h4)
  | 8 => some (.tension .h4)
  | _ => none

/-- A frame number given in 32 bits, when it lies in the frame range (Position). -/
def readFrame (x : BitVec 32) : Option Int :=
  if Config.frameMin ≤ x.toInt ∧ x.toInt ≤ Config.frameMax then some x.toInt else none

/-- A number clamped to `lo` … `hi` (Numbers and outcomes). -/
def clamp (lo hi n : Nat) : Nat := max lo (min hi n)

/-- The trim a signed number gives, clamped (R2). -/
def clampTrim (x : Int) : Int := clampInt Config.trimMax x

/-- Head settings with every number clamped to its range (R35). -/
def HeadSettings.clamped (c : HeadSettings) : HeadSettings :=
  { c with
    lockCount := clamp 2 15 c.lockCount
    runupLead := clamp 10 1000 c.runupLead
    runupDistance := clamp 0 240 c.runupDistance
    runupLimit := clamp 20 2000 c.runupLimit
    startResponse := clamp 100 5000 c.startResponse
    lossTimeout := clamp 20 1000 c.lossTimeout
    approach := clamp 4 480 c.approach
    parkTolerance := clamp 0 8 c.parkTolerance
    settleTime := clamp 50 1000 c.settleTime
    sensorOffset := clamp 0 63 c.sensorOffset
    lampSettle := clamp 100 2000 c.lampSettle }

/-- The head settings of a CONFIGURE_HEAD entry before clamping, unless its gauge or lamp policy is unknown
(R35, R180). -/
def readHeadSettings (w : HeadWords) : Option HeadSettings :=
  match gaugeOfNat (w.gaugePolicy.toNat % 256), policyOfNat (w.gaugePolicy.toNat / 256) with
  | some g, some p =>
    some { gauge := g, lockCount := w.lockCount.toNat, runupLead := w.runupLead.toNat,
           runupDistance := w.runupDistance.toNat, runupLimit := w.runupLimit.toNat,
           startResponse := w.startResponse.toNat, lossTimeout := w.lossTimeout.toNat, approach := w.approach.toNat,
           parkTolerance := w.parkTolerance.toNat, settleTime := w.settleTime.toNat,
           sensorOffset := w.sensorOffset.toNat, lampPolicy := p, lampSettle := w.lampSettle.toNat }
  | _, _ => none

/-- The port a number gives after clamping to 1 … 4 (R90). -/
def clampPort (n : Nat) : Port :=
  if n ≤ 1 then .p1 else if n = 2 then .p2 else if n = 3 then .p3 else .p4

/-- Island settings from their six numbers with every number clamped, unless the fault policy is unknown; and whether
any number was clamped (R90). -/
def readIslandSettings (address port lead tolerance policy grace : Nat) : Option (IslandSettings × Bool) :=
  (faultPolicyOfNat policy).map fun f =>
    let c : IslandSettings :=
      { address := clamp 1 15 address, standbyPort := clampPort port, lead := clamp 1 15 lead,
        tolerance := clamp 0 8 tolerance, policy := f, grace := clamp 1 30 grace }
    (c, c.address ≠ address || c.standbyPort.num ≠ port || c.lead ≠ lead || c.tolerance ≠ tolerance || c.grace ≠ grace)

/-- Limits and a debounce clamped to their ranges (R133, R139). -/
def Limits.clamped (l : Limits) : Limits :=
  { low := clamp 0 1023 l.low, high := clamp 0 1023 l.high, debounce := clamp 1 15 l.debounce }

/-- The status of a command that was carried out: CLAMPED when a number was clamped, OK otherwise. -/
def doneStatus (wasClamped : Bool) : Status := if wasClamped then .clamped else .ok

end Sys2Proof.Machine
end

