-- ==== Sys2Proof/Machine/Flags.lean ====
section
/-! DEFINITION. The conditions and flags the blocks compute from their state: classes of drive state, when a field is
reached, the horn, the attention line, room in the event ring. -/

namespace Sys2Proof.Machine

/-! ### Fields -/

/-- Field X is reached when the count equals X or is after X in the modular order (Field count and field stamps; R4). -/
def reached (count x : Stamp) : Bool := (count - x).toNat < 2 ^ 31

/-- Field `b` is after field `a` in the modular order. -/
def Stamp.after (b a : Stamp) : Bool := 1 ≤ (b - a).toNat && (b - a).toNat < 2 ^ 31

/-- A stamp `n` fields later, modulo 2^32. -/
def Stamp.plus (x : Stamp) (n : Nat) : Stamp := x + BitVec.ofNat 32 n

/-- A stamp `n` fields earlier, modulo 2^32. -/
def Stamp.minus (x : Stamp) (n : Nat) : Stamp := x - BitVec.ofNat 32 n

/-! ### Heads -/

/-- The running states (section 2.1). -/
def DriveState.running : DriveState → Bool
  | .runup | .locked | .unlocked => true
  | .stopped | .parked | .cueFast | .cueInch | .settling | .stopping | .fault => false

/-- The cueing states (section 2.1). -/
def DriveState.cueing : DriveState → Bool
  | .cueFast | .cueInch => true
  | .stopped | .parked | .settling | .runup | .locked | .unlocked | .stopping | .fault => false

/-- The states in which the motor is driven: the running and the cueing states (R27, R136). -/
def DriveState.driven (d : DriveState) : Bool := d.running || d.cueing

/-- STOPPED and PARKED, the states a START is taken in (R24). -/
def DriveState.atRest : DriveState → Bool
  | .stopped | .parked => true
  | .cueFast | .cueInch | .settling | .runup | .locked | .unlocked | .stopping | .fault => false

/-- Perfs per frame (Position). -/
def Gauge.perfs : Gauge → Nat
  | .g35 => 4
  | .g16 => 1

/-- Frames per foot (Position). -/
def Gauge.perFoot : Gauge → Nat
  | .g35 => 16
  | .g16 => 40

/-- A position in perfs (section 4.4). -/
def Position.perfs (g : Gauge) (p : Position) : Int := p.frame * g.perfs + p.phase

/-- The position at an end of the range (R19). -/
def LimitSide.position (g : Gauge) : LimitSide → Position
  | .highest => ⟨Config.frameMax, g.perfs - 1⟩
  | .lowest => ⟨Config.frameMin, 0⟩

/-- The limit of the tachometer gap measurement in ticks, in the states that arm it (R27). -/
def Head.gapLimit (h : Head) : Nat :=
  match h.drive with
  | .locked | .unlocked => h.settings.lossTimeout * 1000
  | .runup | .cueFast | .cueInch | .stopped | .parked | .settling | .stopping | .fault => h.settings.startResponse * 1000

/-- The expected length ℓ of the frame in progress as published: 2 on the 2:2 cadence while a boundary stamp is held,
the cadence phase on the 3:2 cadence (R41, R42). -/
def Cadence.expected (s : Standard) (c : Cadence) : Option Nat :=
  match s with
  | .f50 => if c.measuring && c.boundary.isSome then some 2 else none
  | .f60 => c.phase

/-! ### Alarms -/

/-- An entry is unacknowledged in ACTIVE_NEW and CLEARED_NEW (R141). -/
def AlarmEntry.unacknowledged (e : AlarmEntry) : Bool := e.state ≠ .activeAck

/-- Whether a severity sounds the horn (R147). -/
def Severity.sounds : Severity → Bool
  | .warning => false
  | .fault | .critical => true

/-- Whether the table sounds the horn (R147). -/
def AlarmTable.sounds (t : AlarmTable) : Bool :=
  t.overflowHorn || t.entries.any fun e => e.unacknowledged && e.kind.severity.sounds

/-- The momentary kinds (R143). -/
def AlarmKind.momentary : AlarmKind → Bool
  | .lateStart | .runout | .memoryFault | .windowViolation | .cueFault => true
  | .tachLoss | .filmBreak | .jam | .lampFail | .lampStuck | .slowStart | .lockLoss | .countLimit | .mirrorFault
  | .noSafeSource | .stationOffline | .refLoss | .analogRef | .config => false

/-- The alarm kind of a latched head fault. -/
def FaultKind.alarm : FaultKind → AlarmKind
  | .tachLoss => .tachLoss
  | .filmBreak => .filmBreak
  | .jam => .jam

/-- The HEAD_STATE cause of a latched head fault (R36). -/
def FaultKind.cause : FaultKind → Cause
  | .tachLoss => .tachLoss
  | .filmBreak => .filmBreak
  | .jam => .jam

/-! ### Rings -/

/-- The window of a kind in the window table. -/
def Bus.window? (b : Bus) (k : WindowKind) : Option Window := b.windows.find? fun w => w.kind = k

/-- The ring size of the COMMAND or EVENT window (R165). -/
def Bus.ringSize (b : Bus) (k : WindowKind) : Nat := ((b.window? k).map (·.ring)).getD 0

/-- The base address of the window of a kind. -/
def Bus.base (b : Bus) (k : WindowKind) : Nat := ((b.window? k).map (·.base)).getD 0

/-- Room in the event ring (R182): producer + 1 differs from the last seen consumer index. -/
def EventUnit.room (e : EventUnit) (n : Nat) : Bool := (e.producer + 1) % n ≠ e.consumer

/-- The attention line as judged (R183): asserted while the indices differ. -/
def EventUnit.judged (e : EventUnit) : EventUnit := { e with attention := e.producer ≠ e.consumer }

end Sys2Proof.Machine
end

