-- ==== Sys2Proof/Machine/Ops.lean ====
section
/-! DEFINITION. The shared operations every block works through: changing one head or one island, the memory port and
the jobs of the Memory Agent, posting an event, raising and clearing an alarm. -/

namespace Sys2Proof.Machine


/-! ### Reading and changing a part -/

/-- The head `h`. -/
def Part.head (p : Part) (h : HeadId) : Head := p.heads.get h

/-- The island `i`. -/
def Part.island (p : Part) (i : IslandId) : Island := p.islands.get i

/-- `p` with head `h` changed by `f`. -/
def Part.modHead (p : Part) (h : HeadId) (f : Head → Head) : Part := { p with heads := p.heads.set h (f (p.heads.get h)) }

/-- `p` with island `i` changed by `f`. -/
def Part.modIsland (p : Part) (i : IslandId) (f : Island → Island) : Part :=
  { p with islands := p.islands.set i (f (p.islands.get i)) }

/-- `p` with the Cadence Monitor of head `h` changed by `f`. -/
def Part.modCadence (p : Part) (h : HeadId) (f : Cadence → Cadence) : Part :=
  p.modHead h fun x => { x with cadence := f x.cadence }

/-- `p` with the station record of island `i` changed by `f`. -/
def Part.modStation (p : Part) (i : IslandId) (f : Station → Station) : Part :=
  { p with link := { p.link with stations := p.link.stations.set i (f (p.link.stations.get i)) } }

/-- A block takes an event only after a valid load (R15, R37, R131, R140, R185). -/
def Part.running (p : Part) : Bool := p.mode = .running

/-- What a command does, when the blocks have started; otherwise nothing. -/
def whenRunning (f : Part → Part) (p : Part) : Part := if p.running then f p else p

/-! ### Time -/

/-- The crystal cycles until `n` more ticks have been issued, from accumulator value `acc` and increment `g` (R1). -/
def cyclesFor (acc g n : Nat) : Nat := (n * 2 ^ 22 - acc + g - 1) / g

/-- What the phase accumulator gains at each crystal cycle: 2^20 + T (section 1.1). -/
def Part.increment (p : Part) : Nat := (2 ^ 20 + p.ref.trim).toNat

/-- `n` ticks pass: the crystal runs as many cycles as it takes to issue them (R1). -/
def elapse (n : Nat) (p : Part) : Part :=
  if n = 0 then p
  else
    let k := cyclesFor p.time.acc.toNat p.increment n
    { p with time :=
      { acc := BitVec.ofNat 22 (p.time.acc.toNat + k * p.increment)
        crystal := p.time.crystal + k
        now := p.time.now + n } }

/-- One crystal cycle: the accumulator gains 2^20 + T, and a tick is issued when it reaches 4 × 2^20 (section 1.1). -/
def crystalCycle (p : Part) : Part :=
  let sum := p.time.acc.toNat + p.increment
  { p with time :=
    { acc := BitVec.ofNat 22 sum
      crystal := p.time.crystal + 1
      now := if 2 ^ 22 ≤ sum then p.time.now + 1 else p.time.now } }

/-! ### The memory port and the Memory Agent (R170, R171) -/

/-- The number of words of a job. -/
def Job.words (j : Job) : Nat := if j.data.isEmpty then j.reads else j.data.length

/-- The address of word `n` of a job (R170: ascending address order). -/
def Job.wordAddr (j : Job) (n : Nat) : Addr := j.addr + BitVec.ofNat 20 (2 * n)

/-- A free port goes to a starved agent word, then to a waiting processor cycle, then to a ready agent word (R171). -/
def arbitrate (p : Part) : Part :=
  match p.bus.holder with
  | .free =>
    match p.agent.word, p.agent.starved, p.bus.waiting with
    | .ready _, true, _ =>
      { p with bus := { p.bus with holder := .agent }, agent := { p.agent with word := .active p.time.now } }
    | _, _, some c => { p with bus := { p.bus with holder := .processor c, waiting := none } }
    | .ready _, false, none =>
      { p with bus := { p.bus with holder := .agent }, agent := { p.agent with word := .active p.time.now } }
    | _, _, none => p
  | .processor _ => p
  | .agent => p

/-- A job joins the agent's queue; on an empty queue its first word is ready at once (R170, R171). -/
def submit (j : Job) (p : Part) : Part :=
  if p.agent.jobs.isEmpty then
    arbitrate { p with agent :=
      { p.agent with jobs := [j], done := 0, got := [], word := .ready p.time.now, starved := false } }
  else { p with agent := { p.agent with jobs := p.agent.jobs ++ [j] } }

/-! ### Posting an event (R181, R182) -/

/-- The address of an event entry: the window's base plus 16 plus 16 × index (R182). -/
def eventEntry (b : Bus) (index : Nat) : Addr := BitVec.ofNat 20 (b.base .event + 16 + 16 * index)

/-- The Event Unit in IDLE with an event waiting and room in the ring submits its event write (R182). Nothing is
written before the rings are initialised (R181). -/
def pumpEvents (p : Part) : Part :=
  match p.evt.queue with
  | [] => p
  | e :: rest =>
    if p.init = .done ∧ ¬ p.evt.writing ∧ p.evt.room (p.bus.ringSize .event) then
      submit { kind := .eventWrite, addr := eventEntry p.bus p.evt.producer, reads := 0, data := e.words }
        { p with evt := { p.evt with queue := rest, writing := true } }
    else p

/-- An event joins the back of the event queue with the field count as its stamp; on a full queue it is discarded and
the events-lost flag becomes yes (R181). -/
def post (source : AlarmSource) (item : EventItem) (p : Part) : Part :=
  if p.evt.queue.length < Config.maxEvents then
    pumpEvents { p with evt := { p.evt with
      queue := p.evt.queue ++ [{ source := source, stamp := p.ref.count, item := item }] } }
  else { p with evt := { p.evt with lost := true } }

/-! ### The Alarm Table (R142 to R147) -/

/-- The horn is judged at the end of each request the table takes (R147). -/
def judgeHorn (p : Part) : Part := { p with alarms := { p.alarms with horn := p.alarms.sounds } }

/-- The entry of a pair. -/
def AlarmTable.find? (t : AlarmTable) (source : AlarmSource) (kind : AlarmKind) : Option AlarmEntry :=
  t.entries.find? fun e => e.source = source ∧ e.kind = kind

/-- The table with the entry of a pair put in another state, its place and stamp kept (R141). -/
def AlarmTable.setState (t : AlarmTable) (source : AlarmSource) (kind : AlarmKind) (s : EntryState) : AlarmTable :=
  { t with entries := t.entries.map fun e => if e.source = source ∧ e.kind = kind then { e with state := s } else e }

/-- The table without the entry of a pair. -/
def AlarmTable.remove (t : AlarmTable) (source : AlarmSource) (kind : AlarmKind) : AlarmTable :=
  { t with entries := t.entries.filter fun e => ¬ (e.source = source ∧ e.kind = kind) }

/-- The entry a full table gives up: the oldest CLEARED_NEW, else the oldest ACTIVE_ACK WARNING (R145). -/
def AlarmTable.evictable (t : AlarmTable) : Option AlarmEntry :=
  match t.entries.find? fun e => e.state = .clearedNew with
  | some e => some e
  | none => t.entries.find? fun e => e.state = .activeAck ∧ e.kind.severity = .warning

/-- A new entry in state `s` joins the back; RAISED is posted (R142, R143). -/
def enterAlarm (source : AlarmSource) (kind : AlarmKind) (s : EntryState) (d1 d2 : Word) (p : Part) : Part :=
  let e : AlarmEntry := { source := source, kind := kind, state := s, stamp := p.ref.count }
  post source (.alarm .raised none (some s) (some kind) false d1 d2)
    { p with alarms := { p.alarms with entries := p.alarms.entries ++ [e] } }

/-- A raise that adds an entry: a full table first makes room, or the newcomer is not entered (R145). -/
def addAlarm (source : AlarmSource) (kind : AlarmKind) (s : EntryState) (d1 d2 : Word) (p : Part) : Part :=
  if p.alarms.entries.length < Config.maxAlarms then enterAlarm source kind s d1 d2 p
  else
    match p.alarms.evictable with
    | some e =>
      enterAlarm source kind s d1 d2
        (post e.source (.alarm .removed (some (.evicted e.state)) none (some e.kind) false 0 0)
          { p with alarms := p.alarms.remove e.source e.kind })
    | none =>
      post source (.alarm (.notEntered s) none none (some kind) true d1 d2)
        { p with alarms := { p.alarms with overflow := true,
                                           overflowHorn := p.alarms.overflowHorn || kind.severity.sounds } }

/-- A raise, with its two detail words (R142, R143). -/
def raiseAlarm (source : AlarmSource) (kind : AlarmKind) (d1 d2 : Word) (p : Part) : Part :=
  judgeHorn <|
    match kind.momentary, p.alarms.find? source kind with
    | true, none => addAlarm source kind .clearedNew d1 d2 p
    | true, some e => post source (.alarm .raised none (some e.state) (some kind) false d1 d2) p
    | false, none => addAlarm source kind .activeNew d1 d2 p
    | false, some e =>
      match e.state with
      | .clearedNew =>
        post source (.alarm .raised none (some .activeNew) (some kind) false d1 d2)
          { p with alarms := p.alarms.setState source kind .activeNew }
      | .activeNew | .activeAck => p

/-- A clear, with the detail its CLEARED event carries (R144, R148). -/
def clearAlarm (source : AlarmSource) (kind : AlarmKind) (d1 d2 : Word) (p : Part) : Part :=
  judgeHorn <|
    match p.alarms.find? source kind with
    | none => p
    | some e =>
      match e.state with
      | .activeNew =>
        post source (.alarm .cleared none (some .clearedNew) (some kind) false d1 d2)
          { p with alarms := p.alarms.setState source kind .clearedNew }
      | .activeAck =>
        post source (.alarm .removed (some .cleared) none (some kind) false 0 0)
          { p with alarms := p.alarms.remove source kind }
      | .clearedNew => p

/-- A head's report that it has left FAULT by CLEAR_FAULT: the three latched clears in order (R144). -/
def clearLatched (h : HeadId) (p : Part) : Part :=
  clearAlarm (.head h) .jam 0 0 (clearAlarm (.head h) .filmBreak 0 0 (clearAlarm (.head h) .tachLoss 0 0 p))

/-- One entry of an acknowledgement's walk (R146). -/
def acknowledgeEntry (e : AlarmEntry) (p : Part) : Part :=
  match e.state with
  | .activeNew =>
    post e.source (.alarm .acknowledged none (some .activeAck) (some e.kind) false 0 0)
      { p with alarms := p.alarms.setState e.source e.kind .activeAck }
  | .clearedNew =>
    post e.source (.alarm .removed (some .acknowledged) none (some e.kind) false 0 0)
      { p with alarms := p.alarms.remove e.source e.kind }
  | .activeAck => p

/-- An acknowledgement of one source or of all: the walk in list order, the overflow record ended, the horn judged
(R146). -/
def acknowledge (scope : Option AlarmSource) (p : Part) : Part :=
  let covered := p.alarms.entries.filter fun e => scope = none ∨ scope = some e.source
  let q := covered.foldl (fun q e => acknowledgeEntry e q) p
  judgeHorn { q with alarms := { q.alarms with overflow := false, overflowHorn := false } }

/-- CLEAR empties the table in one action and posts EMPTIED with the number of entries removed (R151). -/
def emptyAlarms (p : Part) : Part :=
  judgeHorn <|
    post .device (.alarm .emptied none none none false (word p.alarms.entries.length) 0)
      { p with alarms := { p.alarms with entries := [], overflow := false, overflowHorn := false } }

end Sys2Proof.Machine
end

