-- ==== Sys2Proof/Machine/Link.lean ====
section
/-! DEFINITION. The Mirror Link Controller's own work (chapter 7): joining and selecting entries, beginning transactions,
polling. What it does with a reply is in Replies.lean, after the Changeover Scheduler it reports to. -/

namespace Sys2Proof.Machine

/-- The line rate in bits per second (R114). -/
def LineRate.baud : LineRate → Nat
  | .b9600 => 9600
  | .b19200 => 19200
  | .b38400 => 38400

/-- Whether `n` character times of eleven bits have passed since crystal cycle `since` (R115: the bit timing is divided
down from the crystal and does not follow the trim). -/
def charsPassed (rate : LineRate) (since crystal n : Nat) : Bool :=
  n * 11 * Config.crystalHz ≤ (crystal - since) * rate.baud

/-- The eleven bits of a character in the order they are sent: a start bit, the data from its least significant bit, the
address flag, a stop bit (R115). -/
def LinkChar.bits (c : LinkChar) : List Bool :=
  false :: (List.range 8).map c.data.getLsbD ++ [c.address, !c.framing]

/-- A message as characters: the address flag is 1 on its first and 0 on the others (R115, R116). -/
def messageChars : List Byte → List LinkChar
  | [] => []
  | b :: rest => ⟨b, true, false⟩ :: rest.map fun d => ⟨d, false, false⟩

/-- The level the part drives the pair to: that of the bit whose time it is, and none while the transmit enable is off
(R115). -/
def LinkUnit.level (k : LinkUnit) (t : Timebase) : Option Bool :=
  if k.transmit then (k.sending.flatMap LinkChar.bits)[(t.crystal - k.since) * k.settings.rate.baud / Config.crystalHz]?
  else none

/-- The request in flight has been sent whole: four characters (R116, R120). -/
def LinkUnit.sent (k : LinkUnit) (t : Timebase) : Bool :=
  k.line = .sending && charsPassed k.settings.rate k.since t.crystal 4

/-- The reply timer has expired (R120). -/
def LinkUnit.timedOut (k : LinkUnit) (t : Timebase) : Bool :=
  k.line = .awaiting && k.timer + k.settings.timeout * 1000 ≤ t.now

/-- The part listens for a reply: in AWAITING, until the reply timer has run out; a character at the very moment of its
expiry may come first (R120). -/
def LinkUnit.listening (k : LinkUnit) (t : Timebase) : Bool :=
  k.line = .awaiting && t.now ≤ k.timer + k.settings.timeout * 1000

/-- The inter-message gap has passed (R119). -/
def LinkUnit.gapOver (k : LinkUnit) (t : Timebase) : Bool :=
  k.line = .gap && charsPassed k.settings.rate k.since t.crystal k.settings.gap

/-- An entry is a MOVE. -/
def Entry.isMove (e : Entry) : Bool :=
  match e.request with
  | .move _ _ => true
  | .poll => false

/-- An entry is a POLL of island `i`. -/
def Entry.isPollOf (i : IslandId) (e : Entry) : Bool := e.island = i && !e.isMove

/-- An entry is a MOVE of island `i`. -/
def Entry.isMoveOf (i : IslandId) (e : Entry) : Bool := e.island = i && e.isMove

/-- A MOVE's first transaction that begins after its asked field posts MOVE_LATE (R125). -/
def reportLate (e : Entry) (address : Nat) (p : Part) : Part :=
  match e.request with
  | .move port asked =>
    if Stamp.after p.ref.count asked then
      post (.island e.island) (.moveLate address port asked p.ref.count (Stamp.diff p.ref.count asked)) p
    else p
  | .poll => p

/-- A transaction of the entry in flight begins: the transmit enable goes on and its message is sent to the island's present
address (R115, R120). -/
def beginTransaction (f : Flight) (p : Part) : Part :=
  let address := (p.island f.entry.island).settings.address
  let q := { p with link :=
    { p.link with flight := some { f with tries := f.tries + 1, sentTo := address }, line := .sending,
                  transmit := true, sending := messageChars (requestBytes address f.entry.request),
                  since := p.time.crystal, assembling := [] } }
  if f.tries = 0 then reportLate f.entry address q else q

/-- In IDLE the front waiting entry becomes the entry in flight and its first transaction begins (R119). -/
def selectEntry (p : Part) : Part :=
  match p.link.line, p.link.flight, p.link.queue with
  | .idle, none, e :: rest =>
    beginTransaction { entry := e, tries := 0, sentTo := 0, orphan := false }
      { p with link := { p.link with queue := rest } }
  | _, _, _ => p

/-- The POLL of island `i` joins when it is due, none of the island waits or is in flight, and the queue has room
(R118). -/
def joinPoll (i : IslandId) (p : Part) : Part :=
  if (p.link.stations.get i).due ∧ ¬ p.link.queue.any (Entry.isPollOf i)
      ∧ ¬ p.link.flight.any (fun f => Entry.isPollOf i f.entry) ∧ p.link.queue.length < Config.maxWaiting then
    Part.modStation { p with link := { p.link with queue := p.link.queue ++ [⟨i, .poll⟩] } } i
      fun s => { s with due := false }
  else p

/-- The routine poll countdown of island `i` has reached 0; a MOVE that has turned fast polling on since does not take
its expiry away (R126, log entry 51). -/
def pollExpired (i : IslandId) (p : Part) : Bool := (p.link.stations.get i).countdown = 0

/-- Due POLLs join, Island 1's first: while the expiry of Island 1's countdown at the same field is still to be taken, Island
2's POLL waits for it (R118, R126, log entry 51). -/
def joinPolls (p : Part) : Part :=
  let q := joinPoll .i1 p
  if pollExpired .i1 q then q else joinPoll .i2 q

/-- The link tries to add the due POLLs, selects an entry when the line is IDLE, and tries again on the entry that
leaves the queue (R118, R119). -/
def pumpLink (p : Part) : Part := joinPolls (selectEntry (joinPolls p))

/-- The newer of two waiting MOVEs of island `i` takes a new port and asked field, in its own place (R118). `n` is how
many MOVEs of the island still stand before it. -/
def replaceMove (i : IslandId) (r : Request) : Nat → List Entry → List Entry
  | _, [] => []
  | n, e :: rest =>
    if e.isMoveOf i then
      match n with
      | 0 => { e with request := r } :: rest
      | n + 1 => e :: replaceMove i r n rest
    else e :: replaceMove i r n rest

/-- The port of a MOVE. -/
def Request.port? : Request → Option Port
  | .move p _ => some p
  | .poll => none

/-- The waiting entries after a MOVE of island `i` to `port` has joined, merged or replaced (R118). -/
def joinMove (i : IslandId) (port : Port) (asked : Stamp) (queue : List Entry) : List Entry :=
  let mine := queue.filter (Entry.isMoveOf i)
  if (mine.getLast?.bind fun e => e.request.port?) = some port then queue
  else if 2 ≤ mine.length then replaceMove i (.move port asked) 1 queue
  else queue.filter Entry.isMove ++ [⟨i, .move port asked⟩] ++ queue.filter fun e => !e.isMove

/-- A queue over four entries gives up the POLL nearest the back, whose island's poll is then due (R118). -/
def dropPoll (p : Part) : Part :=
  if p.link.queue.length ≤ Config.maxWaiting then p
  else
    match p.link.queue.getLast? with
    | some e =>
      Part.modStation { p with link := { p.link with queue := p.link.queue.dropLast } } e.island
        fun s => { s with due := true }
    | none => p

/-- A MOVE from the Changeover Scheduler: it joins with its asked field, and fast polling is on (R101, R118, R126). -/
def submitMove (i : IslandId) (port : Port) (asked : Stamp) (p : Part) : Part :=
  let q := dropPoll { p with link := { p.link with queue := joinMove i port asked p.link.queue } }
  pumpLink (q.modStation i fun s => { s with fast := true })

/-- Poll due becomes yes and the countdown is reloaded (R126). -/
def Station.expire (interval : Nat) (s : Station) : Station := { s with due := true, countdown := interval }

/-- A countdown that has reached 0 and whose expiry is still to be taken expires now: what follows does not lose it
(R126, log entry 51). -/
def Station.met (interval : Nat) (s : Station) : Station := if s.countdown = 0 then s.expire interval else s

/-- The island's confirmation has ended: fast polling is off and the countdown is reloaded, an expiry still to be taken not
lost (R118, R126). -/
def endFast (i : IslandId) (p : Part) : Part :=
  let q := p.modStation i fun s =>
    { s.met p.link.settings.interval with fast := false, countdown := p.link.settings.interval }
  if pollExpired i p then pumpLink q else q

/-- A field event at one station: due at once under fast polling, one off the countdown otherwise (R126). -/
def Station.field (interval : Nat) (s : Station) : Station :=
  let s := s.met interval
  if s.fast then { s with due := true } else { s with countdown := s.countdown - 1 }

/-- A field event at the link's poll timing (R126). -/
def fieldPolls (p : Part) : Part :=
  pumpLink { p with link := { p.link with stations := p.link.stations.map (Station.field p.link.settings.interval) } }

/-- Poll due becomes yes and the countdown is reloaded (R126). -/
def takePollExpiry (i : IslandId) (p : Part) : Part := pumpLink (p.modStation i (Station.expire p.link.settings.interval))

/-- An island's station address has changed: its record is set afresh, and a transaction on the line for it is no
longer counted (R130). The entry in flight is marked so between two transactions too (DESIGN CHOICE, log entry 60). -/
def readdress (i : IslandId) (p : Part) : Part :=
  let q := p.modStation i fun s =>
    { s with online := .unknown, misses := 0, port := none, moving := false, fault := false, refusal := none, due := true }
  let q := { q with link := { q.link with flight := q.link.flight.map fun f =>
    if f.entry.island = i then { f with orphan := true } else f } }
  clearAlarm (.island i) .stationOffline 0 0 (pumpLink q)

/-- CLEAR at the link: the waiting POLLs are removed and their islands are due (R131); a due POLL joins again when the link next
tries (R118, log entry 55). -/
def clearPolls (p : Part) : Part :=
  let had := fun i (s : Station) => if p.link.queue.any (Entry.isPollOf i) then { s with due := true } else s
  { p with link :=
    { p.link with queue := p.link.queue.filter Entry.isMove
                  stations := ⟨had .i1 p.link.stations.i1, had .i2 p.link.stations.i2⟩ } }

end Sys2Proof.Machine
end

