-- ==== Sys2Proof/Machine/Reference.lean ====
section
/-! DEFINITION. The Field Reference Unit (chapter 1): field events, the flywheel, the reference states. -/

namespace Sys2Proof.Machine

/-- P, the nominal field length of the standard in ticks (chapter 1). -/
def Standard.nominal : Standard → Nat
  | .f50 => 20000
  | .f60 => 16683

/-- The length the pattern gives at an index (R5). -/
def Standard.patternLength : Standard → Nat → Nat
  | .f50, _ => 20000
  | .f60, 2 => 16684
  | .f60, _ => 16683

/-- The expiry of the flywheel field in progress; in LOCKED the expected time (R5, R9). -/
def RefUnit.due (r : RefUnit) : Nat := r.begun + r.length

/-- The length of a flywheel field that begins now (R5). -/
def RefUnit.nextLength (r : RefUnit) : Nat := r.standard.patternLength r.pattern

/-- A field event at one Cadence Monitor (R39). -/
def Cadence.field (c : Cadence) : Cadence := if c.measuring then { c with fields := min 65535 (c.fields + 1) } else c

/-- A field event (R3): the count advances first, then the event is delivered to the Cadence Monitors and to the link's
poll timing; fields that are thereby reached are taken by steps of their own (log entry 2). -/
def fieldEvent (p : Part) : Part :=
  fieldPolls { p with
    ref := { p.ref with count := p.ref.count + 1, pattern := (p.ref.pattern + 1) % 3 }
    heads := p.heads.map fun h => { h with cadence := h.cadence.field } }

/-- A new flywheel field begins at tick `t` with a length (R5). -/
def beginField (t length : Nat) (p : Part) : Part :=
  { p with ref := { p.ref with begun := t, length := length, raised := false } }

/-- The reference period (R14): the sum of sixteen intervals in LOCKED, 0 otherwise. -/
def RefUnit.period (r : RefUnit) : Nat :=
  if r.state = .locked ∧ r.history.length = Config.historyLen then r.history.sum else 0

/-- A reference state is entered: REF_STATE is posted (R13). -/
def enterRef (new : RefState) (p : Part) : Part :=
  post .reference (.refState new p.ref.state) { p with ref := { p.ref with state := new } }

/-- Whether the flywheel field nearest to a pulse at tick `t` is the one already taken (R8). -/
def RefUnit.takenNearest (r : RefUnit) (t : Nat) : Bool :=
  ((t : Int) - r.begun).natAbs ≤ ((t : Int) - r.due).natAbs

/-- Δ (R8): the pulse's time less that of the nearest flywheel field, reduced into −P/2 … P/2. -/
def RefUnit.phaseDiff (r : RefUnit) (t : Nat) : Int :=
  let raw : Int := if r.takenNearest t then (t : Int) - r.begun else (t : Int) - r.due
  let m : Int := raw % r.standard.nominal
  if (r.standard.nominal : Int) < 2 * m then m - r.standard.nominal else m

/-- A pulse at tick `t` is regular (R6). -/
def RefUnit.regular (r : RefUnit) (t : Nat) : Bool :=
  match r.lastPulse with
  | some l => r.standard.nominal - Config.window ≤ t - l && t - l ≤ r.standard.nominal + Config.window
  | none => false

/-- A pulse in SEARCH, FLYWHEEL or SLEWING builds the qualifying run (R6). -/
def RefUnit.qualify (r : RefUnit) (t : Nat) : RefUnit :=
  let run := if r.regular t then min 4 (r.run + 1) else 1
  { r with run := run, lastPulse := some t, raised := r.raised || (r.regular t && decide (2 ≤ run)) }

/-- The re-phasing of R8 up to the change of state: the field event when the expiry now due is nearest, the new
flywheel field at the pulse, the history emptied. -/
def rephase (p : Part) : Part :=
  let t := p.time.now
  let q := if p.ref.takenNearest t then p else fieldEvent p
  let q := beginField t q.ref.nextLength q
  { q with ref := { q.ref with misses := 0, history := [], accepted := some t, run := 0, lastPulse := none,
                               barren := 0, delta := none } }

/-- REF_LOSS is raised (R13). -/
def raiseRefLoss (p : Part) : Part := raiseAlarm .reference .refLoss 0 0 p

/-- An accepted pulse in LOCKED (R9, R14). -/
def acceptPulse (p : Part) : Part :=
  let t := p.time.now
  let q := fieldEvent p
  let history :=
    match p.ref.accepted with
    | some a => ((t - a) :: p.ref.history).take Config.historyLen
    | none => p.ref.history
  let q := beginField t q.ref.nextLength q
  { q with ref := { q.ref with misses := 0, history := history, accepted := some t } }

/-- A pulse in SLEWING: loss during the return, locking, or a new phase difference (R12). -/
def slewingPulse (p : Part) : Part :=
  let t := p.time.now
  let q := { p with ref := p.ref.qualify t }
  if p.ref.regular t then
    let delta := p.ref.phaseDiff t
    if delta.natAbs ≤ Config.slew.natAbs then clearAlarm .reference .refLoss 0 0 (enterRef .locked (rephase q))
    else { q with ref := { q.ref with delta := some delta } }
  else raiseRefLoss (enterRef .flywheel { q with ref := { q.ref with delta := none } })

/-- A pulse in FLYWHEEL: the fourth regular pulse enters SLEWING, and LOCKED at once when the phases agree (R11). -/
def flywheelPulse (p : Part) : Part :=
  let t := p.time.now
  let q := { p with ref := p.ref.qualify t }
  if q.ref.run = 4 then
    let delta := p.ref.phaseDiff t
    if delta.natAbs ≤ Config.slew.natAbs then
      clearAlarm .reference .refLoss 0 0 (enterRef .locked (enterRef .slewing (rephase q)))
    else enterRef .slewing { q with ref := { q.ref with delta := some delta } }
  else q

/-- A station pulse, judged by the reference state (R6 to R12). A pulse taken after the window end that was the third miss
finds FLYWHEEL and is the first of its qualifying run, though R9 says that it is ignored (the model's choice, log entry
49). -/
def takeStationPulse (p : Part) : Part :=
  let t := p.time.now
  match p.ref.state with
  | .locked =>
    if p.ref.due ≤ t + Config.window ∧ t ≤ p.ref.due + Config.window then acceptPulse p else p
  | .search =>
    let q := { p with ref := p.ref.qualify t }
    if q.ref.run = 4 then enterRef .locked (rephase q) else q
  | .flywheel => flywheelPulse p
  | .slewing => slewingPulse p

/-- The flywheel field has expired outside LOCKED (R5). -/
def RefUnit.expired (r : RefUnit) (now : Nat) : Bool := r.state ≠ .locked && r.due ≤ now

/-- The adjustment of the next flywheel field: in SLEWING the latest Δ limited to ±200 (R12). -/
def RefUnit.adjust (r : RefUnit) : Int :=
  match r.state, r.delta with
  | .slewing, some d => clampInt Config.slew d
  | _, _ => 0

/-- A flywheel expiry outside LOCKED: the field event, the next field, and in SEARCH the judging of the field ended
(R5, R7, R12). -/
def takeFlywheelExpiry (p : Part) : Part :=
  let q := fieldEvent p
  let q := beginField p.ref.due ((q.ref.nextLength : Int) + p.ref.adjust).toNat q
  match p.ref.state with
  | .search =>
    let barren := if p.ref.raised then 0 else p.ref.barren + 1
    let q := { q with ref := { q.ref with barren := barren } }
    if 3 ≤ barren then raiseRefLoss (enterRef .flywheel q) else q
  | .locked | .flywheel | .slewing => q

/-- An acceptance window of LOCKED has ended (R10). -/
def RefUnit.windowEnded (r : RefUnit) (now : Nat) : Bool := r.state = .locked && r.due + Config.window ≤ now

/-- A missing pulse: the flywheel field stands in for it; the third in a row enters FLYWHEEL (R10). -/
def takeWindowEnd (p : Part) : Part :=
  let q := fieldEvent p
  let q := beginField p.ref.due q.ref.nextLength q
  let q := { q with ref := { q.ref with misses := p.ref.misses + 1, history := [], accepted := none } }
  if 3 ≤ p.ref.misses + 1 then
    raiseRefLoss (enterRef .flywheel { q with ref := { q.ref with run := 0, lastPulse := none } })
  else q

/-- P + 400 ticks have passed in SLEWING since the previous pulse (R12). -/
def RefUnit.pulseGap (r : RefUnit) (now : Nat) : Bool :=
  r.state = .slewing &&
    match r.lastPulse with
    | some l => l + r.standard.nominal + Config.window ≤ now
    | none => false

/-- The return is lost: FLYWHEEL with the run at 0 (R12, R13). -/
def takePulseGap (p : Part) : Part :=
  raiseRefLoss (enterRef .flywheel { p with ref := { p.ref with run := 0, lastPulse := none, delta := none } })

/-- SET_TRIM (R2). -/
def setTrim (trim : Word) (p : Part) : Part × Status :=
  let t := clampTrim trim.toInt
  ({ p with ref := { p.ref with trim := t } }, doneStatus (t ≠ trim.toInt))

end Sys2Proof.Machine
end

