-- ==== Sys2Proof/Machine/Drive.lean ====
section
/-! DEFINITION. Entering a drive state (R16, R17, R27, R30, R36) with what it brings about beside the head: the Cadence
Monitor stops measuring (R38), a lamp channel's judgement follows the LAMP output (R135), a tension channel enters IDLE
(R136). -/

namespace Sys2Proof.Machine

/-- The four motor outputs of a drive state, and LAMP as given (R16). -/
def motor (d : DriveState) (cue : Option CueUp) (lamp : Bool) : Outputs :=
  let ahead := (cue.map (·.ahead)).getD false
  match d with
  | .stopped | .parked | .settling | .stopping | .fault => { Outputs.off with lamp := lamp }
  | .runup | .locked | .unlocked => { fwd := true, rev := false, speed := false, sync := true, lamp := lamp }
  | .cueFast => { fwd := ahead, rev := !ahead, speed := true, sync := false, lamp := lamp }
  | .cueInch => { fwd := ahead, rev := !ahead, speed := false, sync := false, lamp := lamp }

/-- The LAMP output on entry into a state: off in FAULT under either policy; under AUTO on at a START, off at STOPPED
(R17). -/
def lampOn (policy : LampPolicy) (new : DriveState) (now : Bool) : Bool :=
  match new, policy with
  | .fault, _ => false
  | .runup, .auto => true
  | .stopped, .auto => false
  | _, _ => now

/-- Where the settle measurement counts from in a new state: a STOP in SETTLING keeps it (R25, R26, R65). -/
def settleStart (old new : DriveState) (from? : Option Nat) (now : Nat) : Option Nat :=
  match new with
  | .stopping => if old = .settling then from? else some now
  | .settling => some now
  | .stopped | .parked | .cueFast | .cueInch | .runup | .locked | .unlocked | .fault => none

/-- Where the gap measurement counts from in a new state: the entry from an undriven state arms it (R27). -/
def gapStart (old new : DriveState) (from? : Option Nat) (now : Nat) : Option Nat :=
  if new.driven then (if old.driven then from? else some now) else none

/-- A head as it enters a drive state at tick `now` (R16, R17, R26, R27, R66). -/
def Head.enter (h : Head) (new : DriveState) (now : Nat) : Head :=
  let lamp := lampOn h.lampPolicy new h.outputs.lamp
  { h with
    drive := new
    outputs := motor new h.cueUp lamp
    lampOnAt := if lamp && !h.outputs.lamp then some now else h.lampOnAt
    gapFrom := gapStart h.drive new h.gapFrom now
    settleFrom := settleStart h.drive new h.settleFrom now
    cueUp := if new.cueing || new = .settling then h.cueUp else none
    park := if new = .parked then h.park else none }

/-- Judgement of channels 1 to 8 is suspended while ANALOG_REF is present (R137). -/
def Analog.suspended (a : Analog) : Bool := a.reference.condition.isSome

/-- Whether a lamp condition is tied to the other value of the LAMP output (R135). -/
def lampEnds (on : Bool) : Option Condition → Option AlarmKind
  | some .lampFail => if on then none else some .lampFail
  | some .lampStuck => if on then some .lampStuck else none
  | some .filmBreak => none
  | some .jam => none
  | some .analogRef => none
  | none => none

/-- The LAMP output of head `h` has changed: both counts become 0, and a condition tied to the old output ends (R135);
nothing while judgement is suspended (R137). -/
def lampChanged (h : HeadId) (p : Part) : Part :=
  if p.analog.suspended then p
  else
    let c := p.analog.lamp.get h
    let ends := lampEnds (p.head h).outputs.lamp c.condition
    let c' := { c with outCount := 0, inCount := 0, condition := if ends.isSome then none else c.condition }
    let q := { p with analog := { p.analog with lamp := p.analog.lamp.set h c' } }
    match ends with
    | some k => clearAlarm (.head h) k 0 0 q
    | none => q

/-- The tension channel of head `h` enters IDLE: its out count becomes 0 (R136); not while suspended (R137). -/
def tensionIdle (h : HeadId) (p : Part) : Part :=
  let c := p.analog.tension.get h
  if p.analog.suspended || c.condition.isSome then p
  else { p with analog := { p.analog with tension := p.analog.tension.set h { c with outCount := 0 } } }

/-- A Cadence Monitor as it stops measuring (R38). -/
def Cadence.stopped (c : Cadence) : Cadence :=
  { c with measuring := false, boundary := none, provisional := none, unlockStamp := none, fields := 0, run := 0,
           phase := none, slowStart := false }

/-- The Cadence Monitor of head `h` stops measuring and clears its conditions (R38, R49, R50). -/
def stopMeasuring (h : HeadId) (p : Part) : Part :=
  clearAlarm (.head h) .lockLoss 0 0 (clearAlarm (.head h) .slowStart 0 0 (p.modCadence h Cadence.stopped))

/-- A Cadence Monitor on the start notice (R38); the last boundary time is kept (R51, log entry 10). -/
def Cadence.started (c : Cadence) (stamp : Stamp) (frame : Int) : Cadence :=
  { c with measuring := true, startStamp := some stamp, startFrame := some frame, firstLock := false, boundary := none,
           lastLength := none, provisional := none, unlockStamp := none, fields := 0, run := 0, phase := none,
           slowStart := false }

/-- Head `h` enters a drive state: outputs and measurements, HEAD_STATE, the alarm of a fault, then what the change
brings about at the monitor and the scanner. The Changeover Scheduler is told by the caller. -/
def enterDrive (h : HeadId) (new : DriveState) (cause : Cause) (fault : Option FaultKind) (p : Part) : Part :=
  let old := p.head h
  let q := p.modHead h fun x => x.enter new p.time.now
  let q := post (.head h) (.headState new old.drive cause old.pos.frame) q
  let q :=
    match fault with
    | some k => raiseAlarm (.head h) k.alarm 0 0 q
    | none => q
  let q := if (q.head h).outputs.lamp = old.outputs.lamp then q else lampChanged h q
  let q := if old.drive.driven && !new.driven then tensionIdle h q else q
  if old.drive.running && !new.running then stopMeasuring h q else q

/-- The LAMP output of head `h` is switched without a change of state (R17, R25, R32). -/
def switchLamp (h : HeadId) (on : Bool) (p : Part) : Part :=
  let old := p.head h
  if old.outputs.lamp = on then p
  else
    lampChanged h (p.modHead h fun x =>
      { x with outputs := { x.outputs with lamp := on }, lampOnAt := if on then some p.time.now else x.lampOnAt })

/-- Head `h`, STOPPED or PARKED, takes a START: RUNUP with synchronous drive, and the start notice (R24, R38). -/
def startDrive (h : HeadId) (cause : Cause) (p : Part) : Part :=
  let frame := (p.head h).pos.frame
  enterDrive h .runup cause none (p.modCadence h fun c => c.started p.ref.count frame)

/-- Head `h` is the on-air source of an island. -/
def Part.onAir (p : Part) (h : HeadId) : Bool := p.islands.i1.onAir = .head h || p.islands.i2.onAir = .head h

end Sys2Proof.Machine
end

