-- ==== Sys2Proof/Machine/Cadence.lean ====
section
/-! DEFINITION. The Cadence Monitor (chapter 3): judging frames, lock and loss of lock, speed. -/

namespace Sys2Proof.Machine

/-- How a judged frame is classed (R43, R44); a pair is a frame that settles a provisional one. -/
inductive Verdict where
  | conforming
  | pair
  | provisional (d : Deviation)
  | nonconforming (unsettled : Bool)
deriving DecidableEq, Repr

/-- The expected length of the frame just ended: 2 on the 2:2 cadence, the phase on the 3:2 cadence (R41, R42). -/
def Cadence.expectedOf (s : Standard) (c : Cadence) : Option Nat :=
  match s with
  | .f50 => some 2
  | .f60 => c.phase

/-- A length that can conform in a pair: any on the 2:2 cadence, 2 or 3 on the 3:2 cadence (R43, R44). -/
def Standard.plausible : Standard → Nat → Bool
  | .f50, _ => true
  | .f60, n => n = 2 || n = 3

/-- The deviation of a length from its expected length, when it is one field. -/
def deviation (n e : Nat) : Option Deviation :=
  if n = e + 1 then some .plus else if n + 1 = e then some .minus else none

/-- The opposite deviation (R44). -/
def Deviation.opposite : Deviation → Deviation
  | .plus => .minus
  | .minus => .plus

/-- The judgement of a frame of length `n` (R43, R44). -/
def judgeFrame (s : Standard) (c : Cadence) (n : Nat) : Verdict :=
  match c.provisional, c.expectedOf s with
  | some d, some e => if deviation n e = some d.opposite ∧ s.plausible n then .pair else .nonconforming true
  | some _, none => .nonconforming true
  | none, none => if n = 2 ∨ n = 3 then .conforming else .nonconforming false
  | none, some e =>
    if n = e then .conforming
    else
      match deviation n e with
      | some d => if s.plausible n then .provisional d else .nonconforming false
      | none => .nonconforming false

/-- The cadence phase after a judged frame: 5 less the expected length, or less the length that sets it; unset by a
nonconforming frame (R42, R46). -/
def nextPhase (s : Standard) (c : Cadence) (n : Nat) : Verdict → Option Nat
  | .nonconforming _ => none
  | .conforming | .pair | .provisional _ =>
    match s with
    | .f50 => none
    | .f60 => some (5 - (c.phase.getD n))

/-- The conforming run after a judged frame (R45, R46). -/
def nextRun (run : Nat) : Verdict → Nat
  | .conforming => min 255 (run + 1)
  | .pair => min 255 (run + 2)
  | .provisional _ => run
  | .nonconforming _ => 0

/-- The provisional record after a judged frame (R43, R44, R46). -/
def nextProvisional : Verdict → Option Deviation
  | .provisional d => some d
  | .conforming | .pair | .nonconforming _ => none

/-- The speed of a boundary `t`, when a last boundary time is held (R51); the limit when both fall in one tick (DESIGN CHOICE,
log entry 62). -/
def speedAt (c : Cadence) (t : Nat) : Nat :=
  match c.lastTime with
  | some l => if t ≤ l then 9999 else min 9999 ((2 * 100000000 + (t - l)) / (2 * (t - l)))
  | none => c.speed

/-- The monitor's records at a forward boundary in a running state, with the judgement made (R40, R51). -/
def Cadence.boundaryAt (c : Cadence) (s : Standard) (count : Stamp) (t : Nat) : Cadence × Option Verdict :=
  let c' := { c with speed := speedAt c t, lastTime := some t, boundary := some count, fields := 0 }
  match c.boundary with
  | none => (c', none)
  | some _ =>
    let v := judgeFrame s c c.fields
    ({ c' with lastLength := some c.fields, phase := nextPhase s c c.fields v, run := nextRun c.run v,
               provisional := nextProvisional v }, some v)

/-- Loss of lock at a nonconforming frame in LOCKED (R46, R50). -/
def declareUnlock (h : HeadId) (measured : Nat) (expected : Option Nat) (unsettled : Bool) (p : Part) : Part :=
  let q := enterDrive h .unlocked .cadence none (p.modCadence h fun c => { c with unlockStamp := some p.ref.count })
  let q := post (.head h) (.unlock unsettled measured expected (p.head h).pos.frame) q
  if q.onAir h then raiseAlarm (.head h) .lockLoss 0 0 q else q

/-- Lock at the boundary that completed the run: the first of the run is measured, a later one is a relock (R47, R48). -/
def declareLock (h : HeadId) (p : Part) : Part :=
  let c := (p.head h).cadence
  let frame := (p.head h).pos.frame
  let q := enterDrive h .locked .cadence none p
  if c.firstLock then
    let since := Stamp.diff p.ref.count (c.unlockStamp.getD p.ref.count)
    clearAlarm (.head h) .lockLoss 0 0 (post (.head h) (.lock .relock none since frame) q)
  else
    let r : Runup :=
      { fields := Stamp.diff p.ref.count (c.startStamp.getD p.ref.count)
        frames := frame - c.startFrame.getD frame }
    let q := q.modCadence h fun c => { c with firstLock := true, lastRunup := some r, slowStart := false }
    clearAlarm (.head h) .slowStart 0 0 (post (.head h) (.lock .first (some r.frames) r.fields frame) q)

/-- The Cadence Monitor of head `h` takes a forward boundary handed over in a running state (R40 to R48). -/
def cadenceBoundary (h : HeadId) (p : Part) : Part :=
  let x := p.head h
  let (c', v) := x.cadence.boundaryAt p.ref.standard p.ref.count p.time.now
  let q := p.modCadence h fun _ => c'
  match v with
  | none => q
  | some (.nonconforming unsettled) =>
    if x.drive = .locked then
      declareUnlock h x.cadence.fields (x.cadence.expectedOf p.ref.standard) unsettled q
    else q
  | some (.provisional _) => q
  | some .conforming | some .pair =>
    if x.settings.lockCount ≤ c'.run ∧ x.drive ≠ .locked then declareLock h q else q

/-- The run-up limit is exceeded: more than that many field events since the start stamp while in RUNUP, and SLOW_START
not yet present (R49). -/
def slowStartDue (h : HeadId) (p : Part) : Bool :=
  let x := p.head h
  x.drive = .runup && x.cadence.measuring && !x.cadence.slowStart &&
    match x.cadence.startStamp with
    | some s => reached p.ref.count (Stamp.plus s (x.settings.runupLimit + 1))
    | none => false

/-- SLOW_START is raised (R49). -/
def takeSlowStart (h : HeadId) (p : Part) : Part :=
  raiseAlarm (.head h) .slowStart 0 0 (p.modCadence h fun c => { c with slowStart := true })

/-- A second has passed since the last running boundary (R51). -/
def speedExpired (h : HeadId) (p : Part) : Bool :=
  match (p.head h).cadence.lastTime with
  | some t => t + Config.speedTimeout ≤ p.time.now
  | none => false

/-- The speed becomes 0 and the last boundary time absent (R51). -/
def takeSpeedTimeout (h : HeadId) (p : Part) : Part :=
  p.modCadence h fun c => { c with speed := 0, lastTime := none }

end Sys2Proof.Machine
end

