-- ==== Sys2Proof/Machine/CueTable.lean ====
section
/-! DEFINITION. Cue tables and pass states (R53 to R59, R67, R68): the operations on one table. -/

namespace Sys2Proof.Machine

/-- The mark frame of a cue (R53). -/
def Cue.markFrame (c : Cue) (offset : Nat) : Int := c.frame - offset

/-- The deadline frame of a cue with a window (R53). -/
def Cue.deadline (c : Cue) (offset : Nat) : Option Int := c.window.map fun w => c.markFrame offset + w + 1

/-- The table with a cue inserted at the place its frame gives (R54). -/
def insertCue (c : Cue) : List Cue → List Cue
  | [] => [c]
  | d :: rest => if c.frame < d.frame then c :: d :: rest else d :: insertCue c rest

/-- A pass state brought up to date without firing: a cue returned to PENDING has its confirm state set to NONE
(R59, R73). -/
def Cue.follow (frame : Int) (c : Cue) : Cue :=
  if c.frame ≤ frame then { c with passed := true }
  else if c.passed then { c with passed := false, confirm := .none }
  else c

/-- The cue of an id in a table. -/
def findCue (cues : List Cue) (id : Nat) : Option Cue := cues.find? fun c => c.id = id

/-- The lowest-frame PENDING cue of a kind: the table is in ascending frame order (R75, R96, R157). -/
def firstPending (kind : CueKind) (cues : List Cue) : Option Cue := cues.find? fun c => c.kind = kind ∧ ¬ c.passed

/-- The table with the cue of an id changed. -/
def updateCue (id : Nat) (f : Cue → Cue) (cues : List Cue) : List Cue :=
  cues.map fun c => if c.id = id then f c else c

/-- Pass states of head `h` are brought up to date with its position, nothing fires, and the mark latch is cleared
(R59, R67). -/
def followCues (h : HeadId) (p : Part) : Part :=
  p.modHead h fun x => { x with cues := x.cues.map (Cue.follow x.pos.frame), mark := none }

/-- The cues of a table that miss their mark at frame `f`: deadline frame `f` and confirm state NONE (R58, R70). -/
def missedAt (offset : Nat) (f : Int) (cues : List Cue) : List Cue :=
  cues.filter fun c => c.deadline offset = some f ∧ c.confirm = .none

/-- One cue of head `h` misses its mark at frame `f`: UNCONFIRMED, with MARK_MISSED (R70). -/
def missMark (h : HeadId) (f : Int) (c : Cue) (p : Part) : Part :=
  post (.head h) (.markMissed c.id c.passed f c.frame)
    (p.modHead h fun x => { x with cues := updateCue c.id (fun c => { c with confirm := .unconfirmed }) x.cues })

/-- The missed-mark step of head `h` for frame `f` (R58). Of cues with the same deadline frame the lower frame comes first, the
table's order (R70, log entry 20). -/
def missedMarkStep (h : HeadId) (f : Int) (p : Part) : Part :=
  (missedAt (p.head h).settings.sensorOffset f (p.head h).cues).foldl (fun q c => missMark h f c q) p

/-- A cue of a table that a mark at frame `mark` may match, with its distance (R68). -/
def candidate (offset : Nat) (mark : Int) (c : Cue) : Option Nat :=
  match c.window with
  | some w =>
    let d := (mark - c.markFrame offset).natAbs
    if ¬ c.passed ∧ c.confirm = .none ∧ d ≤ w then some d else none
  | none => none

/-- The cue a mark matches: the nearest candidate, the lower frame of two equally near (R68). -/
def matchMark (offset : Nat) (mark : Int) : List Cue → Option (Cue × Nat)
  | [] => none
  | c :: rest =>
    match candidate offset mark c, matchMark offset mark rest with
    | none, r => r
    | some d, none => some (c, d)
    | some d, some (c', d') => if d ≤ d' then some (c, d) else some (c', d')

end Sys2Proof.Machine
end

