-- ==== Sys2Proof/Machine/Predict.lean ====
section
/-! DEFINITION. Arrival prediction (chapter 5): the exact prediction, the estimate, the start field, and what each event
does to a prediction record. -/

namespace Sys2Proof.Machine

/-! ### The arithmetic -/

/-- S(n), the fields spanned by the `n` frames that follow a frame of expected length `l` (R78). -/
def cadenceSum (s : Standard) (l n : Nat) : Nat :=
  match s with
  | .f50 => 2 * n
  | .f60 => 5 * (n / 2) + if n % 2 = 1 then 5 - l else 0

/-- fields_est(D) (R79). -/
def fieldsEst (s : Standard) (d : Nat) : Nat :=
  match s with
  | .f50 => 2 * d
  | .f60 => (5 * d + 1) / 2

/-- The exact prediction for a frame above the current one, from boundary stamp `b`, expected length `l` and the
distance `c − p` (R77). -/
def exactField (s : Standard) (b : Stamp) (l distance : Nat) : Stamp :=
  Stamp.plus b (l + cadenceSum s l (distance - 1))

/-- The exact prediction of frame `c` of a LOCKED head (R77), absent while a figure it needs is. -/
def exactPrediction (s : Standard) (x : Head) (c : Int) : Option Stamp :=
  match x.cadence.boundary, x.cadence.expected s with
  | some b, some l => some (exactField s b l (c - x.pos.frame).toNat)
  | _, _ => none

/-- The estimate of frame `c` of a head, formed at field count `n` (R79). -/
def estimate (s : Standard) (n : Stamp) (x : Head) (c : Int) : Stamp := Stamp.plus n (fieldsEst s (c - x.pos.frame).toNat)

/-! ### Records -/

/-- The two kinds of record: F_cut and F_end are estimated, F_sop never is (R76). -/
inductive PredKind where
  | cutOrEnd | sop
deriving DecidableEq, Repr

/-- A record becomes REACHED with a value. -/
def Pred.reach (r : Pred) (v : Option Stamp) : Pred := { r with value := v, basis := .reached }

/-- A record becomes ABSENT. -/
def Pred.absent (r : Pred) : Pred := { r with value := none, basis := .absent }

/-- A record whose head's position lies below its frame, as the drive state gives it at a forming or a jump (R76, R84,
R85). -/
def Pred.ahead (p : Part) (k : PredKind) (r : Pred) : Pred :=
  let x := p.head r.head
  match x.drive, k with
  | .locked, _ => { r with value := exactPrediction p.ref.standard x r.frame, basis := .exact }
  | .runup, .cutOrEnd => { r with value := some (estimate p.ref.standard p.ref.count x r.frame), basis := .estimate }
  | .unlocked, .cutOrEnd => { r with value := some (estimate p.ref.standard p.ref.count x r.frame), basis := .estimate }
  | _, _ => r.absent

/-- A record at its forming; one whose frame already lies behind the head is REACHED with absent value (R76, R84). -/
def formPred (p : Part) (k : PredKind) (h : HeadId) (c : Int) : Pred :=
  let r : Pred := { head := h, frame := c, value := none, basis := .absent }
  if c ≤ (p.head h).pos.frame then r.reach none else r.ahead p k

/-- A record at a forward boundary of its head: REACHED at the boundary into its frame, with the field count as value
in a running state; re-based when the head is LOCKED; frozen at a loss of lock; left otherwise (R76, R83, R84). -/
def Pred.atBoundary (p : Part) (unlocked : Bool) (k : PredKind) (r : Pred) : Pred :=
  let x := p.head r.head
  if r.basis = .reached then r
  else if r.frame ≤ x.pos.frame then r.reach (if x.drive.running then some p.ref.count else none)
  else
    match x.drive, k with
    | .locked, _ => r.ahead p k
    | .unlocked, .sop => r.absent
    | .unlocked, .cutOrEnd => if unlocked && r.basis = .exact then { r with basis := .frozen } else r
    | _, _ => r

/-- A record at a reverse boundary: only a move back below its frame re-forms it (R84). -/
def Pred.atReverse (p : Part) (k : PredKind) (r : Pred) : Pred :=
  if r.basis = .reached ∧ (p.head r.head).pos.frame < r.frame then r.ahead p k else r

/-- A record as its head enters RUNUP by START (R84). -/
def Pred.atStart (p : Part) (k : PredKind) (r : Pred) : Pred :=
  if r.basis = .reached then r
  else if r.frame ≤ (p.head r.head).pos.frame then r.reach none
  else r.ahead p k

/-- A record as its head leaves the running states (R84). -/
def Pred.atLeave (_ : PredKind) (r : Pred) : Pred := if r.basis = .reached then r else r.absent

/-- A record at a position jump of its head; `fired` says that the jump is a correction made in a running state
(R85). -/
def Pred.atJump (p : Part) (fired : Bool) (k : PredKind) (r : Pred) : Pred :=
  if r.frame ≤ (p.head r.head).pos.frame then
    if r.basis = .reached then r else r.reach (if fired then some p.ref.count else none)
  else r.ahead p k

/-! ### The records of an island -/

/-- The active take of an island: its front take, unless it is QUEUED (R92). -/
def Island.active (x : Island) : Option Take :=
  match x.takes with
  | [] => none
  | t :: _ => if t.state = .queued then none else some t

/-- An island with its front take changed. -/
def Island.modFront (f : Take → Take) (x : Island) : Island :=
  match x.takes with
  | [] => x
  | t :: rest => { x with takes := f t :: rest }

/-- `p` with the front take of island `i` changed. -/
def Part.modFront (i : IslandId) (f : Take → Take) (p : Part) : Part := p.modIsland i (Island.modFront f)

/-- A record changed by `f` when it follows head `h`. -/
def followedBy (h : HeadId) (f : PredKind → Pred → Pred) (k : PredKind) (r : Pred) : Pred :=
  if r.head = h then f k r else r

/-- Every record of an island that follows head `h`, changed by `f` (R83 to R85). -/
def Island.mapPreds (h : HeadId) (f : PredKind → Pred → Pred) (x : Island) : Island :=
  { x with
    fEnd := x.fEnd.map (followedBy h f .cutOrEnd)
    takes := (x.modFront fun t =>
      { t with cut := t.cut.map (followedBy h f .cutOrEnd), sop := t.sop.map (followedBy h f .sop) }).takes }

/-- Every record that follows head `h`, changed by `f`. -/
def mapPreds (h : HeadId) (f : PredKind → Pred → Pred) (p : Part) : Part :=
  { p with islands := p.islands.map (Island.mapPreds h f) }

/-- The frame the end guard follows: the lowest PENDING END cue of an on-air head (R75). -/
def Part.endFrame (p : Part) (s : Source) : Option (HeadId × Int) :=
  match s with
  | .head h => (firstPending .ending (p.head h).cues).map fun c => (h, c.frame)
  | .standby => none
  | .unknown => none

/-- The F_end record of island `i` is formed afresh when the frame to follow has changed, and ends when there is none
(R75, R85). -/
def followEnd (i : IslandId) (p : Part) : Part :=
  p.modIsland i fun x =>
    match p.endFrame x.onAir with
    | none => { x with fEnd := none }
    | some (h, c) =>
      match x.fEnd with
      | some r => if r.head = h ∧ r.frame = c then x else { x with fEnd := some (formPred p .cutOrEnd h c) }
      | none => { x with fEnd := some (formPred p .cutOrEnd h c) }

/-- Both F_end records. -/
def followEnds (p : Part) : Part := followEnd .i2 (followEnd .i1 p)

/-! ### The start field, the error and the commit field -/

/-- The parked frame of a head: its park target when PARKED, its current frame when STOPPED (R81). -/
def Head.parkedFrame (x : Head) : Int :=
  match x.drive, x.park with
  | .parked, some r => r.target
  | _, _ => x.pos.frame

/-- The leader D of a take on a head at rest, when it has a SOP cue (R81). -/
def Take.leader (t : Take) (x : Head) : Option Int := t.sopCue.map fun c => c.frame - x.parkedFrame

/-- Whether a leader is short: below the run-up distance, or 0 or less (R81). -/
def shortLeader (x : Head) (d : Int) : Bool := d < x.settings.runupDistance || d ≤ 0

/-- F_start for cut field `cut` (R81, R96). -/
def startField (s : Standard) (x : Head) (d : Option Int) (cut : Stamp) : Stamp :=
  match d with
  | none => Stamp.minus cut x.settings.runupLead
  | some d =>
    if shortLeader x d then Stamp.minus cut x.settings.runupLead
    else Stamp.minus cut (x.settings.runupLead + fieldsEst s (d - x.settings.runupDistance).toNat)

/-- The incoming head of a take. -/
def Take.head? (t : Take) : Option HeadId :=
  match t.incoming with
  | .head h => some h
  | .standby => none
  | .unknown => none

/-- The incoming head of a take that keeps a start field: ARMED, AUTO, not NOW, the head STOPPED or PARKED (R81, R97). -/
def Take.planned (p : Part) (t : Take) : Option HeadId :=
  match t.head? with
  | some h =>
    if t.state = .armed ∧ t.preroll = .auto ∧ t.effective ≠ .now ∧ (p.head h).drive.atRest then some h else none
  | none => none

/-- The error of a take: F_sop less F_cut while F_sop is EXACT and F_cut has a value; 0 for incoming STANDBY (R82,
R98). -/
def Take.errorOf (t : Take) : Option Int :=
  if t.incoming = .standby then some 0
  else
    match t.sop, t.fCut with
    | some r, some c => if r.basis = .exact then r.value.map fun v => Stamp.diff v c else none
    | _, _ => none

/-- A take whose F_cut follows its record, and whose error and commit field follow F_cut (R82, R83, R98). -/
def Take.figures (lead : Nat) (t : Take) : Take :=
  let cut := match t.cut with
    | some r => r.value
    | none => t.fCut
  let t := { t with fCut := cut }
  let commit := match t.state with
    | .armed | .starting | .ready => cut.map fun c => Stamp.minus c lead
    | .queued | .held | .committed => t.commitAt
  { t with error := t.errorOf, commitAt := commit }

/-- The start field of the active take of island `i` recomputed, with SHORT_LEADER when it enters the short-leader case
(R81, R84). -/
def refreshStart (i : IslandId) (p : Part) : Part :=
  match (p.island i).active with
  | none => p
  | some t =>
    match t.planned p, t.fCut with
    | some h, some cut =>
      let x := p.head h
      let d := t.leader x
      let short := d.map (shortLeader x)
      let q := p.modFront i fun t =>
        { t with fStart := some (startField p.ref.standard x d cut), short := if short.isSome then short else t.short }
      if short = some true ∧ t.short ≠ some true then
        post (.island i) (.shortLeader t.tag h x.settings.runupDistance (d.getD 0)) q
      else q
    | _, _ => if t.state = .armed then p.modFront i fun t => { t with fStart := none } else p

/-- The figures of the active take of island `i` recomputed from its records (R83: records first, then F_start and
e). -/
def refreshTake (i : IslandId) (p : Part) : Part :=
  match (p.island i).active with
  | none => p
  | some _ => refreshStart i (p.modFront i (Take.figures (p.island i).settings.lead))

end Sys2Proof.Machine
end

