-- ==== Sys2Proof/Machine/Changeover.lean ====
section
/-! DEFINITION. The Changeover Scheduler (chapter 6): commits, the life of a take, activation and re-forming, the guard of
the picture on air. Each definition is one request or report the scheduler takes whole. -/

namespace Sys2Proof.Machine

/-! ### Commits (R101) -/

/-- The port of a source of island `i`: a head's assigned port, or the standby port (R101). -/
def Part.portOf (p : Part) (i : IslandId) (s : Source) : Port :=
  match s with
  | .head h => ((p.head h).assigned.map (·.port)).getD (p.island i).settings.standbyPort
  | .standby => (p.island i).settings.standbyPort
  | .unknown => (p.island i).settings.standbyPort

/-- A commit of a source with a cut field, whose MOVE has a given asked field: MOVE submitted, mirror MOVING, confirmation
and deadline set (R101). -/
def commitAsked (asked : Stamp) (i : IslandId) (s : Source) (cut : Stamp) (owner : Owner) (p : Part) : Part :=
  let port := p.portOf i s
  submitMove i port asked (p.modIsland i fun x =>
    { x with mirror := .moving port
             confirm := some { target := s, port := port, cut := cut, deadline := Stamp.plus cut x.settings.grace,
                               owner := owner } })

/-- A commit: its MOVE's asked field is the field count (R101, section 7.3). -/
def commit (i : IslandId) (s : Source) (cut : Stamp) (owner : Owner) (p : Part) : Part :=
  commitAsked p.ref.count i s cut owner p

/-- M fields after the field count. -/
def Part.leadField (p : Part) (i : IslandId) : Stamp := Stamp.plus p.ref.count (p.island i).settings.lead

/-- A standby commit now (R101). -/
def standbyNow (i : IslandId) (p : Part) : Part := commit i .standby (p.leadField i) .island p

/-- The standby commit of the initialisation of the rings: its MOVE has asked field 0 (R113, R131, R174 step 4). -/
def standbyAtStart (i : IslandId) (p : Part) : Part := commitAsked 0 i .standby (p.leadField i) .island p

/-- A move awaits confirmation on island `i` (R89). -/
def Part.awaits (p : Part) (i : IslandId) : Bool := (p.island i).confirm.isSome

/-- The front take of island `i` commits its incoming source with a pending outcome: COMMITTED, TAKE_COMMIT (R101,
R112). -/
def commitTake (i : IslandId) (outcome : TakeOutcome) (lost : Option Int) (p : Part) : Part :=
  match (p.island i).active with
  | none => p
  | some t =>
    let cut := t.fCut.getD (p.leadField i)
    let q := commit i t.incoming cut .take p
    let q := q.modFront i fun t =>
      { t with state := .committed, cut := none, commitAt := none, outcome := outcome, lost := lost }
    post (.island i) (.takeCommit t.tag (p.portOf i t.incoming) (some cut) t.error outcome t.slip) q

/-! ### The end of a take (R92, R112) -/

/-- What TAKE_END carries (R112). -/
def Take.endItem (t : Take) (outcome : TakeOutcome) (reason : Reason) : EventItem :=
  .takeEnd t.tag outcome reason t.incoming t.outgoing t.fCut t.error t.slip t.lost

/-- The front take of island `i` ends: it leaves the list and TAKE_END is posted (R92, R112). -/
def endFront (i : IslandId) (outcome : TakeOutcome) (reason : Reason) (p : Part) : Part :=
  match (p.island i).takes with
  | [] => p
  | t :: rest =>
    post (.island i) (t.endItem outcome reason) (p.modIsland i fun x => { x with takes := rest })

/-! ### From activation to the commit (R97 to R100) -/

/-- A start request to a head STOPPED or PARKED, and what its RUNUP does to the records (R24, R84, R97). -/
def startRequest (h : HeadId) (p : Part) : Part :=
  if (p.head h).drive.atRest then
    let q := startDrive h .scheduler p
    refreshTake .i2 (refreshTake .i1 (mapPreds h (Pred.atStart q) q))
  else p

/-- F_cut of the front take of island `i` set M fields after the count, followed no more (R98, R99, R107). -/
def cutSoon (i : IslandId) (p : Part) : Part :=
  refreshTake i (p.modFront i fun t => { t with cut := none, fCut := some (p.leadField i) })

/-- A state before the commit in which a take's cut can still be planned. -/
def TakeState.pending : TakeState → Bool
  | .armed | .starting | .ready => true
  | .queued | .held | .committed => false

/-- An AT_CUE take whose F_cut record is REACHED with absent value takes effective mode NOW (R99). Its F_start is dropped in
STARTING and READY too, as R97 says, though R81 keeps it until the take ends (log entry 37). -/
def convertNow (i : IslandId) (p : Part) : Part :=
  match (p.island i).active with
  | none => p
  | some t =>
    match t.cut with
    | none => p
    | some r =>
      if t.state.pending ∧ r.basis = .reached ∧ r.value = none then
        let q := p.modFront i fun t => { t with effective := .now, cut := none, fCut := none, fStart := none }
        if t.state = .ready then cutSoon i q else refreshTake i q
      else p

/-- An ARMED AUTO take of effective mode NOW sends its start request when its head is STOPPED or PARKED (R97). -/
def sendStart (i : IslandId) (p : Part) : Part :=
  match (p.island i).active with
  | none => p
  | some t =>
    match t.head? with
    | some h =>
      if t.state = .armed ∧ t.preroll = .auto ∧ t.effective = .now ∧ (p.head h).drive.atRest then startRequest h p else p
    | none => p

/-- An ARMED take whose incoming head is in a running state moves to STARTING (R97). -/
def followRunning (i : IslandId) (p : Part) : Part :=
  match (p.island i).active with
  | none => p
  | some t =>
    match t.head? with
    | some h =>
      if t.state = .armed ∧ (p.head h).drive.running then p.modFront i fun t => { t with state := .starting } else p
    | none => p

/-- The tolerance in force for a take. -/
def Take.allowed (t : Take) (x : Island) : Int := t.tolerance.getD x.settings.tolerance

/-- The condition of READY for a take in STARTING (R98). -/
def Take.mayReady (p : Part) (x : Island) (t : Take) : Bool :=
  match t.incoming with
  | .standby => true
  | .unknown => false
  | .head h =>
    (p.head h).drive = .locked &&
      (t.effective = .now ||
        match t.error with
        | some e => e ≤ t.allowed x
        | none => t.sopCue.isNone || t.sop.any fun r => r.basis = .reached && r.value.isNone)

/-- The condition under which a READY take stays READY (R98). -/
def Take.staysReady (p : Part) (x : Island) (t : Take) : Bool :=
  match t.incoming with
  | .standby => true
  | .unknown => false
  | .head h => (p.head h).drive = .locked && (t.effective = .now || t.error.all fun e => e ≤ t.allowed x)

/-- The basis a take's F_cut is reported with: that of its record; ABSENT without a value; none for a field the
scheduler set (R75, R86). -/
def Take.cutBasis (t : Take) : Option Basis :=
  match t.cut with
  | some r => some r.basis
  | none => if t.fCut.isNone then some .absent else none

/-- The front take of island `i` enters READY; a NOW take sets its F_cut; TAKE_READY is posted (R98). -/
def becomeReady (i : IslandId) (p : Part) : Part :=
  let q := p.modFront i fun t => { t with state := .ready }
  match (q.island i).active with
  | none => q
  | some t =>
    let q := if t.effective = .now then cutSoon i q else refreshTake i q
    match (q.island i).active with
    | none => q
    | some t =>
      post (.island i) (.takeReady t.tag t.fCut (t.sop.bind (·.value)) (t.sop.map (·.basis)) t.error) q

/-- A take in STARTING or READY is judged (R98). -/
def judgeReady (i : IslandId) (p : Part) : Part :=
  match (p.island i).active with
  | none => p
  | some t =>
    if t.state = .starting ∧ t.mayReady p (p.island i) then becomeReady i p
    else if t.state = .ready ∧ ¬ t.staysReady p (p.island i) then p.modFront i fun t => { t with state := .starting }
    else p

/-- The EXACT F_sop of a HELD take whose incoming head is LOCKED (R100). -/
def Take.heldSop (p : Part) (t : Take) : Option Stamp :=
  match t.head?, t.sop with
  | some h, some r => if (p.head h).drive = .locked ∧ r.basis = .exact then r.value else none
  | _, _ => none

/-- The slip of a held take for a new F_cut (R100). -/
def Take.slipTo (t : Take) (cut : Stamp) : Int :=
  match t.heldCut with
  | some c => Stamp.diff cut c
  | none => 0

/-- A HELD take is re-targeted to F_sop, or commits at once when F_sop − M is already reached; its commit waits while
another move awaits confirmation (R99, R100). -/
def retarget (i : IslandId) (p : Part) : Part :=
  match (p.island i).active with
  | none => p
  | some t =>
    if t.state ≠ .held then p
    else
      match t.heldSop p with
      | none => p.modFront i fun t => { t with commitAt := none }
      | some sop =>
        let lead := (p.island i).settings.lead
        if reached p.ref.count (Stamp.minus sop lead) then
          let cut := p.leadField i
          let q := refreshTake i (p.modFront i fun t =>
            { t with fCut := some cut, commitAt := some p.ref.count, slip := t.slipTo cut })
          if p.awaits i then q else commitTake i .slipped none q
        else
          refreshTake i (p.modFront i fun t =>
            { t with fCut := some sop, commitAt := some (Stamp.minus sop lead), slip := t.slipTo sop })

/-- The take conditions of island `i` evaluated against the figures in force (R83: after the records, F_start and e). -/
def evalTake (i : IslandId) (p : Part) : Part :=
  retarget i (judgeReady i (followRunning i (sendStart i (convertNow i p))))

/-- The front take of island `i` enters HELD: the held cut recorded, a start request sent if the head still stands
(R100). -/
def enterHeld (i : IslandId) (p : Part) : Part :=
  match (p.island i).active with
  | none => p
  | some t =>
    let q := p.modFront i fun t => { t with state := .held, heldCut := t.fCut, cut := none, commitAt := none }
    let q :=
      match t.head? with
      | some h => if t.preroll = .auto then startRequest h q else q
      | none => q
    evalTake i q

/-- What the commit decision says (R99, R100): commit with an outcome and the fields lost, or hold. -/
inductive Decision where
  | cut (outcome : TakeOutcome) (lost : Option Int)
  | hold
deriving DecidableEq, Repr

/-- The commit decision (R99, R100). -/
def Take.decide (x : Island) (t : Take) : Decision :=
  match t.state with
  | .held => .cut .slipped none
  | .ready =>
    if t.sopCue.isNone then .cut .done none
    else
      match t.error with
      | some e =>
        if e.natAbs ≤ (t.allowed x).toNat then .cut .done none
        else if e < 0 then .cut .early (some (-e))
        else .hold
      | none =>
        match t.sop with
        | some r =>
          if r.basis = .reached then
            .cut .early (match r.value, t.fCut with
              | some v, some c => some (Stamp.diff c v)
              | _, _ => none)
          else .hold
        | none => .hold
  | .queued | .armed | .starting | .committed => .hold

/-- The commit field of island `i`'s active take has been reached, and no move it does not own awaits (R99, R100). -/
def commitDue (i : IslandId) (p : Part) : Bool :=
  !p.awaits i &&
    match (p.island i).active with
    | none => false
    | some t => (t.state.pending || t.state = .held) && t.commitAt.any fun c => reached p.ref.count c

/-- The commit decision is taken; a field reached after it was due first moves F_cut M fields on, by whose error a take in
STARTING or READY is judged again (R98, R99, R100). -/
def takeCommitField (i : IslandId) (p : Part) : Part :=
  match (p.island i).active with
  | none => p
  | some t =>
    let q :=
      if t.commitAt = some p.ref.count then p
      else
        let cut := p.leadField i
        judgeReady i (refreshTake i (p.modFront i fun t =>
          { t with cut := none, fCut := some cut, slip := if t.state = .held then t.slipTo cut else t.slip }))
    match (q.island i).active with
    | none => q
    | some t =>
      match t.decide (q.island i) with
      | .cut outcome lost => commitTake i outcome lost q
      | .hold => enterHeld i q

/-- F_start of island `i`'s ARMED AUTO take has been reached (R97). -/
def startDue (i : IslandId) (p : Part) : Bool :=
  match (p.island i).active with
  | none => false
  | some t => (t.planned p).isSome && t.fStart.any fun f => reached p.ref.count f

/-- The start request of an ARMED take is sent and the take enters STARTING, its F_start kept (R81, R97). -/
def takeStartField (i : IslandId) (p : Part) : Part :=
  match (p.island i).active.bind (·.head?) with
  | some h => evalTake i (startRequest h (p.modFront i fun t => { t with state := .starting }))
  | none => p

/-- A start field that is reached as it is formed or recomputed is met at once (R4, R81). -/
def meetStart (i : IslandId) (p : Part) : Part := if startDue i p then takeStartField i p else p

/-- A commit field that is reached as it is set up, and one that was deferred when the move ends it waited for, is met at once
(R4, R82, R99). -/
def meetCommit (i : IslandId) (p : Part) : Part := if commitDue i p then takeCommitField i p else p

/-- The take conditions of island `i` evaluated, and its fields that are reached already met. -/
def workTake (i : IslandId) (p : Part) : Part := meetCommit i (meetStart i (evalTake i p))

/-- The takes of both islands with their figures recomputed, their conditions evaluated, and their fields that are reached
already met. -/
def settleTakes (p : Part) : Part := workTake .i2 (refreshTake .i2 (workTake .i1 (refreshTake .i1 p)))

/-! ### Activation and re-forming (R95, R96) -/

/-- A reference to a cue. -/
def Cue.toRef (c : Cue) : CueRef := { id := c.id, frame := c.frame }

/-- The SOP cue of a take: the one it names, else the lowest PENDING SOP cue of the incoming head (R96). -/
def chooseSop (p : Part) (t : Take) : Option CueRef :=
  match t.head? with
  | none => none
  | some h =>
    match t.inCue with
    | some id => (findCue (p.head h).cues id).map Cue.toRef
    | none => (firstPending .sop (p.head h).cues).map Cue.toRef

/-- The CHANGEOVER cue of a take for an outgoing source (R96). -/
def chooseChange (p : Part) (t : Take) (outgoing : Source) : Option CueRef :=
  match outgoing with
  | .head h =>
    match t.outCue with
    | some id => (findCue (p.head h).cues id).map Cue.toRef
    | none => (firstPending .changeover (p.head h).cues).map Cue.toRef
  | .standby => none
  | .unknown => none

/-- The effective mode of a take for an outgoing source and the CHANGEOVER cue chosen (R95 step 5). -/
def effectiveMode (count : Stamp) (lead : Nat) (t : Take) (outgoing : Source) (change : Option CueRef) : TakeMode :=
  match t.mode with
  | .now => .now
  | .atCue =>
    match outgoing, change with
    | .head _, some _ => .atCue
    | _, _ => .now
  | .atField => if reached count t.field ∨ Stamp.diff t.field count < lead then .now else .atField

/-- The F_cut record of a take of effective mode AT_CUE, REACHED when its cue already lies behind the head (R95 step 6,
R99). -/
def cutRecord (p : Part) (mode : TakeMode) (outgoing : Source) (change : Option CueRef) : Option Pred :=
  match mode, outgoing, change with
  | .atCue, .head h, some c => some (formPred p .cutOrEnd h c.frame)
  | _, _, _ => none

/-- The front take given its outgoing source, CHANGEOVER cue, effective mode and F_cut (R95 steps 1, 4, 5, 6). One that is NOW
drops its F_start in every state, as R97 says, though R81 keeps it until the take ends (log entry 37). -/
def formCut (i : IslandId) (outgoing : Source) (keepNow : Bool) (p : Part) : Part :=
  p.modFront i fun t =>
    let change := chooseChange p t outgoing
    let mode :=
      if keepNow && t.effective = .now then .now
      else effectiveMode p.ref.count (p.island i).settings.lead t outgoing change
    let cut := cutRecord p mode outgoing change
    { t with outgoing := some outgoing, changeCue := change, effective := mode, cut := cut,
             fCut := if mode = .atField then some t.field else cut.bind (·.value),
             fStart := if t.state = .armed ∨ mode = .now then none else t.fStart }

/-- The front take of island `i` is activated, past steps 2 and 3 of R95. A take of incoming STANDBY passes STARTING
into READY in the same step (R97, R98). -/
def enterTake (i : IslandId) (outgoing : Source) (p : Part) : Part :=
  let q := formCut i outgoing false p
  let q := q.modFront i fun t =>
    let sop := chooseSop p t
    { t with
      tolerance := some (t.tolerance.getD (p.island i).settings.tolerance)
      sopCue := sop
      sop := match t.head?, sop with
        | some h, some c => some (formPred p .sop h c.frame)
        | _, _ => none
      state := match t.head? with
        | some h => if (p.head h).drive.running then .starting else .armed
        | none => .starting }
  let q := convertNow i (refreshTake i q)
  match (q.island i).active with
  | none => q
  | some t =>
    workTake i (post (.island i)
      (.takeActive t.tag t.incoming t.outgoing t.effective t.cutBasis (t.sopCue.map (·.id)) (t.changeCue.map (·.id))
        t.fCut t.fStart) q)

/-- The front take of island `i` is activated when it is QUEUED and no move awaits; one that ends at step 2 or 3 gives
way to the next (R95). The number bounds the takes tried. -/
def activate : Nat → IslandId → Part → Part
  | 0, _, p => p
  | n + 1, i, p =>
    match (p.island i).takes with
    | [] => p
    | t :: _ =>
      if t.state ≠ .queued ∨ p.awaits i then p
      else
        let outgoing := (p.island i).onAir
        if t.incoming = outgoing then
          activate n i (endFront i .failed .sameSource (p.modFront i fun t => { t with outgoing := some outgoing }))
        else if t.head?.any (fun h => (p.head h).drive = .fault) then
          activate n i (endFront i .failed .incomingFault (p.modFront i fun t => { t with outgoing := some outgoing }))
        else enterTake i outgoing p

/-- The front take of island `i` is activated if it can be (R95). -/
def activateFront (i : IslandId) (p : Part) : Part := activate (p.island i).takes.length i p

/-- The active take of island `i` ends, and the new front take is activated if no move awaits (R92). -/
def endActive (i : IslandId) (outcome : TakeOutcome) (reason : Reason) (p : Part) : Part :=
  activateFront i (endFront i outcome reason p)

/-- The active take of island `i` is re-formed for the new on-air source (R96). One that is READY and becomes NOW by it has its
F_cut set to the field count plus M at once (DESIGN CHOICE, log entry 59). -/
def reform (i : IslandId) (p : Part) : Part :=
  match (p.island i).active with
  | none => p
  | some t =>
    let outgoing := (p.island i).onAir
    if ¬ t.state.pending then p
    else if t.incoming = outgoing then
      endActive i .failed .sameSource (p.modFront i fun t => { t with outgoing := some outgoing })
    else
      let q := formCut i outgoing true p
      let q := if t.state = .ready ∧ (q.island i).active.any (·.effective = .now) then cutSoon i q else refreshTake i q
      workTake i q

/-- After a confirmation has ended: the active take is re-formed, else the front take is activated (R102, R103), also where the
source on air is the same as before (DEDUCED, log entry 19). -/
def reformOrActivate (i : IslandId) (p : Part) : Part :=
  if (p.island i).active.isSome then reform i p else activateFront i p

/-! ### The on-air source (R89, R102 to R104) -/

/-- The Cadence Monitors are told of a change of on-air source, for LOCK_LOSS (R50, R89). -/
def tellMonitors (old new : Source) (p : Part) : Part :=
  let q :=
    match old with
    | .head h => if p.onAir h then p else clearAlarm (.head h) .lockLoss 0 0 p
    | .standby => p
    | .unknown => p
  match new with
  | .head h => if (q.head h).drive = .unlocked then raiseAlarm (.head h) .lockLoss 0 0 q else q
  | .standby => q
  | .unknown => q

/-- The on-air source of island `i` becomes `new`: ON_AIR posted, the monitors told, F_end formed afresh (R75, R89,
R112). -/
def setOnAir (i : IslandId) (new : Source) (cause : OnAirCause) (port : Option Port) (cut : Option Stamp) (p : Part) :
    Part :=
  let old := (p.island i).onAir
  let q := p.modIsland i fun x => { x with onAir := new, fEnd := if old = new then x.fEnd else none }
  let q := post (.island i) (.onAir cause new old port cut) q
  followEnd i (if old = new then q else tellMonitors old new q)

/-- NO_SAFE_SOURCE clears when a source is known again (R102, R104). -/
def clearNoSafe (i : IslandId) (p : Part) : Part := clearAlarm (.island i) .noSafeSource 0 0 p

/-- A take can cut in an emergency (R107). -/
def Take.canCut (p : Part) (t : Take) : Bool :=
  match t.state with
  | .ready => true
  | .starting | .held => t.head?.any fun h => (p.head h).drive = .locked
  | .queued | .armed | .committed => false

/-- An on-air fault of island `i` (R107). -/
def onAirFault (i : IslandId) (p : Part) : Part :=
  if (p.island i).settings.policy = .hold ∨ p.awaits i then p
  else
    match (p.island i).active with
    | some t =>
      if t.canCut p then
        let q := cutSoon i (p.modFront i fun t => { t with slip := t.slipTo (p.leadField i) })
        commitTake i .emergency none q
      else standbyNow i p
    | none => standbyNow i p

/-- A stop of the on-air head of island `i` (R108). -/
def onAirStop (i : IslandId) (p : Part) : Part := if p.awaits i then p else standbyNow i p

/-- A head that has just come on air is examined: in FAULT or with LAMP_FAIL it is an on-air fault; outside the running
states and not in FAULT it is a stop, under either policy (R102 step 4, R104, R108, R109). -/
def examine (i : IslandId) (p : Part) : Part :=
  match (p.island i).onAir with
  | .head h =>
    if (p.head h).drive = .fault then onAirFault i p
    else
      let q := if (p.analog.lamp.get h).condition = some .lampFail then onAirFault i p else p
      if (p.head h).drive.running then q else onAirStop i q
  | .standby => p
  | .unknown => p

/-! ### The end guard (R105) -/

/-- The end guard of island `i` is due: F_end − M reached, a head on air, no move awaiting (R105). -/
def guardDue (i : IslandId) (p : Part) : Bool :=
  let x := p.island i
  !p.awaits i &&
    match x.onAir, x.fEnd.bind (·.value) with
    | .head _, some f => reached p.ref.count (Stamp.minus f x.settings.lead)
    | _, _ => false

/-- The active take of island `i` ends FALLBACK (R105, R106). -/
def fallBack (i : IslandId) (reason : Reason) (p : Part) : Part :=
  if (p.island i).active.isSome then endFront i .fallback reason p else p

/-- The alarm of a FALLBACK's reason, raised after the scheduler's own events of the step (R105, R106, R112). -/
def raiseFallBack (i : IslandId) (reason : Reason) (p : Part) : Part :=
  raiseAlarm (.island i) (if reason = .lateStart then .lateStart else .runout) 0 0 p

/-- The reason for which the end guard ends the active take (R105). -/
def Island.guardReason (x : Island) : Reason := if x.active.any (·.state = .held) then .lateStart else .runout

/-- The end guard commits STANDBY and the active take ends FALLBACK; `known` is what else the step does to the alarms, before
the guard's own is raised (R105, R112). -/
def closeGuard (i : IslandId) (known : Part → Part) (p : Part) : Part :=
  let x := p.island i
  match x.fEnd.bind (·.value) with
  | none => known p
  | some f =>
    let cut := if p.ref.count = Stamp.minus f x.settings.lead then f else p.leadField i
    raiseFallBack i x.guardReason (known (fallBack i x.guardReason (commit i .standby cut .island p)))

/-- The end guard commits STANDBY; the active take ends FALLBACK with LATE_START or RUNOUT (R105). -/
def takeGuard (i : IslandId) (p : Part) : Part := closeGuard i id p

/-- An end guard whose field is reached as it is set up, or as the move that stood it down ends, is met at once, after the
cues and the reports of the same step (R4, R82, R105, R106, log entry 2). -/
def meetGuard (i : IslandId) (p : Part) : Part := if guardDue i p then takeGuard i p else p

/-- The end guard of island `i` as its source has become known: NO_SAFE_SOURCE clears after the scheduler's own events of the
step, the guard's among them, and before the guard's alarm (R102, R104, R112). -/
def meetGuardKnown (i : IslandId) (p : Part) : Part :=
  if guardDue i p then closeGuard i (clearNoSafe i) p else clearNoSafe i p

/-- Both end guards. -/
def meetGuards (p : Part) : Part := meetGuard .i2 (meetGuard .i1 p)

/-- The takes settled, and then the end guards. -/
def settle (p : Part) : Part := meetGuards (settleTakes p)

/-! ### Confirmation and failure (R102 to R104) -/

/-- The confirmation of island `i` ends: it becomes absent and fast polling is off (R102, R103, R126). -/
def endConfirmation (i : IslandId) (p : Part) : Part := endFast i (p.modIsland i fun x => { x with confirm := none })

/-- The move of island `i` is confirmed (R102). The scheduler's own events come before its alarms (R112, log entry 20). -/
def confirmMove (i : IslandId) (c : Confirmation) (p : Part) : Part :=
  let q := endConfirmation i (p.modIsland i fun x => { x with mirror := .atPort c.port })
  let q := setOnAir i c.target .confirmed (some c.port) (some c.cut) q
  let q :=
    match c.owner, (q.island i).active with
    | .take, some t => endFront i t.outcome .none q
    | _, _ => q
  meetGuardKnown i (meetCommit i (reformOrActivate i (examine i q)))

/-- The move of island `i` fails (R103). Its ON_AIR carries no port (log entry 54). The scheduler's own events of the step, a
commit of the next take among them, come before its alarms (R112, R181, log entry 20). -/
def failMove (i : IslandId) (c : Confirmation) (p : Part) : Part :=
  let q := endConfirmation i (p.modIsland i fun x => { x with mirror := .unknown })
  let q := setOnAir i .unknown .failed none none q
  let q :=
    match c.owner, (q.island i).active with
    | .take, some _ => endFront i .failed .mirror q
    | _, _ => q
  let q := raiseAlarm (.island i) .mirrorFault (word c.port.num) 0 (meetCommit i (reformOrActivate i q))
  if c.target = .standby then raiseAlarm (.island i) .noSafeSource 0 0 q else q

/-- The deadline of island `i`'s confirmation has been reached (R103). -/
def deadlineDue (i : IslandId) (p : Part) : Bool :=
  (p.island i).confirm.any fun c => reached p.ref.count c.deadline

/-- The deadline passes unconfirmed (R103). -/
def takeDeadline (i : IslandId) (p : Part) : Part :=
  match (p.island i).confirm with
  | some c => failMove i c p
  | none => p

/-- The source at a port of island `i` (R89). -/
def Part.sourceAt (p : Part) (i : IslandId) (q : Port) : Source :=
  match HeadId.list.find? fun h => (p.head h).assigned = some ⟨i, q⟩ with
  | some h => .head h
  | none => if (p.island i).settings.standbyPort = q then .standby else .unknown

/-- A station report moves the on-air source of island `i`: the active take is re-formed, a head that has so come on air is
examined, and NO_SAFE_SOURCE clears after the scheduler's own events (R104, R112, log entry 20). -/
def reportSource (i : IslandId) (new : Source) (port : Option Port) (p : Part) : Part :=
  if (p.island i).onAir = new then p
  else
    let q := examine i (reform i (setOnAir i new .report port none p))
    if new = .unknown then meetGuard i q else meetGuardKnown i q

/-- A STATUS with no move awaiting confirmation (R104). The ON_AIR of a moving mirror carries no port (log entry 54). -/
def stationReport (i : IslandId) (port : Port) (moving : Bool) (p : Part) : Part :=
  if moving then reportSource i .unknown none (p.modIsland i fun x => { x with mirror := .unknown })
  else if (p.island i).mirror = .atPort port then p
  else reportSource i (p.sourceAt i port) (some port) (p.modIsland i fun x => { x with mirror := .atPort port })

/-- A good STATUS delivered to the scheduler (R102, R104, R122). -/
def deliverStatus (i : IslandId) (port : Port) (moving : Bool) (p : Part) : Part :=
  match (p.island i).confirm with
  | some c => if ¬ moving ∧ port = c.port then confirmMove i c p else p
  | none => stationReport i port moving p

/-- A REFUSE delivered to the scheduler: a failure when the port refused is the one awaited (R103, R122). -/
def deliverRefusal (i : IslandId) (port : Port) (p : Part) : Part :=
  match (p.island i).confirm with
  | some c => if port = c.port then failMove i c p else p
  | none => p

/-- The station of island `i` is reported OFFLINE: the mirror state becomes UNKNOWN (R104, R127). -/
def stationOffline (i : IslandId) (p : Part) : Part := p.modIsland i fun x => { x with mirror := .unknown }

/-! ### Guarding the picture on air (R105 to R109) -/

/-- The on-air head of island `i` has reached an END cue (R106). -/
def endReached (i : IslandId) (h : HeadId) (p : Part) : Part :=
  if (p.island i).onAir = .head h ∧ ¬ p.awaits i then
    raiseFallBack i .runout (fallBack i .runout (standbyNow i p))
  else p

/-- The incoming head of island `i`'s active take has faulted or stopped: the take ends FAILED unless it is COMMITTED
(R109). -/
def incomingFailed (i : IslandId) (h : HeadId) (reason : Reason) (p : Part) : Part :=
  match (p.island i).active with
  | none => p
  | some t => if t.incoming = .head h ∧ t.state ≠ .committed then endActive i .failed reason p else p

/-- The scheduler is told that head `h` has entered FAULT (R84, R107, R109); the end guards are met last (log entry 2). -/
def tellFault (h : HeadId) (p : Part) : Part :=
  let p := settleTakes (mapPreds h Pred.atLeave p)
  let one := fun i p =>
    incomingFailed i h .incomingFault (if (p.island i).onAir = .head h then onAirFault i p else p)
  meetGuards (one .i2 (one .i1 p))

/-- The scheduler is told that head `h` has entered STOPPING from a running state (R84, R108, R109); the caller has the end
guards met. -/
def tellStop (h : HeadId) (p : Part) : Part :=
  let p := settleTakes (mapPreds h Pred.atLeave p)
  let one := fun i p =>
    incomingFailed i h .incomingStopped (if (p.island i).onAir = .head h then onAirStop i p else p)
  one .i2 (one .i1 p)

/-- The scheduler is told that head `h` has entered RUNUP by a START that is not its own (R84, R97). -/
def tellStart (h : HeadId) (p : Part) : Part := settle (mapPreds h (Pred.atStart p) p)

/-- The scheduler is told of a position jump of head `h` (R85); the caller has the end guards met. -/
def tellJump (h : HeadId) (fired : Bool) (p : Part) : Part := settleTakes (followEnds (mapPreds h (Pred.atJump p fired) p))

/-- The scheduler is told of a forward boundary of head `h` after it has been judged; `unlocked` says that the head lost
lock at it (R83, R84); the caller has the end guards met. -/
def tellBoundary (h : HeadId) (unlocked : Bool) (p : Part) : Part := settleTakes (mapPreds h (Pred.atBoundary p unlocked) p)

/-- The scheduler is told of a reverse boundary of head `h` (R84). -/
def tellReverse (h : HeadId) (p : Part) : Part := settle (followEnds (mapPreds h (Pred.atReverse p) p))

end Sys2Proof.Machine
end

