-- ==== Sys2Proof/Machine/Heads.lean ====
section
/-! DEFINITION. The Head Controllers (chapter 2, section 4.4): counting perfs, firing cues, stops and faults, the cue-up
loop, the head commands. The panel keys make the same requests without the target and authority checks (R23). -/

namespace Sys2Proof.Machine

/-! ### Counting (R18, R19) -/

/-- The position one perf on in a direction (R18). -/
def Position.perf (g : Gauge) (forward : Bool) (p : Position) : Position :=
  if forward then (if g.perfs ≤ p.phase + 1 then ⟨p.frame + 1, 0⟩ else ⟨p.frame, p.phase + 1⟩)
  else if p.phase = 0 then ⟨p.frame - 1, g.perfs - 1⟩
  else ⟨p.frame, p.phase - 1⟩

/-- The end of the range a direction runs to. -/
def sideOf (forward : Bool) : LimitSide := if forward then .highest else .lowest

/-- COUNT_LIMIT of head `h` ends (R19). -/
def endLimit (h : HeadId) (p : Part) : Part :=
  clearAlarm (.head h) .countLimit 0 0 (p.modHead h fun x => { x with countLimit := none })

/-- A jump that leaves the position away from the limit at which COUNT_LIMIT was raised clears it (R19). -/
def leaveLimit (h : HeadId) (p : Part) : Part :=
  let x := p.head h
  match x.countLimit with
  | some s => if x.pos = s.position x.settings.gauge then p else endLimit h p
  | none => p

/-! ### Stops and faults (R25, R28 to R30) -/

/-- A STOP taken by head `h` (R25); the caller has the end guards met. -/
def stopHead (h : HeadId) (cause : Cause) (p : Part) : Part :=
  match (p.head h).drive with
  | .runup | .locked | .unlocked => tellStop h (enterDrive h .stopping cause none p)
  | .cueFast | .cueInch | .settling => settleTakes (enterDrive h .stopping cause none p)
  | .stopping => p
  | .stopped | .parked | .fault => if (p.head h).lampPolicy = .auto then switchLamp h false p else p

/-- A STOP request of a command or a key (R25); where it changes the drive state, the end guards are met last (log entry 2). -/
def requestStop (h : HeadId) (cause : Cause) (p : Part) : Part :=
  let q := stopHead h cause p
  if (q.head h).drive = (p.head h).drive then q else meetGuards q

/-- A latched fault taken by head `h`: the protective action, or in FAULT its alarm alone (R28, R29, R30). -/
def faultHead (h : HeadId) (k : FaultKind) (p : Part) : Part :=
  if (p.head h).drive = .fault then raiseAlarm (.head h) k.alarm 0 0 p
  else tellFault h (enterDrive h .fault k.cause (some k) (p.modHead h fun x => { x with fault := some k }))

/-! ### Cues fired by motion (R58, R60, R61, R72) -/

/-- The action of a fired cue (R60). -/
def cueAction (h : HeadId) (kind : CueKind) (p : Part) : Part :=
  match kind with
  | .ending => endReached .i2 h (endReached .i1 h p)
  | .stop => stopHead h .cue p
  | .sop => p
  | .changeover => p
  | .mark => p

/-- A PENDING cue becomes PASSED and fires: CUE_PASSED, then its action (R58, R61). -/
def fireCue (h : HeadId) (inCorrection : Bool) (c : Cue) (p : Part) : Part :=
  let q := p.modHead h fun x => { x with cues := updateCue c.id (fun c => { c with passed := true }) x.cues }
  cueAction h c.kind (post (.head h) (.cuePassed c.id c.kind c.confirm inCorrection c.frame) q)

/-- The missed-mark step and the firing step of head `h` for frame `f` (R58 steps 2 and 3, R72). -/
def passFrame (h : HeadId) (inCorrection : Bool) (f : Int) (p : Part) : Part :=
  let q := missedMarkStep h f p
  match (q.head h).cues.find? fun c => c.frame = f ∧ ¬ c.passed with
  | some c => fireCue h inCorrection c q
  | none => q

/-- A forward frame boundary of head `h` in a running state: the Cadence Monitor, the predictions, then the cue table
(R20, R40, R58, R83). -/
def runningBoundary (h : HeadId) (p : Part) : Part :=
  let was := (p.head h).drive
  let q := cadenceBoundary h p
  let q := tellBoundary h (was = .locked && (q.head h).drive = .unlocked) q
  let q := passFrame h false (p.head h).pos.frame (q.modHead h fun x => { x with mark := none })
  settle (followEnds q)

/-- A forward frame boundary of head `h` in any other state (R20, R59). -/
def idleBoundary (h : HeadId) (p : Part) : Part := settle (followEnds (tellBoundary h false (followCues h p)))

/-- A frame boundary reported by head `h`, forward or reverse (R20). -/
def reportBoundary (h : HeadId) (forward : Bool) (p : Part) : Part :=
  if forward then (if (p.head h).drive.running then runningBoundary h p else idleBoundary h p)
  else tellReverse h (followCues h p)

/-! ### The cue-up loop (R63 to R65) -/

/-- The target in perfs of a cue-up. -/
def CueUp.perfs (g : Gauge) (c : CueUp) : Int := c.target * g.perfs

/-- A leg has reached or passed its target (R64). -/
def CueUp.arrived (g : Gauge) (c : CueUp) (pos : Position) : Bool :=
  if c.ahead then c.perfs g ≤ pos.perfs g else pos.perfs g ≤ c.perfs g

/-- The two tests of a leg at a counted perf (R64). -/
def followLeg (h : HeadId) (p : Part) : Part :=
  let x := p.head h
  match x.cueUp with
  | none => p
  | some c =>
    if ¬ x.drive.cueing then p
    else if c.arrived x.settings.gauge x.pos then settle (enterDrive h .settling .cueUp none p)
    else if x.drive = .cueFast ∧ (c.target - x.pos.frame).natAbs ≤ x.settings.approach then
      settle (enterDrive h .cueInch .cueUp none p)
    else p

/-- A counted perf takes a PARKED head to STOPPED with PARK_LOST (R21); the caller has the Changeover Scheduler told. -/
def loseParked (h : HeadId) (p : Part) : Part :=
  let x := p.head h
  match x.drive, x.park with
  | .parked, some r => enterDrive h .stopped .motion none (post (.head h) (.parkLost r.position x.pos) p)
  | .parked, none => enterDrive h .stopped .motion none p
  | _, _ => p

/-- A counted perf of head `h`: PARKED is lost first, then a boundary is reported, then the leg is followed; COUNT_LIMIT
clears after the head's own events of the perf (R18 to R21, R64, R148, R181). -/
def countedPerf (h : HeadId) (forward : Bool) (p : Part) : Part :=
  let x := p.head h
  let pos := x.pos.perf x.settings.gauge forward
  let q := loseParked h (p.modHead h fun x => { x with pos := pos })
  let q :=
    if pos.frame ≠ x.pos.frame then reportBoundary h forward q
    else if x.drive = .parked then settle q
    else q
  let q := followLeg h q
  if x.countLimit = some (sideOf !forward) then endLimit h q else q

/-- A tachometer pulse of head `h` (R18, R19). -/
def takeTach (h : HeadId) (forward : Bool) (p : Part) : Part :=
  let q := p.modHead h fun x =>
    { x with gapFrom := x.gapFrom.map fun _ => p.time.now, settleFrom := x.settleFrom.map fun _ => p.time.now }
  let x := q.head h
  if x.pos = (sideOf forward).position x.settings.gauge then
    raiseAlarm (.head h) .countLimit 0 0 (q.modHead h fun x => { x with countLimit := some (sideOf forward) })
  else countedPerf h forward q

/-- The tachometer gap measurement of head `h` has expired (R27). -/
def gapExpired (h : HeadId) (p : Part) : Bool :=
  (p.head h).gapFrom.any fun t => t + (p.head h).gapLimit ≤ p.time.now

/-- TACH_LOSS (R28). -/
def takeGapExpiry (h : HeadId) (p : Part) : Part := faultHead h .tachLoss p

/-- The settle measurement of head `h` has reached the settle time (R26, R65). -/
def settleExpired (h : HeadId) (p : Part) : Bool :=
  (p.head h).settleFrom.any fun t => t + (p.head h).settings.settleTime * 1000 ≤ p.time.now

/-- Detail 1 and detail 2 of CUE_FAULT as one number: the target frame in bits 0 to 23, the park error in bits 24 to 31
(R187). -/
def cueFaultDetail (target error : Int) : BitVec 32 :=
  BitVec.ofInt 8 (max (-128) (min 127 error)) ++ BitVec.ofInt 24 target

/-- The decision at the settle expiry of SETTLING (R65); CUE_FAULT is raised after the head's own events of the step
(R181). -/
def decidePark (h : HeadId) (c : CueUp) (p : Part) : Part :=
  let x := p.head h
  let error := x.pos.perfs x.settings.gauge - c.perfs x.settings.gauge
  if error.natAbs ≤ x.settings.parkTolerance then
    settle <| enterDrive h .parked .settle none (p.modHead h fun x => { x with park := some ⟨c.target, x.pos⟩ })
  else if x.attempts < 3 then
    settle <| enterDrive h .cueInch .cueUp none (p.modHead h fun x =>
      { x with attempts := x.attempts + 1, cueUp := some ⟨c.target, error < 0⟩ })
  else
    let d := cueFaultDetail c.target error
    raiseAlarm (.head h) .cueFault (lowWord d) (highWord d) (settle (enterDrive h .stopped .cueUp none p))

/-- The settle time of head `h` runs out (R26, R65). -/
def takeSettleExpiry (h : HeadId) (p : Part) : Part :=
  match (p.head h).drive, (p.head h).cueUp with
  | .stopping, _ => settle (enterDrive h .stopped .settle none p)
  | .settling, some c => decidePark h c p
  | _, _ => p

/-- A CUE_UP taken by head `h`, STOPPED or PARKED, for a target frame (R63). -/
def beginCueUp (h : HeadId) (target : Int) (cause : Cause) (p : Part) : Part :=
  let x := p.head h
  if x.pos = ⟨target, 0⟩ then
    let q := p.modHead h fun x => { x with park := some ⟨target, x.pos⟩, attempts := 0 }
    settle (if x.drive = .parked then q else enterDrive h .parked cause none q)
  else
    let ahead : Bool := x.pos.perfs x.settings.gauge < target * x.settings.gauge.perfs
    let q := p.modHead h fun x => { x with cueUp := some ⟨target, ahead⟩, attempts := 1 }
    let far := x.settings.approach < (target - x.pos.frame).natAbs
    settle (enterDrive h (if far then .cueFast else .cueInch) cause none q)

/-! ### Requests from a command or a key -/

/-- A START request to head `h` (R24). -/
def startHead (h : HeadId) (cause : Cause) (p : Part) : Part × Status :=
  match (p.head h).drive with
  | .stopped | .parked => (tellStart h (startDrive h cause p), .ok)
  | .runup | .locked | .unlocked => (p, .ok)
  | .cueFast | .cueInch | .settling | .stopping => (p, .busy)
  | .fault => (p, .faultLatched)

/-- The target of a CUE_UP to a cue: the cue's frame less the run-up distance, when the cue is in the table (R62). -/
def Head.cueTarget (x : Head) (id : Nat) : Option Int :=
  (findCue x.cues id).map fun c => c.frame - x.settings.runupDistance

/-- A CUE_UP request to head `h` for the cue of an id (R62). -/
def cueToId (h : HeadId) (id : Nat) (cause : Cause) (p : Part) : Part × Status :=
  let x := p.head h
  if ¬ x.drive.atRest then (p, .busy)
  else
    match x.cueTarget id with
    | none => (p, .notFound)
    | some t => if t < Config.frameMin then (p, .badArgument) else (beginCueUp h t cause p, .ok)

/-- A CUE_UP request to head `h` for a frame, or for none when the frame given is outside the range (R62). -/
def cueToFrame (h : HeadId) (target : Option Int) (p : Part) : Part × Status :=
  match target with
  | none => (p, .badArgument)
  | some t => if (p.head h).drive.atRest then (beginCueUp h t .command p, .ok) else (p, .busy)

/-! ### Head commands (R23) -/

/-- Island `i` is in LOCAL authority. -/
def Part.inLocal (p : Part) (i : IslandId) : Bool := (p.island i).authority = .panel

/-- Head `h` is assigned to an island in LOCAL authority (R23). -/
def Part.headLocal (p : Part) (h : HeadId) : Bool := (p.head h).assigned.any fun a => p.inLocal a.island

/-- A command for a head: the target check, then `f` (R23 step 1). -/
def onHead (w : Word) (f : HeadId → Part → Part × Status) (p : Part) : Part × Status :=
  match readHead w with
  | some h => f h p
  | none => (p, .badTarget)

/-- A command that LOCAL authority refuses (R23 step 2). -/
def unlessLocal (f : HeadId → Part → Part × Status) (h : HeadId) (p : Part) : Part × Status :=
  if p.headLocal h then (p, .localAuthority) else f h p

/-- START (R24). -/
def startCommand (head : Word) : Part → Part × Status := onHead head (unlessLocal fun h => startHead h .command)

/-- STOP (R25). -/
def stopCommand (head : Word) : Part → Part × Status :=
  onHead head (unlessLocal fun h p => (requestStop h .command p, .ok))

/-- A frame in the frame range. -/
def inRange (f : Int) : Option Int := if Config.frameMin ≤ f ∧ f ≤ Config.frameMax then some f else none

/-- CUE_UP (R62): forms 0 ABSOLUTE, 1 RELATIVE, 2 TO_CUE. -/
def cueUpCommand (head form : Word) (arg : BitVec 32) : Part → Part × Status :=
  onHead head (unlessLocal fun h p =>
    match form.toNat with
    | 0 => cueToFrame h (readFrame arg) p
    | 1 => cueToFrame h (inRange ((p.head h).pos.frame + arg.toInt)) p
    | 2 => cueToId h (lowWord arg).toNat .command p
    | _ => (p, .badArgument))

/-- SET_POSITION taken by head `h` (R19, R20, R33, R66); COUNT_LIMIT clears after the events of the step (R181). -/
def setPosition (h : HeadId) (f : Int) (p : Part) : Part :=
  let q := p.modHead h fun x =>
    { x with pos := ⟨f, 0⟩, park := if x.drive = .parked then some ⟨f, ⟨f, 0⟩⟩ else x.park }
  leaveLimit h (meetGuards (tellJump h false (followCues h q)))

/-- SET_POSITION (R33). -/
def setPositionCommand (head : Word) (frame : BitVec 32) : Part → Part × Status :=
  onHead head (unlessLocal fun h p =>
    match readFrame frame with
    | none => (p, .badArgument)
    | some f => if (p.head h).drive.atRest then (setPosition h f p, .ok) else (p, .busy))

/-- LAMP (R32). The policy in force becomes MANUAL; the setting stays as configured (log entry 41). -/
def lampCommand (head on : Word) : Part → Part × Status :=
  onHead head fun h p =>
    match readFlag on with
    | none => (p, .badArgument)
    | some b =>
      if (p.head h).drive = .fault then (p, .faultLatched)
      else (switchLamp h b (p.modHead h fun x => { x with lampPolicy := .manual }), .ok)

/-- CLEAR_FAULT (R31, R144). The latched alarms clear after the head's own events of the step, a start by the scheduler among
them (R181). -/
def clearFaultCommand (head : Word) : Part → Part × Status :=
  onHead head fun h p =>
    if (p.head h).drive ≠ .fault then (p, .ok)
    else if (p.analog.tension.get h).condition.isSome then (p, .conditionPresent)
    else
      let q := enterDrive h .stopped .command none (p.modHead h fun x => { x with fault := none })
      (meetGuards (clearLatched h (settleTakes q)), .ok)

/-- The assignment an ASSIGN_HEAD names: none, an island and a port, or nothing known (R34, R180). -/
def readAssignment (island port : Word) : Option (Option Assignment) :=
  if island = 0 then some none
  else
    match readIsland island, readPort port with
    | some i, some q => some (some ⟨i, q⟩)
    | _, _ => none

/-- A port of an island is held by a source other than head `h` (R34). -/
def Part.portTaken (p : Part) (h : HeadId) (a : Assignment) : Bool :=
  (p.island a.island).settings.standbyPort = a.port ||
    HeadId.list.any fun k => decide (k ≠ h) && decide ((p.head k).assigned = some a)

/-- A take of either island names head `h` as incoming (R34). -/
def Part.incomingNamed (p : Part) (h : HeadId) : Bool :=
  p.islands.i1.takes.any (fun t => t.incoming = .head h) || p.islands.i2.takes.any fun t => t.incoming = .head h

/-- A head is assigned to an island. -/
def Part.isAssigned (p : Part) (i : IslandId) (h : HeadId) : Bool := (p.head h).assigned.any fun a => a.island = i

/-- The preset of island `i` becomes STANDBY when its head is assigned there no longer (R91). -/
def checkPreset (i : IslandId) (p : Part) : Part :=
  match (p.island i).preset with
  | .head h => if p.isAssigned i h then p else p.modIsland i fun x => { x with preset := .standby }
  | .standby => p
  | .unknown => p

/-- Head `h` takes an assignment (R34, R91). -/
def assignHead (h : HeadId) (a : Option Assignment) (p : Part) : Part :=
  settle (checkPreset .i2 (checkPreset .i1 (p.modHead h fun x => { x with assigned := a })))

/-- ASSIGN_HEAD (R23, R34). -/
def assignHeadCommand (head island port : Word) : Part → Part × Status :=
  onHead head (unlessLocal fun h p =>
    if (readIsland island).any p.inLocal then (p, .localAuthority)
    else
      match readAssignment island port with
      | none => (p, .badArgument)
      | some a =>
        if p.onAir h then (p, .onAir)
        else if p.incomingNamed h then (p, .inUse)
        else if a.any (p.portTaken h) then (p, .portTaken)
        else (assignHead h a p, .ok))

/-- CONFIGURE_HEAD taken by head `h` (R35). -/
def configureHead (h : HeadId) (c : HeadSettings) (p : Part) : Part :=
  let old := p.head h
  let q := p.modHead h fun x => { x with settings := c, lampPolicy := c.lampPolicy }
  if old.settings.gauge = c.gauge then settle q
  else
    let q := q.modHead h fun x => { x with pos := ⟨x.pos.frame, 0⟩ }
    let q := if old.drive = .parked then enterDrive h .stopped .command none q else q
    meetGuards (tellJump h false (followCues h q))

/-- CONFIGURE_HEAD (R35). -/
def configureHeadCommand (head : Word) (w : HeadWords) : Part → Part × Status :=
  onHead head fun h p =>
    match readHeadSettings w with
    | none => (p, .badArgument)
    | some c =>
      if (p.head h).drive.atRest ∨ (p.head h).drive = .fault then
        (configureHead h c.clamped p, doneStatus (c.clamped ≠ c))
      else (p, .busy)

end Sys2Proof.Machine
end

