-- ==== Sys2Proof/Machine/Cues.lean ====
section
/-! DEFINITION. The cue commands (R54 to R57) and mark sensing with its corrections (R67 to R73). -/

namespace Sys2Proof.Machine

/-! ### Commands -/

/-- A take names the cue of an id in the table of head `h` (R55); `i` is the take's island. -/
def Take.names (p : Part) (i : IslandId) (h : HeadId) (id : Nat) (t : Take) : Bool :=
  (t.incoming = .head h && t.inCue = some id) ||
  (t.state = .queued && t.outCue = some id && p.isAssigned i h) ||
  (t.state ≠ .queued && t.outgoing = some (.head h) &&
    (t.outCue = some id || t.changeCue.any fun c => c.id = id)) ||
  (t.state ≠ .queued && t.incoming = .head h && t.sopCue.any fun c => c.id = id)

/-- The cue of an id in the table of head `h` is named by a take (R55). -/
def Part.cueNamed (p : Part) (h : HeadId) (id : Nat) : Bool :=
  p.islands.i1.takes.any (Take.names p .i1 h id) || p.islands.i2.takes.any (Take.names p .i2 h id)

/-- The scheduler reviews the cues it follows after a change of a cue table (R54, R56, R57, R75). -/
def reviewCues (p : Part) : Part := settle (followEnds p)

/-- The confirm window a LOAD_CUE gives: 0 is absent, above 15 is 15 (R54). -/
def readWindow (w : Word) : Option Nat := if w = 0 then none else some (min 15 w.toNat)

/-- LOAD_CUE (R54). -/
def loadCueCommand (head id kind : Word) (frame : BitVec 32) (window correct : Word) : Part → Part × Status :=
  onHead head fun h p =>
    match readCueKind kind, readFlag correct, readFrame frame with
    | some k, some b, some f =>
      if 255 < id.toNat then (p, .badArgument)
      else if (p.head h).cues.any fun c => c.id = id.toNat ∨ c.frame = f then (p, .duplicate)
      else if Config.maxCues ≤ (p.head h).cues.length then (p, .tableFull)
      else
        let c : Cue :=
          { id := id.toNat, frame := f, kind := k, window := readWindow window, correct := b,
            passed := f ≤ (p.head h).pos.frame, confirm := .none }
        (reviewCues (p.modHead h fun x => { x with cues := insertCue c x.cues }), doneStatus (15 < window.toNat))
    | _, _, _ => (p, .badArgument)

/-- DELETE_CUE (R56). -/
def deleteCueCommand (head id : Word) : Part → Part × Status :=
  onHead head fun h p =>
    if 255 < id.toNat then (p, .badArgument)
    else if (findCue (p.head h).cues id.toNat).isNone then (p, .notFound)
    else if p.cueNamed h id.toNat then (p, .inUse)
    else (reviewCues (p.modHead h fun x => { x with cues := x.cues.filter fun c => c.id ≠ id.toNat }), .ok)

/-- CLEAR_CUES (R57). -/
def clearCuesCommand (head : Word) : Part → Part × Status :=
  onHead head fun h p =>
    if (p.head h).cues.any fun c => p.cueNamed h c.id then (p, .inUse)
    else (reviewCues (p.modHead h fun x => { x with cues := [] }), .ok)

/-! ### Marks and corrections -/

/-- The nearer limit of a correction target (R22). -/
def nearestFrame (f : Int) : Int := max Config.frameMin (min Config.frameMax f)

/-- The delta of a correction from frame `a` to a target: the new frame less the old (R22), which is the target less the old
(R69, R187) but where the limit acts. There the rules differ, and a free value chooses between them (log entry 27). -/
def correctionDelta (a target : Int) : Int :=
  if nearestFrame target = target then target - a
  else if Config.deltaFollowsLimit then nearestFrame target - a else target - a

/-- The frames a forward correction skips, in ascending order (R72). -/
def skipped (a b : Int) : List Int := (List.range (b - a).toNat).map fun n => a + 1 + n

/-- What a correction of head `h` from frame `a` to frame `b` does to its cues (R72, R73). -/
def correctCues (h : HeadId) (a b : Int) (p : Part) : Part :=
  if a < b then (skipped a b).foldl (fun q f => passFrame h true f q) p else followCues h p

/-- The position of head `h` is corrected to a frame with phase 0 (R22); CUE_CONFIRMED is posted before the
consequences (R69), and COUNT_LIMIT clears after them (R19, R181). A correction that finds the position there already is a
position jump all the same: it clears the mark latch and is reported (DESIGN CHOICE, log entry 58). -/
def correct (h : HeadId) (target : Int) (confirmed : EventItem) (p : Part) : Part :=
  let a := (p.head h).pos.frame
  let b := nearestFrame target
  let q := post (.head h) confirmed (p.modHead h fun x => { x with pos := ⟨b, 0⟩, mark := none })
  leaveLimit h (reviewCues (correctCues h a b (tellJump h true q)))

/-- A mark taken at frame `f` matches cue `c` of head `h`, and CUE_CONFIRMED carries the delta of the correction, 0 where the cue
does not correct (R22, R69, R187). -/
def confirmCue (h : HeadId) (c : Cue) (f : Int) (p : Part) : Part :=
  let mark := c.markFrame (p.head h).settings.sensorOffset
  let q := p.modHead h fun x =>
    { x with cues := updateCue c.id (fun c => { c with confirm := .confirmed }) x.cues }
  let e : EventItem := .cueConfirmed (f - mark) c.id c.correct (if c.correct then correctionDelta f mark else 0) c.frame
  if c.correct then correct h mark e q else post (.head h) e q

/-- A cue-mark sensor pulse of head `h` (R67, R68, R71). -/
def takeMark (h : HeadId) (p : Part) : Part :=
  let x := p.head h
  if ¬ x.drive.running ∨ x.mark.isSome then p
  else
    let f := x.pos.frame
    let q := p.modHead h fun x => { x with mark := some f }
    match matchMark x.settings.sensorOffset f x.cues with
    | some (c, _) => confirmCue h c f q
    | none => post (.head h) (.strayMark f) q

end Sys2Proof.Machine
end

