-- ==== Sys2Proof/Machine/Takes.lean ====
section
/-! DEFINITION. The commands of the Changeover Scheduler (R90, R93, R94, R110, R111). The panel's TAKE and STANDBY keys
make the same requests (R156, R159). -/

namespace Sys2Proof.Machine

/-- A command for an island: the target check, then `f`. -/
def onIsland (w : Word) (f : IslandId → Part → Part × Status) (p : Part) : Part × Status :=
  match readIsland w with
  | some i => f i p
  | none => (p, .badTarget)

/-- A command that LOCAL authority refuses (R91). -/
def unlessPanel (f : IslandId → Part → Part × Status) (i : IslandId) (p : Part) : Part × Status :=
  if p.inLocal i then (p, .localAuthority) else f i p

/-! ### CONFIGURE_ISLAND -/

/-- A head assigned to island `i` holds port `q`. -/
def Part.headAt (p : Part) (i : IslandId) (q : Port) : Bool := HeadId.list.any fun h => (p.head h).assigned = some ⟨i, q⟩

/-- Island `i` takes settings: a new address is passed to the link, a new standby port with STANDBY on air leaves the
mirror state UNKNOWN, and an end guard that the new lead M places at a field already reached is met (R4, R90, R105, R130). -/
def setIsland (i : IslandId) (c : IslandSettings) (p : Part) : Part :=
  let old := p.island i
  let lost := old.settings.standbyPort ≠ c.standbyPort ∧ old.onAir = .standby
  let q := p.modIsland i fun x => { x with settings := c, mirror := if lost then .unknown else x.mirror }
  meetGuard i (if old.settings.address = c.address then q else readdress i q)

/-- CONFIGURE_ISLAND (R90). -/
def configureIslandCommand (island address standbyPort lead tolerance policy grace : Word) : Part → Part × Status :=
  onIsland island fun i p =>
    match readIslandSettings address.toNat standbyPort.toNat lead.toNat tolerance.toNat policy.toNat grace.toNat with
    | none => (p, .badArgument)
    | some (c, clamped) =>
      if c.address = (p.island i.other).settings.address then (p, .duplicate)
      else if p.headAt i c.standbyPort then (p, .portTaken)
      else if (p.island i).active.isSome ∨ p.awaits i then (p, .busy)
      else (setIsland i c p, doneStatus clamped)

/-! ### TAKE -/

/-- A take as it joins a list (R92, R93). -/
def Take.new (tag : Word) (incoming : Source) (mode : TakeMode) (field : Stamp) (outCue inCue : Option Nat)
    (tolerance : Option Nat) (preroll : Preroll) : Take :=
  { tag := tag, incoming := incoming, mode := mode, effective := mode, field := field, outCue := outCue, inCue := inCue,
    tolerance := tolerance, preroll := preroll, state := .queued, outgoing := none, sopCue := none, changeCue := none,
    cut := none, fCut := none, fStart := none, sop := none, error := none, commitAt := none, heldCut := none, slip := 0,
    outcome := .done, lost := none, short := none }

/-- A take joins the back of the list of island `i` (R93). -/
def joinTake (i : IslandId) (t : Take) (p : Part) : Part := p.modIsland i fun x => { x with takes := x.takes ++ [t] }

/-- What follows the status of a TAKE on island `i`, `before` it: a take that found the list empty, with no move awaiting, is
activated at once (R93). A refused one leaves the list empty, and nothing follows. -/
def followTake (i : IslandId) (before p : Part) : Part :=
  if (before.island i).takes.isEmpty then activateFront i p else p

/-- The cue of an id is in the table of some head assigned to island `i` (R93). -/
def Part.outCueKnown (p : Part) (i : IslandId) (id : Nat) : Bool :=
  HeadId.list.any fun h => p.isAssigned i h && (findCue (p.head h).cues id).isSome

/-- Checks 4 to 6 of R93; the take joins QUEUED. Its activation follows the status (`followTake`). -/
def requestTake (i : IslandId) (t : Take) (wasClamped : Bool) (p : Part) : Part × Status :=
  if Config.maxTakes ≤ (p.island i).takes.length then (p, .listFull)
  else if t.head?.any fun h => !p.isAssigned i h then (p, .notAssigned)
  else if t.head?.any fun h => t.inCue.any fun id => (findCue (p.head h).cues id).isNone then (p, .notFound)
  else if t.outCue.any fun id => !p.outCueKnown i id then (p, .notFound)
  else (joinTake i t p, doneStatus wasClamped)

/-- The tolerance of a TAKE: 65,535 absent, otherwise limited to 8 (R93, section 12.1). -/
def readTolerance (w : Word) : Option Nat := if w = 0xFFFF then none else some (min 8 w.toNat)

/-- TAKE to its status: the checks, and the take in the list (R93). -/
def queueTake (island tag incoming mode : Word) (field : Stamp) (outCue inCue tolerance preroll : Word) :
    Part → Part × Status :=
  onIsland island (unlessPanel fun i p =>
    match readMode mode, readPreroll preroll, readIncoming incoming, readCueId outCue, readCueId inCue with
    | some m, some r, some s, some o, some c =>
      if s = .standby ∧ c.isSome then (p, .badArgument)
      else requestTake i (.new tag s m field o c (readTolerance tolerance) r) (tolerance ≠ 0xFFFF && 8 < tolerance.toNat) p
    | _, _, _, _, _ => (p, .badArgument))

/-- What follows the status of a TAKE that names an island (R93). -/
def followTakeOf (island : Word) (before p : Part) : Part :=
  match readIsland island with
  | some i => followTake i before p
  | none => p

/-- TAKE (R93): the status, then the activation of a take that found the list empty. -/
def takeCommand (island tag incoming mode : Word) (field : Stamp) (outCue inCue tolerance preroll : Word) (p : Part) :
    Part × Status :=
  let (q, st) := queueTake island tag incoming mode field outCue inCue tolerance preroll p
  (followTakeOf island p q, st)

/-! ### CANCEL_TAKE, ABORT_TAKE, STANDBY -/

/-- A take list without its first QUEUED take of a tag. -/
def dropQueued (tag : Word) : List Take → List Take
  | [] => []
  | t :: rest => if t.state = .queued ∧ t.tag = tag then rest else t :: dropQueued tag rest

/-- CANCEL_TAKE (R94). -/
def cancelTakeCommand (island tag : Word) : Part → Part × Status :=
  onIsland island (unlessPanel fun i p =>
    match (p.island i).takes.find? fun t => t.state = .queued ∧ t.tag = tag with
    | some t =>
      (post (.island i) (t.endItem .cancelled .command)
        (p.modIsland i fun x => { x with takes := dropQueued tag x.takes }), .ok)
    | none => if (p.island i).active.any fun t => t.tag = tag then (p, .active) else (p, .notFound))

/-- ABORT_TAKE (R110). -/
def abortTakeCommand (island : Word) : Part → Part × Status :=
  onIsland island (unlessPanel fun i p =>
    match (p.island i).active with
    | none => (p, .notFound)
    | some t => if t.state = .committed then (p, .tooLate) else (endActive i .aborted .command p, .ok))

/-- The STANDBY request of island `i` (R111). -/
def standbyRequest (i : IslandId) (p : Part) : Part :=
  let q := standbyNow i p
  if (q.island i).active.isSome then endFront i .aborted .standby q else q

/-- STANDBY (R111). -/
def standbyCommand (island : Word) : Part → Part × Status := onIsland island fun i p => (standbyRequest i p, .ok)

end Sys2Proof.Machine
end

