-- ==== Sys2Proof/Machine/Replies.lean ====
section
/-! DEFINITION. The Mirror Link Controller's transactions from the end of sending to the end of the gap (R119 to R124),
station health, alarms and deliveries (R127 to R130). -/

namespace Sys2Proof.Machine

/-- The request has been sent: the pair is released, the receiver opens and the reply timer starts (R120). -/
def takeSent (p : Part) : Part :=
  { p with link := { p.link with line := .awaiting, transmit := false, sending := [], timer := p.time.now,
                                 assembling := [] } }

/-- The transaction on the line ends and the line enters GAP (R119, R120). -/
def enterGap (p : Part) : Part :=
  { p with link := { p.link with line := .gap, since := p.time.crystal, assembling := [] } }

/-- The entry in flight ends, and a due POLL of its island may join (R118, R123, R124). -/
def endEntry (p : Part) : Part := pumpLink { p with link := { p.link with flight := none } }

/-- A STATION event from the record of island `i` (R129). -/
def postStation (i : IslandId) (cause : StationCause) (address : Nat) (refusal : Option Refusing) (p : Part) : Part :=
  let s := p.link.stations.get i
  post (.island i) (.station cause address s.online s.port s.moving s.fault s.misses refusal) p

/-! ### Good replies -/

/-- A station record after a good reply (R122, R127). -/
def Station.answered (r : Request) (reply : Reply) (s : Station) : Station :=
  let s := { s with misses := 0, online := .online }
  match reply, r with
  | .status port moving fault, _ => { s with port := some port, moving := moving, fault := fault }
  | .refuse reason, .move port _ => { s with refusal := some ⟨port, reason⟩ }
  | .refuse _, .poll => s
  | .accept, _ => s

/-- The alarms a good reply brings: STATION_OFFLINE ends (R127), MIRROR_FAULT is judged (R128). -/
def judgeReply (i : IslandId) (wasOffline : Bool) (r : Request) (reply : Reply) (p : Part) : Part :=
  let q := if wasOffline then clearAlarm (.island i) .stationOffline 0 0 p else p
  match reply, r with
  | .refuse reason, .move port _ =>
    raiseAlarm (.island i) .mirrorFault (word port.num) (word reason.toNat) q
  | .refuse _, .poll => q
  | .status port _ true, _ => raiseAlarm (.island i) .mirrorFault (word port.num) 0 q
  | .status _ false false, _ => clearAlarm (.island i) .mirrorFault 0 0 q
  | .status _ true false, _ => q
  | .accept, _ => q

/-- The delivery of a good reply to the Changeover Scheduler (R122, R129). -/
def deliver (i : IslandId) (r : Request) (reply : Reply) (p : Part) : Part :=
  match reply, r with
  | .status port moving _, _ => deliverStatus i port moving p
  | .refuse _, .move port _ => deliverRefusal i port p
  | .refuse _, .poll => p
  | .accept, _ => p

/-- The STATION events of a good reply (R129). -/
def reportReply (i : IslandId) (address : Nat) (old : Station) (reply : Reply) (p : Part) : Part :=
  let s := p.link.stations.get i
  let q := if old.online = .online then p else postStation i .online address none p
  match reply with
  | .status _ _ _ =>
    if old.port = s.port ∧ old.moving = s.moving ∧ old.fault = s.fault then q else postStation i .report address none q
  | .refuse _ => postStation i .refused address s.refusal q
  | .accept => q

/-- A good reply to the request in flight: the record, its events, its alarms, then its delivery (R122, R129). The reply
of a station no longer at the island is not counted (R130). -/
def goodReply (f : Flight) (reply : Reply) (p : Part) : Part :=
  let i := f.entry.island
  let r := f.entry.request
  let q := enterGap p
  if f.orphan then endEntry q
  else
    let old := q.link.stations.get i
    let q := reportReply i f.sentTo old reply (q.modStation i (Station.answered r reply))
    let q := judgeReply i (old.online = .offline) r reply q
    deliver i r reply (endEntry q)

/-- A message of four characters is judged (R121). -/
def judgeMessage (m : List LinkChar) (p : Part) : Part :=
  match p.link.flight with
  | none => p
  | some f =>
    match readReply f.sentTo f.entry.request m with
    | some reply => goodReply f reply p
    | none => p

/-- A character received: assembled in AWAITING alone, and not after the reply timer has run out (R120, R121). -/
def receive (c : LinkChar) (p : Part) : Part :=
  if ¬ p.link.listening p.time then p
  else
    let m := if c.address then [c] else if p.link.assembling.isEmpty then [] else p.link.assembling ++ [c]
    if m.length < 4 then { p with link := { p.link with assembling := m } }
    else judgeMessage m { p with link := { p.link with assembling := [] } }

/-- Characters received in order. -/
def receiveAll (chars : List LinkChar) (p : Part) : Part := chars.foldl (fun q c => receive c q) p

/-! ### Misses -/

/-- A miss at the station of island `i`: the record, the change to OFFLINE with its event, its alarm and its delivery
(R123, R127). -/
def countMiss (i : IslandId) (address : Nat) (p : Part) : Part :=
  let old := p.link.stations.get i
  let misses := min 255 (old.misses + 1)
  let q := p.modStation i fun s => { s with misses := misses, online := if 3 ≤ misses then .offline else s.online }
  if 3 ≤ misses then
    let q := if old.online = .offline then q else postStation i .offline address none q
    let q := raiseAlarm (.island i) .stationOffline (word address) 0 q
    if old.online = .offline then q else stationOffline i q
  else q

/-- The entry in flight makes another transaction after a miss (R124, R130). -/
def Flight.again (f : Flight) : Bool := f.entry.isMove && !f.orphan && f.tries < Config.moveTries

/-- The reply timer has expired without a good reply (R120, R123, R124). -/
def takeTimeout (p : Part) : Part :=
  match p.link.flight with
  | none => enterGap p
  | some f =>
    let q := enterGap p
    let q := if f.orphan then q else countMiss f.entry.island f.sentTo q
    if f.again then q else endEntry q

/-- The gap has passed: the MOVE in flight goes on, or the line is IDLE and an entry is selected (R119, R124, R130). A MOVE
that rested in GAP as its address changed makes no more transactions and leaves the line here (DESIGN CHOICE, log entry 60). -/
def takeGapEnd (p : Part) : Part :=
  match p.link.flight with
  | some f =>
    if f.orphan then
      let q := { p with link := { p.link with line := .idle, flight := none } }
      pumpLink q
    else beginTransaction f p
  | none => pumpLink { p with link := { p.link with line := .idle } }

end Sys2Proof.Machine
end

