-- ==== Sys2Proof/Machine/Scanner.lean ====
section
/-! DEFINITION. The Analog Scanner (chapter 8): the scan, the judgement of a conversion, the delivery of conditions. -/

namespace Sys2Proof.Machine

/-- The channel record of a channel. -/
def Analog.channel (a : Analog) : ChannelId → Channel
  | .reference => a.reference
  | .lamp h => a.lamp.get h
  | .tension h => a.tension.get h

/-- The scanner with the record of a channel replaced. -/
def Analog.setChannel (a : Analog) (k : ChannelId) (c : Channel) : Analog :=
  match k with
  | .reference => { a with reference := c }
  | .lamp h => { a with lamp := a.lamp.set h c }
  | .tension h => { a with tension := a.tension.set h c }

/-- `p` with the record of a channel changed by `f`. -/
def Part.modChannel (p : Part) (k : ChannelId) (f : Channel → Channel) : Part :=
  { p with analog := p.analog.setChannel k (f (p.analog.channel k)) }

/-! ### The scan (R132) -/

/-- A scan period has passed since the scan began. -/
def scanDue (p : Part) : Bool := p.analog.begun + p.analog.period * 1000 ≤ p.time.now

/-- A scan begins. -/
def takeScan (p : Part) : Part :=
  { p with analog := { p.analog with begun := p.analog.begun + p.analog.period * 1000, next := 0 } }

/-- The next conversion of the scan is complete: 100 × (k + 1) ticks after the scan began. -/
def conversionDue (p : Part) : Bool := p.analog.begun + 100 * (p.analog.next + 1) ≤ p.time.now

/-! ### Judgement (R134 to R137) -/

/-- A reading against a window: none for in, the side for out. -/
def Limits.outside (l : Limits) (r : Nat) : Option Side :=
  if r < l.low then some .low else if l.high < r then some .high else none

/-- The judging mode of the lamp channel of a head at tick `now` (R135). A lit lamp whose settle CONFIGURE_HEAD has lengthened
past the time since its switch-on is WARMING again, and its counts are not set to 0 by that (DESIGN CHOICE, log entry 50). -/
def Head.lampMode (x : Head) (now : Nat) : JudgingMode :=
  if x.outputs.lamp then
    if x.lampOnAt.all fun t => t + x.settings.lampSettle * 1000 ≤ now then .lampOn else .warming
  else .lampOff

/-- The judging mode of a tension channel (R136). -/
def tensionMode (d : DriveState) (condition : Option Condition) : JudgingMode :=
  if d.driven then .driven else if condition.isSome then .clearing else .idle

/-- The judging mode of a channel at a conversion; the reference channel has none. -/
def Part.channelMode (p : Part) : ChannelId → Option JudgingMode
  | .reference => none
  | .lamp h => some ((p.head h).lampMode p.time.now)
  | .tension h => some (tensionMode (p.head h).drive (p.analog.tension.get h).condition)

/-- How a reading falls in a mode (R135, R136, R137). -/
inductive Fall where
  | unjudged
  | inside
  | out (side : Side)
deriving DecidableEq, Repr

/-- Where a reading falls for a window and a mode. -/
def Limits.fall (l : Limits) (mode : Option JudgingMode) (r : Nat) : Fall :=
  let window : Fall := match l.outside r with
    | some s => .out s
    | none => .inside
  match mode with
  | some .warming => .unjudged
  | some .idle => .unjudged
  | some .lampOff => if r ≤ l.low then .inside else .out .high
  | some .lampOn => window
  | some .driven => window
  | some .clearing => window
  | none => window

/-- The condition an out reading raises on a channel (R135, R136, R137). -/
def raisedBy (k : ChannelId) (mode : Option JudgingMode) (side : Side) : Condition :=
  match k with
  | .reference => .analogRef
  | .lamp _ => if mode = some .lampOff then .lampStuck else .lampFail
  | .tension _ =>
    match side with
    | .low => .filmBreak
    | .high => .jam

/-- A tension channel keeps the side of its out count (R134). -/
def ChannelId.sided : ChannelId → Bool
  | .tension _ => true
  | .reference => false
  | .lamp _ => false

/-- What a judged reading delivers. -/
inductive Delivery where
  | nothing
  | raised (c : Condition)
  | cleared (c : Condition)
deriving DecidableEq, Repr

/-- A reading taken as the last one; the first conversion after a reset or CLEAR finds the judging mode (R133, R140, log entry
32). -/
def Channel.taken (mode : Option JudgingMode) (r : Nat) (c : Channel) : Channel :=
  { c with last := r, mode := c.mode.or mode }

/-- A judged reading counted toward a condition (R134). One that is not judged leaves the counts, also in WARMING that a longer
lamp settle has brought back (DESIGN CHOICE, log entry 50). -/
def Channel.count (k : ChannelId) (mode : Option JudgingMode) (fall : Fall) (c : Channel) : Channel × Delivery :=
  match fall, c.condition with
  | .unjudged, _ => (c, .nothing)
  | .inside, none => ({ c with outCount := 0, mode := mode }, .nothing)
  | .inside, some x =>
    if c.limits.debounce ≤ c.inCount + 1 then ({ c with inCount := 0, condition := none, mode := mode }, .cleared x)
    else ({ c with inCount := c.inCount + 1, mode := mode }, .nothing)
  | .out _, some _ => ({ c with inCount := 0, mode := mode }, .nothing)
  | .out side, none =>
    let n := if k.sided ∧ side ≠ c.outSide then 1 else c.outCount + 1
    let c := { c with outSide := if k.sided then side else c.outSide, mode := mode }
    if c.limits.debounce ≤ n then
      ({ c with outCount := 0, condition := some (raisedBy k mode side) }, .raised (raisedBy k mode side))
    else ({ c with outCount := n }, .nothing)

/-! ### Delivery (R138) -/

/-- The on-air fault of a lamp failure on head `h` (R107, R138). -/
def lampFault (h : HeadId) (p : Part) : Part :=
  let one := fun i p => if (p.island i).onAir = .head h then onAirFault i p else p
  one .i2 (one .i1 p)

/-- The alarm kind of a condition the scanner itself reports (R138). -/
def Condition.alarm : Condition → AlarmKind
  | .lampFail => .lampFail
  | .lampStuck => .lampStuck
  | .filmBreak => .filmBreak
  | .jam => .jam
  | .analogRef => .analogRef

/-- A raise or a clearing delivered with the reading that completed its debounce, as detail 1 with detail 2 at 0 (R138, log
entry 45). -/
def deliverCondition (k : ChannelId) (d : Delivery) (detail : Word) (p : Part) : Part :=
  match k, d with
  | _, .nothing => p
  | .reference, .raised c => raiseAlarm .analog c.alarm detail 0 p
  | .reference, .cleared c => clearAlarm .analog c.alarm detail 0 p
  | .lamp h, .raised c =>
    let q := raiseAlarm (.head h) c.alarm detail 0 p
    if c = .lampFail then lampFault h q else q
  | .lamp h, .cleared c => clearAlarm (.head h) c.alarm detail 0 p
  | .tension h, .raised c => faultHead h (if c = .jam then .jam else .filmBreak) p
  | .tension _, .cleared _ => p

/-- The judgement of channels 1 to 8 is frozen when ANALOG_REF is raised (R137). -/
def freeze (a : Analog) : Analog :=
  { a with lamp := a.lamp.map fun c => { c with frozen := true }
           tension := a.tension.map fun c => { c with frozen := true } }

/-- A lamp condition belongs to a mode (R135, R137). -/
def lampBelongs (mode : JudgingMode) : Condition → Bool
  | .lampFail => mode ≠ .lampOff
  | .lampStuck => mode = .lampOff
  | .filmBreak => true
  | .jam => true
  | .analogRef => true

/-- The first conversion of a frozen channel after the suspension: the counts are kept in the same mode, and are 0 in
another, where a lamp condition that does not belong ends (R137). -/
def Channel.thaw (mode : Option JudgingMode) (c : Channel) : Channel × Delivery :=
  if ¬ c.frozen then (c, .nothing)
  else if mode = c.mode then ({ c with frozen := false }, .nothing)
  else
    let d := { c with frozen := false, outCount := 0, inCount := 0 }
    match mode, c.condition with
    | some m, some x => if lampBelongs m x then (d, .nothing) else ({ d with condition := none }, .cleared x)
    | _, _ => (d, .nothing)

/-- A conversion of the reference channel (R137). -/
def convertReference (r : Nat) (p : Part) : Part :=
  let c := { p.analog.reference with last := r }
  let (c', d) := c.count .reference none (c.limits.fall none r)
  let q := { p with analog := { p.analog with reference := c' } }
  let q := match d with
    | .raised _ => { q with analog := freeze q.analog }
    | .cleared _ => q
    | .nothing => q
  deliverCondition .reference d (word r) q

/-- A conversion of a lamp or tension channel: only taken as the last reading while judgement is suspended, else judged
(R133 to R137, R140). -/
def convertChannel (k : ChannelId) (r : Nat) (p : Part) : Part :=
  let q := p.modChannel k (Channel.taken (p.channelMode k) r)
  if q.analog.suspended then q
  else
    let mode := q.channelMode k
    let (c, d) := (q.analog.channel k).thaw mode
    let q := deliverCondition k d 0 (q.modChannel k fun _ => c)
    let c := q.analog.channel k
    let (c', d) := c.count k mode (c.limits.fall mode r)
    deliverCondition k d (word r) (q.modChannel k fun _ => c')

/-- A conversion completes on the scan's next channel (R132, R133). -/
def takeConversion (r : Nat) (p : Part) : Part :=
  let q := { p with analog := { p.analog with next := p.analog.next + 1 } }
  match channelOfNat p.analog.next with
  | none => p
  | some .reference => convertReference r q
  | some (.lamp h) => convertChannel (.lamp h) r q
  | some (.tension h) => convertChannel (.tension h) r q

/-! ### SET_ANALOG_LIMITS -/

/-- SET_ANALOG_LIMITS (R139). -/
def setAnalogLimitsCommand (channel low high debounce : Word) (p : Part) : Part × Status :=
  match channelOfNat channel.toNat with
  | none => (p, .badTarget)
  | some k =>
    let given : Limits := { low := low.toNat, high := high.toNat, debounce := debounce.toNat }
    let l := given.clamped
    if l.high < l.low then (p, .badArgument)
    else (p.modChannel k fun c => { c with limits := l, outCount := 0, inCount := 0 }, doneStatus (l ≠ given))

end Sys2Proof.Machine
end

