-- ==== Sys2Proof/Machine/Panel.lean ====
section
/-! DEFINITION. The Panel Scanner (chapter 10): the matrix, keys, lamps and displays. Rows and columns are numbered from 0
here: row `r` is row r + 1 of the matrix, bit `c` of a row's points is column c + 1. -/

namespace Sys2Proof.Machine

/-! ### Displays (R87, R161) -/

/-- The value a head's display shows in a display mode: frames, or the feet part of the footage (R87, R161). -/
def Head.shown (m : DisplayMode) (x : Head) : Shown :=
  let n := x.pos.frame.natAbs
  { negative := x.pos.frame < 0
    magnitude := match m with
      | .frames => n
      | .feet => n / x.settings.gauge.perFoot }

/-- The segments of a decimal digit, a in bit 0 to g in bit 6 (log entry 11). -/
def digitSegments : Nat → Nat
  | 0 => 0x3F | 1 => 0x06 | 2 => 0x5B | 3 => 0x4F | 4 => 0x66 | 5 => 0x6D | 6 => 0x7D | 7 => 0x07 | 8 => 0x7F
  | 9 => 0x6F | _ => 0

/-- Segment g alone: a dash, and the minus of the sign digit. -/
def dash : Nat := 0x40

/-- A displayed value lies in −999 … 9,999 (R161). -/
def Shown.fits (s : Shown) : Bool := if s.negative then s.magnitude ≤ 999 else s.magnitude ≤ 9999

/-- The sign digit. -/
def Shown.sign (s : Shown) : Nat := if s.negative then dash else 0

/-- The digit of place `k` (0 units … 3 thousands): leading zeros blanked, the units always shown, a dash out of range
(R161). -/
def Shown.digit (s : Shown) (k : Nat) : Nat :=
  if ¬ s.fits then dash
  else if k ≠ 0 ∧ s.magnitude < 10 ^ k then 0
  else digitSegments (s.magnitude / 10 ^ k % 10)

/-! ### Lamps (R160) -/

/-- The flash phase: lit while the field count divided by 16 is even (R160). -/
def flashing (count : Stamp) : Bool := count.toNat / 16 % 2 = 0

/-- A lamp that is lit, flashes, or is unlit. -/
inductive LampShow where
  | lit | flash | unlit
deriving DecidableEq, Repr

/-- The point of a lamp as driven. -/
def LampShow.driven (count : Stamp) : LampShow → Bool
  | .lit => true
  | .flash => flashing count
  | .unlit => false

/-- A lamp lit by a condition. -/
def lampIf (b : Bool) : LampShow := if b then .lit else .unlit

/-- An unacknowledged entry has a source (R149). -/
def AlarmTable.unseen (t : AlarmTable) (s : AlarmSource) : Bool :=
  t.entries.any fun e => e.source = s && e.unacknowledged

/-- An unacknowledged entry exists (R149). -/
def AlarmTable.anyUnseen (t : AlarmTable) : Bool := t.entries.any AlarmEntry.unacknowledged

/-- READY, RUN and FAULT of head `h`. -/
def headLamps (h : HeadId) (p : Part) : List LampShow :=
  let d := (p.head h).drive
  [lampIf (d = .parked || d = .locked), lampIf d.driven,
   if p.alarms.unseen (.head h) then .flash else lampIf (d = .fault)]

/-- Head `h` is the preset of an island. -/
def Part.isPreset (p : Part) (h : HeadId) : Bool :=
  p.islands.i1.preset = .head h || p.islands.i2.preset = .head h

/-- ON AIR and NEXT of head `h`. -/
def airLamps (h : HeadId) (p : Part) : List LampShow := [lampIf (p.onAir h), lampIf (p.isPreset h)]

/-- LOCAL and STANDBY ON AIR of island `i`. -/
def islandLamps (i : IslandId) (p : Part) : List LampShow :=
  [lampIf (p.inLocal i), lampIf ((p.island i).onAir = .standby)]

/-- ALARM, CONFIG and REF. -/
def deviceLamps (p : Part) : List LampShow :=
  [if p.alarms.anyUnseen || p.alarms.overflow then .flash else lampIf (!p.alarms.entries.isEmpty),
   lampIf (p.mode = .transparent),
   match p.ref.state with
   | .locked => .lit
   | .slewing => .flash
   | .search => .unlit
   | .flywheel => .unlit]

/-- Lamps as bits from bit 0. -/
def lampBits (count : Stamp) : List LampShow → Nat
  | [] => 0
  | l :: rest => flag (l.driven count) + 2 * lampBits count rest

/-- The head a pair of rows belongs to. -/
def rowHead (r : Fin 8) : HeadId :=
  match r.val / 2 with
  | 0 => .h1
  | 1 => .h2
  | 2 => .h3
  | _ => .h4

/-- The latched value of a digit of head `h`; nothing is shown before the first latch (R163). -/
def shownDigit (h : HeadId) (f : Shown → Nat) (p : Part) : Nat := ((p.panel.shown.get h).map f).getD 0

/-- Columns 17 to 19 of an even matrix row (R152). -/
def extraLamps (r : Fin 8) (p : Part) : List LampShow :=
  match r.val with
  | 1 => islandLamps .i1 p
  | 3 => islandLamps .i2 p
  | 5 => deviceLamps p
  | _ => []

/-- The points of a row in a part that runs (R152, R160, R161). -/
def rowPoints (r : Fin 8) (p : Part) : Nat :=
  let h := rowHead r
  let digits (a b : Nat) := a + 2 ^ 7 * b
  if r.val % 2 = 0 then
    digits (shownDigit h Shown.sign p) (shownDigit h (Shown.digit · 3) p) + 2 ^ 14 * shownDigit h (Shown.digit · 2) p +
      2 ^ 21 * lampBits p.ref.count (headLamps h p)
  else
    digits (shownDigit h (Shown.digit · 1) p) (shownDigit h (Shown.digit · 0) p) +
      2 ^ 14 * lampBits p.ref.count (airLamps h p ++ extraLamps r p)

/-- The points of a row in transparent mode: the CONFIG lamp alone, column 18 of row 6 (R163). -/
def transparentPoints (r : Fin 8) : Nat := if r.val = 5 then 2 ^ 17 else 0

/-- A row's dwell begins at tick `t`: the value latched at a head's first row, the points driven (R152, R153, R161). -/
def beginRow (r : Fin 8) (t : Nat) (p : Part) : Part :=
  let q := { p with panel := { p.panel with row := r, begun := t, dwellNow := p.panel.dwell } }
  if p.mode = .running then
    let h := rowHead r
    let q :=
      if r.val % 2 = 0 then
        { q with panel := { q.panel with shown := q.panel.shown.set h (some ((q.head h).shown q.panel.mode)) } }
      else q
    { q with panel := { q.panel with image := q.panel.image.set r (BitVec.ofNat 24 (rowPoints r q)) } }
  else { q with panel := { q.panel with image := q.panel.image.set r (BitVec.ofNat 24 (transparentPoints r)) } }

/-! ### Keys (R154) -/

/-- A key position after a sample (R154). -/
def KeyPos.sample (down : Bool) (k : KeyPos) : KeyPos :=
  if down = k.down then { k with agree := 0 }
  else if 3 ≤ k.agree + 1 then { down := down, agree := 0 }
  else { k with agree := k.agree + 1 }

/-- A row of key positions after a sample. -/
def RowKeys.sample (level : BitVec 4) (k : RowKeys) : RowKeys :=
  ⟨k.r1.sample (level.getLsbD 0), k.r2.sample (level.getLsbD 1), k.r3.sample (level.getLsbD 2),
   k.r4.sample (level.getLsbD 3)⟩

/-- The return lines whose press is completed by a sample, in order (R155). -/
def RowKeys.pressed (old new : RowKeys) : List Nat :=
  let one := fun (n : Nat) (a b : KeyPos) => if !a.down && b.down then [n] else []
  one 1 old.r1 new.r1 ++ one 2 old.r2 new.r2 ++ one 3 old.r3 new.r3 ++ one 4 old.r4 new.r4

/-- The twenty-one keys. -/
inductive Key where
  | start (h : HeadId)
  | stop (h : HeadId)
  | cue (h : HeadId)
  | preset (i : IslandId)
  | take (i : IslandId)
  | standby (i : IslandId)
  | authority (i : IslandId)
  | ack
deriving DecidableEq, Repr

/-- The key at a row and a return line (R152). -/
def keyAt (r : Fin 8) (line : Nat) : Option Key :=
  let island := fun (i : IslandId) =>
    match line with
    | 1 => some (Key.preset i)
    | 2 => some (.take i)
    | 3 => some (.standby i)
    | 4 => some (.authority i)
    | _ => none
  match r.val with
  | 1 => island .i1
  | 3 => island .i2
  | 5 => if line = 1 then some .ack else none
  | 7 => none
  | _ =>
    match line with
    | 1 => some (.start (rowHead r))
    | 2 => some (.stop (rowHead r))
    | 3 => some (.cue (rowHead r))
    | _ => none

/-- The head or island of a key, as a source of its KEY event; ACK, which has neither, gives the Device (R155, log
entry 46). -/
def Key.source : Key → AlarmSource
  | .start h => .head h
  | .stop h => .head h
  | .cue h => .head h
  | .preset i => .island i
  | .take i => .island i
  | .standby i => .island i
  | .authority i => .island i
  | .ack => .device

/-- The island of a key (R155). -/
def Part.keyIsland (p : Part) : Key → Option IslandId
  | .start h => (p.head h).assigned.map (·.island)
  | .stop h => (p.head h).assigned.map (·.island)
  | .cue h => (p.head h).assigned.map (·.island)
  | .preset i => some i
  | .take i => some i
  | .standby i => some i
  | .authority i => some i
  | .ack => none

/-- What a press comes to: the part, and the status its owner gave when it made a request. -/
abbrev Press := Part × Option Status

/-- The assigned head of island `i` with the lowest port above `n` (R158). -/
def Part.nextHead (p : Part) (i : IslandId) (n : Nat) : Option HeadId :=
  Port.list.findSome? fun q =>
    if n < q.num then HeadId.list.find? fun h => (p.head h).assigned = some ⟨i, q⟩ else none

/-- The preset one step along the cycle of island `i` (R158). -/
def Part.nextPreset (p : Part) (i : IslandId) : Source :=
  let above :=
    match (p.island i).preset with
    | .head h => p.nextHead i (((p.head h).assigned.map (·.port.num)).getD 4)
    | .standby => p.nextHead i 0
    | .unknown => p.nextHead i 0
  match above with
  | some h => .head h
  | none => .standby

/-- A press of a PRESET key in LOCAL (R158). -/
def pressPreset (i : IslandId) (p : Part) : Press :=
  (p.modIsland i fun x => { x with preset := p.nextPreset i }, some .ok)

/-- A press of a TAKE key in LOCAL (R159). -/
def pressTake (i : IslandId) (p : Part) : Press :=
  let x := p.island i
  if x.preset = x.onAir ∨ Config.maxTakes ≤ x.takes.length then (p, none)
  else
    let (q, st) := requestTake i (.new 0 x.preset .now 0 none none none .auto) false p
    (followTake i p q, some st)

/-- A press of a CUE key in LOCAL (R157). -/
def pressCue (h : HeadId) (p : Part) : Press :=
  match firstPending .sop (p.head h).cues with
  | some c => let (q, st) := cueToId h c.id .key p; (q, some st)
  | none => (p, none)

/-- A press of a LOCAL key (R156). -/
def pressAuthority (i : IslandId) (p : Part) : Press :=
  (p.modIsland i fun x => { x with authority := if x.authority = .panel then .remote else .panel }, some .ok)

/-- What a press does, given whether its key's island is in LOCAL (R156 to R159). -/
def press (k : Key) (isLocal : Bool) (p : Part) : Press :=
  match k with
  | .authority i => pressAuthority i p
  | .standby i => (standbyRequest i p, some .ok)
  | .ack => (acknowledge none p, some .ok)
  | .start h => if isLocal then (let (q, st) := startHead h .key p; (q, some st)) else (p, none)
  | .stop h => if isLocal then (requestStop h .key p, some .ok) else (p, none)
  | .cue h => if isLocal then pressCue h p else (p, none)
  | .preset i => if isLocal then pressPreset i p else (p, none)
  | .take i => if isLocal then pressTake i p else (p, none)

/-- The outcome of a press (R155). -/
def outcomeOf : Option Status → KeyOutcome
  | none => .eventOnly
  | some .ok => .acted
  | some .clamped => .acted
  | some _ => .refused

/-- The reason a KEY event carries: that of a refused request (R155). -/
def refusalOf (s : Option Status) : Option Status := if outcomeOf s = .refused then s else none

/-- A completed press handled whole: its request, then its KEY event (R155). -/
def handlePress (r : Fin 8) (line : Nat) (p : Part) : Part :=
  match keyAt r line with
  | none => p
  | some k =>
    let authority := (p.keyIsland k).map fun i => (p.island i).authority
    let (q, st) := press k (authority = some .panel) p
    post k.source (.key (outcomeOf st) authority (r.val + 1) line (refusalOf st)) q

/-- The length of the dwell in progress in ticks (R152). -/
def Panel.dwellTicks (x : Panel) : Nat := (x.dwellNow + 1) * 32

/-- The dwell in progress has ended; nothing is scanned during a load (R163). -/
def dwellOver (p : Part) : Bool := p.mode ≠ .loading && p.panel.begun + p.panel.dwellTicks ≤ p.time.now

/-- A dwell ends: the row's keys are sampled and its presses handled, then the next row is active (R152 to R155,
R163). -/
def takeDwellEnd (levels : BitVec 4) (p : Part) : Part :=
  let r := p.panel.row
  let old := p.panel.keys[r]
  let new := old.sample levels
  let q := { p with panel := { p.panel with keys := p.panel.keys.set r new } }
  let q := if p.mode = .running then (old.pressed new).foldl (fun q n => handlePress r n q) q else q
  beginRow (r + 1) (p.panel.begun + p.panel.dwellTicks) q

/-- SET_PANEL_MODE (R162). -/
def setPanelModeCommand (mode dwell : Word) (p : Part) : Part × Status :=
  match displayModeOfNat mode.toNat with
  | none => (p, .badArgument)
  | some m =>
    ({ p with panel := { p.panel with mode := m, dwell := clamp 0 127 dwell.toNat } }, doneStatus (127 < dwell.toNat))

end Sys2Proof.Machine
end

