-- ==== Sys2Proof/Machine/Live.lean ====
section
/-! DEFINITION. The live window (R168, R169, R188): the section each block publishes, as fields packed from bit 0 of the
section upward (log entry 9), and the multi-word latch. -/

namespace Sys2Proof.Machine

/-- A field of a section: its width in bits and its value. -/
abbrev Field := Nat × Nat

/-- Bits of a section that hold no field (log entry 6). -/
def spare (w : Nat) : Field := (w, Config.absentReading .spareBits)

/-- A field of a slot that holds nothing (log entry 6). -/
def emptyField (w : Nat) : Field := (w, Config.absentReading .emptySlot)

/-- A signed field at a width, in two's complement (R186). -/
def signedField (w : Nat) (x : Int) : Field := (w, (BitVec.ofInt w x).toNat)

/-- A signed field that may be absent. -/
def signedOr (w : Nat) (f : Config.AbsentField) : Option Int → Field
  | some x => signedField w x
  | none => (w, Config.absentReading f)

/-- A flag field. -/
def flagField (b : Bool) : Field := (1, flag b)

/-- A field stamp that reads as 0 when absent (R86). -/
def stampField (s : Option Stamp) : Field := (32, (s.map BitVec.toNat).getD 0)

/-! ### Device section -/

/-- The code of a window kind (R189). -/
def WindowKind.code : WindowKind → Nat
  | .command => 0
  | .event => 1
  | .live => 2
  | .guard => 3

/-- The code of a ring size (R188). -/
def Window.ringCode (w : Window) : Nat :=
  match w.kind, w.ring with
  | .command, 16 => 1
  | .command, 32 => 2
  | .command, 64 => 3
  | .event, 32 => 1
  | .event, 64 => 2
  | .event, 128 => 3
  | _, _ => 0

/-- An entry of the window table as published. -/
def windowFields : Option Window → List Field
  | some w => [(12, w.base / 256), (4, w.log2 - 7), (2, w.kind.code), (2, w.ringCode)]
  | none => [emptyField 12, (4, 0), emptyField 2, emptyField 2]

/-- The kind and cause of a violation (R188). -/
def Violation.code (v : Violation) : Nat :=
  match v.kind, v.cause with
  | .command, .withheld => 1
  | .event, .withheld => 2
  | .live, .withheld => 3
  | .guard, .withheld => 4
  | .command, .badIndex => 5
  | .event, .badIndex => 6
  | .live, .badIndex => 3
  | .guard, .badIndex => 4

/-- The violation record as published. -/
def violationFields : Option Violation → List Field
  | some v => [(20, v.addr.toNat), (3, v.code), flagField v.more]
  | none => [emptyField 20, (3, 0), emptyField 1]

/-- The code of a condition of a channel (R133, R186). -/
def conditionCode : Option Condition → Nat
  | none => 0
  | some .lampFail => 1
  | some .lampStuck => 2
  | some .filmBreak => 1
  | some .jam => 2
  | some .analogRef => 1

/-- The code of a judging mode (R135, R136). -/
def JudgingMode.code : JudgingMode → Nat
  | .lampOn => 0
  | .warming => 1
  | .lampOff => 2
  | .driven => 0
  | .clearing => 1
  | .idle => 2

/-- The code of an out side (R133). -/
def Side.code : Side → Nat
  | .low => 0
  | .high => 1

/-- A channel record as published: six bytes. -/
def channelFields (c : Channel) : List Field :=
  [(10, c.last), (10, c.limits.low), (10, c.limits.high), (4, c.limits.debounce), (4, c.outCount), (4, c.inCount),
   (2, conditionCode c.condition), (1, c.outSide.code), (2, orAbsent .analogMode (c.mode.map JudgingMode.code)), spare 1]

/-- The debounced states of a row. -/
def keyFields (k : RowKeys) : List Field :=
  [flagField k.r1.down, flagField k.r2.down, flagField k.r3.down, flagField k.r4.down]

/-- The code of a station standard. -/
def Standard.code : Standard → Nat
  | .f50 => 0
  | .f60 => 1

/-- The code of a display mode. -/
def DisplayMode.code : DisplayMode → Nat
  | .feet => 0
  | .frames => 1

/-- The device section: 64 bytes. Its `agent busy` is 1 while a job waits or is at work, between the words of a job too
(DESIGN CHOICE, log entry 61). -/
def deviceFields (p : Part) : List Field :=
  [(32, p.ref.count.toNat), (32, p.ref.period)] ++
  p.panel.image.toList.map (fun r => (24, r.toNat)) ++
  p.panel.keys.toList.flatMap keyFields ++
  (List.range 6).flatMap (fun n => windowFields p.bus.windows[n]?) ++
  violationFields p.bus.violation ++
  channelFields p.analog.reference ++
  [(2, p.ref.state.code), (1, p.ref.standard.code), flagField p.evt.lost, flagField p.alarms.overflow,
   flagField p.alarms.overflowHorn, flagField p.alarms.horn, (1, p.panel.mode.code),
   (7, p.panel.dwell), flagField p.evt.attention,
   (5, p.alarms.entries.length), (2, p.link.line.code), flagField !p.agent.jobs.isEmpty,
   (5, (p.alarms.entries.filter AlarmEntry.unacknowledged).length), (3, p.link.queue.length)]

/-! ### Head sections -/

/-- The code of a lamp policy. -/
def LampPolicy.code : LampPolicy → Nat
  | .auto => 0
  | .manual => 1

/-- The code of a gauge. -/
def Gauge.code : Gauge → Nat
  | .g35 => 0
  | .g16 => 1

/-- The code of a provisional record: absent, +1, −1 (log entry 9). -/
def provisionalCode : Option Deviation → Nat
  | none => 0
  | some .plus => 1
  | some .minus => 2

/-- The thirteen settings in image order: 20 bytes (R189). -/
def settingFields (c : HeadSettings) : List Field :=
  [(8, c.gauge.code), (8, c.lockCount), (16, c.runupLead), (8, c.runupDistance), (16, c.runupLimit),
   (16, c.startResponse), (16, c.lossTimeout), (16, c.approach), (8, c.parkTolerance), (16, c.settleTime),
   (8, c.sensorOffset), (8, c.lampPolicy.code), (16, c.lampSettle)]

/-- The Cadence Monitor's figures: 14 bytes. -/
def cadenceFields (c : Cadence) : List Field :=
  [(16, c.speed), (32, orAbsent .boundaryStamp (c.boundary.map BitVec.toNat)), (16, orAbsent .lastFrameLength c.lastLength),
   (8, c.run),
   flagField c.boundary.isSome, flagField c.lastLength.isSome, flagField c.unlockStamp.isSome, flagField c.lastTime.isSome,
   flagField c.lastRunup.isSome, spare 3,
   (16, orAbsent .runupFields (c.lastRunup.map fun r => (count16 r.fields).toNat)),
   (16, orAbsent .runupFrames (c.lastRunup.map fun r => (count16 r.frames).toNat))]

/-- The section of a head: 64 bytes. An absent ℓ reads as a free value (R42, log entry 6). The island and port of an unassigned
head read 0 (DESIGN CHOICE, log entry 57). The park position is coded as R186 codes a position in an event (R66, log entry 9). -/
def headFields (h : HeadId) (p : Part) : List Field :=
  let x := p.head h
  [(8, x.drive.code),
   (2, faultCode x.fault), flagField x.outputs.fwd, flagField x.outputs.rev, flagField x.outputs.speed,
   flagField x.outputs.sync, flagField x.outputs.lamp, (1, x.lampPolicy.code),
   (2, x.pos.phase), (2, (x.assigned.map (·.island.num)).getD 0), (3, (x.assigned.map (·.port.num)).getD 0), spare 1,
   (2, x.attempts), flagField x.cadence.measuring, flagField x.cadence.firstLock,
   (2, provisionalCode x.cadence.provisional), (2, orAbsent .expectedLength (x.cadence.expected p.ref.standard)),
   signedField 32 x.pos.frame] ++
  settingFields x.settings ++ cadenceFields x.cadence ++
  [signedOr 32 .parkTarget (x.park.map (·.target)),
   (32, orAbsent .parkPosition (x.park.map fun r => (position32 r.position).toNat))] ++
  channelFields (p.analog.lamp.get h) ++ channelFields (p.analog.tension.get h) ++ [(16, x.cadence.fields)]

/-! ### Cue tables -/

/-- A slot of a head's cue table: 8 bytes; slot 0 carries the number of cues. An absent window reads 0 (DESIGN CHOICE, log
entry 57). -/
def cueFields (x : Head) (n : Nat) : List Field :=
  let number : Field := if n = 0 then (8, x.cues.length) else spare 8
  match x.cues[n]? with
  | some c =>
    [(8, c.id), (3, c.kind.code), flagField c.passed, (2, c.confirm.code), flagField c.correct, spare 1,
     (8, c.window.getD 0), number, signedField 32 c.frame]
  | none => [emptyField 16, emptyField 8, number, emptyField 32]

/-! ### Island sections -/

/-- The state and port of a mirror (R89). -/
def mirrorFields : MirrorState → List Field
  | .atPort q => [(2, 0), (3, q.num)]
  | .moving q => [(2, 1), (3, q.num)]
  | .unknown => [(2, 2), (3, Config.absentReading .mirrorPort)]

/-- The code of a commit owner (R89). -/
def Owner.code : Owner → Nat
  | .take => 0
  | .island => 1

/-- The code of a fault policy (R90). -/
def FaultPolicy.code : FaultPolicy → Nat
  | .fallback => 0
  | .hold => 1

/-- The basis a record is published with: ABSENT while its value is absent, a REACHED record without a value among them
(R86, log entry 42). -/
def Pred.published (r : Pred) : Basis := if r.value.isNone then .absent else r.basis

/-- The basis of a record as published; ABSENT for none (R86). -/
def basisField (r : Option Pred) : Field := (3, ((r.map Pred.published).getD Basis.absent).code)

/-- A take of the list as published: 3 bytes. -/
def takeFields : Option Take → List Field
  | some t => [(16, t.tag.toNat), (3, t.incoming.code), (2, t.effective.code), (3, t.state.code)]
  | none => [emptyField 24]

/-- An error in eight bits, 0 when absent (R86, R186). -/
def errorField : Option Int → Field
  | some e => signedField 8 (max (-128) (min 127 e))
  | none => (8, 0)

/-- The basis of the active take's F_cut as published (R86, log entries 6 and 42). -/
def cutField : Option Take → Field
  | some t =>
    match t.cut with
    | some _ => basisField t.cut
    | none => (3, cutBasisCode t.cutBasis)
  | none => basisField none

/-- The station record as published: 4 bytes. An absent reported port reads 0 (DESIGN CHOICE, log entry 57). -/
def stationFields (s : Station) : List Field :=
  [(2, s.online.code), (3, portCode s.port), flagField s.moving, flagField s.fault, flagField s.fast, flagField s.due,
   (3, orAbsent .refusedPort (s.refusal.map (·.port.num))), spare 4,
   (8, orAbsent .refusedReason (s.refusal.map (·.reason.toNat))), (8, 0)]

/-- The section of an island: 64 bytes. -/
def islandFields (i : IslandId) (p : Part) : List Field :=
  let x := p.island i
  let s := p.link.stations.get i
  let t := x.active
  let sop := t.bind (·.sop)
  [(3, x.onAir.code)] ++ mirrorFields x.mirror ++
  [(1, x.authority.code), (3, x.preset.code), flagField x.confirm.isSome,
   (1, orAbsent .confirmOwner (x.confirm.map (·.owner.code))), spare 2,
   (3, orAbsent .confirmTarget (x.confirm.map (·.target.code))), (3, orAbsent .confirmPort (x.confirm.map (·.port.num))),
   spare 2,
   (3, x.takes.length), flagField (t.bind (·.error)).isSome, cutField t, spare 1,
   (32, orAbsent .confirmCut (x.confirm.map (·.cut.toNat))),
   (8, x.settings.address), (8, x.settings.standbyPort.num), (8, x.settings.lead), (8, x.settings.tolerance),
   (8, x.settings.policy.code), (8, x.settings.grace),
   basisField sop, basisField x.fEnd, spare 2, (8, s.countdown)] ++
  (List.range 6).flatMap (fun n => takeFields x.takes[n]?) ++
  [stampField (t.bind (·.fCut)), stampField (t.bind (·.fStart)), stampField (sop.bind (·.value)),
   stampField (x.fEnd.bind (·.value)), errorField (t.bind (·.error)), (8, s.misses)] ++
  stationFields s ++
  [signedOr 21 .followedFrame ((t.bind (·.cut)).map (·.frame)), signedOr 21 .followedFrame (sop.map (·.frame)),
   signedOr 21 .followedFrame (x.fEnd.map (·.frame)), spare 1]

/-! ### Alarm table -/

/-- An alarm slot: 8 bytes. -/
def alarmFields : Option AlarmEntry → List Field
  | some e =>
    [(8, e.source.code), (8, e.kind.code), (2, e.kind.severity.code), (2, e.state.code), spare 4, (8, 1),
     (32, e.stamp.toNat)]
  | none => [emptyField 24, (8, 0), emptyField 32]

/-! ### The whole layout -/

/-- Word `k` of packed fields. -/
def wordOf (fields : List Field) (k : Nat) : Word := BitVec.ofNat 16 (pack fields / 2 ^ (16 * k))

/-- The head of a section number from 0. -/
def headOfIndex (n : Nat) : HeadId :=
  match n with
  | 0 => .h1
  | 1 => .h2
  | 2 => .h3
  | _ => .h4

/-- The live word at an even byte offset of the window (R168, R188). -/
def liveWord (p : Part) (o : Nat) : Word :=
  if o < 64 then wordOf (deviceFields p) (o / 2)
  else if o < 320 then wordOf (headFields (headOfIndex ((o - 64) / 64)) p) ((o - 64) % 64 / 2)
  else if o < 1344 then
    wordOf (cueFields (p.head (headOfIndex ((o - 320) / 256))) ((o - 320) % 256 / 8)) ((o - 320) % 8 / 2)
  else if o < 1472 then wordOf (islandFields (if o < 1408 then .i1 else .i2) p) ((o - 1344) % 64 / 2)
  else if o < Config.liveSize then wordOf (alarmFields p.alarms.entries[(o - 1472) / 8]?) ((o - 1472) % 8 / 2)
  else 0

/-- The low word of a 32-bit live quantity stands at an offset (R169, R188). -/
def latchedLow (o : Nat) : Bool :=
  if o < 64 then o = 0 || o = 4
  else if o < 320 then (o - 64) % 64 = 30
  else if o < 1344 then false
  else if o < 1472 then [4, 34, 38, 42, 46].contains ((o - 1344) % 64)
  else if o < Config.liveSize then (o - 1472) % 8 = 4
  else false

/-- The byte lanes asked for: the others hold what no rule says (R168, log entry 7). -/
def lanes (low high : Bool) (n : Nat) (w : Word) : Word :=
  let lo : Byte := if low then w.extractLsb' 0 8 else Config.unaskedLane n
  let hi : Byte := if high then w.extractLsb' 8 8 else Config.unaskedLane n
  hi ++ lo

/-- A live read at an even offset: the word answered and the latch after it (R169). -/
def Bus.readLatched (b : Bus) (p : Part) (o : Nat) : Word × Option Latch :=
  if latchedLow o then (liveWord p o, some { offset := o + 2, value := liveWord p (o + 2) })
  else
    match b.latch with
    | some l => if l.offset = o then (l.value, none) else (liveWord p o, b.latch)
    | none => (liveWord p o, none)

/-- A processor read at a byte offset of the LIVE window is answered (R168, R169). -/
def readLive (o : Nat) (low high : Bool) (p : Part) : Part :=
  let (w, latch) := p.bus.readLatched p (o / 2 * 2)
  { p with bus := { p.bus with latch := latch, answer := some (lanes low high p.time.crystal w) } }

end Sys2Proof.Machine
end

