-- ==== Sys2Proof/Machine/Bus.lean ====
section
/-! DEFINITION. The Window Decoder (sections 11.1 to 11.4): how a processor cycle is treated, and the violation record. -/

namespace Sys2Proof.Machine

/-- What becomes of a processor cycle (R164). -/
inductive Treatment where
  | pass
  | snooped (k : WindowKind)
  | withheld (k : WindowKind)
  | answered
deriving DecidableEq, Repr

/-- A window holds an address. -/
def Window.covers (w : Window) (a : Addr) : Bool := w.base ≤ a.toNat && a.toNat < w.base + 2 ^ w.log2

/-- The word of a window an address lies in, from 0. -/
def Window.wordAt (w : Window) (a : Addr) : Nat := (a.toNat - w.base) / 2

/-- The treatment of a cycle inside a window (R164). -/
def Window.treat (w : Window) (a : Addr) (write : Bool) : Treatment :=
  match w.kind, write with
  | .live, false => .answered
  | _, false => .pass
  | .command, true => if w.wordAt a = 0 then .snooped .command else if w.wordAt a = 1 then .withheld .command else .pass
  | .event, true => if w.wordAt a = 0 then .withheld .event else if w.wordAt a = 1 then .snooped .event else .pass
  | .live, true => .withheld .live
  | .guard, true => .withheld .guard

/-- The window an address lies in, while the window table is in force (R164). -/
def Part.windowAt (p : Part) (a : Addr) : Option Window :=
  if p.running then p.bus.windows.find? fun w => w.covers a else none

/-- The treatment of a processor cycle (R164). -/
def Part.treat (p : Part) (a : Addr) (write : Bool) : Treatment :=
  match p.windowAt a with
  | some w => w.treat a write
  | none => .pass

/-- A violation: the first fills the record and raises WINDOW_VIOLATION, a later one sets more (R167). -/
def violate (addr : Addr) (kind : WindowKind) (cause : ViolationCause) (p : Part) : Part :=
  match p.bus.violation with
  | some v => { p with bus := { p.bus with violation := some { v with more := true } } }
  | none =>
    raiseAlarm .device .windowViolation (addr.extractLsb' 0 16) ((addr.extractLsb' 16 4).setWidth 16)
      { p with bus := { p.bus with violation := some { addr := addr, kind := kind, cause := cause, more := false } } }

/-- A write the decoder withholds: acknowledged, its data discarded (R167). -/
def withhold (addr : Addr) (p : Part) : Part :=
  match p.treat addr true with
  | .withheld k => violate addr k .withheld p
  | .pass => p
  | .snooped _ => p
  | .answered => p

/-- A read the decoder answers (R168). -/
def answerRead (addr : Addr) (low high : Bool) (p : Part) : Part :=
  match p.windowAt addr with
  | some w => if w.kind = .live then readLive (addr.toNat - w.base) low high p else p
  | none => p

/-- RESET_FLAGS: the violation record is emptied and the events-lost flag becomes no (R167, R184). -/
def resetFlags (p : Part) : Part :=
  { p with bus := { p.bus with violation := none }, evt := { p.evt with lost := false } }

/-- RESET_FLAGS as a command (R184). -/
def resetFlagsCommand (p : Part) : Part × Status := (resetFlags p, .ok)

/-- ACK_ALARMS (R146). -/
def ackAlarmsCommand (source : Word) (p : Part) : Part × Status :=
  match readScope source with
  | some scope => (acknowledge scope p, .ok)
  | none => (p, .badArgument)

end Sys2Proof.Machine
end

