-- ==== Sys2Proof/Machine/Clear.lean ====
section
/-! DEFINITION. CLEAR (R177): each block takes it by the right-hand column of its own reset-values rule, in the order the
rules need (log entry 12). -/

namespace Sys2Proof.Machine

/-- A channel at CLEAR: the stored limits, counts 0, side LOW, condition absent, mode to be found (R140). -/
def Channel.cleared (l : Limits) (c : Channel) : Channel :=
  { c with limits := l, outCount := 0, outSide := .low, inCount := 0, condition := none, mode := none, frozen := false }

/-- The Analog Scanner at CLEAR (R140). -/
def clearAnalog (p : Part) : Part :=
  let four := fun (l : Four Limits) (c : Four Channel) =>
    Four.mk (c.h1.cleared l.h1) (c.h2.cleared l.h2) (c.h3.cleared l.h3) (c.h4.cleared l.h4)
  { p with analog := { p.analog with
      reference := p.analog.reference.cleared p.defaults.reference
      lamp := four p.defaults.lamp p.analog.lamp
      tension := four p.defaults.tension p.analog.tension } }

/-- The outcome a take ends with at CLEAR (R113 step 1). -/
def Take.clearOutcome (t : Take) : TakeOutcome := if t.state = .queued then .cancelled else .aborted

/-- The take list of island `i` is emptied, with a TAKE_END for each take in list order (R113 step 1). -/
def clearTakes (i : IslandId) (p : Part) : Part :=
  (p.island i).takes.foldl (fun q t => post (.island i) (t.endItem t.clearOutcome .clear) q)
    (p.modIsland i fun x => { x with takes := [] })

/-- The records of a Cadence Monitor that CLEAR sets beside those it sets as it stops measuring: no first lock made, and no
last run-up (R48, R52). -/
def Cadence.cleared (c : Cadence) : Cadence := { c with firstLock := false, lastRunup := none }

/-- The settings and records of a head that CLEAR sets before the head is stopped (R37, R48, R52). -/
def Head.cleared (c : HeadSettings) (a : Option Assignment) (x : Head) : Head :=
  { x with settings := c, lampPolicy := c.lampPolicy, assigned := a, fault := none, attempts := 0
           cadence := x.cadence.cleared
           pos := if x.settings.gauge = c.gauge then x.pos else ⟨x.pos.frame, 0⟩ }

/-- Head `h` at CLEAR: stored settings and assignment, STOPPED at once, the lamp by the stored policy, the cues brought
up to date (R37, R74, R88). A monitor that was measuring loses its boundary stamp, as R38 and R52 say, though R88 says that b
is kept (log entry 43). -/
def clearHead (h : HeadId) (p : Part) : Part :=
  let q := p.modHead h (Head.cleared (p.defaults.heads.get h) (p.defaults.assignments.get h))
  let q :=
    if (q.head h).drive = .stopped then (if (q.head h).lampPolicy = .auto then switchLamp h false q else q)
    else enterDrive h .stopped .clear none q
  let q := leaveLimit h q
  mapPreds h Pred.atLeave (followCues h q)

/-- The on-air source of island `i` is kept at CLEAR: STANDBY, or a head still assigned there at the same port; `old` are
the assignments before (R113 step 3). A source that is UNKNOWN already does not change, and posts no ON_AIR (R112, log
entry 19). -/
def keepsAir (i : IslandId) (old : Four (Option Assignment)) (p : Part) : Bool :=
  match (p.island i).onAir with
  | .standby => true
  | .unknown => true
  | .head h => p.isAssigned i h && (old.get h = (p.head h).assigned)

/-- Steps 2 and 3 of the scheduler's CLEAR on island `i`; a changed station address is passed to the link (R113, R130,
R131). Its ON_AIR carries no port (R112, log entry 54). -/
def clearIsland (i : IslandId) (old : Four (Option Assignment)) (p : Part) : Part :=
  let address := (p.island i).settings.address
  let q := p.modIsland i fun x =>
    { x with settings := p.defaults.islands.get i, authority := .remote, preset := .standby }
  let q := if (q.island i).settings.address = address then q else readdress i q
  if keepsAir i old q then q else setOnAir i .unknown .clear none none q

/-- CLEAR taken by every block (R177). A POLL it has removed may join again as the standby MOVEs are submitted, in the same
step (R118, R131, log entry 55). Once the rings are initialised the attention line is judged at once, against the producer index
as an event write has moved it on, also while that index is still to be written (R185; DESIGN CHOICE, log entry 56). -/
def clearAll (p : Part) : Part :=
  let old := p.heads.map (·.assigned)
  let q := clearAnalog (emptyAlarms { p with ref := { p.ref with trim := p.defaults.trim } })
  let q := clearTakes .i2 (clearTakes .i1 q)
  let q := HeadId.list.foldl (fun q h => clearHead h q) q
  let q := clearIsland .i2 old (clearIsland .i1 old (clearPolls q))
  let q := followEnds (standbyNow .i2 (standbyNow .i1 q))
  if q.init = .done then { q with evt := q.evt.judged } else q

/-- CLEAR as a command: it completes OK (R177). -/
def clearCommand (p : Part) : Part × Status := (clearAll p, .ok)

end Sys2Proof.Machine
end

