-- ==== Sys2Proof/Machine/Rings.lean ====
section
/-! DEFINITION. The Command Unit and the Event Unit (chapter 12), the reports of the Memory Agent's jobs (R170 to R172) and
the initialisation of the rings (R174). -/

namespace Sys2Proof.Machine

/-! ### Submitting jobs -/

/-- The address of an entry of the command ring (R176). -/
def commandEntry (b : Bus) (index : Nat) : Addr := BitVec.ofNat 20 (b.base .command + 16 + 32 * index)

/-- The address of word `n` of the window of a kind, counted in words of the index block. -/
def indexWord (b : Bus) (k : WindowKind) (n : Nat) : Addr := BitVec.ofNat 20 (b.base k + 2 * n)

/-- A job that writes one word. -/
def writeJob (kind : JobKind) (addr : Addr) (w : Word) : Job := { kind := kind, addr := addr, reads := 0, data := [w] }

/-- A job that reads words. -/
def readJob (kind : JobKind) (addr : Addr) (n : Nat) : Job := { kind := kind, addr := addr, reads := n, data := [] }

/-- The entry at the consumer index is fetched (R176). -/
def fetchEntry (p : Part) : Part :=
  submit (readJob .commandFetch (commandEntry p.bus p.cmd.consumer) 15) { p with cmd := { p.cmd with fetch := .fetching } }

/-- The consumer index is written (R178). -/
def writeConsumer (p : Part) : Part :=
  submit (writeJob .consumerWrite (indexWord p.bus .command 1) (word p.cmd.consumer)) p

/-- The event producer index is written (R182). -/
def writeProducer (p : Part) : Part :=
  submit (writeJob .producerWrite (indexWord p.bus .event 0) (word p.evt.producer)) p

/-! ### Values handed on (R166, R176, R182, R183) -/

/-- A producer value of the command ring: the last seen index, and the wake of an IDLE unit once the rings are
initialised (R174, R176). -/
def takeProducer (v : Nat) (p : Part) : Part :=
  let q := { p with cmd := { p.cmd with producer := v } }
  if q.init = .done ∧ q.cmd.fetch = .idle ∧ v ≠ q.cmd.consumer then fetchEntry q else q

/-- A consumer value of the event ring: the last seen index, the attention line judged, the test for room (R182, R183). The line
is judged against the unit's own index, which an event write has moved on before its word is written (log entry 56). -/
def takeConsumer (v : Nat) (p : Part) : Part :=
  let e := { p.evt with consumer := v }
  pumpEvents { p with evt := if p.init = .done then e.judged else e }

/-- A value handed on to the unit of its ring. -/
def handOn (k : WindowKind) (v : Nat) (p : Part) : Part :=
  match k with
  | .command => takeProducer v p
  | .event => takeConsumer v p
  | .live => p
  | .guard => p

/-- A snooped write whose cycle has ended: handed on, or a BAD_INDEX violation, or dropped with a memory error (R166). The
cycle is classed by the window table in force at its end (log entry 47). -/
def snoop (c : BusCycle) (ack : Bool) (p : Part) : Part :=
  match p.treat c.addr c.write with
  | .snooped k =>
    if ¬ ack then p
    else if c.low && c.high && c.data.toNat < p.bus.ringSize k then handOn k c.data.toNat p
    else violate c.addr k .badIndex p
  | .pass => p
  | .withheld _ => p
  | .answered => p

/-! ### The commands of the ring (R177, R180) -/

/-- Words 3 to 14 of a CONFIGURE_HEAD entry. -/
def headWords (w : Nat → Word) : HeadWords :=
  { gaugePolicy := w 3, lockCount := w 4, runupLead := w 5, runupDistance := w 6, runupLimit := w 7,
    startResponse := w 8, lossTimeout := w 9, approach := w 10, parkTolerance := w 11, settleTime := w 12,
    sensorOffset := w 13, lampSettle := w 14 }

/-- The command of an entry handed to its owner: its code in the low byte of word 0 (R177, R180). -/
def runEntry (w : Nat → Word) : Part → Part × Status :=
  match (w 0).toNat % 256 with
  | 0x01 => setTrim (w 3)
  | 0x02 => clearCommand
  | 0x03 => ackAlarmsCommand (w 3)
  | 0x04 => resetFlagsCommand
  | 0x05 => setAnalogLimitsCommand (w 1) (w 3) (w 4) (w 5)
  | 0x06 => setPanelModeCommand (w 3) (w 4)
  | 0x10 => configureHeadCommand (w 1) (headWords w)
  | 0x11 => assignHeadCommand (w 1) (w 3) (w 4)
  | 0x12 => setPositionCommand (w 1) (join32 (w 3) (w 4))
  | 0x13 => cueUpCommand (w 1) (w 3) (join32 (w 4) (w 5))
  | 0x14 => startCommand (w 1)
  | 0x15 => stopCommand (w 1)
  | 0x16 => lampCommand (w 1) (w 3)
  | 0x17 => clearFaultCommand (w 1)
  | 0x20 => loadCueCommand (w 1) (w 3) (w 4) (join32 (w 5) (w 6)) (w 7) (w 8)
  | 0x21 => deleteCueCommand (w 1) (w 3)
  | 0x22 => clearCuesCommand (w 1)
  | 0x30 => configureIslandCommand (w 1) (w 3) (w 4) (w 5) (w 6) (w 7) (w 8)
  | 0x31 => takeCommand (w 1) (w 2) (w 3) (w 4) (join32 (w 5) (w 6)) (w 7) (w 8) (w 9) (w 10)
  | 0x32 => cancelTakeCommand (w 1) (w 2)
  | 0x33 => abortTakeCommand (w 1)
  | 0x34 => standbyCommand (w 1)
  | _ => fun p => (p, .badCommand)

/-- An entry is a TAKE, whose activation follows its status (R93). -/
def isTakeEntry (w : Nat → Word) : Bool := (w 0).toNat % 256 = 0x31

/-- An entry handed to its owner up to its status: a TAKE joins its list and is not yet activated (R93, R177). -/
def enterEntry (w : Nat → Word) : Part → Part × Status :=
  if isTakeEntry w then queueTake (w 1) (w 2) (w 3) (w 4) (join32 (w 5) (w 6)) (w 7) (w 8) (w 9) (w 10) else runEntry w

/-- What follows the status of an entry: the activation a TAKE brings (R93). -/
def followEntry (w : Nat → Word) (before p : Part) : Part := if isTakeEntry w then followTakeOf (w 1) before p else p

/-- The status word: the code in the low byte, 128 in the high byte (R178). -/
def statusWord (s : Status) : Word := pair s.code 128

/-- With the status in hand the unit completes: the status write of word 15 (R178). -/
def complete (s : Status) (p : Part) : Part :=
  submit (writeJob .statusWrite (commandEntry p.bus p.cmd.consumer + 30) (statusWord s))
    { p with cmd := { p.cmd with status := some s, fetch := .completing } }

/-- The fetch has ended: the command is executed, or completes MEMFAULT (R172, R177). The events of the taking are posted before
the status is written, TAKE_ACTIVE once its write has been submitted (R93, R177, log entry 44). -/
def endFetch (words : Option (List Word)) (p : Part) : Part :=
  match words with
  | some l =>
    let w := fun n => l.getD n 0
    let p := { p with cmd := { p.cmd with fetch := .executing } }
    let (q, s) := enterEntry w p
    followEntry w p (complete s q)
  | none => complete .memFault p

/-- The status write has ended, whatever its outcome: the consumer index advances unless the indices agree (R178). -/
def endStatus (p : Part) : Part :=
  let c := if p.cmd.consumer = p.cmd.producer then p.cmd.consumer else (p.cmd.consumer + 1) % p.bus.ringSize .command
  writeConsumer { p with cmd := { p.cmd with consumer := c } }

/-- The consumer index write has ended: the next entry, or IDLE (R178). -/
def endConsumer (p : Part) : Part :=
  if p.cmd.consumer = p.cmd.producer then { p with cmd := { p.cmd with fetch := .idle } } else fetchEntry p

/-! ### The event ring (R182, R183) -/

/-- The event write has ended (R182). -/
def endEvent (ok : Bool) (p : Part) : Part :=
  if ok then
    writeProducer { p with evt := { p.evt with producer := (p.evt.producer + 1) % p.bus.ringSize .event } }
  else pumpEvents { p with evt := { p.evt with lost := true, writing := false } }

/-- The producer index write has ended, whatever its outcome (R182, R183). -/
def endProducer (p : Part) : Part :=
  pumpEvents { p with evt := { p.evt.judged with writing := false } }

/-! ### The initialisation of the rings (R174) -/

/-- The value a start-up read gives: 0 after a memory error, and 0 with a BAD_INDEX violation at or above the ring size
(R174 step 1). -/
def startValue (k : WindowKind) (addr : Addr) (words : Option (List Word)) (p : Part) : Nat × Part :=
  match words with
  | none => (0, p)
  | some l =>
    let v := (l.getD 0 0).toNat
    if v < p.bus.ringSize k then (v, p) else (0, violate addr k .badIndex p)

/-- The first start-up read is submitted (R174 step 1). -/
def beginInit (p : Part) : Part :=
  submit (readJob .startupCommand (indexWord p.bus .command 0) 1) { p with init := .readCommand }

/-- The command producer word has been read (R174 step 1). -/
def endStartCommand (words : Option (List Word)) (p : Part) : Part :=
  let (v, q) := startValue .command (indexWord p.bus .command 0) words p
  submit (readJob .startupEvent (indexWord q.bus .event 1) 1)
    { q with cmd := { q.cmd with consumer := v, producer := v }, init := .readEvent }

/-- The event consumer word has been read; the two index words are written (R174 steps 1 and 2). -/
def endStartEvent (words : Option (List Word)) (p : Part) : Part :=
  let (v, q) := startValue .event (indexWord p.bus .event 1) words p
  writeProducer (writeConsumer
    { q with evt := { q.evt with producer := v, consumer := v }, init := .writing false false })

/-- The two index words have been written: the events that waited are written from now on (R181), STARTED is posted, the
standby commits are made, and the units are at work (R131, R174 steps 3 and 4). The source of STARTED is Device (DESIGN
CHOICE, log entry 64). The event write is submitted before the command fetch, which R170 leaves to either order (DESIGN CHOICE,
log entry 63). -/
def endInit (p : Part) : Part :=
  let q := pumpEvents { p with init := .done, evt := p.evt.judged }
  let q := post .device (.started p.cmd.consumer p.evt.producer) q
  let q := standbyAtStart .i2 (standbyAtStart .i1 q)
  if q.cmd.consumer = q.cmd.producer then q else fetchEntry q

/-- One of the two index writes of the initialisation has ended (R174 step 2). -/
def endInitWrite (command event : Bool) (p : Part) : Part :=
  if command && event then endInit p else { p with init := .writing command event }

/-! ### The end of a job (R170, R172) -/

/-- The outcome of a job reported to its unit: the words read, or none after a memory error. -/
def report (kind : JobKind) (words : Option (List Word)) (p : Part) : Part :=
  match kind, p.init with
  | .consumerWrite, .writing _ e => endInitWrite true e p
  | .producerWrite, .writing c _ => endInitWrite c true p
  | .commandFetch, _ => endFetch words p
  | .statusWrite, _ => endStatus p
  | .consumerWrite, _ => endConsumer p
  | .eventWrite, _ => endEvent words.isSome p
  | .producerWrite, _ => endProducer p
  | .startupCommand, _ => endStartCommand words p
  | .startupEvent, _ => endStartEvent words p

/-- The agent leaves its front job; the port is free, and the next job's first word is ready (R170, R171). -/
def dropJob (p : Part) : Part :=
  let rest := p.agent.jobs.tail
  { p with
    bus := { p.bus with holder := .free }
    agent := { p.agent with jobs := rest, done := 0, got := [], starved := false,
                            word := if rest.isEmpty then .idle else .ready p.time.now } }

/-- MEMORY_FAULT, with the address and the job kind (R172, R187). -/
def raiseMemoryFault (addr : Addr) (kind : JobKind) (p : Part) : Part :=
  raiseAlarm .device .memoryFault (addr.extractLsb' 0 16) (pair (addr.extractLsb' 16 4).toNat kind.code) p

/-- An agent word ends in a memory error: the job ends there, the unit is told, MEMORY_FAULT is raised (R172). -/
def failWord (p : Part) : Part :=
  match p.agent.jobs with
  | [] => p
  | j :: _ => arbitrate (raiseMemoryFault (j.wordAddr p.agent.done) j.kind (report j.kind none (dropJob p)))

/-- An agent word ends with an acknowledge: the next word of the job is ready, or the job ends with success (R170,
R171). -/
def finishWord (data : Word) (p : Part) : Part :=
  match p.agent.jobs with
  | [] => p
  | j :: _ =>
    let got := if j.data.isEmpty then p.agent.got ++ [data] else p.agent.got
    if p.agent.done + 1 < j.words then
      arbitrate { p with
        bus := { p.bus with holder := .free }
        agent := { p.agent with done := p.agent.done + 1, got := got, word := .ready p.time.now, starved := false } }
    else arbitrate (report j.kind (some got) (dropJob p))

/-- The agent's word is on the port. -/
def Agent.onPort (a : Agent) : Bool :=
  match a.word with
  | .active _ => true
  | .idle => false
  | .ready _ => false

/-- Sixteen ticks have passed on the agent's word without an acknowledge (R172). -/
def wordTimedOut (p : Part) : Bool :=
  match p.agent.word with
  | .active s => s + Config.wordTimeout ≤ p.time.now
  | .idle => false
  | .ready _ => false

/-- The starve count of the ready word has passed the starve limit (R171). -/
def starveDue (p : Part) : Bool :=
  match p.agent.word with
  | .ready s => !p.agent.starved && s + p.agent.limit < p.time.now
  | .idle => false
  | .active _ => false

/-- The ready word is starved (R171). -/
def takeStarve (p : Part) : Part := arbitrate { p with agent := { p.agent with starved := true } }

/-! ### Processor cycles (R164, R171) -/

/-- A processor cycle that passes wants the port: it starts at once when the port is free, and waits otherwise (R171). One
that begins while another is on the port is the next, which starts at that one's end; while one waits, no other begins (log
entry 13). -/
def wantPort (c : BusCycle) (p : Part) : Part :=
  if p.bus.waiting.isSome then p else arbitrate { p with bus := { p.bus with waiting := some c } }

/-- A processor cycle begins and is treated by its address (R164). -/
def beginCycle (c : BusCycle) (p : Part) : Part :=
  match p.treat c.addr c.write with
  | .pass => wantPort c p
  | .snooped _ => wantPort c p
  | .withheld _ => withhold c.addr p
  | .answered => answerRead c.addr c.low c.high p

/-- The processor cycle on the port ends: the port is free, a snooped write is judged, and the port is handed on (R166,
R171). -/
def endCycle (ack : Bool) (p : Part) : Part :=
  match p.bus.holder with
  | .processor c => arbitrate (snoop c ack { p with bus := { p.bus with holder := .free } })
  | .free => p
  | .agent => p

/-- A whole processor cycle taken as one command: it begins, and ends at once when it found the port (log entry 13). -/
def wholeCycle (c : BusCycle) (ack : Bool) (p : Part) : Part :=
  match p.bus.waiting, p.bus.holder with
  | none, .free => endCycle ack (beginCycle c p)
  | none, _ => beginCycle c p
  | some _, _ => p

/-- A processor write of word `n` of the index block of a ring (R166, R182). -/
def indexWrite (b : Bus) (k : WindowKind) (n : Nat) (data : Word) (low high : Bool) : BusCycle :=
  { addr := indexWord b k n, write := true, data := data, low := low, high := high }

end Sys2Proof.Machine
end

