-- ==== Sys2Proof/Machine/Image.lean ====
section
/-! DEFINITION. The configuration image (R173, R189): its layout, the checks that fail a load, the settings as clamped. -/

namespace Sys2Proof.Machine

/-! ### Reading -/

/-- Byte `n` of an image; a memory that does not answer leaves its data line high (R173). -/
def byteAt (m : List Byte) (n : Nat) : Nat := (m.getD n 0xFF).toNat

/-- The two bytes from `n`, low byte first. -/
def wordAt (m : List Byte) (n : Nat) : Nat := byteAt m n + 256 * byteAt m (n + 1)

/-- The four bytes from `n`, low byte first. -/
def longAt (m : List Byte) (n : Nat) : Nat := wordAt m n + 65536 * wordAt m (n + 2)

/-- The settings of a head before clamping, from the 20 bytes at `n`, unless its gauge or lamp policy is unknown. -/
def headAt (m : List Byte) (n : Nat) : Option HeadSettings :=
  match gaugeOfNat (byteAt m n), policyOfNat (byteAt m (n + 17)) with
  | some g, some l =>
    some { gauge := g, lockCount := byteAt m (n + 1), runupLead := wordAt m (n + 2), runupDistance := byteAt m (n + 4),
           runupLimit := wordAt m (n + 5), startResponse := wordAt m (n + 7), lossTimeout := wordAt m (n + 9),
           approach := wordAt m (n + 11), parkTolerance := byteAt m (n + 13), settleTime := wordAt m (n + 14),
           sensorOffset := byteAt m (n + 16), lampPolicy := l, lampSettle := wordAt m (n + 18) }
  | _, _ => none

/-- The settings of an island from the bytes at `n`, clamped. -/
def islandAt (m : List Byte) (n : Nat) : Option IslandSettings :=
  (readIslandSettings (byteAt m n) (byteAt m (n + 1)) (byteAt m (n + 2)) (byteAt m (n + 3)) (byteAt m (n + 4))
    (byteAt m (n + 5))).map Prod.fst

/-- The number of a head less one. -/
def HeadId.index (h : HeadId) : Nat := h.num - 1

/-- The port of head `h` in an island's defaults at `n`: 0 for none, above 4 clamped (log entry 14). -/
def headPortAt (m : List Byte) (n : Nat) (h : HeadId) : Option Port :=
  let b := byteAt m (n + 6 + HeadId.index h)
  if b = 0 then none else some (clampPort b)

/-- The offset of an island's defaults. -/
def islandOffset : IslandId → Nat
  | .i1 => 96
  | .i2 => 108

/-- The limits of channel `k` with the default row of its kind: clamped, and the default row when low is above high
(R140). -/
def limitsAt (m : List Byte) (k : Nat) (row : Limits) : Limits :=
  let n := 120 + 6 * k
  let l := Limits.clamped { low := wordAt m n, high := wordAt m (n + 2), debounce := byteAt m (n + 4) }
  if l.high < l.low then row else l

/-- The kind of a window. -/
def kindOfNat : Nat → Option WindowKind
  | 0 => some .command
  | 1 => some .event
  | 2 => some .live
  | 3 => some .guard
  | _ => none

/-- Window entry `k` of an image, unless its kind is unknown. -/
def windowEntry (m : List Byte) (k : Nat) : Option Window :=
  let n := 176 + 8 * k
  (kindOfNat (byteAt m (n + 5))).map fun kind =>
    { base := longAt m n, log2 := byteAt m (n + 4), kind := kind, ring := wordAt m (n + 6) }

/-- The values of a list of options, when all are present. -/
def allSome {α : Type} : List (Option α) → Option (List α)
  | [] => some []
  | none :: _ => none
  | some x :: rest => (allSome rest).map (x :: ·)

/-! ### The window table (R165) -/

/-- The ring sizes of a kind; LIVE and GUARD give 0 (R165, R189). -/
def WindowKind.rings : WindowKind → List Nat
  | .command => [8, 16, 32, 64]
  | .event => [16, 32, 64, 128]
  | .live => [0]
  | .guard => [0]

/-- The bytes a window's ring takes (R165). -/
def Window.ringBytes (w : Window) : Nat :=
  match w.kind with
  | .command => 16 + 32 * w.ring
  | .event => 16 + 16 * w.ring
  | .live => 0
  | .guard => 0

/-- One entry of the window table by itself (R165): a byte address of twenty bits (log entry 14). -/
def Window.sound (w : Window) : Bool :=
  8 ≤ w.log2 && w.log2 ≤ 16 && w.base % 2 ^ w.log2 = 0 && w.base < 2 ^ 20 && w.kind.rings.contains w.ring &&
    w.ringBytes ≤ 2 ^ w.log2 && (w.kind ≠ .live || 11 ≤ w.log2)

/-- Two windows share no address. -/
def Window.apart (a b : Window) : Bool := a.base + 2 ^ a.log2 ≤ b.base || b.base + 2 ^ b.log2 ≤ a.base

/-- No two windows of a table share an address. -/
def allApart : List Window → Bool
  | [] => true
  | w :: rest => rest.all w.apart && allApart rest

/-- The number of windows of a kind. -/
def kindCount (k : WindowKind) (l : List Window) : Nat := (l.filter fun w => w.kind = k).length

/-- A window table is as R165 says. -/
def soundTable (l : List Window) : Bool :=
  l.all Window.sound && allApart l && kindCount .command l = 1 && kindCount .event l = 1 && kindCount .live l = 1 &&
    kindCount .guard l ≤ 3

/-! ### The image -/

/-- Everything a valid image gives (R173). -/
structure Image where
  defaults : Defaults
  standard : Standard
  line     : LineSettings
  starve   : Nat
  dwell    : Nat
  display  : DisplayMode
  period   : Nat
  windows  : List Window
deriving DecidableEq, Repr

/-- The signature and the length of an image are right (R173, R189). -/
def headerRight (m : List Byte) : Bool :=
  byteAt m 0 = 0x6E && byteAt m 1 = 0x91 && wordAt m 2 ≤ Config.imageMax && wordAt m 2 = 176 + 8 * byteAt m 4

/-- The station standard of an image. -/
def standardOfNat : Nat → Option Standard
  | 50 => some .f50
  | 60 => some .f60
  | _ => none

/-- The line rate of an image. -/
def rateOfNat : Nat → Option LineRate
  | 0 => some .b9600
  | 1 => some .b19200
  | 2 => some .b38400
  | _ => none

/-- The assignment of head `h` in the island defaults. -/
def assignmentAt (m : List Byte) (h : HeadId) : Option Assignment :=
  match headPortAt m 96 h, headPortAt m 108 h with
  | some q, _ => some ⟨.i1, q⟩
  | none, some q => some ⟨.i2, q⟩
  | none, none => none

/-- The island defaults give no head to two islands, no two sources of an island one port, and no one address to both
islands (R173); addresses and ports are compared as clamped (log entry 48). -/
def islandsRight (m : List Byte) (c : Two IslandSettings) : Bool :=
  let free := fun (i : IslandId) =>
    let ports := HeadId.list.filterMap (headPortAt m (islandOffset i))
    decide ports.Nodup && !ports.contains (c.get i).standbyPort
  HeadId.list.all (fun h => (headPortAt m 96 h).isNone || (headPortAt m 108 h).isNone) &&
    free .i1 && free .i2 && c.i1.address ≠ c.i2.address

/-- The settings of the four heads, clamped, unless one has an unknown gauge or lamp policy. -/
def headsAt (m : List Byte) : Option (Four HeadSettings) :=
  match headAt m 16, headAt m 36, headAt m 56, headAt m 76 with
  | some a, some b, some c, some d => some ⟨a.clamped, b.clamped, c.clamped, d.clamped⟩
  | _, _, _, _ => none

/-- The settings of the two islands, clamped, unless one has an unknown fault policy. -/
def islandsAt (m : List Byte) : Option (Two IslandSettings) :=
  match islandAt m 96, islandAt m 108 with
  | some a, some b => some ⟨a, b⟩
  | _, _ => none

/-- The stored defaults of an image, as clamped (R173). -/
def defaultsAt (m : List Byte) (heads : Four HeadSettings) (islands : Two IslandSettings) : Defaults :=
  { trim := clampTrim (BitVec.ofNat 16 (wordAt m 6)).toInt
    heads := heads
    islands := islands
    assignments := ⟨assignmentAt m .h1, assignmentAt m .h2, assignmentAt m .h3, assignmentAt m .h4⟩
    reference := limitsAt m 0 .reference
    lamp := ⟨limitsAt m 1 .lamp, limitsAt m 3 .lamp, limitsAt m 5 .lamp, limitsAt m 7 .lamp⟩
    tension := ⟨limitsAt m 2 .tension, limitsAt m 4 .tension, limitsAt m 6 .tension, limitsAt m 8 .tension⟩ }

/-- The window entries of an image, unless a kind is unknown. -/
def windowsAt (m : List Byte) : Option (List Window) := allSome ((List.range (byteAt m 4)).map (windowEntry m))

/-- What an image gives, or none when the load fails (R173, R189). -/
def readImage (m : List Byte) : Option Image :=
  if ¬ headerRight m then none
  else
    match windowsAt m, standardOfNat (byteAt m 5), rateOfNat (byteAt m 8), displayModeOfNat (byteAt m 14), headsAt m,
      islandsAt m with
    | some windows, some standard, some rate, some display, some heads, some islands =>
      if soundTable windows && islandsRight m islands then
        some { defaults := defaultsAt m heads islands
               standard := standard
               line := { rate := rate, gap := byteAt m 9, timeout := clamp 2 100 (byteAt m 10),
                         interval := clamp 1 50 (byteAt m 11) }
               starve := clamp 8 255 (byteAt m 12)
               dwell := clamp 0 127 (byteAt m 13)
               display := display
               period := clamp 5 100 (byteAt m 15)
               windows := windows }
      else none
    | _, _, _, _, _, _ => none

end Sys2Proof.Machine
end

