-- ==== Sys2Proof/Machine/Loader.lean ====
section
/-! DEFINITION. The Configuration Loader (R173): power-on, the reset line, the end of a load. -/

namespace Sys2Proof.Machine

/-- Power-on or a pulse on the reset line: every block at its reset values and a load in progress (R173). -/
def beginLoad (_ : Part) : Part := Part.reset

/-- The Analog Scanner at a valid load: its first scan begins (R140). -/
def Analog.started (d : Defaults) (period now : Nat) : Analog :=
  { reference := .reset d.reference, lamp := d.lamp.map .reset, tension := d.tension.map .reset, period := period,
    begun := now, next := 0 }

/-- The Field Reference Unit at a valid load: SEARCH, and its first flywheel field (R15). -/
def RefUnit.started (standard : Standard) (trim : Int) (now : Nat) : RefUnit :=
  { RefUnit.reset with trim := trim, standard := standard, begun := now, length := standard.patternLength 0 }

/-- The blocks as they start at a valid load, before the rings are initialised (R15, R37, R52, R74, R113, R131, R140,
R151, R163, R175, R185). -/
def startBlocks (m : Image) (p : Part) : Part :=
  let d := m.defaults
  { p with
    mode := .running
    ref := RefUnit.started m.standard d.trim p.time.now
    heads := ⟨.reset d.heads.h1 d.assignments.h1, .reset d.heads.h2 d.assignments.h2,
              .reset d.heads.h3 d.assignments.h3, .reset d.heads.h4 d.assignments.h4⟩
    analog := Analog.started d m.period p.time.now
    islands := d.islands.map .reset
    link := .reset m.line
    panel := .reset m.display m.dwell
    bus := { p.bus with windows := m.windows }
    agent := .reset m.starve
    defaults := d }

/-- A valid load: the blocks start, the panel's first scan begins, the rings are initialised (R173, R174). -/
def completeLoad (m : Image) (p : Part) : Part := beginInit (beginRow 0 p.time.now (startBlocks m p))

/-- A failed load: transparent mode, the horn, the panel scanned with d = 31 in FEET (R150, R163, R173). -/
def failLoad (p : Part) : Part :=
  beginRow 0 p.time.now
    { p with mode := .transparent, alarms := { p.alarms with horn := true }, panel := .reset .feet 31 }

/-- The configuration read ends (R173). -/
def endLoad (image : List Byte) (p : Part) : Part :=
  match readImage image with
  | some m => completeLoad m p
  | none => failLoad p

end Sys2Proof.Machine
end

