-- ==== Sys2Proof/Machine/Meanings.lean ====
section
/-! DEFINITION. The meaning of each command, one definition a row of spec/opcode_table.json, in the table's order.

A command that comes at a moment of its own first lets its `dt` ticks pass (log entry 1). A timer's expiry acts when the
timer has run out, and otherwise nothing but time passes. A ring command is carried out by its owner, and its status is
the status in hand of the Command Unit (log entry 4). -/

namespace Sys2Proof.Machine

/-- The outcome of a change of the part: the next state, with the queue as it was. -/
def onPart (f : Part → Part) (s : State) : Host.Outcome State Fault Refusal := .next { s with part := f s.part }

/-- An event after `dt` ticks, taken by a part that runs when its condition holds. -/
def timed (dt : Nat) (due : Part → Bool) (f : Part → Part) (p : Part) : Part :=
  let q := elapse dt p
  if q.running && due q then f q else q

/-- An event a part that runs takes in any state, after `dt` ticks. -/
def event (dt : Nat) (f : Part → Part) : Part → Part := timed dt (fun _ => true) f

/-- A condition on a field, met at the present count (R4): the event, when it holds in a part that runs. -/
def onField (due : Part → Bool) (f : Part → Part) (p : Part) : Part := if p.running && due p then f p else p

/-- A command of the ring carried out by its owner, with its status in hand (R177, R178); nothing before a valid load
(R185). -/
def commanded (f : Part → Part × Status) (p : Part) : Part :=
  if p.running then
    let (q, st) := f p
    { q with cmd := { q.cmd with status := some st } }
  else p

/-! ### Device -/

/-- POWER_ON (R173). -/
def execPowerOn : State → Host.Outcome State Fault Refusal := onPart beginLoad

/-- RESET_LINE_PULSE (R173). -/
def execResetLinePulse : State → Host.Outcome State Fault Refusal := onPart beginLoad

/-- The end of a configuration read, during a load (R173). -/
def loadEnd (dt : Nat) (image : List Byte) (p : Part) : Part :=
  let q := elapse dt p
  if q.mode = .loading then endLoad (image.take Config.imageMax) q else q

/-- CONFIG_LOAD_END (R173). -/
def execConfigLoadEnd (dt : Nat) (image : List Byte) : State → Host.Outcome State Fault Refusal :=
  onPart (loadEnd dt image)

/-! ### Field reference -/

/-- STATION_PULSE (R9). -/
def execStationPulse (dt : Nat) : State → Host.Outcome State Fault Refusal := onPart (event dt takeStationPulse)

/-- FLYWHEEL_EXPIRY (R5). -/
def execFlywheelExpiry (dt : Nat) : State → Host.Outcome State Fault Refusal :=
  onPart (timed dt (fun p => p.ref.expired p.time.now) takeFlywheelExpiry)

/-- ACCEPTANCE_WINDOW_END (R10). -/
def execAcceptanceWindowEnd (dt : Nat) : State → Host.Outcome State Fault Refusal :=
  onPart (timed dt (fun p => p.ref.windowEnded p.time.now) takeWindowEnd)

/-- SLEWING_PULSE_GAP (R12). -/
def execSlewingPulseGap (dt : Nat) : State → Host.Outcome State Fault Refusal :=
  onPart (timed dt (fun p => p.ref.pulseGap p.time.now) takePulseGap)

/-- SET_TRIM (R2). -/
def execSetTrim (trim : Word) : State → Host.Outcome State Fault Refusal := onPart (commanded (setTrim trim))

/-! ### Heads -/

/-- TACH_PULSE (R18). -/
def execTachPulse (dt : Nat) (head : HeadId) (forward : Bool) : State → Host.Outcome State Fault Refusal :=
  onPart (event dt (takeTach head forward))

/-- TACH_GAP_EXPIRY (R28). -/
def execTachGapExpiry (dt : Nat) (head : HeadId) : State → Host.Outcome State Fault Refusal :=
  onPart (timed dt (gapExpired head) (takeGapExpiry head))

/-- SETTLE_EXPIRY (R26). -/
def execSettleExpiry (dt : Nat) (head : HeadId) : State → Host.Outcome State Fault Refusal :=
  onPart (timed dt (settleExpired head) (takeSettleExpiry head))

/-- SPEED_TIMEOUT (R51). -/
def execSpeedTimeout (dt : Nat) (head : HeadId) : State → Host.Outcome State Fault Refusal :=
  onPart (timed dt (speedExpired head) (takeSpeedTimeout head))

/-- SLOW_START (R49). -/
def execSlowStart (head : HeadId) : State → Host.Outcome State Fault Refusal :=
  onPart (onField (slowStartDue head) (takeSlowStart head))

/-- CUE_MARK_PULSE (R67). -/
def execCueMarkPulse (dt : Nat) (head : HeadId) : State → Host.Outcome State Fault Refusal :=
  onPart (event dt (takeMark head))

/-! ### Device commands -/

/-- CLEAR (R177). -/
def execClear : State → Host.Outcome State Fault Refusal := onPart (commanded clearCommand)

/-- ACK_ALARMS (R146). -/
def execAckAlarms (source : Word) : State → Host.Outcome State Fault Refusal :=
  onPart (commanded (ackAlarmsCommand source))

/-- RESET_FLAGS (R184). -/
def execResetFlags : State → Host.Outcome State Fault Refusal := onPart (commanded resetFlagsCommand)

/-- SET_ANALOG_LIMITS (R139). -/
def execSetAnalogLimits (channel low high debounce : Word) : State → Host.Outcome State Fault Refusal :=
  onPart (commanded (setAnalogLimitsCommand channel low high debounce))

/-- SET_PANEL_MODE (R162). -/
def execSetPanelMode (mode dwell : Word) : State → Host.Outcome State Fault Refusal :=
  onPart (commanded (setPanelModeCommand mode dwell))

/-! ### Head and cue commands -/

/-- CONFIGURE_HEAD (R35). -/
def execConfigureHead (head : Word) (words : HeadWords) : State → Host.Outcome State Fault Refusal :=
  onPart (commanded (configureHeadCommand head words))

/-- ASSIGN_HEAD (R34). -/
def execAssignHead (head island port : Word) : State → Host.Outcome State Fault Refusal :=
  onPart (commanded (assignHeadCommand head island port))

/-- SET_POSITION (R33). -/
def execSetPosition (head : Word) (frame : BitVec 32) : State → Host.Outcome State Fault Refusal :=
  onPart (commanded (setPositionCommand head frame))

/-- CUE_UP (R62). -/
def execCueUp (head form : Word) (arg : BitVec 32) : State → Host.Outcome State Fault Refusal :=
  onPart (commanded (cueUpCommand head form arg))

/-- START (R24). -/
def execStart (head : Word) : State → Host.Outcome State Fault Refusal := onPart (commanded (startCommand head))

/-- STOP (R25). -/
def execStop (head : Word) : State → Host.Outcome State Fault Refusal := onPart (commanded (stopCommand head))

/-- LAMP (R32). -/
def execLamp (head on : Word) : State → Host.Outcome State Fault Refusal := onPart (commanded (lampCommand head on))

/-- CLEAR_FAULT (R31). -/
def execClearFault (head : Word) : State → Host.Outcome State Fault Refusal :=
  onPart (commanded (clearFaultCommand head))

/-- LOAD_CUE (R54). -/
def execLoadCue (head id kind : Word) (frame : BitVec 32) (window correct : Word) :
    State → Host.Outcome State Fault Refusal :=
  onPart (commanded (loadCueCommand head id kind frame window correct))

/-- DELETE_CUE (R56). -/
def execDeleteCue (head id : Word) : State → Host.Outcome State Fault Refusal :=
  onPart (commanded (deleteCueCommand head id))

/-- CLEAR_CUES (R57). -/
def execClearCues (head : Word) : State → Host.Outcome State Fault Refusal :=
  onPart (commanded (clearCuesCommand head))

/-! ### Island commands -/

/-- CONFIGURE_ISLAND (R90). -/
def execConfigureIsland (island address standbyPort lead tolerance policy grace : Word) :
    State → Host.Outcome State Fault Refusal :=
  onPart (commanded (configureIslandCommand island address standbyPort lead tolerance policy grace))

/-- TAKE (R93). -/
def execTake (island tag incoming mode : Word) (field : Stamp) (outCue inCue tolerance preroll : Word) :
    State → Host.Outcome State Fault Refusal :=
  onPart (commanded (takeCommand island tag incoming mode field outCue inCue tolerance preroll))

/-- CANCEL_TAKE (R94). -/
def execCancelTake (island tag : Word) : State → Host.Outcome State Fault Refusal :=
  onPart (commanded (cancelTakeCommand island tag))

/-- ABORT_TAKE (R110). -/
def execAbortTake (island : Word) : State → Host.Outcome State Fault Refusal :=
  onPart (commanded (abortTakeCommand island))

/-- STANDBY (R111). -/
def execStandby (island : Word) : State → Host.Outcome State Fault Refusal := onPart (commanded (standbyCommand island))

/-! ### Fields that are reached (log entry 2) -/

/-- START_FIELD_REACHED (R97). -/
def execStartFieldReached (island : IslandId) : State → Host.Outcome State Fault Refusal :=
  onPart (onField (startDue island) (takeStartField island))

/-- COMMIT_FIELD_REACHED (R99). -/
def execCommitFieldReached (island : IslandId) : State → Host.Outcome State Fault Refusal :=
  onPart (onField (commitDue island) (takeCommitField island))

/-- END_GUARD_REACHED (R105). -/
def execEndGuardReached (island : IslandId) : State → Host.Outcome State Fault Refusal :=
  onPart (onField (guardDue island) (takeGuard island))

/-- MOVE_DEADLINE (R103). -/
def execMoveDeadline (island : IslandId) : State → Host.Outcome State Fault Refusal :=
  onPart (onField (deadlineDue island) (takeDeadline island))

/-- POLL_COUNTDOWN_EXPIRY (R126). -/
def execPollCountdownExpiry (island : IslandId) : State → Host.Outcome State Fault Refusal :=
  onPart (onField (pollExpired island) (takePollExpiry island))

/-! ### Mirror link -/

/-- SEND_COMPLETE (R120). -/
def execSendComplete (dt : Nat) : State → Host.Outcome State Fault Refusal :=
  onPart (timed dt (fun p => p.link.sent p.time) takeSent)

/-- REPLY_MESSAGE (R121). -/
def execReplyMessage (dt : Nat) (chars : List LinkChar) : State → Host.Outcome State Fault Refusal :=
  onPart (event dt (receiveAll chars))

/-- REPLY_TIMEOUT (R123). -/
def execReplyTimeout (dt : Nat) : State → Host.Outcome State Fault Refusal :=
  onPart (timed dt (fun p => p.link.timedOut p.time) takeTimeout)

/-- GAP_END (R119). -/
def execGapEnd (dt : Nat) : State → Host.Outcome State Fault Refusal :=
  onPart (timed dt (fun p => p.link.gapOver p.time) takeGapEnd)

/-! ### Analog scanner and panel -/

/-- SCAN_START (R132). -/
def execScanStart (dt : Nat) : State → Host.Outcome State Fault Refusal := onPart (timed dt scanDue takeScan)

/-- CONVERSION_COMPLETE (R134). -/
def execConversionComplete (dt : Nat) (reading : BitVec 10) : State → Host.Outcome State Fault Refusal :=
  onPart (timed dt conversionDue (takeConversion reading.toNat))

/-- The end of a dwell; the panel is scanned in transparent mode too (R152, R163). -/
def dwellEnd (dt : Nat) (keys : BitVec 4) (p : Part) : Part :=
  let q := elapse dt p
  if dwellOver q then takeDwellEnd keys q else q

/-- DWELL_END (R152). -/
def execDwellEnd (dt : Nat) (keys : BitVec 4) : State → Host.Outcome State Fault Refusal := onPart (dwellEnd dt keys)

/-! ### The processor bus and the Memory Agent -/

/-- A moment of a processor cycle, in every mode of the part (R164). -/
def cycleMoment (dt : Nat) (phase : CyclePhase) (p : Part) : Part :=
  let q := elapse dt p
  match phase with
  | .begins c => beginCycle c q
  | .ends ack => endCycle ack q

/-- PROCESSOR_CYCLE (R171). -/
def execProcessorCycle (dt : Nat) (phase : CyclePhase) : State → Host.Outcome State Fault Refusal :=
  onPart (cycleMoment dt phase)

/-- COMMAND_PRODUCER_WRITE (R166). -/
def execCommandProducerWrite (dt : Nat) (data : Word) (low high ack : Bool) : State → Host.Outcome State Fault Refusal :=
  onPart (event dt fun p => wholeCycle (indexWrite p.bus .command 0 data low high) ack p)

/-- EVENT_CONSUMER_WRITE (R182). -/
def execEventConsumerWrite (dt : Nat) (data : Word) (low high ack : Bool) : State → Host.Outcome State Fault Refusal :=
  onPart (event dt fun p => wholeCycle (indexWrite p.bus .event 1 data low high) ack p)

/-- WITHHELD_WRITE (R167). -/
def execWithheldWrite (dt : Nat) (addr : Addr) (_data : Word) (_low _high : Bool) :
    State → Host.Outcome State Fault Refusal :=
  onPart (event dt (withhold addr))

/-- LIVE_READ (R168). -/
def execLiveRead (dt : Nat) (addr : Addr) (low high : Bool) : State → Host.Outcome State Fault Refusal :=
  onPart (event dt (answerRead addr low high))

/-- How memory ended the agent's word (R170, R172). -/
def endWord (reply : MemReply) (p : Part) : Part :=
  match reply with
  | .ack data => finishWord data p
  | .error => failWord p

/-- AGENT_WORD_END (R170). -/
def execAgentWordEnd (dt : Nat) (reply : MemReply) : State → Host.Outcome State Fault Refusal :=
  onPart (timed dt (fun p => p.agent.onPort) (endWord reply))

/-- AGENT_WORD_TIMEOUT (R172). -/
def execAgentWordTimeout (dt : Nat) : State → Host.Outcome State Fault Refusal :=
  onPart (timed dt wordTimedOut failWord)

/-- STARVE_EXPIRY (R171). -/
def execStarveExpiry (dt : Nat) : State → Host.Outcome State Fault Refusal := onPart (timed dt starveDue takeStarve)

end Sys2Proof.Machine
end

