-- ==== Sys2Proof/Machine/Idle.lean ====
section
/-! DEFINITION. What the part does when no command waits (log entry 3): the first event of its own that is due is taken,
and when none is due a crystal cycle passes. -/

namespace Sys2Proof.Machine

/-- A command that is due under a condition. -/
def dueWhen (b : Bool) (c : Instr) : List Instr := if b then [c] else []

/-- The reference events that are due. -/
def referenceDue (p : Part) : List Instr :=
  dueWhen (p.ref.expired p.time.now) (.flywheelExpiry 0) ++
  dueWhen (p.ref.windowEnded p.time.now) (.acceptanceWindowEnd 0) ++
  dueWhen (p.ref.pulseGap p.time.now) (.slewingPulseGap 0)

/-- The events of head `h` that are due. -/
def headDue (p : Part) (h : HeadId) : List Instr :=
  dueWhen (gapExpired h p) (.tachGapExpiry 0 h) ++ dueWhen (settleExpired h p) (.settleExpiry 0 h) ++
  dueWhen (speedExpired h p) (.speedTimeout 0 h) ++ dueWhen (slowStartDue h p) (.slowStart h)

/-- The fields of island `i` that are reached. -/
def fieldDue (p : Part) (i : IslandId) : List Instr :=
  dueWhen (pollExpired i p) (.pollCountdownExpiry i) ++ dueWhen (startDue i p) (.startFieldReached i) ++
  dueWhen (commitDue i p) (.commitFieldReached i) ++ dueWhen (guardDue i p) (.endGuardReached i) ++
  dueWhen (deadlineDue i p) (.moveDeadline i)

/-- The link, scan and agent events that are due. -/
def lineDue (p : Part) : List Instr :=
  dueWhen (p.link.sent p.time) (.sendComplete 0) ++ dueWhen (p.link.timedOut p.time) (.replyTimeout 0) ++
  dueWhen (p.link.gapOver p.time) (.gapEnd 0) ++ dueWhen (scanDue p) (.scanStart 0) ++
  dueWhen (wordTimedOut p) (.agentWordTimeout 0) ++ dueWhen (starveDue p) (.starveExpiry 0)

/-- The first event of the part's own that is due: no event before a valid load. -/
def nextDue (p : Part) : Option Instr :=
  if p.running then
    (referenceDue p ++ HeadId.list.flatMap (headDue p) ++ fieldDue p .i1 ++ fieldDue p .i2 ++ lineDue p).head?
  else none

end Sys2Proof.Machine
end

