-- ==== Sys2Proof/Machine/Dispatch.lean ====
section
/-! DEFINITION. The dispatch: one arm a command, each one direct call of its meaning. -/

namespace Sys2Proof.Machine

/-- The effect of a command on the machine (the queue of the commands that wait is left as it is). -/
def exec (i : Instr) (s : State) : Host.Outcome State Fault Refusal :=
  match i with
  | .powerOn => Sys2Proof.Machine.execPowerOn s
  | .resetLinePulse => Sys2Proof.Machine.execResetLinePulse s
  | .configLoadEnd dt image => Sys2Proof.Machine.execConfigLoadEnd dt image s
  | .stationPulse dt => Sys2Proof.Machine.execStationPulse dt s
  | .flywheelExpiry dt => Sys2Proof.Machine.execFlywheelExpiry dt s
  | .acceptanceWindowEnd dt => Sys2Proof.Machine.execAcceptanceWindowEnd dt s
  | .slewingPulseGap dt => Sys2Proof.Machine.execSlewingPulseGap dt s
  | .setTrim trim => Sys2Proof.Machine.execSetTrim trim s
  | .tachPulse dt head forward => Sys2Proof.Machine.execTachPulse dt head forward s
  | .tachGapExpiry dt head => Sys2Proof.Machine.execTachGapExpiry dt head s
  | .settleExpiry dt head => Sys2Proof.Machine.execSettleExpiry dt head s
  | .speedTimeout dt head => Sys2Proof.Machine.execSpeedTimeout dt head s
  | .slowStart head => Sys2Proof.Machine.execSlowStart head s
  | .cueMarkPulse dt head => Sys2Proof.Machine.execCueMarkPulse dt head s
  | .clear => Sys2Proof.Machine.execClear s
  | .ackAlarms source => Sys2Proof.Machine.execAckAlarms source s
  | .resetFlags => Sys2Proof.Machine.execResetFlags s
  | .setAnalogLimits channel low high debounce => Sys2Proof.Machine.execSetAnalogLimits channel low high debounce s
  | .setPanelMode mode dwell => Sys2Proof.Machine.execSetPanelMode mode dwell s
  | .configureHead head words => Sys2Proof.Machine.execConfigureHead head words s
  | .assignHead head island port => Sys2Proof.Machine.execAssignHead head island port s
  | .setPosition head frame => Sys2Proof.Machine.execSetPosition head frame s
  | .cueUp head form arg => Sys2Proof.Machine.execCueUp head form arg s
  | .start head => Sys2Proof.Machine.execStart head s
  | .stop head => Sys2Proof.Machine.execStop head s
  | .lamp head on => Sys2Proof.Machine.execLamp head on s
  | .clearFault head => Sys2Proof.Machine.execClearFault head s
  | .loadCue head id kind frame window correct => Sys2Proof.Machine.execLoadCue head id kind frame window correct s
  | .deleteCue head id => Sys2Proof.Machine.execDeleteCue head id s
  | .clearCues head => Sys2Proof.Machine.execClearCues head s
  | .configureIsland island address standbyPort lead tolerance policy grace => Sys2Proof.Machine.execConfigureIsland island address standbyPort lead tolerance policy grace s
  | .take island tag incoming mode field outCue inCue tolerance preroll => Sys2Proof.Machine.execTake island tag incoming mode field outCue inCue tolerance preroll s
  | .cancelTake island tag => Sys2Proof.Machine.execCancelTake island tag s
  | .abortTake island => Sys2Proof.Machine.execAbortTake island s
  | .standby island => Sys2Proof.Machine.execStandby island s
  | .startFieldReached island => Sys2Proof.Machine.execStartFieldReached island s
  | .commitFieldReached island => Sys2Proof.Machine.execCommitFieldReached island s
  | .endGuardReached island => Sys2Proof.Machine.execEndGuardReached island s
  | .moveDeadline island => Sys2Proof.Machine.execMoveDeadline island s
  | .pollCountdownExpiry island => Sys2Proof.Machine.execPollCountdownExpiry island s
  | .sendComplete dt => Sys2Proof.Machine.execSendComplete dt s
  | .replyMessage dt chars => Sys2Proof.Machine.execReplyMessage dt chars s
  | .replyTimeout dt => Sys2Proof.Machine.execReplyTimeout dt s
  | .gapEnd dt => Sys2Proof.Machine.execGapEnd dt s
  | .scanStart dt => Sys2Proof.Machine.execScanStart dt s
  | .conversionComplete dt reading => Sys2Proof.Machine.execConversionComplete dt reading s
  | .dwellEnd dt keys => Sys2Proof.Machine.execDwellEnd dt keys s
  | .processorCycle dt phase => Sys2Proof.Machine.execProcessorCycle dt phase s
  | .commandProducerWrite dt data low high ack => Sys2Proof.Machine.execCommandProducerWrite dt data low high ack s
  | .eventConsumerWrite dt data low high ack => Sys2Proof.Machine.execEventConsumerWrite dt data low high ack s
  | .withheldWrite dt addr data low high => Sys2Proof.Machine.execWithheldWrite dt addr data low high s
  | .liveRead dt addr low high => Sys2Proof.Machine.execLiveRead dt addr low high s
  | .agentWordEnd dt reply => Sys2Proof.Machine.execAgentWordEnd dt reply s
  | .agentWordTimeout dt => Sys2Proof.Machine.execAgentWordTimeout dt s
  | .starveExpiry dt => Sys2Proof.Machine.execStarveExpiry dt s

end Sys2Proof.Machine
end

