-- ==== Sys2Proof/Machine/Step.lean ====
section
/-! DEFINITION. One step of the machine: the command at the front of the queue, or what the part does by itself. -/

namespace Sys2Proof.Machine

/-- One step with no command waiting: the first event that is due, or a crystal cycle (log entry 3). -/
def idleStep (s : State) : Host.Outcome State Fault Refusal :=
  match nextDue s.part with
  | some c => exec c s
  | none => .next { s with part := crystalCycle s.part }

/-- One step: the command at the front of the queue is taken; on an empty queue the part goes on by itself. -/
def step (s : State) : Host.Outcome State Fault Refusal :=
  match s.pending with
  | c :: rest => exec c { s with pending := rest }
  | [] => idleStep s

/-- `s` with the command a word spells put at the front of the queue; `s` itself where it spells none. -/
def State.withFetchWord (s : State) (nbits w : Nat) : State :=
  match decodeTableWord nbits w with
  | some c => { s with pending := c :: s.pending }
  | none => s

end Sys2Proof.Machine
end

