-- ==== Sys2Proof/Safety.lean ====
section
/-! DEFINITION. What a statement about the part can name: the blocks a command may change (its frame), and the rules the
spec gives the whole part, which every step keeps. -/

namespace Sys2Proof.Machine

/-! ### Frames -/

/-- The pieces of the part a frame names. `decoder` is the window table, the violation record, the latch and the answer
given; `port` is the memory port; `rings` are the indices and the fetch state of the Command Unit, `status` its status
in hand. -/
inductive Block where
  | mode | time | ref
  | head (h : HeadId)
  | analog
  | island (i : IslandId)
  | link | alarms | panel | decoder | port | agent | rings | status | events | init | defaults
deriving DecidableEq, Repr

/-- Two parts agree in a piece. -/
def Block.same (p q : Part) : Block → Prop
  | .mode => p.mode = q.mode
  | .time => p.time = q.time
  | .ref => p.ref = q.ref
  | .head h => p.head h = q.head h
  | .analog => p.analog = q.analog
  | .island i => p.island i = q.island i
  | .link => p.link = q.link
  | .alarms => p.alarms = q.alarms
  | .panel => p.panel = q.panel
  | .decoder => p.bus.windows = q.bus.windows ∧ p.bus.violation = q.bus.violation ∧ p.bus.latch = q.bus.latch ∧
      p.bus.answer = q.bus.answer
  | .port => p.bus.holder = q.bus.holder ∧ p.bus.waiting = q.bus.waiting
  | .agent => p.agent = q.agent
  | .rings => p.cmd.consumer = q.cmd.consumer ∧ p.cmd.producer = q.cmd.producer ∧ p.cmd.fetch = q.cmd.fetch
  | .status => p.cmd.status = q.cmd.status
  | .events => p.evt = q.evt
  | .init => p.init = q.init
  | .defaults => p.defaults = q.defaults

/-- `q` differs from `p` in the listed pieces alone. -/
def ChangesOnly (touched : List Block) (p q : Part) : Prop := ∀ b : Block, b ∉ touched → b.same p q

/-- What posting an event may change: the event queue, and the agent and the port when the event is written at once
(R181, R182). -/
def Block.posting : List Block := [.events, .agent, .port]

/-- What raising or clearing an alarm may change (R142 to R147). -/
def Block.alarming : List Block := .alarms :: Block.posting

/-- What the Mirror Link may change when it takes a request: itself, and what posting MOVE_LATE changes (R118, R125). -/
def Block.linking : List Block := .link :: Block.posting

/-- What a change of the drive state of head `h` may change (R36, R38, R135, R136). -/
def Block.driving (h : HeadId) : List Block := .head h :: .analog :: Block.alarming

/-- What a change of island `i`'s record alone, with its events, may change. -/
def Block.taking (i : IslandId) : List Block := .island i :: Block.posting

/-- What a commit on island `i` may change (R101). -/
def Block.committing (i : IslandId) : List Block := .island i :: Block.linking

/-- What the guard of island `i` may change: a commit and its alarm (R105, R106). -/
def Block.guarding (i : IslandId) : List Block := .alarms :: Block.committing i

/-- What the Head Controllers, the Cue Table Unit and the Changeover Scheduler may change between them. -/
def Block.scheduling : List Block :=
  [.head .h1, .head .h2, .head .h3, .head .h4, .analog, .island .i1, .island .i2, .link] ++ Block.alarming

/-- What a field event may change (R3, R39, R126). -/
def Block.fielding : List Block :=
  [.time, .ref, .head .h1, .head .h2, .head .h3, .head .h4, .link] ++ Block.posting

/-- The command completes at `s` with `P` of the part after it; the commands that wait are left as they are. -/
def Completes (c : Instr) (s : State) (P : Part → Prop) : Prop := ∃ q, exec c s = .next { s with part := q } ∧ P q

/-- The command completes at `s` with a status in hand, and with `P` of the part after it. -/
def Replies (c : Instr) (s : State) (st : Status) (P : Part → Prop) : Prop :=
  Completes c s fun q => q.cmd.status = some st ∧ P q

/-- The command completes at `s` with a status in hand and changes nothing else. -/
def Refuses (c : Instr) (s : State) (st : Status) : Prop :=
  exec c s = .next { s with part := { s.part with cmd := { s.part.cmd with status := some st } } }

/-- What the Changeover Scheduler may do to a head: nothing, or, when it stands at rest, a START (R24, R97). -/
def Head.steered (x y : Head) : Prop :=
  y = x ∨ (x.drive.atRest = true ∧ y.drive = .runup ∧
    y = { x with drive := y.drive, outputs := y.outputs, lampOnAt := y.lampOnAt, gapFrom := y.gapFrom,
                 settleFrom := y.settleFrom, cueUp := y.cueUp, park := y.park, cadence := y.cadence })

/-- Every head is as the scheduler may leave it. -/
def HeadsSteered (p q : Part) : Prop := ∀ h, (p.head h).steered (q.head h)

/-- Every head but one is as the scheduler may leave it. -/
def OthersSteered (h : HeadId) (p q : Part) : Prop := ∀ k, k ≠ h → (p.head k).steered (q.head k)

/-! ### Events (chapter 12) -/

/-- The Event Unit has an event in hand and nothing waits behind it, so that what a step posts waits in the queue (R181, R182). -/
def Part.listens (p : Part) : Prop := p.evt.writing = true ∧ p.evt.queue = []

/-- Events of a source with the field count as their stamp wait in the event queue, in this order among themselves. -/
def Part.tells (p : Part) (source : AlarmSource) (items : List EventItem) : Prop :=
  (items.map fun item => ({ source := source, stamp := p.ref.count, item := item } : Event)).Sublist p.evt.queue

/-! ### Islands (chapter 6) -/

/-- The confirmation agrees with the take list: a move that a take owns is its COMMITTED front take's, to that take's
incoming source; a move made for the island goes to STANDBY (R101 to R103). -/
def Island.confirmSound (x : Island) : Bool :=
  match x.confirm with
  | none => true
  | some c =>
    match c.owner with
    | .island => decide (c.target = .standby)
    | .take => x.takes.head?.any fun t => decide (t.state = .committed) && decide (c.target = t.incoming)

/-- A source may stand for island `i`: a head only while it is assigned there (R89, R91, R93). -/
def Part.sourceSound (p : Part) (i : IslandId) : Source → Bool
  | .standby => true
  | .unknown => true
  | .head h => p.isAssigned i h

/-- What holds of an island: at most 6 takes, none but the front past QUEUED (R92); every source it names assigned to it,
and neither a take's incoming source nor the preset unknown (R89, R91, R93); front take and confirmation in agreement. -/
def Part.islandSound (p : Part) (i : IslandId) : Bool :=
  let x := p.island i
  decide (x.takes.length ≤ Config.maxTakes) && x.takes.tail.all (fun t => t.state = .queued) &&
  x.takes.all (fun t => p.sourceSound i t.incoming && decide (t.incoming ≠ .unknown)) &&
  p.sourceSound i x.onAir && p.sourceSound i x.preset && decide (x.preset ≠ .unknown) && x.confirmSound

/-- Both islands are sound. -/
def Part.islandsSound (p : Part) : Bool := p.islandSound .i1 && p.islandSound .i2

/-! ### What the scheduler does on a report (chapter 6) -/

/-- No active take waits for head `h`. -/
def Part.unplanned (p : Part) (h : HeadId) : Prop :=
  ∀ i t, (p.island i).active = some t → t.incoming ≠ .head h

/-- Head `h` is in no plan of the scheduler: no take waits on either island, and neither island has it on air or follows it
to its end. -/
def Part.uninvolved (p : Part) (h : HeadId) : Prop :=
  ∀ i, (p.island i).takes = [] ∧ (p.island i).onAir ≠ .head h ∧ ∀ r, (p.island i).fEnd = some r → r.head ≠ h

/-- A standby commit now on island `i`: STANDBY to its standby port, M fields on, for the island; the source on air stays
(R101). -/
def StandsBy (i : IslandId) (p q : Part) : Prop :=
  let x := p.island i
  let cut := p.ref.count + BitVec.ofNat 32 x.settings.lead
  (q.island i).onAir = x.onAir ∧ (q.island i).mirror = .moving x.settings.standbyPort ∧
  (q.island i).confirm = some { target := .standby, port := x.settings.standbyPort, cut := cut, owner := .island
                                deadline := cut + BitVec.ofNat 32 x.settings.grace }

/-- The mirror of island `i` is left alone: its source, its mirror state and its confirmation are as they were. -/
def MirrorKept (i : IslandId) (p q : Part) : Prop :=
  (q.island i).onAir = (p.island i).onAir ∧ (q.island i).mirror = (p.island i).mirror ∧
  (q.island i).confirm = (p.island i).confirm

/-- The field M fields before field `f` is not reached on island `i` (R4). -/
def Part.ahead (p : Part) (i : IslandId) (f : Stamp) : Prop :=
  2 ^ 31 ≤ (p.ref.count - (f - BitVec.ofNat 32 (p.island i).settings.lead)).toNat

/-- The end guard of island `i` follows head `h` or nothing, and its field is not reached (R105). -/
def Part.guardRests (p : Part) (i : IslandId) (h : HeadId) : Prop :=
  ∀ r, (p.island i).fEnd = some r → r.head = h ∧
    ∀ f, r.value = some f → p.ahead i f

/-- The cut of a take follows no cue but one ahead of head `h`, and what it may commit at is not reached: M fields before its
F_cut, and in HELD M fields before its F_sop (R99, R100). -/
def Part.cutRests (p : Part) (i : IslandId) (h : HeadId) (t : Take) : Prop :=
  (∀ r, t.cut = some r → r.head = h ∧ r.basis ≠ .reached) ∧ (∀ f, t.fCut = some f → p.ahead i f) ∧
    (∀ r, t.cut = some r → ∀ f, r.value = some f → p.ahead i f) ∧
    (t.state = .held → ∀ r, t.sop = some r → ∀ f, r.value = some f → p.ahead i f)

/-- The active take `t` of island `i` stays, uncommitted: one that was HELD is HELD, an ARMED one may have started its head, and a
STARTING or READY one has been judged again (R97, R98, R107). -/
def TakeWaits (i : IslandId) (t : Take) (q : Part) : Prop :=
  ∃ u, (q.island i).active = some u ∧ u.tag = t.tag ∧ u.incoming = t.incoming ∧
    (t.state = .held → u.state = .held) ∧ (t.state = .armed → u.state = .armed ∨ u.state = .starting) ∧
    (t.state = .starting ∨ t.state = .ready → u.state = .starting ∨ u.state = .ready)

/-- What an on-air fault of head `h` brings (R107). A move that awaits confirmation goes on. HOLD leaves the mirror alone.
Under FALLBACK, a take that can cut does so in an emergency, M fields on: one that is READY, and one in HELD, or in STARTING
and not NOW, whose incoming head is LOCKED (a NOW take is READY as its head locks, R98). With no take, with an ARMED one, or with
one whose incoming head is not LOCKED, the island stands by, and the take stays. -/
def FaultGuarded (h : HeadId) (p q : Part) : Prop :=
  ∀ i, (p.island i).onAir = .head h →
    let x := p.island i
    let cut := p.ref.count + BitVec.ofNat 32 x.settings.lead
    (x.confirm.isSome = true → MirrorKept i p q) ∧
    (x.confirm = none → x.settings.policy = .hold → x.takes = [] → p.guardRests i h → MirrorKept i p q) ∧
    (x.confirm = none → x.settings.policy = .fallback → x.takes = [] → StandsBy i p q ∧ (q.island i).takes = []) ∧
    (∀ t, x.active = some t → x.confirm = none → x.settings.policy = .fallback → p.guardRests i h → p.cutRests i h t →
      (t.state = .ready ∧ t.incoming = .standby ∨
        (∃ k, t.incoming = .head k ∧ k ≠ h ∧ (p.head k).drive = .locked) ∧
          (t.state = .ready ∨ t.state = .held ∨ t.state = .starting ∧ t.effective ≠ .now) →
        let port := p.portOf i t.incoming
        (q.island i).onAir = x.onAir ∧ (q.island i).mirror = .moving port ∧
        (q.island i).confirm = some { target := t.incoming, port := port, cut := cut, owner := .take
                                      deadline := cut + BitVec.ofNat 32 x.settings.grace } ∧
        (q.island i).active.map (fun t => (t.tag, t.state, t.outcome)) = some (t.tag, .committed, .emergency)) ∧
      (∀ k, t.incoming = .head k → k ≠ h → t.state = .armed → (p.head k).drive.running = false →
        StandsBy i p q ∧ TakeWaits i t q) ∧
      (∀ k, t.incoming = .head k → k ≠ h → t.state = .starting ∨ t.state = .held → (p.head k).drive ≠ .locked →
        StandsBy i p q ∧ (q.island i).active.map (fun t => (t.tag, t.state)) = some (t.tag, t.state)))

/-- What a stop of head `h` on air brings under either policy: the island stands by, unless a move awaits confirmation, and the
active take stays (R108). -/
def StopGuarded (h : HeadId) (p q : Part) : Prop :=
  ∀ i, (p.island i).onAir = .head h →
    let x := p.island i
    (x.confirm.isSome = true → MirrorKept i p q) ∧
    (x.confirm = none → x.takes = [] → StandsBy i p q ∧ (q.island i).takes = []) ∧
    (∀ t, x.active = some t → x.confirm = none → p.guardRests i h → p.cutRests i h t →
      (t.state = .ready ∧ t.incoming = .standby ∨
        ∃ k, t.incoming = .head k ∧ k ≠ h ∧
          (t.state = .armed ∧ (p.head k).drive.running = false ∨ t.state = .held ∨
            (t.state = .starting ∨ t.state = .ready) ∧ (t.effective ≠ .now ∨ (p.head k).drive ≠ .locked))) →
      StandsBy i p q ∧ TakeWaits i t q)

/-- A TAKE_END of take `t` waits in the event queue. -/
def Part.tellsEnd (p : Part) (i : IslandId) (t : Take) (outcome : TakeOutcome) (reason : Reason) : Bool :=
  p.evt.queue.any fun e =>
    decide (e.source = .island i) &&
      match e.item with
      | .takeEnd tag o r incoming .. => decide (tag = t.tag ∧ o = outcome ∧ r = reason ∧ incoming = t.incoming)
      | _ => false

/-- What a fault or a stop of the incoming head `h` of an active take brings: the take ends, FAILED by the reason given where
nothing else ends it first; a COMMITTED take's move proceeds (R109). Its TAKE_END is in the queue where that was empty and both
take lists are sound, so that the events of the step fit it (R181). -/
def IncomingEnds (h : HeadId) (reason : Reason) (p q : Part) : Prop :=
  ∀ i t, (p.island i).active = some t → t.incoming = .head h →
    let x := p.island i
    (t.state = .committed → x.confirm.isSome = true →
      MirrorKept i p q ∧ (q.island i).active.map (fun t => (t.tag, t.state)) = some (t.tag, .committed)) ∧
    (t.state ≠ .committed → (q.island i).takes.length < x.takes.length) ∧
    (t.state ≠ .committed → x.onAir ≠ .head h → p.guardRests i h → x.takes.length = 1 →
      MirrorKept i p q ∧ (p.evt.queue = [] → p.islandsSound = true → q.tellsEnd i t .failed reason = true))

/-- The cue of a kind for a source: of the id that is named in the head's table, else the lowest PENDING one (R96). -/
def Part.cueFor (p : Part) (kind : CueKind) (named : Option Nat) : Source → Option Cue
  | .head h => (p.head h).cues.find? fun c =>
      match named with
      | some id => decide (c.id = id)
      | none => decide (c.kind = kind) && !c.passed
  | .standby => none
  | .unknown => none

/-- The effective mode of a take of island `i` for an outgoing source: AT_FIELD while its field lies M fields ahead or more,
AT_CUE while its CHANGEOVER cue lies ahead of the outgoing head, and NOW otherwise (R95 step 5, R99). -/
def Part.modeFor (p : Part) (i : IslandId) (t : Take) (out : Source) : TakeMode :=
  match t.mode, out with
  | .atField, _ =>
    if 2 ^ 31 ≤ (p.ref.count - t.field).toNat ∧ ((p.island i).settings.lead : Int) ≤ (t.field - p.ref.count).toInt then .atField
    else .now
  | .atCue, .head h =>
    if (p.cueFor .changeover t.outCue out).any fun c => decide ((p.head h).pos.frame < c.frame) then .atCue else .now
  | .atCue, .standby => .now
  | .atCue, .unknown => .now
  | .now, _ => .now

/-- A take of STANDBY that is NOW has committed, M fields on; an AUTO take that is NOW, and that was ARMED or not yet activated,
has started its head, which stood at rest (R97, R98, R99). -/
def WorksNow (i : IslandId) (t u : Take) (p q : Part) : Prop :=
  let z := (p.island i).settings
  let cut := p.ref.count + BitVec.ofNat 32 z.lead
  (t.incoming = .standby → t.state = .queued ∨ t.state = .ready → u.state = .committed ∧
    (q.island i).confirm = some { target := .standby, port := z.standbyPort, cut := cut, owner := .take
                                  deadline := cut + BitVec.ofNat 32 z.grace }) ∧
  (∀ h, t.incoming = .head h → t.state = .queued ∨ t.state = .armed → t.preroll = .auto → (p.head h).drive.atRest = true →
    u.state = .starting ∧ u.fStart = none ∧ (q.head h).drive = .runup)

/-- What a step posts of island `i` waits in the queue, its list no longer than the part allows (R92, R181). -/
def Part.hears (p : Part) (i : IslandId) : Prop := p.listens ∧ (p.island i).takes.length ≤ Config.maxTakes

/-- What becomes of a list of QUEUED takes of island `i` as its front is activated with the outgoing source `out`: one whose
incoming source is that source, or a head in FAULT, ends FAILED and gives way to the next; the first other takes that outgoing
source, its cues, its tolerance and its effective mode, and leaves QUEUED (R92, R95, R96). -/
def Activates (i : IslandId) (out : Source) (p q : Part) : List Take → Prop
  | [] => (q.island i).takes = []
  | t :: rest =>
    let dead := t.incoming = out ∨ ∃ h, t.incoming = .head h ∧ (p.head h).drive = .fault
    let sop := p.cueFor .sop t.inCue t.incoming
    let change := p.cueFor .changeover t.outCue out
    (dead → Activates i out p q rest ∧ (p.hears i → q.tells (.island i)
      [.takeEnd t.tag .failed (if t.incoming = out then .sameSource else .incomingFault) t.incoming (some out) t.fCut t.error
        t.slip t.lost])) ∧
    (¬ dead → (q.island i).takes.tail = rest ∧ ∃ u, (q.island i).active = some u ∧ u.tag = t.tag ∧ u.incoming = t.incoming ∧
      u.outgoing = some out ∧ u.tolerance = some (t.tolerance.getD (p.island i).settings.tolerance) ∧
      u.sopCue = sop.map (fun c => ⟨c.id, c.frame⟩) ∧ u.changeCue = change.map (fun c => ⟨c.id, c.frame⟩) ∧
      u.effective = p.modeFor i t out ∧ (u.effective = .now → WorksNow i t u p q) ∧
      (p.hears i → ∃ basis cut start, q.tells (.island i)
        [.takeActive t.tag t.incoming (some out) u.effective basis (sop.map (·.id)) (change.map (·.id)) cut start]))

/-- What becomes of the takes of island `i`, all but the front QUEUED, when no move awaits any more and `out` is on air: a take in
ARMED, STARTING or READY is re-formed, or ends FAILED when its incoming source is on air; one in HELD keeps its outgoing and its
re-targeting; with no active take the front is activated (R92, R95, R96, R102, R103, R104; that the re-forming of R102 and R103
comes also where the source on air is the same as before is DEDUCED, log entry 19). -/
def TakesFollow (i : IslandId) (out : Source) (p q : Part) : List Take → Prop
  | [] => (q.island i).takes = []
  | t :: rest => (∀ u ∈ rest, u.state = .queued) →
    let change := p.cueFor .changeover t.outCue out
    (t.state = .queued → Activates i out p q (t :: rest)) ∧
    (t.state = .armed ∨ t.state = .starting ∨ t.state = .ready →
      (t.incoming = out → Activates i out p q rest ∧ (p.hears i → q.tells (.island i)
        [.takeEnd t.tag .failed .sameSource t.incoming (some out) t.fCut t.error t.slip t.lost])) ∧
      (t.incoming ≠ out → (q.island i).takes.tail = rest ∧ ∃ u, (q.island i).active = some u ∧ u.tag = t.tag ∧
        u.incoming = t.incoming ∧ u.outgoing = some out ∧ u.sopCue = t.sopCue ∧
        u.changeCue = change.map (fun c => ⟨c.id, c.frame⟩) ∧
        u.effective = (if t.effective = .now then .now else p.modeFor i t out) ∧
        (u.effective = .now → WorksNow i t u p q))) ∧
    (t.state = .held → (q.island i).takes.tail = rest ∧ ∃ u, (q.island i).active = some u ∧ u.tag = t.tag ∧
      u.outgoing = t.outgoing ∧ u.effective = t.effective ∧ (u.state = .held ∨ u.state = .committed))

/-- The table holds no active entry of an alarm (R141, R144). -/
def AlarmTable.rests (t : AlarmTable) (source : AlarmSource) (kind : AlarmKind) : Prop :=
  ∀ e, t.find? source kind = some e → e.state = .clearedNew

/-- The table shows an alarm: it holds an entry of the pair, or it has overflowed (R142, R145). -/
def AlarmTable.shows (t : AlarmTable) (source : AlarmSource) (kind : AlarmKind) : Bool :=
  t.overflow || (t.find? source kind).isSome

/-! ### The reference (chapter 1) -/

/-- `d` is the phase difference of a pulse at tick `t` (R8): its time less that of the flywheel field nearest to it, the one
taken or the expiry now due, reduced into the range above −P/2 and at most P/2. What is nearest of two equally near is not
said here (log entry 17). -/
def RefUnit.phaseIs (r : RefUnit) (t : Nat) (d : Int) : Prop :=
  let period : Int := if r.standard = .f50 then 20000 else 16683
  let taken : Int := (t : Int) - r.begun
  let due : Int := (t : Int) - (r.begun + r.length)
  0 < period + 2 * d ∧ 2 * d ≤ period ∧
    (taken.natAbs < due.natAbs → (taken - d) % period = 0) ∧ (due.natAbs < taken.natAbs → (due - d) % period = 0)

/-! ### Heads (chapters 2 to 4) -/

/-- What holds of a head between events: the motor outputs are those of its drive state (R16); FAULT has its lamp off and
a recorded kind (R17, R30); the park record and the cue-up are held in their states alone (R66); the two measurements
run in their states alone (R26, R27, R65); the Cadence Monitor measures in the running states (R38); the position lies
in its range (R18, R19). -/
def Head.sound (x : Head) : Bool :=
  decide (x.outputs = motor x.drive x.cueUp x.outputs.lamp) &&
  decide (x.fault.isSome = decide (x.drive = .fault)) && (!x.fault.isSome || !x.outputs.lamp) &&
  decide (x.park.isSome = decide (x.drive = .parked)) &&
  decide (x.cueUp.isSome = (x.drive.cueing || decide (x.drive = .settling))) &&
  decide (x.gapFrom.isSome = x.drive.driven) &&
  decide (x.settleFrom.isSome = (decide (x.drive = .settling) || decide (x.drive = .stopping))) &&
  decide (x.cadence.measuring = x.drive.running) &&
  decide (Config.frameMin ≤ x.pos.frame) && decide (x.pos.frame ≤ Config.frameMax) &&
  decide (x.pos.phase < x.settings.gauge.perfs)

/-- Every head is sound. -/
def Part.headsSound (p : Part) : Bool :=
  p.heads.h1.sound && p.heads.h2.sound && p.heads.h3.sound && p.heads.h4.sound

/-- The cues of a list stand in strictly ascending frame order (R53). -/
def ascending : List Cue → Bool
  | [] => true
  | c :: rest => rest.all (fun d => decide (c.frame < d.frame)) && ascending rest

/-- What holds of a cue table: at most 32 cues, ascending frames, no id twice, and every pass state in agreement with the
position (R53). -/
def Head.cuesSound (x : Head) : Bool :=
  decide (x.cues.length ≤ Config.maxCues) && ascending x.cues && decide (x.cues.map (·.id)).Nodup &&
  x.cues.all fun c => c.passed = decide (c.frame ≤ x.pos.frame)

/-- Every cue table is sound. -/
def Part.cuesSound (p : Part) : Bool :=
  p.heads.h1.cuesSound && p.heads.h2.cuesSound && p.heads.h3.cuesSound && p.heads.h4.cuesSound

/-! ### Alarms (chapter 9) -/

/-- What holds of the entries: at most 24, one for each pair, and none of a momentary kind in an ACTIVE state (R141,
R143). -/
def AlarmTable.sound (t : AlarmTable) : Bool :=
  decide (t.entries.length ≤ Config.maxAlarms) && decide (t.entries.map fun e => (e.source, e.kind)).Nodup &&
  t.entries.all fun e => !e.kind.momentary || decide (e.state = .clearedNew)

/-- What holds of the Alarm Table: sound entries, and the horn as R147 and R150 give it in each mode of the part. -/
def Part.alarmsSound (p : Part) : Bool :=
  p.alarms.sound &&
    match p.mode with
    | .running => p.alarms.horn = p.alarms.sounds
    | .loading => decide (p.alarms = .reset)
    | .transparent => decide (p.alarms = { AlarmTable.reset with horn := true })

/-! ### Mirror link (chapter 7) -/

/-- Every MOVE stands before every POLL (R118). -/
def movesFirst : List Entry → Bool
  | [] => true
  | e :: rest => (e.isMove || rest.all fun d => !d.isMove) && movesFirst rest

/-- What holds of an island's entries: at most two MOVEs wait, and one POLL waits or is in flight (R118, R126). -/
def LinkUnit.entriesSound (k : LinkUnit) (i : IslandId) : Bool :=
  decide ((k.queue.filter (Entry.isMoveOf i)).length ≤ 2) &&
  decide ((k.queue.filter (Entry.isPollOf i)).length + (k.flight.toList.filter fun f => f.entry.isPollOf i).length ≤ 1)

/-- What holds of the Mirror Link: at most four waiting entries, MOVEs first (R118); a transaction on the line has its
entry in flight, an entry still in flight in the GAP is a MOVE with a transaction left or one no longer counted, and an
IDLE line has nothing to send (R119, R130); the transmit enable is on, with characters to send, in SENDING alone (R115,
R120); an entry makes at most three transactions (R124). -/
def LinkUnit.sound (k : LinkUnit) : Bool :=
  decide (k.queue.length ≤ Config.maxWaiting) && movesFirst k.queue && k.entriesSound .i1 && k.entriesSound .i2 &&
  (match k.line with
   | .idle => k.flight.isNone && k.queue.isEmpty
   | .sending => k.flight.isSome
   | .awaiting => k.flight.isSome
   | .gap => k.flight.toList.all fun f => f.again || f.orphan) &&
  decide (k.transmit = decide (k.line = .sending)) && decide (k.sending.isEmpty = decide (k.line ≠ .sending)) &&
  k.flight.toList.all fun f => decide (f.tries ≤ Config.moveTries)

/-! ### The live layout (chapter 12) -/

/-- `w` bits of the live layout from bit `k` of byte `n`: four words from the even offset hold them (R168, R188). -/
def Part.liveBits (p : Part) (n k w : Nat) : Nat :=
  let word := fun j => (liveWord p (n / 2 * 2 + 2 * j)).toNat
  (word 0 + 2 ^ 16 * word 1 + 2 ^ 32 * word 2 + 2 ^ 48 * word 3) / 2 ^ (8 * (n % 2) + k) % 2 ^ w

/-- The live layout shows a value in `w` bits from bit `k` of byte `n`, limited to what they hold (R186, R188). -/
def Part.publishes (p : Part) (n k w v : Nat) : Prop := p.liveBits n k w = min v (2 ^ w - 1)

/-- The live layout shows a channel record from byte `n` (R188). -/
def Part.publishesChannel (p : Part) (n : Nat) (c : Channel) : Prop :=
  p.publishes n 0 10 c.last ∧ p.publishes n 10 10 c.limits.low ∧ p.publishes n 20 10 c.limits.high ∧
  p.publishes n 30 4 c.limits.debounce ∧ p.publishes n 34 4 c.outCount ∧ p.publishes n 38 4 c.inCount ∧
  (c.condition = none → p.publishes n 42 2 0) ∧ p.publishes n 44 1 (if c.outSide = .low then 0 else 1)

/-! ### Rings and agent (chapters 11 and 12) -/

/-- The jobs of the Command Unit, of the Event Unit, and of the initialisation, in that order of codes. -/
def Job.unit (j : Job) : Nat :=
  match j.kind with
  | .commandFetch => 0 | .statusWrite => 0 | .consumerWrite => 0
  | .eventWrite => 1 | .producerWrite => 1
  | .startupCommand => 2 | .startupEvent => 2

/-- How many jobs of a unit are submitted and not finished. -/
def Agent.count (a : Agent) (unit : Nat) : Nat := (a.jobs.filter fun j => j.unit = unit).length

/-- What holds of the jobs: none before the initialisation, one start-up read or the index writes during it, and then
one job of a unit exactly while the unit is at work (R170, R174, R176, R182). -/
def Part.jobsSound (p : Part) : Bool :=
  match p.init with
  | .waiting => p.agent.jobs.isEmpty && !p.evt.writing
  | .readCommand => decide (p.agent.jobs.map (·.kind) = [.startupCommand]) && !p.evt.writing
  | .readEvent => decide (p.agent.jobs.map (·.kind) = [.startupEvent]) && !p.evt.writing
  | .writing false false => decide (p.agent.jobs.map (·.kind) = [.consumerWrite, .producerWrite]) && !p.evt.writing
  | .writing true false => decide (p.agent.jobs.map (·.kind) = [.producerWrite]) && !p.evt.writing
  | .writing _ true => false
  | .done =>
    decide (p.agent.count 2 = 0) && decide (p.agent.count 1 = flag p.evt.writing) &&
    decide (p.agent.count 0 = flag (p.cmd.fetch ≠ .idle))

/-- What holds of the port: the agent's word is active exactly while the agent holds it, no word is ready without a job,
and a free port has nothing waiting for it (R171). -/
def Part.portSound (p : Part) : Bool :=
  decide (p.agent.onPort = decide (p.bus.holder = .agent)) &&
  decide (p.agent.jobs.isEmpty = decide (p.agent.word = .idle)) &&
  (decide (p.bus.holder ≠ .free) || (decide (p.agent.word = .idle) && p.bus.waiting.isNone))

/-- What holds of the ring indices: each lies below the size of its ring, and a size is no more than a word holds (R165, R176,
R181); before a valid load there is no window, and each is 0 (R175, R185). -/
def Part.indicesSound (p : Part) : Bool :=
  if p.init = .waiting then
    p.bus.windows.isEmpty && decide (p.cmd.consumer = 0) && decide (p.cmd.producer = 0) &&
    decide (p.evt.producer = 0) && decide (p.evt.consumer = 0)
  else
    let c := p.bus.ringSize .command
    let e := p.bus.ringSize .event
    decide (c ≤ 65535) && decide (e ≤ 65535) && decide (p.cmd.consumer < c) && decide (p.cmd.producer < c) &&
    decide (p.evt.producer < e) && decide (p.evt.consumer < e)

/-- What holds of the rings: at most 16 events wait (R181), the indices, the jobs and the port as above; before a valid load no
ring is at work, and no command is in hand before the rings are initialised (R174, R185). -/
def Part.ringsSound (p : Part) : Bool :=
  decide (p.evt.queue.length ≤ Config.maxEvents) && p.indicesSound && p.jobsSound && p.portSound &&
    (decide (p.mode = .running) || decide (p.init = .waiting)) && (decide (p.init = .done) || decide (p.cmd.fetch = .idle))

end Sys2Proof.Machine
end

