-- ==== Sys2Proof/Certificates/Slice0/Obligations.lean ====
section
/-! DEFINITION. The statements about the part, for the provers. A statement follows the numbered rules of the spec where its
docstring names them; where it says what the model chose, the docstring names the log entry.

`Completes`, `Replies` and `Refuses` (Safety.lean) all say that `exec` answers a next state whose queue is as it was. A
frame is given by `ChangesOnly`: every piece of the part outside its list is unchanged. -/

open Sys2Proof Sys2Proof.Machine

/-! ### The machine -/

/-- A step of a machine with commands waiting is `exec` of the front one on the queue's rest. -/
def Obligations.StepRunsTheFrontCommand : Prop :=
  ∀ (p : Part) (c : Instr) (rest : List Instr), step ⟨p, c :: rest⟩ = exec c ⟨p, rest⟩

/-- Every command completes in every state, and neither reads nor changes the commands that wait. -/
def Obligations.EveryCommandCompletes : Prop :=
  ∀ (c : Instr) (p : Part), ∃ q, ∀ l : List Instr, exec c ⟨p, l⟩ = .next ⟨q, l⟩

/-- With no command waiting the part takes the first event of its own that is due; when none is due a crystal cycle
passes; before a valid load none is due (the model's choice, log entry 3). -/
def Obligations.IdleStepTakesDueEvents : Prop :=
  ∀ p : Part,
    (∀ c, nextDue p = some c → step ⟨p, []⟩ = exec c ⟨p, []⟩) ∧
    (nextDue p = none → step ⟨p, []⟩ = .next ⟨crystalCycle p, []⟩) ∧
    (p.mode ≠ .running → nextDue p = none)

/-! ### Power-on and the configuration load (R173, R174) -/

/-- Power-on and the reset line put every block at its reset values with a load in progress, from any state; and what those
are where the spec gives them (R15, R37, R113, R131, R150, R151, R163, R173, R175, R185). One clause is the model's choice:
the memory port is free, a processor cycle that stood on it at a reset-line pulse being dropped (log entry 23). -/
def Obligations.PowerOnSetsTheResetValues : Prop :=
  (∀ s : State, exec .powerOn s = .next { s with part := .reset } ∧
    exec .resetLinePulse s = .next { s with part := .reset }) ∧
  State.reset = ⟨.reset, []⟩ ∧
  (let p := Part.reset
   p.mode = .loading ∧ p.init = .waiting ∧ p.time.acc = 0 ∧ p.ref.count = 0 ∧ p.ref.trim = 0 ∧ p.ref.state = .search ∧
   p.ref.period = 0 ∧
   (∀ h, (p.head h).outputs = .off ∧ (p.head h).pos = ⟨0, 0⟩ ∧ (p.head h).drive = .stopped ∧ (p.head h).cues = []) ∧
   (∀ i, (p.island i).onAir = .unknown ∧ (p.island i).takes = [] ∧ (p.island i).confirm = none) ∧
   p.link.line = .idle ∧ p.link.queue = [] ∧ p.link.flight = none ∧ p.link.transmit = false ∧ p.link.sending = [] ∧
   p.alarms = { entries := [], overflow := false, overflowHorn := false, horn := false } ∧
   (∀ r : Fin 8, p.panel.image[r] = 0 ∧ p.panel.keys[r] = ⟨⟨false, 0⟩, ⟨false, 0⟩, ⟨false, 0⟩, ⟨false, 0⟩⟩) ∧
   p.bus.windows = [] ∧ p.bus.violation = none ∧ p.bus.latch = none ∧ p.bus.holder = .free ∧ p.agent.jobs = [] ∧
   p.cmd.fetch = .idle ∧ p.evt.queue = [] ∧ p.evt.lost = false ∧ p.evt.attention = false)

/-- The end of a load. A valid image: the part runs, its blocks hold their start values with the image's settings, and the
first start-up read of the ring initialisation is with the Memory Agent. An image that fails the checks: transparent mode,
the horn on, the panel scanned, everything else as the reset left it. What an image must be to be valid, and what settings,
assignments and windows it then gives, byte by byte; that ports and addresses are compared as clamped, and that a port above 4
is 4, are the model's choices (R15, R37, R113, R131, R140, R150, R163, R165, R173, R174, R189; log entries 14 and 48). -/
def Obligations.ConfigLoadEndStartsThePart : Prop :=
  ∀ (s : State) (dt : Nat) (image : List Byte), s.part.mode = .loading →
    (∀ m, readImage (image.take 512) = some m → Completes (.configLoadEnd dt image) s fun q =>
      q.mode = .running ∧ q.time.now = s.part.time.now + dt ∧
      q.ref = { RefUnit.reset with trim := m.defaults.trim, standard := m.standard, begun := q.time.now,
                                   length := if m.standard = .f50 then 20000 else 16683 } ∧
      (∀ h, q.head h = .reset (m.defaults.heads.get h) (m.defaults.assignments.get h)) ∧
      (∀ i, q.island i = .reset (m.defaults.islands.get i)) ∧
      q.link = .reset m.line ∧ q.defaults = m.defaults ∧
      q.analog.reference = .reset m.defaults.reference ∧
      (∀ h, q.analog.lamp.get h = .reset (m.defaults.lamp.get h) ∧
        q.analog.tension.get h = .reset (m.defaults.tension.get h)) ∧
      q.analog.period = m.period ∧ q.analog.begun = q.time.now ∧ q.analog.next = 0 ∧
      q.panel.mode = m.display ∧ q.panel.dwell = m.dwell ∧ q.panel.row = 0 ∧
      q.bus.windows = m.windows ∧ q.agent.limit = m.starve ∧ q.init = .readCommand ∧
      (s.part.agent.jobs = [] → q.agent.jobs =
        [{ kind := .startupCommand, addr := BitVec.ofNat 20 (q.bus.base .command), reads := 1, data := [] }]) ∧
      q.alarms = s.part.alarms ∧ q.evt = s.part.evt ∧ q.cmd = s.part.cmd) ∧
    (readImage (image.take 512) = none → Completes (.configLoadEnd dt image) s fun q =>
      q.mode = .transparent ∧ q.time.now = s.part.time.now + dt ∧ q.alarms = { s.part.alarms with horn := true } ∧
      q.panel.dwell = 31 ∧ q.panel.mode = .feet ∧ q.panel.row = 0 ∧
      ChangesOnly [.mode, .time, .alarms, .panel] s.part q) ∧
    (let b (n : Nat) : Nat := ((image.take 512).getD n 0xFF).toNat
     let w (n : Nat) : Nat := b n + 256 * b (n + 1)
     let within (lo hi n : Nat) : Nat := max lo (min hi n)
     let n := b 4
     let base (k : Nat) : Nat := w (176 + 8 * k) + 65536 * w (178 + 8 * k)
     let size (k : Nat) : Nat := 2 ^ b (180 + 8 * k)
     let kind (k : Nat) : Nat := b (181 + 8 * k)
     let ring (k : Nat) : Nat := w (182 + 8 * k)
     let count (j : Nat) : Nat := ((List.range n).filter fun k => kind k = j).length
     let port (o h : Nat) : Nat := min 4 (b (o + 6 + h))
     let codes := (b 5 = 50 ∨ b 5 = 60) ∧ b 8 ≤ 2 ∧ b 14 ≤ 1 ∧ b 100 ≤ 1 ∧ b 112 ≤ 1 ∧
       ∀ h < 4, b (16 + 20 * h) ≤ 1 ∧ b (33 + 20 * h) ≤ 1
     let table :=
       (∀ k < n, 8 ≤ b (180 + 8 * k) ∧ b (180 + 8 * k) ≤ 16 ∧ base k % size k = 0 ∧ base k < 2 ^ 20 ∧
         (kind k = 0 ∧ ring k ∈ [8, 16, 32, 64] ∧ 16 + 32 * ring k ≤ size k ∨
          kind k = 1 ∧ ring k ∈ [16, 32, 64, 128] ∧ 16 + 16 * ring k ≤ size k ∨
          kind k = 2 ∧ ring k = 0 ∧ 2048 ≤ size k ∨ kind k = 3 ∧ ring k = 0) ∧
         ∀ j < k, base j + size j ≤ base k ∨ base k + size k ≤ base j) ∧
       count 0 = 1 ∧ count 1 = 1 ∧ count 2 = 1 ∧ count 3 ≤ 3
     let islands :=
       (∀ h < 4, port 96 h = 0 ∨ port 108 h = 0) ∧ within 1 15 (b 96) ≠ within 1 15 (b 108) ∧
       ∀ o ∈ [96, 108], ∀ h < 4, port o h ≠ 0 →
         port o h ≠ within 1 4 (b (o + 1)) ∧ ∀ j < h, port o j ≠ port o h
     ((readImage (image.take 512)).isSome = true ↔
       b 0 = 0x6E ∧ b 1 = 0x91 ∧ w 2 ≤ 512 ∧ w 2 = 176 + 8 * n ∧ codes ∧ table ∧ islands) ∧
     ∀ m, readImage (image.take 512) = some m →
       m.standard = (if b 5 = 50 then .f50 else .f60) ∧
       m.defaults.trim = max (-1000) (min 1000 (BitVec.ofNat 16 (w 6)).toInt) ∧
       m.line = { rate := if b 8 = 0 then .b9600 else if b 8 = 1 then .b19200 else .b38400, gap := b 9
                  timeout := within 2 100 (b 10), interval := within 1 50 (b 11) } ∧
       m.starve = max 8 (b 12) ∧ m.dwell = min 127 (b 13) ∧ m.display = (if b 14 = 0 then .feet else .frames) ∧
       m.period = within 5 100 (b 15) ∧
       (∀ h : HeadId,
         let o := 20 * h.num - 4
         m.defaults.heads.get h =
           { gauge := if b o = 0 then .g35 else .g16, lockCount := within 2 15 (b (o + 1))
             runupLead := within 10 1000 (w (o + 2)), runupDistance := min 240 (b (o + 4))
             runupLimit := within 20 2000 (w (o + 5)), startResponse := within 100 5000 (w (o + 7))
             lossTimeout := within 20 1000 (w (o + 9)), approach := within 4 480 (w (o + 11))
             parkTolerance := min 8 (b (o + 13)), settleTime := within 50 1000 (w (o + 14))
             sensorOffset := min 63 (b (o + 16)), lampPolicy := if b (o + 17) = 0 then .auto else .manual
             lampSettle := within 100 2000 (w (o + 18)) } ∧
         (m.defaults.assignments.get h).map (fun a => (a.island.num, a.port.num)) =
           (if port 96 (h.num - 1) ≠ 0 then some (1, port 96 (h.num - 1))
            else if port 108 (h.num - 1) ≠ 0 then some (2, port 108 (h.num - 1)) else none)) ∧
       (∀ i : IslandId,
         let o := 84 + 12 * i.num
         let z := m.defaults.islands.get i
         z.address = within 1 15 (b o) ∧ z.standbyPort.num = within 1 4 (b (o + 1)) ∧ z.lead = within 1 15 (b (o + 2)) ∧
         z.tolerance = min 8 (b (o + 3)) ∧ z.policy = (if b (o + 4) = 0 then .fallback else .hold) ∧
         z.grace = within 1 30 (b (o + 5))) ∧
       (let limits (k : Nat) (row : Limits) : Limits :=
          let o := 120 + 6 * k
          if min 1023 (w (o + 2)) < min 1023 (w o) then row
          else ⟨min 1023 (w o), min 1023 (w (o + 2)), within 1 15 (b (o + 4))⟩
        m.defaults.reference = limits 0 .reference ∧
        ∀ h : HeadId, m.defaults.lamp.get h = limits (2 * h.num - 1) .lamp ∧
          m.defaults.tension.get h = limits (2 * h.num) .tension) ∧
       m.windows.length = n ∧
       ∀ k < n, (m.windows[k]?).map (fun v => (v.base, v.log2, v.ring, v.kind)) =
         some (base k, b (180 + 8 * k), ring k,
           if kind k = 0 then .command else if kind k = 1 then .event else if kind k = 2 then .live else .guard))

/-! ### Timebase and field reference (chapter 1) -/

/-- Over any number of crystal cycles the part issues one tick for every 2^22 the accumulator gains, at 2^20 + T a cycle
(section 1.1, R1); the ticks a command lets pass are the fewest crystal cycles that issue them (log entry 1). -/
def Obligations.CrystalCyclesIssueTicks : Prop :=
  ∀ (n : Nat) (p : Part), -1000 ≤ p.ref.trim → p.ref.trim ≤ 1000 →
    (let g := (2 ^ 20 + p.ref.trim).toNat
     let q := Nat.iterate crystalCycle n p
     q.time.now = p.time.now + (p.time.acc.toNat + n * g) / 2 ^ 22 ∧
     q.time.acc.toNat = (p.time.acc.toNat + n * g) % 2 ^ 22 ∧
     q.time.crystal = p.time.crystal + n ∧ ChangesOnly [.time] p q) ∧
    ∃ k, elapse n p = Nat.iterate crystalCycle k p ∧ (elapse n p).time.now = p.time.now + n ∧
      ∀ j < k, (Nat.iterate crystalCycle j p).time.now < p.time.now + n

/-- SET_TRIM: the trim becomes the signed argument, clamped to −1,000 … +1,000 with status CLAMPED, and nothing else
changes; CLEAR makes it the stored default, and changes nothing else of the Field Reference Unit (R2). -/
def Obligations.SetTrimSetsTheTrim : Prop :=
  ∀ (s : State) (trim : Word), s.part.mode = .running →
    (-1000 ≤ trim.toInt → trim.toInt ≤ 1000 → Replies (.setTrim trim) s .ok fun q =>
      q.ref = { s.part.ref with trim := trim.toInt } ∧ ChangesOnly [.ref, .status] s.part q) ∧
    (1000 < trim.toInt → Replies (.setTrim trim) s .clamped fun q =>
      q.ref = { s.part.ref with trim := 1000 } ∧ ChangesOnly [.ref, .status] s.part q) ∧
    (trim.toInt < -1000 → Replies (.setTrim trim) s .clamped fun q =>
      q.ref = { s.part.ref with trim := -1000 } ∧ ChangesOnly [.ref, .status] s.part q) ∧
    Replies .clear s .ok fun q => q.ref = { s.part.ref with trim := s.part.defaults.trim }

/-- A station pulse in LOCKED: inside the acceptance window it is the field event and begins a flywheel field; outside
any window it is ignored (R9, with the interval of R14 and the field counting of R39). -/
def Obligations.StationPulseInLocked : Prop :=
  ∀ (s : State) (dt : Nat), s.part.mode = .running → s.part.ref.state = .locked →
    let r := s.part.ref
    let t := s.part.time.now + dt
    (r.begun + r.length ≤ t + 400 → t ≤ r.begun + r.length + 400 →
      Completes (.stationPulse dt) s fun q =>
        q.time.now = t ∧
        q.ref = { r with
          count := r.count + 1
          pattern := (r.pattern + 1) % 3
          begun := t
          length := r.standard.patternLength ((r.pattern + 1) % 3)
          raised := false
          misses := 0
          accepted := some t
          history := match r.accepted with
            | some a => ((t - a) :: r.history).take 16
            | none => r.history } ∧
        (∀ h, q.head h = { s.part.head h with cadence := (s.part.head h).cadence.field }) ∧
        ChangesOnly Block.fielding s.part q) ∧
    (¬ (r.begun + r.length ≤ t + 400 ∧ t ≤ r.begun + r.length + 400) →
      Completes (.stationPulse dt) s fun q => q.time.now = t ∧ ChangesOnly [.time] s.part q)

/-- A station pulse in SEARCH or FLYWHEEL builds the qualifying run; a pulse that makes the run 4 enters LOCKED from SEARCH,
and SLEWING or LOCKED from FLYWHEEL, LOCKED while the phase difference is at most 200 ticks. Entering LOCKED it is the field
event when the flywheel field nearest to it is the expiry now due, and no field event when it is the one already taken; from
FLYWHEEL it clears REF_LOSS. Each change of state is told by REF_STATE (R6, R7, R8, R11, R13). That the pulse taken just after
the window end that was the third miss counts too, which R9 says is ignored, is the model's choice (log entry 49), and that the
phase difference is reduced modulo the nominal length (log entry 17). -/
def Obligations.StationPulsesBuildTheRun : Prop :=
  ∀ (s : State) (dt : Nat), s.part.mode = .running → s.part.ref.state = .search ∨ s.part.ref.state = .flywheel →
    let r := s.part.ref
    let t := s.part.time.now + dt
    let period := if r.standard = .f50 then 20000 else 16683
    let regular := match r.lastPulse with
      | some l => decide (period - 400 ≤ t - l ∧ t - l ≤ period + 400)
      | none => false
    let run := if regular then min 4 (r.run + 1) else 1
    let fromTaken := ((t : Int) - r.begun).natAbs
    let fromDue := ((t : Int) - (r.begun + r.length)).natAbs
    let counted (q : Part) : Prop :=
      (fromTaken < fromDue → q.ref.count = r.count) ∧ (fromDue < fromTaken → q.ref.count = r.count + 1) ∧
      (q.ref.count = r.count ∨ q.ref.count = r.count + 1)
    (run < 4 → Completes (.stationPulse dt) s fun q =>
      q.time.now = t ∧
      q.ref = { r with run := run, lastPulse := some t, raised := r.raised || (regular && decide (2 ≤ run)) } ∧
      ChangesOnly [.time, .ref] s.part q) ∧
    (run = 4 → r.state = .search → Completes (.stationPulse dt) s fun q =>
      q.ref.state = .locked ∧ q.ref.begun = t ∧ q.ref.misses = 0 ∧ q.ref.history = [] ∧ q.ref.accepted = some t ∧
      counted q ∧ (s.part.listens → q.tells .reference [.refState .locked .search]) ∧
      ChangesOnly Block.fielding s.part q) ∧
    (run = 4 → r.state = .flywheel → Completes (.stationPulse dt) s fun q =>
      r.phaseIs t (r.phaseDiff t) ∧
      (q.ref.state = .slewing ∧ q.ref.count = r.count ∧ q.ref.begun = r.begun ∧ q.ref.length = r.length ∧
        q.ref.delta = some (r.phaseDiff t) ∧ 200 < (r.phaseDiff t).natAbs ∧
        (s.part.listens → q.tells .reference [.refState .slewing .flywheel]) ∨
       q.ref.state = .locked ∧ q.ref.begun = t ∧ (r.phaseDiff t).natAbs ≤ 200 ∧ counted q ∧
        q.alarms.rests .reference .refLoss ∧
        (s.part.listens → q.tells .reference [.refState .slewing .flywheel, .refState .locked .slewing])) ∧
      ChangesOnly (.alarms :: Block.fielding) s.part q)

/-- In SLEWING a regular pulse, which comes P less 400 to P plus 400 ticks after the one before, measures Δ, and locks when it
lies within 200 ticks, clearing REF_LOSS; an irregular one ends the return with the run at 1, and P + 400 ticks without a pulse
end it with the run at 0, both with REF_LOSS raised; each change of state is told by REF_STATE (R6, R8, R12, R13). That an
irregular pulse within 200 ticks ends the return is the model's choice (log entry 16), and that Δ is reduced modulo the nominal
length (log entry 17). -/
def Obligations.SlewingFollowsThePulses : Prop :=
  ∀ (s : State) (dt : Nat), s.part.mode = .running → s.part.ref.state = .slewing →
    let r := s.part.ref
    let t := s.part.time.now + dt
    let period := if r.standard = .f50 then 20000 else 16683
    let regular := match r.lastPulse with
      | some l => decide (period - 400 ≤ t - l ∧ t - l ≤ period + 400)
      | none => false
    r.phaseIs t (r.phaseDiff t) ∧
    (regular = true → 200 < (r.phaseDiff t).natAbs → Completes (.stationPulse dt) s fun q =>
      q.ref.state = .slewing ∧ q.ref.delta = some (r.phaseDiff t) ∧ q.ref.count = r.count ∧ q.ref.begun = r.begun ∧
      q.ref.length = r.length ∧ ChangesOnly [.time, .ref] s.part q) ∧
    (regular = true → (r.phaseDiff t).natAbs ≤ 200 → Completes (.stationPulse dt) s fun q =>
      q.ref.state = .locked ∧ q.ref.begun = t ∧ q.ref.history = [] ∧ q.ref.accepted = some t ∧ q.ref.misses = 0 ∧
      q.alarms.rests .reference .refLoss ∧ (s.part.listens → q.tells .reference [.refState .locked .slewing]) ∧
      ChangesOnly (.alarms :: Block.fielding) s.part q) ∧
    (regular = false → Completes (.stationPulse dt) s fun q =>
      q.ref.state = .flywheel ∧ q.ref.run = 1 ∧ q.ref.begun = r.begun ∧ q.ref.length = r.length ∧
      q.alarms.shows .reference .refLoss = true ∧ (s.part.listens → q.tells .reference [.refState .flywheel .slewing]) ∧
      ChangesOnly ([.time, .ref] ++ Block.alarming) s.part q) ∧
    (∀ l, r.lastPulse = some l → l + period + 400 ≤ t → Completes (.slewingPulseGap dt) s fun q =>
      q.ref = { r with state := .flywheel, run := 0, lastPulse := none, delta := none } ∧
      q.alarms.shows .reference .refLoss = true ∧ (s.part.listens → q.tells .reference [.refState .flywheel .slewing]) ∧
      ChangesOnly ([.time, .ref] ++ Block.alarming) s.part q)

/-- Fields without a pulse. A flywheel expiry outside LOCKED is a field event and begins the next field at the expiry,
lengthened in SLEWING by the latest Δ within 200 ticks; the third barren field of SEARCH enters FLYWHEEL with REF_LOSS. A
window of LOCKED that ends without a pulse: the flywheel field stands in, the next is counted from the expected time, the
interval history is emptied; the third in a row enters FLYWHEEL with the run at 0 and REF_LOSS. Each entry into FLYWHEEL is
told by REF_STATE (R5, R7, R10 to R13). -/
def Obligations.FieldsWithoutAPulse : Prop :=
  ∀ (s : State) (dt : Nat), s.part.mode = .running →
    let r := s.part.ref
    let t := s.part.time.now + dt
    (r.state ≠ .locked → r.begun + r.length ≤ t → Completes (.flywheelExpiry dt) s fun q =>
      q.ref.count = r.count + 1 ∧ q.ref.begun = r.begun + r.length ∧ q.ref.pattern = (r.pattern + 1) % 3 ∧
      (∀ h, q.head h = { s.part.head h with cadence := (s.part.head h).cadence.field }) ∧
      (∀ d, r.state = .slewing → r.delta = some d →
        (q.ref.length : Int) = r.standard.patternLength ((r.pattern + 1) % 3) + max (-200) (min 200 d)) ∧
      (r.state ≠ .slewing ∨ r.delta = none → q.ref.length = r.standard.patternLength ((r.pattern + 1) % 3)) ∧
      (r.state = .search →
        let barren := if r.raised then 0 else r.barren + 1
        q.ref.barren = barren ∧ (barren < 3 → q.ref.state = .search) ∧
        (3 ≤ barren → q.ref.state = .flywheel ∧ q.alarms.shows .reference .refLoss = true ∧
          (s.part.listens → q.tells .reference [.refState .flywheel .search]))) ∧
      (r.state ≠ .search → q.ref.state = r.state) ∧ q.ref.run = r.run ∧
      ChangesOnly (.alarms :: Block.fielding) s.part q) ∧
    (r.state = .locked → r.begun + r.length + 400 ≤ t → Completes (.acceptanceWindowEnd dt) s fun q =>
      q.ref.count = r.count + 1 ∧ q.ref.misses = r.misses + 1 ∧ q.ref.history = [] ∧
      q.ref.begun = r.begun + r.length ∧ q.ref.length = r.standard.patternLength ((r.pattern + 1) % 3) ∧
      (∀ h, q.head h = { s.part.head h with cadence := (s.part.head h).cadence.field }) ∧
      (r.misses + 1 < 3 → q.ref.state = .locked) ∧
      (3 ≤ r.misses + 1 → q.ref.state = .flywheel ∧ q.ref.run = 0 ∧ q.alarms.shows .reference .refLoss = true ∧
        (s.part.listens → q.tells .reference [.refState .flywheel .locked])) ∧
      ChangesOnly (.alarms :: Block.fielding) s.part q)

/-! ### Head Controllers (chapter 2, section 4.4) -/

/-- A tachometer pulse moves the position one perf in its direction, the phase and the frame as R18 says; at the end of the
range it is not counted and raises COUNT_LIMIT. A counted perf restarts the gap and settle measurements and ends a COUNT_LIMIT
of the other direction. Outside the running states, frame boundaries included, it takes a PARKED head to STOPPED, a leg that
has reached or passed its target to SETTLING, and a CUE_FAST leg within the approach distance to CUE_INCH; at a boundary the
pass states follow the position and the mark latch is clear; an active take that waits for a head at rest may start it. In
every state a perf that makes no boundary does nothing else. A PARKED head that is lost posts PARK_LOST, and each change of
drive state HEAD_STATE with its cause (R18 to R21, R36, R59, R64, R67, R97). -/
def Obligations.TachPulseMovesThePosition : Prop :=
  ∀ (s : State) (dt : Nat) (h : HeadId) (forward : Bool), s.part.mode = .running →
    let x := s.part.head h
    let n := x.settings.gauge.perfs
    let t := s.part.time.now + dt
    let edge : Position := if forward then ⟨999999, n - 1⟩ else ⟨-99999, 0⟩
    let next : Position :=
      if forward then (if n ≤ x.pos.phase + 1 then ⟨x.pos.frame + 1, 0⟩ else ⟨x.pos.frame, x.pos.phase + 1⟩)
      else if x.pos.phase = 0 then ⟨x.pos.frame - 1, n - 1⟩
      else ⟨x.pos.frame, x.pos.phase - 1⟩
    let moved : Head := { x with
      pos := next, gapFrom := x.gapFrom.map fun _ => t, settleFrom := x.settleFrom.map fun _ => t
      countLimit := if x.countLimit = some (if forward then .lowest else .highest) then none else x.countLimit }
    (x.pos ≠ edge → Completes (.tachPulse dt h forward) s fun q =>
      q.time.now = t ∧ (q.head h).pos = next ∧
      (q.head h).settings = x.settings ∧ (q.head h).assigned = x.assigned ∧
      (q.head h).cues.map (·.id) = x.cues.map (·.id) ∧
      OthersSteered h s.part q ∧ ChangesOnly (.time :: Block.scheduling) s.part q) ∧
    (x.pos = edge → Completes (.tachPulse dt h forward) s fun q =>
      q.time.now = t ∧
      q.head h = { x with gapFrom := x.gapFrom.map fun _ => t, settleFrom := x.settleFrom.map fun _ => t,
                          countLimit := some (if forward then .highest else .lowest) } ∧
      q.alarms.shows (.head h) .countLimit = true ∧
      ChangesOnly ([.time, .head h] ++ Block.alarming) s.part q) ∧
    (x.pos ≠ edge → next.frame = x.pos.frame → x.drive ≠ .parked → x.drive.cueing = false →
      Completes (.tachPulse dt h forward) s fun q =>
        q.head h = moved ∧ (x.countLimit = none → ChangesOnly [.time, .head h] s.part q) ∧
        ChangesOnly ([.time, .head h] ++ Block.alarming) s.part q) ∧
    (x.pos ≠ edge → x.drive.running = false → Completes (.tachPulse dt h forward) s fun q =>
      let here : Head := { moved with cues := (q.head h).cues, mark := (q.head h).mark }
      let stopped : Head := { here with
        drive := .stopped, gapFrom := none, settleFrom := none, cueUp := none, park := none
        outputs := ⟨false, false, false, false, if x.lampPolicy = .auto then false else x.outputs.lamp⟩ }
      (next.frame = x.pos.frame → (q.head h).cues = x.cues ∧ (q.head h).mark = x.mark) ∧
      (next.frame ≠ x.pos.frame →
        (q.head h).mark = none ∧ ∀ c ∈ (q.head h).cues, c.passed = decide (c.frame ≤ next.frame)) ∧
      (x.drive ≠ .parked → x.drive.cueing = false →
        here.steered (q.head h) ∧ (s.part.unplanned h → q.head h = here)) ∧
      (x.drive = .parked → stopped.steered (q.head h) ∧ (s.part.unplanned h → q.head h = stopped) ∧
        ∀ r, x.park = some r → s.part.listens →
          q.tells (.head h) [.parkLost r.position next, .headState .stopped .parked .motion next.frame]) ∧
      (∀ c, x.cueUp = some c → x.drive.cueing = true →
        let perfs : Int := next.frame * n + next.phase
        let arrived := if c.ahead then decide (c.target * n ≤ perfs) else decide (perfs ≤ c.target * n)
        let near := decide ((c.target - next.frame).natAbs ≤ x.settings.approach)
        (arrived = true → q.head h = { here with
          drive := .settling, outputs := ⟨false, false, false, false, x.outputs.lamp⟩, gapFrom := none
          settleFrom := some t, park := none } ∧
          (s.part.listens → q.tells (.head h) [.headState .settling x.drive .cueUp next.frame])) ∧
        (arrived = false → x.drive = .cueFast → near = true → q.head h = { here with
          drive := .cueInch, outputs := ⟨c.ahead, !c.ahead, false, false, x.outputs.lamp⟩, settleFrom := none
          park := none } ∧ (s.part.listens → q.tells (.head h) [.headState .cueInch .cueFast .cueUp next.frame])) ∧
        (arrived = false → x.drive = .cueInch ∨ near = false → q.head h = here)))

/-- The gap measurement of a driven head runs out, at the loss timeout in LOCKED and UNLOCKED and at the start response
otherwise: FAULT with every output off, both measurements disarmed, the cue-up abandoned, TACH_LOSS recorded and, in a sound
alarm table, shown, and HEAD_STATE posted with TACH_LOSS as its cause. On air, the fault policy acts, under FALLBACK by the
emergency commit of a take that can cut, and else by a standby commit, after which an active take waits on; as the incoming
head of an active take, it fails the take (R27, R28, R30, R36, R107, R109). -/
def Obligations.TachGapExpiryEntersFault : Prop :=
  ∀ (s : State) (dt t : Nat) (h : HeadId), s.part.mode = .running →
    let x := s.part.head h
    let limit := if x.drive = .locked ∨ x.drive = .unlocked then x.settings.lossTimeout else x.settings.startResponse
    x.gapFrom = some t → x.drive ≠ .fault → t + limit * 1000 ≤ s.part.time.now + dt →
    Completes (.tachGapExpiry dt h) s fun q =>
      (q.head h).drive = .fault ∧ (q.head h).fault = some .tachLoss ∧
      (q.head h).outputs = ⟨false, false, false, false, false⟩ ∧
      (q.head h).gapFrom = none ∧ (q.head h).settleFrom = none ∧ (q.head h).cueUp = none ∧ (q.head h).park = none ∧
      (x.drive.running = true → (q.head h).cadence.measuring = false) ∧
      (q.head h).pos = x.pos ∧ (q.head h).lampPolicy = x.lampPolicy ∧ (q.head h).settings = x.settings ∧
      (q.head h).cues = x.cues ∧ (q.head h).assigned = x.assigned ∧
      (s.part.alarms.sound = true → q.alarms.shows (.head h) .tachLoss = true) ∧
      (s.part.listens → q.tells (.head h) [.headState .fault x.drive .tachLoss x.pos.frame]) ∧
      FaultGuarded h s.part q ∧ IncomingEnds h .incomingFault s.part q ∧
      OthersSteered h s.part q ∧ ChangesOnly (.time :: Block.scheduling) s.part q

/-- The settle time runs out. In STOPPING: STOPPED, the motors off, the lamp off under AUTO. In SETTLING: PARKED within the
tolerance, a retry in CUE_INCH toward the target below three attempts, otherwise STOPPED with CUE_FAULT (shown
while the table has room for the alarms of the step). A head that so comes
to rest may be started by an active take that waits for it, and by nothing else. HEAD_STATE is posted with cause SETTLE at the
end of a stop and at PARKED, CUE_UP at a retry and at the failure (R16, R17, R26, R36, R65, R66, R97). -/
def Obligations.SettleExpiryEndsTheMotion : Prop :=
  ∀ (s : State) (dt t : Nat) (h : HeadId), s.part.mode = .running →
    let x := s.part.head h
    let lamp := if x.lampPolicy = .auto then false else x.outputs.lamp
    let stopped : Head := { x with
      drive := .stopped, outputs := ⟨false, false, false, false, lamp⟩, gapFrom := none, settleFrom := none
      cueUp := none, park := none }
    x.settleFrom = some t → t + x.settings.settleTime * 1000 ≤ s.part.time.now + dt →
    let told (q : Part) (new : DriveState) (cause : Cause) : Prop :=
      s.part.listens → q.tells (.head h) [.headState new x.drive cause x.pos.frame]
    (x.drive = .stopping → Completes (.settleExpiry dt h) s fun q =>
      stopped.steered (q.head h) ∧ (s.part.unplanned h → q.head h = stopped) ∧ told q .stopped .settle ∧
      OthersSteered h s.part q ∧ ChangesOnly (.time :: Block.scheduling) s.part q) ∧
    (∀ c, x.drive = .settling → x.cueUp = some c → Completes (.settleExpiry dt h) s fun q =>
      let error := x.pos.frame * x.settings.gauge.perfs + x.pos.phase - c.target * x.settings.gauge.perfs
      let ahead := decide (error < 0)
      let parked : Head := { x with
        drive := .parked, outputs := ⟨false, false, false, false, x.outputs.lamp⟩, gapFrom := none, settleFrom := none
        cueUp := none, park := some ⟨c.target, x.pos⟩ }
      (error.natAbs ≤ x.settings.parkTolerance →
        parked.steered (q.head h) ∧ (s.part.unplanned h → q.head h = parked) ∧ told q .parked .settle) ∧
      (x.settings.parkTolerance < error.natAbs → x.attempts < 3 → q.head h = { x with
        drive := .cueInch, outputs := ⟨ahead, !ahead, false, false, x.outputs.lamp⟩, settleFrom := none
        gapFrom := some (s.part.time.now + dt), cueUp := some ⟨c.target, ahead⟩, park := none
        attempts := x.attempts + 1 } ∧ told q .cueInch .cueUp) ∧
      (x.settings.parkTolerance < error.natAbs → 3 ≤ x.attempts →
        stopped.steered (q.head h) ∧ (s.part.unplanned h → q.head h = stopped) ∧ told q .stopped .cueUp ∧
        (s.part.alarms.entries.length ≤ 20 → q.alarms.shows (.head h) .cueFault = true)) ∧
      OthersSteered h s.part q ∧ ChangesOnly (.time :: Block.scheduling) s.part q)

/-- START: taken in STOPPED and PARKED with FWD and SYNC on, REV and SPEED off, the lamp on under AUTO, the gap measurement
armed and the Cadence Monitor given the start notice, which keeps the last boundary time (R51; R38 says otherwise: the model's
choice, log entry 10); HEAD_STATE is posted with cause COMMAND; without effect in the running states; BUSY or FAULT_LATCHED
otherwise (R24, R36, R38). -/
def Obligations.StartCommand : Prop :=
  ∀ (s : State) (w : Word) (h : HeadId), s.part.mode = .running → readHead w = some h → s.part.headLocal h = false →
    let x := s.part.head h
    let lamp := if x.lampPolicy = .auto then true else x.outputs.lamp
    (x.drive = .stopped ∨ x.drive = .parked → Replies (.start w) s .ok fun q =>
      q.head h = { x with
        drive := .runup
        outputs := ⟨true, false, false, true, lamp⟩
        lampOnAt := if lamp && !x.outputs.lamp then some s.part.time.now else x.lampOnAt
        gapFrom := some s.part.time.now
        settleFrom := none
        cueUp := none
        park := none
        cadence := { x.cadence with
          measuring := true
          startStamp := some s.part.ref.count
          startFrame := some x.pos.frame
          firstLock := false
          boundary := none
          lastLength := none
          provisional := none
          unlockStamp := none
          fields := 0
          run := 0
          phase := none
          slowStart := false } } ∧
      (s.part.listens → q.tells (.head h) [.headState .runup x.drive .command x.pos.frame]) ∧
      OthersSteered h s.part q ∧ ChangesOnly (.status :: Block.scheduling) s.part q) ∧
    (x.drive = .runup ∨ x.drive = .locked ∨ x.drive = .unlocked → Refuses (.start w) s .ok) ∧
    (x.drive = .cueFast ∨ x.drive = .cueInch ∨ x.drive = .settling ∨ x.drive = .stopping → Refuses (.start w) s .busy) ∧
    (x.drive = .fault → Refuses (.start w) s .faultLatched)

/-- STOP: from a running or a cueing state STOPPING with the motors off, the lamp as it is and the settle measurement begun;
from SETTLING the measurement goes on; without effect in STOPPING; in STOPPED, PARKED and FAULT only the lamp goes off, under
AUTO. OK in every state. HEAD_STATE is posted with cause COMMAND. The stop of a head on air commits STANDBY under either
policy, unless a move awaits, and an active take stays: ARMED with its head at rest or started, HELD, STARTING or READY; that of
the incoming head of an active take fails the take (R25, R36, R108, R109). -/
def Obligations.StopCommand : Prop :=
  ∀ (s : State) (w : Word) (h : HeadId), s.part.mode = .running → readHead w = some h → s.part.headLocal h = false →
    let x := s.part.head h
    (x.drive.running = true → Replies (.stop w) s .ok fun q =>
      q.head h = { x with drive := .stopping, outputs := ⟨false, false, false, false, x.outputs.lamp⟩, gapFrom := none,
                          settleFrom := some s.part.time.now, cueUp := none, park := none,
                          cadence := x.cadence.stopped } ∧
      (s.part.listens → q.tells (.head h) [.headState .stopping x.drive .command x.pos.frame]) ∧
      StopGuarded h s.part q ∧ IncomingEnds h .incomingStopped s.part q ∧
      OthersSteered h s.part q ∧ ChangesOnly (.status :: Block.scheduling) s.part q) ∧
    (x.drive.cueing = true ∨ x.drive = .settling → Replies (.stop w) s .ok fun q =>
      q.head h = { x with drive := .stopping, outputs := ⟨false, false, false, false, x.outputs.lamp⟩, gapFrom := none,
                          settleFrom := if x.drive = .settling then x.settleFrom else some s.part.time.now,
                          cueUp := none, park := none } ∧
      (s.part.listens → q.tells (.head h) [.headState .stopping x.drive .command x.pos.frame]) ∧
      OthersSteered h s.part q ∧ ChangesOnly (.status :: Block.scheduling) s.part q) ∧
    (x.drive = .stopping → Refuses (.stop w) s .ok) ∧
    (x.drive = .stopped ∨ x.drive = .parked ∨ x.drive = .fault → Replies (.stop w) s .ok fun q =>
      q.head h = { x with outputs := { x.outputs with
        lamp := if x.lampPolicy = .auto then false else x.outputs.lamp } } ∧
      ChangesOnly ([.status, .head h, .analog] ++ Block.alarming) s.part q)

/-- LAMP: in every state but FAULT the lamp is set as given under policy MANUAL, a switch-on records its time; in FAULT
FAULT_LATCHED; a value that is neither is BAD_ARGUMENT (1 for on and 0 for off are the model's choice, log entry 8; that the
setting keeps its policy, log entry 41). It is taken under either authority. CLEAR_FAULT: in FAULT it is refused
CONDITION_PRESENT while a tension condition of the head is present; otherwise the head is STOPPED with the motors off, the
lamp off under AUTO, and no fault kind, HEAD_STATE is posted, and its three latched alarms are no longer active; an active take
that waits for it may start it at once. In any other state it completes OK without effect (R23, R31, R32, R36, R97, R144). -/
def Obligations.LampAndClearFault : Prop :=
  ∀ (s : State) (w on : Word) (h : HeadId), s.part.mode = .running → readHead w = some h →
    let x := s.part.head h
    let lamp := if x.lampPolicy = .auto then false else x.outputs.lamp
    let stopped : Head := { x with
      drive := .stopped, outputs := ⟨false, false, false, false, lamp⟩, fault := none, gapFrom := none, settleFrom := none
      cueUp := none, park := none }
    (∀ b, readFlag on = some b → x.drive ≠ .fault → Replies (.lamp w on) s .ok fun q =>
      q.head h = { x with lampPolicy := .manual, outputs := { x.outputs with lamp := b },
                          lampOnAt := if b && !x.outputs.lamp then some s.part.time.now else x.lampOnAt } ∧
      ChangesOnly ([.status, .head h, .analog] ++ Block.alarming) s.part q) ∧
    (∀ b, readFlag on = some b → x.drive = .fault → Refuses (.lamp w on) s .faultLatched) ∧
    (readFlag on = none → Refuses (.lamp w on) s .badArgument) ∧
    (x.drive ≠ .fault → Refuses (.clearFault w) s .ok) ∧
    (x.drive = .fault → (s.part.analog.tension.get h).condition.isSome = true →
      Refuses (.clearFault w) s .conditionPresent) ∧
    (x.drive = .fault → (s.part.analog.tension.get h).condition = none → Replies (.clearFault w) s .ok fun q =>
      stopped.steered (q.head h) ∧ (s.part.unplanned h → q.head h = stopped) ∧
      (∀ k : FaultKind, q.alarms.rests (.head h) k.alarm) ∧
      (s.part.listens → q.tells (.head h) [.headState .stopped .fault .command x.pos.frame]) ∧
      OthersSteered h s.part q ∧ ChangesOnly (.status :: Block.scheduling) s.part q)

/-- SET_POSITION: a frame outside the range is BAD_ARGUMENT; in STOPPED and PARKED the position is the frame with phase 0,
the drive state is kept, the parked frame follows, the latch is clear, every pass state agrees with the position; a COUNT_LIMIT
ends, but where the position is left at the limit at which it was raised; an active take that waits for the head may start it at
once; BUSY in every other state (R19, R33, R59, R66, R67). That the latch is clear also
where the position was the frame with phase 0 already, and nothing moved, is the model's choice (log entry 58). -/
def Obligations.SetPositionCommand : Prop :=
  ∀ (s : State) (w : Word) (f : BitVec 32) (h : HeadId), s.part.mode = .running → readHead w = some h →
    s.part.headLocal h = false →
    let x := s.part.head h
    (f.toInt < -99999 ∨ 999999 < f.toInt → Refuses (.setPosition w f) s .badArgument) ∧
    (-99999 ≤ f.toInt → f.toInt ≤ 999999 → x.drive ≠ .stopped → x.drive ≠ .parked →
      Refuses (.setPosition w f) s .busy) ∧
    (-99999 ≤ f.toInt → f.toInt ≤ 999999 → x.drive = .stopped ∨ x.drive = .parked →
      Replies (.setPosition w f) s .ok fun q =>
        let stays := decide (x.countLimit = some .lowest ∧ f.toInt = -99999 ∨
          x.countLimit = some .highest ∧ f.toInt = 999999 ∧ x.settings.gauge.perfs = 1)
        let placed : Head := { x with
          pos := ⟨f.toInt, 0⟩, park := if x.drive = .parked then some ⟨f.toInt, ⟨f.toInt, 0⟩⟩ else x.park
          cues := (q.head h).cues, mark := none, countLimit := if stays then x.countLimit else none }
        (x.countLimit.isSome = true → stays = false → q.alarms.rests (.head h) .countLimit) ∧
        (stays = true → s.part.alarms.entries.length ≤ 20 →
          q.alarms.find? (.head h) .countLimit = s.part.alarms.find? (.head h) .countLimit) ∧
        placed.steered (q.head h) ∧ (s.part.unplanned h → q.head h = placed) ∧
        (q.head h).cues.map (·.id) = x.cues.map (·.id) ∧
        (∀ c ∈ (q.head h).cues, c.passed = decide (c.frame ≤ f.toInt)) ∧
        OthersSteered h s.part q ∧ ChangesOnly (.status :: Block.scheduling) s.part q)

/-- ASSIGN_HEAD: an island above 2, or a port outside 1 to 4 of an island, is BAD_ARGUMENT; then it is refused ON_AIR,
IN_USE and PORT_TAKEN in that order; otherwise the assignment is the one named, none for island 0; a preset whose head has
left the island becomes STANDBY (R23, R34, R91, R180). -/
def Obligations.AssignHeadCommand : Prop :=
  ∀ (s : State) (w island port : Word) (h : HeadId), s.part.mode = .running →
    readHead w = some h → s.part.headLocal h = false → (∀ i, readIsland island = some i → s.part.inLocal i = false) →
    let x := s.part.head h
    let bad := 2 < island.toNat ∨ island ≠ 0 ∧ (port = 0 ∨ 4 < port.toNat)
    let a : Option Assignment := if island = 0 then none else some
      { island := if island = 1 then .i1 else .i2
        port := if port = 1 then .p1 else if port = 2 then .p2 else if port = 3 then .p3 else .p4 }
    let onAir := ∃ i, (s.part.island i).onAir = .head h
    let named := ∃ i, ∃ t ∈ (s.part.island i).takes, t.incoming = .head h
    let taken := ∃ b, a = some b ∧
      ((s.part.island b.island).settings.standbyPort = b.port ∨ ∃ k, k ≠ h ∧ (s.part.head k).assigned = some b)
    (bad → Refuses (.assignHead w island port) s .badArgument) ∧
    (¬ bad → onAir → Refuses (.assignHead w island port) s .onAir) ∧
    (¬ bad → ¬ onAir → named → Refuses (.assignHead w island port) s .inUse) ∧
    (¬ bad → ¬ onAir → ¬ named → taken → Refuses (.assignHead w island port) s .portTaken) ∧
    (¬ bad → ¬ onAir → ¬ named → ¬ taken → Replies (.assignHead w island port) s .ok fun q =>
      q.head h = { x with assigned := a } ∧
      (∀ i, (s.part.island i).preset = .head h → (∀ b, a = some b → b.island ≠ i) → (q.island i).preset = .standby) ∧
      OthersSteered h s.part q ∧ ChangesOnly (.status :: Block.scheduling) s.part q)

/-- CONFIGURE_HEAD: an unknown gauge or lamp policy is BAD_ARGUMENT, and then BUSY outside STOPPED, PARKED and FAULT;
otherwise each of the thirteen settings takes the value of its word, the gauge the low and the lamp policy the high byte of
the first, clamped to its range, with status CLAMPED when one was; a change of gauge sets the phase to 0 and takes a PARKED
head to STOPPED; the lamp is not switched but by that entry into STOPPED; an active take that waits for the head may start
it. The ring's entry of the command has the head in word 1 and the settings in words 3 to 14, in their order (R23, R35, R97,
R180); a PARKED head so stopped posts HEAD_STATE (R36). Two clauses are the model's choice: a change of gauge keeps the
COUNT_LIMIT record (log entry 33), and clears the mark latch also where the phase was 0 already and the position does not move
(log entry 58). -/
def Obligations.ConfigureHeadCommand : Prop :=
  ∀ (s : State) (w : Word) (ws : HeadWords) (h : HeadId), s.part.mode = .running →
    readHead w = some h →
    let x := s.part.head h
    let gauge := ws.gaugePolicy.toNat % 256
    let policy := ws.gaugePolicy.toNat / 256
    let bad := 1 < gauge ∨ 1 < policy
    let c : HeadSettings :=
      { gauge := if gauge = 0 then .g35 else .g16, lampPolicy := if policy = 0 then .auto else .manual
        lockCount := ws.lockCount.toNat, runupLead := ws.runupLead.toNat, runupDistance := ws.runupDistance.toNat
        runupLimit := ws.runupLimit.toNat, startResponse := ws.startResponse.toNat, lossTimeout := ws.lossTimeout.toNat
        approach := ws.approach.toNat, parkTolerance := ws.parkTolerance.toNat, settleTime := ws.settleTime.toNat
        sensorOffset := ws.sensorOffset.toNat, lampSettle := ws.lampSettle.toNat }
    let d : HeadSettings :=
      { gauge := c.gauge
        lockCount := max 2 (min 15 c.lockCount)
        runupLead := max 10 (min 1000 c.runupLead)
        runupDistance := min 240 c.runupDistance
        runupLimit := max 20 (min 2000 c.runupLimit)
        startResponse := max 100 (min 5000 c.startResponse)
        lossTimeout := max 20 (min 1000 c.lossTimeout)
        approach := max 4 (min 480 c.approach)
        parkTolerance := min 8 c.parkTolerance
        settleTime := max 50 (min 1000 c.settleTime)
        sensorOffset := min 63 c.sensorOffset
        lampPolicy := c.lampPolicy
        lampSettle := max 100 (min 2000 c.lampSettle) }
    (bad → Refuses (.configureHead w ws) s .badArgument) ∧
    (¬ bad → x.drive ≠ .stopped → x.drive ≠ .parked → x.drive ≠ .fault → Refuses (.configureHead w ws) s .busy) ∧
    (∀ (v : Nat → Word) (p : Part), (v 0).toNat % 256 = 0x10 → v 1 = w →
      ws = ⟨v 3, v 4, v 5, v 6, v 7, v 8, v 9, v 10, v 11, v 12, v 13, v 14⟩ → runEntry v p = configureHeadCommand w ws p) ∧
    (¬ bad → x.drive = .stopped ∨ x.drive = .parked ∨ x.drive = .fault →
      Replies (.configureHead w ws) s (if d = c then .ok else .clamped) fun q =>
        let same : Head := { x with settings := d, lampPolicy := c.lampPolicy }
        let changed : Head := { same with pos := ⟨x.pos.frame, 0⟩, mark := none, cues := (q.head h).cues }
        (x.settings.gauge = c.gauge → same.steered (q.head h) ∧ (s.part.unplanned h → q.head h = same)) ∧
        (x.settings.gauge ≠ c.gauge → (q.head h).cues.map (·.id) = x.cues.map (·.id) ∧
          (x.drive ≠ .parked → changed.steered (q.head h) ∧ (s.part.unplanned h → q.head h = changed)) ∧
          (x.drive = .parked → (q.head h).settings = d ∧ (q.head h).lampPolicy = c.lampPolicy ∧
            (q.head h).pos = ⟨x.pos.frame, 0⟩ ∧ (q.head h).park = none ∧
            (s.part.listens → q.tells (.head h) [.headState .stopped .parked .command x.pos.frame]) ∧
            (s.part.unplanned h → (q.head h).drive = .stopped))) ∧
        OthersSteered h s.part q ∧ ChangesOnly (.status :: Block.scheduling) s.part q)

/-- CUE_UP to a target frame, from STOPPED or PARKED: exactly there, PARKED with the park record; else CUE_FAST beyond the
approach distance and CUE_INCH within it, toward the target, attempt 1, the gap measurement armed. TO_CUE aims R_h below
the cue, and refuses a cue that is not there, any id above 255 among them (the model's choice, log entry 28); an unknown form
is refused; an active take that waits for a head so parked may start it. A change of drive state posts HEAD_STATE with cause
COMMAND (R36, R62, R63, R66, R97). -/
def Obligations.CueUpCommand : Prop :=
  ∀ (s : State) (w form : Word) (arg : BitVec 32) (h : HeadId), s.part.mode = .running →
    readHead w = some h → s.part.headLocal h = false →
    let x := s.part.head h
    let cue := findCue x.cues (arg.toNat % 65536)
    let target : Option Int := match form.toNat with
      | 0 => some arg.toInt
      | 1 => some (x.pos.frame + arg.toInt)
      | 2 => cue.map fun c => c.frame - x.settings.runupDistance
      | _ => none
    (2 < form.toNat → Refuses (.cueUp w form arg) s .badArgument) ∧
    (form = 2 → x.drive.atRest = false → Refuses (.cueUp w form arg) s .busy) ∧
    (form = 2 → cue = none → x.drive.atRest = true → Refuses (.cueUp w form arg) s .notFound) ∧
    (∀ f, target = some f →
      (form ≠ 2 → f < -99999 ∨ 999999 < f → Refuses (.cueUp w form arg) s .badArgument) ∧
      (form ≠ 2 → -99999 ≤ f → f ≤ 999999 → x.drive.atRest = false → Refuses (.cueUp w form arg) s .busy) ∧
      (form = 2 → f < -99999 → x.drive.atRest = true → Refuses (.cueUp w form arg) s .badArgument) ∧
      (-99999 ≤ f → f ≤ 999999 → x.drive.atRest = true → Replies (.cueUp w form arg) s .ok fun q =>
        let ahead := decide (x.pos.frame * x.settings.gauge.perfs + x.pos.phase < f * x.settings.gauge.perfs)
        let far := decide (x.settings.approach < (f - x.pos.frame).natAbs)
        let parked : Head := { x with drive := .parked, park := some ⟨f, x.pos⟩, attempts := 0 }
        (x.pos = ⟨f, 0⟩ → x.sound = true → parked.steered (q.head h) ∧ (s.part.unplanned h → q.head h = parked)) ∧
        (x.pos = ⟨f, 0⟩ → x.drive = .stopped → s.part.listens →
          q.tells (.head h) [.headState .parked .stopped .command f]) ∧
        (x.pos ≠ ⟨f, 0⟩ → q.head h = { x with
          drive := if far then .cueFast else .cueInch, outputs := ⟨ahead, !ahead, far, false, x.outputs.lamp⟩
          attempts := 1, cueUp := some ⟨f, ahead⟩, park := none, gapFrom := some s.part.time.now
          settleFrom := none } ∧ (s.part.listens → q.tells (.head h)
            [.headState (if far then .cueFast else .cueInch) x.drive .command x.pos.frame])) ∧
        (q.head h).pos = x.pos ∧ (q.head h).settings = x.settings ∧ (q.head h).cues = x.cues ∧
        OthersSteered h s.part q ∧ ChangesOnly (.status :: Block.scheduling) s.part q))

/-- Every head command names its head by number: any other is BAD_TARGET. START, STOP, CUE_UP, SET_POSITION and ASSIGN_HEAD
are refused LOCAL while the head is assigned to an island in LOCAL, and change nothing (R23). -/
def Obligations.HeadCommandsCheckTargetAndAuthority : Prop :=
  ∀ (s : State) (w a b : Word) (f : BitVec 32) (ws : HeadWords), s.part.mode = .running →
    (w.toNat = 0 ∨ 4 < w.toNat →
      Refuses (.start w) s .badTarget ∧ Refuses (.stop w) s .badTarget ∧ Refuses (.cueUp w a f) s .badTarget ∧
      Refuses (.setPosition w f) s .badTarget ∧ Refuses (.assignHead w a b) s .badTarget ∧
      Refuses (.lamp w a) s .badTarget ∧ Refuses (.configureHead w ws) s .badTarget ∧
      Refuses (.clearFault w) s .badTarget ∧ Refuses (.loadCue w a b f a b) s .badTarget ∧
      Refuses (.deleteCue w a) s .badTarget ∧ Refuses (.clearCues w) s .badTarget) ∧
    (∀ h, readHead w = some h → ∀ i, (s.part.head h).assigned.map (·.island) = some i →
      (s.part.island i).authority = .panel →
      Refuses (.start w) s .localAuthority ∧ Refuses (.stop w) s .localAuthority ∧
      Refuses (.cueUp w a f) s .localAuthority ∧ Refuses (.setPosition w f) s .localAuthority ∧
      Refuses (.assignHead w a b) s .localAuthority) ∧
    (∀ h, readHead w = some h → ∀ i, readIsland a = some i → (s.part.island i).authority = .panel →
      Refuses (.assignHead w a b) s .localAuthority)

/-- What is done to a head that stands in no plan of the scheduler, while no end guard is due, stays with it: START, STOP,
CUE_UP, CLEAR_FAULT and the two expiries change the head, the analog scanner's view of it, and alarms and events, and neither
another head, nor an island, nor the mirror link (R24, R25, R28, R31, R62, R65). A guard that an earlier field has reached may
be met in any such step (the model's choice, log entry 2). -/
def Obligations.HeadOutOfPlan : Prop :=
  ∀ (s : State) (dt : Nat) (w form : Word) (arg : BitVec 32) (h : HeadId), s.part.mode = .running → readHead w = some h →
    s.part.uninvolved h → (∀ i, guardDue i s.part = false) →
    (∀ c ∈ [Instr.start w, .stop w, .cueUp w form arg, .clearFault w], Completes c s fun q =>
      ChangesOnly (.status :: Block.driving h) s.part q) ∧
    (∀ c ∈ [Instr.tachGapExpiry dt h, .settleExpiry dt h], Completes c s fun q =>
      ChangesOnly (.time :: Block.driving h) s.part q)

/-! ### Cadence Monitor (chapter 3) -/

/-- A second after the last running boundary the speed is 0 and the boundary time absent; a head still in RUNUP more than
its run-up limit of fields after the start stamp has SLOW_START (R49, R51). -/
def Obligations.CadenceTimers : Prop :=
  ∀ (s : State) (dt : Nat) (h : HeadId), s.part.mode = .running →
    let x := s.part.head h
    let c := x.cadence
    (∀ t, c.lastTime = some t → t + 1000000 ≤ s.part.time.now + dt → Completes (.speedTimeout dt h) s fun q =>
      q.time.now = s.part.time.now + dt ∧ q.head h = { x with cadence := { c with speed := 0, lastTime := none } } ∧
      ChangesOnly [.time, .head h] s.part q) ∧
    (∀ b, c.startStamp = some b → x.settings.runupLimit < (s.part.ref.count - b).toNat →
      (s.part.ref.count - b).toNat < 2 ^ 31 → x.drive = .runup → c.measuring = true → c.slowStart = false →
      Completes (.slowStart h) s fun q =>
        q.head h = { x with cadence := { c with slowStart := true } } ∧ q.alarms.shows (.head h) .slowStart = true ∧
        ChangesOnly (.head h :: Block.alarming) s.part q)

/-- How a frame of `c.fields` fields is judged on each cadence: conforming, the second of a pair, provisional with its
deviation, or nonconforming; and what each verdict leaves of the run, the provisional record and the phase. A first boundary
judges nothing. The speed at a boundary is 100,000,000 over the ticks since the last boundary time, rounded half up, at most
9,999, and it is kept when no last boundary time is held (R40 to R46, R51). -/
def Obligations.FramesAreJudged : Prop :=
  ∀ (c : Cadence) (standard : Standard) (count : Stamp) (t : Nat),
    let r := c.boundaryAt standard count t
    let n := c.fields
    let e := match standard with
      | .f50 => some 2
      | .f60 => c.phase
    (r.1.boundary = some count ∧ r.1.fields = 0 ∧ r.1.lastTime = some t) ∧
    (c.lastTime = none → r.1.speed = c.speed) ∧
    (∀ l, c.lastTime = some l → l < t →
      let period := t - l
      ∀ v, 2 * v * period ≤ 200000000 + period → 200000000 + period < 2 * (v + 1) * period → r.1.speed = min 9999 v) ∧
    (c.boundary = none → r.2 = none ∧ r.1.run = c.run ∧ r.1.phase = c.phase ∧ r.1.provisional = c.provisional) ∧
    (c.boundary.isSome = true → (∀ x, e = some x → x = 2 ∨ x = 3) →
      r.1.lastLength = some n ∧
      (c.provisional = none → e = none → n = 2 ∨ n = 3 → r.2 = some .conforming ∧ r.1.phase = some (5 - n)) ∧
      (c.provisional = none → e = none → n ≠ 2 → n ≠ 3 → r.2 = some (.nonconforming false)) ∧
      (∀ x, e = some x →
        (c.provisional = none → n = x → r.2 = some .conforming) ∧
        (c.provisional = none → n = x + 1 → standard = .f50 ∨ n = 3 → r.2 = some (.provisional .plus)) ∧
        (c.provisional = none → n + 1 = x → standard = .f50 ∨ n = 2 → r.2 = some (.provisional .minus)) ∧
        (c.provisional = none → standard = .f60 → n < 2 ∨ 3 < n → r.2 = some (.nonconforming false)) ∧
        (c.provisional = none → n + 1 < x ∨ x + 1 < n → r.2 = some (.nonconforming false)) ∧
        (c.provisional = some .plus → n + 1 = x → standard = .f50 ∨ n = 2 → r.2 = some .pair) ∧
        (c.provisional = some .minus → n = x + 1 → standard = .f50 ∨ n = 3 → r.2 = some .pair) ∧
        (c.provisional = some .plus → n + 1 ≠ x → r.2 = some (.nonconforming true)) ∧
        (c.provisional = some .minus → n ≠ x + 1 → r.2 = some (.nonconforming true)) ∧
        ((∀ u, r.2 ≠ some (.nonconforming u)) → standard = .f60 → r.1.phase = some (5 - x))) ∧
      (r.2 = some .conforming → r.1.run = min 255 (c.run + 1) ∧ r.1.provisional = none) ∧
      (r.2 = some .pair → r.1.run = min 255 (c.run + 2) ∧ r.1.provisional = none) ∧
      (∀ d ∈ [Deviation.plus, .minus], r.2 = some (.provisional d) → r.1.run = c.run ∧ r.1.provisional = some d) ∧
      (∀ u ∈ [true, false], r.2 = some (.nonconforming u) →
        r.1.run = 0 ∧ r.1.provisional = none ∧ r.1.phase = none))

/-- A forward frame boundary in a running state, at a frame where no cue is pending. The run reaching the lock count outside
LOCKED locks the head, the first lock recording the run-up; a nonconforming frame in LOCKED unlocks it, with LOCK_LOSS when
it is on air (shown while the table has room for the alarms of the step); otherwise the drive state stands. HEAD_STATE is
posted with cause CADENCE, and after it LOCK with the run-up, or of a relock with the fields since the unlock, and UNLOCK with
the measured and the expected length. The speed is that of the boundary's tick, which is the new last boundary time (R36, R45 to
R48, R50, R51). -/
def Obligations.BoundaryLocksAndUnlocks : Prop :=
  ∀ (s : State) (dt : Nat) (h : HeadId), s.part.mode = .running →
    let x := s.part.head h
    let c := x.cadence
    let t := s.part.time.now + dt
    let count := s.part.ref.count
    let r := c.boundaryAt s.part.ref.standard count t
    let locks := decide (r.2 = some .conforming ∨ r.2 = some .pair) && decide (x.settings.lockCount ≤ r.1.run) &&
      decide (x.drive ≠ .locked)
    let unlocks := decide (x.drive = .locked) &&
      (decide (r.2 = some (.nonconforming true)) || decide (r.2 = some (.nonconforming false)))
    x.drive.running = true → x.settings.gauge.perfs ≤ x.pos.phase + 1 → x.pos.frame < 999999 →
    (∀ d ∈ x.cues, d.frame = x.pos.frame + 1 → d.passed = true) →
    Completes (.tachPulse dt h true) s fun q =>
      (q.head h).pos = ⟨x.pos.frame + 1, 0⟩ ∧ (q.head h).settings = x.settings ∧
      (q.head h).cadence.boundary = some count ∧ (q.head h).cadence.fields = 0 ∧ (q.head h).cadence.run = r.1.run ∧
      (q.head h).cadence.phase = r.1.phase ∧ (q.head h).cadence.provisional = r.1.provisional ∧
      (q.head h).cadence.speed = r.1.speed ∧ (q.head h).cadence.lastTime = some t ∧
      (locks = true → (q.head h).drive = .locked ∧ (q.head h).cadence.firstLock = true ∧
        (c.firstLock = false → ∀ b, c.startStamp = some b → ∀ f, c.startFrame = some f →
          (q.head h).cadence.lastRunup = some ⟨(count - b).toInt, x.pos.frame + 1 - f⟩ ∧
          (s.part.listens → q.tells (.head h) [.headState .locked x.drive .cadence (x.pos.frame + 1),
            .lock .first (some (x.pos.frame + 1 - f)) (count - b).toInt (x.pos.frame + 1)])) ∧
        (c.firstLock = true → (q.head h).cadence.lastRunup = c.lastRunup ∧
          ∀ b, c.unlockStamp = some b → s.part.listens → q.tells (.head h)
            [.headState .locked x.drive .cadence (x.pos.frame + 1),
             .lock .relock none (count - b).toInt (x.pos.frame + 1)])) ∧
      (unlocks = true → (q.head h).drive = .unlocked ∧ (q.head h).cadence.unlockStamp = some count ∧
        (s.part.listens → q.tells (.head h) [.headState .unlocked .locked .cadence (x.pos.frame + 1),
          .unlock (decide (r.2 = some (.nonconforming true))) c.fields
            (if s.part.ref.standard = .f50 then some 2 else c.phase) (x.pos.frame + 1)]) ∧
        (s.part.alarms.entries.length ≤ 20 → ∀ i, (s.part.island i).onAir = .head h →
          q.alarms.shows (.head h) .lockLoss = true)) ∧
      (locks = false → unlocks = false → (q.head h).drive = x.drive ∧ (q.head h).cadence = r.1) ∧
      OthersSteered h s.part q ∧ ChangesOnly (.time :: Block.scheduling) s.part q

/-! ### Cue tables and marks (chapter 4) -/

/-- LOAD_CUE: its checks in order, and then the cue in the table with its pass state from the position, confirm state NONE and
the window at most 15; the table keeps its rules (that correct is 1 for yes and a value above 1 is BAD_ARGUMENT is the model's
choice, log entry 8). DELETE_CUE takes out the cue of the id, and CLEAR_CUES every cue, unless a take names it: by its incoming
cue id, by its outgoing cue id, which stands for every head of the island while the take is QUEUED, or as the SOP or CHANGEOVER
cue it has chosen; the rest of the head is as it was (R53 to R57). -/
def Obligations.CueTableCommands : Prop :=
  ∀ (s : State) (w id kind : Word) (frame : BitVec 32) (window correct : Word) (h : HeadId), s.part.mode = .running →
    readHead w = some h →
    let x := s.part.head h
    let bad := 255 < id.toNat ∨ 4 < kind.toNat ∨ 1 < correct.toNat ∨ frame.toInt < -99999 ∨ 999999 < frame.toInt
    let double := ∃ c ∈ x.cues, c.id = id.toNat ∨ c.frame = frame.toInt
    let here := ∃ c ∈ x.cues, c.id = id.toNat
    let named (id : Nat) : Prop := ∃ i, ∃ t ∈ (s.part.island i).takes,
      t.incoming = .head h ∧ t.inCue = some id ∨
      t.state = .queued ∧ t.outCue = some id ∧ x.assigned.map (·.island) = some i ∨
      t.state ≠ .queued ∧ t.outgoing = some (.head h) ∧ (t.outCue = some id ∨ t.changeCue.map (·.id) = some id) ∨
      t.state ≠ .queued ∧ t.incoming = .head h ∧ t.sopCue.map (·.id) = some id
    let cmd := Instr.loadCue w id kind frame window correct
    (bad → Refuses cmd s .badArgument) ∧
    (¬ bad → double → Refuses cmd s .duplicate) ∧
    (¬ bad → ¬ double → 32 ≤ x.cues.length → Refuses cmd s .tableFull) ∧
    (¬ bad → ¬ double → x.cues.length < 32 → ∀ k, readCueKind kind = some k →
      Replies cmd s (if 15 < window.toNat then .clamped else .ok) fun q =>
        let c : Cue :=
          { id := id.toNat, frame := frame.toInt, kind := k, correct := decide (correct = 1), confirm := .none
            window := if window = 0 then none else some (min 15 window.toNat)
            passed := decide (frame.toInt ≤ x.pos.frame) }
        (q.head h).cues.Perm (c :: x.cues) ∧ (x.cuesSound = true → (q.head h).cuesSound = true) ∧
        Head.steered { x with cues := (q.head h).cues } (q.head h) ∧
        OthersSteered h s.part q ∧ ChangesOnly (.status :: Block.scheduling) s.part q) ∧
    (255 < id.toNat → Refuses (.deleteCue w id) s .badArgument) ∧
    (id.toNat ≤ 255 → ¬ here → Refuses (.deleteCue w id) s .notFound) ∧
    (id.toNat ≤ 255 → here → named id.toNat → Refuses (.deleteCue w id) s .inUse) ∧
    (id.toNat ≤ 255 → here → ¬ named id.toNat → Replies (.deleteCue w id) s .ok fun q =>
      Head.steered { x with cues := x.cues.filter fun c => decide (c.id ≠ id.toNat) } (q.head h) ∧
      OthersSteered h s.part q ∧ ChangesOnly (.status :: Block.scheduling) s.part q) ∧
    ((∃ c ∈ x.cues, named c.id) → Refuses (.clearCues w) s .inUse) ∧
    ((∀ c ∈ x.cues, ¬ named c.id) → Replies (.clearCues w) s .ok fun q =>
      Head.steered { x with cues := [] } (q.head h) ∧
      OthersSteered h s.part q ∧ ChangesOnly (.status :: Block.scheduling) s.part q)

/-- The cue a mark at frame `mark` matches: among the cues of an ascending table that are PENDING with confirm state NONE and
a window that reaches the mark, the one whose mark frame is nearest, and the lower frame of two equally near; none when there
is no such cue (R68). -/
def Obligations.MarkMatchesTheNearestCandidate : Prop :=
  ∀ (offset : Nat) (mark : Int) (cues : List Cue), ascending cues = true →
    let off (c : Cue) := (mark - (c.frame - offset)).natAbs
    let may (c : Cue) := c.passed = false ∧ c.confirm = .none ∧ ∃ w, c.window = some w ∧ off c ≤ w
    (∀ c d, matchMark offset mark cues = some (c, d) →
      c ∈ cues ∧ may c ∧ d = off c ∧ ∀ c' ∈ cues, may c' → off c < off c' ∨ off c = off c' ∧ c.frame ≤ c'.frame) ∧
    (matchMark offset mark cues = none ↔ ∀ c ∈ cues, ¬ may c)

/-- A cue-mark pulse: outside the running states, or with the latch set, nothing; a stray mark sets the latch; a mark that
matches confirms its cue, and where the cue corrects, the position is the mark frame, within the range, with phase 0 and the
latch clear, also where the position stood there already (there it is the model's choice, log entry 58). STRAY_MARK or
CUE_CONFIRMED tells of it, with the new frame less the old as the delta of a correction; where the range limits the position,
R22 gives that difference and R69 and R187 the mark frame less the old, and which of the two is a free value (the model's
choice, log entry 27). A forward correction passes every frame it skips in ascending order: the cues whose deadline frame that
is, still unconfirmed, miss their mark with MARK_MISSED, and the cue there fires with CUE_PASSED; a backward one returns the
cues above the new frame to PENDING with confirm state NONE, and fires nothing. A forward boundary in a running state into the
deadline frame of a cue makes it UNCONFIRMED with MARK_MISSED. The order of the cues of one deadline frame is the model's choice
(log entry 20) (R22, R53, R58, R67, R69 to R73, R187). -/
def Obligations.CueMarkPulse : Prop :=
  ∀ (s : State) (dt : Nat) (h : HeadId), s.part.mode = .running →
    let x := s.part.head h
    let a := x.pos.frame
    let offset := x.settings.sensorOffset
    let m := matchMark offset a x.cues
    let alone := s.part.uninvolved h ∧ s.part.listens ∧ x.cues.length ≤ 5
    let deadline (c : Cue) : Option Int := c.window.map fun w => c.frame - offset + w + 1
    (x.drive.running = false ∨ x.mark.isSome = true → Completes (.cueMarkPulse dt h) s fun q =>
      q.time.now = s.part.time.now + dt ∧ ChangesOnly [.time] s.part q) ∧
    (x.drive.running = true → x.mark = none → m = none → Completes (.cueMarkPulse dt h) s fun q =>
      q.head h = { x with mark := some a } ∧ (s.part.listens → q.tells (.head h) [.strayMark a]) ∧
      ChangesOnly ([.time, .head h] ++ Block.posting) s.part q) ∧
    (∀ r, m = some r → x.drive.running = true → x.mark = none →
      (r.1.correct = false → Completes (.cueMarkPulse dt h) s fun q =>
        q.head h = { x with
          mark := some a
          cues := x.cues.map fun c => if c.id = r.1.id then { c with confirm := .confirmed } else c } ∧
        (s.part.listens → q.tells (.head h) [.cueConfirmed (a - (r.1.frame - offset)) r.1.id false 0 r.1.frame]) ∧
        ChangesOnly ([.time, .head h] ++ Block.posting) s.part q) ∧
      (r.1.correct = true → Completes (.cueMarkPulse dt h) s fun q =>
        let b := max (-99999) (min 999999 (r.1.frame - offset))
        let target := r.1.frame - offset
        let delta := if -99999 ≤ target ∧ target ≤ 999999 then target - a
          else if Config.deltaFollowsLimit then b - a else target - a
        let told := EventItem.cueConfirmed (a - target) r.1.id true delta r.1.frame
        let missed (c : Cue) : Bool := decide (c.id ≠ r.1.id) && decide (c.confirm = .none) &&
          (deadline c).any fun d => decide (a < d) && decide (d ≤ b)
        let confirm (c : Cue) : ConfirmState :=
          if c.id = r.1.id then .confirmed else if missed c then .unconfirmed else c.confirm
        let passing (f : Int) : List EventItem :=
          (x.cues.filter fun c => missed c && decide (deadline c = some f)).map (fun c =>
            .markMissed c.id (decide (c.frame < f)) f c.frame) ++
          (x.cues.filter fun c => decide (c.frame = f)).map fun c =>
            .cuePassed c.id c.kind
              (if missed c && !(deadline c).any (fun d => decide (d ≤ f)) then c.confirm else confirm c) true f
        (q.head h).pos = ⟨b, 0⟩ ∧ (q.head h).mark = none ∧ (q.head h).settings = x.settings ∧
        (q.head h).cues.map (·.id) = x.cues.map (·.id) ∧
        (x.cuesSound = true → a < b →
          (q.head h).cues = x.cues.map (fun c => { c with passed := c.passed || decide (c.frame ≤ b), confirm := confirm c }) ∧
          (alone → q.tells (.head h) (told :: (List.range (b - a).toNat).flatMap fun (n : Nat) => passing (a + 1 + (n : Int))))) ∧
        (x.cuesSound = true → b ≤ a →
          (q.head h).cues = x.cues.map (fun c => if b < c.frame ∧ c.frame ≤ a then { c with passed := false, confirm := .none }
            else if c.id = r.1.id then { c with confirm := .confirmed } else c) ∧
          (s.part.listens → q.tells (.head h) [told]) ∧
          (alone → x.countLimit = none → (∀ i, guardDue i s.part = false) →
            q.evt.queue = [⟨.head h, s.part.ref.count, told⟩])) ∧
        OthersSteered h s.part q ∧ ChangesOnly (.time :: Block.scheduling) s.part q)) ∧
    (x.drive.running = true → x.settings.gauge.perfs ≤ x.pos.phase + 1 → a < 999999 → x.cuesSound = true →
      Completes (.tachPulse dt h true) s fun q => ∀ c ∈ x.cues, deadline c = some (a + 1) → c.confirm = .none →
        (∃ d ∈ (q.head h).cues, d.id = c.id ∧ d.confirm = .unconfirmed) ∧
        (alone → q.tells (.head h) [.markMissed c.id c.passed (a + 1) c.frame]))

/-- A forward boundary in a running state onto a pending STOP cue stops the head with its motors off; onto a pending END cue,
with the head on air and no move awaiting, it commits STANDBY with RUNOUT (shown while the table has room for the alarms of the
step), and an active take ends FALLBACK by TAKE_END with reason RUNOUT, unless the take's own commit has come first; where the
take's cut is not reached by the boundary it has not (which of the two is met first in one step is the model's choice, log entry
2). The cue is PASSED. Of a head in no plan, CUE_PASSED tells of every cue so fired, and of a STOP HEAD_STATE with cause CUE
after it (R36, R58, R60, R61, R106). -/
def Obligations.StopAndEndCuesAct : Prop :=
  ∀ (s : State) (dt : Nat) (h : HeadId), s.part.mode = .running →
    let x := s.part.head h
    let f := x.pos.frame + 1
    x.drive.running = true → x.settings.gauge.perfs ≤ x.pos.phase + 1 → x.pos.frame < 999999 → x.cuesSound = true →
    ∀ c, x.cues.find? (fun c => decide (c.frame = f)) = some c →
      Completes (.tachPulse dt h true) s fun q =>
        (q.head h).pos = ⟨f, 0⟩ ∧ (∀ d ∈ (q.head h).cues, d.frame = f → d.passed = true) ∧
        (c.kind = .stop → (q.head h).drive = .stopping ∧ (q.head h).cadence.measuring = false ∧
          (q.head h).outputs = ⟨false, false, false, false, x.outputs.lamp⟩ ∧
          (q.head h).settleFrom = some (s.part.time.now + dt)) ∧
        (c.kind ≠ .stop → (q.head h).drive.running = true) ∧
        (s.part.uninvolved h → s.part.listens → x.cues.length ≤ 5 →
          (c.kind ≠ .stop → c.confirm ≠ .none ∨ c.window = none →
            q.tells (.head h) [.cuePassed c.id c.kind c.confirm false f]) ∧
          (c.kind = .stop → ∃ d : DriveState, d.running = true ∧ ∃ e : ConfirmState,
            q.tells (.head h) [.cuePassed c.id .stop e false f, .headState .stopping d .cue f])) ∧
        (c.kind = .ending → ∀ i, (s.part.island i).onAir = .head h → (s.part.island i).takes = [] →
          (s.part.island i).confirm = none →
          let z := (s.part.island i).settings
          (q.island i).onAir = .head h ∧ (q.island i).mirror = .moving z.standbyPort ∧
          (q.island i).confirm = some { target := .standby, port := z.standbyPort, owner := .island
                                        cut := s.part.ref.count + BitVec.ofNat 32 z.lead
                                        deadline := s.part.ref.count + BitVec.ofNat 32 z.lead + BitVec.ofNat 32 z.grace } ∧
          (s.part.alarms.entries.length ≤ 20 → q.alarms.shows (.island i) .runout = true)) ∧
        (c.kind = .ending → ∀ i t, (s.part.island i).onAir = .head h → (s.part.island i).active = some t → t.state ≠ .committed →
          t.incoming ≠ .head h → (s.part.island i).confirm = none →
          let z := (s.part.island i).settings
          let cut := s.part.ref.count + BitVec.ofNat 32 z.lead
          let falls := (q.island i).takes = (s.part.island i).takes.tail ∧ (q.island i).onAir = .head h ∧
            (q.island i).confirm = some { target := .standby, port := z.standbyPort, cut := cut, owner := .island
                                          deadline := cut + BitVec.ofNat 32 z.grace } ∧
            (s.part.alarms.entries.length ≤ 20 → q.alarms.shows (.island i) .runout = true) ∧
            (s.part.listens → x.cues.length ≤ 5 → q.tellsEnd i t .fallback .runout = true)
          (falls ∨ ∃ d, (q.island i).confirm = some d ∧ d.owner = .take ∧ d.target = t.incoming ∧
            (q.island i).active.map (fun u => (u.tag, u.state)) = some (t.tag, .committed)) ∧
          ((∀ r, t.cut = some r → (z.lead : Int) < r.frame - f ∧ r.frame ≤ 999999) → s.part.cutRests i h t →
            (∀ r, t.sop = some r → r.head ≠ h) →
            t.effective ≠ .now ∨ (∃ k, t.incoming = .head k ∧ (s.part.head k).drive ≠ .locked ∧ t.state ≠ .ready) → falls)) ∧
        OthersSteered h s.part q ∧ ChangesOnly (.time :: Block.scheduling) s.part q

/-! ### Arrival prediction (chapter 5) -/

/-- The cadence sum is what the alternating expected lengths add up to (R78); and, by inference from R77 (section 5.2), the
exact prediction of a frame stays as it was across a boundary that comes after just the expected number of fields. What a
record becomes as it is formed, at a forward and a reverse boundary, at a START, as its head leaves the running states and
at a jump; and of a head on air, what its F_end is after a START, a STOP and a forward boundary. Of the active take whose
incoming head takes a forward boundary, what the new F_sop makes of it: in STARTING and READY the error is F_sop less F_cut,
and the take is READY just while that is at most its tolerance; HELD, F_cut follows F_sop with the slip from the held cut,
or the take commits SLIPPED, M fields on, when F_sop − M is reached; a loss of lock takes the error and READY, and the
commit field of a HELD take, away (R75 to R80, R82 to R85, R98, R100). That a record is formed afresh also at a jump that
leaves the position where it was is the model's choice (log entry 58). -/
def Obligations.PredictionFollowsTheCadence : Prop :=
  (∀ n l, cadenceSum .f50 l n = 2 * n) ∧
  (∀ n, cadenceSum .f60 2 n = ((List.range n).map fun k => if k % 2 = 0 then 3 else 2).sum) ∧
  (∀ n, cadenceSum .f60 3 n = ((List.range n).map fun k => if k % 2 = 0 then 2 else 3).sum) ∧
  (∀ (b : Stamp) (d : Nat), exactField .f50 b 2 (d + 2) = exactField .f50 (b + 2) 2 (d + 1)) ∧
  (∀ (b : Stamp) (l d : Nat), l = 2 ∨ l = 3 →
    exactField .f60 b l (d + 2) = exactField .f60 (b + BitVec.ofNat 32 l) (5 - l) (d + 1)) ∧
  (∀ (standard : Standard) (b : Stamp) (l : Nat), exactField standard b l 1 = b + BitVec.ofNat 32 l) ∧
  (∀ (s : State) (w : Word) (dt : Nat) (h : HeadId) (c : Int) (r : Pred) (fired : Bool),
    let p := s.part
    let x := p.head h
    let count := p.ref.count
    let standard := p.ref.standard
    let behind (y : Head) (frame : Int) : Nat := (frame - y.pos.frame).toNat
    let exact (y : Head) (frame : Int) : Option Stamp :=
      match y.cadence.boundary, y.cadence.expected standard with
      | some b, some l => some (b + BitVec.ofNat 32 (l + (if standard = .f50 then 2 * (behind y frame - 1)
          else 5 * ((behind y frame - 1) / 2) + (if (behind y frame - 1) % 2 = 1 then 5 - l else 0))))
      | _, _ => none
    let rough (frame : Int) : Stamp :=
      count + BitVec.ofNat 32 (if standard = .f50 then 2 * behind x frame else (5 * behind x frame + 1) / 2)
    let late := x.drive = .runup ∨ x.drive = .unlocked
    (let f := fun k => formPred p k h c
     (c ≤ x.pos.frame → ∀ k ∈ [PredKind.cutOrEnd, .sop], f k = ⟨h, c, none, .reached⟩) ∧
     (x.pos.frame < c → x.drive = .locked → ∀ k ∈ [PredKind.cutOrEnd, .sop], f k = ⟨h, c, exact x c, .exact⟩) ∧
     (x.pos.frame < c → late → f .cutOrEnd = ⟨h, c, some (rough c), .estimate⟩ ∧ f .sop = ⟨h, c, none, .absent⟩) ∧
     (x.pos.frame < c → x.drive.running = false → ∀ k ∈ [PredKind.cutOrEnd, .sop], f k = ⟨h, c, none, .absent⟩)) ∧
    (r.head = h → ∀ k ∈ [PredKind.cutOrEnd, .sop],
      let anew := formPred p k h r.frame
      (r.basis = .reached →
        r.atBoundary p fired k = r ∧ r.atStart p k = r ∧ r.atLeave k = r ∧
        (r.frame ≤ x.pos.frame → r.atReverse p k = r ∧ r.atJump p fired k = r) ∧
        (x.pos.frame < r.frame → r.atReverse p k = anew ∧ r.atJump p fired k = anew)) ∧
      (r.basis ≠ .reached →
        r.atReverse p k = r ∧ r.atLeave k = { r with value := none, basis := .absent } ∧ r.atStart p k = anew ∧
        (x.pos.frame < r.frame → r.atJump p fired k = anew) ∧
        (r.frame ≤ x.pos.frame →
          r.atJump p fired k = { r with value := if fired then some count else none, basis := .reached } ∧
          (x.drive.running = true → r.atBoundary p fired k = { r with value := some count, basis := .reached })) ∧
        (x.pos.frame < r.frame → x.drive = .locked → r.atBoundary p fired k = anew) ∧
        (x.pos.frame < r.frame → x.drive = .runup → r.atBoundary p fired k = r) ∧
        (x.pos.frame < r.frame → x.drive = .unlocked →
          (k = .sop → r.atBoundary p fired k = { r with value := none, basis := .absent }) ∧
          (k = .cutOrEnd → r.atBoundary p fired k =
            if fired = true ∧ r.basis = .exact then { r with basis := .frozen } else r)))) ∧
    (p.mode = .running → ∀ i, (p.island i).onAir = .head h → (p.island i).fEnd = some r → r.head = h →
      r.basis ≠ .reached →
      (readHead w = some h → p.headLocal h = false →
        (x.drive.atRest = true → x.pos.frame < r.frame → Replies (.start w) s .ok fun q =>
          (q.island i).fEnd = some ⟨h, r.frame, some (rough r.frame), .estimate⟩) ∧
        (x.drive.running = true → Replies (.stop w) s .ok fun q =>
          (q.island i).fEnd = some ⟨h, r.frame, none, .absent⟩)) ∧
      (x.drive.running = true → x.cuesSound = true → x.settings.gauge.perfs ≤ x.pos.phase + 1 → x.pos.frame < 999999 →
        x.pos.frame + 1 < r.frame →
        (∃ c, x.cues.find? (fun c => decide (c.kind = .ending) && !c.passed) = some c ∧ c.frame = r.frame) →
        Completes (.tachPulse dt h true) s fun q =>
          let y := q.head h
          (y.drive = .locked → (q.island i).fEnd = some ⟨h, r.frame, exact y r.frame, .exact⟩) ∧
          (y.drive = .unlocked → x.drive = .locked → r.basis = .exact →
            (q.island i).fEnd = some { r with basis := .frozen }) ∧
          (y.drive = .runup ∨ y.drive = .unlocked ∧ (x.drive = .unlocked ∨ r.basis ≠ .exact) →
            (q.island i).fEnd = some r) ∧
          (y.drive = .stopping → (q.island i).fEnd = some ⟨h, r.frame, none, .absent⟩))) ∧
    (p.mode = .running → ∀ i t, (p.island i).active = some t → t.incoming = .head h → t.sop = some r → r.head = h →
      r.basis ≠ .reached → x.drive.running = true → x.cuesSound = true → x.settings.gauge.perfs ≤ x.pos.phase + 1 →
      x.pos.frame < 999999 → x.pos.frame + 1 < r.frame → (p.island i).onAir ≠ .head h →
      p.endFrame (p.island i).onAir = (p.island i).fEnd.map (fun e => (e.head, e.frame)) → guardDue i p = false →
      let z := (p.island i).settings
      let m := BitVec.ofNat 32 z.lead
      let allowed : Int := (t.tolerance.getD z.tolerance : Nat)
      let cutAt (f : Stamp) := t.cut = none ∧ t.fCut = some f ∨ ∃ e, t.cut = some e ∧ e.head ≠ h ∧ e.value = some f
      Completes (.tachPulse dt h true) s fun q =>
        let y := q.head h
        y.drive = .locked ∨ y.drive = .unlocked → ∃ u, (q.island i).active = some u ∧ u.tag = t.tag ∧
          (∀ f, cutAt f → t.effective ≠ .now → t.state = .starting ∨ t.state = .ready →
            2 ^ 31 ≤ (count - (f - m)).toNat →
            u.fCut = some f ∧ u.commitAt = some (f - m) ∧
            (∀ v, y.drive = .locked → exact y r.frame = some v →
              u.error = some (v - f).toInt ∧ u.state = (if (v - f).toInt ≤ allowed then .ready else .starting)) ∧
            (y.drive = .unlocked → u.error = none ∧ (t.state = .ready → u.state = .starting))) ∧
          (∀ k, t.state = .held → t.cut = none → t.heldCut = some k →
            (∀ v, y.drive = .locked → exact y r.frame = some v →
              (2 ^ 31 ≤ (count - (v - m)).toNat →
                u.state = .held ∧ u.fCut = some v ∧ u.commitAt = some (v - m) ∧ u.slip = (v - k).toInt ∧ u.error = some 0) ∧
              ((count - (v - m)).toNat < 2 ^ 31 → (p.island i).confirm = none →
                let late := count + m
                u.state = .committed ∧ u.outcome = .slipped ∧ u.fCut = some late ∧ u.slip = (late - k).toInt ∧
                (q.island i).confirm = some { target := .head h, port := p.portOf i (.head h), cut := late, owner := .take
                                              deadline := late + BitVec.ofNat 32 z.grace })) ∧
            (y.drive = .unlocked → u.state = .held ∧ u.commitAt = none))))

/-! ### Islands and changeover (chapter 6) -/

/-- CONFIGURE_ISLAND: an island outside 1 and 2 is BAD_TARGET; then its checks in order on the clamped values, then the six
settings together; a new standby port with STANDBY on air leaves the mirror UNKNOWN. A new address sets the station record
afresh, with its POLL due or already joined; STATION_OFFLINE clears and MIRROR_FAULT stands; what waits stays in the queue, and
an entry in flight for the island is no longer counted (between two transactions too: the model's choice, log entry 60). An end
guard that the new lead has reached already commits STANDBY at once, with RUNOUT (R90, R105, R130; in the same step: the
model's choice, log entry 2). -/
def Obligations.ConfigureIslandCommand : Prop :=
  ∀ (s : State) (w address port lead tolerance policy grace : Word), s.part.mode = .running →
    let cmd := Instr.configureIsland w address port lead tolerance policy grace
    (w.toNat = 0 ∨ 2 < w.toNat → Refuses cmd s .badTarget) ∧
    ∀ i, readIsland w = some i →
    let x := s.part.island i
    let z : IslandSettings :=
      { address := max 1 (min 15 address.toNat)
        standbyPort := if port.toNat ≤ 1 then .p1 else if port = 2 then .p2 else if port = 3 then .p3 else .p4
        lead := max 1 (min 15 lead.toNat)
        tolerance := min 8 tolerance.toNat
        policy := if policy = 0 then .fallback else .hold
        grace := max 1 (min 30 grace.toNat) }
    let double := z.address = (s.part.island i.other).settings.address
    let held := ∃ h, (s.part.head h).assigned = some ⟨i, z.standbyPort⟩
    let busy := x.active.isSome = true ∨ x.confirm.isSome = true
    let exact := z.address = address.toNat ∧ z.standbyPort.num = port.toNat ∧ z.lead = lead.toNat ∧
      z.tolerance = tolerance.toNat ∧ z.grace = grace.toNat
    let now := s.part.ref.count + BitVec.ofNat 32 z.lead
    let due := (∃ h, x.onAir = .head h) ∧ ∃ f, x.fEnd.bind (·.value) = some f ∧ (now - f).toNat < 2 ^ 31
    (1 < policy.toNat → Refuses cmd s .badArgument) ∧
    (policy.toNat ≤ 1 → double → Refuses cmd s .duplicate) ∧
    (policy.toNat ≤ 1 → ¬ double → held → Refuses cmd s .portTaken) ∧
    (policy.toNat ≤ 1 → ¬ double → ¬ held → busy → Refuses cmd s .busy) ∧
    (policy.toNat ≤ 1 → ¬ double → ¬ held → ¬ busy → Replies cmd s (if exact then .ok else .clamped) fun q =>
      (¬ due → q.island i = { x with
        settings := z
        mirror := if x.settings.standbyPort ≠ z.standbyPort ∧ x.onAir = .standby then .unknown else x.mirror }) ∧
      (due → q.island i = { x with
        settings := z
        mirror := .moving z.standbyPort
        confirm := some { target := .standby, port := z.standbyPort, cut := now, owner := .island
                          deadline := now + BitVec.ofNat 32 z.grace } } ∧ q.alarms.shows (.island i) .runout = true) ∧
      (¬ due → x.settings.address = z.address → ChangesOnly [.status, .island i] s.part q) ∧
      (x.settings.address ≠ z.address →
        let y := q.link.stations.get i
        y.online = .unknown ∧ y.misses = 0 ∧ y.port = none ∧ y.moving = false ∧ y.fault = false ∧ y.refusal = none ∧
        (y.due = true ∨ ∃ e ∈ q.link.queue ++ q.link.flight.toList.map (·.entry), e = ⟨i, .poll⟩) ∧
        (s.part.alarms.sound = true → q.alarms.rests (.island i) .stationOffline ∧
          (¬ due → q.alarms.find? (.island i) .mirrorFault = s.part.alarms.find? (.island i) .mirrorFault)) ∧
        (s.part.link.line ≠ .idle → (∀ e ∈ s.part.link.queue, e ∈ q.link.queue) ∧
          ∀ f, s.part.link.flight = some f → q.link.flight = some { f with orphan := f.orphan || decide (f.entry.island = i) })) ∧
      ChangesOnly (.status :: Block.guarding i) s.part q)

/-- The checks of TAKE in order; a take that finds others in the list, or a move awaiting confirmation, joins the back in
QUEUED with the fields given, its tolerance at most 8, and nothing else changes (R91, R92, R93, R95; that it has no outgoing
source until it is activated is the model's choice, log entry 35). -/
def Obligations.TakeCommandChecks : Prop :=
  ∀ (s : State) (w tag incoming mode : Word) (field : Stamp) (outCue inCue tolerance preroll : Word) (i : IslandId),
    s.part.mode = .running →
    let cmd := Instr.take w tag incoming mode field outCue inCue tolerance preroll
    let x := s.part.island i
    (w.toNat = 0 ∨ 2 < w.toNat → Refuses cmd s .badTarget) ∧
    (readIsland w = some i → x.authority = .panel → Refuses cmd s .localAuthority) ∧
    (readIsland w = some i → x.authority = .remote →
      let bad := 4 < incoming.toNat ∨ 2 < mode.toNat ∨ 1 < preroll.toNat ∨ (255 < outCue.toNat ∧ outCue ≠ 65535) ∨
        (255 < inCue.toNat ∧ inCue ≠ 65535) ∨ (incoming = 0 ∧ inCue ≠ 65535)
      (bad → Refuses cmd s .badArgument) ∧
      (¬ bad → 6 ≤ x.takes.length → Refuses cmd s .listFull) ∧
      (¬ bad → x.takes.length < 6 → ∀ src, readIncoming incoming = some src →
        let stray := ∃ h, src = .head h ∧ (s.part.head h).assigned.map (·.island) ≠ some i
        let lost := (inCue ≠ 65535 ∧ ∃ h, src = .head h ∧ ∀ c ∈ (s.part.head h).cues, c.id ≠ inCue.toNat) ∨
          (outCue ≠ 65535 ∧ ∀ h, (s.part.head h).assigned.map (·.island) = some i →
            ∀ c ∈ (s.part.head h).cues, c.id ≠ outCue.toNat)
        (stray → Refuses cmd s .notAssigned) ∧
        (¬ stray → lost → Refuses cmd s .notFound) ∧
        (¬ stray → ¬ lost → x.takes ≠ [] ∨ x.confirm.isSome = true → ∀ m, readMode mode = some m → ∀ r, readPreroll preroll = some r →
          Replies cmd s (if 8 < tolerance.toNat ∧ tolerance ≠ 65535 then .clamped else .ok) fun q =>
            q.island i = { x with takes := x.takes ++
              [{ tag := tag, incoming := src, mode := m, effective := m, field := field, preroll := r, state := .queued
                 outCue := if outCue = 65535 then none else some outCue.toNat
                 inCue := if inCue = 65535 then none else some inCue.toNat
                 tolerance := if tolerance = 65535 then none else some (min 8 tolerance.toNat)
                 outgoing := none, sopCue := none, changeCue := none, cut := none, fCut := none, fStart := none
                 sop := none, error := none, commitAt := none, heldCut := none, slip := 0, outcome := .done
                 lost := none, short := none }] } ∧
            ChangesOnly [.status, .island i] s.part q)))

/-- With an empty list and no move awaiting a TAKE is activated at once: one to the source on air, or to a head in FAULT, ends
there, with TAKE_END; otherwise its outgoing source is the one on air. Its SOP cue and its CHANGEOVER cue are the ones it names,
a named outgoing cue only where the outgoing head holds it, else the first pending of their kind in the table. AT_CUE holds
while the CHANGEOVER cue lies ahead of the outgoing head, and AT_FIELD while the field lies at least M ahead; each becomes NOW
otherwise. TAKE_ACTIVE says so, with the figures of activation, before the take's conditions are first evaluated: no F_cut and
basis ABSENT for a NOW take, the plan where the commit field is reached already (DEDUCED, log entry 21). The cut of a NOW take
is M fields on, that of AT_FIELD the given field, and that of AT_CUE what the outgoing head's record gives. Until M fields
before the cut STANDBY is READY, a head at rest under AUTO waits ARMED for the start field or is started at once when that is
reached, and a LOCKED head is judged; when it is, the commit is decided at once, and reached late the cut is M fields on. The
start field of a head at rest lies the run-up lead before the cut, and before that the estimate of the leader D less the run-up
distance, or with no SOP cue, or a short leader, one below the run-up distance or not above 0, nothing; with a short leader, and
only then, SHORT_LEADER is posted. A LOCKED head with no SOP cue is READY and commits DONE; with one behind it it is READY and
commits EARLY, the fields lost unknown; otherwise its exact F_sop gives the error, F_sop less F_cut: at most the tolerance it is
READY, and at a commit decided at once it commits DONE, EARLY with the fields lost, or is HELD and follows F_sop with its slip.
TAKE_READY and TAKE_COMMIT tell of them (R76, R79, R81, R82, R93, R95 to R101, R112; that a field reached already is met in the
same step, the start field first, is the model's choice, log entry 2). -/
def Obligations.TakeActivates : Prop :=
  ∀ (s : State) (w tag incoming mode : Word) (field : Stamp) (outCue inCue tolerance preroll : Word) (i : IslandId),
    s.part.mode = .running → readIsland w = some i → (s.part.island i).authority = .remote →
    (s.part.island i).takes = [] → (s.part.island i).confirm = none →
    let cmd := Instr.take w tag incoming mode field outCue inCue tolerance preroll
    let x := s.part.island i
    let count := s.part.ref.count
    let f50 := s.part.ref.standard = .f50
    let m := BitVec.ofNat 32 x.settings.lead
    let holds (h : HeadId) (id : Word) : Prop := ∃ c ∈ (s.part.head h).cues, c.id = id.toNat
    ∀ src, readIncoming incoming = some src → (∀ h, src = .head h → (s.part.head h).assigned.map (·.island) = some i) →
      mode.toNat ≤ 2 → preroll.toNat ≤ 1 →
      inCue = 65535 ∨ inCue.toNat ≤ 255 ∧ (∃ h, src = .head h ∧ holds h inCue) →
      outCue = 65535 ∨ outCue.toNat ≤ 255 ∧ (∃ h, (s.part.head h).assigned.map (·.island) = some i ∧ holds h outCue) →
      let status : Status := if 8 < tolerance.toNat ∧ tolerance ≠ 65535 then .clamped else .ok
      let dead := src = x.onAir ∨ ∃ h, src = .head h ∧ (s.part.head h).drive = .fault
      let port := s.part.portOf i src
      let chosen (kind : CueKind) (id : Word) : Source → Option Cue
        | .head h => (s.part.head h).cues.find? fun c =>
            if id = 65535 then decide (c.kind = kind) && !c.passed else decide (c.id = id.toNat)
        | _ => none
      let sop := chosen .sop inCue src
      let change := chosen .changeover outCue x.onAir
      let record : Option Pred := match x.onAir with
        | .head h => change.map fun c => formPred s.part .cutOrEnd h c.frame
        | _ => none
      let plan : Option Stamp := if mode = 1 then some field else if mode = 0 then record.bind (·.value) else none
      (dead → Replies cmd s status fun q =>
        q.island i = x ∧
        (s.part.listens → q.tells (.island i) [.takeEnd tag .failed (if src = x.onAir then .sameSource else .incomingFault)
          src (some x.onAir) none none 0 none]) ∧
        ChangesOnly (.status :: Block.posting) s.part q) ∧
      (¬ dead → Replies cmd s status fun q =>
        ∃ t, (q.island i).takes = [t] ∧ t.tag = tag ∧ t.incoming = src ∧ t.outgoing = some x.onAir ∧ t.state ≠ .queued ∧
          t.tolerance = some (if tolerance = 65535 then x.settings.tolerance else min 8 tolerance.toNat) ∧
          t.sopCue = sop.map (fun c => ⟨c.id, c.frame⟩) ∧ t.changeCue = change.map (fun c => ⟨c.id, c.frame⟩) ∧
          t.effective = (if mode = 1 ∧ 2 ^ 31 ≤ (count - field).toNat ∧ (x.settings.lead : Int) ≤ (field - count).toInt then .atField
            else if mode = 0 ∧ record.any (fun r => decide (r.basis ≠ .reached)) then .atCue else .now) ∧
          let cut := if t.effective = .now then none else plan
          let reached (f : Stamp) : Bool := decide ((count - f).toNat < 2 ^ 31)
          let later := cut.filter fun f => !reached (f - m)
          let soon := if t.effective = .now then some (count + m) else
            (cut.filter fun f => reached (f - m)).map fun f => if f - m = count then f else count + m
          let waits := cut = none ∧ t.effective ≠ .now
          let start (f : Stamp) : Option Stamp := match src with
            | .head h =>
              let y := s.part.head h
              let extra := match sop with
                | none => 0
                | some c =>
                  let d : Int := c.frame - (match y.drive, y.park with
                    | .parked, some r => r.target
                    | _, _ => y.pos.frame)
                  let n := (d - y.settings.runupDistance).toNat
                  if d < y.settings.runupDistance ∨ d ≤ 0 then 0 else if f50 then 2 * n else (5 * n + 1) / 2
              if y.drive.atRest = true ∧ preroll = 0 then some (f - BitVec.ofNat 32 (y.settings.runupLead + extra)) else none
            | _ => none
          let ends (outcome : TakeOutcome) (lost : Option Int) (cut : Stamp) : Prop :=
            t.state = .committed ∧ t.outcome = outcome ∧ t.lost = lost ∧ t.fCut = some cut ∧ (q.island i).mirror = .moving port ∧
            (q.island i).confirm = some { target := src, port := port, cut := cut, owner := .take
                                          deadline := cut + BitVec.ofNat 32 x.settings.grace } ∧
            (s.part.listens → q.tells (.island i) [.takeCommit tag port (some cut) t.error outcome 0])
          (s.part.listens → q.tells (.island i) [.takeActive tag src (some x.onAir) t.effective
            (if t.effective = .now then some .absent else if t.effective = .atCue then record.map (·.basis) else none)
            (sop.map (·.id)) (change.map (·.id)) cut (cut.bind start)]) ∧
          (∀ f, later = some f → t.fCut = some f ∧ t.commitAt = some (f - m)) ∧
          (waits → t.fCut = none ∧ t.commitAt = none ∧ t.cut = record) ∧
          (t.state = .ready → s.part.listens → q.tells (.island i)
            [.takeReady tag t.fCut (t.sop.bind (·.value)) (t.sop.map (·.basis)) t.error]) ∧
          (src = .standby → t.error = some 0 ∧ (∀ f, soon = some f → ends .done none f) ∧ (soon = none → t.state = .ready)) ∧
          (∀ h, src = .head h →
            let y := s.part.head h
            let rest := y.drive.atRest = true ∧ preroll = 0
            let begun := t.state = .starting ∧ (q.head h).drive = .runup
            (rest → t.effective = .now → begun) ∧
            (y.drive ≠ .locked → t.effective = .now ∨ soon = none →
              (¬ rest → t.state = if y.drive.running then .starting else .armed)) ∧
            (rest → waits → t.state = .armed ∧ t.fStart = none) ∧
            (rest → ∀ f, later = some f → t.fStart = start f ∧
              ((start f).any reached = false → t.state = .armed) ∧ ((start f).any reached = true → begun)) ∧
            (y.drive ≠ .locked → t.effective ≠ .now → ∀ f, soon = some f →
              t.state = .held ∧ t.heldCut = some f ∧ (rest → (q.head h).drive = .runup)) ∧
            (y.drive = .locked → sop = none →
              (∀ f, soon = some f → ends .done none f) ∧ (soon = none → t.state = .ready)) ∧
            (∀ c, sop = some c →
              let distance := y.settings.runupDistance
              let d : Int := c.frame - (match y.drive, y.park with
                | .parked, some r => r.target
                | _, _ => y.pos.frame)
              let spans (l k : Nat) : Nat := l + if f50 then 2 * k else 5 * (k / 2) + if k % 2 = 1 then 5 - l else 0
              (rest → later.isSome = true → s.part.listens →
                (({ source := .island i, stamp := count, item := .shortLeader tag h distance d } : Event) ∈ q.evt.queue ↔
                  d < distance ∨ d ≤ 0)) ∧
              (y.drive = .locked → c.frame ≤ y.pos.frame → t.error = none ∧
                (∀ f, soon = some f → ends .early none f) ∧ (soon = none → t.state = .ready)) ∧
              (∀ b l, y.drive = .locked → y.pos.frame < c.frame → y.cadence.boundary = some b →
                y.cadence.expected s.part.ref.standard = some l →
                let v := b + BitVec.ofNat 32 (spans l ((c.frame - y.pos.frame).toNat - 1))
                let allowed := if tolerance = 65535 then x.settings.tolerance else min 8 tolerance.toNat
                (waits → t.error = none ∧ t.state = .starting) ∧
                (∀ f, later = some f →
                  t.error = some (v - f).toInt ∧ t.state = (if (v - f).toInt ≤ allowed then .ready else .starting)) ∧
                (∀ f, soon = some f →
                  let e := (v - f).toInt
                  (e.natAbs ≤ allowed → ends .done none f ∧ t.error = some e) ∧
                  (e < -allowed → ends .early (some (-e)) f ∧ t.error = some e) ∧
                  (allowed < e → t.state = .held ∧ t.heldCut = some f ∧ t.fCut = some v ∧ t.slip = e ∧ t.error = some 0 ∧
                    t.commitAt = some (v - m)))))) ∧
        HeadsSteered s.part q ∧ ChangesOnly (.status :: Block.scheduling) s.part q)

/-- CANCEL_TAKE removes the first QUEUED take of the tag, refuses ACTIVE for the active take, and NOT_FOUND otherwise.
ABORT_TAKE ends an active take that has not committed; its heads are not stopped. TAKE_END tells of each, CANCELLED or ABORTED,
with reason COMMAND. With no move awaiting, the next take of the list is then activated: one whose incoming source is on air or
in FAULT ends FAILED and gives way to the one behind it, and the first other takes its outgoing source, cues, tolerance and
effective mode, told by TAKE_ACTIVE; one that is NOW commits to STANDBY, or starts its head, in the same step (that a field
reached already is met there is log entry 2). Of both, an island outside 1 and 2 is BAD_TARGET, checked first (R91, R92, R94 to
R99, R110, R112). -/
def Obligations.CancelAndAbortTake : Prop :=
  ∀ (s : State) (w tag : Word), s.part.mode = .running →
    (w.toNat = 0 ∨ 2 < w.toNat → Refuses (.cancelTake w tag) s .badTarget ∧ Refuses (.abortTake w) s .badTarget) ∧
    ∀ i, readIsland w = some i →
    let x := s.part.island i
    let waits (t : Take) := decide (t.state = .queued ∧ t.tag = tag)
    (x.authority = .panel → Refuses (.cancelTake w tag) s .localAuthority ∧ Refuses (.abortTake w) s .localAuthority) ∧
    (x.authority = .remote → x.takes.any waits = true → Replies (.cancelTake w tag) s .ok fun q =>
      q.island i = { x with takes := x.takes.eraseP waits } ∧
      (∀ t, x.takes.find? waits = some t → s.part.listens → q.tells (.island i) [.takeEnd t.tag .cancelled .command
        t.incoming t.outgoing t.fCut t.error t.slip t.lost]) ∧
      ChangesOnly ([.status, .island i] ++ Block.posting) s.part q) ∧
    (x.authority = .remote → x.takes.any waits = false → x.active.map (·.tag) = some tag →
      Refuses (.cancelTake w tag) s .active) ∧
    (x.authority = .remote → x.takes.any waits = false → x.active.map (·.tag) ≠ some tag →
      Refuses (.cancelTake w tag) s .notFound) ∧
    (x.authority = .remote → x.active = none → Refuses (.abortTake w) s .notFound) ∧
    (∀ t, x.active = some t → x.authority = .remote →
      (t.state = .committed → Refuses (.abortTake w) s .tooLate) ∧
      (t.state ≠ .committed → Replies (.abortTake w) s .ok fun q =>
        (x.takes.length = 1 → q.island i = { x with takes := [] } ∧
          ChangesOnly ([.status, .island i] ++ Block.posting) s.part q) ∧
        (x.confirm.isSome = true → q.island i = { x with takes := x.takes.tail }) ∧
        (x.confirm = none → (∀ u ∈ x.takes.tail, u.state = .queued) → Activates i x.onAir s.part q x.takes.tail) ∧
        (s.part.listens → q.tells (.island i) [.takeEnd t.tag .aborted .command
          t.incoming t.outgoing t.fCut t.error t.slip t.lost]) ∧
        HeadsSteered s.part q ∧ ChangesOnly (.status :: Block.scheduling) s.part q))

/-- STANDBY commits the standby source M fields on, whoever owns the move that awaits, and ends the active take, ABORTED by
TAKE_END with reason STANDBY; the source on air is kept until the move is confirmed. The MOVE to the standby port waits or is in
flight, and the station is polled every field (R101, R111, R112, R118, R126). -/
def Obligations.StandbyCommand : Prop :=
  ∀ (s : State) (w : Word) (i : IslandId), s.part.mode = .running →
    let x := s.part.island i
    let z := x.settings
    let cut := s.part.ref.count + BitVec.ofNat 32 z.lead
    (w.toNat = 0 ∨ 2 < w.toNat → Refuses (.standby w) s .badTarget) ∧
    (readIsland w = some i → Replies (.standby w) s .ok fun q =>
      q.island i = { x with
        mirror := .moving z.standbyPort
        confirm := some { target := .standby, port := z.standbyPort, cut := cut, owner := .island
                          deadline := cut + BitVec.ofNat 32 z.grace }
        takes := if x.active.isSome then x.takes.tail else x.takes } ∧
      (∀ t, x.active = some t → s.part.listens → q.tells (.island i) [.takeEnd t.tag .aborted .standby
        t.incoming t.outgoing t.fCut t.error t.slip t.lost]) ∧
      (q.link.stations.get i).fast = true ∧
      (s.part.link.sound = true →
        (∃ e ∈ q.link.queue ++ q.link.flight.toList.map (·.entry),
          e.island = i ∧ e.request.port? = some z.standbyPort) ∧
        ∀ e ∈ s.part.link.queue, e.isMove = true → e.island ≠ i → e ∈ q.link.queue ++ q.link.flight.toList.map (·.entry)) ∧
      ChangesOnly (.status :: Block.committing i) s.part q)

/-- The start field of an ARMED AUTO take is reached: its head, at rest, takes a START, and the take is STARTING; it keeps its
start field unless its cut record has lost its value; HEAD_STATE names the scheduler as the cause (R24, R36, R81, R97; the
record follows another head, the outgoing one). -/
def Obligations.StartFieldStartsTheHead : Prop :=
  ∀ (s : State) (i : IslandId), s.part.mode = .running →
    let x := s.part.island i
    ∀ t, x.active = some t → ∀ f, t.fStart = some f → ∀ h, t.head? = some h →
      t.state = .armed → t.preroll = .auto → t.effective ≠ .now → (s.part.head h).drive.atRest = true →
      (s.part.ref.count - f).toNat < 2 ^ 31 →
      Completes (.startFieldReached i) s fun q =>
        (q.head h).drive = .runup ∧ (q.head h).outputs.fwd = true ∧ (q.head h).outputs.sync = true ∧
        (q.head h).cadence.measuring = true ∧ (q.head h).cadence.startStamp = some s.part.ref.count ∧
        (s.part.listens →
          q.tells (.head h) [.headState .runup (s.part.head h).drive .scheduler (s.part.head h).pos.frame]) ∧
        (q.island i).active.map (·.state) = some .starting ∧ (q.island i).active.map (·.tag) = some t.tag ∧
        ((∀ r, t.cut = some r → r.head ≠ h ∧ r.value.isSome = true) → (q.island i).active.bind (·.fStart) = some f) ∧
        (q.island i).takes.tail = x.takes.tail ∧
        (q.island i).onAir = x.onAir ∧ (q.island i).confirm = x.confirm ∧
        HeadsSteered s.part q ∧ ChangesOnly Block.scheduling s.part q

/-- The commit field of the active take is reached with no move awaiting. READY within its tolerance, or with no SOP cue, it
commits DONE; too early, it commits EARLY with the fields lost, also with its SOP cue behind the head, when the fields lost
are F_cut less the F_sop reached, or unknown; HELD, it commits SLIPPED with its slip; ARMED or STARTING, or READY with an
error above its tolerance, it is HELD, its cut the held cut, and a head at rest is started under AUTO. One so HELD whose
head is LOCKED follows the exact F_sop with its slip, or commits SLIPPED at once, M fields on, when F_sop − M is reached.
Reached late, the cut is M fields on, and a take in STARTING or READY is judged again by the error of that cut: with a SOP cue
and a LOCKED head, the exact F_sop less that cut makes it DONE, EARLY or HELD. Each commit is told by TAKE_COMMIT (R98 to R101,
R112). -/
def Obligations.CommitFieldDecides : Prop :=
  ∀ (s : State) (i : IslandId), s.part.mode = .running → (s.part.island i).confirm = none →
    let x := s.part.island i
    let z := x.settings
    let count := s.part.ref.count
    ∀ t, x.active = some t → ∀ c, t.commitAt = some c → (count - c).toNat < 2 ^ 31 →
      let port := s.part.portOf i t.incoming
      let cut := if c = count then t.fCut.getD (count + BitVec.ofNat 32 z.lead) else count + BitVec.ofNat 32 z.lead
      let commits (outcome : TakeOutcome) (lost : Option Int) (q : Part) : Prop :=
        (q.island i).mirror = .moving port ∧
        (q.island i).confirm = some { target := t.incoming, port := port, cut := cut, owner := .take
                                      deadline := cut + BitVec.ofNat 32 z.grace } ∧
        (q.island i).active.map (·.state) = some .committed ∧ (q.island i).active.map (·.outcome) = some outcome ∧
        (q.island i).active.map (·.lost) = some lost ∧ (q.island i).takes.tail = x.takes.tail ∧
        (∀ u, (q.island i).active = some u → s.part.listens →
          q.tells (.island i) [.takeCommit t.tag port (some cut) u.error outcome u.slip]) ∧
        (q.island i).onAir = x.onAir ∧ ChangesOnly (Block.committing i) s.part q
      let allowed : Nat := t.tolerance.getD z.tolerance
      let sits := t.incoming ≠ .unknown ∧ t.sop = none ∧ ∀ h, t.head? = some h → (s.part.head h).drive = .locked
      (t.state = .ready → t.sopCue = none → c = count ∨ sits → Completes (.commitFieldReached i) s (commits .done none)) ∧
      (t.state = .starting → t.sopCue = none → c ≠ count → sits →
        Completes (.commitFieldReached i) s (commits .done none)) ∧
      (t.state = .held → Completes (.commitFieldReached i) s fun q => commits .slipped none q ∧
        (q.island i).active.map (·.slip) = some (if c = count then t.slip else (t.heldCut.map fun k => (cut - k).toInt).getD 0)) ∧
      (∀ r, t.sop = some r → r.basis = .reached → t.state = .ready → t.error = none → t.sopCue.isSome = true → c = count →
        Completes (.commitFieldReached i) s (commits .early
          (match r.value, t.fCut with
            | some v, some f => some (f - v).toInt
            | _, _ => none))) ∧
      (∀ h r v f, t.incoming = .head h → (s.part.head h).drive = .locked → t.sop = some r → r.basis = .exact →
        r.value = some v → t.fCut = some f → c = count →
        t.state = .starting ∨ t.state = .ready ∧ t.sopCue.isSome = true ∧ (∃ e, t.error = some e ∧ (allowed : Int) < e) →
        let target := v - BitVec.ofNat 32 z.lead
        let late := count + BitVec.ofNat 32 z.lead
        (2 ^ 31 ≤ (count - target).toNat → Completes (.commitFieldReached i) s fun q =>
          (∃ u, (q.island i).active = some u ∧ u.tag = t.tag ∧ u.state = .held ∧ u.heldCut = some f ∧ u.fCut = some v ∧
            u.slip = (v - f).toInt ∧ u.error = some 0 ∧ u.commitAt = some target) ∧
          (q.island i).takes.tail = x.takes.tail ∧ (q.island i).confirm = none ∧ (q.island i).mirror = x.mirror ∧
          HeadsSteered s.part q ∧ ChangesOnly Block.scheduling s.part q) ∧
        ((count - target).toNat < 2 ^ 31 → Completes (.commitFieldReached i) s fun q =>
          (∃ u, (q.island i).active = some u ∧ u.tag = t.tag ∧ u.state = .committed ∧ u.outcome = .slipped ∧
            u.heldCut = some f ∧ u.fCut = some late ∧ u.slip = (late - f).toInt) ∧
          (q.island i).mirror = .moving port ∧
          (q.island i).confirm = some { target := t.incoming, port := port, cut := late, owner := .take
                                        deadline := late + BitVec.ofNat 32 z.grace } ∧
          (q.island i).takes.tail = x.takes.tail ∧
          HeadsSteered s.part q ∧ ChangesOnly Block.scheduling s.part q)) ∧
      (∀ e, t.error = some e → t.state = .ready → t.sopCue.isSome = true → c = count →
        (e.natAbs ≤ allowed → Completes (.commitFieldReached i) s (commits .done none)) ∧
        (e < -allowed → Completes (.commitFieldReached i) s (commits .early (some (-e))))) ∧
      (∀ h r v, t.incoming = .head h → (s.part.head h).drive = .locked → t.sopCue.isSome = true → t.sop = some r →
        t.state = .starting ∨ t.state = .ready → c ≠ count →
        (r.basis = .exact → r.value = some v →
          let e := (v - cut).toInt
          (e.natAbs ≤ allowed → Completes (.commitFieldReached i) s fun q =>
            commits .done none q ∧ (q.island i).active.bind (·.error) = some e) ∧
          (e < -allowed → Completes (.commitFieldReached i) s fun q =>
            commits .early (some (-e)) q ∧ (q.island i).active.bind (·.error) = some e) ∧
          (allowed < e → Completes (.commitFieldReached i) s fun q =>
            (∃ u, (q.island i).active = some u ∧ u.tag = t.tag ∧ u.state = .held ∧ u.heldCut = some cut ∧ u.fCut = some v ∧
              u.slip = e ∧ u.error = some 0 ∧ u.commitAt = some (v - BitVec.ofNat 32 z.lead)) ∧
            (q.island i).takes.tail = x.takes.tail ∧ (q.island i).confirm = none ∧ (q.island i).mirror = x.mirror ∧
            HeadsSteered s.part q ∧ ChangesOnly Block.scheduling s.part q)) ∧
        (r.basis = .reached → r.value = none → Completes (.commitFieldReached i) s (commits .early none)) ∧
        (r.basis = .reached → r.value = some v → t.state = .ready →
          Completes (.commitFieldReached i) s (commits .early (some (cut - v).toInt)))) ∧
      (t.state = .armed ∨ t.state = .starting →
        (∀ h, t.head? = some h → (s.part.head h).drive ≠ .locked) → t.head?.isSome = true ∨ c = count →
        Completes (.commitFieldReached i) s fun q =>
          (q.island i).active.map (·.state) = some .held ∧
          (q.island i).active.bind (·.heldCut) = (if c = count then t.fCut else some cut) ∧
          (q.island i).active.bind (·.commitAt) = none ∧ (q.island i).takes.tail = x.takes.tail ∧
          (q.island i).confirm = none ∧ (q.island i).mirror = x.mirror ∧ (q.island i).onAir = x.onAir ∧
          (∀ h, t.head? = some h → t.preroll = .auto → (s.part.head h).drive.atRest = true →
            (q.head h).drive = .runup) ∧
          HeadsSteered s.part q ∧ ChangesOnly Block.scheduling s.part q)

/-- The end guard: M fields before the end of the film of a head on air, with no move awaiting, STANDBY is committed with the
cut at the end, or M fields on when the field is reached late; the active take ends, FALLBACK by TAKE_END, with LATE_START if it
was HELD and RUNOUT otherwise (R105, R112). -/
def Obligations.EndGuardCommitsStandby : Prop :=
  ∀ (s : State) (i : IslandId), s.part.mode = .running → (s.part.island i).confirm = none →
    let x := s.part.island i
    let z := x.settings
    let count := s.part.ref.count
    ∀ f, x.fEnd.bind (·.value) = some f → (∃ h, x.onAir = .head h) →
      (count - (f - BitVec.ofNat 32 z.lead)).toNat < 2 ^ 31 → Completes (.endGuardReached i) s fun q =>
        let cut := if count + BitVec.ofNat 32 z.lead = f then f else count + BitVec.ofNat 32 z.lead
        q.island i = { x with
          mirror := .moving z.standbyPort
          confirm := some { target := .standby, port := z.standbyPort, cut := cut, owner := .island
                            deadline := cut + BitVec.ofNat 32 z.grace }
          takes := if x.active.isSome then x.takes.tail else x.takes } ∧
        q.alarms.shows (.island i) (if x.active.any (·.state = .held) then .lateStart else .runout) = true ∧
        (∀ t, x.active = some t → s.part.listens → q.tells (.island i) [.takeEnd t.tag .fallback
          (if t.state = .held then .lateStart else .runout) t.incoming t.outgoing t.fCut t.error t.slip t.lost]) ∧
        ChangesOnly (Block.guarding i) s.part q

/-- A deadline reached unconfirmed: source and mirror are UNKNOWN, no move awaits, the poll countdown is reloaded,
MIRROR_FAULT is shown by a sound table, and NO_SAFE_SOURCE for a move to STANDBY; a take that owns the move ends, FAILED by
TAKE_END after ON_AIR, which carries no port (the model's choice, log entry 54). ON_AIR is posted also where the source was
UNKNOWN already, as R103 says and R112 does not (DEDUCED, log entry 19). An active take that stays is re-formed with the outgoing
UNKNOWN, an AT_CUE take so becoming NOW, and one in HELD keeps what it has; with none, the front take is activated. A take that
is still in the list may make its own commit at once (in the same step: the model's choice, log entry 2; at F_cut M fields on
for a READY one that becomes NOW: log entry 59) (R92, R95 to R99, R103, R112, R126). -/
def Obligations.MoveDeadlineFails : Prop :=
  ∀ (s : State) (i : IslandId), s.part.mode = .running →
    let x := s.part.island i
    ∀ c, x.confirm = some c → (s.part.ref.count - c.deadline).toNat < 2 ^ 31 → Completes (.moveDeadline i) s fun q =>
      let calm := (q.island i).mirror = .unknown ∧ (q.island i).confirm = none ∧ (q.link.stations.get i).fast = false ∧
        (q.link.stations.get i).countdown = s.part.link.settings.interval
      let left := x.takes ≠ [] ∧ (c.owner = .take → x.active.isSome = true → x.takes.length ≠ 1)
      (q.island i).onAir = .unknown ∧ (q.island i).fEnd = none ∧ (q.island i).settings = x.settings ∧
      (q.island i).authority = x.authority ∧
      (s.part.alarms.sound = true → q.alarms.shows (.island i) .mirrorFault = true) ∧
      (c.target = .standby → q.alarms.shows (.island i) .noSafeSource = true) ∧
      (s.part.listens → q.tells (.island i) [.onAir .failed .unknown x.onAir none none]) ∧
      (∀ t, x.active = some t → c.owner = .take → s.part.listens → q.tells (.island i) [.onAir .failed .unknown x.onAir none none,
        .takeEnd t.tag .failed .mirror t.incoming t.outgoing t.fCut t.error t.slip t.lost]) ∧
      (¬ left → (q.island i).takes = [] ∧ calm) ∧
      TakesFollow i .unknown s.part q (if c.owner = .take ∧ x.active.isSome = true then x.takes.tail else x.takes) ∧
      (left → calm ∨ ∃ t, (q.island i).active = some t ∧ t.state = .committed ∧
        ∃ d, (q.island i).confirm = some d ∧ d.owner = .take ∧ d.target = t.incoming ∧ (q.island i).mirror = .moving d.port) ∧
      HeadsSteered s.part q ∧ ChangesOnly Block.scheduling s.part q

/-! ### Mirror link (chapter 7) -/

/-- The link's timers. The request sent, the pair is released, the receiver opens and the reply timer starts; the reply
timeout counts a miss at the station, OFFLINE from the third, told by STATION, and a MOVE below three transactions stays in
flight; the gap over, it is sent again, or the front entry is selected, or the line is IDLE; a MOVE whose first transaction
begins after its asked field posts MOVE_LATE, and nothing else does; a MOVE that rested in the gap as its address changed is
dropped (the model's choice, log entry 60); a countdown at 0 is reloaded with the POLL due, also when a MOVE has turned fast
polling on since it fell, and Island 2's POLL waits for Island 1's expiry of the same field (the model's choices, log entry
51), so that of two POLLs due at once Island 1's joins first. A request is sent with the transmit enable on, as the four bytes
of its coding, the address flag on the first; the pair is driven only then, bit by bit (R115, R116, R118 to R120, R123 to
R127, R129, R130, R190). -/
def Obligations.LinkTimers : Prop :=
  ∀ (s : State) (dt : Nat), s.part.mode = .running →
    let k := s.part.link
    let t := (elapse dt s.part).time
    let request (address : Nat) (r : Request) : List LinkChar :=
      let a : Byte := BitVec.ofNat 8 (address % 16)
      let c : Byte := match r with
        | .move _ _ => 1
        | .poll => 2
      let g : Byte := match r with
        | .move port _ => BitVec.ofNat 8 port.num
        | .poll => 0
      [⟨a, true, false⟩, ⟨c, false, false⟩, ⟨g, false, false⟩, ⟨0 - (a + c + g), false, false⟩]
    let sends (i : IslandId) (r : Request) (q : Part) : Prop :=
      q.link.transmit = true ∧ q.link.sending = request (s.part.island i).settings.address r
    let late (e : Entry) (q : Part) : Prop :=
      s.part.evt.writing = true → s.part.evt.queue.length ≤ 15 → q.evt = { s.part.evt with
        queue := s.part.evt.queue ++ match e.request with
          | .move port asked =>
            let fields := (s.part.ref.count - asked).toNat
            if 1 ≤ fields ∧ fields < 2 ^ 31 then
              [{ source := .island e.island, stamp := s.part.ref.count
                 item := .moveLate (s.part.island e.island).settings.address port asked s.part.ref.count fields }]
            else []
          | .poll => [] }
    let n := (t.crystal - k.since) * k.settings.rate.baud / 4000000
    (k.transmit = false → k.level t = none) ∧
    (∀ c, k.sending[n / 11]? = some c → k.transmit = true →
      k.level t = some (if n % 11 = 0 then false else if n % 11 ≤ 8 then c.data.getLsbD (n % 11 - 1)
        else if n % 11 = 9 then c.address else !c.framing)) ∧
    (k.line = .sending → 4 * 11 * 4000000 ≤ (t.crystal - k.since) * k.settings.rate.baud →
      Completes (.sendComplete dt) s fun q =>
        q.link = { k with line := .awaiting, transmit := false, sending := [], timer := t.now, assembling := [] } ∧
        ChangesOnly [.time, .link] s.part q) ∧
    (∀ f, k.flight = some f → k.line = .awaiting → k.timer + k.settings.timeout * 1000 ≤ t.now →
      Completes (.replyTimeout dt) s fun q =>
        let i := f.entry.island
        let old := k.stations.get i
        q.link.line = .gap ∧ q.link.since = t.crystal ∧
        (f.entry.isMove = true → f.orphan = false → f.tries < 3 → q.link.flight = some f) ∧
        (f.entry.isMove = false ∨ f.orphan = true ∨ 3 ≤ f.tries → q.link.flight = none) ∧
        (f.orphan = true → (q.link.stations.get i).misses = old.misses ∧ (q.link.stations.get i).online = old.online) ∧
        (f.orphan = false →
          (q.link.stations.get i).misses = min 255 (old.misses + 1) ∧
          (min 255 (old.misses + 1) < 3 →
            (q.link.stations.get i).online = old.online ∧ ChangesOnly [.time, .link] s.part q) ∧
          (3 ≤ min 255 (old.misses + 1) →
            (q.link.stations.get i).online = .offline ∧ q.alarms.shows (.island i) .stationOffline = true ∧
            (old.online ≠ .offline → q.island i = { s.part.island i with mirror := .unknown }) ∧
            (old.online = .offline → q.island i = s.part.island i) ∧
            (old.online ≠ .offline → s.part.listens → q.tells (.island i) [.station .offline f.sentTo .offline old.port
              old.moving old.fault (min 255 (old.misses + 1)) none]))) ∧
        ChangesOnly ([.time, .link, .island i] ++ Block.alarming) s.part q) ∧
    (k.line = .gap → k.settings.gap * 11 * 4000000 ≤ (t.crystal - k.since) * k.settings.rate.baud →
      Completes (.gapEnd dt) s fun q =>
        (∀ f, k.flight = some f → f.orphan = false →
          q.link.line = .sending ∧ q.link.since = t.crystal ∧ q.link.flight = some { f with
            tries := f.tries + 1, sentTo := (s.part.island f.entry.island).settings.address } ∧
          sends f.entry.island f.entry.request q ∧ (f.tries ≠ 0 → q.evt = s.part.evt)) ∧
        (∀ e, k.queue.head? = some e → (k.flight = none ∨ k.flight.any (·.orphan) = true) →
          q.link.line = .sending ∧ q.link.since = t.crystal ∧ q.link.flight = some
            { entry := e, tries := 1, sentTo := (s.part.island e.island).settings.address, orphan := false } ∧
          sends e.island e.request q ∧ late e q) ∧
        (k.queue = [] → (k.flight = none ∨ k.flight.any (·.orphan) = true) → (∀ i, (k.stations.get i).due = false) →
          q.link = { k with line := .idle, flight := none }) ∧
        ChangesOnly (.time :: Block.linking) s.part q) ∧
    (∀ i, (k.stations.get i).countdown = 0 →
      Completes (.pollCountdownExpiry i) s fun q =>
        (q.link.stations.get i).countdown = k.settings.interval ∧
        ((q.link.stations.get i).due = true ∨
          ∃ e ∈ q.link.queue ++ q.link.flight.toList.map (·.entry), e = ⟨i, .poll⟩) ∧
        (k.line = .idle → k.queue = [] → k.flight = none →
          let other := k.stations.get i.other
          let begins := q.link.line = .sending ∧ q.link.flight.map (·.entry) = some ⟨i, .poll⟩ ∧ sends i .poll q
          (other.due = false → i = .i1 ∨ other.countdown ≠ 0 → begins) ∧
          (i = .i1 → other.due = true → k.settings.interval ≠ 0 → begins ∧ q.link.queue = [⟨.i2, .poll⟩]) ∧
          (i = .i2 → other.due = false → other.countdown = 0 →
            q.link.line = .idle ∧ q.link.queue = [] ∧ (q.link.stations.get .i2).due = true)) ∧
        ChangesOnly Block.linking s.part q)

/-- A reply message. Outside AWAITING, or with the reply timer run out, it is not taken. It is good with no framing error, a sum
of 0, the address its request went to with the direction bit, and as its code and argument ACCEPT with the port of the MOVE it
answers, REFUSE with any reason to a MOVE, or STATUS with a port from 1 to 4 to a POLL. A bad one is discarded; a good one ends
the transaction, the station is ONLINE with no misses, STATION_OFFLINE ends, and its report is recorded, with the STATION events
of what changed. At rest at the port awaited it confirms the move, elsewhere or moving it does not; with no move awaiting,
moving leaves the source UNKNOWN, and at rest at another port than the record's the source is the one at that port; a refusal of
the port awaited fails the move. ON_AIR tells of each (that it carries no port with UNKNOWN for a moving mirror or a failure is
the model's choice, log entry 54), at a confirmation and a failure also where the source does not change (R102, R103; DEDUCED,
log entry 19). The take that owns the move ends after it: by TAKE_END with its pending outcome when confirmed, FAILED with
reason MIRROR when refused. F_end is that of the new head on air, NO_SAFE_SOURCE clears as the source is known and is raised as
a move to STANDBY is refused, and MIRROR_FAULT is raised by a refusal and by the station-fault flag, and clears at rest without
the flag. An active take that stays is re-formed for the source on air, and with none the front take is activated, where the
head on air runs with its lamp and its guard is not reached. A take left in the list, or an end guard, may make its own commit
at once (the model's choice, log entry 2; at F_cut M fields on for a READY one that becomes NOW: log entry 59). The reply to a
request sent before the address changed is not counted. Bits 3 to 5 of a STATUS argument are not judged (log entry 30) (R75,
R92, R95 to R99, R102 to R105, R112, R116, R120 to R122, R127 to R130, R190). -/
def Obligations.RepliesAreJudged : Prop :=
  ∀ (s : State) (dt : Nat) (a c g e : LinkChar), s.part.mode = .running →
    let k := s.part.link
    let m := [a, c, g, e]
    let cmd := Instr.replyMessage dt m
    a.address = true → c.address = false → g.address = false → e.address = false →
    (k.line ≠ .awaiting ∨ k.timer + k.settings.timeout * 1000 < s.part.time.now + dt →
      Completes cmd s fun q => ChangesOnly [.time] s.part q) ∧
    (∀ f, k.flight = some f → k.line = .awaiting → s.part.time.now + dt ≤ k.timer + k.settings.timeout * 1000 →
      let i := f.entry.island
      let x := s.part.island i
      let good := a.framing = false ∧ c.framing = false ∧ g.framing = false ∧ e.framing = false ∧
        a.data + c.data + g.data + e.data = 0 ∧ a.data.toNat = 128 + f.sentTo % 16
      let r : Option Reply := if good then
          match f.entry.request with
          | .move port _ =>
            if c.data = 0x81 ∧ g.data.toNat = port.num then some .accept
            else if c.data = 0x82 then some (.refuse g.data) else none
          | .poll =>
            let port : Option Port := match g.data.toNat % 8 with
              | 1 => some .p1 | 2 => some .p2 | 3 => some .p3 | 4 => some .p4 | _ => none
            if c.data = 0x83 then port.map fun port => .status port (g.data.getLsbD 6) (g.data.getLsbD 7) else none
        else none
      (r = none → Completes cmd s fun q => q.link = { k with assembling := [] } ∧ ChangesOnly [.time, .link] s.part q) ∧
      (r.isSome = true → f.orphan = true → Completes cmd s fun q =>
        let y := q.link.stations.get i
        let old := k.stations.get i
        q.link.line = .gap ∧ q.link.flight = none ∧ y.online = old.online ∧ y.misses = old.misses ∧ y.port = old.port ∧
        y.refusal = old.refusal ∧ ChangesOnly [.time, .link] s.part q) ∧
      (∀ reply, r = some reply → f.orphan = false → Completes cmd s fun q =>
        let y := q.link.stations.get i
        let commits := ∃ d, (q.island i).confirm = some d ∧ (q.island i).mirror = .moving d.port
        let left (owner : Owner) := x.takes ≠ [] ∧ (owner = .take → x.active.isSome = true → x.takes.length ≠ 1)
        let old := k.stations.get i
        let station (cause : StationCause) (refusal : Option Refusing) : EventItem :=
          .station cause f.sentTo .online y.port y.moving y.fault 0 refusal
        q.link.line = .gap ∧ q.link.flight = none ∧ y.online = .online ∧ y.misses = 0 ∧
        (s.part.alarms.sound = true → old.online = .offline → q.alarms.rests (.island i) .stationOffline) ∧
        (s.part.listens → q.tells (.island i)
          ((if old.online = .online then [] else [station .online none]) ++
            match reply with
            | .accept => []
            | .status port moving fault =>
              if old.port = some port ∧ old.moving = moving ∧ old.fault = fault then [] else [station .report none]
            | .refuse _ => [station .refused y.refusal])) ∧
        let followed (out : Source) (takes : List Take) : Prop :=
          (∀ h, out = .head h → (s.part.head h).drive.running = true ∧ (s.part.analog.lamp.get h).condition ≠ some .lampFail) →
            (∀ f, (q.island i).fEnd.bind (·.value) = some f → s.part.ahead i f) → TakesFollow i out s.part q takes
        let ending (out : Source) : Option Pred := match out with
          | .head h => (s.part.cueFor .ending none out).map fun c => formPred s.part .cutOrEnd h c.frame
          | .standby => none
          | .unknown => none
        (reply = .accept → y.port = (k.stations.get i).port ∧ q.island i = x) ∧
        (∀ port moving fault, reply = .status port moving fault →
          y.port = some port ∧ y.moving = moving ∧ y.fault = fault ∧
          (fault = true → s.part.alarms.sound = true → q.alarms.shows (.island i) .mirrorFault = true) ∧
          (fault = false → moving = false → s.part.alarms.sound = true → q.alarms.rests (.island i) .mirrorFault) ∧
          (x.confirm = none → moving = true → (q.island i).onAir = .unknown ∧
            ((q.island i).mirror = .unknown ∧ (q.island i).confirm = none ∨ x.takes ≠ [] ∧ commits) ∧
            (x.onAir ≠ .unknown → (q.island i).fEnd = none ∧ (x.active.isSome = true → followed .unknown x.takes) ∧
              (s.part.listens → q.tells (.island i) [.onAir .report .unknown x.onAir none none]))) ∧
          (x.confirm = none → moving = false → x.mirror = .atPort port → q.island i = x) ∧
          (x.confirm = none → moving = false → x.mirror ≠ .atPort port →
            ((q.island i).mirror = .atPort port ∧ (q.island i).confirm = none ∨ commits) ∧
            (∀ h, (s.part.head h).assigned = some ⟨i, port⟩ → (∀ n, n ≠ h → (s.part.head n).assigned ≠ some ⟨i, port⟩) →
              (q.island i).onAir = .head h) ∧
            ((∀ h, (s.part.head h).assigned ≠ some ⟨i, port⟩) →
              (q.island i).onAir = if x.settings.standbyPort = port then .standby else .unknown) ∧
            ((q.island i).onAir ≠ x.onAir → (q.island i).fEnd = ending (q.island i).onAir ∧
              (x.active.isSome = true → followed (q.island i).onAir x.takes) ∧
              ((q.island i).onAir ≠ .unknown → s.part.alarms.sound = true → q.alarms.rests (.island i) .noSafeSource) ∧
              (s.part.listens →
                q.tells (.island i) [.onAir .report (q.island i).onAir x.onAir (some port) none]))) ∧
          (∀ w, x.confirm = some w →
            (moving = true ∨ port ≠ w.port → q.island i = x) ∧
            (moving = false → port = w.port →
              w.target = .standby ∨ (∃ h, w.target = .head h ∧ (s.part.head h).drive = .locked ∧
                (s.part.analog.lamp.get h).condition ≠ some .lampFail) →
              (q.island i).onAir = w.target ∧ (w.target ≠ x.onAir → (q.island i).fEnd = ending w.target) ∧
              (s.part.alarms.sound = true → q.alarms.rests (.island i) .noSafeSource) ∧
              (s.part.listens → q.tells (.island i) [.onAir .confirmed w.target x.onAir (some w.port) (some w.cut)]) ∧
              (∀ t, w.owner = .take → x.active = some t → (q.island i).takes.length < x.takes.length ∧
                (s.part.listens → q.tells (.island i) [.onAir .confirmed w.target x.onAir (some w.port) (some w.cut),
                  .takeEnd t.tag t.outcome .none t.incoming t.outgoing t.fCut t.error t.slip t.lost])) ∧
              followed w.target (if w.owner = .take ∧ x.active.isSome = true then x.takes.tail else x.takes) ∧
              ((q.island i).mirror = .atPort w.port ∧ (q.island i).confirm = none ∧ y.fast = false ∨
                (left w.owner ∨ (q.island i).fEnd.isSome = true) ∧ commits)))) ∧
        (∀ reason, reply = .refuse reason →
          y.refusal.map (·.reason) = some reason ∧ y.refusal.map (·.port) = f.entry.request.port? ∧
          (s.part.alarms.sound = true → q.alarms.shows (.island i) .mirrorFault = true) ∧
          (∀ w, x.confirm = some w →
            (f.entry.request.port? ≠ some w.port → q.island i = x) ∧
            (f.entry.request.port? = some w.port → (q.island i).onAir = .unknown ∧ (q.island i).fEnd = none ∧
              (w.target = .standby → q.alarms.shows (.island i) .noSafeSource = true) ∧
              followed .unknown (if w.owner = .take ∧ x.active.isSome = true then x.takes.tail else x.takes) ∧
              (∀ t, w.owner = .take → x.active = some t → s.part.listens → q.tells (.island i)
                [.onAir .failed .unknown x.onAir none none,
                 .takeEnd t.tag .failed .mirror t.incoming t.outgoing t.fCut t.error t.slip t.lost]) ∧
              (s.part.listens → q.tells (.island i) [.onAir .failed .unknown x.onAir none none]) ∧
              ((q.island i).mirror = .unknown ∧ (q.island i).confirm = none ∨ left w.owner ∧ commits)))) ∧
        HeadsSteered s.part q ∧ ChangesOnly (.time :: Block.scheduling) s.part q))

/-! ### Analog scanner (chapter 8) -/

/-- A scan begins at its period with channel 0 next, and a conversion is taken by the scan's next channel as its last reading.
A lamp channel is judged in LAMP_OFF while its LAMP output is off, in WARMING until the lamp settle has passed since the lamp
was switched on, and in LAMP_ON then; a tension channel in DRIVEN in the driven states, else in CLEARING with a condition and
in IDLE without. The first conversion after a reset or CLEAR finds the judging mode. While ANALOG_REF is present nothing else
of channels 1 to 8 changes; the first reading after it finds the counts at 0 when the mode is another, and ends a lamp
condition that does not belong to it. A reading out of the window counts toward the condition and one inside it away from it,
to the debounce; FILM_BREAK and JAM fault the head, and LAMP_FAIL is an on-air fault as they are: an emergency commit of a
take that can cut, else a standby commit after which the take waits on; FILM_BREAK and JAM of an incoming head fail its take. A change of the LAMP output, by a LAMP command, by a START under AUTO or by the entry into FAULT,
sets the counts of its channel to 0 and ends the condition tied to the old output, and a change into IDLE sets the out count
to 0, both but while ANALOG_REF is present (R29, R107, R109, R132 to R138, R140). That a lamp back in WARMING by a longer lamp
settle keeps its counts is the model's choice (log entry 50). A scan taken late begins at its own moment on the schedule, and
a reading that is not judged leaves a mode already found (the model's choice, log entry 32). -/
def Obligations.ConversionsAreJudged : Prop :=
  ∀ (s : State) (dt : Nat) (r : BitVec 10), s.part.mode = .running →
    let a := s.part.analog
    let t := s.part.time.now + dt
    (a.begun + a.period * 1000 ≤ t → Completes (.scanStart dt) s fun q =>
      q.analog = { a with begun := a.begun + a.period * 1000, next := 0 } ∧ ChangesOnly [.time, .analog] s.part q) ∧
    (a.begun + 100 * (a.next + 1) ≤ t → ∀ k, channelOfNat a.next = some k →
      let mode : Option JudgingMode := match k with
        | .reference => none
        | .lamp h =>
          let x := s.part.head h
          some (if x.outputs.lamp = false then .lampOff
            else if x.lampOnAt.all (fun lit => decide (lit + x.settings.lampSettle * 1000 ≤ t)) then .lampOn else .warming)
        | .tension h =>
          some (if (s.part.head h).drive ∈ [DriveState.runup, .locked, .unlocked, .cueFast, .cueInch] then .driven
            else if (a.tension.get h).condition.isSome then .clearing else .idle)
      let c : Channel := { a.channel k with last := r.toNat, mode := (a.channel k).mode.or mode }
      let silent := mode = some .warming ∨ mode = some .idle
      let other := decide (k ≠ .reference) && c.frozen && decide (mode ≠ c.mode)
      let ends := other && (decide (c.condition = some .lampFail ∧ mode = some .lampOff) ||
        decide (c.condition = some .lampStuck ∧ mode ≠ some .lampOff))
      let held : Channel := if other then
        { c with outCount := 0, inCount := 0, condition := if ends then none else c.condition } else c
      let low := decide (r.toNat < c.limits.low) && decide (mode ≠ some .lampOff)
      let high := if mode = some .lampOff then decide (c.limits.low < r.toNat) else decide (c.limits.high < r.toNat)
      let kept := k.sided = true ∧ c.outSide ≠ (if low then .low else .high)
      let n := if kept then 1 else held.outCount + 1
      let cmd := Instr.conversionComplete dt r
      (k ≠ .reference → a.reference.condition.isSome = true → Completes cmd s fun q =>
        q.analog = { a.setChannel k c with next := a.next + 1 } ∧
        ChangesOnly [.time, .analog] s.part q) ∧
      (k = .reference ∨ a.reference.condition = none →
        (silent → Completes cmd s fun q =>
          q.analog = { a.setChannel k { held with frozen := false } with next := a.next + 1 } ∧
          (ends = false → ChangesOnly [.time, .analog] s.part q) ∧
          ChangesOnly ([.time, .analog] ++ Block.alarming) s.part q) ∧
        (¬ silent → Completes cmd s fun q =>
          let d := q.analog.channel k
          d.last = r.toNat ∧ d.limits = c.limits ∧ q.analog.next = a.next + 1 ∧
          (low = false → high = false → held.condition = none → d.outCount = 0 ∧ d.condition = none) ∧
          (low = false → high = false → ∀ x, held.condition = some x →
            (held.inCount + 1 < c.limits.debounce → d.inCount = held.inCount + 1 ∧ d.condition = some x) ∧
            (c.limits.debounce ≤ held.inCount + 1 → d.inCount = 0 ∧ d.condition = none)) ∧
          (low = true ∨ high = true → held.condition.isSome = true → d.inCount = 0 ∧ d.condition = held.condition) ∧
          (low = true ∨ high = true → held.condition = none →
            (n < c.limits.debounce → d.outCount = n ∧ d.condition = none) ∧
            (c.limits.debounce ≤ n → d.outCount = 0 ∧
              (k = .reference → d.condition = some .analogRef ∧ q.alarms.shows .analog .analogRef = true) ∧
              (∀ h, k = .lamp h → d.condition = some (if mode = some .lampOff then .lampStuck else .lampFail) ∧
                (mode ≠ some .lampOff → FaultGuarded h s.part q) ∧
                (mode = some .lampOff → ChangesOnly ([.time, .analog] ++ Block.alarming) s.part q)) ∧
              (∀ h, k = .tension h → d.condition = some (if low then .filmBreak else .jam) ∧
                (mode = some .driven →
                  (q.head h).drive = .fault ∧ (q.head h).outputs.fwd = false ∧ (q.head h).outputs.rev = false ∧
                  FaultGuarded h s.part q ∧ IncomingEnds h .incomingFault s.part q)))) ∧
          ChangesOnly (.time :: Block.scheduling) s.part q))) ∧
    (∀ w h, readHead w = some h →
      let x := s.part.head h
      let c := a.lamp.get h
      let tied (on : Bool) : Option AlarmKind :=
        if c.condition = some .lampFail ∧ on = false then some .lampFail
        else if c.condition = some .lampStuck ∧ on = true then some .lampStuck else none
      let switches (on : Bool) (q : Part) : Prop :=
        (q.head h).outputs.lamp = on ∧
        (a.reference.condition.isSome = true → q.analog.lamp.get h = c) ∧
        (a.reference.condition = none →
          q.analog.lamp.get h = { c with outCount := 0, inCount := 0, condition := if (tied on).isSome then none else c.condition } ∧
          ∀ k, tied on = some k → s.part.alarms.sound = true → q.alarms.rests (.head h) k)
      (∀ on b, readFlag on = some b → x.drive ≠ .fault → Replies (.lamp w on) s .ok fun q =>
        (x.outputs.lamp ≠ b → switches b q) ∧ (x.outputs.lamp = b → q.analog = a)) ∧
      (x.drive.atRest = true → x.outputs.lamp = false → x.lampPolicy = .auto → s.part.headLocal h = false →
        Replies (.start w) s .ok (switches true)) ∧
      (∀ lit, x.gapFrom = some lit → x.drive ≠ .fault → x.outputs.lamp = true →
        lit + (if x.drive = .locked ∨ x.drive = .unlocked then x.settings.lossTimeout else x.settings.startResponse) * 1000 ≤ t →
        Completes (.tachGapExpiry dt h) s (switches false)) ∧
      (x.drive.running = true → s.part.headLocal h = false → Replies (.stop w) s .ok fun q =>
        let d := a.tension.get h
        (a.reference.condition = none → d.condition = none → q.analog.tension.get h = { d with outCount := 0 }) ∧
        (a.reference.condition.isSome = true ∨ d.condition.isSome = true → q.analog.tension.get h = d)))

/-! ### Commands of the device: analog limits, panel, flags, alarms (chapters 8 to 12) -/

/-- SET_ANALOG_LIMITS, SET_PANEL_MODE and RESET_FLAGS: their checks, the clamped values, the counts of the channel at 0, and
nothing else changed (R139, R162, R167, R184). -/
def Obligations.DeviceCommands : Prop :=
  ∀ (s : State) (channel low high debounce mode dwell : Word), s.part.mode = .running →
    let l := min 1023 low.toNat
    let u := min 1023 high.toNat
    let n := max 1 (min 15 debounce.toNat)
    (8 < channel.toNat → Refuses (.setAnalogLimits channel low high debounce) s .badTarget) ∧
    (∀ k, channelOfNat channel.toNat = some k →
      (u < l → Refuses (.setAnalogLimits channel low high debounce) s .badArgument) ∧
      (l ≤ u → Replies (.setAnalogLimits channel low high debounce) s
        (if l = low.toNat ∧ u = high.toNat ∧ n = debounce.toNat then .ok else .clamped) fun q =>
          q.analog = s.part.analog.setChannel k { s.part.analog.channel k with
            limits := ⟨l, u, n⟩, outCount := 0, inCount := 0 } ∧ ChangesOnly [.status, .analog] s.part q)) ∧
    (1 < mode.toNat → Refuses (.setPanelMode mode dwell) s .badArgument) ∧
    (mode.toNat ≤ 1 → Replies (.setPanelMode mode dwell) s (if dwell.toNat ≤ 127 then .ok else .clamped) fun q =>
      q.panel = { s.part.panel with mode := if mode = 0 then .feet else .frames, dwell := min 127 dwell.toNat } ∧
      ChangesOnly [.status, .panel] s.part q) ∧
    Replies .resetFlags s .ok fun q =>
      q.bus = { s.part.bus with violation := none } ∧ q.evt = { s.part.evt with lost := false } ∧
      ChangesOnly [.status, .decoder, .events] s.part q

/-- ACK_ALARMS walks the entries of its scope: ACTIVE_NEW becomes ACTIVE_ACK, CLEARED_NEW is removed, every other entry keeps
its place; the overflow record ends and the horn is judged. A source that is none is BAD_ARGUMENT (R141, R146, R147). -/
def Obligations.AckAlarmsCommand : Prop :=
  ∀ (s : State) (source : Word), s.part.mode = .running →
    (8 < source.toNat → source ≠ 255 → Refuses (.ackAlarms source) s .badArgument) ∧
    (∀ scope, readScope source = some scope → s.part.alarms.sound = true → Replies (.ackAlarms source) s .ok fun q =>
      q.alarms.entries = s.part.alarms.entries.filterMap (fun e =>
        if scope = none ∨ scope = some e.source then
          match e.state with
          | .activeNew => some { e with state := .activeAck }
          | .activeAck => some e
          | .clearedNew => none
        else some e) ∧
      q.alarms.overflow = false ∧ q.alarms.overflowHorn = false ∧
      q.alarms.horn = q.alarms.entries.any (fun e => decide (e.state ≠ .activeAck) && decide (e.kind.severity ≠ .warning)) ∧
      ChangesOnly (.status :: Block.alarming) s.part q)

/-- A raise of a pair that a full table does not hold: the oldest CLEARED_NEW entry gives way, else the oldest ACTIVE_ACK
WARNING, and the new entry joins the back; else the table stands, and the overflow record is set. REMOVED comes before RAISED;
REMOVED EVICTED carries the evicted entry's state and NOT_ENTERED the state it would have entered, while their item of the
state after the action is none (R142, R143, R145, R147, R148; that both are carried is the model's choice, log entry 18). -/
def Obligations.FullTableMakesRoom : Prop :=
  ∀ (p : Part) (source : AlarmSource) (kind : AlarmKind) (d1 d2 : Word), p.alarms.sound = true →
    p.alarms.find? source kind = none → p.alarms.entries.length = 24 →
    let q := raiseAlarm source kind d1 d2 p
    let es := p.alarms.entries
    let new : AlarmEntry :=
      { source := source, kind := kind, stamp := p.ref.count, state := if kind.momentary then .clearedNew else .activeNew }
    let first := es.find? fun e => decide (e.state = .clearedNew)
    let second := es.find? fun e => decide (e.state = .activeAck) && decide (e.kind.severity = .warning)
    let tells (items : List (AlarmSource × EventItem)) : Prop :=
      p.evt.writing = true → p.evt.queue.length ≤ 14 →
        q.evt.queue = p.evt.queue ++ items.map fun x => { source := x.1, stamp := p.ref.count, item := x.2 }
    let replaces (e : AlarmEntry) : Prop :=
      q.alarms.entries = es.erase e ++ [new] ∧ q.alarms.overflow = p.alarms.overflow ∧
      tells [(e.source, .alarm .removed (some (.evicted e.state)) none (some e.kind) false 0 0),
             (source, .alarm .raised none (some new.state) (some kind) false d1 d2)]
    (∀ e, first = some e → replaces e) ∧
    (∀ e, second = some e → first = none → replaces e) ∧
    (first = none → second = none → q.alarms.entries = es ∧ q.alarms.overflow = true ∧
      tells [(source, .alarm (.notEntered new.state) none none (some kind) true d1 d2)] ∧
      (kind.severity = .warning → q.alarms.overflowHorn = p.alarms.overflowHorn) ∧
      (kind.severity ≠ .warning → q.alarms.overflowHorn = true ∧ q.alarms.horn = true)) ∧
    ChangesOnly Block.alarming p q

/-! ### Operator panel (chapter 10) -/

/-- The end of a dwell: the four keys of the row are sampled, a level that differs from the debounced state for the third time
in a row changes it, and the next row's dwell begins. A row without a completed press changes the panel alone; a LOCAL key
turns its island's authority over; START, STOP and CUE do nothing outside LOCAL; ACK acknowledges every entry. KEY tells of each
press, with the authority found; that the source of ACK's is the Device is the model's choice (log entry 46)
(R146, R152, R154 to R157). -/
def Obligations.DwellEndSamplesTheRow : Prop :=
  ∀ (s : State) (dt : Nat) (levels : BitVec 4), s.part.mode ≠ .loading →
    let x := s.part.panel
    let old := x.keys[x.row]
    let one (down : Bool) (k : KeyPos) : KeyPos :=
      if down = k.down then ⟨k.down, 0⟩ else if 2 ≤ k.agree then ⟨down, 0⟩ else ⟨k.down, k.agree + 1⟩
    let new : RowKeys := ⟨one (levels.getLsbD 0) old.r1, one (levels.getLsbD 1) old.r2, one (levels.getLsbD 2) old.r3,
      one (levels.getLsbD 3) old.r4⟩
    let fresh (n : Nat) (k l : KeyPos) : List Nat := if k.down = false ∧ l.down = true then [n] else []
    let presses := fresh 1 old.r1 new.r1 ++ fresh 2 old.r2 new.r2 ++ fresh 3 old.r3 new.r3 ++ fresh 4 old.r4 new.r4
    let length := (x.dwellNow + 1) * 32
    x.begun + length ≤ s.part.time.now + dt → Completes (.dwellEnd dt levels) s fun q =>
      q.panel.keys = x.keys.set x.row new ∧ q.panel.row = x.row + 1 ∧ q.panel.begun = x.begun + length ∧
      q.panel.dwellNow = x.dwell ∧ q.panel.dwell = x.dwell ∧ q.panel.mode = x.mode ∧
      (presses = [] ∨ s.part.mode = .transparent → ChangesOnly [.time, .panel] s.part q) ∧
      (∀ i, s.part.mode = .running → presses = [4] → x.row.val = (if i = .i1 then 1 else 3) →
        (q.island i).authority ≠ (s.part.island i).authority ∧
        q.island i = { s.part.island i with authority := (q.island i).authority } ∧
        (s.part.listens →
          q.tells (.island i) [.key .acted (some (s.part.island i).authority) (x.row.val + 1) 4 none]) ∧
        ChangesOnly ([.time, .panel, .island i] ++ Block.posting) s.part q) ∧
      (∀ h n, s.part.mode = .running → presses = [n] → n ≤ 3 → x.row.val + 2 = 2 * h.num →
        s.part.headLocal h = false →
        (s.part.listens → q.tells (.head h) [.key .eventOnly
          ((s.part.head h).assigned.map fun b => (s.part.island b.island).authority) (x.row.val + 1) n none]) ∧
        ChangesOnly ([.time, .panel] ++ Block.posting) s.part q) ∧
      (s.part.mode = .running → presses = [1] → x.row.val = 5 → s.part.alarms.sound = true →
        (∀ e ∈ q.alarms.entries, e.state = .activeAck) ∧ q.alarms.horn = false ∧
        (s.part.listens → s.part.alarms.entries.length ≤ 15 → q.tells .device [.key .acted none 6 1 none]) ∧
        ChangesOnly ([.time, .panel] ++ Block.alarming) s.part q) ∧
      ChangesOnly ([.time, .panel] ++ Block.scheduling) s.part q

/-- What a row of the panel shows as its dwell begins, the row before it without a completed press. The row's 24 points are
derived afresh, and the other rows' stand. A head's first row latches its value, which both of its rows show: sign, thousands
and hundreds, READY, RUN and FAULT there; tens, units, ON AIR and NEXT in its second, with the lamps of the islands and of the
device. Flashing lamps follow the field count. In transparent mode only CONFIG is lit. The shapes of the ten digits are the
model's choice (log entry 11) (R87, R152, R153, R160, R161, R163). -/
def Obligations.PanelShowsThePart : Prop :=
  ∀ (s : State) (dt : Nat) (levels : BitVec 4), s.part.mode ≠ .loading →
    let x := s.part.panel
    let p := s.part
    let r := x.row + 1
    x.begun + (x.dwellNow + 1) * 32 ≤ p.time.now + dt →
    (p.mode = .running → x.keys[x.row].pressed (x.keys[x.row].sample levels) = []) →
    Completes (.dwellEnd dt levels) s fun q =>
      let lit (n : Nat) : Bool := q.panel.image[r].getLsbD n
      let digit (n : Nat) : Nat := (q.panel.image[r].extractLsb' (7 * n) 7).toNat
      let flash := decide (p.ref.count.toNat / 16 % 2 = 0)
      let shape (v : Shown) (k : Nat) : Nat :=
        if (if v.negative then 999 else 9999) < v.magnitude then 0x40
        else if k ≠ 0 ∧ v.magnitude < 10 ^ k then 0 else digitSegments (v.magnitude / 10 ^ k % 10)
      let unseen (source : AlarmSource) : Bool :=
        p.alarms.entries.any fun e => decide (e.source = source) && decide (e.state ≠ .activeAck)
      (∀ k : Fin 8, k ≠ r → q.panel.image[k] = x.image[k]) ∧
      (p.mode = .transparent → q.panel.image[r] = (if r.val = 5 then BitVec.ofNat 24 (2 ^ 17) else 0) ∧ q.panel.shown = x.shown) ∧
      (∀ h, p.mode = .running → r.val + 2 = 2 * h.num →
        let y := p.head h
        let v : Shown := { negative := decide (y.pos.frame < 0), magnitude := y.pos.frame.natAbs /
          (if x.mode = .frames then 1 else if y.settings.gauge = .g35 then 16 else 40) }
        q.panel.shown = x.shown.set h (some v) ∧
        digit 0 = (if v.negative then 0x40 else 0) ∧ digit 1 = shape v 3 ∧ digit 2 = shape v 2 ∧
        lit 21 = decide (y.drive = .parked ∨ y.drive = .locked) ∧
        lit 22 = decide (y.drive.running = true ∨ y.drive = .cueFast ∨ y.drive = .cueInch) ∧
        lit 23 = (if unseen (.head h) then flash else decide (y.drive = .fault))) ∧
      (∀ h, p.mode = .running → r.val + 1 = 2 * h.num →
        q.panel.shown = x.shown ∧
        (∀ v, x.shown.get h = some v → digit 0 = shape v 1 ∧ digit 1 = shape v 0) ∧
        (lit 14 = true ↔ ∃ i, (p.island i).onAir = .head h) ∧ (lit 15 = true ↔ ∃ i, (p.island i).preset = .head h)) ∧
      (∀ i, p.mode = .running → r.val = (if i = .i1 then 1 else 3) →
        lit 16 = decide ((p.island i).authority = .panel) ∧ lit 17 = decide ((p.island i).onAir = .standby) ∧ lit 18 = false) ∧
      (p.mode = .running → r.val = 5 →
        lit 16 = (if p.alarms.overflow || p.alarms.entries.any (fun e => decide (e.state ≠ .activeAck)) then flash
          else decide (p.alarms.entries ≠ [])) ∧
        lit 17 = false ∧ lit 18 = (if p.ref.state = .slewing then flash else decide (p.ref.state = .locked))) ∧
      ChangesOnly [.time, .panel] s.part q

/-- The keys that act, the press the only one the sample completes. PRESET in LOCAL steps the preset to the assigned head of
the next port above it, and to STANDBY after the last; TAKE in LOCAL makes a take of the preset, NOW, tag 0, at the back of
the list, unless the preset is on air or the list is full, and one of STANDBY that finds the list empty commits at once;
STANDBY commits the standby source in either authority; START, STOP and CUE in LOCAL do what START, STOP and CUE_UP do, CUE to
the lowest pending SOP cue, STOP in every drive state; PRESET and TAKE do nothing in REMOTE. KEY tells of each press, with its
outcome and the reason of a refusal, after the HEAD_STATE with cause KEY of a change of the drive state (R24, R25, R36, R62,
R63, R96, R111, R155, R157 to R159). -/
def Obligations.PanelKeysAct : Prop :=
  ∀ (s : State) (dt : Nat) (levels : BitVec 4), s.part.mode = .running →
    let x := s.part.panel
    let presses := x.keys[x.row].pressed (x.keys[x.row].sample levels)
    let cmd := Instr.dwellEnd dt levels
    let count := s.part.ref.count
    let few := s.part.listens ∧ ∀ i, (s.part.island i).takes.length ≤ 1
    x.begun + (x.dwellNow + 1) * 32 ≤ s.part.time.now + dt →
    (∀ i, x.row.val = (if i = .i1 then 1 else 3) →
      let y := s.part.island i
      let z := y.settings
      let cut := count + BitVec.ofNat 32 z.lead
      let present : Nat := match y.preset with
        | .head h => ((s.part.head h).assigned.map (·.port.num)).getD 4
        | .standby => 0
        | .unknown => 0
      let above (h : HeadId) : Bool := (s.part.head h).assigned.any fun b => b.island = i && decide (present < b.port.num)
      let lower (h k : HeadId) : Bool :=
        decide (((s.part.head h).assigned.map (·.port.num)).getD 0 < ((s.part.head k).assigned.map (·.port.num)).getD 0)
      let key (n : Nat) (outcome : KeyOutcome) (q : Part) : Prop :=
        few → q.tells (.island i) [.key outcome (some y.authority) (x.row.val + 1) n none]
      (∀ n, y.authority = .remote → presses = [n] → n ≤ 2 → Completes cmd s fun q =>
        key n .eventOnly q ∧ ChangesOnly ([.time, .panel] ++ Block.posting) s.part q) ∧
      (y.authority = .panel → presses = [1] → Completes cmd s fun q =>
        key 1 .acted q ∧ q.island i = { y with preset := (q.island i).preset } ∧
        ((∀ h, above h = false) → (q.island i).preset = .standby) ∧
        (∀ h, above h = true → (∀ k, k ≠ h → above k = true → lower h k = true) → (q.island i).preset = .head h) ∧
        ChangesOnly ([.time, .panel, .island i] ++ Block.posting) s.part q) ∧
      (y.authority = .panel → presses = [2] → y.preset = y.onAir ∨ 6 ≤ y.takes.length → Completes cmd s fun q =>
        key 2 .eventOnly q ∧ ChangesOnly ([.time, .panel] ++ Block.posting) s.part q) ∧
      (y.authority = .panel → presses = [2] → y.preset ≠ y.onAir → y.takes.length < 6 →
        (∀ h, y.preset = .head h → (s.part.head h).assigned.map (·.island) = some i) →
        (y.takes ≠ [] ∨ y.confirm.isSome = true → Completes cmd s fun q =>
          (∃ t, (q.island i).takes.getLast? = some t ∧ q.island i = { y with takes := y.takes ++ [t] } ∧ t.tag = 0 ∧
            t.incoming = y.preset ∧ t.mode = .now ∧
            t.state = .queued ∧ t.inCue = none ∧ t.outCue = none ∧ t.tolerance = none ∧ t.preroll = .auto) ∧
          key 2 .acted q ∧ ChangesOnly ([.time, .panel, .island i] ++ Block.posting) s.part q) ∧
        (y.takes = [] → y.confirm = none → y.preset = .standby → Completes cmd s fun q =>
          (q.island i).takes.map (fun t => (t.tag, t.incoming, t.state)) = [(0, .standby, .committed)] ∧
          (q.island i).confirm = some { target := .standby, port := z.standbyPort, cut := cut, owner := .take
                                        deadline := cut + BitVec.ofNat 32 z.grace } ∧
          key 2 .acted q ∧ HeadsSteered s.part q ∧ ChangesOnly ([.time, .panel] ++ Block.scheduling) s.part q) ∧
        (∀ h, y.takes = [] → y.confirm = none → y.preset = .head h → (s.part.head h).drive.atRest = true →
          Completes cmd s fun q =>
            (q.island i).takes.map (fun t => (t.tag, t.incoming, t.state)) = [(0, .head h, .starting)] ∧
            (q.head h).drive = .runup ∧
            key 2 .acted q ∧ HeadsSteered s.part q ∧ ChangesOnly ([.time, .panel] ++ Block.scheduling) s.part q)) ∧
      (presses = [3] → Completes cmd s fun q =>
        q.island i = { y with
          mirror := .moving z.standbyPort
          confirm := some { target := .standby, port := z.standbyPort, cut := cut, owner := .island
                            deadline := cut + BitVec.ofNat 32 z.grace }
          takes := if y.active.isSome then y.takes.tail else y.takes } ∧
        key 3 .acted q ∧ ChangesOnly ([.time, .panel] ++ Block.committing i) s.part q)) ∧
    (∀ h, x.row.val + 2 = 2 * h.num → s.part.headLocal h = true →
      let y := s.part.head h
      let pending := y.cues.find? fun c => decide (c.kind = .sop) && !c.passed
      let key (n : Nat) (outcome : KeyOutcome) (refusal : Option Status) (q : Part) : Prop :=
        few → q.tells (.head h) [.key outcome (some .panel) (x.row.val + 1) n refusal]
      let moves (n : Nat) (new : DriveState) (q : Part) : Prop :=
        few → q.tells (.head h) [.headState new y.drive .key y.pos.frame, .key .acted (some .panel) (x.row.val + 1) n none]
      (presses = [1] → y.drive.atRest = true → Completes cmd s fun q =>
        moves 1 .runup q ∧ (q.head h).drive = .runup ∧ (q.head h).cadence.measuring = true ∧ (q.head h).outputs.fwd = true ∧
        (q.head h).outputs.sync = true ∧ (q.head h).pos = y.pos ∧
        OthersSteered h s.part q ∧ ChangesOnly ([.time, .panel] ++ Block.scheduling) s.part q) ∧
      (presses = [1] → y.drive.atRest = false → Completes cmd s fun q =>
        (if y.drive.running then key 1 .acted none q
         else key 1 .refused (some (if y.drive = .fault then .faultLatched else .busy)) q) ∧
        ChangesOnly ([.time, .panel] ++ Block.posting) s.part q) ∧
      (presses = [2] → y.drive.cueing = true ∨ y.drive = .settling → Completes cmd s fun q =>
        moves 2 .stopping q ∧
        q.head h = { y with drive := .stopping, outputs := ⟨false, false, false, false, y.outputs.lamp⟩, gapFrom := none,
                            settleFrom := if y.drive = .settling then y.settleFrom else some (s.part.time.now + dt),
                            cueUp := none, park := none } ∧
        OthersSteered h s.part q ∧ ChangesOnly ([.time, .panel] ++ Block.scheduling) s.part q) ∧
      (presses = [2] → y.drive = .stopping → Completes cmd s fun q =>
        key 2 .acted none q ∧ ChangesOnly ([.time, .panel] ++ Block.posting) s.part q) ∧
      (presses = [2] → y.drive = .stopped ∨ y.drive = .parked ∨ y.drive = .fault → Completes cmd s fun q =>
        key 2 .acted none q ∧ q.head h = { y with outputs := { y.outputs with
          lamp := if y.lampPolicy = .auto then false else y.outputs.lamp } } ∧
        ChangesOnly ([.time, .panel, .head h, .analog] ++ Block.alarming) s.part q) ∧
      (presses = [2] → y.drive.running = true → Completes cmd s fun q =>
        moves 2 .stopping q ∧ (q.head h).drive = .stopping ∧ (q.head h).cadence.measuring = false ∧
        (q.head h).outputs = ⟨false, false, false, false, y.outputs.lamp⟩ ∧ (q.head h).pos = y.pos ∧
        OthersSteered h s.part q ∧ ChangesOnly ([.time, .panel] ++ Block.scheduling) s.part q) ∧
      (presses = [3] → pending = none ∨ y.drive.atRest = false → Completes cmd s fun q =>
        (if pending = none then key 3 .eventOnly none q else key 3 .refused (some .busy) q) ∧
        ChangesOnly ([.time, .panel] ++ Block.posting) s.part q) ∧
      (∀ c, pending = some c → presses = [3] → y.drive.atRest = true → y.cuesSound = true →
        let target := c.frame - y.settings.runupDistance
        (target < -99999 → Completes cmd s fun q =>
          key 3 .refused (some .badArgument) q ∧ ChangesOnly ([.time, .panel] ++ Block.posting) s.part q) ∧
        (target ≤ 999999 → -99999 ≤ target → Completes cmd s fun q =>
          key 3 .acted none q ∧ (y.pos = ⟨target, 0⟩ → y.drive = .stopped → moves 3 .parked q) ∧
          (y.pos ≠ ⟨target, 0⟩ →
            moves 3 (if y.settings.approach < (target - y.pos.frame).natAbs then .cueFast else .cueInch) q ∧
            (q.head h).drive =
              (if y.settings.approach < (target - y.pos.frame).natAbs then .cueFast else .cueInch) ∧
            (q.head h).cueUp.map (·.target) = some target ∧ (q.head h).attempts = 1) ∧
          (q.head h).pos = y.pos ∧
          OthersSteered h s.part q ∧ ChangesOnly ([.time, .panel] ++ Block.scheduling) s.part q)))

/-! ### Bus, rings and agent (chapters 11 and 12) -/

/-- What becomes of a processor cycle: outside every window, and while the part does not run, it passes; inside one it is
passed, snooped, withheld or answered by the window's kind and the index word it lies in. Processor cycles at a port in order.
A cycle that passes takes a free port, or waits while the port is held; its end frees the port, which goes to the cycle that
waits unless the agent's word is starved, and to that word if it is, or if no cycle waits (that a next cycle of the processor
may so wait for its last: the model's choice, log entry 13). A write of a processor-owned index word that is good is the new
last seen index, and an idle Command Unit with an entry to fetch submits the fetch; before the rings are initialised it wakes
nothing (the model's choice, log entry 31); of either word a bad value or one strobe is BAD_INDEX, a memory error nothing. A
consumer value of the event ring has the attention line judged against the producer index; that one handed on between an event
write and the write of the producer index is judged against the index already moved on is the model's choice (log entry 56)
(R164, R166, R171, R176, R182, R183). -/
def Obligations.CyclesAndIndexWrites : Prop :=
  ∀ (s : State) (dt : Nat) (c : BusCycle) (data : Word) (low high ack : Bool), s.part.portSound = true →
    let b := s.part.bus
    (∀ (a : Addr) (write : Bool),
      let inside (v : Window) : Prop := v.base ≤ a.toNat ∧ a.toNat < v.base + 2 ^ v.log2
      (s.part.mode ≠ .running ∨ (∀ v ∈ b.windows, ¬ inside v) → s.part.treat a write = .pass) ∧
      ∀ v ∈ b.windows, s.part.mode = .running → inside v → (∀ u ∈ b.windows, inside u → u = v) →
        let o := (a.toNat - v.base) / 2 * 2
        s.part.treat a write =
          (match v.kind with
           | .command => if write = true ∧ o = 0 then .snooped .command else if write = true ∧ o = 2 then .withheld .command else .pass
           | .event => if write = true ∧ o = 0 then .withheld .event else if write = true ∧ o = 2 then .snooped .event else .pass
           | .live => if write = true then .withheld .live else .answered
           | .guard => if write = true then .withheld .guard else .pass)) ∧
    (∀ k ∈ [WindowKind.command, .event], ∀ v, b.windows.find? (fun v => decide (v.kind = k)) = some v →
      indexWord b k 0 = BitVec.ofNat 20 v.base ∧ indexWord b k 1 = BitVec.ofNat 20 (v.base + 2) ∧ b.ringSize k = v.ring) ∧
    (s.part.treat c.addr c.write = .pass → b.waiting = none →
      (b.holder = .free → Completes (.processorCycle dt (.begins c)) s fun q =>
        q.bus = { b with holder := .processor c } ∧ ChangesOnly [.time, .port] s.part q) ∧
      (b.holder ≠ .free → Completes (.processorCycle dt (.begins c)) s fun q =>
        q.bus = { b with waiting := some c } ∧ ChangesOnly [.time, .port] s.part q)) ∧
    (b.holder = .processor c → s.part.treat c.addr c.write = .pass → ∀ d, b.waiting = some d →
      (s.part.agent.starved = false ∨ s.part.agent.word = .idle → Completes (.processorCycle dt (.ends ack)) s fun q =>
        q.bus = { b with holder := .processor d, waiting := none } ∧ ChangesOnly [.time, .port] s.part q) ∧
      (s.part.agent.starved = true → ∀ since, s.part.agent.word = .ready since →
        Completes (.processorCycle dt (.ends ack)) s fun q =>
          q.bus = { b with holder := .agent } ∧ q.agent = { s.part.agent with word := .active (s.part.time.now + dt) } ∧
          ChangesOnly [.time, .port, .agent] s.part q)) ∧
    (b.holder = .processor c → s.part.treat c.addr c.write = .pass → s.part.agent.word = .idle → b.waiting = none →
      Completes (.processorCycle dt (.ends ack)) s fun q =>
        q.bus = { b with holder := .free } ∧ ChangesOnly [.time, .port] s.part q) ∧
    (∀ since, b.holder = .processor c → s.part.treat c.addr c.write = .pass → s.part.agent.word = .ready since →
      b.waiting = none → Completes (.processorCycle dt (.ends ack)) s fun q =>
        q.bus = { b with holder := .agent } ∧
        q.agent = { s.part.agent with word := .active (s.part.time.now + dt), starved := q.agent.starved } ∧
        ChangesOnly [.time, .port, .agent] s.part q) ∧
    (s.part.mode = .running → b.holder = .free → s.part.treat (indexWord b .command 0) true = .snooped .command →
      let cmd := Instr.commandProducerWrite dt data low high ack
      let good := low = true ∧ high = true ∧ data.toNat < b.ringSize .command
      let wakes := s.part.init = .done ∧ s.part.cmd.fetch = .idle ∧ data.toNat ≠ s.part.cmd.consumer
      (ack = false → Completes cmd s fun q => ChangesOnly [.time] s.part q) ∧
      (ack = true → good → Completes cmd s fun q =>
        q.cmd.producer = data.toNat ∧ q.cmd.consumer = s.part.cmd.consumer ∧ q.cmd.status = s.part.cmd.status ∧
        (wakes → q.cmd.fetch = .fetching ∧ q.agent.jobs = s.part.agent.jobs ++
          [{ kind := .commandFetch, reads := 15, data := []
             addr := BitVec.ofNat 20 (b.base .command + 16 + 32 * s.part.cmd.consumer) }]) ∧
        (¬ wakes → q.cmd.fetch = s.part.cmd.fetch ∧ ChangesOnly [.time, .rings] s.part q) ∧
        ChangesOnly [.time, .rings, .agent, .port] s.part q) ∧
      (ack = true → ¬ good → Completes cmd s fun q =>
        (b.violation = none → q.bus.violation = some ⟨indexWord b .command 0, .command, .badIndex, false⟩ ∧
          q.alarms.shows .device .windowViolation = true) ∧
        ChangesOnly ([.time, .decoder] ++ Block.alarming) s.part q)) ∧
    (s.part.mode = .running → b.holder = .free → s.part.treat (indexWord b .event 1) true = .snooped .event →
      let cmd := Instr.eventConsumerWrite dt data low high ack
      let good := low = true ∧ high = true ∧ data.toNat < b.ringSize .event
      (ack = false → Completes cmd s fun q => ChangesOnly [.time] s.part q) ∧
      (ack = true → good → Completes cmd s fun q =>
        q.evt.consumer = data.toNat ∧ q.evt.producer = s.part.evt.producer ∧ q.evt.lost = s.part.evt.lost ∧
        (s.part.init = .done → q.evt.attention = decide (s.part.evt.producer ≠ data.toNat)) ∧
        ChangesOnly (.time :: Block.posting) s.part q) ∧
      (ack = true → ¬ good → Completes cmd s fun q =>
        (b.violation = none → q.bus.violation = some ⟨indexWord b .event 1, .event, .badIndex, false⟩ ∧
          q.alarms.shows .device .windowViolation = true) ∧
        (∀ v, b.violation = some v → q.bus = { b with violation := some { v with more := true } } ∧
          ChangesOnly [.time, .decoder] s.part q) ∧
        ChangesOnly ([.time, .decoder] ++ Block.alarming) s.part q))

/-- What the Window Decoder answers itself. A withheld write never takes the port: the first violation fills the record, with
the address as given (odd addresses too: the model's choice, log entry 40), and raises WINDOW_VIOLATION; a later one sets
more. A live read, one of an address in the LIVE window, gives the bytes it asks for of the layout's word, 0 beyond the
layout; the low word of a 32-bit quantity, one of those the layout marks, latches the high one, which the next read of it
gives. The byte not asked for is free (log entry 7). And what the layout shows: every quantity to which it gives a place of
its own, bit for bit, the codes of R186 among them (R167, R168, R169, R186, R188). The model's choices among them: that the
fields of a list without bit places lie in its order (log entry 9; of those the layout's bytes alone are stated), the code 0
of an absent condition (log entry 9), more as 1 for yes (log entry 8), and 0 for the window of a cue that has none (log entry
57). -/
def Obligations.DecoderAnswers : Prop :=
  ∀ (s : State) (dt : Nat) (addr : Addr) (data : Word) (low high : Bool), s.part.mode = .running →
    let b := s.part.bus
    (∀ k ∈ [WindowKind.command, .event, .live, .guard], s.part.treat addr true = .withheld k →
      (b.violation = none → Completes (.withheldWrite dt addr data low high) s fun q =>
        q.bus.violation = some ⟨addr, k, .withheld, false⟩ ∧ q.alarms.shows .device .windowViolation = true ∧
        q.bus.latch = b.latch ∧ q.bus.answer = b.answer ∧
        ChangesOnly ([.time, .decoder] ++ Block.alarming) s.part q) ∧
      (∀ v, b.violation = some v → Completes (.withheldWrite dt addr data low high) s fun q =>
        q.bus = { b with violation := some { v with more := true } } ∧ ChangesOnly [.time, .decoder] s.part q)) ∧
    (∀ n, 1664 ≤ n → liveWord s.part n = 0) ∧
    (∀ n, latchedLow n = true ↔ n = 0 ∨ n = 4 ∨ (∃ h : HeadId, n = 64 * h.num + 30) ∨
      (∃ i : IslandId, n ∈ [4, 34, 38, 42, 46].map fun k => 1280 + 64 * i.num + k) ∨
      (∃ j : Fin 24, n = 1472 + 8 * j.val + 4)) ∧
    (let inside (v : Window) : Prop := v.base ≤ addr.toNat ∧ addr.toNat < v.base + 2 ^ v.log2
     ((∀ v ∈ b.windows, ¬ inside v) → s.part.windowAt addr = none) ∧
     ∀ v ∈ b.windows, inside v → (∀ u ∈ b.windows, inside u → u = v) → s.part.windowAt addr = some v) ∧
    (∀ w, s.part.windowAt addr = some w → w.kind = .live →
      let o := (addr.toNat - w.base) / 2 * 2
      Completes (.liveRead dt addr low high) s fun q =>
        let gives (w : Word) : Prop := ∃ v, q.bus.answer = some v ∧
          (low = true → v.extractLsb' 0 8 = w.extractLsb' 0 8) ∧ (high = true → v.extractLsb' 8 8 = w.extractLsb' 8 8)
        q.bus.violation = b.violation ∧
        (latchedLow o = true → gives (liveWord s.part o) ∧ q.bus.latch = some ⟨o + 2, liveWord s.part (o + 2)⟩) ∧
        (latchedLow o = false → ∀ l, b.latch = some l →
          (l.offset = o → gives l.value ∧ q.bus.latch = none) ∧
          (l.offset ≠ o → gives (liveWord s.part o) ∧ q.bus.latch = b.latch)) ∧
        (latchedLow o = false → b.latch = none → gives (liveWord s.part o) ∧ q.bus.latch = none) ∧
        ChangesOnly [.time, .decoder] s.part q) ∧
    (let p := s.part
     let drives : List DriveState :=
       [.stopped, .parked, .cueFast, .cueInch, .settling, .runup, .locked, .unlocked, .stopping, .fault]
     let sources : List AlarmSource :=
       [.device, .head .h1, .head .h2, .head .h3, .head .h4, .island .i1, .island .i2, .reference, .analog]
     let kinds : List AlarmKind :=
       [.tachLoss, .filmBreak, .jam, .lampFail, .lampStuck, .slowStart, .lockLoss, .cueFault, .countLimit, .lateStart, .runout,
        .mirrorFault, .noSafeSource, .stationOffline, .refLoss, .analogRef, .memoryFault, .windowViolation, .config]
     p.publishes 0 0 32 p.ref.count.toNat ∧ p.publishes 4 0 32 p.ref.period ∧
     (∀ r : Fin 8, p.publishes (8 + 3 * r.val) 0 24 p.panel.image[r].toNat ∧
       p.publishes 32 (4 * r.val) 4 ((if p.panel.keys[r].r1.down then 1 else 0) + (if p.panel.keys[r].r2.down then 2 else 0) +
         (if p.panel.keys[r].r3.down then 4 else 0) + (if p.panel.keys[r].r4.down then 8 else 0))) ∧
     (∀ e : Fin 6,
       let n := 36 + 20 * e.val / 8
       let k := 20 * e.val % 8
       (∀ v, b.windows[e.val]? = some v →
         p.publishes n k 12 (v.base / 256) ∧ p.publishes n (k + 12) 4 (v.log2 - 7) ∧
         p.publishes n (k + 16) 2 (match v.kind with
           | .command => 0
           | .event => 1
           | .live => 2
           | .guard => 3) ∧
         (∀ c : Fin 4, (v.kind = .command → v.ring = 8 * 2 ^ c.val → p.publishes n (k + 18) 2 c.val) ∧
           (v.kind = .event → v.ring = 16 * 2 ^ c.val → p.publishes n (k + 18) 2 c.val))) ∧
       (b.windows[e.val]? = none → p.publishes n (k + 12) 4 0)) ∧
     (∀ v, b.violation = some v →
       p.publishes 51 0 20 v.addr.toNat ∧ p.publishes 51 23 1 (if v.more then 1 else 0) ∧
       (v.cause = .withheld → p.publishes 51 20 3 (match v.kind with
         | .command => 1
         | .event => 2
         | .live => 3
         | .guard => 4)) ∧
       (v.cause = .badIndex → v.kind = .command → p.publishes 51 20 3 5) ∧
       (v.cause = .badIndex → v.kind = .event → p.publishes 51 20 3 6)) ∧
     (b.violation = none → p.publishes 51 20 3 0) ∧
     p.publishesChannel 54 p.analog.reference ∧
     (∀ h : HeadId,
       let x := p.head h
       let c := x.settings
       let n := 64 * h.num
       p.publishes n 0 8 (drives.idxOf x.drive) ∧ p.publishes (n + 4) 0 32 (BitVec.ofInt 32 x.pos.frame).toNat ∧
       p.publishes (n + 8) 0 8 (if c.gauge = .g35 then 0 else 1) ∧ p.publishes (n + 9) 0 8 c.lockCount ∧
       p.publishes (n + 10) 0 16 c.runupLead ∧ p.publishes (n + 12) 0 8 c.runupDistance ∧
       p.publishes (n + 13) 0 16 c.runupLimit ∧ p.publishes (n + 15) 0 16 c.startResponse ∧
       p.publishes (n + 17) 0 16 c.lossTimeout ∧ p.publishes (n + 19) 0 16 c.approach ∧
       p.publishes (n + 21) 0 8 c.parkTolerance ∧ p.publishes (n + 22) 0 16 c.settleTime ∧
       p.publishes (n + 24) 0 8 c.sensorOffset ∧ p.publishes (n + 25) 0 8 (if c.lampPolicy = .auto then 0 else 1) ∧
       p.publishes (n + 26) 0 16 c.lampSettle ∧ p.publishes (n + 28) 0 16 x.cadence.speed ∧
       (∀ v, x.cadence.boundary = some v → p.publishes (n + 30) 0 32 v.toNat) ∧
       (∀ v, x.cadence.lastLength = some v → p.publishes (n + 34) 0 16 v) ∧ p.publishes (n + 36) 0 8 x.cadence.run ∧
       p.publishes (n + 37) 0 5 ((if x.cadence.boundary.isSome then 1 else 0) + (if x.cadence.lastLength.isSome then 2 else 0) +
         (if x.cadence.unlockStamp.isSome then 4 else 0) + (if x.cadence.lastTime.isSome then 8 else 0) +
         (if x.cadence.lastRunup.isSome then 16 else 0)) ∧
       (∀ v, x.cadence.lastRunup = some v →
         (0 ≤ v.fields → p.publishes (n + 38) 0 16 v.fields.toNat) ∧ (0 ≤ v.frames → p.publishes (n + 40) 0 16 v.frames.toNat)) ∧
       (∀ v, x.park = some v → p.publishes (n + 42) 0 32 (BitVec.ofInt 32 v.target).toNat) ∧
       p.publishesChannel (n + 50) (p.analog.lamp.get h) ∧ p.publishesChannel (n + 56) (p.analog.tension.get h) ∧
       p.publishes (n + 62) 0 16 x.cadence.fields ∧
       p.publishes (64 + 256 * h.num + 3) 0 8 x.cues.length ∧
       ∀ (j : Fin 32), ∀ v, x.cues[j.val]? = some v →
         let m := 64 + 256 * h.num + 8 * j.val
         p.publishes m 0 8 v.id ∧ p.publishes (m + 2) 0 8 (v.window.getD 0) ∧
         p.publishes (m + 4) 0 32 (BitVec.ofInt 32 v.frame).toNat) ∧
     (∀ i : IslandId,
       let x := p.island i
       let z := x.settings
       let t := x.active
       let n := 1280 + 64 * i.num
       let stamp (v : Option Stamp) : Nat := (v.map BitVec.toNat).getD 0
       (∀ c, x.confirm = some c → p.publishes (n + 4) 0 32 c.cut.toNat) ∧
       p.publishes (n + 8) 0 8 z.address ∧ p.publishes (n + 9) 0 8 z.standbyPort.num ∧ p.publishes (n + 10) 0 8 z.lead ∧
       p.publishes (n + 11) 0 8 z.tolerance ∧ p.publishes (n + 12) 0 8 (if z.policy = .fallback then 0 else 1) ∧
       p.publishes (n + 13) 0 8 z.grace ∧ p.publishes (n + 15) 0 8 (p.link.stations.get i).countdown ∧
       (∀ (j : Fin 6), ∀ v, x.takes[j.val]? = some v → p.publishes (n + 16 + 3 * j.val) 0 16 v.tag.toNat) ∧
       p.publishes (n + 34) 0 32 (stamp (t.bind (·.fCut))) ∧ p.publishes (n + 38) 0 32 (stamp (t.bind (·.fStart))) ∧
       p.publishes (n + 42) 0 32 (stamp ((t.bind (·.sop)).bind (·.value))) ∧
       p.publishes (n + 46) 0 32 (stamp (x.fEnd.bind (·.value))) ∧
       (∀ e, t.bind (·.error) = some e →
         p.publishes (n + 50) 0 8 (BitVec.ofInt 8 (max (-128) (min 127 e))).toNat) ∧
       p.publishes (n + 51) 0 8 (p.link.stations.get i).misses ∧
       (∀ v, (p.link.stations.get i).refusal = some v → p.publishes (n + 54) 0 8 v.reason.toNat) ∧
       p.publishes (n + 55) 0 8 0 ∧
       (∀ v, (t.bind (·.cut)).map (·.frame) = some v → p.publishes (n + 56) 0 21 (BitVec.ofInt 21 v).toNat) ∧
       (∀ v, (t.bind (·.sop)).map (·.frame) = some v → p.publishes (n + 56) 21 21 (BitVec.ofInt 21 v).toNat) ∧
       (∀ v, x.fEnd.map (·.frame) = some v → p.publishes (n + 56) 42 21 (BitVec.ofInt 21 v).toNat)) ∧
     (∀ j : Fin 24,
       let n := 1472 + 8 * j.val
       (∀ v, p.alarms.entries[j.val]? = some v →
         p.publishes n 0 8 (sources.idxOf v.source) ∧ p.publishes (n + 1) 0 8 (kinds.idxOf v.kind) ∧ p.publishes (n + 3) 0 8 1 ∧
         p.publishes (n + 4) 0 32 v.stamp.toNat) ∧
       (p.alarms.entries[j.val]? = none → p.publishes (n + 3) 0 8 0)))

/-- The agent's word. An acknowledge that is not the job's last readies the next word; the last ends the job: the entry a
fetch has read is executed and its status written, that of a TAKE before the event of the activation it brings (log entry 44);
the end of a status write moves the consumer index on and writes it; the end of that write fetches the next entry, or the unit
is IDLE; the end of an event write moves the producer index on and writes it; the end of that write judges the attention line,
and the next event is written if there is room. A memory error, reported or by sixteen ticks without an acknowledge, ends the
job with MEMORY_FAULT: a fetch completes MEMFAULT, an event is lost, another job's end is as after success; a ready word past
the starve limit is starved. Each job goes to its own address: the index words, word 15 of the entry at the consumer index,
the event entry at the producer index. An entry runs the command that the low byte of its word 0 names, on the arguments its
words hold, low word first; any other code is BAD_COMMAND and changes nothing. The eight words of an event's record are those
of its kind, each item at its place within the range of its field, the codes from 0 in the order of the defining rule; where
an item is absent and no reading is given, nothing is said of it (log entry 6); a flag is 1 for yes (log entry 8), and a
negative figure in a run-up word is 0 (log entry 53): the model's choices (R93, R170 to R172, R176 to R178, R180, R182, R183,
R186, R187). -/
def Obligations.AgentWordsDoTheJobs : Prop :=
  (∀ (s : State) (dt : Nat) (data : Word), s.part.mode = .running → s.part.init = .done → s.part.ringsSound = true →
    let a := s.part.agent
    let u := s.part.cmd
    let e := s.part.evt
    let now := s.part.time.now + dt
    let commands := s.part.bus.base .command
    let events := s.part.bus.base .event
    let wants (q : Part) (kind : JobKind) (addr : Nat) (words : List Word) : Prop := ∃ w ∈ q.agent.jobs,
      w = { kind := kind, addr := BitVec.ofNat 20 addr, reads := 0, data := words }
    let next := if u.consumer = u.producer then u.consumer else (u.consumer + 1) % s.part.bus.ringSize .command
    let after := (e.producer + 1) % s.part.bus.ringSize .event
    let room := decide (after ≠ e.consumer)
    let advanced (q : Part) : Prop :=
      q.cmd = { u with consumer := next } ∧ wants q .consumerWrite (commands + 2) [BitVec.ofNat 16 next]
    let resumed (q : Part) : Prop :=
      (u.consumer = u.producer → q.cmd = { u with fetch := .idle }) ∧
      (u.consumer ≠ u.producer → q.cmd = { u with fetch := .fetching } ∧ ∃ w ∈ q.agent.jobs,
        w = { kind := .commandFetch, reads := 15, data := []
              addr := BitVec.ofNat 20 (s.part.bus.base .command + 16 + 32 * u.consumer) })
    let lineJudged (q : Part) : Prop :=
      q.evt.producer = e.producer ∧ q.evt.consumer = e.consumer ∧ q.evt.attention = decide (e.producer ≠ e.consumer)
    let failed (j : Job) (q : Part) : Prop :=
      q.alarms.shows .device .memoryFault = true ∧
      (j.kind = .commandFetch → q.cmd = { u with status := some .memFault, fetch := .completing } ∧
        wants q .statusWrite (commands + 16 + 32 * u.consumer + 30) [BitVec.ofNat 16 (Status.memFault.code + 128 * 256)]) ∧
      (j.kind = .statusWrite → advanced q) ∧ (j.kind = .consumerWrite → resumed q) ∧
      (j.kind = .eventWrite → q.evt.lost = true ∧ q.evt.producer = e.producer) ∧ (j.kind = .producerWrite → lineJudged q) ∧
      ChangesOnly ([.time, .rings, .status] ++ Block.alarming) s.part q
    (∀ j, a.jobs.head? = some j → a.onPort = true →
      let ends := decide (j.words ≤ a.done + 1)
      let cmd := Instr.agentWordEnd dt (.ack data)
      (ends = false → Completes cmd s fun q =>
        q.agent.jobs = a.jobs ∧ q.agent.done = a.done + 1 ∧ q.agent.starved = false ∧
        q.agent.got = (if j.data = [] then a.got ++ [data] else a.got) ∧
        ChangesOnly [.time, .agent, .port] s.part q) ∧
      (ends = true → j.kind = .commandFetch → j.data = [] → Completes cmd s fun q =>
        let free := dropJob (elapse dt s.part)
        let words := fun n => (a.got ++ [data]).getD n 0
        let run := runEntry words { free with cmd := { u with fetch := .executing } }
        let write : Job := { kind := .statusWrite, reads := 0, data := [BitVec.ofNat 16 (run.2.code + 128 * 256)]
                             addr := BitVec.ofNat 20 (q.bus.base .command + 16 + 32 * u.consumer + 30) }
        q.cmd = { run.1.cmd with status := some run.2, fetch := .completing } ∧ q.cmd.consumer = u.consumer ∧
        q.agent.jobs.contains write = true ∧
        ((words 0).toNat % 256 = 0x31 → (a.jobs.tail ++ [write]).isPrefixOf q.agent.jobs = true) ∧
        ChangesOnly [.agent, .port, .rings, .status] run.1 q) ∧
      (ends = true → j.kind = .statusWrite → Completes cmd s fun q =>
        advanced q ∧ ChangesOnly [.time, .agent, .port, .rings] s.part q) ∧
      (ends = true → j.kind = .consumerWrite → Completes cmd s fun q =>
        resumed q ∧ ChangesOnly [.time, .agent, .port, .rings] s.part q) ∧
      (ends = true → j.kind = .eventWrite → Completes cmd s fun q =>
        q.evt = { e with producer := after } ∧ wants q .producerWrite events [BitVec.ofNat 16 after] ∧
        ChangesOnly [.time, .agent, .port, .events] s.part q) ∧
      (ends = true → j.kind = .producerWrite → Completes cmd s fun q =>
        lineJudged q ∧ q.evt.lost = e.lost ∧
        (room = false ∨ e.queue = [] → q.evt.writing = false ∧ q.evt.queue = e.queue) ∧
        (∀ v, e.queue.head? = some v → room = true →
          q.evt.writing = true ∧ q.evt.queue = e.queue.tail ∧
            wants q .eventWrite (events + 16 + 16 * e.producer) v.words) ∧
        ChangesOnly [.time, .agent, .port, .events] s.part q) ∧
      Completes (.agentWordEnd dt .error) s (failed j)) ∧
    (∀ j, a.jobs.head? = some j → ∀ since, a.word = .active since → since + 16 ≤ now →
      Completes (.agentWordTimeout dt) s (failed j)) ∧
    (∀ since, a.word = .ready since → since + a.limit < now → a.starved = false →
      Completes (.starveExpiry dt) s fun q =>
        q.agent = { a with starved := true } ∧ ChangesOnly [.time, .agent] s.part q)) ∧
  (∀ (p : Part) (v : Nat → Word), p.mode = .running →
    let long (n : Nat) : BitVec 32 := v (n + 1) ++ v n
    let ws : HeadWords := ⟨v 3, v 4, v 5, v 6, v 7, v 8, v 9, v 10, v 11, v 12, v 13, v 14⟩
    let command : Option Instr := match (v 0).toNat % 256 with
      | 0x01 => some (.setTrim (v 3))
      | 0x02 => some .clear
      | 0x03 => some (.ackAlarms (v 3))
      | 0x04 => some .resetFlags
      | 0x05 => some (.setAnalogLimits (v 1) (v 3) (v 4) (v 5))
      | 0x06 => some (.setPanelMode (v 3) (v 4))
      | 0x10 => some (.configureHead (v 1) ws)
      | 0x11 => some (.assignHead (v 1) (v 3) (v 4))
      | 0x12 => some (.setPosition (v 1) (long 3))
      | 0x13 => some (.cueUp (v 1) (v 3) (long 4))
      | 0x14 => some (.start (v 1))
      | 0x15 => some (.stop (v 1))
      | 0x16 => some (.lamp (v 1) (v 3))
      | 0x17 => some (.clearFault (v 1))
      | 0x20 => some (.loadCue (v 1) (v 3) (v 4) (long 5) (v 7) (v 8))
      | 0x21 => some (.deleteCue (v 1) (v 3))
      | 0x22 => some (.clearCues (v 1))
      | 0x30 => some (.configureIsland (v 1) (v 3) (v 4) (v 5) (v 6) (v 7) (v 8))
      | 0x31 => some (.take (v 1) (v 2) (v 3) (v 4) (long 5) (v 7) (v 8) (v 9) (v 10))
      | 0x32 => some (.cancelTake (v 1) (v 2))
      | 0x33 => some (.abortTake (v 1))
      | 0x34 => some (.standby (v 1))
      | _ => none
    let run := runEntry v p
    (command = none → run = (p, .badCommand)) ∧
    ∀ c, command = some c → exec c ⟨p, []⟩ = .next ⟨{ run.1 with cmd := { run.1.cmd with status := some run.2 } }, []⟩) ∧
  (∀ (source : AlarmSource) (stamp : Stamp) (item : EventItem),
    let w := (⟨source, stamp, item⟩ : Event).words
    let word (n : Nat) : Word := w.getD n 0
    let low (n : Nat) : Nat := (word n).toNat % 256
    let high (n : Nat) : Nat := (word n).toNat / 256
    let bytes (n l h : Nat) : Prop := low n = min l 255 ∧ high n = min h 255
    let long (n : Nat) (x : BitVec 32) : Prop := (word n).toNat = x.toNat % 65536 ∧ (word (n + 1)).toNat = x.toNat / 65536
    let frame (n : Nat) (f : Int) : Prop := long n (BitVec.ofInt 32 f)
    let kind (code x y : Nat) : Prop := bytes 0 code x ∧ high 1 = y
    let count (n : Nat) : Word := BitVec.ofNat 16 (min n 65535)
    let figure (x : Option Int) : Word := BitVec.ofInt 16 (match x with
      | some x => max (-32767) (min 32767 x)
      | none => -32768)
    let near (f : Option Stamp) : Word := figure (f.map fun f => (f - stamp).toInt)
    let yes (b : Bool) : Nat := if b then 1 else 0
    let onto (x : Source) : Nat := match x with
      | .standby => 0
      | .head h => h.num
      | .unknown => 7
    w.length = 8 ∧ long 2 stamp ∧
    low 1 = (match source with
      | .device => 0
      | .head h => h.num
      | .island i => 4 + i.num
      | .reference => 7
      | .analog => 8) ∧
    match item with
    | .started c e => kind 0x00 0 0 ∧ word 4 = count c ∧ word 5 = count e
    | .headState new old cause f => kind 0x01 0 0 ∧ bytes 4 new.code old.code ∧ (word 5).toNat = cause.code ∧ frame 6 f
    | .parkLost a b => kind 0x02 0 0 ∧ frame 4 (a.frame * 4 + a.phase) ∧ frame 6 (b.frame * 4 + b.phase)
    | .lock k frames fields f =>
      kind 0x03 k.code 0 ∧ (∀ n, frames = some n → word 4 = count n.toNat) ∧ word 5 = count fields.toNat ∧ frame 6 f
    | .unlock unsettled measured expected f =>
      kind 0x04 (yes unsettled) 0 ∧ word 4 = count measured ∧ word 5 = count (expected.getD 0) ∧ frame 6 f
    | .cuePassed id k confirm fired f =>
      kind 0x05 0 0 ∧ bytes 4 id k.code ∧ bytes 5 confirm.code (yes fired) ∧ frame 6 f
    | .cueConfirmed off id corrected delta f =>
      kind 0x06 (max (-128) (min 127 off) % 256).toNat 0 ∧ bytes 4 id (yes corrected) ∧ word 5 = figure (some delta) ∧ frame 6 f
    | .markMissed id passed deadline f =>
      kind 0x07 0 0 ∧ bytes 4 id (yes passed) ∧ word 5 = figure (some (deadline - f)) ∧ frame 6 f
    | .strayMark f => kind 0x08 0 0 ∧ word 4 = 0 ∧ word 5 = 0 ∧ frame 6 f
    | .shortLeader tag h distance d => kind 0x09 0 0 ∧ word 4 = tag ∧ bytes 5 h.num distance ∧ frame 6 d
    | .takeActive tag incoming outgoing mode basis sop change cut start =>
      low 0 = 0x0A ∧ high 0 % 4 = mode.code ∧ (∀ b, basis = some b → high 0 / 4 % 8 = b.code) ∧
      high 0 / 32 = yes sop.isSome + 2 * yes change.isSome ∧
      high 1 % 16 = onto incoming ∧ (∀ o, outgoing = some o → high 1 / 16 = onto o) ∧ word 4 = tag ∧
      (∀ id, sop = some id → low 5 = min id 255) ∧ (∀ id, change = some id → high 5 = min id 255) ∧
      word 6 = near cut ∧ word 7 = near start
    | .takeReady tag cut sop basis e =>
      kind 0x0B (basis.getD .absent).code 0 ∧ word 4 = tag ∧ word 5 = near cut ∧ word 6 = near sop ∧ word 7 = figure e
    | .takeCommit tag port cut e outcome slip =>
      kind 0x0C outcome.code port.num ∧ word 4 = tag ∧ word 5 = near cut ∧ word 6 = figure e ∧ word 7 = count slip.toNat
    | .takeEnd tag outcome reason incoming outgoing cut e slip lost =>
      bytes 0 0x0D (outcome.code + 16 * reason.code) ∧
      high 1 % 16 = onto incoming ∧ (∀ o, outgoing = some o → high 1 / 16 = onto o) ∧ word 4 = tag ∧ word 5 = near cut ∧
      word 6 = figure (if outcome = .early then lost else e) ∧ word 7 = count slip.toNat
    | .onAir cause new old port cut =>
      kind 0x0E cause.code (onto new + 16 * onto old) ∧ (∀ x, port = some x → (word 4).toNat = x.num) ∧ word 5 = near cut
    | .station cause address health port moving fault misses refusal =>
      kind 0x0F cause.code 0 ∧ bytes 4 address health.code ∧
      (word 5).toNat = (match port with
        | some x => x.num
        | none => 0) + 256 * yes moving + 512 * yes fault ∧
      word 6 = count misses ∧ (∀ r, refusal = some r → bytes 7 r.port.num r.reason.toNat)
    | .moveLate address port asked _ fields =>
      kind 0x10 0 0 ∧ bytes 4 address port.num ∧ long 5 asked ∧ word 7 = figure (some fields)
    | .alarm action cause state k notEntered d1 d2 =>
      kind 0x11 (action.code + 16 * (cause.map (·.code)).getD 0) ((state.map (·.code)).getD 15) ∧
      bytes 4 ((k.map (·.code)).getD 255) ((k.map (·.severity.code)).getD 255) ∧
      (word 5).toNat = yes notEntered ∧ word 6 = d1 ∧ word 7 = d2
    | .key outcome authority row line refusal =>
      kind 0x12 outcome.code ((authority.map (·.code)).getD 2) ∧ bytes 4 row line ∧
      (∀ x, refusal = some x → (word 5).toNat = x.code)
    | .refState new old => kind 0x13 0 0 ∧ bytes 4 new.code old.code) ∧
  [DriveState.stopped, .parked, .cueFast, .cueInch, .settling, .runup, .locked, .unlocked, .stopping, .fault].map (·.code) =
    List.range 10 ∧
  [Cause.command, .key, .scheduler, .cue, .cadence, .cueUp, .settle, .motion, .tachLoss, .filmBreak, .jam, .clear].map (·.code) =
    List.range 12 ∧
  [RefState.search, .locked, .flywheel, .slewing].map (·.code) = List.range 4 ∧
  [LockKind.first, .relock].map (·.code) = List.range 2 ∧
  [CueKind.sop, .changeover, .ending, .stop, .mark].map (·.code) = List.range 5 ∧
  [ConfirmState.none, .confirmed, .unconfirmed].map (·.code) = List.range 3 ∧
  [TakeMode.atCue, .atField, .now].map (·.code) = List.range 3 ∧
  [Basis.exact, .estimate, .frozen, .reached, .absent].map (·.code) = List.range 5 ∧
  [TakeOutcome.done, .slipped, .early, .emergency, .fallback, .failed, .cancelled, .aborted].map (·.code) = List.range 8 ∧
  [Reason.none, .sameSource, .incomingFault, .incomingStopped, .mirror, .lateStart, .runout, .command, .standby, .clear].map (·.code) =
    List.range 10 ∧
  [OnAirCause.confirmed, .failed, .report, .clear].map (·.code) = List.range 4 ∧
  [StationCause.online, .offline, .report, .refused].map (·.code) = List.range 4 ∧
  [Online.unknown, .online, .offline].map (·.code) = List.range 3 ∧
  [KeyOutcome.acted, .refused, .eventOnly].map (·.code) = List.range 3 ∧
  [Authority.remote, .panel].map (·.code) = List.range 2 ∧
  [Severity.warning, .fault, .critical].map (·.code) = List.range 3 ∧
  (∀ x, [AlarmAction.raised, .cleared, .acknowledged, .removed, .notEntered x, .emptied].map (·.code) = List.range 6) ∧
  (∀ x, [RemovalCause.cleared, .acknowledged, .evicted x].map (·.code) = List.range 3) ∧
  [EntryState.activeNew, .activeAck, .clearedNew].map (·.code) = List.range 3 ∧
  [AlarmKind.tachLoss, .filmBreak, .jam, .lampFail, .lampStuck, .slowStart, .lockLoss, .cueFault, .countLimit, .lateStart, .runout,
    .mirrorFault, .noSafeSource, .stationOffline, .refLoss, .analogRef, .memoryFault, .windowViolation, .config].map (·.code) =
    List.range 19 ∧
  [Status.ok, .clamped, .badCommand, .badTarget, .badArgument, .busy, .localAuthority, .tableFull, .listFull, .duplicate, .notFound,
    .inUse, .active, .tooLate, .onAir, .notAssigned, .portTaken, .faultLatched, .conditionPresent, .memFault].map (·.code) =
    List.range 20

/-- The initialisation of the rings. The first start-up read gives the command ring's two indices and the second the event
ring's; a value at or above the ring size is 0 with BAD_INDEX, a memory error 0 with MEMORY_FAULT. The two index words are
written then, the consumer index first; their end, whatever its outcome, begins the work: STARTED is posted, a standby commit
is made for each island, its MOVE with asked field 0 and Island 1's the first, the attention line is judged, and an entry
already posted is fetched (R113, R125, R131, R172, R174, R176, R183). Four of its clauses are the model's choice: the source
of STARTED is the Device (log entry 64); a start-up BAD_INDEX records the address of its index word (log entry 40); after a
memory error the unit is told before MEMORY_FAULT is raised, so STARTED is the event written first (log entry 39); an island
that already has takes, a COMMITTED front take among them, keeps them through the initial standby commit (log entry 38). -/
def Obligations.RingsAreInitialised : Prop :=
  ∀ (s : State) (dt : Nat) (data : Word), s.part.mode = .running → s.part.ringsSound = true →
    let a := s.part.agent
    let b := s.part.bus
    let cmd := Instr.agentWordEnd dt (.ack data)
    let error := Instr.agentWordEnd dt .error
    let value (k : WindowKind) : Nat := if data.toNat < b.ringSize k then data.toNat else 0
    let judged (k : WindowKind) (addr : Addr) (q : Part) : Prop :=
      (data.toNat < b.ringSize k → q.bus.violation = b.violation ∧ q.alarms = s.part.alarms) ∧
      (b.ringSize k ≤ data.toNat → b.violation = none →
        q.bus.violation = some ⟨addr, k, .badIndex, false⟩ ∧ q.alarms.shows .device .windowViolation = true)
    let readsOn (v : Nat) (q : Part) : Prop :=
      q.cmd = { s.part.cmd with consumer := v, producer := v } ∧ q.init = .readEvent ∧
      q.agent.jobs = [{ kind := .startupEvent, addr := indexWord b .event 1, reads := 1, data := [] }]
    let writesOn (v : Nat) (q : Part) : Prop :=
      q.evt.producer = v ∧ q.evt.consumer = v ∧ q.cmd = s.part.cmd ∧ q.init = .writing false false ∧
      q.agent.jobs =
        [{ kind := .consumerWrite, addr := indexWord b .command 1, reads := 0, data := [BitVec.ofNat 16 s.part.cmd.consumer] },
         { kind := .producerWrite, addr := indexWord b .event 0, reads := 0, data := [BitVec.ofNat 16 v] }]
    let starts (q : Part) : Prop :=
      let e := s.part.evt
      let started : Event := { source := .device, stamp := s.part.ref.count, item := .started s.part.cmd.consumer e.producer }
      q.init = .done ∧ q.evt.attention = decide (e.producer ≠ e.consumer) ∧ q.cmd.consumer = s.part.cmd.consumer ∧
      (e.queue = [] → (e.producer + 1) % b.ringSize .event ≠ e.consumer →
        ∃ w ∈ q.agent.jobs, w = { kind := .eventWrite, reads := 0, data := started.words
                                  addr := BitVec.ofNat 20 (b.base .event + 16 + 16 * e.producer) }) ∧
      (s.part.cmd.consumer = s.part.cmd.producer → q.cmd = s.part.cmd) ∧
      (s.part.cmd.consumer ≠ s.part.cmd.producer → q.cmd.fetch = .fetching ∧
        ∃ w ∈ q.agent.jobs, w = { kind := .commandFetch, reads := 15, data := []
                                  addr := BitVec.ofNat 20 (b.base .command + 16 + 32 * s.part.cmd.consumer) }) ∧
      (∀ i, let z := (s.part.island i).settings
        let cut := s.part.ref.count + BitVec.ofNat 32 z.lead
        q.island i = { s.part.island i with
          mirror := .moving z.standbyPort
          confirm := some { target := .standby, port := z.standbyPort, cut := cut, owner := .island
                            deadline := cut + BitVec.ofNat 32 z.grace } }) ∧
      (let k := s.part.link
       let move (i : IslandId) : Entry := ⟨i, .move (s.part.island i).settings.standbyPort 0⟩
       (∀ i, (q.link.stations.get i).fast = true) ∧
       (k.sound = true → ∀ i, (∀ e ∈ k.queue, e.isMoveOf i = false) →
         move i ∈ q.link.queue ++ q.link.flight.toList.map (·.entry)) ∧
       (k.line = .idle → k.queue = [] → k.flight = none → (∀ i, (k.stations.get i).due = false) →
         q.link.line = .sending ∧ q.link.flight.map (·.entry) = some (move .i1) ∧ q.link.queue = [move .i2] ∧
         (e.queue = [] → 0 < s.part.ref.count.toNat → s.part.ref.count.toNat < 2 ^ 31 → q.tells (.island .i1)
           [.moveLate (s.part.island .i1).settings.address (s.part.island .i1).settings.standbyPort 0 s.part.ref.count
             s.part.ref.count.toNat])))
    a.onPort = true → a.done = 0 → a.got = [] →
    (s.part.init = .readCommand → (∀ j ∈ a.jobs, j.reads = 1 ∧ j.data = []) →
      Completes cmd s (fun q => readsOn (value .command) q ∧ judged .command (indexWord b .command 0) q ∧
        ChangesOnly ([.time, .rings, .init, .decoder] ++ Block.alarming) s.part q) ∧
      Completes error s (fun q => q.alarms.shows .device .memoryFault = true ∧ readsOn 0 q ∧
        ChangesOnly ([.time, .rings, .init] ++ Block.alarming) s.part q)) ∧
    (s.part.init = .readEvent → (∀ j ∈ a.jobs, j.reads = 1 ∧ j.data = []) →
      Completes cmd s (fun q => writesOn (value .event) q ∧ judged .event (indexWord b .event 1) q ∧
        ChangesOnly ([.time, .init, .decoder] ++ Block.alarming) s.part q) ∧
      Completes error s (fun q => q.alarms.shows .device .memoryFault = true ∧ writesOn 0 q ∧
        ChangesOnly ([.time, .init] ++ Block.alarming) s.part q)) ∧
    (s.part.init = .writing false false → (∀ j ∈ a.jobs, j.data.length = 1) →
      Completes cmd s (fun q => q.init = .writing true false ∧ q.agent.jobs = a.jobs.tail ∧
        ChangesOnly [.time, .init, .agent, .port] s.part q) ∧
      Completes error s (fun q => q.alarms.shows .device .memoryFault = true ∧ q.init = .writing true false ∧
        q.agent.jobs = a.jobs.tail ∧ ChangesOnly ([.time, .init] ++ Block.alarming) s.part q)) ∧
    (s.part.init = .writing true false → (∀ j ∈ a.jobs, j.data.length = 1) →
      Completes cmd s (fun q => starts q ∧ ChangesOnly (.time :: .init :: .rings :: .island .i2 :: Block.committing .i1) s.part q) ∧
      Completes error s (fun q => q.alarms.shows .device .memoryFault = true ∧ starts q ∧
        ChangesOnly (.time :: .init :: .rings :: .island .i2 :: Block.guarding .i1) s.part q))

/-- CLEAR: the alarm table is emptied and the horn off, the take lists are emptied, every head is STOPPED at once with the
stored settings and assignment and no fault, every island has the stored settings, REMOTE authority and STANDBY as preset,
with STANDBY committed; STANDBY stays on air, and a head whose assignment to the island the stored one repeats, and any other
source is UNKNOWN; every analog channel has the stored limits and no condition, and the trim is the stored one; no Cadence
Monitor measures, and each has no first lock and no last run-up; the panel and the rings are as they were. An F_end record
that remains, with a head on air, is ABSENT. The link keeps its line, its entry in flight, its waiting MOVEs (of two of one
island the newer may give way to the standby MOVE) and its station records, but where the address of an island changes; its
waiting POLLs are due again, or join again in the same step (the model's choice, log entry 55), and fast polling is on.
EMPTIED, a TAKE_END for each take, HEAD_STATE for each head not STOPPED and ON_AIR for each source lost tell of it (R36, R37,
R48, R52, R84, R88, R112, R113, R130, R131, R140, R151, R177, R185). Model's choices: that ON_AIR carries no port (log entry
54), and that the attention line is judged at once by the producer index as an event write has moved it on (log entry 56). -/
def Obligations.ClearCommand : Prop :=
  ∀ s : State, s.part.mode = .running → Replies .clear s .ok fun q =>
    let d := s.part.defaults
    q.ref = { s.part.ref with trim := d.trim } ∧
    (∀ h, let x := s.part.head h
      let y := q.head h
      y.drive = .stopped ∧ y.fault = none ∧ y.settings = d.heads.get h ∧ y.lampPolicy = (d.heads.get h).lampPolicy ∧
      y.cadence.firstLock = false ∧ y.cadence.lastRunup = none ∧ (x.sound = true → y.cadence.measuring = false) ∧
      y.assigned = d.assignments.get h ∧ y.pos.frame = x.pos.frame ∧
      y.pos.phase = (if x.settings.gauge = (d.heads.get h).gauge then x.pos.phase else 0) ∧
      y.cues.map (·.id) = x.cues.map (·.id) ∧ (∀ c ∈ y.cues, c.passed = decide (c.frame ≤ y.pos.frame)) ∧
      (x.sound = true → y.outputs = ⟨false, false, false, false,
        if (d.heads.get h).lampPolicy = .auto then false else x.outputs.lamp⟩)) ∧
    (∀ i, let z := d.islands.get i
      let cut := s.part.ref.count + BitVec.ofNat 32 z.lead
      (q.island i).settings = z ∧ (q.island i).authority = .remote ∧ (q.island i).preset = .standby ∧
      (q.island i).takes = [] ∧ (q.island i).mirror = .moving z.standbyPort ∧
      (q.island i).confirm = some { target := .standby, port := z.standbyPort, cut := cut, owner := .island
                                    deadline := cut + BitVec.ofNat 32 z.grace } ∧
      (q.island i).onAir = (match (s.part.island i).onAir with
        | .standby => .standby
        | .unknown => .unknown
        | .head h =>
          if (s.part.head h).assigned = d.assignments.get h ∧ (d.assignments.get h).map (·.island) = some i then .head h
          else .unknown)) ∧
    (∀ k, let c := q.analog.channel k
      c.condition = none ∧ c.outCount = 0 ∧ c.inCount = 0 ∧ c.last = (s.part.analog.channel k).last ∧
      c.limits = (match k with
        | .reference => d.reference
        | .lamp h => d.lamp.get h
        | .tension h => d.tension.get h)) ∧
    (∀ i, ((∀ h, (q.island i).onAir ≠ .head h) → (q.island i).fEnd = none) ∧
      ∀ r, (q.island i).fEnd = some r → (∀ e, (s.part.island i).fEnd = some e → e.basis ≠ .reached) →
        r.value = none ∧ r.basis = .absent) ∧
    (let k := s.part.link
     let entries := q.link.queue ++ q.link.flight.toList.map (·.entry)
     let moved (i : IslandId) : Bool := decide ((s.part.island i).settings.address ≠ (d.islands.get i).address)
     (∀ i, let old := k.stations.get i
       let y := q.link.stations.get i
       y.fast = true ∧ y.countdown = old.countdown ∧
       (moved i = false → y.online = old.online ∧ y.port = old.port ∧ y.moving = old.moving ∧ y.fault = old.fault ∧
         y.misses = old.misses ∧ y.refusal = old.refusal) ∧
       (moved i = true → y.online = .unknown ∧ y.port = none ∧ y.moving = false ∧ y.fault = false ∧ y.misses = 0 ∧
         y.refusal = none) ∧
       (⟨i, .poll⟩ ∈ k.queue ∨ moved i = true ∨ old.due = true → y.due = true ∨ ⟨i, .poll⟩ ∈ entries) ∧
       (k.sound = true → (∃ e ∈ entries, e.island = i ∧ e.request.port? = some (d.islands.get i).standbyPort) ∧
         ((k.queue.filter (Entry.isMoveOf i)).length ≤ 1 → ∀ e ∈ k.queue, e.isMoveOf i = true → e ∈ entries))) ∧
     (k.line ≠ .idle → q.link.line = k.line ∧ q.link.transmit = k.transmit ∧ q.link.sending = k.sending ∧
       q.link.since = k.since ∧ q.link.timer = k.timer ∧
       ∀ f, k.flight = some f → q.link.flight = some { f with orphan := f.orphan || moved f.entry.island })) ∧
    (let e := s.part.evt
     q.evt.producer = e.producer ∧ q.evt.consumer = e.consumer ∧
     q.evt.attention = (if s.part.init = .done then decide (e.producer ≠ e.consumer) else e.attention)) ∧
    (s.part.listens → (s.part.island .i1).takes.length + (s.part.island .i2).takes.length ≤ 8 →
      q.tells .device [.alarm .emptied none none none false (BitVec.ofNat 16 (min s.part.alarms.entries.length 65535)) 0] ∧
      (∀ i, q.tells (.island i) ((s.part.island i).takes.map fun t =>
        .takeEnd t.tag (if t.state = .queued then .cancelled else .aborted) .clear t.incoming t.outgoing t.fCut t.error t.slip
          t.lost)) ∧
      (∀ h, (s.part.head h).drive ≠ .stopped →
        q.tells (.head h) [.headState .stopped (s.part.head h).drive .clear (s.part.head h).pos.frame]) ∧
      (∀ i, (q.island i).onAir ≠ (s.part.island i).onAir →
        q.tells (.island i) [.onAir .clear .unknown (s.part.island i).onAir none none])) ∧
    q.alarms = ⟨[], false, false, false⟩ ∧ ChangesOnly ([.status, .ref] ++ Block.scheduling) s.part q

/-! ### What every step keeps -/

/-- The rules of Safety.lean hold right after reset. -/
def Obligations.RulesHoldAtReset : Prop :=
  let p := State.reset.part
  p.headsSound = true ∧ p.cuesSound = true ∧ p.alarmsSound = true ∧ p.islandsSound = true ∧ p.link.sound = true ∧
  p.ringsSound = true

/-- Every step keeps the rules of a head and of its cue table: motor outputs by the drive state, FAULT with the lamp off, the
measurements in their states, the position in its range (R16 to R19, R26, R27, R30, R38, R66), at most 32 cues in ascending
frames with pass states that agree with the position (R53). -/
def Obligations.EveryStepKeepsTheHeads : Prop :=
  ∀ s t : State, s.part.headsSound = true → s.part.cuesSound = true → step s = .next t →
    t.part.headsSound = true ∧ t.part.cuesSound = true

/-- Every step keeps the Alarm Table: at most 24 entries, one for each pair, none of a momentary kind ACTIVE, and the horn as
its rule gives it in each mode of the part (R141, R143, R147, R150). -/
def Obligations.EveryStepKeepsTheAlarmTable : Prop :=
  ∀ s t : State, s.part.alarmsSound = true → step s = .next t → t.part.alarmsSound = true

/-- Every step keeps the islands: at most 6 takes with none but the front past QUEUED, every source named assigned to the
island, and the confirmation in agreement with the take that owns it (R89, R91 to R93, R101 to R103). -/
def Obligations.EveryStepKeepsTheIslands : Prop :=
  ∀ s t : State, s.part.islandsSound = true → step s = .next t → t.part.islandsSound = true

/-- Every step keeps the Mirror Link: at most four waiting entries, MOVEs first, at most two MOVEs of an island, one POLL of
it waiting or in flight, the entry in flight as the line state needs, at most three transactions, the transmit enable on in
SENDING alone (R115, R118, R119, R124). -/
def Obligations.EveryStepKeepsTheLink : Prop :=
  ∀ s t : State, s.part.link.sound = true → step s = .next t → t.part.link.sound = true

/-- Every step keeps the rings: at most 16 waiting events, every ring index below its ring size and 0 before a valid load
(the 0: the model's choice, log entry 5), one job of each unit exactly while it is at work, the port and the agent's word in
agreement (R165, R166, R170, R171, R174, R175, R176, R181, R182, R185). -/
def Obligations.EveryStepKeepsTheRings : Prop :=
  ∀ s t : State, s.part.ringsSound = true → step s = .next t → t.part.ringsSound = true
end

