-- ==== Sys2Proof/Laws/State.lean ====
section
/-! SUPPORT. What each update of a piece of state leaves as it was: one lemma a field, so that no proof unfolds a record
update. -/

namespace Sys2Proof

variable {α β : Type}

@[simp] theorem Four.get_set_same (v : Four α) (h : HeadId) (x : α) : (v.set h x).get h = x := by cases h <;> rfl

theorem Four.get_set_ne (v : Four α) {h k : HeadId} (x : α) (n : k ≠ h) : (v.set h x).get k = v.get k := by
  cases h <;> cases k <;> first | rfl | exact absurd rfl n

theorem Four.get_set (v : Four α) (h k : HeadId) (x : α) : (v.set h x).get k = if k = h then x else v.get k := by
  cases h <;> cases k <;> rfl

@[simp] theorem Four.set_get (v : Four α) (h : HeadId) : v.set h (v.get h) = v := by cases h <;> rfl

@[simp] theorem Four.get_map (f : α → β) (v : Four α) (h : HeadId) : (v.map f).get h = f (v.get h) := by cases h <;> rfl

@[simp] theorem Four.get_all (x : α) (h : HeadId) : (Four.all x).get h = x := by cases h <;> rfl

theorem Four.ext_get {v w : Four α} (e : ∀ h, v.get h = w.get h) : v = w := by
  cases v; cases w; simp only [Four.mk.injEq]; exact ⟨e .h1, e .h2, e .h3, e .h4⟩

@[simp] theorem Two.get_set_same (v : Two α) (i : IslandId) (x : α) : (v.set i x).get i = x := by cases i <;> rfl

theorem Two.get_set_ne (v : Two α) {i j : IslandId} (x : α) (n : j ≠ i) : (v.set i x).get j = v.get j := by
  cases i <;> cases j <;> first | rfl | exact absurd rfl n

theorem Two.get_set (v : Two α) (i j : IslandId) (x : α) : (v.set i x).get j = if j = i then x else v.get j := by
  cases i <;> cases j <;> rfl

@[simp] theorem Two.set_get (v : Two α) (i : IslandId) : v.set i (v.get i) = v := by cases i <;> rfl

@[simp] theorem Two.get_map (f : α → β) (v : Two α) (i : IslandId) : (v.map f).get i = f (v.get i) := by cases i <;> rfl

theorem Two.ext_get {v w : Two α} (e : ∀ i, v.get i = w.get i) : v = w := by
  cases v; cases w; simp only [Two.mk.injEq]; exact ⟨e .i1, e .i2⟩

namespace Machine

variable (p : Part) (h k : HeadId) (i j : IslandId)

/-! ### Reading a head or an island -/

@[simp] theorem Part.head_eq : p.head h = p.heads.get h := rfl
@[simp] theorem Part.island_eq : p.island i = p.islands.get i := rfl

/-! ### A head changed -/

@[simp] theorem Part.modHead_mode (f : Head → Head) : (p.modHead h f).mode = p.mode := rfl
@[simp] theorem Part.modHead_time (f : Head → Head) : (p.modHead h f).time = p.time := rfl
@[simp] theorem Part.modHead_ref (f : Head → Head) : (p.modHead h f).ref = p.ref := rfl
@[simp] theorem Part.modHead_analog (f : Head → Head) : (p.modHead h f).analog = p.analog := rfl
@[simp] theorem Part.modHead_islands (f : Head → Head) : (p.modHead h f).islands = p.islands := rfl
@[simp] theorem Part.modHead_link (f : Head → Head) : (p.modHead h f).link = p.link := rfl
@[simp] theorem Part.modHead_alarms (f : Head → Head) : (p.modHead h f).alarms = p.alarms := rfl
@[simp] theorem Part.modHead_panel (f : Head → Head) : (p.modHead h f).panel = p.panel := rfl
@[simp] theorem Part.modHead_bus (f : Head → Head) : (p.modHead h f).bus = p.bus := rfl
@[simp] theorem Part.modHead_agent (f : Head → Head) : (p.modHead h f).agent = p.agent := rfl
@[simp] theorem Part.modHead_cmd (f : Head → Head) : (p.modHead h f).cmd = p.cmd := rfl
@[simp] theorem Part.modHead_evt (f : Head → Head) : (p.modHead h f).evt = p.evt := rfl
@[simp] theorem Part.modHead_init (f : Head → Head) : (p.modHead h f).init = p.init := rfl
@[simp] theorem Part.modHead_defaults (f : Head → Head) : (p.modHead h f).defaults = p.defaults := rfl

@[simp] theorem Part.modHead_get_same (f : Head → Head) : (p.modHead h f).heads.get h = f (p.heads.get h) := by
  simp [Part.modHead]

theorem Part.modHead_get_ne (f : Head → Head) (n : k ≠ h) : (p.modHead h f).heads.get k = p.heads.get k := by
  simp [Part.modHead, Four.get_set_ne _ _ n]

theorem Part.modHead_get (f : Head → Head) :
    (p.modHead h f).heads.get k = if k = h then f (p.heads.get h) else p.heads.get k := by
  simp [Part.modHead, Four.get_set]

/-! ### A Cadence Monitor changed -/

@[simp] theorem Part.modCadence_mode (f : Cadence → Cadence) : (p.modCadence h f).mode = p.mode := rfl
@[simp] theorem Part.modCadence_time (f : Cadence → Cadence) : (p.modCadence h f).time = p.time := rfl
@[simp] theorem Part.modCadence_ref (f : Cadence → Cadence) : (p.modCadence h f).ref = p.ref := rfl
@[simp] theorem Part.modCadence_analog (f : Cadence → Cadence) : (p.modCadence h f).analog = p.analog := rfl
@[simp] theorem Part.modCadence_islands (f : Cadence → Cadence) : (p.modCadence h f).islands = p.islands := rfl
@[simp] theorem Part.modCadence_link (f : Cadence → Cadence) : (p.modCadence h f).link = p.link := rfl
@[simp] theorem Part.modCadence_alarms (f : Cadence → Cadence) : (p.modCadence h f).alarms = p.alarms := rfl
@[simp] theorem Part.modCadence_panel (f : Cadence → Cadence) : (p.modCadence h f).panel = p.panel := rfl
@[simp] theorem Part.modCadence_bus (f : Cadence → Cadence) : (p.modCadence h f).bus = p.bus := rfl
@[simp] theorem Part.modCadence_agent (f : Cadence → Cadence) : (p.modCadence h f).agent = p.agent := rfl
@[simp] theorem Part.modCadence_cmd (f : Cadence → Cadence) : (p.modCadence h f).cmd = p.cmd := rfl
@[simp] theorem Part.modCadence_evt (f : Cadence → Cadence) : (p.modCadence h f).evt = p.evt := rfl
@[simp] theorem Part.modCadence_init (f : Cadence → Cadence) : (p.modCadence h f).init = p.init := rfl
@[simp] theorem Part.modCadence_defaults (f : Cadence → Cadence) : (p.modCadence h f).defaults = p.defaults := rfl

@[simp] theorem Part.modCadence_get_same (f : Cadence → Cadence) :
    (p.modCadence h f).heads.get h = { p.heads.get h with cadence := f (p.heads.get h).cadence } := by
  simp [Part.modCadence]

theorem Part.modCadence_get_ne (f : Cadence → Cadence) (n : k ≠ h) :
    (p.modCadence h f).heads.get k = p.heads.get k := Part.modHead_get_ne p h k _ n

/-! ### An island changed -/

@[simp] theorem Part.modIsland_mode (f : Island → Island) : (p.modIsland i f).mode = p.mode := rfl
@[simp] theorem Part.modIsland_time (f : Island → Island) : (p.modIsland i f).time = p.time := rfl
@[simp] theorem Part.modIsland_ref (f : Island → Island) : (p.modIsland i f).ref = p.ref := rfl
@[simp] theorem Part.modIsland_heads (f : Island → Island) : (p.modIsland i f).heads = p.heads := rfl
@[simp] theorem Part.modIsland_analog (f : Island → Island) : (p.modIsland i f).analog = p.analog := rfl
@[simp] theorem Part.modIsland_link (f : Island → Island) : (p.modIsland i f).link = p.link := rfl
@[simp] theorem Part.modIsland_alarms (f : Island → Island) : (p.modIsland i f).alarms = p.alarms := rfl
@[simp] theorem Part.modIsland_panel (f : Island → Island) : (p.modIsland i f).panel = p.panel := rfl
@[simp] theorem Part.modIsland_bus (f : Island → Island) : (p.modIsland i f).bus = p.bus := rfl
@[simp] theorem Part.modIsland_agent (f : Island → Island) : (p.modIsland i f).agent = p.agent := rfl
@[simp] theorem Part.modIsland_cmd (f : Island → Island) : (p.modIsland i f).cmd = p.cmd := rfl
@[simp] theorem Part.modIsland_evt (f : Island → Island) : (p.modIsland i f).evt = p.evt := rfl
@[simp] theorem Part.modIsland_init (f : Island → Island) : (p.modIsland i f).init = p.init := rfl
@[simp] theorem Part.modIsland_defaults (f : Island → Island) : (p.modIsland i f).defaults = p.defaults := rfl

@[simp] theorem Part.modIsland_get_same (f : Island → Island) :
    (p.modIsland i f).islands.get i = f (p.islands.get i) := by
  simp [Part.modIsland]

theorem Part.modIsland_get_ne (f : Island → Island) (n : j ≠ i) :
    (p.modIsland i f).islands.get j = p.islands.get j := by
  simp [Part.modIsland, Two.get_set_ne _ _ n]

/-! ### A front take changed -/

@[simp] theorem Part.modFront_mode (f : Take → Take) : (p.modFront i f).mode = p.mode := rfl
@[simp] theorem Part.modFront_time (f : Take → Take) : (p.modFront i f).time = p.time := rfl
@[simp] theorem Part.modFront_ref (f : Take → Take) : (p.modFront i f).ref = p.ref := rfl
@[simp] theorem Part.modFront_heads (f : Take → Take) : (p.modFront i f).heads = p.heads := rfl
@[simp] theorem Part.modFront_analog (f : Take → Take) : (p.modFront i f).analog = p.analog := rfl
@[simp] theorem Part.modFront_link (f : Take → Take) : (p.modFront i f).link = p.link := rfl
@[simp] theorem Part.modFront_alarms (f : Take → Take) : (p.modFront i f).alarms = p.alarms := rfl
@[simp] theorem Part.modFront_panel (f : Take → Take) : (p.modFront i f).panel = p.panel := rfl
@[simp] theorem Part.modFront_bus (f : Take → Take) : (p.modFront i f).bus = p.bus := rfl
@[simp] theorem Part.modFront_agent (f : Take → Take) : (p.modFront i f).agent = p.agent := rfl
@[simp] theorem Part.modFront_cmd (f : Take → Take) : (p.modFront i f).cmd = p.cmd := rfl
@[simp] theorem Part.modFront_evt (f : Take → Take) : (p.modFront i f).evt = p.evt := rfl
@[simp] theorem Part.modFront_init (f : Take → Take) : (p.modFront i f).init = p.init := rfl
@[simp] theorem Part.modFront_defaults (f : Take → Take) : (p.modFront i f).defaults = p.defaults := rfl

@[simp] theorem Part.modFront_get_same (f : Take → Take) :
    (p.modFront i f).islands.get i = (p.islands.get i).modFront f := Part.modIsland_get_same p i _

theorem Part.modFront_get_ne (f : Take → Take) (n : j ≠ i) :
    (p.modFront i f).islands.get j = p.islands.get j := Part.modIsland_get_ne p i j _ n

/-! ### A station record changed -/

@[simp] theorem Part.modStation_mode (f : Station → Station) : (p.modStation i f).mode = p.mode := rfl
@[simp] theorem Part.modStation_time (f : Station → Station) : (p.modStation i f).time = p.time := rfl
@[simp] theorem Part.modStation_ref (f : Station → Station) : (p.modStation i f).ref = p.ref := rfl
@[simp] theorem Part.modStation_heads (f : Station → Station) : (p.modStation i f).heads = p.heads := rfl
@[simp] theorem Part.modStation_analog (f : Station → Station) : (p.modStation i f).analog = p.analog := rfl
@[simp] theorem Part.modStation_islands (f : Station → Station) : (p.modStation i f).islands = p.islands := rfl
@[simp] theorem Part.modStation_alarms (f : Station → Station) : (p.modStation i f).alarms = p.alarms := rfl
@[simp] theorem Part.modStation_panel (f : Station → Station) : (p.modStation i f).panel = p.panel := rfl
@[simp] theorem Part.modStation_bus (f : Station → Station) : (p.modStation i f).bus = p.bus := rfl
@[simp] theorem Part.modStation_agent (f : Station → Station) : (p.modStation i f).agent = p.agent := rfl
@[simp] theorem Part.modStation_cmd (f : Station → Station) : (p.modStation i f).cmd = p.cmd := rfl
@[simp] theorem Part.modStation_evt (f : Station → Station) : (p.modStation i f).evt = p.evt := rfl
@[simp] theorem Part.modStation_init (f : Station → Station) : (p.modStation i f).init = p.init := rfl
@[simp] theorem Part.modStation_defaults (f : Station → Station) : (p.modStation i f).defaults = p.defaults := rfl

@[simp] theorem Part.modStation_link (f : Station → Station) :
    (p.modStation i f).link = { p.link with stations := p.link.stations.set i (f (p.link.stations.get i)) } := rfl

/-! ### A channel record changed -/

@[simp] theorem Part.modChannel_mode (c : ChannelId) (f : Channel → Channel) : (p.modChannel c f).mode = p.mode := rfl
@[simp] theorem Part.modChannel_time (c : ChannelId) (f : Channel → Channel) : (p.modChannel c f).time = p.time := rfl
@[simp] theorem Part.modChannel_ref (c : ChannelId) (f : Channel → Channel) : (p.modChannel c f).ref = p.ref := rfl
@[simp] theorem Part.modChannel_heads (c : ChannelId) (f : Channel → Channel) : (p.modChannel c f).heads = p.heads := rfl
@[simp] theorem Part.modChannel_islands (c : ChannelId) (f : Channel → Channel) : (p.modChannel c f).islands = p.islands := rfl
@[simp] theorem Part.modChannel_link (c : ChannelId) (f : Channel → Channel) : (p.modChannel c f).link = p.link := rfl
@[simp] theorem Part.modChannel_alarms (c : ChannelId) (f : Channel → Channel) : (p.modChannel c f).alarms = p.alarms := rfl
@[simp] theorem Part.modChannel_panel (c : ChannelId) (f : Channel → Channel) : (p.modChannel c f).panel = p.panel := rfl
@[simp] theorem Part.modChannel_bus (c : ChannelId) (f : Channel → Channel) : (p.modChannel c f).bus = p.bus := rfl
@[simp] theorem Part.modChannel_agent (c : ChannelId) (f : Channel → Channel) : (p.modChannel c f).agent = p.agent := rfl
@[simp] theorem Part.modChannel_cmd (c : ChannelId) (f : Channel → Channel) : (p.modChannel c f).cmd = p.cmd := rfl
@[simp] theorem Part.modChannel_evt (c : ChannelId) (f : Channel → Channel) : (p.modChannel c f).evt = p.evt := rfl
@[simp] theorem Part.modChannel_init (c : ChannelId) (f : Channel → Channel) : (p.modChannel c f).init = p.init := rfl
@[simp] theorem Part.modChannel_defaults (c : ChannelId) (f : Channel → Channel) : (p.modChannel c f).defaults = p.defaults := rfl

@[simp] theorem Part.modChannel_analog (c : ChannelId) (f : Channel → Channel) :
    (p.modChannel c f).analog = p.analog.setChannel c (f (p.analog.channel c)) := rfl

/-! ### Records of the link and of the scanner -/

@[simp] theorem Station.expire_due (n : Nat) (s : Station) : (s.expire n).due = true := rfl
@[simp] theorem Station.expire_countdown (n : Nat) (s : Station) : (s.expire n).countdown = n := rfl
@[simp] theorem Station.expire_fast (n : Nat) (s : Station) : (s.expire n).fast = s.fast := rfl

/-- A pending expiry that is met gives the POLL due and nothing else but the countdown (R126). -/
theorem Station.met_eq (n : Nat) (s : Station) :
    s.met n = { s with due := s.due || decide (s.countdown = 0), countdown := if s.countdown = 0 then n else s.countdown } := by
  unfold Station.met Station.expire
  split <;> simp [*]

@[simp] theorem Channel.taken_last (m : Option JudgingMode) (r : Nat) (c : Channel) : (c.taken m r).last = r := rfl
@[simp] theorem Channel.taken_mode (m : Option JudgingMode) (r : Nat) (c : Channel) : (c.taken m r).mode = c.mode.or m := rfl
@[simp] theorem Channel.taken_limits (m : Option JudgingMode) (r : Nat) (c : Channel) : (c.taken m r).limits = c.limits := rfl
@[simp] theorem Channel.taken_condition (m : Option JudgingMode) (r : Nat) (c : Channel) :
    (c.taken m r).condition = c.condition := rfl
@[simp] theorem Channel.taken_outCount (m : Option JudgingMode) (r : Nat) (c : Channel) :
    (c.taken m r).outCount = c.outCount := rfl
@[simp] theorem Channel.taken_inCount (m : Option JudgingMode) (r : Nat) (c : Channel) :
    (c.taken m r).inCount = c.inCount := rfl
@[simp] theorem Channel.taken_outSide (m : Option JudgingMode) (r : Nat) (c : Channel) :
    (c.taken m r).outSide = c.outSide := rfl
@[simp] theorem Channel.taken_frozen (m : Option JudgingMode) (r : Nat) (c : Channel) :
    (c.taken m r).frozen = c.frozen := rfl

/-! ### Two updates -/

theorem Part.modHead_modHead (f g : Head → Head) : (p.modHead h f).modHead h g = p.modHead h fun x => g (f x) := by
  cases h <;> rfl

theorem Part.modIsland_modIsland (f g : Island → Island) :
    (p.modIsland i f).modIsland i g = p.modIsland i fun x => g (f x) := by
  cases i <;> rfl

theorem Part.modFront_modFront (f g : Take → Take) :
    (p.modFront i f).modFront i g = p.modFront i fun t => g (f t) := by
  rw [Part.modFront, Part.modFront, Part.modIsland_modIsland, Part.modFront]
  congr 1
  funext x
  unfold Island.modFront
  cases hx : x.takes <;> simp [hx]

/-! ### Commands and the queue -/

@[simp] theorem onPart_eq (f : Part → Part) (s : State) : onPart f s = .next { s with part := f s.part } := rfl

end Machine

end Sys2Proof
end

