-- ==== Sys2Proof/Laws/Frames.lean ====
section
/-! SUPPORT. The frame of each shared operation: the pieces of the part it can change, stated once; and the delta of a
correction. A proof about a command cites these and does not unfold the operation. -/

namespace Sys2Proof.Machine

/-! ### Frames in general -/

theorem ChangesOnly.refl (t : List Block) (p : Part) : ChangesOnly t p p := by
  intro b _; cases b <;> simp [Block.same]

theorem Block.same.trans {p q r : Part} {b : Block} (x : b.same p q) (y : b.same q r) : b.same p r := by
  cases b <;> simp_all [Block.same]

theorem ChangesOnly.trans {t : List Block} {p q r : Part} (x : ChangesOnly t p q) (y : ChangesOnly t q r) :
    ChangesOnly t p r := fun b n => (x b n).trans (y b n)

theorem ChangesOnly.mono {s t : List Block} {p q : Part} (x : ChangesOnly s p q) (h : s ⊆ t) : ChangesOnly t p q :=
  fun b n => x b fun m => n (h m)

/-- One operation after another, each within the same frame. -/
theorem ChangesOnly.after {t : List Block} {p q : Part} {f : Part → Part} (x : ∀ r, ChangesOnly t r (f r))
    (y : ChangesOnly t p q) : ChangesOnly t p (f q) := y.trans (x q)

theorem ChangesOnly.ite {t : List Block} {p q r : Part} {c : Prop} [Decidable c] (x : ChangesOnly t p q)
    (y : ChangesOnly t p r) : ChangesOnly t p (if c then q else r) := by
  split <;> assumption

theorem ChangesOnly.foldl {α : Type} {t : List Block} {f : Part → α → Part} (x : ∀ r a, ChangesOnly t r (f r a))
    (l : List α) (p : Part) : ChangesOnly t p (l.foldl f p) := by
  induction l generalizing p with
  | nil => exact .refl t p
  | cons a l ih => exact (x p a).trans (ih (f p a))

/-! ### Changing one head or one island -/

theorem modHead_frame (h : HeadId) (f : Head → Head) (p : Part) : ChangesOnly [.head h] p (p.modHead h f) := by
  intro b n
  cases b with
  | head k =>
    have : k ≠ h := by simpa using n
    exact (Part.modHead_get_ne p h k f this).symm
  | _ => first | rfl | exact ⟨rfl, rfl, rfl, rfl⟩ | exact ⟨rfl, rfl, rfl⟩ | exact ⟨rfl, rfl⟩

theorem modCadence_frame (h : HeadId) (f : Cadence → Cadence) (p : Part) :
    ChangesOnly [.head h] p (p.modCadence h f) := modHead_frame h _ p

theorem modIsland_frame (i : IslandId) (f : Island → Island) (p : Part) :
    ChangesOnly [.island i] p (p.modIsland i f) := by
  intro b n
  cases b with
  | island j =>
    have : j ≠ i := by simpa using n
    exact (Part.modIsland_get_ne p i j f this).symm
  | _ => first | rfl | exact ⟨rfl, rfl, rfl, rfl⟩ | exact ⟨rfl, rfl, rfl⟩ | exact ⟨rfl, rfl⟩

theorem modFront_frame (i : IslandId) (f : Take → Take) (p : Part) : ChangesOnly [.island i] p (p.modFront i f) :=
  modIsland_frame i _ p

/-- A frame in which only fields of the part are replaced. -/
theorem modStation_frame (i : IslandId) (f : Station → Station) (p : Part) : ChangesOnly [.link] p (p.modStation i f) := by
  intro b n
  cases b <;>
    first | rfl | exact ⟨rfl, rfl, rfl, rfl⟩ | exact ⟨rfl, rfl, rfl⟩ | exact ⟨rfl, rfl⟩ | simp at n

theorem modChannel_frame (c : ChannelId) (f : Channel → Channel) (p : Part) :
    ChangesOnly [.analog] p (p.modChannel c f) := by
  intro b n
  cases b <;>
    first | rfl | exact ⟨rfl, rfl, rfl, rfl⟩ | exact ⟨rfl, rfl, rfl⟩ | exact ⟨rfl, rfl⟩ | simp at n

theorem setLink_frame (k : LinkUnit) (p : Part) : ChangesOnly [.link] p { p with link := k } := by
  intro b n
  cases b <;>
    first | rfl | exact ⟨rfl, rfl, rfl, rfl⟩ | exact ⟨rfl, rfl, rfl⟩ | exact ⟨rfl, rfl⟩ | simp at n

theorem setAlarms_frame (t : AlarmTable) (p : Part) : ChangesOnly [.alarms] p { p with alarms := t } := by
  intro b n
  cases b <;>
    first | rfl | exact ⟨rfl, rfl, rfl, rfl⟩ | exact ⟨rfl, rfl, rfl⟩ | exact ⟨rfl, rfl⟩ | simp at n

theorem setEvents_frame (e : EventUnit) (p : Part) : ChangesOnly [.events] p { p with evt := e } := by
  intro b n
  cases b <;>
    first | rfl | exact ⟨rfl, rfl, rfl, rfl⟩ | exact ⟨rfl, rfl, rfl⟩ | exact ⟨rfl, rfl⟩ | simp at n

theorem setAgent_frame (a : Agent) (p : Part) : ChangesOnly [.agent] p { p with agent := a } := by
  intro b n
  cases b <;>
    first | rfl | exact ⟨rfl, rfl, rfl, rfl⟩ | exact ⟨rfl, rfl, rfl⟩ | exact ⟨rfl, rfl⟩ | simp at n

theorem setAnalog_frame (a : Analog) (p : Part) : ChangesOnly [.analog] p { p with analog := a } := by
  intro b n
  cases b <;>
    first | rfl | exact ⟨rfl, rfl, rfl, rfl⟩ | exact ⟨rfl, rfl, rfl⟩ | exact ⟨rfl, rfl⟩ | simp at n

theorem setRef_frame (r : RefUnit) (p : Part) : ChangesOnly [.ref] p { p with ref := r } := by
  intro b n
  cases b <;>
    first | rfl | exact ⟨rfl, rfl, rfl, rfl⟩ | exact ⟨rfl, rfl, rfl⟩ | exact ⟨rfl, rfl⟩ | simp at n

/-! ### The port, the agent, events and alarms -/

theorem arbitrate_frame (p : Part) : ChangesOnly [.agent, .port] p (arbitrate p) := by
  intro b n
  unfold arbitrate
  cases b <;> simp at n <;> split <;> (try split) <;> simp [Block.same]

theorem submit_frame (j : Job) (p : Part) : ChangesOnly [.agent, .port] p (submit j p) := by
  unfold submit
  split
  · exact ((setAgent_frame _ p).mono (by simp)).trans (arbitrate_frame _)
  · exact (setAgent_frame _ p).mono (by simp)

theorem pumpEvents_frame (p : Part) : ChangesOnly Block.posting p (pumpEvents p) := by
  unfold pumpEvents
  split
  · exact .refl _ _
  · split
    · exact ((setEvents_frame _ p).mono (by simp [Block.posting])).trans ((submit_frame _ _).mono (by simp [Block.posting]))
    · exact .refl _ _

theorem post_frame (s : AlarmSource) (e : EventItem) (p : Part) : ChangesOnly Block.posting p (post s e p) := by
  unfold post
  split
  · exact ((setEvents_frame _ p).mono (by simp [Block.posting])).trans (pumpEvents_frame _)
  · exact (setEvents_frame _ p).mono (by simp [Block.posting])

theorem Block.posting_alarming : Block.posting ⊆ Block.alarming := by simp [Block.alarming]

theorem post_alarming (s : AlarmSource) (e : EventItem) (p : Part) : ChangesOnly Block.alarming p (post s e p) :=
  (post_frame s e p).mono Block.posting_alarming

theorem alarms_alarming (t : AlarmTable) (p : Part) : ChangesOnly Block.alarming p { p with alarms := t } :=
  (setAlarms_frame t p).mono (by simp [Block.alarming])

theorem judgeHorn_frame (p : Part) : ChangesOnly Block.alarming p (judgeHorn p) := alarms_alarming _ p

theorem enterAlarm_frame (s : AlarmSource) (k : AlarmKind) (e : EntryState) (a b : Word) (p : Part) :
    ChangesOnly Block.alarming p (enterAlarm s k e a b p) :=
  (alarms_alarming _ p).trans (post_alarming _ _ _)

theorem addAlarm_frame (s : AlarmSource) (k : AlarmKind) (e : EntryState) (a b : Word) (p : Part) :
    ChangesOnly Block.alarming p (addAlarm s k e a b p) := by
  unfold addAlarm
  split
  · exact enterAlarm_frame s k e a b p
  · split
    · exact ((alarms_alarming _ p).trans (post_alarming _ _ _)).trans (enterAlarm_frame _ _ _ _ _ _)
    · exact (alarms_alarming _ p).trans (post_alarming _ _ _)

theorem raiseAlarm_frame (s : AlarmSource) (k : AlarmKind) (a b : Word) (p : Part) :
    ChangesOnly Block.alarming p (raiseAlarm s k a b p) := by
  unfold raiseAlarm
  refine .trans ?_ (judgeHorn_frame _)
  split
  · exact addAlarm_frame _ _ _ _ _ _
  · exact post_alarming _ _ _
  · exact addAlarm_frame _ _ _ _ _ _
  · split
    · exact (alarms_alarming _ p).trans (post_alarming _ _ _)
    · exact .refl _ _
    · exact .refl _ _

theorem clearAlarm_frame (s : AlarmSource) (k : AlarmKind) (a b : Word) (p : Part) :
    ChangesOnly Block.alarming p (clearAlarm s k a b p) := by
  unfold clearAlarm
  refine .trans ?_ (judgeHorn_frame _)
  split
  · exact .refl _ _
  · split
    · exact (alarms_alarming _ p).trans (post_alarming _ _ _)
    · exact (alarms_alarming _ p).trans (post_alarming _ _ _)
    · exact .refl _ _

theorem clearLatched_frame (h : HeadId) (p : Part) : ChangesOnly Block.alarming p (clearLatched h p) :=
  ((clearAlarm_frame _ _ _ _ p).trans (clearAlarm_frame _ _ _ _ _)).trans (clearAlarm_frame _ _ _ _ _)

theorem acknowledgeEntry_frame (e : AlarmEntry) (p : Part) : ChangesOnly Block.alarming p (acknowledgeEntry e p) := by
  unfold acknowledgeEntry
  split
  · exact (alarms_alarming _ p).trans (post_alarming _ _ _)
  · exact (alarms_alarming _ p).trans (post_alarming _ _ _)
  · exact .refl _ _

theorem acknowledge_frame (s : Option AlarmSource) (p : Part) : ChangesOnly Block.alarming p (acknowledge s p) :=
  ((ChangesOnly.foldl (fun q e => acknowledgeEntry_frame e q) _ p).trans (alarms_alarming _ _)).trans (judgeHorn_frame _)

theorem emptyAlarms_frame (p : Part) : ChangesOnly Block.alarming p (emptyAlarms p) :=
  ((alarms_alarming _ p).trans (post_alarming _ _ _)).trans (judgeHorn_frame _)

/-! ### The mirror link -/

theorem link_linking (k : LinkUnit) (p : Part) : ChangesOnly Block.linking p { p with link := k } :=
  (setLink_frame k p).mono (by simp [Block.linking])

theorem modStation_linking (i : IslandId) (f : Station → Station) (p : Part) :
    ChangesOnly Block.linking p (p.modStation i f) := (modStation_frame i f p).mono (by simp [Block.linking])

theorem post_linking (s : AlarmSource) (e : EventItem) (p : Part) : ChangesOnly Block.linking p (post s e p) :=
  (post_frame s e p).mono (by simp [Block.linking])

theorem reportLate_frame (e : Entry) (a : Nat) (p : Part) : ChangesOnly Block.linking p (reportLate e a p) := by
  unfold reportLate
  split
  · split
    · exact post_linking _ _ _
    · exact .refl _ _
  · exact .refl _ _

theorem beginTransaction_frame (f : Flight) (p : Part) : ChangesOnly Block.linking p (beginTransaction f p) := by
  unfold beginTransaction
  exact .ite ((link_linking _ p).trans (reportLate_frame _ _ _)) (link_linking _ p)

theorem selectEntry_frame (p : Part) : ChangesOnly Block.linking p (selectEntry p) := by
  unfold selectEntry
  split
  · exact (link_linking _ p).trans (beginTransaction_frame _ _)
  · exact .refl _ _

theorem joinPoll_frame (i : IslandId) (p : Part) : ChangesOnly Block.linking p (joinPoll i p) := by
  unfold joinPoll
  exact .ite ((link_linking _ p).trans (modStation_linking _ _ _)) (.refl _ _)

theorem joinPolls_frame (p : Part) : ChangesOnly Block.linking p (joinPolls p) :=
  .ite (joinPoll_frame .i1 p) ((joinPoll_frame .i1 p).trans (joinPoll_frame .i2 _))

theorem pumpLink_frame (p : Part) : ChangesOnly Block.linking p (pumpLink p) :=
  ((joinPolls_frame p).trans (selectEntry_frame _)).trans (joinPolls_frame _)

theorem dropPoll_frame (p : Part) : ChangesOnly Block.linking p (dropPoll p) := by
  unfold dropPoll
  split
  · exact .refl _ _
  · split
    · exact (link_linking _ p).trans (modStation_linking _ _ _)
    · exact .refl _ _

theorem submitMove_frame (i : IslandId) (q : Port) (asked : Stamp) (p : Part) :
    ChangesOnly Block.linking p (submitMove i q asked p) :=
  (((link_linking _ p).trans (dropPoll_frame _)).trans (modStation_linking _ _ _)).trans (pumpLink_frame _)

theorem endFast_frame (i : IslandId) (p : Part) : ChangesOnly Block.linking p (endFast i p) :=
  .ite ((modStation_linking _ _ _).trans (pumpLink_frame _)) (modStation_linking _ _ _)

theorem fieldPolls_frame (p : Part) : ChangesOnly Block.linking p (fieldPolls p) :=
  (link_linking _ p).trans (pumpLink_frame _)

theorem takePollExpiry_frame (i : IslandId) (p : Part) : ChangesOnly Block.linking p (takePollExpiry i p) :=
  (modStation_linking _ _ p).trans (pumpLink_frame _)

/-! ### Heads -/

theorem alarming_driving (h : HeadId) : Block.alarming ⊆ Block.driving h := by
  intro b m; simp [Block.driving, m]

theorem modHead_driving (h : HeadId) (f : Head → Head) (p : Part) : ChangesOnly (Block.driving h) p (p.modHead h f) :=
  (modHead_frame h f p).mono (by simp [Block.driving])

theorem modCadence_driving (h : HeadId) (f : Cadence → Cadence) (p : Part) :
    ChangesOnly (Block.driving h) p (p.modCadence h f) := modHead_driving h _ p

theorem analog_driving (h : HeadId) (a : Analog) (p : Part) : ChangesOnly (Block.driving h) p { p with analog := a } :=
  (setAnalog_frame a p).mono (by simp [Block.driving])

theorem post_driving (h : HeadId) (s : AlarmSource) (e : EventItem) (p : Part) :
    ChangesOnly (Block.driving h) p (post s e p) := (post_alarming s e p).mono (alarming_driving h)

theorem raiseAlarm_driving (h : HeadId) (s : AlarmSource) (k : AlarmKind) (a b : Word) (p : Part) :
    ChangesOnly (Block.driving h) p (raiseAlarm s k a b p) := (raiseAlarm_frame s k a b p).mono (alarming_driving h)

theorem clearAlarm_driving (h : HeadId) (s : AlarmSource) (k : AlarmKind) (a b : Word) (p : Part) :
    ChangesOnly (Block.driving h) p (clearAlarm s k a b p) := (clearAlarm_frame s k a b p).mono (alarming_driving h)

theorem lampChanged_frame (h : HeadId) (p : Part) : ChangesOnly (Block.driving h) p (lampChanged h p) := by
  unfold lampChanged
  split
  · exact .refl _ _
  · simp only
    split
    · exact (analog_driving h _ p).trans (clearAlarm_driving _ _ _ _ _ _)
    · exact analog_driving h _ p

theorem tensionIdle_frame (h : HeadId) (p : Part) : ChangesOnly (Block.driving h) p (tensionIdle h p) := by
  unfold tensionIdle
  exact .ite (.refl _ _) (analog_driving h _ p)

theorem stopMeasuring_frame (h : HeadId) (p : Part) : ChangesOnly (Block.driving h) p (stopMeasuring h p) :=
  ((modHead_driving h _ p).trans (clearAlarm_driving _ _ _ _ _ _)).trans (clearAlarm_driving _ _ _ _ _ _)

theorem enterDrive_frame (h : HeadId) (d : DriveState) (c : Cause) (k : Option FaultKind) (p : Part) :
    ChangesOnly (Block.driving h) p (enterDrive h d c k p) := by
  unfold enterDrive
  simp only
  have a : ChangesOnly (Block.driving h) p
      (post (.head h) (.headState d (p.head h).drive c (p.head h).pos.frame) (p.modHead h fun x => x.enter d p.time.now)) :=
    (modHead_driving h _ p).trans (post_driving _ _ _ _)
  refine .ite (.trans ?_ (stopMeasuring_frame _ _)) ?_ <;>
  · refine .ite (.trans ?_ (tensionIdle_frame _ _)) ?_ <;>
    · refine .ite ?_ (.trans ?_ (lampChanged_frame _ _)) <;>
      · split
        · exact a.trans (raiseAlarm_driving _ _ _ _ _ _)
        · exact a

theorem ChangesOnly.head {t : List Block} {p q : Part} (a : ChangesOnly t p q) {h : HeadId} (n : .head h ∉ t) :
    q.head h = p.head h := (a (.head h) n).symm

theorem Block.head_alarming (h : HeadId) : .head h ∉ Block.alarming := by simp [Block.alarming, Block.posting]

theorem lampChanged_head (h k : HeadId) (p : Part) : (lampChanged h p).head k = p.head k := by
  unfold lampChanged
  split
  · rfl
  · dsimp only
    split
    · exact (clearAlarm_frame _ _ _ _ _).head (Block.head_alarming k)
    · rfl

theorem tensionIdle_head (h k : HeadId) (p : Part) : (tensionIdle h p).head k = p.head k := by
  unfold tensionIdle
  dsimp only
  split <;> rfl

theorem stopMeasuring_head (h : HeadId) (p : Part) :
    (stopMeasuring h p).head h = { p.head h with cadence := (p.head h).cadence.stopped } := by
  unfold stopMeasuring
  rw [(clearAlarm_frame _ _ _ _ _).head (Block.head_alarming h), (clearAlarm_frame _ _ _ _ _).head (Block.head_alarming h)]
  exact Part.modCadence_get_same p h _

/-- A head as `enterDrive` leaves it (R16, R17, R26, R27, R38). -/
theorem enterDrive_head (h : HeadId) (d : DriveState) (c : Cause) (k : Option FaultKind) (p : Part) :
    (enterDrive h d c k p).head h =
      if (p.head h).drive.running && !d.running then
        { (p.head h).enter d p.time.now with cadence := (p.head h).cadence.stopped }
      else (p.head h).enter d p.time.now := by
  unfold enterDrive
  dsimp only
  generalize hx : (p.head h).enter d p.time.now = x
  have e1 : (post (.head h) (.headState d (p.head h).drive c (p.head h).pos.frame)
      (p.modHead h fun x => x.enter d p.time.now)).head h = x := by
    rw [(post_alarming _ _ _).head (Block.head_alarming h), ← hx]; exact Part.modHead_get_same p h _
  have e2 : ∀ r : Part, r.head h = x →
      (match k with | some k => raiseAlarm (.head h) k.alarm 0 0 r | none => r).head h = x := by
    intro r e; split
    · rw [(raiseAlarm_frame _ _ _ _ _).head (Block.head_alarming h), e]
    · exact e
  have e3 : ∀ (b : Prop) [Decidable b] (r : Part), r.head h = x → (if b then r else lampChanged h r).head h = x := by
    intro b _ r e; split
    · exact e
    · rw [lampChanged_head, e]
  have e4 : ∀ (b : Prop) [Decidable b] (r : Part), r.head h = x → (if b then tensionIdle h r else r).head h = x := by
    intro b _ r e; split
    · rw [tensionIdle_head, e]
    · exact e
  have e5 : ∀ (b : Prop) [Decidable b] (r : Part), r.head h = x → (if b then stopMeasuring h r else r).head h =
      if b then { x with cadence := (p.head h).cadence.stopped } else x := by
    intro b _ r e; split
    · rw [stopMeasuring_head, e, ← hx]; rfl
    · exact e
  exact e5 _ _ (e4 _ _ (e3 _ _ (e2 _ e1)))

theorem switchLamp_frame (h : HeadId) (on : Bool) (p : Part) : ChangesOnly (Block.driving h) p (switchLamp h on p) := by
  unfold switchLamp
  exact .ite (.refl _ _) ((modHead_driving h _ p).trans (lampChanged_frame _ _))

theorem startDrive_frame (h : HeadId) (c : Cause) (p : Part) : ChangesOnly (Block.driving h) p (startDrive h c p) := by
  unfold startDrive
  exact (modCadence_driving h _ p).trans (enterDrive_frame h .runup c none _)

/-- A head at rest as a START leaves it (R24, R38). -/
theorem startDrive_head (h : HeadId) (c : Cause) (p : Part) (r : (p.head h).drive.atRest = true) :
    (startDrive h c p).head h =
      { p.head h with
        drive := .runup
        outputs := motor .runup (p.head h).cueUp (lampOn (p.head h).lampPolicy .runup (p.head h).outputs.lamp)
        lampOnAt := if lampOn (p.head h).lampPolicy .runup (p.head h).outputs.lamp && !(p.head h).outputs.lamp then
          some p.time.now else (p.head h).lampOnAt
        gapFrom := some p.time.now
        settleFrom := none
        cueUp := none
        park := none
        cadence := (p.head h).cadence.started p.ref.count (p.head h).pos.frame } := by
  unfold startDrive
  dsimp only
  rw [enterDrive_head]
  have e : (p.modCadence h fun x => x.started p.ref.count (p.head h).pos.frame).head h =
      { p.head h with cadence := (p.head h).cadence.started p.ref.count (p.head h).pos.frame } :=
    Part.modCadence_get_same p h _
  rw [e]
  generalize p.head h = x at r ⊢
  have n : x.drive.running = false := by revert r; cases x.drive <;> simp [DriveState.atRest, DriveState.running]
  have m : x.drive.driven = false := by
    revert r; cases x.drive <;> simp [DriveState.atRest, DriveState.running, DriveState.driven, DriveState.cueing]
  have a : DriveState.runup.driven = true := rfl
  have b : DriveState.runup.running = true := rfl
  have c : DriveState.runup.cueing = false := rfl
  simp [n, m, a, b, c, Head.enter, gapStart, settleStart, motor]

theorem declareUnlock_frame (h : HeadId) (n : Nat) (e : Option Nat) (u : Bool) (p : Part) :
    ChangesOnly (Block.driving h) p (declareUnlock h n e u p) := by
  unfold declareUnlock
  refine .trans (modCadence_driving h (fun c => { c with unlockStamp := some p.ref.count }) p) ?_
  refine .trans (enterDrive_frame h .unlocked .cadence none _) ?_
  refine .trans (post_driving h (.head h) (.unlock u n e (p.head h).pos.frame) _) ?_
  exact .ite (raiseAlarm_driving h _ _ _ _ _) (.refl _ _)

theorem declareLock_frame (h : HeadId) (p : Part) : ChangesOnly (Block.driving h) p (declareLock h p) := by
  unfold declareLock
  simp only
  have a := enterDrive_frame h .locked .cadence none p
  refine .ite ?_ ?_
  · exact (a.trans (post_driving h _ _ _)).trans (clearAlarm_driving h _ _ _ _ _)
  · exact ((a.trans (modHead_driving h _ _)).trans (post_driving h _ _ _)).trans (clearAlarm_driving h _ _ _ _ _)

theorem cadenceBoundary_frame (h : HeadId) (p : Part) : ChangesOnly (Block.driving h) p (cadenceBoundary h p) := by
  unfold cadenceBoundary
  dsimp only
  generalize (p.head h).cadence.boundaryAt p.ref.standard p.ref.count p.time.now = r
  obtain ⟨c, v⟩ := r
  have a : ChangesOnly (Block.driving h) p (p.modCadence h fun _ => c) := modHead_driving h _ p
  match v with
  | none => exact a
  | some (.nonconforming u) => exact .ite (a.trans (declareUnlock_frame _ _ _ _ _)) a
  | some (.provisional _) => exact a
  | some .conforming => exact .ite (a.trans (declareLock_frame _ _)) a
  | some .pair => exact .ite (a.trans (declareLock_frame _ _)) a

/-! ### The delta of a correction -/

/-- The delta of a correction to a frame within the range: what R22, R69 and R187 all say. -/
theorem correctionDelta_within {a target : Int} (low : Config.frameMin ≤ target) (high : target ≤ Config.frameMax) :
    correctionDelta a target = target - a := by
  have h : nearestFrame target = target := by unfold nearestFrame; omega
  simp [correctionDelta, h]

/-- The delta of a correction is R22's difference or that of R69 and R187. -/
theorem correctionDelta_cases (a target : Int) :
    correctionDelta a target = nearestFrame target - a ∨ correctionDelta a target = target - a := by
  unfold correctionDelta
  split
  · exact .inr rfl
  · split
    · exact .inl rfl
    · exact .inr rfl

end Sys2Proof.Machine
end

