-- ==== Sys2Proof/Laws/PerInstr.lean ====
section
/-! SUPPORT. The family `Encoded`: the entry of R180 that spells a ring command is read by the Command Unit as that
command, every argument word at its place. A command that is no ring command has no entry; no row of the table has bits. -/

namespace Sys2Proof.Laws

open Sys2Proof.Machine

/-- An entry taken in two parts, up to its status and behind it, does what its command does (R93, R177). -/
theorem runEntry_follow (w : Nat → Word) (p : Part) :
    runEntry w p = (followEntry w p (enterEntry w p).1, (enterEntry w p).2) := by
  by_cases t : isTakeEntry w = true
  · have c : (w 0).toNat % 256 = 0x31 := by simpa [isTakeEntry] using t
    simp [enterEntry, followEntry, t, runEntry, c, takeCommand]
  · simp [enterEntry, followEntry, t]

/-- Words 1 to 14 of an entry, as many as given, behind the code in the low byte of word 0 (R177, R180). -/
def entryWords (code : Nat) (args : List Word) (n : Nat) : Word :=
  match n with
  | 0 => BitVec.ofNat 16 code
  | n + 1 => args.getD n 0

/-- The entry words of a ring command and what its owner does, for each row that is a ring command. -/
def ringRow : Instr → Option ((Nat → Word) × (Part → Part × Status))
  | .setTrim t => some (entryWords 0x01 [0, 0, t], setTrim t)
  | .clear => some (entryWords 0x02 [], clearCommand)
  | .ackAlarms s => some (entryWords 0x03 [0, 0, s], ackAlarmsCommand s)
  | .resetFlags => some (entryWords 0x04 [], resetFlagsCommand)
  | .setAnalogLimits c l h d => some (entryWords 0x05 [c, 0, l, h, d], setAnalogLimitsCommand c l h d)
  | .setPanelMode m d => some (entryWords 0x06 [0, 0, m, d], setPanelModeCommand m d)
  | .configureHead h w =>
    some (entryWords 0x10 [h, 0, w.gaugePolicy, w.lockCount, w.runupLead, w.runupDistance, w.runupLimit,
      w.startResponse, w.lossTimeout, w.approach, w.parkTolerance, w.settleTime, w.sensorOffset, w.lampSettle], configureHeadCommand h w)
  | .assignHead h i p => some (entryWords 0x11 [h, 0, i, p], assignHeadCommand h i p)
  | .setPosition h f => some (entryWords 0x12 [h, 0, lowWord f, highWord f], setPositionCommand h f)
  | .cueUp h m a => some (entryWords 0x13 [h, 0, m, lowWord a, highWord a], cueUpCommand h m a)
  | .start h => some (entryWords 0x14 [h], startCommand h)
  | .stop h => some (entryWords 0x15 [h], stopCommand h)
  | .lamp h b => some (entryWords 0x16 [h, 0, b], lampCommand h b)
  | .clearFault h => some (entryWords 0x17 [h], clearFaultCommand h)
  | .loadCue h i k f w c =>
    some (entryWords 0x20 [h, 0, i, k, lowWord f, highWord f, w, c], loadCueCommand h i k f w c)
  | .deleteCue h i => some (entryWords 0x21 [h, 0, i], deleteCueCommand h i)
  | .clearCues h => some (entryWords 0x22 [h], clearCuesCommand h)
  | .configureIsland i a s l t p g =>
    some (entryWords 0x30 [i, 0, a, s, l, t, p, g], configureIslandCommand i a s l t p g)
  | .take i g n m f o c t r =>
    some (entryWords 0x31 [i, g, n, m, lowWord f, highWord f, o, c, t, r], takeCommand i g n m f o c t r)
  | .cancelTake i g => some (entryWords 0x32 [i, g], cancelTakeCommand i g)
  | .abortTake i => some (entryWords 0x33 [i], abortTakeCommand i)
  | .standby i => some (entryWords 0x34 [i], standbyCommand i)
  | .powerOn | .resetLinePulse | .configLoadEnd _ _ | .stationPulse _ | .flywheelExpiry _ | .acceptanceWindowEnd _
  | .slewingPulseGap _ | .tachPulse _ _ _ | .tachGapExpiry _ _ | .settleExpiry _ _ | .speedTimeout _ _ | .slowStart _
  | .cueMarkPulse _ _ | .startFieldReached _ | .commitFieldReached _ | .endGuardReached _ | .moveDeadline _
  | .pollCountdownExpiry _ | .sendComplete _ | .replyMessage _ _ | .replyTimeout _ | .gapEnd _ | .scanStart _
  | .conversionComplete _ _ | .dwellEnd _ _ | .processorCycle _ _ | .commandProducerWrite _ _ _ _ _
  | .eventConsumerWrite _ _ _ _ _ | .withheldWrite _ _ _ _ _ | .liveRead _ _ _ _ | .agentWordEnd _ _
  | .agentWordTimeout _ | .starveExpiry _ => none

namespace Encoded

/-- No word of the table spells the command, and its ring entry, when it has one, is read as what the command does. -/
def Statement (i : Instr) : Prop :=
  (∀ nbits w, decodeTableWord nbits w ≠ some i) ∧ ∀ r, ringRow i = some r → runEntry r.1 = r.2

theorem no_entry {i : Instr} (h : ringRow i = none) : Statement i :=
  ⟨fun _ _ => by simp [decodeTableWord], fun _ e => by simp [h] at e⟩

theorem of_entry {i : Instr} {r : (Nat → Word) × (Part → Part × Status)} (h : ringRow i = some r)
    (e : runEntry r.1 = r.2) : Statement i :=
  ⟨fun _ _ => by simp [decodeTableWord], fun _ g => by rw [h] at g; cases g; exact e⟩

/-- The two halves of a 32-bit argument join to it again (section 12.4). -/
theorem join_halves (x : BitVec 32) : join32 (lowWord x) (highWord x) = x := by
  apply BitVec.eq_of_getLsbD_eq
  intro i h
  change (highWord x ++ lowWord x).getLsbD i = _
  rw [BitVec.getLsbD_append]
  split
  · simp [lowWord, *]
  · rw [highWord, BitVec.getLsbD_extractLsb', show 16 + (i - 16) = i by omega]
    simp [show i - 16 < 16 by omega]

theorem powerOn : Statement .powerOn := no_entry rfl

theorem resetLinePulse : Statement .resetLinePulse := no_entry rfl

theorem configLoadEnd (dt : Nat) (image : List Byte) : Statement (.configLoadEnd dt image) := no_entry rfl

theorem stationPulse (dt : Nat) : Statement (.stationPulse dt) := no_entry rfl

theorem flywheelExpiry (dt : Nat) : Statement (.flywheelExpiry dt) := no_entry rfl

theorem acceptanceWindowEnd (dt : Nat) : Statement (.acceptanceWindowEnd dt) := no_entry rfl

theorem slewingPulseGap (dt : Nat) : Statement (.slewingPulseGap dt) := no_entry rfl

theorem setTrim (trim : Word) : Statement (.setTrim trim) := of_entry rfl rfl

theorem tachPulse (dt : Nat) (head : HeadId) (forward : Bool) : Statement (.tachPulse dt head forward) := no_entry rfl

theorem tachGapExpiry (dt : Nat) (head : HeadId) : Statement (.tachGapExpiry dt head) := no_entry rfl

theorem settleExpiry (dt : Nat) (head : HeadId) : Statement (.settleExpiry dt head) := no_entry rfl

theorem speedTimeout (dt : Nat) (head : HeadId) : Statement (.speedTimeout dt head) := no_entry rfl

theorem slowStart (head : HeadId) : Statement (.slowStart head) := no_entry rfl

theorem cueMarkPulse (dt : Nat) (head : HeadId) : Statement (.cueMarkPulse dt head) := no_entry rfl

theorem clear : Statement .clear := of_entry rfl rfl

theorem ackAlarms (source : Word) : Statement (.ackAlarms source) := of_entry rfl rfl

theorem resetFlags : Statement .resetFlags := of_entry rfl rfl

theorem setAnalogLimits (channel low high debounce : Word) :
    Statement (.setAnalogLimits channel low high debounce) := of_entry rfl rfl

theorem setPanelMode (mode dwell : Word) : Statement (.setPanelMode mode dwell) := of_entry rfl rfl

theorem configureHead (head : Word) (words : HeadWords) : Statement (.configureHead head words) := of_entry rfl rfl

theorem assignHead (head island port : Word) : Statement (.assignHead head island port) := of_entry rfl rfl

theorem setPosition (head : Word) (frame : BitVec 32) :
    Statement (.setPosition head frame) := of_entry rfl (by simp [runEntry, entryWords, join_halves])

theorem cueUp (head form : Word) (arg : BitVec 32) :
    Statement (.cueUp head form arg) := of_entry rfl (by simp [runEntry, entryWords, join_halves])

theorem start (head : Word) : Statement (.start head) := of_entry rfl rfl

theorem stop (head : Word) : Statement (.stop head) := of_entry rfl rfl

theorem lamp (head on : Word) : Statement (.lamp head on) := of_entry rfl rfl

theorem clearFault (head : Word) : Statement (.clearFault head) := of_entry rfl rfl

theorem loadCue (head id kind : Word) (frame : BitVec 32) (window correct : Word) :
    Statement (.loadCue head id kind frame window correct) := of_entry rfl (by simp [runEntry, entryWords, join_halves])

theorem deleteCue (head id : Word) : Statement (.deleteCue head id) := of_entry rfl rfl

theorem clearCues (head : Word) : Statement (.clearCues head) := of_entry rfl rfl

theorem configureIsland (island address standbyPort lead tolerance policy grace : Word) :
    Statement (.configureIsland island address standbyPort lead tolerance policy grace) := of_entry rfl rfl

theorem take (island tag incoming mode : Word) (field : Stamp) (outCue inCue tolerance preroll : Word) :
    Statement (.take island tag incoming mode field outCue inCue tolerance preroll) :=
  of_entry rfl (by simp [runEntry, entryWords, join_halves])

theorem cancelTake (island tag : Word) : Statement (.cancelTake island tag) := of_entry rfl rfl

theorem abortTake (island : Word) : Statement (.abortTake island) := of_entry rfl rfl

theorem standby (island : Word) : Statement (.standby island) := of_entry rfl rfl

theorem startFieldReached (island : IslandId) : Statement (.startFieldReached island) := no_entry rfl

theorem commitFieldReached (island : IslandId) : Statement (.commitFieldReached island) := no_entry rfl

theorem endGuardReached (island : IslandId) : Statement (.endGuardReached island) := no_entry rfl

theorem moveDeadline (island : IslandId) : Statement (.moveDeadline island) := no_entry rfl

theorem pollCountdownExpiry (island : IslandId) : Statement (.pollCountdownExpiry island) := no_entry rfl

theorem sendComplete (dt : Nat) : Statement (.sendComplete dt) := no_entry rfl

theorem replyMessage (dt : Nat) (chars : List LinkChar) : Statement (.replyMessage dt chars) := no_entry rfl

theorem replyTimeout (dt : Nat) : Statement (.replyTimeout dt) := no_entry rfl

theorem gapEnd (dt : Nat) : Statement (.gapEnd dt) := no_entry rfl

theorem scanStart (dt : Nat) : Statement (.scanStart dt) := no_entry rfl

theorem conversionComplete (dt : Nat) (reading : BitVec 10) :
    Statement (.conversionComplete dt reading) := no_entry rfl

theorem dwellEnd (dt : Nat) (keys : BitVec 4) : Statement (.dwellEnd dt keys) := no_entry rfl

theorem processorCycle (dt : Nat) (phase : CyclePhase) : Statement (.processorCycle dt phase) := no_entry rfl

theorem commandProducerWrite (dt : Nat) (data : Word) (low high ack : Bool) :
    Statement (.commandProducerWrite dt data low high ack) := no_entry rfl

theorem eventConsumerWrite (dt : Nat) (data : Word) (low high ack : Bool) :
    Statement (.eventConsumerWrite dt data low high ack) := no_entry rfl

theorem withheldWrite (dt : Nat) (addr : Addr) (data : Word) (low high : Bool) :
    Statement (.withheldWrite dt addr data low high) := no_entry rfl

theorem liveRead (dt : Nat) (addr : Addr) (low high : Bool) : Statement (.liveRead dt addr low high) := no_entry rfl

theorem agentWordEnd (dt : Nat) (reply : MemReply) : Statement (.agentWordEnd dt reply) := no_entry rfl

theorem agentWordTimeout (dt : Nat) : Statement (.agentWordTimeout dt) := no_entry rfl

theorem starveExpiry (dt : Nat) : Statement (.starveExpiry dt) := no_entry rfl

end Encoded
end Sys2Proof.Laws
end

