-- ==== Sys2Proof/Laws/Schedule.lean ====
section
/-! SUPPORT. The frames of the Changeover Scheduler and of the Head Controllers: what a request or a report they take can
change. -/

namespace Sys2Proof.Machine

/-! ### Smaller frames: one island, its move, its alarms -/

theorem taking_committing (i : IslandId) : Block.taking i ⊆ Block.committing i := by
  simp [Block.taking, Block.committing, Block.linking]

theorem island_taking (i : IslandId) (f : Island → Island) (p : Part) :
    ChangesOnly (Block.taking i) p (p.modIsland i f) := (modIsland_frame i f p).mono (by simp [Block.taking])

theorem front_taking (i : IslandId) (f : Take → Take) (p : Part) :
    ChangesOnly (Block.taking i) p (p.modFront i f) := island_taking i _ p

theorem post_taking (i : IslandId) (s : AlarmSource) (e : EventItem) (p : Part) :
    ChangesOnly (Block.taking i) p (post s e p) := (post_frame s e p).mono (by simp [Block.taking])

theorem refreshStart_frame (i : IslandId) (p : Part) : ChangesOnly (Block.taking i) p (refreshStart i p) := by
  unfold refreshStart
  split
  · exact .refl _ _
  · split
    · dsimp only
      exact .ite ((front_taking i _ p).trans (post_taking i _ _ _)) (front_taking i _ p)
    · exact .ite (front_taking i _ p) (.refl _ _)

theorem refreshTake_frame (i : IslandId) (p : Part) : ChangesOnly (Block.taking i) p (refreshTake i p) := by
  unfold refreshTake
  split
  · exact .refl _ _
  · exact (front_taking i _ p).trans (refreshStart_frame i _)

theorem cutSoon_frame (i : IslandId) (p : Part) : ChangesOnly (Block.taking i) p (cutSoon i p) :=
  (front_taking i _ p).trans (refreshTake_frame i _)

theorem convertNow_frame (i : IslandId) (p : Part) : ChangesOnly (Block.taking i) p (convertNow i p) := by
  unfold convertNow
  split
  · exact .refl _ _
  · split
    · exact .refl _ _
    · dsimp only
      refine .ite (.ite ?_ ?_) (.refl _ _)
      · exact (front_taking i _ p).trans (cutSoon_frame i _)
      · exact (front_taking i _ p).trans (refreshTake_frame i _)

theorem followRunning_frame (i : IslandId) (p : Part) : ChangesOnly (Block.taking i) p (followRunning i p) := by
  unfold followRunning
  split
  · exact .refl _ _
  · split
    · exact .ite (front_taking i _ p) (.refl _ _)
    · exact .refl _ _

theorem becomeReady_frame (i : IslandId) (p : Part) : ChangesOnly (Block.taking i) p (becomeReady i p) := by
  unfold becomeReady
  dsimp only
  refine .trans (front_taking i (fun t => { t with state := .ready }) p) ?_
  generalize p.modFront i (fun t => { t with state := .ready }) = q
  split
  · exact .refl _ _
  · rename_i t _
    have a : ChangesOnly (Block.taking i) q (if t.effective = .now then cutSoon i q else refreshTake i q) :=
      .ite (cutSoon_frame i q) (refreshTake_frame i q)
    generalize (if t.effective = .now then cutSoon i q else refreshTake i q) = r at a ⊢
    split
    · exact a
    · exact a.trans (post_taking i _ _ _)

theorem judgeReady_frame (i : IslandId) (p : Part) : ChangesOnly (Block.taking i) p (judgeReady i p) := by
  unfold judgeReady
  split
  · exact .refl _ _
  · exact .ite (becomeReady_frame i p) (.ite (front_taking i _ p) (.refl _ _))

theorem endFront_frame (i : IslandId) (o : TakeOutcome) (r : Reason) (p : Part) :
    ChangesOnly (Block.taking i) p (endFront i o r p) := by
  unfold endFront
  split
  · exact .refl _ _
  · exact (island_taking i _ p).trans (post_taking i _ _ _)

theorem followEnd_frame (i : IslandId) (p : Part) : ChangesOnly (Block.taking i) p (followEnd i p) := island_taking i _ p

theorem formCut_frame (i : IslandId) (o : Source) (k : Bool) (p : Part) :
    ChangesOnly (Block.taking i) p (formCut i o k p) := front_taking i _ p

theorem commitAsked_frame (a : Stamp) (i : IslandId) (s : Source) (c : Stamp) (o : Owner) (p : Part) :
    ChangesOnly (Block.committing i) p (commitAsked a i s c o p) := by
  have l : Block.linking ⊆ Block.committing i := by intro b m; simp [Block.committing, m]
  unfold commitAsked
  refine .trans ?_ ((submitMove_frame i _ _ _).mono l)
  exact (island_taking i _ p).mono (taking_committing i)

theorem commit_frame (i : IslandId) (s : Source) (c : Stamp) (o : Owner) (p : Part) :
    ChangesOnly (Block.committing i) p (commit i s c o p) := commitAsked_frame _ i s c o p

theorem standbyAtStart_frame (i : IslandId) (p : Part) : ChangesOnly (Block.committing i) p (standbyAtStart i p) :=
  commitAsked_frame 0 i _ _ _ p

theorem standbyNow_frame (i : IslandId) (p : Part) : ChangesOnly (Block.committing i) p (standbyNow i p) :=
  commit_frame i _ _ _ p

theorem commitTake_frame (i : IslandId) (o : TakeOutcome) (l : Option Int) (p : Part) :
    ChangesOnly (Block.committing i) p (commitTake i o l p) := by
  unfold commitTake
  split
  · exact .refl _ _
  · dsimp only
    refine .trans ?_ ((post_taking i _ _ _).mono (taking_committing i))
    refine .trans ?_ ((front_taking i _ _).mono (taking_committing i))
    exact commit_frame i _ _ .take p

theorem retarget_frame (i : IslandId) (p : Part) : ChangesOnly (Block.committing i) p (retarget i p) := by
  unfold retarget
  split
  · exact .refl _ _
  · split
    · exact .refl _ _
    · split
      · exact (front_taking i _ p).mono (taking_committing i)
      · dsimp only
        refine .ite (.ite ?_ (.trans ?_ (commitTake_frame i _ _ _))) ?_ <;>
        · refine .trans ?_ ((refreshTake_frame i _).mono (taking_committing i))
          exact (front_taking i _ p).mono (taking_committing i)

theorem standbyRequest_frame (i : IslandId) (p : Part) : ChangesOnly (Block.committing i) p (standbyRequest i p) := by
  unfold standbyRequest
  dsimp only
  refine .trans (standbyNow_frame i p) ?_
  exact .ite ((endFront_frame i _ _ _).mono (taking_committing i)) (.refl _ _)

theorem onAirFault_frame (i : IslandId) (p : Part) : ChangesOnly (Block.committing i) p (onAirFault i p) := by
  unfold onAirFault
  refine .ite (.refl _ _) ?_
  split
  · dsimp only
    refine .ite ?_ (standbyNow_frame i p)
    refine .trans ?_ (commitTake_frame i _ _ _)
    refine .trans ?_ ((cutSoon_frame i _).mono (taking_committing i))
    exact (front_taking i _ p).mono (taking_committing i)
  · exact standbyNow_frame i p

theorem onAirStop_frame (i : IslandId) (p : Part) : ChangesOnly (Block.committing i) p (onAirStop i p) := by
  unfold onAirStop
  exact .ite (.refl _ _) (standbyNow_frame i p)

theorem examine_frame (i : IslandId) (p : Part) : ChangesOnly (Block.committing i) p (examine i p) := by
  unfold examine
  split
  · dsimp only
    have a : ∀ c : Prop, ∀ [Decidable c], ChangesOnly (Block.committing i) p (if c then onAirFault i p else p) :=
      fun _ => .ite (onAirFault_frame i p) (.refl _ _)
    exact .ite (onAirFault_frame i p) (.ite (a _) ((a _).trans (onAirStop_frame i _)))
  · exact .refl _ _
  · exact .refl _ _

theorem committing_guarding (i : IslandId) : Block.committing i ⊆ Block.guarding i := by
  intro b m; simp [Block.guarding, m]

theorem alarming_guarding (i : IslandId) : Block.alarming ⊆ Block.guarding i := by
  simp [Block.alarming, Block.guarding, Block.posting, Block.committing, Block.linking]

theorem fallBack_frame (i : IslandId) (r : Reason) (p : Part) : ChangesOnly (Block.taking i) p (fallBack i r p) :=
  .ite (endFront_frame i _ _ p) (.refl _ _)

theorem raiseFallBack_frame (i : IslandId) (r : Reason) (p : Part) :
    ChangesOnly (Block.guarding i) p (raiseFallBack i r p) :=
  (raiseAlarm_frame _ _ _ _ p).mono (alarming_guarding i)

theorem standbyFallBack_frame (i : IslandId) (c : Stamp) (r : Reason) (p : Part) :
    ChangesOnly (Block.guarding i) p (fallBack i r (commit i .standby c .island p)) :=
  ((commit_frame i _ _ _ p).trans ((fallBack_frame i r _).mono (taking_committing i))).mono (committing_guarding i)

theorem closeGuard_frame (i : IslandId) (known : Part → Part) (p : Part)
    (a : ∀ q, ChangesOnly (Block.guarding i) q (known q)) : ChangesOnly (Block.guarding i) p (closeGuard i known p) := by
  unfold closeGuard
  dsimp only
  split
  · exact a p
  · exact ((standbyFallBack_frame i _ _ p).trans (a _)).trans (raiseFallBack_frame i _ _)

theorem takeGuard_frame (i : IslandId) (p : Part) : ChangesOnly (Block.guarding i) p (takeGuard i p) :=
  closeGuard_frame i id p fun q => .refl _ q

theorem clearNoSafe_frame (i : IslandId) (p : Part) : ChangesOnly (Block.guarding i) p (clearNoSafe i p) :=
  (clearAlarm_frame _ _ _ _ p).mono (alarming_guarding i)

theorem meetGuardKnown_frame (i : IslandId) (p : Part) : ChangesOnly (Block.guarding i) p (meetGuardKnown i p) :=
  .ite (closeGuard_frame i _ p (clearNoSafe_frame i)) (clearNoSafe_frame i p)

theorem endReached_frame (i : IslandId) (h : HeadId) (p : Part) : ChangesOnly (Block.guarding i) p (endReached i h p) :=
  .ite ((standbyFallBack_frame i _ _ p).trans (raiseFallBack_frame i _ _)) (.refl _ _)

/-! ### The frame of the scheduler and the heads -/

/-- A step of the scheduler: it keeps every other block, and steers the heads. -/
structure Scheduled (p q : Part) : Prop where
  frame : ChangesOnly Block.scheduling p q
  heads : HeadsSteered p q

theorem Head.steered_refl (x : Head) : x.steered x := .inl rfl

theorem Head.steered_trans {x y z : Head} (a : x.steered y) (b : y.steered z) : x.steered z := by
  obtain rfl | ⟨r, d, e⟩ := a
  · exact b
  · obtain rfl | ⟨r', _, _⟩ := b
    · exact .inr ⟨r, d, e⟩
    · rw [d] at r'; cases r'

theorem Scheduled.refl (p : Part) : Scheduled p p := ⟨.refl _ p, fun _ => .inl rfl⟩

theorem Scheduled.trans {p q r : Part} (a : Scheduled p q) (b : Scheduled q r) : Scheduled p r :=
  ⟨a.frame.trans b.frame, fun h => Head.steered_trans (a.heads h) (b.heads h)⟩

theorem Scheduled.ite {p q r : Part} {c : Prop} [Decidable c] (x : Scheduled p q) (y : Scheduled p r) :
    Scheduled p (if c then q else r) := by
  split <;> assumption

/-- A frame within the scheduler's that names no head. -/
structure Steady (t : List Block) : Prop where
  sub : t ⊆ Block.scheduling
  heads : ∀ h, .head h ∉ t

theorem ChangesOnly.steady {t : List Block} {p q : Part} (a : ChangesOnly t p q) (s : Steady t) : Scheduled p q :=
  ⟨a.mono s.sub, fun h => .inl (a (.head h) (s.heads h)).symm⟩

theorem alarming_scheduling : Block.alarming ⊆ Block.scheduling := List.subset_append_right _ _

theorem driving_scheduling (h : HeadId) : Block.driving h ⊆ Block.scheduling := by
  cases h <;> simp [Block.driving, Block.scheduling, Block.alarming, Block.posting]

theorem guarding_scheduling (i : IslandId) : Block.guarding i ⊆ Block.scheduling := by
  cases i <;> simp [Block.guarding, Block.committing, Block.linking, Block.scheduling, Block.alarming, Block.posting]

theorem committing_scheduling (i : IslandId) : Block.committing i ⊆ Block.scheduling :=
  fun _ m => guarding_scheduling i (committing_guarding i m)

theorem taking_scheduling (i : IslandId) : Block.taking i ⊆ Block.scheduling :=
  fun _ m => committing_scheduling i (taking_committing i m)

theorem linking_scheduling : Block.linking ⊆ Block.scheduling := by
  simp [Block.linking, Block.scheduling, Block.alarming, Block.posting]

theorem alarming_steady : Steady Block.alarming := ⟨alarming_scheduling, by simp [Block.alarming, Block.posting]⟩

theorem guarding_steady (i : IslandId) : Steady (Block.guarding i) :=
  ⟨guarding_scheduling i, by simp [Block.guarding, Block.committing, Block.linking, Block.posting]⟩

theorem committing_steady (i : IslandId) : Steady (Block.committing i) :=
  ⟨committing_scheduling i, by simp [Block.committing, Block.linking, Block.posting]⟩

theorem taking_steady (i : IslandId) : Steady (Block.taking i) :=
  ⟨taking_scheduling i, by simp [Block.taking, Block.posting]⟩

theorem linking_steady : Steady Block.linking := ⟨linking_scheduling, by simp [Block.linking, Block.posting]⟩

theorem post_sched (s : AlarmSource) (e : EventItem) (p : Part) : Scheduled p (post s e p) :=
  (post_alarming s e p).steady alarming_steady

theorem raiseAlarm_sched (s : AlarmSource) (k : AlarmKind) (a b : Word) (p : Part) :
    Scheduled p (raiseAlarm s k a b p) := (raiseAlarm_frame s k a b p).steady alarming_steady

theorem clearAlarm_sched (s : AlarmSource) (k : AlarmKind) (a b : Word) (p : Part) :
    Scheduled p (clearAlarm s k a b p) := (clearAlarm_frame s k a b p).steady alarming_steady

theorem modIsland_sched (i : IslandId) (f : Island → Island) (p : Part) : Scheduled p (p.modIsland i f) :=
  (island_taking i f p).steady (taking_steady i)

theorem modFront_sched (i : IslandId) (f : Take → Take) (p : Part) : Scheduled p (p.modFront i f) := modIsland_sched i _ p

theorem refreshTake_sched (i : IslandId) (p : Part) : Scheduled p (refreshTake i p) :=
  (refreshTake_frame i p).steady (taking_steady i)

theorem setIslands_sched (x : Two Island) (p : Part) : Scheduled p { p with islands := x } :=
  ChangesOnly.steady (t := [.island .i1, .island .i2]) (fun b n => by
    cases b with
    | island j => cases j <;> simp at n
    | _ => first | rfl | exact ⟨rfl, rfl, rfl, rfl⟩ | exact ⟨rfl, rfl, rfl⟩ | exact ⟨rfl, rfl⟩)
    ⟨by simp [Block.scheduling], by simp⟩

theorem mapPreds_sched (h : HeadId) (f : PredKind → Pred → Pred) (p : Part) : Scheduled p (mapPreds h f p) :=
  setIslands_sched _ p

theorem startDrive_sched (h : HeadId) (c : Cause) (p : Part) (r : (p.head h).drive.atRest = true) :
    Scheduled p (startDrive h c p) := by
  refine ⟨(startDrive_frame h c p).mono (driving_scheduling h), fun k => ?_⟩
  by_cases e : k = h
  · subst e
    right
    rw [startDrive_head k c p r]
    exact ⟨r, rfl, rfl⟩
  · left
    exact ((startDrive_frame h c p) (.head k) (by simp [Block.driving, Block.alarming, Block.posting, e])).symm

theorem startRequest_sched (h : HeadId) (p : Part) : Scheduled p (startRequest h p) := by
  unfold startRequest
  dsimp only
  split
  swap
  · exact .refl _
  refine .trans (startDrive_sched h .scheduler p ‹_›) ?_
  generalize startDrive h .scheduler p = q
  exact ((mapPreds_sched h _ q).trans (refreshTake_sched _ _)).trans (refreshTake_sched _ _)

theorem sendStart_sched (i : IslandId) (p : Part) : Scheduled p (sendStart i p) := by
  unfold sendStart
  split
  · exact .refl _
  · split
    · exact .ite (startRequest_sched _ p) (.refl _)
    · exact .refl _

theorem evalTake_sched (i : IslandId) (p : Part) : Scheduled p (evalTake i p) := by
  unfold evalTake
  refine .trans ((convertNow_frame i p).steady (taking_steady i)) ?_
  refine .trans (sendStart_sched i _) ?_
  refine .trans ((followRunning_frame i _).steady (taking_steady i)) ?_
  refine .trans ((judgeReady_frame i _).steady (taking_steady i)) ?_
  exact (retarget_frame i _).steady (committing_steady i)

theorem enterHeld_sched (i : IslandId) (p : Part) : Scheduled p (enterHeld i p) := by
  unfold enterHeld
  split
  · exact .refl _
  · rename_i t _
    dsimp only
    have a := modFront_sched i (fun t => { t with state := .held, heldCut := t.fCut, cut := none, commitAt := none }) p
    refine a.trans ?_
    generalize p.modFront i (fun t => { t with state := .held, heldCut := t.fCut, cut := none, commitAt := none }) = q
    split
    · refine .trans (q := if t.preroll = .auto then startRequest _ q else q) ?_ (evalTake_sched i _)
      exact .ite (startRequest_sched _ _) (.refl _)
    · exact evalTake_sched i _

theorem takeCommitField_sched (i : IslandId) (p : Part) : Scheduled p (takeCommitField i p) := by
  unfold takeCommitField
  split
  · exact .refl _
  · rename_i t _
    dsimp only
    have a : Scheduled p (if t.commitAt = some p.ref.count then p else
        judgeReady i (refreshTake i (p.modFront i fun t =>
          { t with cut := none, fCut := some (p.leadField i),
                   slip := if t.state = .held then t.slipTo (p.leadField i) else t.slip }))) :=
      .ite (.refl _) (((modFront_sched i _ p).trans (refreshTake_sched i _)).trans
        ((judgeReady_frame i _).steady (taking_steady i)))
    split
    · exact a
    · split
      · exact a.trans ((commitTake_frame i _ _ _).steady (committing_steady i))
      · exact a.trans (enterHeld_sched i _)

theorem takeStartField_sched (i : IslandId) (p : Part) : Scheduled p (takeStartField i p) := by
  unfold takeStartField
  split
  · refine .trans ?_ (evalTake_sched i _)
    refine .trans ?_ (startRequest_sched _ _)
    exact modFront_sched i _ p
  · exact .refl _

theorem meetStart_sched (i : IslandId) (p : Part) : Scheduled p (meetStart i p) := by
  unfold meetStart
  exact .ite (takeStartField_sched i p) (.refl _)

theorem meetCommit_sched (i : IslandId) (p : Part) : Scheduled p (meetCommit i p) := by
  unfold meetCommit
  exact .ite (takeCommitField_sched i p) (.refl _)

theorem meetGuard_sched (i : IslandId) (p : Part) : Scheduled p (meetGuard i p) := by
  unfold meetGuard
  exact .ite ((takeGuard_frame i p).steady (guarding_steady i)) (.refl _)

theorem meetGuardKnown_sched (i : IslandId) (p : Part) : Scheduled p (meetGuardKnown i p) :=
  (meetGuardKnown_frame i p).steady (guarding_steady i)

theorem meetGuards_sched (p : Part) : Scheduled p (meetGuards p) := (meetGuard_sched .i1 p).trans (meetGuard_sched .i2 _)

theorem workTake_sched (i : IslandId) (p : Part) : Scheduled p (workTake i p) :=
  ((evalTake_sched i p).trans (meetStart_sched i _)).trans (meetCommit_sched i _)

theorem settleTakes_sched (p : Part) : Scheduled p (settleTakes p) :=
  (((refreshTake_sched .i1 p).trans (workTake_sched .i1 _)).trans (refreshTake_sched .i2 _)).trans (workTake_sched .i2 _)

theorem settle_sched (p : Part) : Scheduled p (settle p) := (settleTakes_sched p).trans (meetGuards_sched _)

theorem enterTake_sched (i : IslandId) (o : Source) (p : Part) : Scheduled p (enterTake i o p) := by
  unfold enterTake
  dsimp only
  refine .trans ((formCut_frame i o false p).steady (taking_steady i)) ?_
  generalize formCut i o false p = q
  have a : ∀ f, Scheduled q (convertNow i (refreshTake i (q.modFront i f))) := fun f =>
    ((modFront_sched i f q).trans (refreshTake_sched i _)).trans ((convertNow_frame i _).steady (taking_steady i))
  split
  · exact a _
  · refine .trans ?_ (workTake_sched i _)
    refine .trans ?_ (post_sched _ _ _)
    exact a _

theorem endFront_sched (i : IslandId) (o : TakeOutcome) (r : Reason) (p : Part) : Scheduled p (endFront i o r p) :=
  (endFront_frame i o r p).steady (taking_steady i)

theorem activate_sched (n : Nat) (i : IslandId) (p : Part) : Scheduled p (activate n i p) := by
  induction n generalizing p with
  | zero => exact .refl _
  | succ n ih =>
    unfold activate
    split
    · exact .refl _
    · dsimp only
      refine .ite (.refl _) (.ite ?_ (.ite ?_ (enterTake_sched i _ p)))
      all_goals
        refine .trans ?_ (ih _)
        refine .trans ?_ (endFront_sched i _ _ _)
        exact modFront_sched i _ p

theorem activateFront_sched (i : IslandId) (p : Part) : Scheduled p (activateFront i p) := activate_sched _ i p

theorem endActive_sched (i : IslandId) (o : TakeOutcome) (r : Reason) (p : Part) : Scheduled p (endActive i o r p) :=
  (endFront_sched i o r p).trans (activateFront_sched i _)

theorem reform_sched (i : IslandId) (p : Part) : Scheduled p (reform i p) := by
  unfold reform
  split
  · exact .refl _
  · dsimp only
    refine .ite (.refl _) (.ite ?_ ?_)
    · refine .trans ?_ (endActive_sched i _ _ _)
      exact modFront_sched i _ p
    · have a := (formCut_frame i (p.island i).onAir true p).steady (taking_steady i)
      refine .trans ?_ (workTake_sched i _)
      exact .ite (a.trans ((cutSoon_frame i _).steady (taking_steady i))) (a.trans (refreshTake_sched i _))

theorem reformOrActivate_sched (i : IslandId) (p : Part) : Scheduled p (reformOrActivate i p) := by
  unfold reformOrActivate
  exact .ite (reform_sched i p) (activateFront_sched i p)

theorem tellMonitors_frame (o n : Source) (p : Part) : ChangesOnly Block.alarming p (tellMonitors o n p) := by
  unfold tellMonitors
  dsimp only
  have a : ChangesOnly Block.alarming p (match o with
      | .head h => if p.onAir h then p else clearAlarm (.head h) .lockLoss 0 0 p
      | .standby => p
      | .unknown => p) := by
    cases o with
    | head h => exact .ite (.refl _ _) (clearAlarm_frame _ _ _ _ p)
    | standby => exact .refl _ _
    | unknown => exact .refl _ _
  cases n with
  | head h => exact .ite (a.trans (raiseAlarm_frame _ _ _ _ _)) a
  | standby => exact a
  | unknown => exact a

theorem setOnAir_frame (i : IslandId) (n : Source) (c : OnAirCause) (q : Option Port) (f : Option Stamp) (p : Part) :
    ChangesOnly (Block.guarding i) p (setOnAir i n c q f p) := by
  have t : Block.taking i ⊆ Block.guarding i := fun _ m => committing_guarding i (taking_committing i m)
  unfold setOnAir
  dsimp only
  refine .trans ?_ ((followEnd_frame i _).mono t)
  refine .ite ?_ (.trans ?_ ((tellMonitors_frame _ _ _).mono (alarming_guarding i))) <;>
  · refine .trans ?_ ((post_taking i _ _ _).mono t)
    exact (island_taking i _ p).mono t

theorem setOnAir_sched (i : IslandId) (n : Source) (c : OnAirCause) (q : Option Port) (f : Option Stamp) (p : Part) :
    Scheduled p (setOnAir i n c q f p) := (setOnAir_frame i n c q f p).steady (guarding_steady i)

theorem endConfirmation_sched (i : IslandId) (p : Part) : Scheduled p (endConfirmation i p) :=
  (modIsland_sched i _ p).trans ((endFast_frame i _).steady linking_steady)

theorem confirmMove_sched (i : IslandId) (c : Confirmation) (p : Part) : Scheduled p (confirmMove i c p) := by
  unfold confirmMove
  dsimp only
  refine .trans ?_ (meetGuardKnown_sched i _)
  refine .trans ?_ (meetCommit_sched i _)
  refine .trans ?_ (reformOrActivate_sched i _)
  refine .trans ?_ ((examine_frame i _).steady (committing_steady i))
  have a : ∀ f, Scheduled p (setOnAir i c.target .confirmed (some c.port) (some c.cut)
      (endConfirmation i (p.modIsland i f))) := fun f =>
    ((modIsland_sched i f p).trans (endConfirmation_sched i _)).trans (setOnAir_sched i _ _ _ _ _)
  split
  · exact (a _).trans (endFront_sched i _ _ _)
  · exact a _

theorem failMove_sched (i : IslandId) (c : Confirmation) (p : Part) : Scheduled p (failMove i c p) := by
  unfold failMove
  dsimp only
  have a : ∀ f, Scheduled p (setOnAir i .unknown .failed none none (endConfirmation i (p.modIsland i f))) := fun f =>
    ((modIsland_sched i f p).trans (endConfirmation_sched i _)).trans (setOnAir_sched i _ _ _ _ _)
  refine .ite (.trans ?_ (raiseAlarm_sched _ _ _ _ _)) ?_ <;>
  · refine .trans ?_ (raiseAlarm_sched _ _ _ _ _)
    refine .trans ?_ (meetCommit_sched i _)
    refine .trans ?_ (reformOrActivate_sched i _)
    split
    · exact (a _).trans (endFront_sched i _ _ _)
    · exact a _

theorem takeDeadline_sched (i : IslandId) (p : Part) : Scheduled p (takeDeadline i p) := by
  unfold takeDeadline
  split
  · exact failMove_sched i _ p
  · exact .refl _

theorem reportSource_sched (i : IslandId) (n : Source) (q : Option Port) (p : Part) :
    Scheduled p (reportSource i n q p) := by
  unfold reportSource
  dsimp only
  have a := ((setOnAir_sched i n .report q none p).trans (reform_sched i _)).trans
    ((examine_frame i _).steady (committing_steady i))
  exact .ite (.refl _) (.ite (a.trans (meetGuard_sched i _)) (a.trans (meetGuardKnown_sched i _)))

theorem stationReport_sched (i : IslandId) (q : Port) (m : Bool) (p : Part) : Scheduled p (stationReport i q m p) := by
  unfold stationReport
  refine .ite (.trans ?_ (reportSource_sched i _ _ _)) (.ite (.refl _) (.trans ?_ (reportSource_sched i _ _ _))) <;>
    exact modIsland_sched i _ p

theorem deliverStatus_sched (i : IslandId) (q : Port) (m : Bool) (p : Part) : Scheduled p (deliverStatus i q m p) := by
  unfold deliverStatus
  split
  · exact .ite (confirmMove_sched i _ p) (.refl _)
  · exact stationReport_sched i q m p

theorem deliverRefusal_sched (i : IslandId) (q : Port) (p : Part) : Scheduled p (deliverRefusal i q p) := by
  unfold deliverRefusal
  split
  · exact .ite (failMove_sched i _ p) (.refl _)
  · exact .refl _

theorem incomingFailed_sched (i : IslandId) (h : HeadId) (r : Reason) (p : Part) :
    Scheduled p (incomingFailed i h r p) := by
  unfold incomingFailed
  split
  · exact .refl _
  · exact .ite (endActive_sched i _ _ p) (.refl _)

theorem followEnds_sched (p : Part) : Scheduled p (followEnds p) :=
  ((followEnd_frame .i1 p).steady (taking_steady .i1)).trans ((followEnd_frame .i2 _).steady (taking_steady .i2))

theorem tellFault_sched (h : HeadId) (p : Part) : Scheduled p (tellFault h p) := by
  unfold tellFault
  dsimp only
  have a := (mapPreds_sched h Pred.atLeave p).trans (settleTakes_sched _)
  generalize settleTakes (mapPreds h Pred.atLeave p) = q at a ⊢
  have one : ∀ (i : IslandId) (r : Part), Scheduled r
      (incomingFailed i h .incomingFault (if (r.island i).onAir = .head h then onAirFault i r else r)) := fun i r =>
    .trans (.ite ((onAirFault_frame i r).steady (committing_steady i)) (.refl _)) (incomingFailed_sched i h _ _)
  exact ((a.trans (one .i1 q)).trans (one .i2 _)).trans (meetGuards_sched _)

theorem tellStop_sched (h : HeadId) (p : Part) : Scheduled p (tellStop h p) := by
  unfold tellStop
  dsimp only
  have a := (mapPreds_sched h Pred.atLeave p).trans (settleTakes_sched _)
  generalize settleTakes (mapPreds h Pred.atLeave p) = q at a ⊢
  have one : ∀ (i : IslandId) (r : Part), Scheduled r
      (incomingFailed i h .incomingStopped (if (r.island i).onAir = .head h then onAirStop i r else r)) := fun i r =>
    .trans (.ite ((onAirStop_frame i r).steady (committing_steady i)) (.refl _)) (incomingFailed_sched i h _ _)
  exact (a.trans (one .i1 q)).trans (one .i2 _)

theorem tellStart_sched (h : HeadId) (p : Part) : Scheduled p (tellStart h p) :=
  (mapPreds_sched h _ p).trans (settle_sched _)

theorem tellJump_sched (h : HeadId) (f : Bool) (p : Part) : Scheduled p (tellJump h f p) :=
  ((mapPreds_sched h _ p).trans (followEnds_sched _)).trans (settleTakes_sched _)

theorem tellBoundary_sched (h : HeadId) (u : Bool) (p : Part) : Scheduled p (tellBoundary h u p) :=
  (mapPreds_sched h _ p).trans (settleTakes_sched _)

theorem tellReverse_sched (h : HeadId) (p : Part) : Scheduled p (tellReverse h p) :=
  ((mapPreds_sched h _ p).trans (followEnds_sched _)).trans (settle_sched _)

end Sys2Proof.Machine
end

