-- ==== Sys2Proof/Laws/Time.lean ====
section
/-! SUPPORT. What the passing of ticks changes, when an event acts, and what joins the Memory Agent's queue. -/

namespace Sys2Proof.Machine

/-! ### Ticks (R1) -/

@[simp] theorem elapse_now (n : Nat) (p : Part) : (elapse n p).time.now = p.time.now + n := by
  unfold elapse; split <;> simp_all

/-- The passing of ticks changes the timebase alone. -/
theorem elapse_eq (n : Nat) (p : Part) : elapse n p = { p with time := (elapse n p).time } := by
  unfold elapse; split <;> rfl

@[simp] theorem elapse_mode (n : Nat) (p : Part) : (elapse n p).mode = p.mode := by rw [elapse_eq]
@[simp] theorem elapse_ref (n : Nat) (p : Part) : (elapse n p).ref = p.ref := by rw [elapse_eq]
@[simp] theorem elapse_heads (n : Nat) (p : Part) : (elapse n p).heads = p.heads := by rw [elapse_eq]
@[simp] theorem elapse_analog (n : Nat) (p : Part) : (elapse n p).analog = p.analog := by rw [elapse_eq]
@[simp] theorem elapse_islands (n : Nat) (p : Part) : (elapse n p).islands = p.islands := by rw [elapse_eq]
@[simp] theorem elapse_link (n : Nat) (p : Part) : (elapse n p).link = p.link := by rw [elapse_eq]
@[simp] theorem elapse_alarms (n : Nat) (p : Part) : (elapse n p).alarms = p.alarms := by rw [elapse_eq]
@[simp] theorem elapse_panel (n : Nat) (p : Part) : (elapse n p).panel = p.panel := by rw [elapse_eq]
@[simp] theorem elapse_bus (n : Nat) (p : Part) : (elapse n p).bus = p.bus := by rw [elapse_eq]
@[simp] theorem elapse_agent (n : Nat) (p : Part) : (elapse n p).agent = p.agent := by rw [elapse_eq]
@[simp] theorem elapse_cmd (n : Nat) (p : Part) : (elapse n p).cmd = p.cmd := by rw [elapse_eq]
@[simp] theorem elapse_evt (n : Nat) (p : Part) : (elapse n p).evt = p.evt := by rw [elapse_eq]
@[simp] theorem elapse_init (n : Nat) (p : Part) : (elapse n p).init = p.init := by rw [elapse_eq]
@[simp] theorem elapse_defaults (n : Nat) (p : Part) : (elapse n p).defaults = p.defaults := by rw [elapse_eq]

@[simp] theorem elapse_running (n : Nat) (p : Part) : (elapse n p).running = p.running := by simp [Part.running]

theorem elapse_frame (n : Nat) (p : Part) : ChangesOnly [.time] p (elapse n p) := by
  rw [elapse_eq]
  intro b hb
  cases b <;> simp at hb <;> simp [Block.same]

/-! ### Events and commands of a part that runs -/

theorem timed_due {dt : Nat} {due : Part → Bool} {f : Part → Part} {p : Part} (r : p.mode = .running)
    (d : due (elapse dt p) = true) : timed dt due f p = f (elapse dt p) := by
  simp [timed, d, Part.running, r]

theorem timed_not {dt : Nat} {due : Part → Bool} {f : Part → Part} {p : Part} (d : due (elapse dt p) = false) :
    timed dt due f p = elapse dt p := by
  simp [timed, d]

theorem event_eq {dt : Nat} {f : Part → Part} {p : Part} (r : p.mode = .running) : event dt f p = f (elapse dt p) :=
  timed_due r rfl

theorem onField_due {due : Part → Bool} {f : Part → Part} {p : Part} (r : p.mode = .running) (d : due p = true) :
    onField due f p = f p := by
  simp [onField, d, Part.running, r]

theorem commanded_eq {f : Part → Part × Status} {p : Part} (r : p.mode = .running) :
    commanded f p = { (f p).1 with cmd := { (f p).1.cmd with status := some (f p).2 } } := by
  simp [commanded, Part.running, r]

theorem status_frame (st : Option Status) (p : Part) :
    ChangesOnly [.status] p { p with cmd := { p.cmd with status := st } } := by
  intro b hb
  cases b <;> simp at hb <;> simp [Block.same]

/-! ### The panel's rows -/

theorem beginRow_frame (r : Fin 8) (t : Nat) (p : Part) : ChangesOnly [.panel] p (beginRow r t p) := by
  intro b hb
  unfold beginRow
  cases b <;> simp at hb <;> (dsimp only; (repeat' split) <;> simp [Block.same])

/-! ### The agent's queue (R170, R171) -/

@[simp] theorem arbitrate_jobs (p : Part) : (arbitrate p).agent.jobs = p.agent.jobs := by
  unfold arbitrate; split <;> (try split) <;> rfl

@[simp] theorem arbitrate_limit (p : Part) : (arbitrate p).agent.limit = p.agent.limit := by
  unfold arbitrate; split <;> (try split) <;> rfl

@[simp] theorem submit_jobs (j : Job) (p : Part) : (submit j p).agent.jobs = p.agent.jobs ++ [j] := by
  unfold submit
  split
  · simp_all
  · rfl

@[simp] theorem submit_limit (j : Job) (p : Part) : (submit j p).agent.limit = p.agent.limit := by
  unfold submit
  split
  · simp
  · rfl

end Sys2Proof.Machine
end

