-- ==== Sys2Proof/Tests/Slice0.lean ====
section
/-! SUPPORT. Tests: the well-formedness checks, one-step tests whose expected results are worked by hand from the spec,
and for each statement with hypotheses a `witness_` theorem: states and operands that meet them, clause by clause, at
the boundaries of their ranges. -/

namespace Sys2Proof.Tests

open Sys2Proof Sys2Proof.Machine

/-! ### Small states -/

/-- A running part with its rings initialised. -/
def run : Part := { Part.reset with mode := .running, init := .done }

/-- A state with no command waiting. -/
def st (p : Part) : State := ⟨p, []⟩

/-- The same with an event in hand, so that the events of a step stay in the queue. -/
def heard : Part := { run with evt := { run.evt with writing := true } }

/-- A running part with head 1 changed. -/
def one (f : Head → Head) : Part := heard.modHead .h1 f

/-- A running part with island 1 changed. -/
def isle (f : Island → Island) : Part := heard.modIsland .i1 f

/-- A running part with another field reference. -/
def refd (f : RefUnit → RefUnit) : Part := { heard with ref := f run.ref }

/-- A running part with another link. -/
def linked (f : LinkUnit → LinkUnit) : Part := { heard with link := f run.link }

/-- The part after one command on `p`. -/
def after (c : Instr) (p : Part) : Part :=
  match exec c (st p) with
  | .next t => t.part
  | .fault _ => p
  | .refused _ => p

/-- The status a command leaves in hand. -/
def status (c : Instr) (p : Part) : Option Status := (after c p).cmd.status

/-- A cue of head 1. -/
def cue (id : Nat) (frame : Int) (k : CueKind) : Cue :=
  { id := id, frame := frame, kind := k, window := some 5, correct := false, passed := false, confirm := .none }

/-- A take of STANDBY, cut now, in a state. -/
def takeIn (s : TakeState) : Take := { Take.new 7 .standby .now 0 none none none .auto with state := s }

/-- A take of head 1 in a state. -/
def headTake (s : TakeState) : Take := { takeIn s with incoming := .head .h1, effective := .atField }

/-- A move to the standby port of island 1 that awaits confirmation until field 10. -/
def toStandby : Confirmation := { target := .standby, port := .p4, cut := 6, deadline := 10, owner := .island }

/-- Head 1 in a running state with one perf to its next frame. -/
def runner : Head → Head := fun x =>
  { x with drive := .runup, pos := ⟨5, 3⟩, gapFrom := some 0, cadence := { x.cadence with measuring := true } }

/-- The same, one conforming frame short of its lock count. -/
def locking : Head → Head := fun x =>
  { runner x with cadence := { Cadence.reset with
      measuring := true, boundary := some 0, fields := 2, run := 3, startStamp := some 0, startFrame := some 1 } }

/-- The same after a first lock and an unlock at field 1. -/
def relocking : Head → Head := fun x =>
  { locking x with drive := .unlocked, cadence := { (locking x).cadence with firstLock := true, unlockStamp := some 1 } }

/-- The same, LOCKED, its frame two fields too long. -/
def unlocking : Head → Head := fun x =>
  { runner x with drive := .locked, cadence := { Cadence.reset with
      measuring := true, boundary := some 0, fields := 4, run := 9, firstLock := true } }

/-- The poll of island 1 in flight, sent to station 1, its reply awaited. -/
def polling : LinkUnit → LinkUnit := fun k =>
  { k with line := .awaiting, flight := some { entry := ⟨.i1, .poll⟩, tries := 1, sentTo := 1, orphan := false } }

/-- The MOVE to port 4 of island 1 in flight, its reply awaited. -/
def sentMove : LinkUnit → LinkUnit := fun k =>
  { k with line := .awaiting, flight := some { entry := ⟨.i1, .move .p4 0⟩, tries := 1, sentTo := 1, orphan := false } }

/-- The four characters of a message. -/
def message (a c g k : Byte) : List LinkChar := [⟨a, true, false⟩, ⟨c, false, false⟩, ⟨g, false, false⟩, ⟨k, false, false⟩]

/-- A running part with a window table: rings of 8 and 16 entries and a live window. -/
def windowed : Part :=
  { run with bus := { run.bus with windows :=
      [⟨0x10000, 12, .command, 8⟩, ⟨0x11000, 12, .event, 16⟩, ⟨0x12000, 11, .live, 0⟩] } }

/-! ### The well-formedness checks refuse what the lines cannot carry -/

theorem test_image_too_long : WellFormed (.configLoadEnd 0 (List.replicate 513 0)) = false := by decide +kernel
theorem test_message_too_long :
    WellFormed (.replyMessage 0 (message 0x81 0x83 1 0xFB ++ message 0 0 0 0)) = false := by decide
theorem test_no_strobe_cycle : WellFormed (.processorCycle 0 (.begins ⟨0, true, 0, false, false⟩)) = false := by decide
theorem test_no_strobe_producer : WellFormed (.commandProducerWrite 0 1 false false true) = false := by decide
theorem test_no_strobe_consumer : WellFormed (.eventConsumerWrite 0 1 false false true) = false := by decide
theorem test_no_strobe_withheld : WellFormed (.withheldWrite 0 0 0 false false) = false := by decide
theorem test_no_strobe_live : WellFormed (.liveRead 0 0 false false) = false := by decide

/-! ### Values the spec tabulates or that follow from its rules by hand -/

/-- R87: G35 frame −37 is −2 ft; G16 frame −99,999 is −2,499 ft. -/
theorem test_footage :
    Head.shown .feet { Part.reset.heads.h1 with pos := ⟨-37, 0⟩ } = ⟨true, 2⟩ ∧
    Head.shown .feet { Head.reset { HeadSettings.stored with gauge := .g16 } none with pos := ⟨-99999, 0⟩ } =
      ⟨true, 2499⟩ := by decide

/-- R161: G35 frame 4,940 in FEET shows 308; frame 12,400 in FRAMES shows four dashes. -/
theorem test_display :
    ([3, 2, 1, 0].map (Shown.digit ⟨false, 308⟩)) = [0, 0x4F, 0x3F, 0x7F] ∧
    ([3, 2, 1, 0].map (Shown.digit ⟨false, 12400⟩)) = [0x40, 0x40, 0x40, 0x40] ∧ (⟨true, 0⟩ : Shown).sign = 0x40 := by
  decide

/-- R5: three fields of the 60-field pattern last 50,050 ticks. -/
theorem test_sixty_field_pattern :
    Standard.patternLength .f60 0 + Standard.patternLength .f60 1 + Standard.patternLength .f60 2 = 50050 := by decide

/-- R2: 2,000 is clamped to the trim +1,000. -/
theorem test_trim_clamped : (after (.setTrim 2000) run).ref.trim = 1000 ∧ status (.setTrim 2000) run = some .clamped := by
  decide

/-- R18: four perfs to a 35 mm frame; forward from phase 3, backward from phase 0. -/
theorem test_frame_forward : (after (.tachPulse 5 .h1 true) (one fun x => { x with pos := ⟨5, 3⟩ })).heads.h1.pos = ⟨6, 0⟩ := by
  decide +kernel
theorem test_frame_backward : (after (.tachPulse 5 .h1 false) (one id)).heads.h1.pos = ⟨-1, 3⟩ := by decide

/-- R78, its table: five frames after one of expected length 3 span 12 fields, after one of 2, 13. -/
theorem test_cadence_sum : cadenceSum .f60 3 5 = 12 ∧ cadenceSum .f60 2 5 = 13 := by decide

/-- R116, R190: POLL to station 1 is 01 02 00 FD. -/
theorem test_poll_bytes : requestBytes 1 .poll = [0x01, 0x02, 0x00, 0xFD] := by decide

/-- R190: the report 81 83 42 BA of station 1 says port 2, moving; with a wrong check byte it says nothing. -/
theorem test_report_read :
    readReply 1 .poll (message 0x81 0x83 0x42 0xBA) = some (.status .p2 true false) ∧
    readReply 1 .poll (message 0x81 0x83 0x42 0xBB) = none := by decide

/-- R24, R16: START drives forward in synchronism, with the lamp under AUTO. -/
theorem test_start : (after (.start 1) run).heads.h1.outputs = ⟨true, false, false, true, true⟩ := by decide

/-- R62: 49 frames lie beyond the approach distance of 48, 48 do not. -/
theorem test_cue_up_speed :
    (after (.cueUp 1 0 49) run).heads.h1.drive = .cueFast ∧ (after (.cueUp 1 0 48) run).heads.h1.drive = .cueInch := by
  decide

/-- R154: the third scan in a row that sees the key down presses it, and START 1 is not acted on in REMOTE. -/
theorem test_third_scan :
    ((⟨false, 1⟩ : KeyPos).sample true) = ⟨false, 2⟩ ∧ ((⟨false, 2⟩ : KeyPos).sample true) = ⟨true, 0⟩ ∧
    ((⟨false, 2⟩ : KeyPos).sample false) = ⟨false, 0⟩ := by decide

/-- R101, R111: the standby commit is cut six fields on, with ten fields of grace. -/
theorem test_standby : (after (.standby 1) run).islands.i1.confirm = some { toStandby with deadline := 16 } := by decide

/-- R93: a take with incoming STANDBY and an incoming cue is BAD_ARGUMENT; a tolerance of 9 is clamped. -/
theorem test_take_checks :
    status (.take 1 7 0 2 0 0xFFFF 3 0xFFFF 0) run = some .badArgument ∧
    status (.take 1 7 0 2 0 0xFFFF 0xFFFF 9 0) run = some .clamped := by decide

/-- R53: a cue loaded at the frame the head stands at is PASSED, one above it PENDING. -/
theorem test_cue_pass_state :
    (after (.loadCue 1 3 0 0 5 0) run).heads.h1.cues.map (·.passed) = [true] ∧
    (after (.loadCue 1 3 0 1 5 0) run).heads.h1.cues.map (·.passed) = [false] := by decide

/-- R172: fifteen ticks are within the time of a word, sixteen are not. -/
theorem test_word_timeout :
    let p := { windowed with agent := { windowed.agent with jobs := [writeJob .consumerWrite 0 0], word := .active 0 },
                             bus := { windowed.bus with holder := .agent } }
    (after (.agentWordTimeout 15) p).agent.jobs.length = 1 ∧ 
    (after (.agentWordTimeout 16) p).agent.jobs.map (·.kind) = [.eventWrite] := by decide

/-- R166, R182: a consumer value must lie below the ring size of 16. -/
theorem test_bad_index :
    (after (.eventConsumerWrite 1 15 true true true) windowed).evt.consumer = 15 ∧
    (after (.eventConsumerWrite 1 16 true true true) windowed).evt.consumer = 0 := by decide

/-- R167, R169: a write to the live window is withheld and recorded, and the read after a latched low word gives the
latched high word. -/
theorem test_live_window :
    (after (.withheldWrite 1 0x12000 9 true true) windowed).bus.violation = some ⟨0x12000, .live, .withheld, false⟩ ∧
    (after (.liveRead 1 0x12002 true true) { windowed with bus := { windowed.bus with latch := some ⟨2, 0x1234⟩ } }).bus.answer =
      some 0x1234 := by decide

/-- R143, R147: a momentary alarm of severity WARNING enters CLEARED_NEW and leaves the horn silent. -/
theorem test_momentary :
    (raiseAlarm .device .windowViolation 0 0 run).alarms.entries.map (·.state) = [.clearedNew] ∧
    (raiseAlarm .device .windowViolation 0 0 run).alarms.horn = false ∧
    (raiseAlarm .device .memoryFault 0 0 run).alarms.horn = true := by decide

/-- R115, R120, R190: the standby commit's MOVE to port 4 of station 1 goes out as 01 01 04 FA with the pair driven; its first
character is sent as 0, its eight data bits from the lowest, the address flag 1, and 1. -/
theorem test_request_sent :
    let k := (after (.standby 1) run).link
    k.transmit = true ∧ k.sending = message 0x01 0x01 0x04 0xFA ∧
    (message 0x01 0x01 0x04 0xFA).head?.map LinkChar.bits =
      some [false, true, false, false, false, false, false, false, false, true, true] := by decide

/-- R98, R99, R101: a TAKE of STANDBY cut NOW is READY and reaches its commit field in the same step. -/
theorem test_take_now_commits :
    let x := (after (.take 1 7 0 2 0 0xFFFF 0xFFFF 0xFFFF 0) run).islands.i1
    x.takes.map (·.state) = [.committed] ∧ x.confirm = some { toStandby with deadline := 16, owner := .take } := by decide

/-- R48, R52: CLEAR leaves no first lock and no last run-up. -/
theorem test_clear_cadence :
    let c := (after .clear (one fun x => { x with cadence := { x.cadence with firstLock := true, lastRunup := some ⟨9, 5⟩ } })).heads.h1.cadence
    c.firstLock = false ∧ c.lastRunup = none := by decide +kernel

/-- R171: a cycle that starts as the last one ends takes the port before a ready agent word that is not starved. -/
theorem test_burst_keeps_the_port :
    let c : BusCycle := ⟨0x20000, true, 5, true, true⟩
    let p := { windowed with
      bus := { windowed.bus with holder := .processor c, waiting := some { c with data := 6 } }
      agent := { windowed.agent with jobs := [writeJob .consumerWrite 0 0], word := .ready 0 } }
    (after (.processorCycle 1 (.ends true)) p).bus.holder = .processor { c with data := 6 } ∧
    (after (.processorCycle 1 (.ends true)) { p with agent := { p.agent with starved := true } }).bus.holder = .agent := by
  decide

/-- R81: a leader of 0 is short whatever the run-up distance, and one of the run-up distance is not. -/
theorem test_short_leader :
    let x (r : Nat) : Head := { run.heads.h1 with settings := { run.heads.h1.settings with runupDistance := r } }
    shortLeader (x 0) 0 = true ∧ shortLeader (x 24) 24 = false ∧ shortLeader (x 24) 23 = true := by decide

/-- R51: a boundary 41,667 ticks after the last gives 2,400, and one 10,000 ticks after it the limit. -/
theorem test_speed :
    let c (l : Nat) : Cadence := { Cadence.reset with lastTime := some l }
    speedAt (c 0) 41667 = 2400 ∧ speedAt (c 0) 10000 = 9999 := by decide

/-- R187: the words of a SHORT_LEADER of Island 2: kind 09, source 6, the stamp, tag, incoming 3 and R_h 24, and D = −2. -/
theorem test_short_leader_record :
    (⟨.island .i2, 0x00012345, .shortLeader 0x0102 .h3 24 (-2)⟩ : Event).words =
      [0x0009, 0x0006, 0x2345, 0x0001, 0x0102, 0x1803, 0xFFFE, 0xFFFF] := by decide

/-- R125: a MOVE asked at field 3 whose first transaction begins at field 5 posts MOVE_LATE with 2 fields late. -/
theorem test_move_late :
    let p := linked fun k => { k with line := .gap, queue := [⟨.i1, .move .p4 3⟩] }
    let p := { p with ref := { p.ref with count := 5 }, evt := { p.evt with writing := true } }
    (after (.gapEnd 1146) p).evt.queue = [⟨.island .i1, 5, .moveLate 1 .p4 3 5 2⟩] := by decide +kernel

/-- R22, R67: a correction to the position held clears the latch (log entry 58). -/
theorem test_correction_in_place :
    let p := one fun x => { runner x with pos := ⟨4, 0⟩, cues := [{ cue 1 4 .mark with correct := true }],
                                          settings := { x.settings with sensorOffset := 0 } }
    (after (.cueMarkPulse 0 .h1) p).heads.h1.mark = none ∧ (after (.cueMarkPulse 0 .h1) p).heads.h1.pos = ⟨4, 0⟩ := by
  decide +kernel

/-- R22, R69, R187: a mark frame of −100,001 seen at −99,998 is 3 frames off, and the position stops at the limit; the delta is −1 by
R22 or −3 by R69. Seen 4 frames too high, a mark frame of 5 corrects by −4 by both. -/
theorem test_correction_below_the_range :
    let p := one fun x => { runner x with pos := ⟨-99998, 0⟩, cues := [{ cue 1 (-99997) .mark with correct := true }],
                                          settings := { x.settings with sensorOffset := 4 } }
    (after (.cueMarkPulse 0 .h1) p).heads.h1.pos = ⟨-99999, 0⟩ ∧ correctionDelta 9 5 = -4 ∧
    (correctionDelta (-99998) (-100001) = -1 ∨ correctionDelta (-99998) (-100001) = -3) := by
  refine ⟨by decide +kernel, by decide, ?_⟩
  unfold correctionDelta
  cases Config.deltaFollowsLimit <;> decide

/-- R102: a take confirmed on air ends DONE after ON_AIR, and the take behind it is activated. -/
theorem test_confirmed_take_ends :
    let c : Confirmation := { toStandby with owner := .take }
    let p := (linked polling).modIsland .i1 fun x =>
      { x with confirm := some c, takes := [takeIn .committed, headTake .queued], fEnd := none }
    let q := after (.replyMessage 0 (message 0x81 0x83 0x04 0xF8)) p
    (q.island .i1).onAir = .standby ∧ (q.island .i1).confirm = none ∧
    (q.island .i1).takes.map (fun t => (t.incoming, t.outgoing)) = [(.head .h1, some .standby)] ∧
    q.tellsEnd .i1 (takeIn .committed) .done .none = true := by decide +kernel

/-- R86: a record REACHED without a value is published ABSENT. -/
theorem test_published_absent : (Pred.published ⟨.h1, 9, none, .reached⟩) = .absent := by decide

/-- R120: a reply whose last character comes after the reply timeout of 20 ms is not taken. -/
theorem test_late_reply :
    (after (.replyMessage 20000 (message 0x81 0x83 4 0xF8)) (linked polling)).link.line = .gap ∧
    (after (.replyMessage 20001 (message 0x81 0x83 4 0xF8)) (linked polling)).link.line = .awaiting := by decide +kernel

/-- R21, R148, R181: a perf that moves a PARKED head off the limit posts PARK_LOST, HEAD_STATE and only then the clear of
COUNT_LIMIT. -/
theorem test_park_lost_before_the_alarm :
    let p := raiseAlarm (.head .h1) .countLimit 0 0 { run with evt := { run.evt with writing := true } }
    let q := after (.tachPulse 5 .h1 false) (p.modHead .h1 fun x =>
      { x with drive := .parked, pos := ⟨999999, 3⟩, park := some ⟨999999, ⟨999999, 3⟩⟩, countLimit := some .highest })
    (q.evt.queue.drop 1).map (·.item.code) = [0x02, 0x01, 0x11] ∧ q.heads.h1.drive = .stopped ∧ q.heads.h1.countLimit = none := by
  decide

/-- R21, R97: a boundary perf of a PARKED head whose start field is reached takes it to STOPPED before it is started. -/
theorem test_park_lost_before_the_start :
    let t := { headTake .armed with fCut := some 0, fStart := some 0 }
    let p := { isle (fun x => { x with takes := [t] }) with evt := { run.evt with writing := true } }
    let q := after (.tachPulse 5 .h1 true) (p.modHead .h1 fun x =>
      { x with drive := .parked, pos := ⟨5, 3⟩, park := some ⟨5, ⟨5, 3⟩⟩ })
    (q.evt.queue.map (·.item.code)).take 3 = [0x02, 0x01, 0x01] ∧ q.heads.h1.drive = .runup := by decide +kernel

/-- R126: a MOVE that turns fast polling on does not take the expiry of a countdown at 0 away. -/
theorem test_poll_due_after_a_move :
    let zero := linked fun k => { k with stations := k.stations.set .i1 { k.stations.i1 with countdown := 0 } }
    let q := after (.pollCountdownExpiry .i1) (after (.standby 1) zero)
    q.link.queue = [⟨.i1, .poll⟩] ∧ q.link.stations.i1.countdown = q.link.settings.interval := by decide

/-- R118, R126: at the field at which Island 1's countdown reaches 0 and Island 2 is fast, Island 1's POLL is the first. -/
theorem test_island_1_polled_first :
    let p := linked fun k => { k with stations :=
      ⟨{ k.stations.i1 with countdown := 1 }, { k.stations.i2 with fast := true }⟩ }
    let q := fieldPolls p
    let r := takePollExpiry .i1 q
    q.link.flight = none ∧ q.link.stations.i2.due = true ∧ r.link.flight.map (·.entry) = some ⟨.i1, .poll⟩ ∧
    r.link.queue = [⟨.i2, .poll⟩] := by decide

/-- R93, R177: the status write of a TAKE of the ring is submitted before its TAKE_ACTIVE is posted and written. -/
theorem test_take_active_follows_the_status :
    let p := windowed.modIsland .i1 fun x => { x with onAir := .head .h2 }
    let words : List Word := [0x31, 1, 7, 0, 2, 0, 0, 0xFFFF, 0xFFFF, 0xFFFF, 0, 0, 0, 0, 0]
    let q := endFetch (some words) p
    q.cmd.status = some .ok ∧ q.agent.jobs.map (·.kind) = [.statusWrite, .eventWrite] ∧
    (q.agent.jobs.map fun j => j.data.headD 0 &&& 0xFF) = [0, 0x0A] := by decide +kernel

/-- R103, R112, R181: a failed move posts the events of the take it activates before its alarms. -/
theorem test_alarms_after_the_next_take :
    let p := isle fun x => { x with confirm := some toStandby, takes := [takeIn .queued] }
    let q := failMove .i1 toStandby { p with evt := { p.evt with writing := true } }
    q.evt.queue.map (·.item.code) = [0x0E, 0x0A, 0x0B, 0x0C, 0x11, 0x11] := by decide +kernel

/-- R133, R136, R140: the first conversion finds the mode, IDLE for the tension of a stopped head. -/
theorem test_mode_found :
    (after (.conversionComplete 300 500) { run with analog := { run.analog with next := 2 } }).analog.tension.h1.mode =
      some .idle := by decide

/-! ### Witnesses of the statements' hypotheses

Each theorem meets every hypothesis of the statement it names on the states and operands it writes out, one group for each
clause, at the values where neighbouring clauses meet. -/

/-- The hypothesis `listens` of many statements holds of every state built on `heard`, as most of those below are. -/
theorem witness_Listens (h : Head → Head) (i : Island → Island) (r : RefUnit → RefUnit) (k : LinkUnit → LinkUnit) :
    (one h).listens ∧ (isle i).listens ∧ (refd r).listens ∧ (linked k).listens ∧ ((isle i).modHead .h1 h).listens :=
  ⟨⟨rfl, rfl⟩, ⟨rfl, rfl⟩, ⟨rfl, rfl⟩, ⟨rfl, rfl⟩, ⟨rfl, rfl⟩⟩

theorem witness_IdleStepTakesDueEvents :
    nextDue run = none ∧ nextDue (elapse 20000 run) ≠ none ∧ Part.reset.mode ≠ .running := by decide

/-- The bytes of a valid image: window entries at 176. -/
def goodImage : List Byte :=
  [0x6E, 0x91, 200, 0, 3, 50] ++ List.replicate 10 0 ++ List.replicate 80 0 ++
  [1, 4, 6, 2, 0, 10] ++ List.replicate 6 0 ++ [2, 4, 6, 2, 0, 10] ++ List.replicate 6 0 ++ List.replicate 56 0 ++
  [0, 0, 1, 0, 12, 0, 32, 0] ++ [0, 16, 1, 0, 12, 1, 64, 0] ++ [0, 32, 1, 0, 11, 2, 0, 0]

theorem witness_ConfigLoadEndStartsThePart :
    (st Part.reset).part.mode = .loading ∧ (readImage (goodImage.take 512)).isSome = true ∧
    readImage (([] : List Byte).take 512) = none ∧ (st Part.reset).part.agent.jobs = [] := by decide +kernel

theorem witness_CrystalCyclesIssueTicks :
    let p := refd fun r => { r with trim := 1000 }
    let q := refd fun r => { r with trim := -1000 }
    p.ref.trim ≤ 1000 ∧ -1000 ≤ p.ref.trim ∧ -1000 ≤ q.ref.trim ∧ q.ref.trim ≤ 1000 := by decide

theorem witness_SetTrimSetsTheTrim :
    (st run).part.mode = .running ∧
    (-1000 ≤ (1000 : Word).toInt ∧ (1000 : Word).toInt ≤ 1000) ∧ 1000 < (1001 : Word).toInt ∧
    (-1000 ≤ (BitVec.ofInt 16 (-1000)).toInt ∧ (BitVec.ofInt 16 (-1000)).toInt ≤ 1000) ∧
    (BitVec.ofInt 16 (-1001)).toInt < -1000 := by decide

theorem witness_StationPulseInLocked :
    let s := st (refd fun r => { r with state := .locked })
    let r := s.part.ref
    let inside (dt : Nat) := r.begun + r.length ≤ s.part.time.now + dt + 400 ∧ s.part.time.now + dt ≤ r.begun + r.length + 400
    s.part.mode = .running ∧ r.state = .locked ∧ inside 19600 ∧ inside 20400 ∧ ¬ inside 19599 ∧ ¬ inside 20401 := by
  decide

theorem witness_StationPulsesBuildTheRun :
    let s := st run
    let full (state : RefState) := st (refd fun r => { r with state := state, run := 3, lastPulse := some 100 })
    let run (s : State) (t : Nat) := (s.part.ref.qualify t).run
    s.part.mode = .running ∧ s.part.ref.state = .search ∧ run s 20 < 4 ∧
    (full .search).part.mode = .running ∧ run (full .search) 19700 = 4 ∧ run (full .search) 20500 = 4 ∧
    run (full .search) 20501 = 1 ∧ (full .flywheel).part.ref.state = .flywheel ∧ run (full .flywheel) 20100 = 4 ∧
    (let taken (t : Nat) := ((t : Int) - s.part.ref.begun).natAbs
     let due (t : Nat) := ((t : Int) - (s.part.ref.begun + s.part.ref.length)).natAbs
     taken 9999 < due 9999 ∧ taken 10000 = due 10000 ∧ due 10001 < taken 10001) := by decide

theorem witness_SlewingFollowsThePulses :
    let s := st (refd fun r => { r with state := .slewing, lastPulse := some 200 })
    let r := s.part.ref
    s.part.mode = .running ∧ r.state = .slewing ∧
    (r.regular 20201 = true ∧ 200 < (r.phaseDiff 20201).natAbs) ∧
    (r.regular 20200 = true ∧ (r.phaseDiff 20200).natAbs ≤ 200) ∧
    (r.regular 20601 = false ∧ r.regular 19799 = false) ∧ 200 + r.standard.nominal + 400 ≤ s.part.time.now + 20600 := by
  decide

theorem witness_FieldsWithoutAPulse :
    let s := st run
    let t := st (refd fun r => { r with barren := 2 })
    let u := st (refd fun r => { r with state := .slewing, delta := some 201 })
    let v (n : Nat) := st (refd fun r => { r with state := .locked, misses := n })
    s.part.mode = .running ∧ s.part.ref.state ≠ .locked ∧ s.part.ref.begun + s.part.ref.length ≤ s.part.time.now + 20000 ∧
    (s.part.ref.state = .search ∧ s.part.ref.raised = false ∧ s.part.ref.barren + 1 < 3) ∧
    (t.part.ref.raised = false ∧ t.part.ref.barren + 1 = 3) ∧
    (u.part.ref.state = .slewing ∧ u.part.ref.delta = some 201) ∧
    ((v 1).part.ref.state = .locked ∧ (v 1).part.ref.begun + (v 1).part.ref.length + 400 ≤ (v 1).part.time.now + 20400) ∧
    (v 1).part.ref.misses + 1 < 3 ∧ 3 ≤ (v 2).part.ref.misses + 1 := by decide

theorem witness_TachPulseMovesThePosition :
    let at' (p : Position) (d : DriveState) (c : Option CueUp) := one fun x => { x with pos := p, drive := d, cueUp := c }
    run.mode = .running ∧
    ((at' ⟨999999, 2⟩ .stopped none).heads.h1.pos ≠ ⟨999999, 3⟩ ∧ 2 + 1 < (at' ⟨999999, 2⟩ .stopped none).heads.h1.settings.gauge.perfs) ∧
    ((at' ⟨999998, 3⟩ .stopped none).heads.h1.pos ≠ ⟨999999, 3⟩ ∧ run.heads.h1.settings.gauge.perfs ≤ 3 + 1) ∧
    (at' ⟨999999, 3⟩ .stopped none).heads.h1.pos = ⟨999999, run.heads.h1.settings.gauge.perfs - 1⟩ ∧
    ((at' ⟨-99999, 1⟩ .stopped none).heads.h1.pos ≠ ⟨-99999, 0⟩) ∧ ((at' ⟨-99998, 0⟩ .stopped none).heads.h1.pos ≠ ⟨-99999, 0⟩) ∧
    (at' ⟨-99999, 0⟩ .stopped none).heads.h1.pos = ⟨-99999, 0⟩ ∧
    ((at' ⟨0, 1⟩ .parked none).heads.h1.countLimit = none ∧ (at' ⟨0, 1⟩ .parked none).heads.h1.drive = .parked) ∧
    ((at' ⟨4, 2⟩ .cueInch (some ⟨5, true⟩)).heads.h1.cueUp = some ⟨5, true⟩ ∧
      (at' ⟨4, 2⟩ .cueInch (some ⟨5, true⟩)).heads.h1.drive = .cueInch) ∧
    ((at' ⟨4, 2⟩ .cueFast (some ⟨53, true⟩)).heads.h1.drive = .cueFast ∧ (53 - 4 : Int).natAbs = 49 ∧
      run.heads.h1.settings.approach = 48) := by decide

/-- The same of perfs that make a frame boundary: a forward leg that arrives at phase 0, on each gauge, and a CUE_FAST leg that
comes within the approach distance; a PARKED head. -/
theorem witness_TachPulseAtABoundary :
    let at' (g : Gauge) (p : Position) (d : DriveState) (c : CueUp) : Head :=
      { run.heads.h1 with settings := { run.heads.h1.settings with gauge := g }, pos := p, drive := d, cueUp := some c }
    let next (x : Head) := x.pos.perf x.settings.gauge true
    let inch := at' .g35 ⟨4, 3⟩ .cueInch ⟨5, true⟩
    let sixteen := at' .g16 ⟨4, 0⟩ .cueFast ⟨5, true⟩
    let fast := at' .g35 ⟨4, 3⟩ .cueFast ⟨53, true⟩
    let far := at' .g16 ⟨4, 0⟩ .cueFast ⟨54, true⟩
    let parked := { run.heads.h1 with pos := ⟨4, 3⟩, drive := .parked, park := some ⟨4, ⟨4, 3⟩⟩ }
    (inch.drive.cueing = true ∧ next inch = ⟨5, 0⟩ ∧ inch.cueUp = some ⟨5, true⟩ ∧ (5 * 4 : Int) ≤ 5 * 4 + 0) ∧
    (sixteen.drive.cueing = true ∧ next sixteen = ⟨5, 0⟩ ∧ (5 * 1 : Int) ≤ 5 * 1 + 0) ∧
    (fast.drive = .cueFast ∧ next fast = ⟨5, 0⟩ ∧ ¬ (53 * 4 : Int) ≤ 5 * 4 + 0 ∧ (53 - 5 : Int).natAbs ≤ fast.settings.approach) ∧
    (next far = ⟨5, 0⟩ ∧ ¬ (54 - 5 : Int).natAbs ≤ far.settings.approach) ∧
    (parked.drive.running = false ∧ next parked = ⟨5, 0⟩ ∧ parked.pos.frame ≠ 5 ∧ parked.park.isSome = true) := by decide

theorem witness_TachGapExpiryEntersFault :
    let s := st (one fun x => { x with drive := .runup, gapFrom := some 0 })
    let t := st (one fun x => { x with drive := .locked, gapFrom := some 0 })
    s.part.mode = .running ∧ s.part.heads.h1.gapFrom = some 0 ∧ s.part.heads.h1.drive ≠ .fault ∧
    0 + s.part.heads.h1.settings.startResponse * 1000 ≤ s.part.time.now + 1000000 ∧
    t.part.heads.h1.drive = .locked ∧ 0 + t.part.heads.h1.settings.lossTimeout * 1000 ≤ t.part.time.now + 120000 ∧
    s.part.alarms.sound = true := by decide

theorem witness_SettleExpiryEndsTheMotion :
    let stopping := st (one fun x => { x with drive := .stopping, settleFrom := some 0 })
    let settling (phase tries : Nat) := st (one fun x =>
      { x with drive := .settling, settleFrom := some 0, cueUp := some ⟨5, true⟩, pos := ⟨5, phase⟩, attempts := tries })
    let error (s : State) : Int := s.part.heads.h1.pos.frame * s.part.heads.h1.settings.gauge.perfs +
      s.part.heads.h1.pos.phase - 5 * s.part.heads.h1.settings.gauge.perfs
    stopping.part.mode = .running ∧ stopping.part.heads.h1.settleFrom = some 0 ∧ stopping.part.heads.h1.drive = .stopping ∧
    0 + stopping.part.heads.h1.settings.settleTime * 1000 ≤ stopping.part.time.now + 200000 ∧
    (settling 1 1).part.heads.h1.drive = .settling ∧ (settling 1 1).part.heads.h1.cueUp = some ⟨5, true⟩ ∧
    (error (settling 1 1)).natAbs ≤ 1 ∧ (settling 1 1).part.heads.h1.settings.parkTolerance = 1 ∧
    (1 < (error (settling 2 2)).natAbs ∧ (settling 2 2).part.heads.h1.attempts < 3) ∧
    (1 < (error (settling 2 3)).natAbs ∧ 3 ≤ (settling 2 3).part.heads.h1.attempts ∧
      (settling 2 3).part.alarms.entries.length ≤ 20) := by decide

/-- A running part with head 1 LOCKED and on air on island 1, its guard at rest until the next field, and island 1 changed. -/
def aired (f : Island → Island) : Part :=
  (one fun x => { x with drive := .locked, gapFrom := some 0, assigned := some ⟨.i1, .p1⟩ }).modIsland .i1 fun x =>
    f { x with onAir := .head .h1, fEnd := some ⟨.h1, 9, some 7, .reached⟩ }

/-- A take that follows no cue, its commit field at the next field. -/
def planned (source : Source) (state : TakeState) (preroll : Preroll) : Take :=
  { takeIn state with incoming := source, preroll := preroll, fCut := some 7 }

/-- What the clauses FaultGuarded, StopGuarded and IncomingEnds of TachGapExpiryEntersFault, StopCommand and ConversionsAreJudged
ask for: the head on air with a move awaiting, with no take under each policy, with a READY take of STANDBY and of a LOCKED
head, with an ARMED take; the head incoming, COMMITTED and not. -/
theorem witness_FaultAndStopGuarded :
    let air := aired id
    let hold := aired fun x => { x with settings := { x.settings with policy := .hold } }
    let ready := aired fun x => { x with takes := [planned .standby .ready .auto] }
    let other (d : DriveState) := (aired fun x => { x with takes := [planned (.head .h2) .armed .manual] }).modHead .h2
      fun x => { x with drive := d }
    let waits := aired fun x => { x with confirm := some toStandby }
    let incoming (s : TakeState) := aired fun x =>
      { x with onAir := .standby, takes := [planned (.head .h1) s .auto], confirm := if s = .committed then some toStandby else none }
    (air.mode = .running ∧ air.headLocal .h1 = false ∧ air.heads.h1.drive.running = true ∧ air.heads.h1.gapFrom = some 0) ∧
    ((air.island .i1).onAir = .head .h1 ∧ (air.island .i1).confirm = none ∧ (air.island .i1).takes = [] ∧
      (air.island .i1).settings.policy = .fallback ∧ (hold.island .i1).settings.policy = .hold) ∧
    (waits.island .i1).confirm.isSome = true ∧
    ((ready.island .i1).active.map (fun t => (t.state, t.incoming)) = some (.ready, .standby)) ∧
    ((other .stopped).island .i1).active.map (fun t => (t.state, t.incoming, t.preroll)) = some (.armed, .head .h2, .manual) ∧
    (other .stopped).heads.h2.drive.running = false ∧ (other .locked).heads.h2.drive = .locked ∧
    (((incoming .committed).island .i1).active.map (·.state) = some .committed ∧
      ((incoming .committed).island .i1).confirm.isSome = true) ∧
    (((incoming .ready).island .i1).active.map (·.incoming) = some (.head .h1) ∧
      ((incoming .ready).island .i1).onAir ≠ .head .h1 ∧ ((incoming .ready).island .i1).takes.length = 1 ∧
      (incoming .ready).evt.queue = [] ∧ (incoming .ready).islandsSound = true) := by decide

/-- The same of a take that waits for a LOCKED head, in HELD and in STARTING, and of one whose head is still in RUNUP. -/
theorem witness_FaultGuarded_emergency :
    let p (z : TakeState) (d : DriveState) := (aired fun x => { x with takes := [planned (.head .h2) z .auto] }).modHead .h2
      fun x => { x with drive := d }
    let atField := (aired fun x => { x with takes := [{ planned (.head .h2) .starting .auto with effective := .atField }] }).modHead
      .h2 fun x => { x with drive := .locked }
    let plan (q : Part) := (q.island .i1).active.map fun t => (t.state, t.incoming, decide (t.effective = .now))
    ((p .held .locked).island .i1).onAir = .head .h1 ∧ ((p .held .locked).island .i1).confirm = none ∧
    ((p .held .locked).island .i1).settings.policy = .fallback ∧ (p .held .locked).heads.h2.drive = .locked ∧
    plan (p .held .locked) = some (.held, .head .h2, true) ∧
    (plan atField = some (.starting, .head .h2, false) ∧ atField.heads.h2.drive = .locked) ∧
    (plan (p .starting .runup) = some (.starting, .head .h2, true) ∧ (p .starting .runup).heads.h2.drive = .runup) := by decide

/-- The guard and the cut of those states rest: M fields before field 7 is field 1, and the count is 0. -/
theorem witness_GuardAndCutRest :
    let t := planned .standby .ready .auto
    (aired fun x => { x with takes := [t] }).guardRests .i1 .h1 ∧ (aired fun x => { x with takes := [t] }).cutRests .i1 .h1 t := by
  refine ⟨fun r hr => ?_, fun _ h => (Option.some_ne_none _ h.symm).elim, fun f hf => ?_,
    fun _ h => (Option.some_ne_none _ h.symm).elim, fun h => (nomatch h)⟩
  · obtain rfl := Option.some.inj hr
    exact ⟨rfl, fun f hf => by obtain rfl := Option.some.inj hf; unfold Part.ahead; decide⟩
  · obtain rfl := Option.some.inj hf
    unfold Part.ahead; decide

/-- They rest for an ARMED AUTO take whose head is STOPPED or PARKED, the case of the worked sequence of chapter 6; and the further
takes that a stop on air leaves: HELD, READY and STARTING, of a head that is LOCKED or not. -/
theorem witness_FaultAndStopGuarded_waits :
    let p (z : TakeState) (d : DriveState) := (aired fun x =>
      { x with takes := [{ planned (.head .h2) z .auto with effective := .atField }] }).modHead .h2 fun x => { x with drive := d }
    let plan (q : Part) := (q.island .i1).active.map fun t => (t.state, t.incoming, t.preroll, t.effective)
    (plan (p .armed .parked) = some (.armed, .head .h2, .auto, .atField) ∧ (p .armed .parked).heads.h2.drive.running = false ∧
      (p .armed .stopped).heads.h2.drive.running = false ∧ ((p .armed .parked).island .i1).settings.policy = .fallback) ∧
    (plan (p .held .stopped) = some (.held, .head .h2, .auto, .atField) ∧
      plan (p .ready .locked) = some (.ready, .head .h2, .auto, .atField) ∧
      plan (p .starting .runup) = some (.starting, .head .h2, .auto, .atField)) ∧
    (p .armed .parked).guardRests .i1 .h1 ∧
    (p .armed .parked).cutRests .i1 .h1 { planned (.head .h2) .armed .auto with effective := .atField } := by
  refine ⟨by decide, by decide, fun r hr => ?_, fun _ h => (Option.some_ne_none _ h.symm).elim, fun f hf => ?_,
    fun _ h => (Option.some_ne_none _ h.symm).elim, fun h => (nomatch h)⟩
  · obtain rfl := Option.some.inj hr
    exact ⟨rfl, fun f hf => by obtain rfl := Option.some.inj hf; unfold Part.ahead; decide⟩
  · obtain rfl := Option.some.inj hf
    unfold Part.ahead; decide

/-- They rest too for a HELD take that follows a cue of the head on air and another to its own: both fields lie ahead. -/
theorem witness_GuardAndCutRest_held :
    let t := { planned (.head .h2) .held .auto with
      cut := some ⟨.h1, 8, some 7, .exact⟩, sop := some ⟨.h2, 9, some 7, .exact⟩ }
    (aired fun x => { x with takes := [t] }).cutRests .i1 .h1 t := by
  refine ⟨fun r hr => ?_, fun f hf => ?_, fun r hr f hf => ?_, fun _ r hr f hf => ?_⟩
  · obtain rfl := Option.some.inj hr; exact ⟨rfl, by decide⟩
  · obtain rfl := Option.some.inj hf; unfold Part.ahead; decide
  · obtain rfl := Option.some.inj hr; obtain rfl := Option.some.inj hf; unfold Part.ahead; decide
  · obtain rfl := Option.some.inj hr; obtain rfl := Option.some.inj hf; unfold Part.ahead; decide

/-- The hypotheses of START and of STOP, in each class of drive states. -/
theorem witness_StartCommand :
    let s (d : DriveState) := st (one fun x => { x with drive := d })
    (s .stopped).part.mode = .running ∧ readHead 1 = some .h1 ∧ readHead 4 = some .h4 ∧ (s .stopped).part.headLocal .h1 = false ∧
    [DriveState.stopped, .runup, .settling, .fault].map (fun d => (s d).part.heads.h1.drive) =
      [.stopped, .runup, .settling, .fault] := by decide

theorem witness_StopCommand :
    let s (d : DriveState) := st (one fun x => { x with drive := d })
    (s .locked).part.mode = .running ∧ readHead 1 = some .h1 ∧ (s .locked).part.headLocal .h1 = false ∧
    (s .locked).part.heads.h1.drive.running = true ∧ (s .cueFast).part.heads.h1.drive.cueing = true ∧
    (s .stopping).part.heads.h1.drive = .stopping ∧ (s .parked).part.heads.h1.drive = .parked := by decide

theorem witness_LampAndClearFault :
    let s (d : DriveState) := st (one fun x => { x with drive := d })
    let jammed : Channel := { (s .fault).part.analog.tension.h1 with condition := some .jam }
    let broken : Part := { (s .fault).part with analog := (s .fault).part.analog.setChannel (.tension .h1) jammed }
    (s .stopped).part.mode = .running ∧ readHead 1 = some .h1 ∧ readFlag 0 = some false ∧ readFlag 1 = some true ∧
    (s .stopped).part.heads.h1.drive ≠ .fault ∧ (s .fault).part.heads.h1.drive = .fault ∧ readFlag 2 = none ∧
    (broken.heads.h1.drive = .fault ∧ (broken.analog.tension.get .h1).condition.isSome = true) ∧
    ((s .fault).part.analog.tension.get .h1).condition = none := by decide

theorem witness_SetPositionCommand :
    let s (d : DriveState) := st (one fun x => { x with drive := d })
    (s .parked).part.mode = .running ∧ readHead 1 = some .h1 ∧ (s .parked).part.headLocal .h1 = false ∧
    (BitVec.ofInt 32 (-100000)).toInt < -99999 ∧ 999999 < (1000000 : BitVec 32).toInt ∧
    (-99999 ≤ (BitVec.ofInt 32 (-99999)).toInt ∧ (999999 : BitVec 32).toInt ≤ 999999) ∧
    ((s .locked).part.heads.h1.drive ≠ .stopped ∧ (s .locked).part.heads.h1.drive ≠ .parked) ∧
    (s .parked).part.heads.h1.drive = .parked := by decide

/-- The hypotheses of its clauses on COUNT_LIMIT: raised at each end of the range, where one frame has one perf and where it has
more, and a position at that end and away from it. -/
theorem witness_SetPositionCommand_limit :
    let s (l : LimitSide) (g : Gauge) := one fun x => { x with countLimit := some l, settings := { x.settings with gauge := g } }
    (s .lowest .g35).heads.h1.countLimit = some .lowest ∧ (BitVec.ofInt 32 (-99999)).toInt = -99999 ∧
    (s .highest .g16).heads.h1.countLimit = some .highest ∧ (999999 : BitVec 32).toInt = 999999 ∧
    (s .highest .g16).heads.h1.settings.gauge.perfs = 1 ∧ (s .highest .g35).heads.h1.settings.gauge.perfs = 4 ∧
    (5 : BitVec 32).toInt ≠ 999999 ∧ (s .lowest .g35).heads.h1.drive = .stopped ∧
    (s .lowest .g35).alarms.entries.length ≤ 20 := by decide

theorem witness_AssignHeadCommand :
    let air := isle fun x => { x with onAir := .head .h1 }
    let named := isle fun x => { x with takes := [headTake .queued] }
    run.mode = .running ∧ readHead 1 = some .h1 ∧ run.headLocal .h1 = false ∧ run.inLocal .i1 = false ∧
    (2 < (3 : Word).toNat ∧ ¬ 2 < (2 : Word).toNat) ∧ ((1 : Word) ≠ 0 ∧ 4 < (5 : Word).toNat ∧ ¬ 4 < (4 : Word).toNat) ∧
    (air.island .i1).onAir = .head .h1 ∧ (named.island .i1).takes.map (·.incoming) = [.head .h1] ∧
    (run.island .i1).settings.standbyPort = .p4 ∧ (run.island .i1).settings.standbyPort ≠ .p1 ∧
    HeadId.list.map (fun h => (run.head h).assigned) = [none, none, none, none] := by decide

theorem witness_ConfigureHeadCommand :
    let s (d : DriveState) := st (one fun x => { x with drive := d })
    let words : HeadWords := ⟨0, 2, 10, 240, 2000, 100, 1000, 4, 8, 50, 63, 2000⟩
    let entry (n : Nat) : Word := [0x10, 1, 0, 0, 2, 10, 240, 2000, 100, 1000, 4, 8, 50, 63, 2000].getD n 0
    (s .parked).part.mode = .running ∧ readHead 1 = some .h1 ∧
    (1 < (2 : Word).toNat % 256 ∧ 1 < (0x0200 : Word).toNat / 256 ∧
      ¬ (1 < (0x0101 : Word).toNat % 256 ∨ 1 < (0x0101 : Word).toNat / 256)) ∧
    ((entry 0).toNat % 256 = 0x10 ∧ entry 1 = 1 ∧ words = ⟨entry 3, entry 4, entry 5, entry 6, entry 7, entry 8, entry 9,
      entry 10, entry 11, entry 12, entry 13, entry 14⟩) ∧
    (s .locked).part.heads.h1.drive = .locked ∧ (s .parked).part.heads.h1.drive = .parked ∧
    (readHeadSettings words).map HeadSettings.clamped = readHeadSettings words := by decide

theorem witness_CueUpCommand :
    let s := st (one fun x => { x with cues := [cue 3 20 .sop] })
    let low := st (one fun x => { x with cues := [cue 3 (-99980) .sop] })
    let busy := st (one fun x => { x with drive := .runup })
    s.part.mode = .running ∧ readHead 1 = some .h1 ∧ s.part.headLocal .h1 = false ∧ 2 < (3 : Word).toNat ∧
    busy.part.heads.h1.drive.atRest = false ∧ s.part.heads.h1.drive.atRest = true ∧
    (findCue s.part.heads.h1.cues 3).isSome = true ∧ findCue s.part.heads.h1.cues 4 = none ∧
    (1000000 : BitVec 32).toInt = 999999 + 1 ∧ (BitVec.ofInt 32 (-99999)).toInt = -99999 ∧
    ((findCue low.part.heads.h1.cues 3).map fun c => c.frame - (low.part.heads.h1.settings.runupDistance : Int)) = some (-100004) ∧
    (s.part.heads.h1.pos = ⟨0, 0⟩ ∧ s.part.heads.h1.sound = true) := by decide

theorem witness_HeadCommandsCheckTargetAndAuthority :
    let s := st ((isle fun x => { x with authority := .panel }).modHead .h1 fun x => { x with assigned := some ⟨.i1, .p1⟩ })
    s.part.mode = .running ∧ (0 : Word).toNat = 0 ∧ 4 < (5 : Word).toNat ∧ readHead 1 = some .h1 ∧
    (s.part.head .h1).assigned.map (·.island) = some .i1 ∧ (s.part.island .i1).authority = .panel ∧
    readIsland 1 = some .i1 := by decide

theorem witness_HeadOutOfPlan :
    run.mode = .running ∧ readHead 1 = some .h1 ∧ run.uninvolved .h1 ∧ ∀ i, guardDue i run = false :=
  ⟨rfl, rfl, fun i => by cases i <;> exact ⟨rfl, by decide, fun r h => by cases h⟩, fun i => by cases i <;> rfl⟩

theorem witness_CadenceTimers :
    let timed := one fun x => { x with cadence := { x.cadence with lastTime := some 0 } }
    let slow := { (one fun x => { x with drive := .runup, cadence := { x.cadence with
      measuring := true, startStamp := some 0 } }) with ref := { run.ref with count := 301 } }
    timed.mode = .running ∧ timed.heads.h1.cadence.lastTime = some 0 ∧ 0 + 1000000 ≤ timed.time.now + 1000000 ∧
    slow.mode = .running ∧ slow.heads.h1.cadence.startStamp = some 0 ∧
    slow.heads.h1.settings.runupLimit < (slow.ref.count - 0).toNat ∧ (slow.ref.count - 0).toNat < 2 ^ 31 ∧
    slow.heads.h1.drive = .runup ∧ slow.heads.h1.cadence.measuring = true ∧ slow.heads.h1.cadence.slowStart = false := by
  decide

theorem witness_FramesAreJudged :
    let c (n : Nat) (e : Option Nat) (d : Option Deviation) : Cadence :=
      { Cadence.reset with boundary := some 0, fields := n, phase := e, provisional := d }
    let verdict (n : Nat) (e : Option Nat) (d : Option Deviation) (z : Standard) := ((c n e d).boundaryAt z 5 9).2
    Cadence.reset.lastTime = none ∧ ({ Cadence.reset with lastTime := some 0 } : Cadence).lastTime = some 0 ∧
    (2 * 10000 * 10000 ≤ 200000000 + 10000 ∧ 200000000 + 10000 < 2 * (10000 + 1) * 10000) ∧
    (2 * 2400 * 41667 ≤ 200000000 + 41667 ∧ 200000000 + 41667 < 2 * (2400 + 1) * 41667) ∧
    Cadence.reset.boundary = none ∧ verdict 2 none none .f60 = some .conforming ∧ verdict 4 none none .f60 = some (.nonconforming false) ∧
    verdict 3 (some 2) none .f60 = some (.provisional .plus) ∧ verdict 2 (some 3) none .f60 = some (.provisional .minus) ∧
    verdict 4 none none .f50 = some (.nonconforming false) ∧ verdict 1 none (some .plus) .f50 = some .pair ∧
    verdict 3 none (some .minus) .f50 = some .pair ∧ verdict 2 none (some .plus) .f50 = some (.nonconforming true) := by
  decide

theorem witness_BoundaryLocksAndUnlocks :
    let s := st (one runner)
    let locks := st (one locking)
    let again := st (one relocking)
    let unlocks := st (one unlocking)
    let judged (s : State) := s.part.heads.h1.cadence.boundaryAt .f50 0 0
    s.part.mode = .running ∧ s.part.heads.h1.drive.running = true ∧ s.part.heads.h1.settings.gauge.perfs ≤ 3 + 1 ∧
    s.part.heads.h1.pos = ⟨5, 3⟩ ∧ s.part.heads.h1.cues = [] ∧
    ((judged locks).2 = some .conforming ∧ locks.part.heads.h1.settings.lockCount ≤ (judged locks).1.run ∧
      locks.part.heads.h1.drive ≠ .locked ∧ locks.part.heads.h1.cadence.firstLock = false ∧
      locks.part.heads.h1.cadence.startStamp = some 0 ∧ locks.part.heads.h1.cadence.startFrame = some 1) ∧
    ((judged again).2 = some .conforming ∧ again.part.heads.h1.settings.lockCount ≤ (judged again).1.run ∧
      again.part.heads.h1.drive = .unlocked ∧ again.part.heads.h1.cadence.firstLock = true ∧
      again.part.heads.h1.cadence.unlockStamp = some 1) ∧
    ((judged unlocks).2 = some (.nonconforming false) ∧ unlocks.part.heads.h1.drive = .locked) ∧
    unlocks.part.alarms.entries.length ≤ 20 := by decide

/-- The hypotheses of LOAD_CUE, and below of DELETE_CUE and CLEAR_CUES. -/
theorem witness_CueTableCommands_load :
    let s := st (one fun x => { x with cues := [cue 3 20 .sop] })
    let full := st (one fun x => { x with cues := (List.range 32).map fun n => cue n n .mark })
    s.part.mode = .running ∧ readHead 1 = some .h1 ∧
    255 < (256 : Word).toNat ∧ 4 < (5 : Word).toNat ∧ 1 < (2 : Word).toNat ∧
    (BitVec.ofInt 32 (-100000)).toInt < -99999 ∧ 999999 < (1000000 : BitVec 32).toInt ∧
    ¬ (255 < (255 : Word).toNat ∨ 4 < (4 : Word).toNat ∨ 1 < (1 : Word).toNat ∨
      (BitVec.ofInt 32 (-99999)).toInt < -99999 ∨ 999999 < (999999 : BitVec 32).toInt) ∧
    (∃ c ∈ s.part.heads.h1.cues, c.id = (3 : Word).toNat) ∧ (∃ c ∈ s.part.heads.h1.cues, c.frame = (20 : BitVec 32).toInt) ∧
    ¬ (∃ c ∈ s.part.heads.h1.cues, c.id = (4 : Word).toNat ∨ c.frame = (21 : BitVec 32).toInt) ∧
    s.part.heads.h1.cues.length < 32 ∧ readCueKind 4 = some .mark ∧ s.part.heads.h1.cuesSound = true ∧
    32 ≤ full.part.heads.h1.cues.length ∧
    ¬ (∃ c ∈ full.part.heads.h1.cues, c.id = (32 : Word).toNat ∨ c.frame = (32 : BitVec 32).toInt) := by decide

theorem witness_CueTableCommands :
    let s := st (one fun x => { x with cues := [cue 255 20 .sop] })
    let used := st ((isle fun x => { x with takes := [{ headTake .armed with sopCue := some ⟨255, 20⟩ }] }).modHead .h1
      fun x => { x with cues := [cue 255 20 .sop] })
    s.part.mode = .running ∧ readHead 1 = some .h1 ∧ 255 < (256 : Word).toNat ∧
    (∃ c ∈ s.part.heads.h1.cues, c.id = (255 : Word).toNat) ∧ ¬ (∃ c ∈ s.part.heads.h1.cues, c.id = (254 : Word).toNat) ∧
    (∀ i, (s.part.island i).takes = []) ∧
    ((used.part.island .i1).takes.any fun t => decide (t.state ≠ .queued ∧ t.incoming = .head .h1 ∧ t.sopCue.map (·.id) = some 255)) ∧
    (∃ c ∈ used.part.heads.h1.cues, c.id = 255) :=
  ⟨rfl, rfl, by decide, by decide, by decide, fun i => by cases i <;> rfl, by decide, by decide⟩

/-- A take that names cue 3 of head 1 in each of the other ways: as its incoming cue; as its outgoing cue, QUEUED with the head
on the island, and activated with the head outgoing; as its CHANGEOVER cue. And one that does not, a QUEUED take of another
head whose outgoing cue is sought on the island's heads alone. -/
theorem witness_CueTableCommands_named :
    let t (z : TakeState) := takeIn z
    let named (x : Head) (t : Take) : Bool := decide (t.incoming = .head .h1 ∧ t.inCue = some 3 ∨
      t.state = .queued ∧ t.outCue = some 3 ∧ x.assigned.map (·.island) = some .i1 ∨
      t.state ≠ .queued ∧ t.outgoing = some (.head .h1) ∧ (t.outCue = some 3 ∨ t.changeCue.map (·.id) = some 3) ∨
      t.state ≠ .queued ∧ t.incoming = .head .h1 ∧ t.sopCue.map (·.id) = some 3)
    let here : Head := { run.heads.h1 with assigned := some ⟨.i1, .p1⟩ }
    named run.heads.h1 { headTake .queued with inCue := some 3 } = true ∧ named here { t .queued with outCue := some 3 } = true ∧
    named run.heads.h1 { t .queued with outCue := some 3 } = false ∧
    named here { t .armed with outCue := some 3, outgoing := some (.head .h1) } = true ∧
    named here { t .armed with outCue := some 3, outgoing := some (.head .h2) } = false ∧
    named here { t .armed with changeCue := some ⟨3, 9⟩, outgoing := some (.head .h1) } = true := by decide

/-- Two candidates equally near a mark at frame 10, and a mark out of every window. -/
theorem witness_MarkMatchesTheNearestCandidate :
    let cues := [cue 1 5 .mark, cue 2 15 .mark]
    ascending cues = true ∧ matchMark 0 10 cues = some (cue 1 5 .mark, 5) ∧ matchMark 0 21 cues = none := by decide

theorem witness_CueMarkPulse :
    let at' (c : Bool) (n : Int) := st (one fun x => { runner x with pos := ⟨n, 0⟩, cues := [{ cue 1 9 .mark with correct := c }] })
    let m (s : State) := (matchMark s.part.heads.h1.settings.sensorOffset s.part.heads.h1.pos.frame s.part.heads.h1.cues).map
      fun r => (r.1.id, r.1.correct)
    run.mode = .running ∧ run.heads.h1.drive.running = false ∧ (one fun x => { runner x with mark := some 3 }).heads.h1.mark.isSome = true ∧
    ((at' true 3).part.heads.h1.drive.running = true ∧ (at' true 3).part.heads.h1.mark = none ∧ m (at' true 3) = none) ∧
    m (at' false 4) = some (1, false) ∧ m (at' true 4) = some (1, true) ∧ (at' true 4).part.heads.h1.cuesSound = true := by
  decide

/-- The hypotheses of the clauses on corrections and on MARK_MISSED: a correction forward from 4 to 9 past a cue whose window of 1
ends at 8, one in place, one backward from 12 to 9; and a boundary into the deadline frame of a cue. The head stands in no
plan, and no guard is due. -/
theorem witness_CueMarkPulse_corrections :
    let at' (n : Int) : Part := one fun x => { runner x with
      pos := ⟨n, 3⟩, settings := { x.settings with sensorOffset := 0 }
      cues := [{ cue 2 6 .mark with window := some 1, passed := decide (6 ≤ n) },
               { cue 1 9 .mark with correct := true, passed := decide (9 ≤ n) }] }
    let back (n : Int) : Part := one fun x => { runner x with
      pos := ⟨n, 0⟩, settings := { x.settings with sensorOffset := 5 }, cues := [{ cue 1 14 .mark with correct := true }] }
    let r (p : Part) : Option (Nat × Int) :=
      (matchMark p.heads.h1.settings.sensorOffset p.heads.h1.pos.frame p.heads.h1.cues).map fun r =>
      (r.1.id, r.1.frame - p.heads.h1.settings.sensorOffset)
    r (at' 4) = some (1, 9) ∧ (at' 4).heads.h1.cuesSound = true ∧ ((4 : Int) < 6 - 0 + 1 + 1 ∧ (6 - 0 + 1 + 1 : Int) ≤ 9) ∧
    r (back 12) = some (1, 9) ∧ r (back 9) = some (1, 9) ∧ (back 12).heads.h1.cuesSound = true ∧
    (back 12).heads.h1.countLimit = none ∧ (∀ i, guardDue i (back 12) = false) ∧ (at' 4).heads.h1.cues.length ≤ 5 ∧ (at' 7).heads.h1.cuesSound = true ∧
    (at' 7).heads.h1.settings.gauge.perfs ≤ 3 + 1 ∧ (6 - 0 + 1 + 1 : Int) = 7 + 1 ∧
    ((at' 4).uninvolved .h1 ∧ (back 12).uninvolved .h1 ∧ (at' 7).uninvolved .h1) := by
  refine ⟨by decide, by decide, by decide, by decide, by decide, by decide, by decide, fun i => by cases i <;> rfl, by decide,
    by decide, by decide, by decide, ?_, ?_, ?_⟩ <;>
  exact fun i => by cases i <;> exact ⟨rfl, by decide, fun r h => by cases h⟩

theorem witness_StopAndEndCuesAct :
    let s (k : CueKind) := st ((isle fun x => { x with onAir := .head .h1 }).modHead .h1 fun x => { runner x with cues := [cue 1 6 k] })
    let x (k : CueKind) := (s k).part.heads.h1
    (s .stop).part.mode = .running ∧ (x .stop).drive.running = true ∧ (x .stop).settings.gauge.perfs ≤ (x .stop).pos.phase + 1 ∧
    (x .stop).pos.frame < 999999 ∧ (x .stop).cuesSound = true ∧
    (x .stop).cues.find? (fun c => decide (c.frame = 6)) = some (cue 1 6 .stop) ∧
    (x .ending).cues.find? (fun c => decide (c.frame = 6)) = some (cue 1 6 .ending) ∧ (x .ending).cuesSound = true ∧
    ((s .ending).part.island .i1).onAir = .head .h1 ∧ ((s .ending).part.island .i1).takes = [] ∧
    ((s .ending).part.island .i1).confirm = none ∧ (s .ending).part.alarms.entries.length ≤ 20 := by decide

/-- The hypotheses of its clauses on an END cue reached with an active take: an ARMED one that follows no cue, and one that
follows a cue of the head on air 7 frames past the boundary, one more than the lead. -/
theorem witness_StopAndEndCuesAct_take :
    let t (cut : Option Pred) : Take := { planned (.head .h2) .armed .auto with effective := .atField, cut := cut }
    let p (cut : Option Pred) := (isle fun x => { x with onAir := .head .h1, takes := [t cut] }).modHead .h1 fun x =>
      { runner x with cues := [cue 1 6 .ending] }
    let r : Pred := ⟨.h1, 13, some 7, .exact⟩
    (((p none).island .i1).onAir = .head .h1 ∧ ((p none).island .i1).active = some (t none) ∧ (t none).state ≠ .committed ∧
      (t none).incoming ≠ .head .h1 ∧ ((p none).island .i1).confirm = none ∧ (p none).heads.h1.cues.length ≤ 5) ∧
    (((p none).island .i1).settings.lead : Int) < 13 - 6 ∧ (t none).effective ≠ .now ∧
    ((p (some r)).island .i1).active = some (t (some r)) ∧ (t (some r)).sop = none ∧ (p (some r)).cutRests .i1 .h1 (t (some r)) := by
  refine ⟨by decide, by decide, by decide, by decide, rfl, fun a ha => ?_, fun f hf => ?_, fun a ha f hf => ?_, fun h => nomatch h⟩
  · obtain rfl := Option.some.inj ha; exact ⟨rfl, by decide⟩
  · obtain rfl := Option.some.inj hf; unfold Part.ahead; decide
  · obtain rfl := Option.some.inj ha; obtain rfl := Option.some.inj hf; unfold Part.ahead; decide

/-- The hypotheses of its clause on a head in no plan: a STOP cue, and a MARK cue without a window. -/
theorem witness_StopAndEndCuesAct_alone :
    let s (k : CueKind) := one fun x => { runner x with cues := [{ cue 1 6 k with window := none }] }
    (s .stop).heads.h1.cuesSound = true ∧
    (s .stop).heads.h1.cues.find? (fun c => decide (c.frame = 6)) = some { cue 1 6 .stop with window := none } ∧
    (s .mark).heads.h1.cuesSound = true ∧ (s .mark).heads.h1.cues.length ≤ 5 ∧
    (s .stop).uninvolved .h1 ∧ (s .mark).uninvolved .h1 :=
  ⟨by decide, by decide, by decide, by decide, fun i => by cases i <;> exact ⟨rfl, by decide, fun r h => by cases h⟩,
    fun i => by cases i <;> exact ⟨rfl, by decide, fun r h => by cases h⟩⟩

theorem witness_PredictionFollowsTheCadence :
    let aired (basis : Basis) (f : Head → Head) : Part :=
      (isle fun x => { x with onAir := .head .h1, fEnd := some ⟨.h1, 30, some 90, basis⟩ }).modHead .h1 fun x =>
        f { x with cues := [cue 1 30 .ending] }
    let moving (d : DriveState) (basis : Basis) : Part := aired basis fun x => { runner x with drive := d }
    let bounds (p : Part) := p.heads.h1.settings.gauge.perfs ≤ p.heads.h1.pos.phase + 1 ∧ p.heads.h1.pos.frame + 1 < 30
    let next (p : Part) := (after (.tachPulse 5 .h1 true) p).heads.h1.drive
    let locks := (aired .exact id).modHead .h1 locking
    let unlocks := (aired .exact id).modHead .h1 unlocking
    let stops := (moving .locked .exact).modHead .h1 fun x => { x with cues := [cue 2 6 .stop, cue 1 30 .ending] }
    (((2 : Nat) = 2 ∨ (2 : Nat) = 3) ∧ ((3 : Nat) = 2 ∨ (3 : Nat) = 3)) ∧
    ((moving .locked .exact).heads.h1.pos.frame = 5 ∧ (6 : Int) ≤ 6 ∧ (5 : Int) < 6 ∧ (5 : Int) ≤ 5 ∧
      (moving .locked .exact).heads.h1.cadence.boundary = none ∧
      (locks.heads.h1.cadence.boundary.isSome = true ∧ locks.heads.h1.cadence.expected locks.ref.standard = some 2)) ∧
    (let p := aired .absent id
     p.mode = .running ∧ (p.island .i1).onAir = .head .h1 ∧ (p.island .i1).fEnd.map (·.basis) = some .absent ∧
     readHead 1 = some .h1 ∧ p.headLocal .h1 = false ∧ p.heads.h1.drive.atRest = true ∧ p.heads.h1.pos.frame < 30) ∧
    (let p := moving .runup .estimate
     p.heads.h1.drive.running = true ∧ p.heads.h1.cuesSound = true ∧ bounds p ∧ next p = .runup ∧
     p.heads.h1.cues.find? (fun c => decide (c.kind = .ending) && !c.passed) = some (cue 1 30 .ending)) ∧
    (bounds locks ∧ next locks = .locked) ∧ (bounds unlocks ∧ next unlocks = .unlocked ∧ unlocks.heads.h1.drive = .locked) ∧
    (bounds (moving .unlocked .frozen) ∧ next (moving .unlocked .frozen) = .unlocked) ∧
    (bounds stops ∧ stops.heads.h1.cuesSound = true ∧ next stops = .stopping) := by decide +kernel

/-- A take of head 1 that follows a frame of it, with its cut and held cut. -/
def following (z : TakeState) (frame : Int) (cut held : Option Stamp) : Take :=
  { headTake z with sop := some ⟨.h1, frame, none, .absent⟩, fCut := cut, heldCut := held }

/-- A running part with that take in front and head 1 changed. -/
def followed (t : Take) (f : Head → Head) : Part := (isle fun x => { x with takes := [t] }).modHead .h1 f

/-- Head 1 takes a boundary in a running state, its take in front, with the source UNKNOWN, no F_end, no guard and no move. -/
def takesBoundary (q : Part) : Bool :=
  let x := q.heads.h1
  decide (q.mode = .running) && x.drive.running && x.cuesSound && decide (x.settings.gauge.perfs ≤ x.pos.phase + 1) &&
  decide (x.pos.frame = 5) && decide ((q.island .i1).onAir = .unknown) && (q.endFrame (q.island .i1).onAir).isNone &&
  (q.island .i1).fEnd.isNone && !guardDue .i1 q && (q.island .i1).confirm.isNone && decide (q.ref.count = 0) &&
  decide ((q.island .i1).settings.lead = 6) && decide ((q.island .i1).settings.tolerance = 2)

/-- What the boundary leaves of head 1: its drive state, boundary stamp and expected length. -/
def left (q : Part) : DriveState × Option Stamp × Option Nat :=
  let y := (after (.tachPulse 5 .h1 true) q).heads.h1
  (y.drive, y.cadence.boundary, y.cadence.expected .f50)

/-- The hypotheses of the clauses on a take whose incoming head takes a boundary: F_sop is 48, or 4 fields on. -/
theorem witness_PredictionFollowsTheCadence_takes :
    takesBoundary (followed (following .starting 30 (some 45) none) locking) = true ∧
    takesBoundary (followed (following .ready 30 (some 46) none) locking) = true ∧
    left (followed (following .starting 30 (some 45) none) locking) = (.locked, some 0, some 2) ∧
    left (followed (following .ready 30 (some 46) none) locking) = (.locked, some 0, some 2) := by decide +kernel

theorem witness_PredictionFollowsTheCadence_held :
    takesBoundary (followed (following .held 30 (some 40) (some 40)) locking) = true ∧
    left (followed (following .held 30 (some 40) (some 40)) locking) = (.locked, some 0, some 2) ∧
    left (followed (following .held 8 (some 40) (some 40)) locking) = (.locked, some 0, some 2) := by decide +kernel

theorem witness_PredictionFollowsTheCadence_unlocked :
    takesBoundary (followed (following .ready 30 (some 56) none) unlocking) = true ∧
    takesBoundary (followed (following .held 30 (some 40) (some 40)) unlocking) = true ∧
    (left (followed (following .ready 30 (some 56) none) unlocking)).1 = .unlocked ∧
    (left (followed (following .held 30 (some 40) (some 40)) unlocking)).1 = .unlocked := by decide +kernel

/-- Of the same, the fields: the commit field of a cut at 45 or 46 lies ahead, F_sop at 48 is 3 or 2 after it; F_sop − M is 42 or
has passed. -/
theorem witness_PredictionFollowsTheCadence_fields :
    2 ^ 31 ≤ ((0 : Stamp) - (45 - 6)).toNat ∧ 2 ^ 31 ≤ ((0 : Stamp) - (46 - 6)).toNat ∧ 2 ^ 31 ≤ ((0 : Stamp) - (56 - 6)).toNat ∧
    (((48 : Stamp) - 46).toInt ≤ 2 ∧ ¬ ((48 : Stamp) - 45).toInt ≤ 2) ∧
    2 ^ 31 ≤ ((0 : Stamp) - (48 - 6)).toNat ∧ ((0 : Stamp) - (4 - 6)).toNat < 2 ^ 31 := by decide

theorem witness_ConfigureIslandCommand :
    let held := run.modHead .h1 fun x => { x with assigned := some ⟨.i1, .p3⟩ }
    let busy := isle fun x => { x with takes := [takeIn .armed] }
    ((0 : Word).toNat = 0 ∧ 2 < (3 : Word).toNat) ∧
    run.mode = .running ∧ readIsland 1 = some .i1 ∧ 1 < (2 : Word).toNat ∧ (1 : Word).toNat ≤ 1 ∧
    (max 1 (min 15 (2 : Word).toNat) = (run.island .i2).settings.address) ∧
    (max 1 (min 15 (0 : Word).toNat) = (run.island .i1).settings.address) ∧
    (max 1 (min 15 (16 : Word).toNat) ≠ (run.island .i2).settings.address) ∧
    (held.head .h1).assigned = some ⟨.i1, .p3⟩ ∧ (busy.island .i1).active.isSome = true ∧
    (run.island .i1).active.isSome = false ∧ (run.island .i1).confirm.isSome = false := by decide

/-- A new address while the poll of the island is in flight and a MOVE of the other island waits; STATION_OFFLINE shown. -/
theorem witness_ConfigureIslandCommand_address :
    let p := raiseAlarm (.island .i1) .stationOffline 0 0 (linked fun k => { polling k with queue := [⟨.i2, .move .p4 0⟩] })
    (p.island .i1).settings.address ≠ max 1 (min 15 (5 : Word).toNat) ∧
    max 1 (min 15 (5 : Word).toNat) ≠ (p.island .i2).settings.address ∧ p.alarms.sound = true ∧
    (p.alarms.find? (.island .i1) .stationOffline).map (·.state) = some .activeNew ∧
    (p.link.line ≠ .idle ∧ p.link.queue = [⟨.i2, .move .p4 0⟩] ∧ (p.link.flight.map (·.entry)) = some ⟨.i1, .poll⟩) ∧
    (p.island .i1).active.isSome = false ∧ (p.island .i1).confirm.isSome = false ∧
    HeadId.list.map (fun h => (p.head h).assigned) = [none, none, none, none] := by decide

/-- An end guard at field 56 of a head on air, due at count 46 by the new lead 10 and not by 9. -/
theorem witness_ConfigureIslandCommand_guard :
    let p := { (isle fun x => { x with onAir := .head .h1, fEnd := some ⟨.h1, 9, some 56, .exact⟩ }) with
      ref := { run.ref with count := 46 } }
    (p.island .i1).onAir = .head .h1 ∧ (p.island .i1).fEnd.bind (·.value) = some 56 ∧
    (p.ref.count + BitVec.ofNat 32 10 - 56).toNat < 2 ^ 31 ∧ ¬ (p.ref.count + BitVec.ofNat 32 9 - 56).toNat < 2 ^ 31 ∧
    (p.island .i1).active.isSome = false ∧ (p.island .i1).confirm.isSome = false := by decide

theorem witness_TakeCommandChecks :
    let s := isle fun x => { x with takes := [takeIn .queued] }
    let full := isle fun x => { x with takes := List.replicate 6 (takeIn .queued) }
    let moving := isle fun x => { x with confirm := some toStandby }
    ((moving.island .i1).takes = [] ∧ (moving.island .i1).confirm.isSome = true) ∧
    s.mode = .running ∧ (0 : Word).toNat = 0 ∧ 2 < (3 : Word).toNat ∧ readIsland 1 = some .i1 ∧
    ((isle fun x => { x with authority := .panel }).island .i1).authority = .panel ∧ (s.island .i1).authority = .remote ∧
    4 < (5 : Word).toNat ∧ 2 < (3 : Word).toNat ∧ 1 < (2 : Word).toNat ∧ (255 < (256 : Word).toNat ∧ (256 : Word) ≠ 65535) ∧
    ¬ (4 < (4 : Word).toNat ∨ 2 < (2 : Word).toNat ∨ 1 < (1 : Word).toNat ∨
      (255 < (255 : Word).toNat ∧ (255 : Word) ≠ 65535) ∨ (255 < (65535 : Word).toNat ∧ (65535 : Word) ≠ 65535)) ∧
    6 ≤ (full.island .i1).takes.length ∧ (s.island .i1).takes.length < 6 ∧ (s.island .i1).takes ≠ [] ∧
    readIncoming 4 = some (.head .h4) ∧ (s.head .h4).assigned.map (·.island) ≠ some .i1 ∧
    readIncoming 0 = some .standby ∧ readMode 2 = some .now ∧ readPreroll 1 = some .manual ∧
    8 < (9 : Word).toNat ∧ ¬ (8 < (8 : Word).toNat) := by decide

/-- The hypotheses of a TAKE that is activated, at fields 5, 6 and 7 on with a lead of 6, and at run-up leads on both sides of
the field. -/
theorem witness_TakeActivates :
    let s := st ((refd fun r => { r with count := 100 }).modHead .h1 fun x => { x with assigned := some ⟨.i1, .p1⟩ })
    let near := s.part.modHead .h1 fun x => { x with settings := { x.settings with runupLead := 10 } }
    let ready := s.part.modHead .h1 fun x => { x with drive := .locked }
    let x := s.part.island .i1
    let ahead (f : Stamp) := (f - s.part.ref.count).toNat
    s.part.mode = .running ∧ readIsland 1 = some .i1 ∧ x.authority = .remote ∧ x.takes = [] ∧ x.confirm = none ∧
    readIncoming 0 = some .standby ∧ readIncoming 1 = some (.head .h1) ∧
    (∀ h, Source.head .h1 = .head h → (s.part.head h).assigned.map (·.island) = some .i1) ∧
    (∀ h, Source.standby = .head h → (s.part.head h).assigned.map (·.island) = some .i1) ∧
    Source.standby ≠ x.onAir ∧ (s.part.heads.h1.drive.atRest = true ∧ s.part.heads.h1.cues = []) ∧
    (ready.heads.h1.drive = .locked ∧ ready.heads.h1.cues = []) ∧
    (ahead 105 < x.settings.lead ∧ x.settings.lead < 2 ^ 31) ∧ (ahead 106 = x.settings.lead ∧ 0 < ahead 106) ∧
    (x.settings.lead < ahead 107 ∧ ahead 107 < 2 ^ 31) ∧
    (near.heads.h1.settings.runupLead < ahead 111 ∧ ahead 110 ≤ near.heads.h1.settings.runupLead) ∧
    (s.part.modIsland .i1 fun x => { x with onAir := .standby }).islands.i1.onAir = .standby := by
  refine ⟨rfl, rfl, rfl, rfl, rfl, rfl, rfl, ?_, ?_, by decide, by decide, by decide, by decide, by decide, by decide, by decide,
    rfl⟩
  · intro h e; cases e; rfl
  · intro h e; cases e

/-- The hypotheses of the clauses on a head with a SOP cue, the leader at the run-up distance of 24 and one below it, the start
field 111 − 10 and 110 − 10 on both sides of count 100; and of a LOCKED head whose F_sop is 108, 104 or 109 for a cut at 106. -/
theorem witness_TakeActivates_cue :
    let s (f : Int) (g : Head → Head) : Part := (refd fun r => { r with count := 100 }).modHead .h1 fun x =>
      g { x with assigned := some ⟨.i1, .p1⟩, cues := [cue 1 f .sop], settings := { x.settings with runupLead := 10 } }
    let locked (b : Stamp) : Part :=
      s 2 fun x => { x with drive := .locked, cadence := { x.cadence with measuring := true, boundary := some b } }
    let found (p : Part) := p.heads.h1.cues.find? fun c => decide (c.kind = .sop) && !c.passed
    let e (b : Stamp) : Int := (b + 4 - 106).toInt
    (s 24 id).heads.h1.drive.atRest = true ∧ found (s 24 id) = some (cue 1 24 .sop) ∧ (s 24 id).heads.h1.pos = ⟨0, 0⟩ ∧
    (s 24 id).heads.h1.settings.runupDistance = 24 ∧ ¬ ((24 : Int) < 24) ∧ (23 : Int) < 24 ∧
    found (s 23 id) = some (cue 1 23 .sop) ∧ ((s 24 id).island .i1).settings.lead = 6 ∧
    (2 ^ 31 ≤ ((100 : Stamp) - (111 - 10)).toNat ∧ ((100 : Stamp) - (110 - 10)).toNat < 2 ^ 31) ∧
    ({ (s 24 id) with evt := { (s 24 id).evt with writing := true } } : Part).evt.queue = [] ∧
    ((locked 104).heads.h1.drive = .locked ∧ (locked 104).heads.h1.pos.frame < 2 ∧ found (locked 104) = some (cue 1 2 .sop) ∧
      (locked 104).heads.h1.cadence.boundary = some 104 ∧ (locked 104).heads.h1.cadence.expected .f50 = some 2 ∧
      ((locked 104).island .i1).settings.tolerance = 2) ∧
    (e 104 = 2 ∧ (e 104).natAbs ≤ 2 ∧ e 99 < -2 ∧ 2 < e 105) ∧ (100 : Stamp) + BitVec.ofNat 32 6 = 106 := by decide

/-- The hypotheses of the other forms: head 2 on air with a CHANGEOVER cue ahead of it and exact, and one behind it; cues named
by id on both heads; a field that has passed; a head in FAULT; a LOCKED head whose SOP cue it stands on. -/
theorem witness_TakeActivates_forms :
    let p (f : Int) : Part := (((isle fun x => { x with onAir := .head .h2 }).modHead .h2 fun x => { x with
        assigned := some ⟨.i1, .p2⟩, drive := .locked, cues := [cue 7 f .changeover]
        cadence := { x.cadence with measuring := true, boundary := some 100 } }).modHead .h1 fun x => { x with
        assigned := some ⟨.i1, .p1⟩, drive := .locked, cues := [{ cue 3 0 .sop with passed := true }, cue 4 50 .mark] })
    let p (f : Int) : Part := { p f with ref := { run.ref with count := 100 } }
    let record (q : Part) := formPred q .cutOrEnd .h2 ((q.heads.h2.cues.map (·.frame)).headD 0)
    ((p 40).island .i1).takes = [] ∧ ((p 40).island .i1).confirm = none ∧ ((p 40).island .i1).authority = .remote ∧
    (p 40).heads.h1.assigned.map (·.island) = some .i1 ∧ (p 40).heads.h2.assigned.map (·.island) = some .i1 ∧
    (record (p 40) = ⟨.h2, 40, some 180, .exact⟩ ∧ 2 ^ 31 ≤ ((100 : Stamp) - (180 - 6)).toNat) ∧
    (record (p 4) = ⟨.h2, 4, some 108, .exact⟩ ∧ record (p 3) = ⟨.h2, 3, some 106, .exact⟩ ∧
      ((100 : Stamp) - (106 - 6)).toNat < 2 ^ 31 ∧ 2 ^ 31 ≤ ((100 : Stamp) - (108 - 6)).toNat) ∧
    record (p 0) = ⟨.h2, 0, none, .reached⟩ ∧
    ((4 : Word).toNat ≤ 255 ∧ (p 40).heads.h1.cues.find? (fun c => decide (c.id = (4 : Word).toNat)) = some (cue 4 50 .mark)) ∧
    ((7 : Word).toNat ≤ 255 ∧ (p 40).heads.h2.cues.find? (fun c => decide (c.id = (7 : Word).toNat)) = some (cue 7 40 .changeover)) ∧
    (3 : Word).toNat = 3 ∧ ((0 : Word).toNat ≤ 2 ∧ (2 : Word).toNat ≤ 2) ∧ ((100 : Stamp) - 99).toNat < 2 ^ 31 ∧
    ((p 40).modHead .h1 fun x => { x with drive := .fault }).heads.h1.drive = .fault ∧
    ((p 40).heads.h1.pos.frame = 0 ∧ (p 40).heads.h1.drive = .locked) ∧
    ((p 40).modHead .h2 fun x => { x with drive := .stopped }).heads.h2.drive.running = false := by decide

theorem witness_CancelAndAbortTake :
    let s (l : List Take) := isle fun x => { x with takes := l }
    let tags (p : Part) := (p.island .i1).active.map (·.tag)
    ((0 : Word).toNat = 0 ∧ 2 < (3 : Word).toNat) ∧
    (s []).mode = .running ∧ readIsland 2 = some .i2 ∧ ((s []).island .i1).authority = .remote ∧ ((s []).island .i1).active = none ∧
    ((isle fun x => { x with authority := .panel }).island .i1).authority = .panel ∧
    ((s [takeIn .armed, takeIn .queued]).island .i1).takes.any (fun t => t.state = .queued ∧ t.tag = 7) = true ∧
    ((s [takeIn .armed]).island .i1).takes.any (fun t => t.state = .queued ∧ t.tag = 7) = false ∧
    tags (s [takeIn .armed]) = some 7 ∧ tags (s []) ≠ some 7 ∧
    ((s [takeIn .committed]).island .i1).active.map (·.state) = some .committed ∧
    ((s [takeIn .held]).island .i1).active.map (·.state) = some .held ∧ ((s [takeIn .held]).island .i1).takes.length = 1 ∧
    ((isle fun x => { x with confirm := some toStandby }).island .i1).confirm.isSome = true := by decide

/-- The hypotheses of its clause on what follows ABORT_TAKE: behind the active take one to the source on air, one to a head in
FAULT, and one to a head at rest, its SOP cue in the table. -/
theorem witness_CancelAndAbortTake_next :
    let bound (h : HeadId) : Take := { takeIn .queued with incoming := .head h }
    let p := ((isle fun x => { x with onAir := .standby, takes := [headTake .armed, takeIn .queued, bound .h2, bound .h3] }).modHead .h2
      fun x => { x with drive := .fault }).modHead .h3 fun x => { x with cues := [cue 4 30 .sop] }
    let x := p.island .i1
    x.confirm = none ∧ x.active.map (·.state) = some .armed ∧ (∀ u ∈ x.takes.tail, u.state = .queued) ∧
    (takeIn .queued).incoming = x.onAir ∧ (p.head .h2).drive = .fault ∧ (p.head .h3).drive.atRest = true ∧
    (p.cueFor .sop none (.head .h3)).map (·.id) = some 4 ∧ p.hears .i1 := by
  refine ⟨rfl, by decide, by decide, by decide, by decide, by decide, by decide, ⟨rfl, rfl⟩, by decide⟩

theorem witness_StandbyCommand :
    run.mode = .running ∧ (0 : Word).toNat = 0 ∧ 2 < (3 : Word).toNat ∧ readIsland 1 = some .i1 ∧ readIsland 2 = some .i2 ∧
    run.link.sound = true ∧ ((isle fun x => { x with takes := [takeIn .armed] }).island .i1).active.isSome = true := by decide

theorem witness_StartFieldStartsTheHead :
    let s := { (isle fun x => { x with takes := [{ headTake .armed with fStart := some 50 }] }) with
      ref := { run.ref with count := 50 } }
    let t := { headTake .armed with fStart := some (50 : Stamp) }
    s.mode = .running ∧ (s.island .i1).active = some t ∧ t.fStart = some 50 ∧ t.head? = some .h1 ∧ t.state = .armed ∧
    t.preroll = .auto ∧ t.effective ≠ .now ∧ (s.head .h1).drive.atRest = true ∧ (s.ref.count - 50).toNat < 2 ^ 31 ∧
    t.cut = none ∧ (let r : Pred := ⟨.h2, 40, some 90, .exact⟩
      { t with cut := some r }.cut = some r ∧ r.head ≠ .h1 ∧ r.value.isSome = true) := by decide

theorem witness_CommitFieldDecides :
    let t (z : TakeState) (c : Option CueRef) (e : Option Int) : Take :=
      { headTake z with commitAt := some 50, fCut := some 56, sopCue := c, error := e }
    let s (t : Take) := { (isle fun x => { x with takes := [t] }) with ref := { run.ref with count := 50 } }
    let sop := some (⟨1, 9⟩ : CueRef)
    (s (t .ready none none)).mode = .running ∧ ((s (t .ready none none)).island .i1).confirm = none ∧
    ((s (t .ready none none)).island .i1).active = some (t .ready none none) ∧ ((50 : Stamp) - 50).toNat < 2 ^ 31 ∧
    ((s (t .held none none)).island .i1).active = some (t .held none none) ∧
    (((s (t .ready sop (some 2))).island .i1).active = some (t .ready sop (some 2)) ∧ (2 : Int).natAbs ≤ 2 ∧
      ((s (t .ready sop (some 2))).island .i1).settings.tolerance = 2) ∧
    (((s (t .ready sop (some (-3)))).island .i1).active = some (t .ready sop (some (-3))) ∧ (-3 : Int) < -2) ∧
    (let late := (s (t .starting none none)).modHead .h1 fun x => { x with drive := .locked }
     let late := { late with ref := { late.ref with count := 51 } }
     ((late.island .i1).active = some (t .starting none none) ∧ (50 : Stamp) ≠ late.ref.count ∧ (late.head .h1).drive = .locked ∧
      (t .starting none none).sop = none ∧ (t .starting none none).incoming ≠ .unknown ∧
      ((51 : Stamp) - 50).toNat < 2 ^ 31)) ∧
    (((s (t .armed none none)).island .i1).active = some (t .armed none none) ∧
      ((s (t .armed none none)).head .h1).drive ≠ .locked ∧ ((s (t .armed none none)).head .h1).drive.atRest = true) := by
  decide

/-- F_sop − M at count 50 with a lead of 6: still to come for 59, reached for 56. -/
theorem witness_CommitFieldDecides_fields :
    2 ^ 31 ≤ ((50 : Stamp) - (59 - 6)).toNat ∧ ((50 : Stamp) - (56 - 6)).toNat < 2 ^ 31 := by decide

/-- A take of head 1 at its commit field 50, its cut at 56, with a SOP cue. -/
def deciding (z : TakeState) (r : Pred) (e : Option Int) : Take :=
  { headTake z with commitAt := some 50, fCut := some 56, sopCue := some ⟨1, 9⟩, sop := some r, error := e }

/-- A part at field 50 with that take in front, its head LOCKED. -/
def atCommit (t : Take) : Part :=
  ({ (isle fun x => { x with takes := [t] }) with ref := { run.ref with count := 50 } } : Part).modHead .h1
    fun x => { x with drive := .locked }

/-- The hypotheses of the clauses on a take that is HELD with a LOCKED head, and on one whose F_sop is REACHED. -/
theorem witness_CommitFieldDecides_held (t : Take) :
    (atCommit t).mode = .running ∧ ((atCommit t).island .i1).confirm = none ∧ (atCommit t).ref.count = 50 ∧
    ((atCommit t).head .h1).drive = .locked ∧ ((atCommit t).island .i1).settings.tolerance = 2 ∧
    ((atCommit t).island .i1).settings.lead = 6 ∧ (2 : Int) < 3 := by
  exact ⟨rfl, rfl, rfl, rfl, rfl, rfl, by decide⟩

theorem witness_CommitFieldDecides_takes (v : Option Stamp) :
    let late : Take := deciding .ready ⟨.h1, 9, some 59, .exact⟩ (some 3)
    let soon : Take := deciding .starting ⟨.h1, 9, some 56, .exact⟩ (some 0)
    let passed : Take := deciding .ready ⟨.h1, 9, v, .reached⟩ none
    let held : Take := { deciding .held ⟨.h1, 9, some 59, .exact⟩ none with heldCut := some 40 }
    ((atCommit late).island .i1).active = some late ∧ ((atCommit soon).island .i1).active = some soon ∧
    ((atCommit passed).island .i1).active = some passed ∧ ((atCommit held).island .i1).active = some held := by
  exact ⟨rfl, rfl, rfl, rfl⟩

/-- The same reached a field late, at 51: the cut is 57, and an exact F_sop of 59, 54 or 60 lies 2 after it, 3 before it or 3
after it, for a tolerance of 2; and a SOP cue REACHED, with the field and without. -/
theorem witness_CommitFieldDecides_late :
    let late (t : Take) : Part := { atCommit t with ref := { run.ref with count := 51 } }
    let t (z : TakeState) (v : Stamp) : Take := deciding z ⟨.h1, 9, some v, .exact⟩ (some 3)
    let passed (v : Option Stamp) : Take := deciding .ready ⟨.h1, 9, v, .reached⟩ none
    (50 : Stamp) ≠ (late (t .ready 59)).ref.count ∧ ((51 : Stamp) - 50).toNat < 2 ^ 31 ∧
    ((late (t .ready 59)).island .i1).active = some (t .ready 59) ∧
    ((late (t .starting 60)).island .i1).active = some (t .starting 60) ∧ ((late (t .ready 59)).head .h1).drive = .locked ∧
    (t .ready 59).sopCue.isSome = true ∧ (51 : Stamp) + BitVec.ofNat 32 6 = 57 ∧
    ((((59 : Stamp) - 57).toInt.natAbs ≤ 2) ∧ ((54 : Stamp) - 57).toInt < -2 ∧ 2 < ((60 : Stamp) - 57).toInt) ∧
    ((late (passed (some 55))).island .i1).active = some (passed (some 55)) ∧
    ((late (passed none)).island .i1).active = some (passed none) := by decide

theorem witness_EndGuardCommitsStandby :
    let s (n : Stamp) (l : List Take) := { (isle fun x => { x with
      onAir := .head .h1, fEnd := some ⟨.h1, 9, some 56, .exact⟩, takes := l }) with ref := { run.ref with count := n } }
    (s 50 []).mode = .running ∧ ((s 50 []).island .i1).confirm = none ∧
    ((s 50 []).island .i1).fEnd.bind (·.value) = some 56 ∧ (∃ h, ((s 50 []).island .i1).onAir = .head h) ∧
    ((50 : Stamp) - (56 - BitVec.ofNat 32 6)).toNat < 2 ^ 31 ∧ ((51 : Stamp) - (56 - BitVec.ofNat 32 6)).toNat < 2 ^ 31 ∧
    ((s 51 [headTake .held]).island .i1).active.map (·.state) = some .held :=
  ⟨rfl, rfl, rfl, ⟨.h1, rfl⟩, by decide, by decide, rfl⟩

theorem witness_MoveDeadlineFails :
    let s (c : Confirmation) (l : List Take) :=
      { (isle fun x => { x with confirm := some c, takes := l }) with ref := { run.ref with count := 10 } }
    let taken : Confirmation := { toStandby with owner := .take }
    (s toStandby []).mode = .running ∧ ((s toStandby []).island .i1).confirm = some toStandby ∧ run.alarms.sound = true ∧
    ((10 : Stamp) - toStandby.deadline).toNat < 2 ^ 31 ∧ toStandby.target = .standby ∧ ((s toStandby []).island .i1).takes = [] ∧
    ((s taken [takeIn .committed]).island .i1).confirm = some taken ∧ taken.owner = .take ∧
    ((s taken [takeIn .committed]).island .i1).active.isSome = true ∧
    ((s taken [takeIn .committed]).island .i1).takes.length = 1 ∧
    (((s toStandby [takeIn .ready]).island .i1).takes ≠ [] ∧ toStandby.owner ≠ .take) := by decide

/-- The hypotheses of its clauses on the takes that follow: a take that owns the move with one QUEUED behind it; and behind a move
of the island a front take QUEUED, ARMED and HELD, the head of the first at rest. -/
theorem witness_MoveDeadlineFails_takes :
    let p (c : Confirmation) (l : List Take) :=
      { (isle fun x => { x with confirm := some c, takes := l }) with ref := { run.ref with count := 10 } }
    let taken : Confirmation := { toStandby with owner := .take }
    let own := p taken [takeIn .committed, headTake .queued]
    let front (z : TakeState) := p toStandby [headTake z, takeIn .queued]
    ((own.island .i1).active.map (·.state) = some .committed ∧ (own.island .i1).takes.tail.map (·.state) = [.queued] ∧
      (own.head .h1).drive.atRest = true) ∧
    [TakeState.queued, .armed, .held].map (fun z => ((front z).island .i1).takes.map (·.state)) =
      [[.queued, .queued], [.armed, .queued], [.held, .queued]] ∧
    (headTake .armed).incoming ≠ .unknown ∧ own.hears .i1 := by
  refine ⟨by decide, by decide, by decide, ⟨rfl, rfl⟩, by decide⟩

theorem witness_LinkTimers :
    let sending := linked fun k => { k with line := .sending, transmit := true, sending := message 1 2 0 0xFD, flight := some { entry := ⟨.i1, .poll⟩, tries := 1, sentTo := 1, orphan := false } }
    let gone (n : Nat) := (elapse n sending).time
    let move (k : LinkUnit) := k.flight.map fun f => (f.entry.isMove, f.tries)
    let gap := linked fun k => { k with line := .gap, queue := [⟨.i1, .poll⟩] }
    let zero := linked fun k => { k with stations := k.stations.set .i1 { k.stations.i1 with countdown := 0 } }
    sending.mode = .running ∧ sending.link.line = .sending ∧ (sending.link.transmit = true ∧ run.link.transmit = false) ∧
    (sending.link.sending[((gone 2291).crystal - 0) * sending.link.settings.rate.baud / 4000000 / 11]?).isSome = true ∧
    4 * 11 * 4000000 ≤ ((gone 2292).crystal - 0) * sending.link.settings.rate.baud ∧
    ¬ 4 * 11 * 4000000 ≤ ((gone 2291).crystal - 0) * sending.link.settings.rate.baud ∧
    ((linked polling).link.flight.map (·.orphan) = some false ∧ (linked polling).link.line = .awaiting ∧
      (linked polling).link.timer + (linked polling).link.settings.timeout * 1000 ≤ (elapse 20000 (linked polling)).time.now) ∧
    move (linked sentMove).link = some (true, 1) ∧
    (gap.link.line = .gap ∧ gap.link.settings.gap * 11 * 4000000 ≤
      ((elapse 1146 gap).time.crystal - gap.link.since) * gap.link.settings.rate.baud ∧
      gap.link.queue.head? = some ⟨.i1, .poll⟩ ∧ gap.link.flight = none) ∧
    ((zero.link.stations.get .i1).fast = false ∧ (zero.link.stations.get .i1).countdown = 0) ∧
    (zero.link.line = .idle ∧ zero.link.queue = [] ∧ zero.link.flight = none ∧ (zero.link.stations.get .i2).due = false ∧
      zero.link.settings.interval ≠ 0) ∧
    (let both := linked fun k => { k with stations := k.stations.map fun s => { s with countdown := 0 } }
     (both.link.stations.get .i2).countdown = 0 ∧ (both.link.stations.get .i1).countdown = 0 ∧
       (both.link.stations.get .i1).due = false) ∧
    (let due := linked fun k => { k with stations := ⟨{ k.stations.i1 with countdown := 0 }, { k.stations.i2 with due := true }⟩ }
     (due.link.stations.get .i1).countdown = 0 ∧ (due.link.stations.get .i2).due = true) := by decide

/-- The hypotheses of the clauses on MOVE_LATE: a MOVE asked one field ago and one asked now; and a MOVE between its
transactions. -/
theorem witness_LinkTimers_late :
    let gap (asked : Stamp) : Part := { (linked fun k => { k with line := .gap, queue := [⟨.i1, .move .p4 asked⟩] }) with
      ref := { run.ref with count := 5 }, evt := { run.evt with writing := true } }
    let again := linked fun k => { sentMove k with line := .gap }
    (gap 4).link.line = .gap ∧ (gap 4).link.queue.head? = some ⟨.i1, .move .p4 4⟩ ∧ (gap 4).link.flight = none ∧
    (gap 4).evt.writing = true ∧ (gap 4).evt.queue.length ≤ 15 ∧ (gap 4).ref.count = 5 ∧
    (1 ≤ ((5 : Stamp) - 4).toNat ∧ ((5 : Stamp) - 4).toNat < 2 ^ 31) ∧ ¬ 1 ≤ ((5 : Stamp) - 5).toNat ∧
    again.link.line = .gap ∧ (again.link.flight.map fun f => (f.orphan, f.tries)) = some (false, 1) := by decide

/-- A station two misses down and not OFFLINE, and one that is; an entry in flight that is no longer counted. -/
theorem witness_LinkTimers_misses :
    let p (o : Online) := linked fun k => { polling k with stations := k.stations.set .i1 { k.stations.i1 with misses := 2, online := o } }
    let orphan := linked fun k => { polling k with flight := (polling k).flight.map fun f => { f with orphan := true } }
    ((p .online).link.stations.get .i1).online ≠ .offline ∧ 3 ≤ min 255 (((p .online).link.stations.get .i1).misses + 1) ∧
    ((p .offline).link.stations.get .i1).online = .offline ∧ min 255 ((run.link.stations.get .i1).misses + 1) < 3 ∧
    (orphan.link.flight.map fun f => (f.orphan, f.tries)) = some (true, 1) ∧ orphan.link.line = .awaiting := by decide

/-- Which messages are good, worked by hand: 81 83 04 F8, 81 81 04 FA, 81 82 07 F6 and the REFUSE of any other reason add up to 0
from station 1; another sum, another address, another port, a port of 0 or 5, and a reply to the other request do not do. -/
theorem witness_RepliesAreJudged_good :
    let sum (m : List Byte) := m.foldl (· + ·) 0
    sum [0x81, 0x83, 0x04, 0xF8] = 0 ∧ sum [0x81, 0x83, 0x03, 0xF9] = 0 ∧ sum [0x81, 0x81, 0x04, 0xFA] = 0 ∧
    sum [0x81, 0x82, 0x07, 0xF6] = 0 ∧ sum [0x81, 0x82, 0xFF, 0xFE] = 0 ∧ sum [0x81, 0x83, 0x44, 0xB8] = 0 ∧
    sum [0x81, 0x83, 0x84, 0x78] = 0 ∧ sum [0x81, 0x83, 0x04, 0xF9] ≠ 0 ∧ (0x81 : Byte).toNat = 128 + 1 % 16 ∧
    (0x82 : Byte).toNat ≠ 128 + 1 % 16 ∧ sum [0x82, 0x83, 0x04, 0xF7] = 0 ∧
    ((0x05 : Byte).toNat % 8 = 5 ∧ (0x08 : Byte).toNat % 8 = 0 ∧ (0x44 : Byte).toNat % 8 = 4) ∧
    ((0x44 : Byte).getLsbD 6 = true ∧ (0x84 : Byte).getLsbD 7 = true ∧ (0x04 : Byte).getLsbD 6 = false) ∧
    (0x04 : Byte).toNat = Port.p4.num ∧ (0x03 : Byte).toNat ≠ Port.p4.num ∧
    (message 0x81 0x83 0x04 0xF8).map (·.address) = [true, false, false, false] := by decide

theorem witness_RepliesAreJudged :
    let s := (linked polling).modIsland .i1 fun x => { x with confirm := some toStandby }
    let u := (linked sentMove).modIsland .i1 fun x => { x with confirm := some toStandby }
    let calm := (linked polling).modIsland .i1 fun x => { x with onAir := .standby, mirror := .atPort .p4 }
    let headed := calm.modHead .h1 fun x => { x with assigned := some ⟨.i1, .p3⟩ }
    let orphan := linked fun k => { polling k with flight := (polling k).flight.map fun f => { f with orphan := true } }
    let silent := raiseAlarm (.island .i1) .stationOffline 0 0
      (linked fun k => { polling k with stations := k.stations.set .i1 { k.stations.i1 with online := .offline } })
    let sent (p : Part) := p.link.flight.map fun f => (f.entry.island, f.entry.request, f.sentTo, f.orphan)
    let toHead : Confirmation := { toStandby with target := .head .h1, port := .p1, owner := .take }
    let moved := ((linked polling).modIsland .i1 fun x => { x with confirm := some toHead, takes := [headTake .committed] }).modHead .h1
      fun x => { x with drive := .locked }
    s.mode = .running ∧ run.link.line ≠ .awaiting ∧ s.link.line = .awaiting ∧ s.alarms.sound = true ∧
    (s.link.timer + s.link.settings.timeout * 1000 < s.time.now + 20001 ∧
      s.time.now + 20000 ≤ s.link.timer + s.link.settings.timeout * 1000) ∧
    sent s = some (.i1, .poll, 1, false) ∧ sent u = some (.i1, .move .p4 0, 1, false) ∧ sent orphan = some (.i1, .poll, 1, true) ∧
    (s.island .i1).confirm = some toStandby ∧ toStandby.port = .p4 ∧ toStandby.target = .standby ∧
    ((calm.island .i1).confirm = none ∧ (calm.island .i1).onAir ≠ .unknown ∧ (calm.island .i1).mirror = .atPort .p4) ∧
    ((headed.head .h1).assigned = some ⟨.i1, .p3⟩ ∧ ∀ n, n ≠ HeadId.h1 → (headed.head n).assigned ≠ some ⟨.i1, .p3⟩) ∧
    ((∀ h, (calm.head h).assigned ≠ some ⟨.i1, .p3⟩) ∧ (calm.island .i1).settings.standbyPort = .p4) ∧
    (u.island .i1).confirm.map (·.port) = some .p4 ∧
    ((silent.link.stations.get .i1).online = .offline ∧ silent.alarms.sound = true ∧ sent silent = some (.i1, .poll, 1, false)) ∧
    ((moved.island .i1).confirm = some toHead ∧ (moved.head .h1).drive = .locked ∧
      (moved.analog.lamp.get .h1).condition ≠ some .lampFail) := by
  refine ⟨rfl, by decide, rfl, by decide, by decide, rfl, rfl, rfl, rfl, rfl, rfl, by decide, ⟨rfl, fun n hn => ?_⟩,
    ⟨fun h => ?_, rfl⟩, rfl, by decide, by decide⟩
  · cases n
    · exact absurd rfl hn
    all_goals decide
  · cases h <;> decide

/-- The hypotheses of its clauses on the takes that follow: a confirmed take with one behind it, its head running with its lamp and
no END cue, so that no guard follows; an ARMED take on a report with no move awaiting; and a refused move to STANDBY. -/
theorem witness_RepliesAreJudged_takes :
    let toHead : Confirmation := { toStandby with target := .head .h1, port := .p1, owner := .take }
    let own := ((linked polling).modIsland .i1 fun x =>
      { x with confirm := some toHead, takes := [headTake .committed, takeIn .queued] }).modHead .h1 fun x => { x with drive := .locked }
    let report := (linked polling).modIsland .i1 fun x =>
      { x with onAir := .standby, mirror := .atPort .p4, takes := [headTake .armed, takeIn .queued] }
    let refused := (linked sentMove).modIsland .i1 fun x => { x with confirm := some toStandby }
    ((own.head .h1).drive.running = true ∧ (own.analog.lamp.get .h1).condition ≠ some .lampFail ∧
      own.cueFor .ending none (.head .h1) = none ∧ (own.island .i1).active.map (·.state) = some .committed ∧
      (own.island .i1).takes.tail.map (·.state) = [.queued]) ∧
    ((report.island .i1).confirm = none ∧ (report.island .i1).active.map (·.state) = some .armed) ∧
    ((refused.island .i1).confirm.map (fun c => (c.target, c.port)) = some (.standby, .p4) ∧ refused.alarms.sound = true) := by
  decide

theorem witness_ConversionsAreJudged :
    let at' (n : Nat) (c : Channel) : Part := { run with analog := { run.analog with next := n, reference := c } }
    let out : Channel := { Channel.reset .reference with outCount := 2 }
    let present : Channel := { Channel.reset .reference with condition := some .analogRef, inCount := 2 }
    let wound := (at' 2 (.reset .reference)).modHead .h1 fun x => { x with drive := .runup }
    run.mode = .running ∧ run.analog.begun + run.analog.period * 1000 ≤ run.time.now + 10000 ∧
    run.analog.begun + 100 * (0 + 1) ≤ run.time.now + 100 ∧ channelOfNat 0 = some .reference ∧
    channelOfNat 8 = some (.tension .h4) ∧ (at' 1 present).analog.reference.condition.isSome = true ∧
    (at' 0 out).analog.reference.condition = none ∧ (at' 0 out).analog.reference.frozen = false ∧
    (479 < out.limits.low ∧ 2 + 1 = out.limits.debounce) ∧ (¬ (480 < out.limits.low) ∧ ¬ (out.limits.high < 544) ∧
      out.limits.high < 545) ∧ (present.inCount + 1 = present.limits.debounce) ∧
    (elapse 300 run).channelMode (.tension .h1) = some .idle ∧
    (let frozen : Channel := { Channel.reset .lamp with condition := some .lampFail, mode := some .lampOn, frozen := true }
     (elapse 200 run).channelMode (.lamp .h1) = some .lampOff ∧ frozen.mode ≠ some .lampOff ∧ frozen.condition = some .lampFail) ∧
    (elapse 300 wound).channelMode (.tension .h1) = some .driven ∧
    (let lit := (at' 1 (.reset .reference)).modHead .h1 fun x => { x with outputs := { x.outputs with lamp := true } }
     let failing : Channel := { Channel.reset .lamp with outCount := 2, mode := some .lampOn }
     (elapse 200 lit).channelMode (.lamp .h1) = some .lampOn ∧ 199 < failing.limits.low ∧
     failing.outCount + 1 = failing.limits.debounce ∧ failing.condition = none ∧ failing.frozen = false) := by decide

/-- The five judging modes, at both sides of the lamp settle of 500 ms; and the hypotheses of the clauses on the LAMP output and
on the entry into IDLE: a lamp condition tied to each output, a lamp lit as the gap expires, a STOP from the driven states. -/
theorem witness_ConversionsAreJudged_modes :
    let lit := one fun x => { x with outputs := { x.outputs with lamp := true }, lampOnAt := some 0 }
    let settle := run.heads.h1.settings.lampSettle * 1000
    let cond (k : Condition) (p : Part) : Part :=
      { p with analog := p.analog.setChannel (.lamp .h1) { p.analog.lamp.h1 with condition := some k } }
    let driven := lit.modHead .h1 fun x => { x with drive := .runup, gapFrom := some 0 }
    (run.heads.h1.outputs.lamp = false ∧ lit.heads.h1.outputs.lamp = true) ∧
    (0 + settle ≤ settle ∧ ¬ 0 + settle ≤ settle - 1) ∧
    (driven.heads.h1.drive = .runup ∧ run.heads.h1.drive = .stopped ∧ run.analog.tension.h1.condition = none) ∧
    ((cond .lampFail lit).analog.lamp.h1.condition = some .lampFail ∧ (cond .lampStuck run).analog.lamp.h1.condition = some .lampStuck) ∧
    (readHead 1 = some .h1 ∧ readFlag 0 = some false ∧ readFlag 1 = some true ∧ run.analog.reference.condition = none ∧
      run.alarms.sound = true) ∧
    (run.heads.h1.drive.atRest = true ∧ run.heads.h1.lampPolicy = .auto ∧ run.headLocal .h1 = false) ∧
    (driven.heads.h1.gapFrom = some 0 ∧ driven.heads.h1.outputs.lamp = true ∧
      0 + driven.heads.h1.settings.startResponse * 1000 ≤ driven.time.now + 1000000) ∧
    driven.heads.h1.drive.running = true := by decide

theorem witness_DeviceCommands :
    run.mode = .running ∧ 8 < (9 : Word).toNat ∧ channelOfNat (8 : Word).toNat = some (.tension .h4) ∧
    min 1023 (600 : Word).toNat < min 1023 (2000 : Word).toNat ∧ min 1023 (1024 : Word).toNat ≤ min 1023 (1023 : Word).toNat ∧
    1 < (2 : Word).toNat ∧ (1 : Word).toNat ≤ 1 ∧ (127 : Word).toNat ≤ 127 ∧ ¬ (128 : Word).toNat ≤ 127 := by decide

theorem witness_AckAlarmsCommand :
    let p := raiseAlarm .device .memoryFault 0 0 (raiseAlarm .reference .refLoss 0 0 run)
    p.mode = .running ∧ (8 < (9 : Word).toNat ∧ (9 : Word) ≠ 255) ∧ readScope 8 = some (some .analog) ∧ readScope 255 = some none ∧
    p.alarms.sound = true ∧ p.alarms.entries.map (·.state) = [.activeNew, .clearedNew] := by decide

/-- A full table of twenty-four entries of heads and islands, the first in a given state, the others ACTIVE_NEW. -/
def fullTable (first : EntryState) : AlarmTable :=
  let kinds : List AlarmKind := [.tachLoss, .filmBreak, .jam, .lampFail, .slowStart]
  let all := HeadId.list.flatMap fun h => kinds.map fun k => (AlarmSource.head h, k)
  let rest := [(AlarmSource.island .i1, AlarmKind.mirrorFault), (.island .i2, .mirrorFault), (.reference, .refLoss)]
  let entry := fun (z : EntryState) (x : AlarmSource × AlarmKind) => (⟨x.1, x.2, z, 0⟩ : AlarmEntry)
  { AlarmTable.reset with entries := entry first (.head .h1, .lampStuck) :: (all ++ rest).map (entry .activeNew) }

theorem witness_FullTableMakesRoom :
    (fullTable .clearedNew).sound = true ∧ (fullTable .clearedNew).entries.length = 24 ∧
    (fullTable .clearedNew).find? .device .memoryFault = none ∧
    ((fullTable .clearedNew).entries.find? fun e => e.state = .clearedNew).isSome = true ∧
    ((fullTable .activeAck).entries.find? fun e => e.state = .activeAck ∧ e.kind.severity = .warning).isSome = true ∧
    ((fullTable .activeAck).entries.find? fun e => e.state = .clearedNew) = none ∧ (fullTable .activeNew).sound = true ∧
    ((fullTable .activeNew).entries.find? fun e => e.state = .clearedNew) = none ∧
    ((fullTable .activeNew).entries.find? fun e => e.state = .activeAck ∧ e.kind.severity = .warning) = none ∧
    (let p := { run with alarms := fullTable .clearedNew, evt := { run.evt with writing := true } }
     p.evt.writing = true ∧ p.evt.queue.length ≤ 14) := by decide

theorem witness_DwellEndSamplesTheRow :
    let keys (k : RowKeys) (r : Fin 8) (a : Authority) : Part :=
      { (isle fun x => { x with authority := a }) with panel := { run.panel with row := r, keys := run.panel.keys.set r k } }
    let now : KeyPos := ⟨false, 2⟩
    run.mode ≠ .loading ∧ run.panel.begun + (run.panel.dwellNow + 1) * 32 ≤ run.time.now + 1024 ∧
    (now.sample true = ⟨true, 0⟩ ∧ ((⟨false, 1⟩ : KeyPos).sample true).down = false) ∧
    ((keys ⟨.up, .up, .up, now⟩ 1 .remote).panel.keys[(1 : Fin 8)]).pressed ((RowKeys.sample 8 ⟨.up, .up, .up, now⟩)) = [4] ∧
    ((keys ⟨now, .up, .up, .up⟩ 5 .remote).panel.keys[(5 : Fin 8)]).pressed ((RowKeys.sample 1 ⟨now, .up, .up, .up⟩)) = [1] ∧
    (keys ⟨now, .up, .up, .up⟩ 0 .remote).headLocal .h1 = false ∧ run.alarms.sound = true ∧
    (keys ⟨.up, .up, .up, now⟩ 3 .panel).panel.row.val = 3 ∧ 5 % 8 + 1 = 6 ∧ run.alarms.entries.length ≤ 15 ∧
    ((keys ⟨now, .up, .up, .up⟩ 0 .remote).panel.row.val + 2 = 2 * HeadId.h1.num) := by decide

theorem witness_PanelShowsThePart :
    let at' (r : Fin 8) : Part := { run with panel := { run.panel with row := r } }
    run.mode ≠ .loading ∧ run.panel.begun + (run.panel.dwellNow + 1) * 32 ≤ run.time.now + 1024 ∧
    (run.panel.keys[run.panel.row].pressed (run.panel.keys[run.panel.row].sample 15) = []) ∧
    ({ run with mode := .transparent } : Part).mode = .transparent ∧
    ((at' 7).panel.row + 1).val + 2 = 2 * HeadId.h1.num ∧ ((at' 6).panel.row + 1).val + 1 = 2 * HeadId.h4.num ∧
    ((at' 0).panel.row + 1).val = 1 ∧ ((at' 4).panel.row + 1).val = 5 := by decide

theorem witness_PanelKeysAct :
    let keys (k : RowKeys) (r : Fin 8) (p : Part) : Part := { p with panel := { p.panel with row := r, keys := p.panel.keys.set r k } }
    let now : KeyPos := ⟨false, 2⟩
    let own (f : Island → Island) : Part := isle fun x => { f x with authority := .panel }
    let headed (p : Part) : Part := p.modHead .h1 fun x => { x with assigned := some ⟨.i1, .p1⟩, cues := [cue 1 30 .sop] }
    let presses (p : Part) (l : BitVec 4) := p.panel.keys[p.panel.row].pressed (p.panel.keys[p.panel.row].sample l)
    let first := keys ⟨now, .up, .up, .up⟩ 1 (headed (own id))
    let take := keys ⟨.up, now, .up, .up⟩ 1 (own id)
    let cueKey := keys ⟨.up, .up, now, .up⟩ 0 (headed (own id))
    run.mode = .running ∧ run.panel.begun + (run.panel.dwellNow + 1) * 32 ≤ run.time.now + 1024 ∧
    (first.panel.row.val = 1 ∧ (first.island .i1).authority = .panel ∧ presses first 1 = [1] ∧
      (first.head .h1).assigned = some ⟨.i1, .p1⟩ ∧ (first.island .i1).preset = .standby) ∧
    (presses take 2 = [2] ∧ (take.island .i1).preset ≠ (take.island .i1).onAir ∧ (take.island .i1).takes.length < 6 ∧
      (take.island .i1).takes = [] ∧ (take.island .i1).confirm = none ∧ (take.island .i1).preset = .standby) ∧
    (6 ≤ ((own fun x => { x with takes := List.replicate 6 (takeIn .queued) }).island .i1).takes.length) ∧
    ((own fun x => { x with onAir := .standby }).island .i1).preset = ((own fun x => { x with onAir := .standby }).island .i1).onAir ∧
    ((own fun x => { x with takes := [takeIn .armed] }).island .i1).takes ≠ [] ∧
    ((headed (own fun x => { x with preset := .head .h1 })).island .i1).preset = .head .h1 ∧
    presses (keys ⟨.up, .up, now, .up⟩ 3 run) 4 = [3] ∧
    (cueKey.panel.row.val + 2 = 2 * HeadId.h1.num ∧ cueKey.headLocal .h1 = true ∧ presses cueKey 4 = [3] ∧
      (cueKey.head .h1).drive.atRest = true ∧ (cueKey.head .h1).cuesSound = true ∧
      (cueKey.head .h1).cues.find? (fun c => decide (c.kind = .sop) && !c.passed) = some (cue 1 30 .sop) ∧
      (30 : Int) - (cueKey.head .h1).settings.runupDistance = 6) ∧
    ((own id).head .h1).cues = [] ∧ (cueKey.modHead .h1 fun x => { x with drive := .locked }).heads.h1.drive.running = true := by
  decide

/-- The hypotheses of its clauses on presses that are refused or do nothing: TAKE in REMOTE; START and CUE of a head that is
cueing, in FAULT or running; CUE to a target a frame below the range and one on it. -/
theorem witness_PanelKeysAct_refused :
    let now : KeyPos := ⟨false, 2⟩
    let at' (r : Fin 8) (k : RowKeys) (d : DriveState) (f : Int) : Part :=
      let p := (isle fun x => { x with authority := .panel }).modHead .h1 fun x =>
        { x with assigned := some ⟨.i1, .p1⟩, drive := d, cues := [{ cue 1 f .sop with passed := decide (f ≤ 0) }] }
      { p with panel := { p.panel with row := r, keys := p.panel.keys.set r k } }
    let presses (p : Part) (l : BitVec 4) := p.panel.keys[p.panel.row].pressed (p.panel.keys[p.panel.row].sample l)
    let low (n : Int) (p : Part) := p.modHead .h1 fun x => { x with pos := ⟨-99999, 1⟩, cues := [cue 1 n .sop] }
    let remote := (at' 1 ⟨.up, now, .up, .up⟩ .stopped 9).modIsland .i1 fun x => { x with authority := .remote }
    (presses remote 2 = [2] ∧ (remote.island .i1).authority = .remote) ∧
    (presses (at' 0 ⟨now, .up, .up, .up⟩ .fault 9) 1 = [1] ∧ (at' 0 ⟨now, .up, .up, .up⟩ .fault 9).headLocal .h1 = true) ∧
    (DriveState.fault.atRest = false ∧ DriveState.cueFast.atRest = false ∧ DriveState.cueFast.running = false ∧
      DriveState.runup.running = true) ∧
    presses (at' 0 ⟨.up, .up, now, .up⟩ .cueFast 9) 4 = [3] ∧
    (let q (n : Int) := low n (at' 0 ⟨.up, .up, now, .up⟩ .stopped 9)
     (q (-99976)).heads.h1.cuesSound = true ∧ (q (-99976)).heads.h1.settings.runupDistance = 24 ∧
     (-99976 - 24 : Int) < -99999 ∧ (q (-99975)).heads.h1.cuesSound = true ∧ (-99975 - 24 : Int) = -99999 ∧
     ((q (-99975)).heads.h1.cues.find? fun c => decide (c.kind = .sop) && !c.passed).isSome = true) := by decide

/-- The hypotheses of its clauses on the STOP key, in each class of drive states. -/
theorem witness_PanelKeysAct_stop :
    let at' (d : DriveState) : Part :=
      let p := (isle fun x => { x with authority := .panel }).modHead .h1 fun x => { x with assigned := some ⟨.i1, .p1⟩, drive := d }
      { p with panel := { p.panel with row := 0, keys := p.panel.keys.set 0 ⟨.up, ⟨false, 2⟩, .up, .up⟩ } }
    let all : List DriveState := [.cueFast, .cueInch, .settling, .stopping, .stopped, .parked, .fault, .runup, .locked, .unlocked]
    all.map (fun d => (at' d).heads.h1.drive) = all ∧
    (at' .settling).panel.keys[(at' .settling).panel.row].pressed ((at' .settling).panel.keys[(at' .settling).panel.row].sample 2) =
      [2] ∧ (at' .settling).headLocal .h1 = true ∧ (at' .settling).panel.row.val + 2 = 2 * HeadId.h1.num ∧
    DriveState.cueInch.cueing = true := by decide

theorem witness_CyclesAndIndexWrites :
    let c : BusCycle := ⟨0x20000, true, 5, true, true⟩
    let held := { windowed with bus := { windowed.bus with holder := .processor c } }
    let next := { held with bus := { held.bus with waiting := some c } }
    let starved := { next with agent := { next.agent with jobs := [writeJob .consumerWrite 0 0], word := .ready 0, starved := true } }
    (next.bus.holder = .processor c ∧ next.bus.waiting = some c ∧ next.agent.starved = false ∧ next.portSound = true) ∧
    (starved.agent.starved = true ∧ starved.agent.word = .ready 0 ∧ starved.portSound = true) ∧
    windowed.portSound = true ∧ windowed.treat 0x20000 true = .pass ∧ windowed.bus.waiting = none ∧ windowed.bus.holder = .free ∧
    held.bus.holder = .processor c ∧ held.agent.word = .idle ∧ held.portSound = true ∧ windowed.mode = .running ∧
    windowed.treat (indexWord windowed.bus .command 0) true = .snooped .command ∧
    windowed.treat (indexWord windowed.bus .event 1) true = .snooped .event ∧
    (7 : Word).toNat < windowed.bus.ringSize .command ∧ ¬ ((8 : Word).toNat < windowed.bus.ringSize .command) ∧
    (windowed.init = .done ∧ windowed.cmd.fetch = .idle ∧ (7 : Word).toNat ≠ windowed.cmd.consumer) ∧
    ¬ ((0 : Word).toNat ≠ windowed.cmd.consumer) ∧ windowed.bus.violation = none ∧
    ((15 : Word).toNat < windowed.bus.ringSize .event ∧ ¬ (16 : Word).toNat < windowed.bus.ringSize .event) ∧
    (let noted := { windowed with bus := { windowed.bus with violation := some ⟨0, .guard, .withheld, false⟩ } }
     noted.bus.violation.isSome = true ∧ noted.treat (indexWord noted.bus .event 1) true = .snooped .event) ∧
    (let ready := { held with agent := { held.agent with jobs := [writeJob .consumerWrite 0 0], word := .ready 0 } }
     ready.bus.holder = .processor c ∧ ready.agent.word = .ready 0 ∧ ready.bus.waiting = none ∧ ready.portSound = true) := by
  decide

/-- The windows of `windowed` do not overlap: which of them hold an address at each end of a window, and offsets of its index
words. -/
theorem witness_CyclesAndIndexWrites_windows :
    let holding (a : Addr) := (windowed.bus.windows.filter fun v =>
      decide (v.base ≤ a.toNat) && decide (a.toNat < v.base + 2 ^ v.log2)).map (·.kind)
    holding 0xFFFF = [] ∧ holding 0x10000 = [.command] ∧ holding 0x10FFF = [.command] ∧ holding 0x11000 = [.event] ∧
    holding 0x12000 = [.live] ∧ holding 0x127FF = [.live] ∧ holding 0x12800 = [] ∧
    ((0x10003 - 0x10000) / 2 * 2 = 2 ∧ (0x11001 - 0x11000) / 2 * 2 = 0) ∧
    (windowed.bus.windows.find? fun v => decide (v.kind = .command)) = some ⟨0x10000, 12, .command, 8⟩ ∧
    (windowed.bus.windows.find? fun v => decide (v.kind = .event)) = some ⟨0x11000, 12, .event, 16⟩ := by decide

theorem witness_DecoderAnswers :
    let noted := { windowed with bus := { windowed.bus with violation := some ⟨0, .guard, .withheld, false⟩ } }
    windowed.mode = .running ∧ windowed.treat 0x12000 true = .withheld .live ∧
    windowed.treat (indexWord windowed.bus .command 1) true = .withheld .command ∧ windowed.bus.violation = none ∧
    noted.bus.violation.isSome = true ∧ (windowed.windowAt 0x12002).map (·.kind) = some .live ∧
    (windowed.windowAt 0x127FF).map (·.kind) = some .live ∧ (windowed.windowAt 0x12800).isNone = true ∧
    latchedLow 0 = true ∧ latchedLow 2 = false := by decide

/-- The optional pieces the live layout shows, present and absent. -/
theorem witness_DecoderAnswers_layout :
    let c : Cadence := { Cadence.reset with boundary := some 7, lastLength := some 3, lastRunup := some ⟨9, 5⟩ }
    let p := windowed.modHead .h1 fun x => { x with cadence := c, park := some ⟨5, ⟨5, 1⟩⟩, cues := [cue 255 (-99999) .mark] }
    let t : Take := { planned (.head .h1) .ready .auto with
      cut := some ⟨.h1, 9, some 7, .exact⟩, sop := some ⟨.h1, 8, none, .reached⟩, error := some (-9) }
    let q := p.modIsland .i1 fun x => { x with confirm := some toStandby, takes := [t], fEnd := some ⟨.h1, 9, some 7, .exact⟩ }
    let k : Station := { q.link.stations.i1 with refusal := some ⟨.p4, 7⟩ }
    let a := raiseAlarm .device .memoryFault 0 0 windowed
    (q.bus.windows[2]?).isSome = true ∧ q.bus.windows[3]? = none ∧ (q.bus.windows.map fun v => v.ring) = [8 * 2 ^ 0, 16 * 2 ^ 0, 0] ∧
    (q.head .h1).cadence.boundary = some 7 ∧ (q.head .h1).cadence.lastLength = some 3 ∧
    ((q.head .h1).cadence.lastRunup.map fun v => decide (0 ≤ v.fields ∧ 0 ≤ v.frames)) = some true ∧
    (q.head .h1).park.isSome = true ∧ (q.head .h1).cues[0]? = some (cue 255 (-99999) .mark) ∧ (q.island .i1).confirm = some toStandby ∧
    (q.island .i1).takes[0]? = some t ∧ (q.island .i1).active.bind (·.error) = some (-9) ∧
    ((q.island .i1).active.bind (·.cut)).map (·.frame) = some 9 ∧ ((q.island .i1).active.bind (·.sop)).map (·.frame) = some 8 ∧
    (q.island .i1).fEnd.map (·.frame) = some 9 ∧ k.refusal.isSome = true ∧
    (a.alarms.entries[0]?).isSome = true ∧ a.alarms.entries[1]? = none := by decide

theorem witness_AgentWordsDoTheJobs :
    let p (f : FetchState) (j : Job) (n : Nat) (w : WordState) : Part := { windowed with
      bus := { windowed.bus with holder := if w = .active 0 then .agent else .processor ⟨0x20000, false, 0, true, true⟩ }
      cmd := { windowed.cmd with fetch := f, producer := 1 }
      evt := { windowed.evt with writing := decide (f = .idle) }
      agent := { windowed.agent with jobs := [j], done := n, word := w } }
    let fetch := readJob .commandFetch 0x10010 15
    let answer := writeJob .statusWrite 0x1002E 0
    let event : Job := ⟨.eventWrite, 0x11010, 0, List.replicate 8 0⟩
    let good (q : Part) := q.mode = .running ∧ q.init = .done ∧ q.ringsSound = true ∧ q.agent.jobs.head?.isSome = true
    good (p .fetching fetch 13 (.active 0)) ∧ good (p .fetching fetch 14 (.active 0)) ∧
    good (p .completing answer 0 (.active 0)) ∧ good (p .completing (writeJob .consumerWrite 0x10002 0) 0 (.active 0)) ∧
    good (p .idle (writeJob .producerWrite 0x11000 0) 0 (.active 0)) ∧ fetch.data = [] ∧
    ((windowed.evt.producer + 1) % windowed.bus.ringSize .event ≠ windowed.evt.consumer) ∧ good (p .idle event 7 (.active 0)) ∧ good (p .fetching fetch 0 (.ready 0)) ∧
    (p .fetching fetch 14 (.active 0)).agent.onPort = true ∧ fetch.words = 15 ∧ answer.words = 1 ∧ event.words = 8 ∧
    0 + 16 ≤ (run.time.now + 16) ∧ 0 + windowed.agent.limit < run.time.now + 33 ∧
    (p .fetching fetch 0 (.ready 0)).agent.starved = false ∧ (0x0131 : Word).toNat % 256 = 0x31 := by decide

/-- The codes on both sides of each group of commands: the first and the last of a group, and those beside it, which name none. -/
theorem witness_AgentWordsDoTheJobs_entries :
    let codes := [0x01, 0x02, 0x03, 0x04, 0x05, 0x06, 0x10, 0x11, 0x12, 0x13, 0x14, 0x15, 0x16, 0x17, 0x20, 0x21, 0x22, 0x30, 0x31,
      0x32, 0x33, 0x34]
    windowed.mode = .running ∧
    ([0x8001, 0x06, 0x10, 0x17, 0x20, 0x22, 0x30, 0x0134].all fun n => codes.contains (n % 256)) = true ∧
    ([0x0100, 0x07, 0x0F, 0x18, 0x1F, 0x23, 0x2F, 0x35, 0xFF].any fun n => codes.contains (n % 256)) = false ∧
    (0x8001 : Word).toNat = 0x8001 := by decide

theorem witness_RingsAreInitialised :
    let p (z : Init) (jobs : List Job) : Part := { windowed with
      init := z
      bus := { windowed.bus with holder := .agent }
      agent := { windowed.agent with jobs := jobs, word := .active 0 } }
    let first := p .readCommand [readJob .startupCommand 0x10000 1]
    let second := p .readEvent [readJob .startupEvent 0x11002 1]
    let third := p (.writing false false) [writeJob .consumerWrite 0x10002 0, writeJob .producerWrite 0x11000 0]
    let fourth := p (.writing true false) [writeJob .producerWrite 0x11000 0]
    let good (q : Part) := q.mode = .running ∧ q.ringsSound = true ∧ q.agent.onPort = true ∧ q.agent.done = 0 ∧ q.agent.got = []
    good first ∧ good second ∧ good third ∧ good fourth ∧
    (∀ j ∈ first.agent.jobs, j.reads = 1 ∧ j.data = []) ∧ (∀ j ∈ second.agent.jobs, j.reads = 1 ∧ j.data = []) ∧
    (∀ j ∈ third.agent.jobs, j.data.length = 1) ∧ (∀ j ∈ fourth.agent.jobs, j.data.length = 1) ∧
    ((7 : Word).toNat < first.bus.ringSize .command ∧ first.bus.ringSize .command ≤ (8 : Word).toNat) ∧
    ((15 : Word).toNat < first.bus.ringSize .event ∧ first.bus.ringSize .event ≤ (16 : Word).toNat) ∧
    first.bus.violation = none ∧ fourth.evt.queue = [] ∧
    (fourth.evt.producer + 1) % fourth.bus.ringSize .event ≠ fourth.evt.consumer ∧ fourth.cmd.consumer = fourth.cmd.producer ∧
    ({ fourth with cmd := { fourth.cmd with producer := 3 } } : Part).cmd.consumer ≠ 3 ∧
    (fourth.link.sound = true ∧ fourth.link.line = .idle ∧ fourth.link.queue = [] ∧ fourth.link.flight = none ∧
      fourth.link.stations.i1.due = false ∧ fourth.link.stations.i2.due = false) ∧
    (0 < (5 : Stamp).toNat ∧ (5 : Stamp).toNat < 2 ^ 31) ∧
    ({ fourth with ref := { fourth.ref with count := 5 } } : Part).ref.count = 5 := by decide

theorem witness_ClearCommand :
    let aired (stored : Option Assignment) : Part :=
      let p := (isle fun x => { x with onAir := .head .h1 }).modHead .h1 fun x => { x with assigned := some ⟨.i1, .p1⟩ }
      { p with defaults := { p.defaults with assignments := p.defaults.assignments.set .h1 stored } }
    let kept (p : Part) := (p.head .h1).assigned = p.defaults.assignments.get .h1 ∧
      (p.defaults.assignments.get .h1).map (·.island) = some .i1
    (st run).part.mode = .running ∧ run.heads.h1.sound = true ∧ kept (aired (some ⟨.i1, .p1⟩)) ∧
    ¬ kept (aired (some ⟨.i1, .p2⟩)) ∧ ¬ kept (aired none) := by decide

/-- The hypotheses of its clauses on the link and on its events: a POLL in flight whose island has a stored address of its own and
a MOVE and a POLL that wait; an F_end record with its head on air; takes, a head that moves, and a source that is lost. -/
theorem witness_ClearCommand_link :
    let stored : IslandSettings := { run.defaults.islands.i1 with address := 5 }
    let p := linked fun k => { polling k with queue := [⟨.i1, .move .p3 0⟩, ⟨.i2, .poll⟩] }
    let moved := { p with defaults := { p.defaults with islands := p.defaults.islands.set .i1 stored } }
    let air := aired fun x => { x with fEnd := some ⟨.h1, 9, some 70, .exact⟩, takes := [takeIn .armed, takeIn .queued] }
    ((p.island .i1).settings.address = (p.defaults.islands.get .i1).address ∧
      (moved.island .i1).settings.address ≠ (moved.defaults.islands.get .i1).address) ∧
    (p.link.sound = true ∧ p.link.line ≠ .idle ∧ p.link.flight.isSome = true ∧ (⟨.i2, .poll⟩ : Entry) ∈ p.link.queue ∧
      (p.link.queue.filter (Entry.isMoveOf .i1)).length ≤ 1) ∧
    ((air.island .i1).fEnd.map (·.basis) = some .exact ∧ (air.island .i1).onAir = .head .h1 ∧
      (air.island .i1).takes.length + (air.island .i2).takes.length ≤ 8 ∧ air.heads.h1.drive ≠ .stopped ∧
      (air.head .h1).assigned ≠ air.defaults.assignments.get .h1) ∧ air.init = .done := by decide

/-- The hypotheses of EveryStepKeepsTheHeads, -TheAlarmTable, -TheIslands, -TheLink and -TheRings hold together in a
running part, whose idle step answers a next state. -/
theorem witness_EveryStepKeepsTheRules :
    windowed.headsSound = true ∧ windowed.cuesSound = true ∧ windowed.alarmsSound = true ∧ windowed.islandsSound = true ∧
    windowed.link.sound = true ∧ windowed.ringsSound = true ∧ ∃ t, step (st windowed) = .next t :=
  ⟨by decide, by decide, by decide, by decide, by decide, by decide, _, rfl⟩

end Sys2Proof.Tests
end

section
/-! PROOFS. The Field Reference Unit's trim (R2): a ring command in a part that runs answers with its owner's status, and
CLEAR, behind the trim it sets, stays within the frame of the heads, the cues and the scheduler. -/

namespace Sys2Proof.Machine

/-! ### A ring command answers -/

/-- A ring command in a part that runs: its owner's status, and the part its owner leaves with that status in hand (R177,
R178). -/
theorem Replies.of_commanded {c : Instr} {s : State} {f : Part → Part × Status} {q : Part} {st : Status} {P : Part → Prop}
    (e : exec c s = onPart (commanded f) s) (r : s.part.mode = .running) (o : f s.part = (q, st))
    (a : P { q with cmd := { q.cmd with status := some st } }) : Replies c s st P := by
  refine ⟨_, e.trans (onPart_eq _ s), ?_⟩
  rw [commanded_eq r, o]
  exact ⟨rfl, a⟩

/-! ### SET_TRIM -/

theorem clampTrim_within {x : Int} (low : -1000 ≤ x) (high : x ≤ 1000) : clampTrim x = x := by
  simp only [clampTrim, clampInt, Config.trimMax]; omega

theorem clampTrim_above {x : Int} (h : 1000 < x) : clampTrim x = 1000 := by
  simp only [clampTrim, clampInt, Config.trimMax]; omega

theorem clampTrim_below {x : Int} (h : x < -1000) : clampTrim x = -1000 := by
  simp only [clampTrim, clampInt, Config.trimMax]; omega

/-- SET_TRIM in a part that runs, whatever its argument: CLAMPED exactly when the clamp changes the argument. -/
theorem setTrim_replies (trim : Word) {s : State} (r : s.part.mode = .running) :
    Replies (.setTrim trim) s (doneStatus (clampTrim trim.toInt ≠ trim.toInt)) fun q =>
      q.ref = { s.part.ref with trim := clampTrim trim.toInt } ∧ ChangesOnly [.ref, .status] s.part q := by
  have frame : ChangesOnly [.ref, .status] s.part
      { (setTrim trim s.part).1 with cmd := { s.part.cmd with status := some (setTrim trim s.part).2 } } :=
    ((setRef_frame _ _).mono (by simp)).trans ((status_frame _ _).mono (by simp))
  exact .of_commanded (f := setTrim trim) rfl r rfl ⟨rfl, frame⟩

/-! ### CLEAR -/

theorem clearTakes_frame (i : IslandId) (p : Part) : ChangesOnly (Block.taking i) p (clearTakes i p) :=
  (island_taking i _ p).trans (.foldl (fun q _ => post_taking i _ _ q) _ _)

theorem leaveLimit_frame (h : HeadId) (p : Part) : ChangesOnly (Block.driving h) p (leaveLimit h p) := by
  unfold leaveLimit
  dsimp only
  split
  · exact .ite (.refl _ _) ((modHead_driving h _ p).trans (clearAlarm_driving h _ _ _ _ _))
  · exact .refl _ _

theorem clearHead_frame (h : HeadId) (p : Part) : ChangesOnly Block.scheduling p (clearHead h p) := by
  have settings := modHead_driving h (Head.cleared (p.defaults.heads.get h) (p.defaults.assignments.get h)) p
  unfold clearHead
  refine .trans (.mono ?_ (driving_scheduling h)) (mapPreds_sched h _ _).frame
  refine .trans (.trans ?_ (leaveLimit_frame h _)) (modHead_driving h _ _)
  refine .ite (.ite ?_ settings) ?_
  · exact settings.trans (switchLamp_frame h _ _)
  · exact settings.trans (enterDrive_frame h _ _ _ _)

theorem readdress_frame (i : IslandId) (p : Part) : ChangesOnly Block.scheduling p (readdress i p) := by
  unfold readdress
  refine .trans (.mono ?_ linking_scheduling) ((clearAlarm_frame _ _ _ _ _).mono alarming_scheduling)
  exact ((modStation_linking i _ p).trans (link_linking _ _)).trans (pumpLink_frame _)

theorem clearIsland_frame (i : IslandId) (old : Four (Option Assignment)) (p : Part) :
    ChangesOnly Block.scheduling p (clearIsland i old p) := by
  have settings (f : Island → Island) : ChangesOnly Block.scheduling p (p.modIsland i f) :=
    (island_taking i f p).mono (taking_scheduling i)
  have addressed (c : Prop) [Decidable c] (f : Island → Island) : ChangesOnly Block.scheduling p
      (if c then p.modIsland i f else readdress i (p.modIsland i f)) :=
    .ite (settings f) ((settings f).trans (readdress_frame i _))
  unfold clearIsland
  exact .ite (addressed _ _) ((addressed _ _).trans (setOnAir_sched i _ _ _ _ _).frame)

theorem clearPolls_frame (p : Part) : ChangesOnly Block.linking p (clearPolls p) := link_linking _ p

theorem clearAnalog_frame (p : Part) : ChangesOnly [.analog] p (clearAnalog p) := setAnalog_frame _ p

/-- CLEAR sets the trim, and every other block takes it within the scheduler's frame (R177). -/
theorem clearAll_frame (p : Part) :
    ChangesOnly Block.scheduling { p with ref := { p.ref with trim := p.defaults.trim } } (clearAll p) := by
  have analog (q : Part) : ChangesOnly Block.scheduling q (clearAnalog (emptyAlarms q)) :=
    ((emptyAlarms_frame q).mono alarming_scheduling).trans ((clearAnalog_frame _).mono (by simp [Block.scheduling]))
  have takes (i : IslandId) (q : Part) : ChangesOnly Block.scheduling q (clearTakes i q) :=
    (clearTakes_frame i q).mono (taking_scheduling i)
  have heads (q : Part) : ChangesOnly Block.scheduling q (HeadId.list.foldl (fun q h => clearHead h q) q) :=
    .foldl (fun q h => clearHead_frame h q) _ q
  have polls (q : Part) : ChangesOnly Block.scheduling q (clearPolls q) := (clearPolls_frame q).mono linking_scheduling
  have standby (i : IslandId) (q : Part) : ChangesOnly Block.scheduling q (standbyNow i q) :=
    (standbyNow_frame i q).mono (committing_scheduling i)
  have attention (q : Part) :
      ChangesOnly Block.scheduling q (if q.init = .done then { q with evt := q.evt.judged } else q) :=
    .ite ((setEvents_frame _ q).mono (by simp [Block.scheduling, Block.alarming, Block.posting])) (.refl _ q)
  unfold clearAll
  refine .trans ?_ (attention _)
  refine .trans (.trans (.trans ?_ (standby .i1 _)) (standby .i2 _)) (followEnds_sched _).frame
  refine .trans (.trans (.trans ?_ (polls _)) (clearIsland_frame .i1 _ _)) (clearIsland_frame .i2 _ _)
  refine .trans ?_ (heads _)
  exact ((analog _).trans (takes .i1 _)).trans (takes .i2 _)

/-- CLEAR changes the trim alone of the Field Reference Unit (R2, R15). -/
theorem clearAll_ref (p : Part) : (clearAll p).ref = { p.ref with trim := p.defaults.trim } :=
  (clearAll_frame p .ref (by simp [Block.scheduling, Block.alarming, Block.posting])).symm

/-- Settles O7: the trim is the clamp of the argument, which is the argument itself within the range and the nearer end
outside it; CLEAR by its frame. -/
theorem setTrimSetsTheTrim : Obligations.SetTrimSetsTheTrim := by
  intro s trim running
  have replies := setTrim_replies trim running
  refine ⟨fun low high => ?within, fun above => ?above, fun below => ?below, ?clear⟩
  case within => simpa [clampTrim_within low high, doneStatus] using replies
  case above => simpa [clampTrim_above above, doneStatus, above.ne] using replies
  case below => simpa [clampTrim_below below, doneStatus, below.ne'] using replies
  case clear => exact .of_commanded (f := clearCommand) rfl running rfl (by simpa only using clearAll_ref s.part)

end Sys2Proof.Machine
end


section
/-! PROOFS. The cue a mark matches (R68): what a candidate is, what the match of a longer table comes from, and by induction on
the table that it is the nearest candidate. -/

namespace Sys2Proof.Machine

/-! ### A candidate -/

/-- The cue is PENDING with confirm state NONE and a window that reaches the mark (R68). -/
def Cue.MayMatch (offset : Nat) (mark : Int) (c : Cue) : Prop :=
  c.passed = false ∧ c.confirm = .none ∧ ∃ w, c.window = some w ∧ (mark - c.markFrame offset).natAbs ≤ w

theorem candidate_eq_some_iff {offset : Nat} {mark : Int} {c : Cue} {d : Nat} :
    candidate offset mark c = some d ↔ c.MayMatch offset mark ∧ d = (mark - c.markFrame offset).natAbs := by
  cases window : c.window with
  | none => simp [candidate, Cue.MayMatch, window]
  | some w => simp [candidate, Cue.MayMatch, window, and_assoc, eq_comm (a := d)]

theorem candidate_eq_none_iff {offset : Nat} {mark : Int} {c : Cue} :
    candidate offset mark c = none ↔ ¬ c.MayMatch offset mark := by
  simp [Option.eq_none_iff_forall_ne_some, candidate_eq_some_iff]

/-! ### The match of a table -/

theorem ascending_cons {c : Cue} {rest : List Cue} :
    ascending (c :: rest) = true ↔ (∀ b ∈ rest, c.frame < b.frame) ∧ ascending rest = true := by
  simp [ascending]

/-- The match of a longer table is its first cue, unless the rest has one strictly nearer, or is the match of the rest. -/
theorem matchMark_cons_cases {offset : Nat} {mark : Int} {c b : Cue} {rest : List Cue} {d : Nat}
    (h : matchMark offset mark (c :: rest) = some (b, d)) :
    (b = c ∧ candidate offset mark c = some d ∧ ∀ b' d', matchMark offset mark rest = some (b', d') → d ≤ d') ∨
    (matchMark offset mark rest = some (b, d) ∧ ∀ d', candidate offset mark c = some d' → d < d') := by
  simp only [matchMark] at h
  split at h
  next first => exact .inr ⟨h, by simp [first]⟩
  next first others => cases h; exact .inl ⟨rfl, first, by simp [others]⟩
  next first others =>
    split at h
    next near => cases h; exact .inl ⟨rfl, first, by simp [others, near]⟩
    next far => cases h; exact .inr ⟨others, by simpa [first] using far⟩

theorem matchMark_eq_none_iff {offset : Nat} {mark : Int} {cues : List Cue} :
    matchMark offset mark cues = none ↔ ∀ c ∈ cues, candidate offset mark c = none := by
  induction cues with
  | nil => simp [matchMark]
  | cons c rest ih =>
    rw [List.forall_mem_cons, ← ih, matchMark]
    split
    next first => simp [first]
    next first others => simp [first]
    next first others => split <;> simp [first]

theorem matchMark_candidate {offset : Nat} {mark : Int} {cues : List Cue} {c : Cue} {d : Nat}
    (h : matchMark offset mark cues = some (c, d)) : c ∈ cues ∧ candidate offset mark c = some d := by
  induction cues with
  | nil => cases h
  | cons b rest ih =>
    obtain ⟨rfl, first, -⟩ | ⟨later, -⟩ := matchMark_cons_cases h
    · exact ⟨.head _, first⟩
    · exact (ih later).imp_left (.tail b)

/-- No candidate of an ascending table is nearer than its match, and of those as near none has a lower frame (R68). -/
theorem matchMark_nearest {offset : Nat} {mark : Int} {cues : List Cue} {c : Cue} {d : Nat} (sorted : ascending cues = true)
    (h : matchMark offset mark cues = some (c, d)) :
    ∀ c' ∈ cues, ∀ d', candidate offset mark c' = some d' → d < d' ∨ d = d' ∧ c.frame ≤ c'.frame := by
  induction cues generalizing c d with
  | nil => cases h
  | cons b rest ih =>
    obtain ⟨lower, sortedRest⟩ := ascending_cons.mp sorted
    intro c' mem d' cand
    obtain ⟨rfl, first, near⟩ | ⟨later, far⟩ := matchMark_cons_cases h <;> obtain _ | ⟨_, inRest⟩ := mem
    · exact .inr ⟨Option.some.inj (first.symm.trans cand), le_rfl⟩
    · cases others : matchMark offset mark rest with
      | none => simp [matchMark_eq_none_iff.mp others c' inRest] at cand
      | some r =>
        have nearRest := near r.1 r.2 others
        have nearest := ih sortedRest others c' inRest d' cand
        have below := lower c' inRest
        omega
    · exact .inl (far d' cand)
    · exact ih sortedRest later c' inRest d' cand

/-- Settles O28: the match is a candidate of the table that no other comes before, and there is none without candidates. -/
theorem markMatchesTheNearestCandidate : Obligations.MarkMatchesTheNearestCandidate := by
  intro offset mark cues sorted
  refine ⟨fun c d matched => ?nearest, ?unmatched⟩
  case nearest =>
    obtain ⟨mem, cand⟩ := matchMark_candidate matched
    obtain ⟨may, rfl⟩ := candidate_eq_some_iff.mp cand
    exact ⟨mem, may, rfl, fun c' mem' may' =>
      matchMark_nearest sorted matched c' mem' _ (candidate_eq_some_iff.mpr ⟨may', rfl⟩)⟩
  case unmatched => exact matchMark_eq_none_iff.trans (forall₂_congr fun _ _ => candidate_eq_none_iff)

end Sys2Proof.Machine
end


section
/-! PROOFS. SET_ANALOG_LIMITS, SET_PANEL_MODE and RESET_FLAGS (R139, R162, R167, R184): what each command's owner does with
its operands, case by case, and the frame of the change it makes. -/

namespace Sys2Proof.Machine

/-! ### A refusal, the status of a command carried out, and the frame of an answer -/

/-- A ring command in a part that runs whose owner leaves the part as it was: its status alone changes (R177, R178). -/
theorem Refuses.of_commanded {c : Instr} {s : State} {f : Part → Part × Status} {st : Status}
    (e : exec c s = onPart (commanded f) s) (r : s.part.mode = .running) (o : f s.part = (s.part, st)) :
    Refuses c s st := by
  rw [Refuses, e, onPart_eq, commanded_eq r, o]

theorem doneStatus_not (c : Prop) [Decidable c] : doneStatus (decide ¬ c) = if c then .ok else .clamped := by
  simp only [doneStatus, decide_eq_true_eq, ite_not]

theorem ChangesOnly.answered {t : List Block} {p q : Part} (st : Status) (x : ChangesOnly t p q) :
    ChangesOnly (.status :: t) p { q with cmd := { q.cmd with status := some st } } :=
  (x.mono (by simp)).trans ((status_frame _ q).mono (by simp))

theorem setPanel_frame (l : Panel) (p : Part) : ChangesOnly [.panel] p { p with panel := l } := by
  intro b n
  cases b <;> simp at n <;> simp [Block.same]

theorem setViolation_frame (v : Option Violation) (p : Part) :
    ChangesOnly [.decoder] p { p with bus := { p.bus with violation := v } } := by
  intro b n
  cases b <;> simp at n <;> simp [Block.same]

/-! ### SET_ANALOG_LIMITS -/

theorem channelOfNat_eq_none {n : Nat} (h : 8 < n) : channelOfNat n = none := by
  obtain ⟨m, rfl⟩ := Nat.exists_eq_add_of_lt h
  rw [show 8 + m + 1 = m + 9 by omega]
  rfl

/-- The ranges 0 … 1023 and 1 … 15 of R133 and R139. -/
theorem Limits.clamped_eq (l : Limits) :
    l.clamped = ⟨min 1023 l.low, min 1023 l.high, max 1 (min 15 l.debounce)⟩ := by
  simp [Limits.clamped, clamp]

theorem setAnalogLimitsCommand_noChannel {channel : Word} (low high debounce : Word) (p : Part)
    (h : channelOfNat channel.toNat = none) :
    setAnalogLimitsCommand channel low high debounce p = (p, .badTarget) := by
  simp [setAnalogLimitsCommand, h]

section
variable {channel low high : Word} {k : ChannelId} (debounce : Word) (p : Part)

theorem setAnalogLimitsCommand_crossed (h : channelOfNat channel.toNat = some k)
    (crossed : min 1023 high.toNat < min 1023 low.toNat) :
    setAnalogLimitsCommand channel low high debounce p = (p, .badArgument) := by
  simp only [setAnalogLimitsCommand, h, Limits.clamped_eq, if_pos crossed]

theorem setAnalogLimitsCommand_ordered (h : channelOfNat channel.toNat = some k)
    (ordered : min 1023 low.toNat ≤ min 1023 high.toNat) :
    let l : Limits := ⟨min 1023 low.toNat, min 1023 high.toNat, max 1 (min 15 debounce.toNat)⟩
    setAnalogLimitsCommand channel low high debounce p =
      (p.modChannel k fun c => { c with limits := l, outCount := 0, inCount := 0 },
        if l.low = low.toNat ∧ l.high = high.toNat ∧ l.debounce = debounce.toNat then .ok else .clamped) := by
  simp only [setAnalogLimitsCommand, h, Limits.clamped_eq, if_neg ordered.not_gt, ne_eq, doneStatus_not,
    Limits.mk.injEq]

end

/-! ### SET_PANEL_MODE -/

theorem displayModeOfNat_eq_none {n : Nat} (h : 1 < n) : displayModeOfNat n = none := by
  obtain ⟨m, rfl⟩ := Nat.exists_eq_add_of_lt h
  rw [show 1 + m + 1 = m + 2 by omega]
  rfl

theorem displayModeOfNat_toNat {mode : Word} (h : mode.toNat ≤ 1) :
    displayModeOfNat mode.toNat = some (if mode = 0 then .feet else .frames) := by
  obtain rfl | rfl : mode = 0 ∨ mode = 1 := by bv_omega
  · rfl
  · rfl

theorem setPanelModeCommand_noMode {mode : Word} (dwell : Word) (p : Part) (h : 1 < mode.toNat) :
    setPanelModeCommand mode dwell p = (p, .badArgument) := by
  simp [setPanelModeCommand, displayModeOfNat_eq_none h]

theorem setPanelModeCommand_mode {mode : Word} (dwell : Word) (p : Part) (h : mode.toNat ≤ 1) :
    setPanelModeCommand mode dwell p =
      ({ p with panel :=
          { p.panel with mode := if mode = 0 then .feet else .frames, dwell := min 127 dwell.toNat } },
        if dwell.toNat ≤ 127 then .ok else .clamped) := by
  simp only [setPanelModeCommand, displayModeOfNat_toNat h, clamp, Nat.zero_max, ← Nat.not_le, doneStatus_not]

/-! ### RESET_FLAGS -/

theorem resetFlags_frame (p : Part) : ChangesOnly [.decoder, .events] p (resetFlags p) :=
  ((setViolation_frame none p).mono (by simp)).trans ((setEvents_frame _ _).mono (by simp))

/-! ### The three commands -/

/-- Settles O44: each clause is the owner's answer in its case, with the frame of what it replaces: the channel's record, the
panel's record, the violation record with the events-lost flag. -/
theorem deviceCommands : Obligations.DeviceCommands := by
  intro s channel low high debounce mode dwell running
  have limits : exec (.setAnalogLimits channel low high debounce) s =
      onPart (commanded (setAnalogLimitsCommand channel low high debounce)) s := rfl
  have panel : exec (.setPanelMode mode dwell) s = onPart (commanded (setPanelModeCommand mode dwell)) s := rfl
  refine ⟨fun beyond => ?noChannel, fun k named => ⟨fun crossed => ?crossed, fun ordered => ?ordered⟩,
    fun beyond => ?noMode, fun within => ?panelMode, ?flags⟩
  case noChannel =>
    exact .of_commanded limits running
      (setAnalogLimitsCommand_noChannel low high debounce _ (channelOfNat_eq_none beyond))
  case crossed => exact .of_commanded limits running (setAnalogLimitsCommand_crossed debounce _ named crossed)
  case ordered =>
    exact .of_commanded limits running (setAnalogLimitsCommand_ordered debounce _ named ordered)
      ⟨rfl, (modChannel_frame k _ _).answered _⟩
  case noMode => exact .of_commanded panel running (setPanelModeCommand_noMode dwell _ beyond)
  case panelMode =>
    exact .of_commanded panel running (setPanelModeCommand_mode dwell _ within) ⟨rfl, (setPanel_frame _ _).answered _⟩
  case flags =>
    exact .of_commanded (f := resetFlagsCommand) rfl running rfl ⟨rfl, rfl, (resetFlags_frame _).answered _⟩

end Sys2Proof.Machine
end

section
/-! PROOFS. The machine at large: a step, the completion of every command, the idle step, the reset values, and the checks every
head command makes first (R23). -/

namespace Sys2Proof.Machine

/-! ### Steps and completion -/

/-- Settles O1: on a queue that is not empty, `step` is by definition `exec` of its front. -/
theorem stepRunsTheFrontCommand : Obligations.StepRunsTheFrontCommand := fun _ _ _ => rfl

/-- Every command is a change of the part alone. -/
theorem exec_onPart (c : Instr) : ∃ f : Part → Part, ∀ s, exec c s = onPart f s := by
  cases c <;> exact ⟨_, fun _ => rfl⟩

/-- Settles O2: what a command does to the part is the same for every queue. -/
theorem everyCommandCompletes : Obligations.EveryCommandCompletes := by
  intro c p
  obtain ⟨f, e⟩ := exec_onPart c
  exact ⟨f p, fun l => e ⟨p, l⟩⟩

theorem nextDue_eq_none {p : Part} (h : p.mode ≠ .running) : nextDue p = none := by
  simp [nextDue, Part.running, h]

/-- Settles O3: the three clauses are the two branches of `idleStep`, and `nextDue` before a valid load. -/
theorem idleStepTakesDueEvents : Obligations.IdleStepTakesDueEvents := by
  intro p
  refine ⟨fun c due => ?_, fun none => ?_, nextDue_eq_none⟩
  · show idleStep ⟨p, []⟩ = _
    simp only [idleStep, due]
  · show idleStep ⟨p, []⟩ = _
    simp only [idleStep, none]

/-! ### Reset -/

/-- Settles O4: both commands give `Part.reset` whatever the state, and its fields are read off. -/
theorem powerOnSetsTheResetValues : Obligations.PowerOnSetsTheResetValues := by
  refine ⟨fun s => ⟨rfl, rfl⟩, rfl, ?_⟩
  refine ⟨rfl, rfl, rfl, rfl, rfl, rfl, rfl, fun h => ?heads, fun i => ?islands, rfl, rfl, rfl, rfl, rfl, rfl, fun r => ?panel,
    rfl, rfl, rfl, rfl, rfl, rfl, rfl, rfl, rfl⟩
  case heads => cases h <;> exact ⟨rfl, rfl, rfl, rfl⟩
  case islands => cases i <;> exact ⟨rfl, rfl, rfl⟩
  case panel => simp [Part.reset, Panel.reset, RowKeys.up, KeyPos.up]

/-- Settles O55: the rules are evaluated at the reset part. -/
theorem rulesHoldAtReset : Obligations.RulesHoldAtReset := by
  refine ⟨?_, ?_, ?_, ?_, ?_, ?_⟩ <;> decide

/-! ### The target and authority checks of R23 -/

theorem headOfNat_eq_none {n : Nat} (h : n = 0 ∨ 4 < n) : headOfNat n = none := by
  obtain rfl | beyond := h
  · rfl
  · obtain ⟨m, rfl⟩ := Nat.exists_eq_add_of_lt beyond
    rw [show 4 + m + 1 = m + 5 by omega]
    rfl

theorem readHead_eq_none {w : Word} (h : w.toNat = 0 ∨ 4 < w.toNat) : readHead w = none := headOfNat_eq_none h

theorem onHead_some {w : Word} {h : HeadId} (f : HeadId → Part → Part × Status) (p : Part) (e : readHead w = some h) :
    onHead w f p = f h p := by
  simp only [onHead, e]

theorem onHead_none {w : Word} (f : HeadId → Part → Part × Status) (p : Part) (e : readHead w = none) :
    onHead w f p = (p, .badTarget) := by
  simp only [onHead, e]

theorem unlessLocal_local {h : HeadId} {p : Part} (f : HeadId → Part → Part × Status) (l : p.headLocal h = true) :
    unlessLocal f h p = (p, .localAuthority) := by
  simp only [unlessLocal, l, if_true]

theorem unlessLocal_remote {h : HeadId} {p : Part} (f : HeadId → Part → Part × Status) (l : p.headLocal h = false) :
    unlessLocal f h p = f h p := by
  simp [unlessLocal, l]

theorem headLocal_of_assigned {p : Part} {h : HeadId} {i : IslandId} (a : (p.head h).assigned.map (·.island) = some i)
    (l : (p.island i).authority = .panel) : p.headLocal h = true := by
  obtain ⟨x, assigned, rfl⟩ := Option.map_eq_some_iff.1 a
  simp only [Part.headLocal, assigned, Option.any_some, Part.inLocal, l, decide_true]

/-- A head command whose number names no head (R23 step 1). -/
theorem Refuses.badTarget {c : Instr} {s : State} {w : Word} {f : HeadId → Part → Part × Status}
    (e : exec c s = onPart (commanded (onHead w f)) s) (r : s.part.mode = .running) (n : readHead w = none) :
    Refuses c s .badTarget := .of_commanded e r (onHead_none f _ n)

/-- A head command that LOCAL authority refuses (R23 step 2). -/
theorem Refuses.localAuthority {c : Instr} {s : State} {w : Word} {h : HeadId} {f : HeadId → Part → Part × Status}
    (e : exec c s = onPart (commanded (onHead w (unlessLocal f))) s) (r : s.part.mode = .running)
    (n : readHead w = some h) (l : s.part.headLocal h = true) : Refuses c s .localAuthority :=
  .of_commanded e r ((onHead_some _ _ n).trans (unlessLocal_local f l))

/-- ASSIGN_HEAD to an island in LOCAL (R23 step 2): refused whatever the authority over the head. -/
theorem assignHeadCommand_local {w a : Word} {h : HeadId} {i : IslandId} {p : Part} (b : Word) (n : readHead w = some h)
    (e : readIsland a = some i) (l : (p.island i).authority = .panel) :
    assignHeadCommand w a b p = (p, .localAuthority) := by
  have target : (readIsland a).any p.inLocal = true := by
    simp only [e, Option.any_some, Part.inLocal, l, decide_true]
  simp only [assignHeadCommand, onHead_some _ _ n, unlessLocal, target, if_true, ite_self]

/-- Settles O22: each head command is `onHead`, and five of them `unlessLocal`, of what it does to the head. -/
theorem headCommandsCheckTargetAndAuthority : Obligations.HeadCommandsCheckTargetAndAuthority := by
  intro s w a b f ws running
  refine ⟨fun bad => ?target, fun h named i assigned panel => ?head, fun h named i island panel => ?island⟩
  case target =>
    have none := readHead_eq_none bad
    exact ⟨.badTarget rfl running none, .badTarget rfl running none, .badTarget rfl running none,
      .badTarget rfl running none, .badTarget rfl running none, .badTarget rfl running none,
      .badTarget rfl running none, .badTarget rfl running none, .badTarget rfl running none,
      .badTarget rfl running none, .badTarget rfl running none⟩
  case head =>
    have inLocal := headLocal_of_assigned assigned panel
    exact ⟨.localAuthority rfl running named inLocal, .localAuthority rfl running named inLocal,
      .localAuthority rfl running named inLocal, .localAuthority rfl running named inLocal,
      .localAuthority rfl running named inLocal⟩
  case island => exact .of_commanded rfl running (assignHeadCommand_local b named island panel)

end Sys2Proof.Machine
end

section
/-! PROOFS. What the Head Controllers, the Cadence Monitors, the cue tables and the Changeover Scheduler keep: a property of the
part that the shared operations they work through keep is kept by each of their requests and reports. The step lemmas of the
rules of Safety.lean are instances. -/

namespace Sys2Proof.Machine

/-- A property of the part that events, alarms, and changes of heads and of the analog scanner keep; a change of a head here is
one that leaves its assignment. -/
structure DriveKeeps (I : Part → Prop) : Prop where
  post : ∀ s e p, I p → I (post s e p)
  raise : ∀ s k a b p, I p → I (raiseAlarm s k a b p)
  clear : ∀ s k a b p, I p → I (clearAlarm s k a b p)
  head : ∀ h f p, (∀ x : Head, (f x).assigned = x.assigned) → I p → I (p.modHead h f)
  analog : ∀ a p, I p → I { p with analog := a }

/-- A property of the part that events, alarms, MOVEs, the end of fast polling, any change of the islands and a start of a head at
rest keep. -/
structure SchedulerKeeps (I : Part → Prop) : Prop where
  post : ∀ s e p, I p → I (post s e p)
  raise : ∀ s k a b p, I p → I (raiseAlarm s k a b p)
  clear : ∀ s k a b p, I p → I (clearAlarm s k a b p)
  islands : ∀ x p, I p → I { p with islands := x }
  move : ∀ i q f p, I p → I (submitMove i q f p)
  fast : ∀ i p, I p → I (endFast i p)
  start : ∀ h p, (p.head h).drive.atRest = true → I p → I (startDrive h .scheduler p)

/-- A property that what the heads report to the scheduler keeps as well. -/
structure ReportKeeps (I : Part → Prop) : Prop extends DriveKeeps I where
  settleTakes : ∀ p, I p → I (settleTakes p)
  meetGuard : ∀ i p, I p → I (meetGuard i p)
  followEnd : ∀ i p, I p → I (followEnd i p)
  preds : ∀ h f p, I p → I (mapPreds h f p)
  endReached : ∀ i h p, I p → I (endReached i h p)
  onAirFault : ∀ i p, I p → I (onAirFault i p)
  onAirStop : ∀ i p, I p → I (onAirStop i p)
  incomingFailed : ∀ i h r p, I p → I (incomingFailed i h r p)

variable {I : Part → Prop}

theorem ite_keeps {c : Prop} [Decidable c] {p q : Part} (a : I p) (b : I q) : I (if c then p else q) := by
  split
  · exact a
  · exact b

theorem foldl_keeps {α : Type} {f : Part → α → Part} (x : ∀ p a, I p → I (f p a)) (l : List α) {p : Part} (a : I p) :
    I (l.foldl f p) := by
  induction l generalizing p with
  | nil => exact a
  | cons b l ih => exact ih (x p b a)

/-! ### Drive states and the Cadence Monitor -/

section
variable (K : DriveKeeps I)
include K

theorem modCadence_keeps (h : HeadId) (f : Cadence → Cadence) {p : Part} (a : I p) : I (p.modCadence h f) :=
  K.head h _ p (fun _ => rfl) a

theorem lampChanged_keeps (h : HeadId) {p : Part} (a : I p) : I (lampChanged h p) := by
  unfold lampChanged
  split
  · exact a
  · dsimp only
    split
    · exact K.clear _ _ _ _ _ (K.analog _ p a)
    · exact K.analog _ p a

theorem tensionIdle_keeps (h : HeadId) {p : Part} (a : I p) : I (tensionIdle h p) := by
  unfold tensionIdle
  dsimp only
  split
  · exact a
  · exact K.analog _ p a

theorem stopMeasuring_keeps (h : HeadId) {p : Part} (a : I p) : I (stopMeasuring h p) :=
  K.clear _ _ _ _ _ (K.clear _ _ _ _ _ (modCadence_keeps K h _ a))

theorem enterDrive_keeps (h : HeadId) (d : DriveState) (c : Cause) (k : Option FaultKind) {p : Part} (a : I p) :
    I (enterDrive h d c k p) := by
  have told := K.post (.head h) (.headState d (p.head h).drive c (p.head h).pos.frame) _
    (K.head h (fun x => x.enter d p.time.now) p (fun _ => rfl) a)
  unfold enterDrive
  extract_lets old entered posted alarmed lamped idled
  have kept : I alarmed := by
    unfold alarmed
    split
    · exact K.raise _ _ _ _ _ told
    · exact told
  have lampKept : I lamped := ite_keeps kept (lampChanged_keeps K h kept)
  have idleKept : I idled := ite_keeps (tensionIdle_keeps K h lampKept) lampKept
  exact ite_keeps (stopMeasuring_keeps K h idleKept) idleKept

theorem switchLamp_keeps (h : HeadId) (on : Bool) {p : Part} (a : I p) : I (switchLamp h on p) := by
  unfold switchLamp
  dsimp only
  split
  · exact a
  · exact lampChanged_keeps K h (K.head h _ p (fun _ => rfl) a)

theorem startDrive_keeps (h : HeadId) (c : Cause) {p : Part} (a : I p) : I (startDrive h c p) := by
  unfold startDrive
  exact enterDrive_keeps K h _ _ _ (modCadence_keeps K h _ a)

theorem declareUnlock_keeps (h : HeadId) (n : Nat) (e : Option Nat) (u : Bool) {p : Part} (a : I p) :
    I (declareUnlock h n e u p) := by
  unfold declareUnlock
  dsimp only
  have entered := fun c => enterDrive_keeps K h .unlocked .cadence none (modCadence_keeps K h c a)
  split
  · exact K.raise _ _ _ _ _ (K.post _ _ _ (entered _))
  · exact K.post _ _ _ (entered _)

theorem declareLock_keeps (h : HeadId) {p : Part} (a : I p) : I (declareLock h p) := by
  unfold declareLock
  dsimp only
  have entered := enterDrive_keeps K h .locked .cadence none a
  split
  · exact K.clear _ _ _ _ _ (K.post _ _ _ entered)
  · exact K.clear _ _ _ _ _ (K.post _ _ _ (modCadence_keeps K h _ entered))

theorem cadenceBoundary_keeps (h : HeadId) {p : Part} (a : I p) : I (cadenceBoundary h p) := by
  unfold cadenceBoundary
  dsimp only
  generalize (p.head h).cadence.boundaryAt p.ref.standard p.ref.count p.time.now = r
  obtain ⟨c, v⟩ := r
  have noted : I (p.modCadence h fun _ => c) := modCadence_keeps K h _ a
  dsimp only
  split
  · exact noted
  · split
    · exact declareUnlock_keeps K h _ _ _ noted
    · exact noted
  · exact noted
  · split
    · exact declareLock_keeps K h noted
    · exact noted
  · split
    · exact declareLock_keeps K h noted
    · exact noted

theorem followCues_keeps (h : HeadId) {p : Part} (a : I p) : I (followCues h p) := K.head h _ p (fun _ => rfl) a

theorem missMark_keeps (h : HeadId) (f : Int) (c : Cue) {p : Part} (a : I p) : I (missMark h f c p) :=
  K.post _ _ _ (K.head h _ p (fun _ => rfl) a)

theorem missedMarkStep_keeps (h : HeadId) (f : Int) {p : Part} (a : I p) : I (missedMarkStep h f p) :=
  foldl_keeps (fun _ c => missMark_keeps K h f c) _ a

theorem endLimit_keeps (h : HeadId) {p : Part} (a : I p) : I (endLimit h p) :=
  K.clear _ _ _ _ _ (K.head h _ p (fun _ => rfl) a)

theorem leaveLimit_keeps (h : HeadId) {p : Part} (a : I p) : I (leaveLimit h p) := by
  unfold leaveLimit
  dsimp only
  split
  · split
    · exact a
    · exact endLimit_keeps K h a
  · exact a

theorem loseParked_keeps (h : HeadId) {p : Part} (a : I p) : I (loseParked h p) := by
  unfold loseParked
  dsimp only
  split
  · exact enterDrive_keeps K h _ _ _ (K.post _ _ _ a)
  · exact enterDrive_keeps K h _ _ _ a
  · exact a

theorem takeSlowStart_keeps (h : HeadId) {p : Part} (a : I p) : I (takeSlowStart h p) :=
  K.raise _ _ _ _ _ (modCadence_keeps K h _ a)

theorem takeSpeedTimeout_keeps (h : HeadId) {p : Part} (a : I p) : I (takeSpeedTimeout h p) := modCadence_keeps K h _ a

theorem clearLatched_keeps (h : HeadId) {p : Part} (a : I p) : I (clearLatched h p) :=
  K.clear _ _ _ _ _ (K.clear _ _ _ _ _ (K.clear _ _ _ _ _ a))

end

/-! ### The Changeover Scheduler -/

section
variable (K : SchedulerKeeps I)
include K

theorem modIsland_keeps (i : IslandId) (f : Island → Island) {p : Part} (a : I p) : I (p.modIsland i f) := K.islands _ p a

theorem modFront_keeps (i : IslandId) (f : Take → Take) {p : Part} (a : I p) : I (p.modFront i f) := K.islands _ p a

theorem mapPreds_keeps (h : HeadId) (f : PredKind → Pred → Pred) {p : Part} (a : I p) : I (mapPreds h f p) :=
  K.islands _ p a

theorem followEnd_keeps (i : IslandId) {p : Part} (a : I p) : I (followEnd i p) := modIsland_keeps K i _ a

theorem followEnds_keeps {p : Part} (a : I p) : I (followEnds p) := followEnd_keeps K .i2 (followEnd_keeps K .i1 a)

theorem refreshStart_keeps (i : IslandId) {p : Part} (a : I p) : I (refreshStart i p) := by
  unfold refreshStart
  split
  · exact a
  · split
    · dsimp only
      split
      · exact K.post _ _ _ (modFront_keeps K i _ a)
      · exact modFront_keeps K i _ a
    · split
      · exact modFront_keeps K i _ a
      · exact a

theorem refreshTake_keeps (i : IslandId) {p : Part} (a : I p) : I (refreshTake i p) := by
  unfold refreshTake
  split
  · exact a
  · exact refreshStart_keeps K i (modFront_keeps K i _ a)

theorem commitAsked_keeps (f : Stamp) (i : IslandId) (s : Source) (c : Stamp) (o : Owner) {p : Part} (a : I p) :
    I (commitAsked f i s c o p) := K.move i _ f _ (modIsland_keeps K i _ a)

theorem commit_keeps (i : IslandId) (s : Source) (c : Stamp) (o : Owner) {p : Part} (a : I p) : I (commit i s c o p) :=
  commitAsked_keeps K _ i s c o a

theorem standbyNow_keeps (i : IslandId) {p : Part} (a : I p) : I (standbyNow i p) := commit_keeps K i _ _ _ a

theorem commitTake_keeps (i : IslandId) (o : TakeOutcome) (l : Option Int) {p : Part} (a : I p) : I (commitTake i o l p) := by
  unfold commitTake
  split
  · exact a
  · exact K.post _ _ _ (modFront_keeps K i _ (commit_keeps K i _ _ _ a))

theorem endFront_keeps (i : IslandId) (o : TakeOutcome) (r : Reason) {p : Part} (a : I p) : I (endFront i o r p) := by
  unfold endFront
  split
  · exact a
  · exact K.post _ _ _ (modIsland_keeps K i _ a)

theorem startRequest_keeps (h : HeadId) {p : Part} (a : I p) : I (startRequest h p) := by
  unfold startRequest
  dsimp only
  split
  · rename_i rest
    exact refreshTake_keeps K .i2 (refreshTake_keeps K .i1 (mapPreds_keeps K h _ (K.start h p rest a)))
  · exact a

theorem cutSoon_keeps (i : IslandId) {p : Part} (a : I p) : I (cutSoon i p) :=
  refreshTake_keeps K i (modFront_keeps K i _ a)

theorem convertNow_keeps (i : IslandId) {p : Part} (a : I p) : I (convertNow i p) := by
  unfold convertNow
  split
  · exact a
  · split
    · exact a
    · dsimp only
      split
      · split
        · exact cutSoon_keeps K i (modFront_keeps K i _ a)
        · exact refreshTake_keeps K i (modFront_keeps K i _ a)
      · exact a

theorem sendStart_keeps (i : IslandId) {p : Part} (a : I p) : I (sendStart i p) := by
  unfold sendStart
  split
  · exact a
  · split
    · split
      · exact startRequest_keeps K _ a
      · exact a
    · exact a

theorem followRunning_keeps (i : IslandId) {p : Part} (a : I p) : I (followRunning i p) := by
  unfold followRunning
  split
  · exact a
  · split
    · split
      · exact modFront_keeps K i _ a
      · exact a
    · exact a

theorem becomeReady_keeps (i : IslandId) {p : Part} (a : I p) : I (becomeReady i p) := by
  have ready := modFront_keeps K i (fun t => { t with state := .ready }) a
  unfold becomeReady
  dsimp only
  generalize p.modFront i (fun t => { t with state := .ready }) = q at ready ⊢
  split
  · exact ready
  · rename_i t _
    have figured : I (if t.effective = .now then cutSoon i q else refreshTake i q) := by
      split
      · exact cutSoon_keeps K i ready
      · exact refreshTake_keeps K i ready
    split
    · exact figured
    · exact K.post _ _ _ figured

theorem judgeReady_keeps (i : IslandId) {p : Part} (a : I p) : I (judgeReady i p) := by
  unfold judgeReady
  split
  · exact a
  · split
    · exact becomeReady_keeps K i a
    · split
      · exact modFront_keeps K i _ a
      · exact a

theorem retarget_keeps (i : IslandId) {p : Part} (a : I p) : I (retarget i p) := by
  unfold retarget
  split
  · exact a
  · split
    · exact a
    · split
      · exact modFront_keeps K i _ a
      · dsimp only
        split
        · split
          · exact refreshTake_keeps K i (modFront_keeps K i _ a)
          · exact commitTake_keeps K i _ _ (refreshTake_keeps K i (modFront_keeps K i _ a))
        · exact refreshTake_keeps K i (modFront_keeps K i _ a)

theorem evalTake_keeps (i : IslandId) {p : Part} (a : I p) : I (evalTake i p) :=
  retarget_keeps K i (judgeReady_keeps K i (followRunning_keeps K i (sendStart_keeps K i (convertNow_keeps K i a))))

theorem enterHeld_keeps (i : IslandId) {p : Part} (a : I p) : I (enterHeld i p) := by
  unfold enterHeld
  split
  · exact a
  · refine evalTake_keeps K i ?_
    split
    · split
      · exact startRequest_keeps K _ (modFront_keeps K i _ a)
      · exact modFront_keeps K i _ a
    · exact modFront_keeps K i _ a

theorem takeCommitField_keeps (i : IslandId) {p : Part} (a : I p) : I (takeCommitField i p) := by
  unfold takeCommitField
  split
  · exact a
  · rename_i t _
    dsimp only
    have recut : I (if t.commitAt = some p.ref.count then p else
        judgeReady i (refreshTake i (p.modFront i fun t =>
          { t with cut := none, fCut := some (p.leadField i),
                   slip := if t.state = .held then t.slipTo (p.leadField i) else t.slip }))) := by
      split
      · exact a
      · exact judgeReady_keeps K i (refreshTake_keeps K i (modFront_keeps K i _ a))
    split
    · exact recut
    · split
      · exact commitTake_keeps K i _ _ recut
      · exact enterHeld_keeps K i recut

theorem takeStartField_keeps (i : IslandId) {p : Part} (a : I p) : I (takeStartField i p) := by
  unfold takeStartField
  split
  · exact evalTake_keeps K i (startRequest_keeps K _ (modFront_keeps K i _ a))
  · exact a

theorem meetStart_keeps (i : IslandId) {p : Part} (a : I p) : I (meetStart i p) := by
  unfold meetStart
  split
  · exact takeStartField_keeps K i a
  · exact a

theorem meetCommit_keeps (i : IslandId) {p : Part} (a : I p) : I (meetCommit i p) := by
  unfold meetCommit
  split
  · exact takeCommitField_keeps K i a
  · exact a

theorem workTake_keeps (i : IslandId) {p : Part} (a : I p) : I (workTake i p) :=
  meetCommit_keeps K i (meetStart_keeps K i (evalTake_keeps K i a))

theorem settleTakes_keeps {p : Part} (a : I p) : I (settleTakes p) :=
  workTake_keeps K .i2 (refreshTake_keeps K .i2 (workTake_keeps K .i1 (refreshTake_keeps K .i1 a)))

theorem enterTake_keeps (i : IslandId) (o : Source) {p : Part} (a : I p) : I (enterTake i o p) := by
  have formed : I (formCut i o false p) := modFront_keeps K i _ a
  unfold enterTake
  dsimp only
  generalize formCut i o false p = q at formed ⊢
  split
  · exact convertNow_keeps K i (refreshTake_keeps K i (modFront_keeps K i _ formed))
  · exact workTake_keeps K i (K.post _ _ _
      (convertNow_keeps K i (refreshTake_keeps K i (modFront_keeps K i _ formed))))

theorem activate_keeps (n : Nat) (i : IslandId) {p : Part} (a : I p) : I (activate n i p) := by
  induction n generalizing p with
  | zero => exact a
  | succ n ih =>
    unfold activate
    split
    · exact a
    · dsimp only
      split
      · exact a
      · split
        · exact ih (endFront_keeps K i _ _ (modFront_keeps K i _ a))
        · split
          · exact ih (endFront_keeps K i _ _ (modFront_keeps K i _ a))
          · exact enterTake_keeps K i _ a

theorem activateFront_keeps (i : IslandId) {p : Part} (a : I p) : I (activateFront i p) := activate_keeps K _ i a

theorem endActive_keeps (i : IslandId) (o : TakeOutcome) (r : Reason) {p : Part} (a : I p) : I (endActive i o r p) :=
  activateFront_keeps K i (endFront_keeps K i o r a)

theorem reform_keeps (i : IslandId) {p : Part} (a : I p) : I (reform i p) := by
  have formed : I (formCut i (p.island i).onAir true p) := modFront_keeps K i _ a
  unfold reform
  split
  · exact a
  · dsimp only
    split
    · exact a
    · split
      · exact endActive_keeps K i _ _ (modFront_keeps K i _ a)
      · refine workTake_keeps K i ?_
        split
        · exact cutSoon_keeps K i formed
        · exact refreshTake_keeps K i formed

theorem reformOrActivate_keeps (i : IslandId) {p : Part} (a : I p) : I (reformOrActivate i p) := by
  unfold reformOrActivate
  split
  · exact reform_keeps K i a
  · exact activateFront_keeps K i a

theorem tellMonitors_keeps (o n : Source) {p : Part} (a : I p) : I (tellMonitors o n p) := by
  unfold tellMonitors
  extract_lets left
  have kept : I left := by
    unfold left
    split
    · exact ite_keeps a (K.clear _ _ _ _ _ a)
    · exact a
    · exact a
  split
  · exact ite_keeps (K.raise _ _ _ _ _ kept) kept
  · exact kept
  · exact kept

theorem setOnAir_keeps (i : IslandId) (n : Source) (c : OnAirCause) (q : Option Port) (f : Option Stamp) {p : Part}
    (a : I p) : I (setOnAir i n c q f p) := by
  unfold setOnAir
  refine followEnd_keeps K i ?_
  split
  · exact K.post _ _ _ (modIsland_keeps K i _ a)
  · exact tellMonitors_keeps K _ _ (K.post _ _ _ (modIsland_keeps K i _ a))

theorem clearNoSafe_keeps (i : IslandId) {p : Part} (a : I p) : I (clearNoSafe i p) := K.clear _ _ _ _ p a

theorem onAirFault_keeps (i : IslandId) {p : Part} (a : I p) : I (onAirFault i p) := by
  unfold onAirFault
  split
  · exact a
  · split
    · dsimp only
      split
      · exact commitTake_keeps K i _ _ (cutSoon_keeps K i (modFront_keeps K i _ a))
      · exact standbyNow_keeps K i a
    · exact standbyNow_keeps K i a

theorem onAirStop_keeps (i : IslandId) {p : Part} (a : I p) : I (onAirStop i p) := by
  unfold onAirStop
  split
  · exact a
  · exact standbyNow_keeps K i a

theorem examine_keeps (i : IslandId) {p : Part} (a : I p) : I (examine i p) := by
  unfold examine
  split
  · rename_i h _
    dsimp only
    have lamp : I (if (p.analog.lamp.get h).condition = some .lampFail then onAirFault i p else p) := by
      split
      · exact onAirFault_keeps K i a
      · exact a
    split
    · exact onAirFault_keeps K i a
    · split
      · exact lamp
      · exact onAirStop_keeps K i lamp
  · exact a
  · exact a

theorem fallBack_keeps (i : IslandId) (r : Reason) {p : Part} (a : I p) : I (fallBack i r p) := by
  unfold fallBack
  split
  · exact endFront_keeps K i _ _ a
  · exact a

theorem raiseFallBack_keeps (i : IslandId) (r : Reason) {p : Part} (a : I p) : I (raiseFallBack i r p) :=
  K.raise _ _ _ _ p a

theorem closeGuard_keeps (i : IslandId) {known : Part → Part} (k : ∀ q, I q → I (known q)) {p : Part} (a : I p) :
    I (closeGuard i known p) := by
  unfold closeGuard
  dsimp only
  split
  · exact k p a
  · exact raiseFallBack_keeps K i _ (k _ (fallBack_keeps K i _ (commit_keeps K i _ _ _ a)))

theorem takeGuard_keeps (i : IslandId) {p : Part} (a : I p) : I (takeGuard i p) := closeGuard_keeps K i (fun _ b => b) a

theorem meetGuard_keeps (i : IslandId) {p : Part} (a : I p) : I (meetGuard i p) := by
  unfold meetGuard
  split
  · exact takeGuard_keeps K i a
  · exact a

theorem meetGuardKnown_keeps (i : IslandId) {p : Part} (a : I p) : I (meetGuardKnown i p) := by
  unfold meetGuardKnown
  split
  · exact closeGuard_keeps K i (fun _ b => clearNoSafe_keeps K i b) a
  · exact clearNoSafe_keeps K i a

theorem endConfirmation_keeps (i : IslandId) {p : Part} (a : I p) : I (endConfirmation i p) :=
  K.fast i _ (modIsland_keeps K i _ a)

theorem confirmMove_keeps (i : IslandId) (c : Confirmation) {p : Part} (a : I p) : I (confirmMove i c p) := by
  unfold confirmMove
  refine meetGuardKnown_keeps K i (meetCommit_keeps K i (reformOrActivate_keeps K i (examine_keeps K i ?_)))
  have settled := fun f => setOnAir_keeps K i c.target .confirmed (some c.port) (some c.cut)
    (endConfirmation_keeps K i (modIsland_keeps K i f a))
  split
  · exact endFront_keeps K i _ _ (settled _)
  · exact settled _

theorem failMove_keeps (i : IslandId) (c : Confirmation) {p : Part} (a : I p) : I (failMove i c p) := by
  have unknown := fun f => setOnAir_keeps K i .unknown .failed none none
    (endConfirmation_keeps K i (modIsland_keeps K i f a))
  have followed : ∀ q, I q → I (raiseAlarm (.island i) .mirrorFault (word c.port.num) 0
      (meetCommit i (reformOrActivate i q))) := fun q b =>
    K.raise _ _ _ _ _ (meetCommit_keeps K i (reformOrActivate_keeps K i b))
  unfold failMove
  dsimp only
  split
  · refine K.raise _ _ _ _ _ (followed _ ?_)
    split
    · exact endFront_keeps K i _ _ (unknown _)
    · exact unknown _
  · refine followed _ ?_
    split
    · exact endFront_keeps K i _ _ (unknown _)
    · exact unknown _

theorem takeDeadline_keeps (i : IslandId) {p : Part} (a : I p) : I (takeDeadline i p) := by
  unfold takeDeadline
  split
  · exact failMove_keeps K i _ a
  · exact a

theorem reportSource_keeps (i : IslandId) (n : Source) (q : Option Port) {p : Part} (a : I p) :
    I (reportSource i n q p) := by
  unfold reportSource
  dsimp only
  have examined := examine_keeps K i (reform_keeps K i (setOnAir_keeps K i n .report q none a))
  split
  · exact a
  · split
    · exact meetGuard_keeps K i examined
    · exact meetGuardKnown_keeps K i examined

theorem stationReport_keeps (i : IslandId) (q : Port) (m : Bool) {p : Part} (a : I p) : I (stationReport i q m p) := by
  unfold stationReport
  split
  · exact reportSource_keeps K i _ _ (modIsland_keeps K i _ a)
  · split
    · exact a
    · exact reportSource_keeps K i _ _ (modIsland_keeps K i _ a)

theorem deliverStatus_keeps (i : IslandId) (q : Port) (m : Bool) {p : Part} (a : I p) : I (deliverStatus i q m p) := by
  unfold deliverStatus
  split
  · split
    · exact confirmMove_keeps K i _ a
    · exact a
  · exact stationReport_keeps K i q m a

theorem deliverRefusal_keeps (i : IslandId) (q : Port) {p : Part} (a : I p) : I (deliverRefusal i q p) := by
  unfold deliverRefusal
  split
  · split
    · exact failMove_keeps K i _ a
    · exact a
  · exact a

theorem endReached_keeps (i : IslandId) (h : HeadId) {p : Part} (a : I p) : I (endReached i h p) := by
  unfold endReached
  split
  · exact raiseFallBack_keeps K i _ (fallBack_keeps K i _ (standbyNow_keeps K i a))
  · exact a

theorem incomingFailed_keeps (i : IslandId) (h : HeadId) (r : Reason) {p : Part} (a : I p) :
    I (incomingFailed i h r p) := by
  unfold incomingFailed
  split
  · exact a
  · split
    · exact endActive_keeps K i _ _ a
    · exact a

theorem standbyRequest_keeps (i : IslandId) {p : Part} (a : I p) : I (standbyRequest i p) := by
  unfold standbyRequest
  dsimp only
  split
  · exact endFront_keeps K i _ _ (standbyNow_keeps K i a)
  · exact standbyNow_keeps K i a

/-- The reports of the heads are made of requests to the scheduler. -/
theorem SchedulerKeeps.reports (D : DriveKeeps I) : ReportKeeps I :=
  { D with
    settleTakes := fun _ a => settleTakes_keeps K a
    meetGuard := fun i _ a => meetGuard_keeps K i a
    followEnd := fun i _ a => followEnd_keeps K i a
    preds := fun h f _ a => mapPreds_keeps K h f a
    endReached := fun i h _ a => endReached_keeps K i h a
    onAirFault := fun i _ a => onAirFault_keeps K i a
    onAirStop := fun i _ a => onAirStop_keeps K i a
    incomingFailed := fun i h r _ a => incomingFailed_keeps K i h r a }

end

end Sys2Proof.Machine
end

section
/-! PROOFS. What the reports and the commands of the heads, the analog scanner and the ring keep, over the shared operations and
the requests to the scheduler that a property keeps. -/

namespace Sys2Proof.Machine

variable {I : Part → Prop}

/-! ### The checks of a head command -/

theorem onHead_keeps (w : Word) {f : HeadId → Part → Part × Status} {p : Part} (x : ∀ h, I (f h p).1) (a : I p) :
    I (onHead w f p).1 := by
  unfold onHead
  split
  · exact x _
  · exact a

theorem unlessLocal_keeps {f : HeadId → Part → Part × Status} {h : HeadId} {p : Part} (x : I (f h p).1) (a : I p) :
    I (unlessLocal f h p).1 := by
  unfold unlessLocal
  split
  · exact a
  · exact x

/-! ### Reports of the heads -/

section
variable (K : ReportKeeps I)
include K

theorem reportEnds_keeps {p : Part} (a : I p) : I (followEnds p) := K.followEnd .i2 _ (K.followEnd .i1 _ a)

theorem meetGuards_keeps {p : Part} (a : I p) : I (meetGuards p) := K.meetGuard .i2 _ (K.meetGuard .i1 _ a)

theorem settle_keeps {p : Part} (a : I p) : I (settle p) := meetGuards_keeps K (K.settleTakes _ a)

theorem tellFault_keeps (h : HeadId) {p : Part} (a : I p) : I (tellFault h p) := by
  have one : ∀ (i : IslandId) (q : Part), I q → I (incomingFailed i h .incomingFault
      (if (q.island i).onAir = .head h then onAirFault i q else q)) := fun i q b =>
    K.incomingFailed i h _ _ (ite_keeps (K.onAirFault i q b) b)
  unfold tellFault
  exact meetGuards_keeps K (one .i2 _ (one .i1 _ (K.settleTakes _ (K.preds h _ p a))))

theorem tellStop_keeps (h : HeadId) {p : Part} (a : I p) : I (tellStop h p) := by
  have one : ∀ (i : IslandId) (q : Part), I q → I (incomingFailed i h .incomingStopped
      (if (q.island i).onAir = .head h then onAirStop i q else q)) := fun i q b =>
    K.incomingFailed i h _ _ (ite_keeps (K.onAirStop i q b) b)
  unfold tellStop
  exact one .i2 _ (one .i1 _ (K.settleTakes _ (K.preds h _ p a)))

theorem tellStart_keeps (h : HeadId) {p : Part} (a : I p) : I (tellStart h p) := settle_keeps K (K.preds h _ p a)

theorem tellJump_keeps (h : HeadId) (f : Bool) {p : Part} (a : I p) : I (tellJump h f p) :=
  K.settleTakes _ (reportEnds_keeps K (K.preds h _ p a))

theorem tellBoundary_keeps (h : HeadId) (u : Bool) {p : Part} (a : I p) : I (tellBoundary h u p) :=
  K.settleTakes _ (K.preds h _ p a)

theorem tellReverse_keeps (h : HeadId) {p : Part} (a : I p) : I (tellReverse h p) :=
  settle_keeps K (reportEnds_keeps K (K.preds h _ p a))

/-! ### Head Controllers -/

theorem stopHead_keeps (h : HeadId) (c : Cause) {p : Part} (a : I p) : I (stopHead h c p) := by
  have stopping : I (enterDrive h .stopping c none p) := enterDrive_keeps K.toDriveKeeps h _ _ _ a
  have dark : I (if (p.head h).lampPolicy = .auto then switchLamp h false p else p) :=
    ite_keeps (switchLamp_keeps K.toDriveKeeps h _ a) a
  unfold stopHead
  split
  · exact tellStop_keeps K h stopping
  · exact tellStop_keeps K h stopping
  · exact tellStop_keeps K h stopping
  · exact K.settleTakes _ stopping
  · exact K.settleTakes _ stopping
  · exact K.settleTakes _ stopping
  · exact a
  · exact dark
  · exact dark
  · exact dark

theorem requestStop_keeps (h : HeadId) (c : Cause) {p : Part} (a : I p) : I (requestStop h c p) :=
  ite_keeps (stopHead_keeps K h c a) (meetGuards_keeps K (stopHead_keeps K h c a))

theorem faultHead_keeps (h : HeadId) (k : FaultKind) {p : Part} (a : I p) : I (faultHead h k p) := by
  unfold faultHead
  split
  · exact K.raise _ _ _ _ _ a
  · exact tellFault_keeps K h (enterDrive_keeps K.toDriveKeeps h _ _ _ (K.head h _ p (fun _ => rfl) a))

theorem cueAction_keeps (h : HeadId) (k : CueKind) {p : Part} (a : I p) : I (cueAction h k p) := by
  cases k with
  | ending => exact K.endReached .i2 h _ (K.endReached .i1 h _ a)
  | stop => exact stopHead_keeps K h _ a
  | sop => exact a
  | changeover => exact a
  | mark => exact a

theorem fireCue_keeps (h : HeadId) (b : Bool) (c : Cue) {p : Part} (a : I p) : I (fireCue h b c p) :=
  cueAction_keeps K h _ (K.post _ _ _ (K.head h _ p (fun _ => rfl) a))

theorem passFrame_keeps (h : HeadId) (b : Bool) (f : Int) {p : Part} (a : I p) : I (passFrame h b f p) := by
  have missed := missedMarkStep_keeps K.toDriveKeeps h f a
  unfold passFrame
  dsimp only
  split
  · exact fireCue_keeps K h b _ missed
  · exact missed

theorem runningBoundary_keeps (h : HeadId) {p : Part} (a : I p) : I (runningBoundary h p) := by
  unfold runningBoundary
  exact settle_keeps K (reportEnds_keeps K (passFrame_keeps K h _ _ (K.head h _ _ (fun _ => rfl)
    (tellBoundary_keeps K h _ (cadenceBoundary_keeps K.toDriveKeeps h a)))))

theorem idleBoundary_keeps (h : HeadId) {p : Part} (a : I p) : I (idleBoundary h p) :=
  settle_keeps K (reportEnds_keeps K (tellBoundary_keeps K h _ (followCues_keeps K.toDriveKeeps h a)))

theorem reportBoundary_keeps (h : HeadId) (f : Bool) {p : Part} (a : I p) : I (reportBoundary h f p) :=
  ite_keeps (ite_keeps (runningBoundary_keeps K h a) (idleBoundary_keeps K h a))
    (tellReverse_keeps K h (followCues_keeps K.toDriveKeeps h a))

theorem followLeg_keeps (h : HeadId) {p : Part} (a : I p) : I (followLeg h p) := by
  unfold followLeg
  dsimp only
  split
  · exact a
  · exact ite_keeps a (ite_keeps (settle_keeps K (enterDrive_keeps K.toDriveKeeps h _ _ _ a))
      (ite_keeps (settle_keeps K (enterDrive_keeps K.toDriveKeeps h _ _ _ a)) a))

theorem countedPerf_keeps (h : HeadId) (f : Bool) {p : Part} (a : I p) : I (countedPerf h f p) := by
  unfold countedPerf
  extract_lets x pos moved reported followed
  have movedKept : I moved := loseParked_keeps K.toDriveKeeps h (K.head h _ p (fun _ => rfl) a)
  have followedKept : I followed := followLeg_keeps K h
    (ite_keeps (reportBoundary_keeps K h f movedKept) (ite_keeps (settle_keeps K movedKept) movedKept))
  exact ite_keeps (endLimit_keeps K.toDriveKeeps h followedKept) followedKept

theorem takeTach_keeps (h : HeadId) (f : Bool) {p : Part} (a : I p) : I (takeTach h f p) := by
  unfold takeTach
  extract_lets q x
  have timed : I q := K.head h _ p (fun _ => rfl) a
  exact ite_keeps (K.raise _ _ _ _ _ (K.head h _ _ (fun _ => rfl) timed)) (countedPerf_keeps K h f timed)

theorem decidePark_keeps (h : HeadId) (c : CueUp) {p : Part} (a : I p) : I (decidePark h c p) := by
  have entered : ∀ d e q, I q → I (settle (enterDrive h d e none q)) := fun d e q b =>
    settle_keeps K (enterDrive_keeps K.toDriveKeeps h d e none b)
  unfold decidePark
  exact ite_keeps (entered _ _ _ (K.head h _ p (fun _ => rfl) a))
    (ite_keeps (entered _ _ _ (K.head h _ p (fun _ => rfl) a)) (K.raise _ _ _ _ _ (entered _ _ _ a)))

theorem takeSettleExpiry_keeps (h : HeadId) {p : Part} (a : I p) : I (takeSettleExpiry h p) := by
  unfold takeSettleExpiry
  split
  · exact settle_keeps K (enterDrive_keeps K.toDriveKeeps h _ _ _ a)
  · exact decidePark_keeps K h _ a
  · exact a

theorem beginCueUp_keeps (h : HeadId) (t : Int) (c : Cause) {p : Part} (a : I p) : I (beginCueUp h t c p) := by
  have parked : ∀ f : Head → Head, (∀ x : Head, (f x).assigned = x.assigned) →
      I (if (p.head h).drive = .parked then p.modHead h f else enterDrive h .parked c none (p.modHead h f)) := fun f e =>
    ite_keeps (K.head h f p e a) (enterDrive_keeps K.toDriveKeeps h _ _ _ (K.head h f p e a))
  unfold beginCueUp
  exact ite_keeps (settle_keeps K (parked _ fun _ => rfl))
    (settle_keeps K (enterDrive_keeps K.toDriveKeeps h _ _ _ (K.head h _ p (fun _ => rfl) a)))

theorem startHead_keeps (h : HeadId) (c : Cause) {p : Part} (a : I p) : I (startHead h c p).1 := by
  unfold startHead
  split <;> first
    | exact a
    | exact tellStart_keeps K h (startDrive_keeps K.toDriveKeeps h c a)

theorem cueToId_keeps (h : HeadId) (id : Nat) (c : Cause) {p : Part} (a : I p) : I (cueToId h id c p).1 := by
  unfold cueToId
  dsimp only
  split
  · exact a
  · split
    · exact a
    · split
      · exact a
      · exact beginCueUp_keeps K h _ c a

theorem cueToFrame_keeps (h : HeadId) (t : Option Int) {p : Part} (a : I p) : I (cueToFrame h t p).1 := by
  unfold cueToFrame
  split
  · exact a
  · split
    · exact beginCueUp_keeps K h _ _ a
    · exact a

theorem setPosition_keeps (h : HeadId) (f : Int) {p : Part} (a : I p) : I (setPosition h f p) :=
  leaveLimit_keeps K.toDriveKeeps h (meetGuards_keeps K (tellJump_keeps K h false
    (followCues_keeps K.toDriveKeeps h (K.head h _ p (fun _ => rfl) a))))

theorem configureHead_keeps (h : HeadId) (c : HeadSettings) {p : Part} (a : I p) : I (configureHead h c p) := by
  have set : I (p.modHead h fun x => { x with settings := c, lampPolicy := c.lampPolicy }) := K.head h _ p (fun _ => rfl) a
  unfold configureHead
  refine ite_keeps (settle_keeps K set) (meetGuards_keeps K (tellJump_keeps K h false (followCues_keeps K.toDriveKeeps h ?_)))
  exact ite_keeps (enterDrive_keeps K.toDriveKeeps h _ _ _ (K.head h _ _ (fun _ => rfl) set))
    (K.head h _ _ (fun _ => rfl) set)

/-! ### Cue tables and marks -/

theorem reviewCues_keeps {p : Part} (a : I p) : I (reviewCues p) := settle_keeps K (reportEnds_keeps K a)

theorem correctCues_keeps (h : HeadId) (x y : Int) {p : Part} (a : I p) : I (correctCues h x y p) :=
  ite_keeps (foldl_keeps (fun _ f => passFrame_keeps K h true f) _ a) (followCues_keeps K.toDriveKeeps h a)

theorem correct_keeps (h : HeadId) (t : Int) (e : EventItem) {p : Part} (a : I p) : I (correct h t e p) := by
  unfold correct
  exact leaveLimit_keeps K.toDriveKeeps h (reviewCues_keeps K (correctCues_keeps K h _ _ (tellJump_keeps K h true
    (K.post _ _ _ (K.head h _ p (fun _ => rfl) a)))))

theorem confirmCue_keeps (h : HeadId) (c : Cue) (f : Int) {p : Part} (a : I p) : I (confirmCue h c f p) :=
  ite_keeps (correct_keeps K h _ _ (K.head h _ p (fun _ => rfl) a)) (K.post _ _ _ (K.head h _ p (fun _ => rfl) a))

theorem takeMark_keeps (h : HeadId) {p : Part} (a : I p) : I (takeMark h p) := by
  have latched : I (p.modHead h fun x => { x with mark := some (p.head h).pos.frame }) := K.head h _ p (fun _ => rfl) a
  unfold takeMark
  dsimp only
  split
  · exact a
  · split
    · exact confirmCue_keeps K h _ _ latched
    · exact K.post _ _ _ latched

/-! ### Analog scanner -/

theorem lampFault_keeps (h : HeadId) {p : Part} (a : I p) : I (lampFault h p) := by
  have one : ∀ (i : IslandId) (q : Part), I q → I (if (q.island i).onAir = .head h then onAirFault i q else q) :=
    fun i q b => ite_keeps (K.onAirFault i q b) b
  exact one .i2 _ (one .i1 _ a)

theorem modChannel_keeps (k : ChannelId) (f : Channel → Channel) {p : Part} (a : I p) : I (p.modChannel k f) :=
  K.analog _ p a

theorem deliverCondition_keeps (k : ChannelId) (d : Delivery) (w : Word) {p : Part} (a : I p) :
    I (deliverCondition k d w p) := by
  unfold deliverCondition
  split
  · exact a
  · exact K.raise _ _ _ _ _ a
  · exact K.clear _ _ _ _ _ a
  · exact ite_keeps (lampFault_keeps K _ (K.raise _ _ _ _ _ a)) (K.raise _ _ _ _ _ a)
  · exact K.clear _ _ _ _ _ a
  · exact faultHead_keeps K _ _ a
  · exact a

theorem convertReference_keeps (r : Nat) {p : Part} (a : I p) : I (convertReference r p) := by
  unfold convertReference
  dsimp only
  refine deliverCondition_keeps K _ _ _ ?_
  split
  · exact K.analog _ _ (K.analog _ p a)
  · exact K.analog _ p a
  · exact K.analog _ p a

theorem convertChannel_keeps (k : ChannelId) (r : Nat) {p : Part} (a : I p) : I (convertChannel k r p) := by
  have taken := modChannel_keeps K k (Channel.taken (p.channelMode k) r) a
  unfold convertChannel
  dsimp only
  refine ite_keeps taken ?_
  exact deliverCondition_keeps K _ _ _ (modChannel_keeps K _ _
    (deliverCondition_keeps K _ _ _ (modChannel_keeps K _ _ taken)))

theorem takeConversion_keeps (r : Nat) {p : Part} (a : I p) : I (takeConversion r p) := by
  have next : I { p with analog := { p.analog with next := p.analog.next + 1 } } := K.analog _ p a
  unfold takeConversion
  dsimp only
  split
  · exact a
  · exact convertReference_keeps K r next
  · exact convertChannel_keeps K _ r next
  · exact convertChannel_keeps K _ r next

/-! ### Head and cue commands -/

theorem startCommand_keeps (w : Word) {p : Part} (a : I p) : I (startCommand w p).1 :=
  onHead_keeps w (fun h => unlessLocal_keeps (startHead_keeps K h _ a) a) a

theorem stopCommand_keeps (w : Word) {p : Part} (a : I p) : I (stopCommand w p).1 :=
  onHead_keeps w (fun h => unlessLocal_keeps (requestStop_keeps K h _ a) a) a

theorem cueUpCommand_keeps (w form : Word) (arg : BitVec 32) {p : Part} (a : I p) : I (cueUpCommand w form arg p).1 := by
  refine onHead_keeps w (fun h => unlessLocal_keeps ?_ a) a
  split
  · exact cueToFrame_keeps K h _ a
  · exact cueToFrame_keeps K h _ a
  · exact cueToId_keeps K h _ _ a
  · exact a

theorem setPositionCommand_keeps (w : Word) (f : BitVec 32) {p : Part} (a : I p) : I (setPositionCommand w f p).1 := by
  refine onHead_keeps w (fun h => unlessLocal_keeps ?_ a) a
  split
  · exact a
  · split
    · exact setPosition_keeps K h _ a
    · exact a

theorem lampCommand_keeps (w on : Word) {p : Part} (a : I p) : I (lampCommand w on p).1 := by
  refine onHead_keeps w (fun h => ?_) a
  split
  · exact a
  · split
    · exact a
    · exact switchLamp_keeps K.toDriveKeeps h _ (K.head h _ p (fun _ => rfl) a)

theorem clearFaultCommand_keeps (w : Word) {p : Part} (a : I p) : I (clearFaultCommand w p).1 := by
  refine onHead_keeps w (fun h => ?_) a
  dsimp only
  split
  · exact a
  · split
    · exact a
    · exact meetGuards_keeps K (clearLatched_keeps K.toDriveKeeps h (K.settleTakes _
        (enterDrive_keeps K.toDriveKeeps h _ _ _ (K.head h _ p (fun _ => rfl) a))))

theorem configureHeadCommand_keeps (w : Word) (ws : HeadWords) {p : Part} (a : I p) :
    I (configureHeadCommand w ws p).1 := by
  refine onHead_keeps w (fun h => ?_) a
  split
  · exact a
  · split
    · exact configureHead_keeps K h _ a
    · exact a

theorem loadCueCommand_keeps (w id kind : Word) (f : BitVec 32) (window correct : Word) {p : Part} (a : I p) :
    I (loadCueCommand w id kind f window correct p).1 := by
  refine onHead_keeps w (fun h => ?_) a
  split
  · split
    · exact a
    · split
      · exact a
      · split
        · exact a
        · exact reviewCues_keeps K (K.head h _ p (fun _ => rfl) a)
  · exact a

theorem deleteCueCommand_keeps (w id : Word) {p : Part} (a : I p) : I (deleteCueCommand w id p).1 := by
  refine onHead_keeps w (fun h => ?_) a
  split
  · exact a
  · split
    · exact a
    · split
      · exact a
      · exact reviewCues_keeps K (K.head h _ p (fun _ => rfl) a)

theorem clearCuesCommand_keeps (w : Word) {p : Part} (a : I p) : I (clearCuesCommand w p).1 := by
  refine onHead_keeps w (fun h => ?_) a
  split
  · exact a
  · exact reviewCues_keeps K (K.head h _ p (fun _ => rfl) a)

end

end Sys2Proof.Machine
end

section
/-! PROOFS. What every step keeps: a property that each request to a block keeps is kept by every command, and by the step. -/

namespace Sys2Proof.Machine

variable {I : Part → Prop}

/-- A property that the events and the commands of the heads, of their cue tables and of the analog scanner keep. -/
structure HeadsKeep (I : Part → Prop) : Prop where
  tach : ∀ h f p, I p → I (takeTach h f p)
  gap : ∀ h p, I p → I (takeGapExpiry h p)
  settled : ∀ h p, I p → I (takeSettleExpiry h p)
  speed : ∀ h p, I p → I (takeSpeedTimeout h p)
  slow : ∀ h p, I p → I (takeSlowStart h p)
  mark : ∀ h p, I p → I (takeMark h p)
  conversion : ∀ r p, I p → I (takeConversion r p)
  startHead : ∀ h c p, I p → I (startHead h c p).1
  requestStop : ∀ h c p, I p → I (requestStop h c p)
  cueToId : ∀ h id c p, I p → I (cueToId h id c p).1
  cueUp : ∀ w form arg p, I p → I (cueUpCommand w form arg p).1
  setPosition : ∀ w f p, I p → I (setPositionCommand w f p).1
  lamp : ∀ w on p, I p → I (lampCommand w on p).1
  clearFault : ∀ w p, I p → I (clearFaultCommand w p).1
  configure : ∀ w ws p, I p → I (configureHeadCommand w ws p).1
  loadCue : ∀ w id kind f window correct p, I p → I (loadCueCommand w id kind f window correct p).1
  deleteCue : ∀ w id p, I p → I (deleteCueCommand w id p).1
  clearCues : ∀ w p, I p → I (clearCuesCommand w p).1

theorem ReportKeeps.heads (K : ReportKeeps I) : HeadsKeep I where
  tach h f _ a := takeTach_keeps K h f a
  gap h _ a := faultHead_keeps K h _ a
  settled h _ a := takeSettleExpiry_keeps K h a
  speed h _ a := takeSpeedTimeout_keeps K.toDriveKeeps h a
  slow h _ a := takeSlowStart_keeps K.toDriveKeeps h a
  mark h _ a := takeMark_keeps K h a
  conversion r _ a := takeConversion_keeps K r a
  startHead h c _ a := startHead_keeps K h c a
  requestStop h c _ a := requestStop_keeps K h c a
  cueToId h id c _ a := cueToId_keeps K h id c a
  cueUp w form arg _ a := cueUpCommand_keeps K w form arg a
  setPosition w f _ a := setPositionCommand_keeps K w f a
  lamp w on _ a := lampCommand_keeps K w on a
  clearFault w _ a := clearFaultCommand_keeps K w a
  configure w ws _ a := configureHeadCommand_keeps K w ws a
  loadCue w id kind f window correct _ a := loadCueCommand_keeps K w id kind f window correct a
  deleteCue w id _ a := deleteCueCommand_keeps K w id a
  clearCues w _ a := clearCuesCommand_keeps K w a

/-- A take that may join the list of island `i` (R92, R93): QUEUED, the list not full, its incoming source assigned to the island
and known where the preset is. -/
structure Take.Joins (p : Part) (i : IslandId) (t : Take) : Prop where
  queued : t.state = .queued
  room : (p.island i).takes.length < Config.maxTakes
  assigned : ∀ h, t.incoming = .head h → p.isAssigned i h = true
  known : t.incoming ≠ .unknown ∨ t.incoming = (p.island i).preset

/-- A property that the commands of the ring and the panel's keys keep. -/
structure CommandKeeps (I : Part → Prop) : Prop extends HeadsKeep I where
  post : ∀ s e p, I p → I (post s e p)
  ref : ∀ r p, I p → I { p with ref := r }
  analog : ∀ a p, I p → I { p with analog := a }
  panel : ∀ x p, I p → I { p with panel := x }
  flags : ∀ p, I p → I (resetFlags p)
  acknowledge : ∀ s p, I p → I (acknowledge s p)
  clearAll : ∀ p, I p → I (clearAll p)
  assign : ∀ h a p, p.onAir h = false → p.incomingNamed h = false → I p → I (assignHead h a p)
  setIsland : ∀ i c p, I p → I (setIsland i c p)
  preset : ∀ i p, I p → I (p.modIsland i fun x => { x with preset := p.nextPreset i })
  authority : ∀ i (f : Island → Authority) p, I p → I (p.modIsland i fun x => { x with authority := f x })
  join : ∀ i t p, t.Joins p i → I p → I (joinTake i t p)
  activate : ∀ i p, I p → I (activateFront i p)
  cancel : ∀ i tag p, I p → I (p.modIsland i fun x => { x with takes := dropQueued tag x.takes })
  abort : ∀ i t p, (p.island i).active = some t → t.state ≠ .committed → I p → I (endActive i .aborted .command p)
  standby : ∀ i p, I p → I (standbyRequest i p)

/-! ### Commands of the ring -/

section
variable (K : CommandKeeps I)
include K

theorem ackAlarmsCommand_keeps (w : Word) {p : Part} (a : I p) : I (ackAlarmsCommand w p).1 := by
  unfold ackAlarmsCommand
  split
  · exact K.acknowledge _ p a
  · exact a

theorem setAnalogLimitsCommand_keeps (c l h d : Word) {p : Part} (a : I p) : I (setAnalogLimitsCommand c l h d p).1 := by
  unfold setAnalogLimitsCommand
  split
  · exact a
  · dsimp only
    split
    · exact a
    · exact K.analog _ p a

theorem setPanelModeCommand_keeps (m d : Word) {p : Part} (a : I p) : I (setPanelModeCommand m d p).1 := by
  unfold setPanelModeCommand
  split
  · exact a
  · exact K.panel _ p a

theorem assignHeadCommand_keeps (w i q : Word) {p : Part} (a : I p) : I (assignHeadCommand w i q p).1 := by
  refine onHead_keeps w (fun h => unlessLocal_keeps ?_ a) a
  split
  · exact a
  · split
    · exact a
    · split
      · exact a
      · rename_i free
        split
        · exact a
        · rename_i unnamed
          split
          · exact a
          · exact K.assign h _ p (by simpa using free) (by simpa using unnamed) a

omit K in
theorem onIsland_keeps (w : Word) {f : IslandId → Part → Part × Status} {p : Part} (x : ∀ i, I (f i p).1) (a : I p) :
    I (onIsland w f p).1 := by
  unfold onIsland
  split
  · exact x _
  · exact a

omit K in
theorem unlessPanel_keeps {f : IslandId → Part → Part × Status} {i : IslandId} {p : Part} (x : I (f i p).1) (a : I p) :
    I (unlessPanel f i p).1 := by
  unfold unlessPanel
  split
  · exact a
  · exact x

theorem configureIslandCommand_keeps (w x s l t f g : Word) {p : Part} (a : I p) :
    I (configureIslandCommand w x s l t f g p).1 := by
  refine onIsland_keeps w (fun i => ?_) a
  split
  · exact a
  · split
    · exact a
    · split
      · exact a
      · split
        · exact a
        · exact K.setIsland i _ p a

theorem requestTake_keeps (i : IslandId) {t : Take} (c : Bool) {p : Part} (queued : t.state = .queued)
    (known : t.incoming ≠ .unknown ∨ t.incoming = (p.island i).preset) (a : I p) : I (requestTake i t c p).1 := by
  unfold requestTake
  split
  · exact a
  · rename_i room
    split
    · exact a
    · rename_i assigned
      split
      · exact a
      · split
        · exact a
        · refine K.join i t p ⟨queued, by omega, fun h e => ?_, known⟩ a
          simpa [Take.head?, e] using assigned

omit K in
theorem readIncoming_known {w : Word} {s : Source} (e : readIncoming w = some s) : s ≠ .unknown := by
  unfold readIncoming at e
  rintro rfl
  split at e
  · cases e
  · obtain ⟨h, -, e⟩ := Option.map_eq_some_iff.1 e
    cases e

theorem queueTake_keeps (w tag n m : Word) (f : Stamp) (o c t r : Word) {p : Part} (a : I p) :
    I (queueTake w tag n m f o c t r p).1 := by
  refine onIsland_keeps w (fun i => unlessPanel_keeps ?_ a) a
  split
  · rename_i incoming _ _
    split
    · exact a
    · exact requestTake_keeps K i _ rfl (.inl (readIncoming_known incoming)) a
  · exact a

theorem followTake_keeps (i : IslandId) (before : Part) {p : Part} (a : I p) : I (followTake i before p) :=
  ite_keeps (K.activate i p a) a

theorem followTakeOf_keeps (w : Word) (before : Part) {p : Part} (a : I p) : I (followTakeOf w before p) := by
  unfold followTakeOf
  split
  · exact followTake_keeps K _ before a
  · exact a

theorem takeCommand_keeps (w tag n m : Word) (f : Stamp) (o c t r : Word) {p : Part} (a : I p) :
    I (takeCommand w tag n m f o c t r p).1 :=
  followTakeOf_keeps K w p (queueTake_keeps K w tag n m f o c t r a)

theorem cancelTakeCommand_keeps (w tag : Word) {p : Part} (a : I p) : I (cancelTakeCommand w tag p).1 := by
  refine onIsland_keeps w (fun i => unlessPanel_keeps ?_ a) a
  split
  · exact K.post _ _ _ (K.cancel i tag p a)
  · split
    · exact a
    · exact a

theorem abortTakeCommand_keeps (w : Word) {p : Part} (a : I p) : I (abortTakeCommand w p).1 := by
  refine onIsland_keeps w (fun i => unlessPanel_keeps ?_ a) a
  split
  · exact a
  · rename_i t active
    split
    · exact a
    · rename_i open'
      exact K.abort i t p active open' a

theorem standbyCommand_keeps (w : Word) {p : Part} (a : I p) : I (standbyCommand w p).1 :=
  onIsland_keeps w (fun i => K.standby i p a) a

theorem startEntry_keeps (w : Word) {p : Part} (a : I p) : I (startCommand w p).1 :=
  onHead_keeps w (fun h => unlessLocal_keeps (K.startHead h _ p a) a) a

theorem stopEntry_keeps (w : Word) {p : Part} (a : I p) : I (stopCommand w p).1 :=
  onHead_keeps w (fun h => unlessLocal_keeps (K.requestStop h _ p a) a) a

theorem clearCommand_keeps {p : Part} (a : I p) : I (clearCommand p).1 := by
  unfold clearCommand
  dsimp only
  exact K.clearAll p a

theorem setTrim_keeps (w : Word) {p : Part} (a : I p) : I (setTrim w p).1 := K.ref _ p a

omit K in
/-- A command of the ring, as its owner takes it, keeps the property of a part. -/
def KeptBy (I : Part → Prop) (p : Part) (f : Part → Part × Status) : Prop := I (f p).1

theorem runEntry_keeps (w : Nat → Word) {p : Part} (a : I p) : I (runEntry w p).1 := by
  show KeptBy I p (runEntry w)
  unfold runEntry
  split
  · exact setTrim_keeps K _ a
  · exact clearCommand_keeps K a
  · exact ackAlarmsCommand_keeps K _ a
  · unfold KeptBy resetFlagsCommand
    exact K.flags p a
  · exact setAnalogLimitsCommand_keeps K _ _ _ _ a
  · exact setPanelModeCommand_keeps K _ _ a
  · exact K.configure _ _ p a
  · exact assignHeadCommand_keeps K _ _ _ a
  · exact K.setPosition _ _ p a
  · exact K.cueUp _ _ _ p a
  · exact startEntry_keeps K _ a
  · exact stopEntry_keeps K _ a
  · exact K.lamp _ _ p a
  · exact K.clearFault _ p a
  · exact K.loadCue _ _ _ _ _ _ p a
  · exact K.deleteCue _ _ p a
  · exact K.clearCues _ p a
  · exact configureIslandCommand_keeps K _ _ _ _ _ _ _ a
  · exact takeCommand_keeps K _ _ _ _ _ _ _ _ _ a
  · exact cancelTakeCommand_keeps K _ _ a
  · exact abortTakeCommand_keeps K _ a
  · exact standbyCommand_keeps K _ a
  · exact a

theorem enterEntry_keeps (w : Nat → Word) {p : Part} (a : I p) : I (enterEntry w p).1 := by
  unfold enterEntry
  split
  · exact queueTake_keeps K _ _ _ _ _ _ _ _ _ a
  · exact runEntry_keeps K w a

theorem followEntry_keeps (w : Nat → Word) (before : Part) {p : Part} (a : I p) : I (followEntry w before p) :=
  ite_keeps (followTakeOf_keeps K _ before a) a

/-! ### Keys -/

theorem pressTake_keeps (i : IslandId) {p : Part} (a : I p) : I (pressTake i p).1 := by
  unfold pressTake
  dsimp only
  split
  · exact a
  · exact followTake_keeps K i p (requestTake_keeps K i false rfl (.inr rfl) a)

theorem pressCue_keeps (h : HeadId) {p : Part} (a : I p) : I (pressCue h p).1 := by
  unfold pressCue
  split
  · exact K.cueToId h _ _ p a
  · exact a

omit K in
theorem ite_press_keeps {c : Prop} [Decidable c] {x y : Press} (a : I x.1) (b : I y.1) : I (if c then x else y).1 := by
  split
  · exact a
  · exact b

theorem press_keeps (k : Key) (l : Bool) {p : Part} (a : I p) : I (press k l p).1 := by
  cases k with
  | authority i => exact K.authority i (fun x => if x.authority = .panel then .remote else .panel) p a
  | standby i => exact K.standby i p a
  | ack => exact K.acknowledge none p a
  | start h => exact ite_press_keeps (K.startHead h _ p a) a
  | stop h => exact ite_press_keeps (K.requestStop h _ p a) a
  | cue h => exact ite_press_keeps (pressCue_keeps K h a) a
  | preset i => exact ite_press_keeps (K.preset i p a) a
  | take i => exact ite_press_keeps (pressTake_keeps K i a) a

theorem handlePress_keeps (r : Fin 8) (n : Nat) {p : Part} (a : I p) : I (handlePress r n p) := by
  unfold handlePress
  split
  · exact a
  · exact K.post _ _ _ (press_keeps K _ _ a)

theorem beginRow_keeps (r : Fin 8) (t : Nat) {p : Part} (a : I p) : I (beginRow r t p) := by
  have row := K.panel { p.panel with row := r, begun := t, dwellNow := p.panel.dwell } p a
  unfold beginRow
  exact ite_keeps (K.panel _ _ (ite_keeps (K.panel _ _ row) row)) (K.panel _ _ row)

theorem takeDwellEnd_keeps (l : BitVec 4) {p : Part} (a : I p) : I (takeDwellEnd l p) := by
  unfold takeDwellEnd
  exact beginRow_keeps K _ _ (ite_keeps (foldl_keeps (fun _ n => handlePress_keeps K _ n) _ (K.panel _ p a)) (K.panel _ p a))

end

/-! ### Every command and the step -/

/-- A property that what each command does keeps, a reset and the end of a load apart, each event of the part's own when it is
due. -/
structure RunKeeps (I : Part → Prop) : Prop extends CommandKeeps I where
  time : ∀ t p, I p → I { p with time := t }
  status : ∀ c p, I p → I { p with cmd := { p.cmd with status := c } }
  field : ∀ p, I p → I (fieldEvent p)
  raise : ∀ s k a b p, I p → I (raiseAlarm s k a b p)
  clear : ∀ s k a b p, I p → I (clearAlarm s k a b p)
  startField : ∀ i p, startDue i p = true → I p → I (takeStartField i p)
  commitField : ∀ i p, commitDue i p = true → I p → I (takeCommitField i p)
  guard : ∀ i p, guardDue i p = true → I p → I (takeGuard i p)
  deadline : ∀ i p, I p → I (takeDeadline i p)
  poll : ∀ i p, I p → I (takePollExpiry i p)
  sent : ∀ p, p.link.line = .sending → I p → I (takeSent p)
  receive : ∀ c p, I p → I (receive c p)
  timeout : ∀ p, p.link.line = .awaiting → I p → I (takeTimeout p)
  gapEnd : ∀ p, p.link.line = .gap → I p → I (takeGapEnd p)
  begins : ∀ c p, I p → I (beginCycle c p)
  ends : ∀ ack p, I p → I (endCycle ack p)
  withhold : ∀ x p, I p → I (withhold x p)
  answer : ∀ x l h p, I p → I (answerRead x l h p)
  finish : ∀ d p, p.agent.onPort = true → I p → I (finishWord d p)
  fail : ∀ p, p.agent.onPort = true → I p → I (failWord p)
  starve : ∀ p, starveDue p = true → I p → I (takeStarve p)

section
variable (K : RunKeeps I)
include K

theorem elapse_keeps (n : Nat) {p : Part} (a : I p) : I (elapse n p) := by
  rw [elapse_eq]
  exact K.time _ p a

theorem timed_keeps (dt : Nat) {due : Part → Bool} {f : Part → Part} {p : Part}
    (x : ∀ q, due q = true → I q → I (f q)) (a : I p) : I (timed dt due f p) := by
  unfold timed
  dsimp only
  split
  · rename_i c
    exact x _ (Bool.and_eq_true_iff.1 c).2 (elapse_keeps K dt a)
  · exact elapse_keeps K dt a

theorem event_keeps (dt : Nat) {f : Part → Part} {p : Part} (x : ∀ q, I q → I (f q)) (a : I p) : I (event dt f p) :=
  timed_keeps K dt (fun q _ => x q) a

omit K in
theorem onField_keeps {due : Part → Bool} {f : Part → Part} {p : Part} (x : due p = true → I p → I (f p)) (a : I p) :
    I (onField due f p) := by
  unfold onField
  split
  · rename_i c
    exact x (Bool.and_eq_true_iff.1 c).2 a
  · exact a

theorem commanded_keeps {f : Part → Part × Status} {p : Part} (x : I (f p).1) (a : I p) : I (commanded f p) :=
  ite_keeps (K.status _ _ x) a

theorem enterRef_keeps (n : RefState) {p : Part} (a : I p) : I (enterRef n p) := K.post _ _ _ (K.ref _ p a)

theorem raiseRefLoss_keeps {p : Part} (a : I p) : I (raiseRefLoss p) := K.raise _ _ _ _ p a

theorem beginField_keeps (t l : Nat) {p : Part} (a : I p) : I (beginField t l p) := K.ref _ p a

theorem rephase_keeps {p : Part} (a : I p) : I (rephase p) :=
  K.ref _ _ (beginField_keeps K _ _ (ite_keeps a (K.field p a)))

theorem slewingPulse_keeps {p : Part} (a : I p) : I (slewingPulse p) :=
  ite_keeps (ite_keeps (K.clear _ _ _ _ _ (enterRef_keeps K _ (rephase_keeps K (K.ref _ p a)))) (K.ref _ _ (K.ref _ p a)))
    (raiseRefLoss_keeps K (enterRef_keeps K _ (K.ref _ _ (K.ref _ p a))))

theorem flywheelPulse_keeps {p : Part} (a : I p) : I (flywheelPulse p) :=
  ite_keeps (ite_keeps
      (K.clear _ _ _ _ _ (enterRef_keeps K _ (enterRef_keeps K _ (rephase_keeps K (K.ref _ p a)))))
      (enterRef_keeps K _ (K.ref _ _ (K.ref _ p a))))
    (K.ref _ p a)

theorem acceptPulse_keeps {p : Part} (a : I p) : I (acceptPulse p) :=
  K.ref _ _ (beginField_keeps K _ _ (K.field p a))

theorem takeStationPulse_keeps {p : Part} (a : I p) : I (takeStationPulse p) := by
  unfold takeStationPulse
  dsimp only
  split
  · exact ite_keeps (acceptPulse_keeps K a) a
  · exact ite_keeps (enterRef_keeps K _ (rephase_keeps K (K.ref _ p a))) (K.ref _ p a)
  · exact flywheelPulse_keeps K a
  · exact slewingPulse_keeps K a

theorem takeFlywheelExpiry_keeps {p : Part} (a : I p) : I (takeFlywheelExpiry p) := by
  have begun := fun t l => beginField_keeps K t l (K.field p a)
  unfold takeFlywheelExpiry
  dsimp only
  split
  · exact ite_keeps (raiseRefLoss_keeps K (enterRef_keeps K _ (K.ref _ _ (begun _ _)))) (K.ref _ _ (begun _ _))
  · exact begun _ _
  · exact begun _ _
  · exact begun _ _

theorem takeWindowEnd_keeps {p : Part} (a : I p) : I (takeWindowEnd p) := by
  have begun := fun t l => beginField_keeps K t l (K.field p a)
  exact ite_keeps (raiseRefLoss_keeps K (enterRef_keeps K _ (K.ref _ _ (K.ref _ _ (begun _ _))))) (K.ref _ _ (begun _ _))

theorem takePulseGap_keeps {p : Part} (a : I p) : I (takePulseGap p) :=
  raiseRefLoss_keeps K (enterRef_keeps K _ (K.ref _ p a))

theorem dwellEnd_keeps (dt : Nat) (l : BitVec 4) {p : Part} (a : I p) : I (dwellEnd dt l p) :=
  ite_keeps (takeDwellEnd_keeps K.toCommandKeeps l (elapse_keeps K dt a)) (elapse_keeps K dt a)

theorem cycleMoment_keeps (dt : Nat) (c : CyclePhase) {p : Part} (a : I p) : I (cycleMoment dt c p) := by
  unfold cycleMoment
  cases c with
  | begins c => exact K.begins c _ (elapse_keeps K dt a)
  | ends ack => exact K.ends ack _ (elapse_keeps K dt a)

theorem wholeCycle_keeps (c : BusCycle) (ack : Bool) {p : Part} (a : I p) : I (wholeCycle c ack p) := by
  unfold wholeCycle
  split
  · exact K.ends ack _ (K.begins c p a)
  · exact K.begins c p a
  · exact a

theorem endWord_keeps (r : MemReply) {p : Part} (on : p.agent.onPort = true) (a : I p) : I (endWord r p) := by
  cases r with
  | ack d => exact K.finish d p on a
  | error => exact K.fail p on a

omit K in
theorem onPort_of_wordTimedOut {p : Part} (t : wordTimedOut p = true) : p.agent.onPort = true := by
  unfold wordTimedOut at t
  unfold Agent.onPort
  split at t <;> simp_all

omit K in
theorem LinkUnit.line_of_sent {k : LinkUnit} {t : Timebase} (h : k.sent t = true) : k.line = .sending :=
  of_decide_eq_true (Bool.and_eq_true_iff.1 h).1

omit K in
theorem LinkUnit.line_of_timedOut {k : LinkUnit} {t : Timebase} (h : k.timedOut t = true) : k.line = .awaiting :=
  of_decide_eq_true (Bool.and_eq_true_iff.1 h).1

omit K in
theorem LinkUnit.line_of_gapOver {k : LinkUnit} {t : Timebase} (h : k.gapOver t = true) : k.line = .gap :=
  of_decide_eq_true (Bool.and_eq_true_iff.1 h).1

/-- A command keeps the property, where the reset values and the part after a load have it. -/
theorem exec_keeps (c : Instr) {s t : State} (reset : c = .powerOn ∨ c = .resetLinePulse → I .reset)
    (load : ∀ dt l, c = .configLoadEnd dt l → I (loadEnd dt l s.part)) (a : I s.part) (e : exec c s = .next t) :
    I t.part := by
  have next : ∀ f : Part → Part, I (f s.part) → onPart f s = .next t → I t.part := fun f b e => by
    rw [onPart_eq] at e
    cases e
    exact b
  cases c
  case powerOn => exact next _ (reset (.inl rfl)) e
  case resetLinePulse => exact next _ (reset (.inr rfl)) e
  case configLoadEnd dt l => exact next _ (load dt l rfl) e
  case stationPulse dt => exact next _ (event_keeps K dt (fun _ => takeStationPulse_keeps K) a) e
  case flywheelExpiry dt => exact next _ (timed_keeps K dt (fun _ _ => takeFlywheelExpiry_keeps K) a) e
  case acceptanceWindowEnd dt => exact next _ (timed_keeps K dt (fun _ _ => takeWindowEnd_keeps K) a) e
  case slewingPulseGap dt => exact next _ (timed_keeps K dt (fun _ _ => takePulseGap_keeps K) a) e
  case setTrim w => exact next _ (commanded_keeps K (setTrim_keeps K.toCommandKeeps w a) a) e
  case tachPulse dt h f => exact next _ (event_keeps K dt (K.tach h f) a) e
  case tachGapExpiry dt h => exact next _ (timed_keeps K dt (fun q _ => K.gap h q) a) e
  case settleExpiry dt h => exact next _ (timed_keeps K dt (fun q _ => K.settled h q) a) e
  case speedTimeout dt h => exact next _ (timed_keeps K dt (fun q _ => K.speed h q) a) e
  case slowStart h => exact next _ (onField_keeps (fun _ => K.slow h _) a) e
  case cueMarkPulse dt h => exact next _ (event_keeps K dt (K.mark h) a) e
  case clear => exact next _ (commanded_keeps K (clearCommand_keeps K.toCommandKeeps a) a) e
  case ackAlarms w => exact next _ (commanded_keeps K (ackAlarmsCommand_keeps K.toCommandKeeps w a) a) e
  case resetFlags => exact next _ (commanded_keeps K (K.flags _ a) a) e
  case setAnalogLimits c l h d =>
    exact next _ (commanded_keeps K (setAnalogLimitsCommand_keeps K.toCommandKeeps c l h d a) a) e
  case setPanelMode m d => exact next _ (commanded_keeps K (setPanelModeCommand_keeps K.toCommandKeeps m d a) a) e
  case configureHead w ws => exact next _ (commanded_keeps K (K.configure w ws _ a) a) e
  case assignHead w i q => exact next _ (commanded_keeps K (assignHeadCommand_keeps K.toCommandKeeps w i q a) a) e
  case setPosition w f => exact next _ (commanded_keeps K (K.setPosition w f _ a) a) e
  case cueUp w form arg => exact next _ (commanded_keeps K (K.cueUp w form arg _ a) a) e
  case start w => exact next _ (commanded_keeps K (startEntry_keeps K.toCommandKeeps w a) a) e
  case stop w => exact next _ (commanded_keeps K (stopEntry_keeps K.toCommandKeeps w a) a) e
  case lamp w on => exact next _ (commanded_keeps K (K.lamp w on _ a) a) e
  case clearFault w => exact next _ (commanded_keeps K (K.clearFault w _ a) a) e
  case loadCue w id k f x c => exact next _ (commanded_keeps K (K.loadCue w id k f x c _ a) a) e
  case deleteCue w id => exact next _ (commanded_keeps K (K.deleteCue w id _ a) a) e
  case clearCues w => exact next _ (commanded_keeps K (K.clearCues w _ a) a) e
  case configureIsland w x s l t f g =>
    exact next _ (commanded_keeps K (configureIslandCommand_keeps K.toCommandKeeps w x s l t f g a) a) e
  case take w tag n m f o c t r =>
    exact next _ (commanded_keeps K (takeCommand_keeps K.toCommandKeeps w tag n m f o c t r a) a) e
  case cancelTake w tag => exact next _ (commanded_keeps K (cancelTakeCommand_keeps K.toCommandKeeps w tag a) a) e
  case abortTake w => exact next _ (commanded_keeps K (abortTakeCommand_keeps K.toCommandKeeps w a) a) e
  case standby w => exact next _ (commanded_keeps K (standbyCommand_keeps K.toCommandKeeps w a) a) e
  case startFieldReached i => exact next _ (onField_keeps (K.startField i _) a) e
  case commitFieldReached i => exact next _ (onField_keeps (K.commitField i _) a) e
  case endGuardReached i => exact next _ (onField_keeps (K.guard i _) a) e
  case moveDeadline i => exact next _ (onField_keeps (fun _ => K.deadline i _) a) e
  case pollCountdownExpiry i => exact next _ (onField_keeps (fun _ => K.poll i _) a) e
  case sendComplete dt => exact next _ (timed_keeps K dt (fun q d => K.sent q (LinkUnit.line_of_sent d)) a) e
  case replyMessage dt l => exact next _ (event_keeps K dt (fun _ => foldl_keeps (fun q c => K.receive c q) l) a) e
  case replyTimeout dt => exact next _ (timed_keeps K dt (fun q d => K.timeout q (LinkUnit.line_of_timedOut d)) a) e
  case gapEnd dt => exact next _ (timed_keeps K dt (fun q d => K.gapEnd q (LinkUnit.line_of_gapOver d)) a) e
  case scanStart dt => exact next _ (timed_keeps K dt (fun q _ => K.analog _ q) a) e
  case conversionComplete dt r => exact next _ (timed_keeps K dt (fun q _ => K.conversion _ q) a) e
  case dwellEnd dt l => exact next _ (dwellEnd_keeps K dt l a) e
  case processorCycle dt c => exact next _ (cycleMoment_keeps K dt c a) e
  case commandProducerWrite dt d l h ack => exact next _ (event_keeps K dt (fun _ => wholeCycle_keeps K _ ack) a) e
  case eventConsumerWrite dt d l h ack => exact next _ (event_keeps K dt (fun _ => wholeCycle_keeps K _ ack) a) e
  case withheldWrite dt x d l h => exact next _ (event_keeps K dt (K.withhold x) a) e
  case liveRead dt x l h => exact next _ (event_keeps K dt (K.answer x l h) a) e
  case agentWordEnd dt r => exact next _ (timed_keeps K dt (fun _ on => endWord_keeps K r on) a) e
  case agentWordTimeout dt =>
    exact next _ (timed_keeps K dt (fun q d => K.fail q (onPort_of_wordTimedOut d)) a) e
  case starveExpiry dt => exact next _ (timed_keeps K dt (fun q d => K.starve q d) a) e

theorem exec_keeps_or_resets (c : Instr) {s t : State} (load : ∀ dt l, I (loadEnd dt l s.part)) (a : I s.part)
    (e : exec c s = .next t) : t.part = .reset ∨ I t.part := by
  by_cases r : c = .powerOn ∨ c = .resetLinePulse
  · left
    rcases r with rfl | rfl <;> cases e <;> rfl
  · exact .inr (exec_keeps K c (fun r' => absurd r' r) (fun dt l _ => load dt l) a e)

/-- A step keeps the property, where the part after a load has it, or starts the part afresh. -/
theorem step_keeps_or_resets {s t : State} (load : ∀ dt l, I (loadEnd dt l s.part)) (a : I s.part)
    (e : step s = .next t) : t.part = .reset ∨ I t.part := by
  unfold step at e
  split at e
  · rename_i c rest _
    exact exec_keeps_or_resets K c (s := ⟨s.part, rest⟩) load a e
  · unfold idleStep at e
    split at e
    · exact exec_keeps_or_resets K _ load a e
    · cases e
      exact .inr (K.time _ _ a)

/-- A property that what each command does keeps, that holds at reset and that a load keeps, is kept by every step. -/
theorem step_keeps (reset : I .reset) (load : ∀ l p, p.mode = .loading → I p → I (endLoad l p)) {s t : State}
    (a : I s.part) (e : step s = .next t) : I t.part := by
  have loaded : ∀ dt l, I (loadEnd dt l s.part) := by
    intro dt l
    unfold loadEnd
    dsimp only
    split
    · rename_i loading
      exact load _ _ loading (elapse_keeps K dt a)
    · exact elapse_keeps K dt a
  rcases step_keeps_or_resets K loaded a e with fresh | kept
  · rw [fresh]
    exact reset
  · exact kept

/-- A property of parts that run, which what each command does keeps: a step keeps it or starts the part afresh. -/
theorem step_keeps_running (running : ∀ p, I p → p.mode = .running) {s t : State} (a : I s.part) (e : step s = .next t) :
    t.part = .reset ∨ I t.part := by
  refine step_keeps_or_resets K (fun dt l => ?_) a e
  have still : (elapse dt s.part).mode ≠ .loading := by simp [running _ a]
  rw [loadEnd, if_neg still]
  exact elapse_keeps K dt a

end

/-! ### A part that does not run -/

theorem treat_stopped {p : Part} (m : p.mode ≠ .running) (x : Addr) (w : Bool) : p.treat x w = .pass := by
  simp [Part.treat, Part.windowAt, Part.running, m]

theorem setPort_frame (h : Holder) (w : Option BusCycle) (p : Part) :
    ChangesOnly [.agent, .port] p { p with bus := { p.bus with holder := h, waiting := w } } := by
  intro y m
  cases y <;> simp at m <;> simp [Block.same]

theorem wantPort_frame (c : BusCycle) (p : Part) : ChangesOnly [.agent, .port] p (wantPort c p) :=
  .ite (.refl _ p) ((setPort_frame p.bus.holder (some c) p).trans (arbitrate_frame _))

theorem beginCycle_stopped {p : Part} (m : p.mode ≠ .running) (c : BusCycle) :
    ChangesOnly [.agent, .port] p (beginCycle c p) := by
  unfold beginCycle
  rw [treat_stopped m]
  exact wantPort_frame c p

theorem endCycle_stopped {p : Part} (m : p.mode ≠ .running) (ack : Bool) :
    ChangesOnly [.agent, .port] p (endCycle ack p) := by
  unfold endCycle
  split
  · rename_i c _
    have still : snoop c ack { p with bus := { p.bus with holder := .free } } = { p with bus := { p.bus with holder := .free } } := by
      unfold snoop
      rw [treat_stopped (p := { p with bus := { p.bus with holder := .free } }) m]
    rw [still]
    exact (setPort_frame .free p.bus.waiting p).trans (arbitrate_frame _)
  · exact .refl _ p
  · exact .refl _ p

theorem takeDwellEnd_stopped {p : Part} (m : p.mode ≠ .running) (l : BitVec 4) :
    ChangesOnly [.panel] p (takeDwellEnd l p) := by
  unfold takeDwellEnd
  simp only [if_neg m]
  exact (setPanel_frame _ p).trans (beginRow_frame _ _ _)

/-- What a part that does not run can do: start afresh, end a load, or let time pass, drive the panel and hand on the port. -/
theorem exec_stopped (c : Instr) {s t : State} (m : s.part.mode ≠ .running) (e : exec c s = .next t) :
    t.part = .reset ∨ (∃ dt l, s.part.mode = .loading ∧ t.part = endLoad l (elapse dt s.part)) ∨
      ChangesOnly [.time, .panel, .agent, .port] s.part t.part := by
  have next : ∀ f : Part → Part, onPart f s = .next t → t.part = f s.part := fun f e => by
    rw [onPart_eq] at e
    cases e
    rfl
  have passes : ∀ dt, ChangesOnly [.time, .panel, .agent, .port] s.part (elapse dt s.part) :=
    fun dt => (elapse_frame dt _).mono (by simp)
  have time : ∀ dt due f, onPart (timed dt due f) s = .next t → ChangesOnly [.time, .panel, .agent, .port] s.part t.part := by
    intro dt due f e
    rw [next _ e, timed, elapse_running]
    simpa [Part.running, m] using passes dt
  have field : ∀ due f, onPart (onField due f) s = .next t → ChangesOnly [.time, .panel, .agent, .port] s.part t.part := by
    intro due f e
    rw [next _ e, onField]
    simpa [Part.running, m] using ChangesOnly.refl _ s.part
  have command : ∀ f, onPart (commanded f) s = .next t → ChangesOnly [.time, .panel, .agent, .port] s.part t.part := by
    intro f e
    rw [next _ e, commanded]
    simpa [Part.running, m] using ChangesOnly.refl _ s.part
  have still : ∀ dt, (elapse dt s.part).mode ≠ .running := fun dt => by simpa using m
  cases c
  case powerOn => exact .inl (next _ e)
  case resetLinePulse => exact .inl (next _ e)
  case configLoadEnd dt l =>
    rw [next _ e, loadEnd]
    split
    · rename_i loading
      exact .inr (.inl ⟨dt, _, by simpa using loading, rfl⟩)
    · exact .inr (.inr (passes dt))
  case dwellEnd dt l =>
    rw [next _ e, dwellEnd]
    exact .inr (.inr (.ite ((passes dt).trans ((takeDwellEnd_stopped (still dt) l).mono (by simp))) (passes dt)))
  case processorCycle dt c =>
    refine .inr (.inr ?_)
    rw [next _ e]
    unfold cycleMoment
    cases c with
    | begins c => exact (passes dt).trans ((beginCycle_stopped (still dt) c).mono (by simp))
    | ends ack => exact (passes dt).trans ((endCycle_stopped (still dt) ack).mono (by simp))
  all_goals first
    | exact .inr (.inr (time _ _ _ e))
    | exact .inr (.inr (field _ _ e))
    | exact .inr (.inr (command _ e))

theorem crystalCycle_frame (p : Part) : ChangesOnly [.time] p (crystalCycle p) := by
  intro b n
  cases b <;> simp at n <;> simp [Block.same, crystalCycle]

/-- The same of a step. -/
theorem step_stopped {s t : State} (m : s.part.mode ≠ .running) (e : step s = .next t) :
    t.part = .reset ∨ (∃ dt l, s.part.mode = .loading ∧ t.part = endLoad l (elapse dt s.part)) ∨
      ChangesOnly [.time, .panel, .agent, .port] s.part t.part := by
  unfold step at e
  split at e
  · rename_i c rest _
    exact exec_stopped c (s := ⟨s.part, rest⟩) m e
  · unfold idleStep at e
    rw [nextDue_eq_none m] at e
    cases e
    exact .inr (.inr ((crystalCycle_frame _).mono (by simp)))

end Sys2Proof.Machine
end

section
/-! PROOFS. What the Mirror Link, the Command Unit, the Event Unit, the Memory Agent and the processor bus keep of a property that
does not speak of them; what CLEAR keeps; and a property as a matter of the blocks it depends on. -/

namespace Sys2Proof.Machine

variable {I : Part → Prop}

/-! ### The blocks a property depends on -/

/-- The property is the same for two parts that agree in the listed pieces. -/
def DependsOn (B : List Block) (I : Part → Prop) : Prop := ∀ p q, (∀ b ∈ B, b.same p q) → I p → I q

/-- A change within a frame that names none of the pieces keeps the property. -/
theorem DependsOn.keeps {B t : List Block} (d : DependsOn B I) {p q : Part} (c : ChangesOnly t p q) (n : ∀ b ∈ B, b ∉ t)
    (a : I p) : I q := d p q (fun b m => c b (n b m)) a

/-! ### The Mirror Link -/

/-- A property that does not speak of the link, and that its deliveries to the scheduler keep. -/
structure RepliesKeep (I : Part → Prop) : Prop where
  post : ∀ s e p, I p → I (post s e p)
  raise : ∀ s k a b p, I p → I (raiseAlarm s k a b p)
  clear : ∀ s k a b p, I p → I (clearAlarm s k a b p)
  link : ∀ k p, I p → I { p with link := k }
  status : ∀ i q m p, I p → I (deliverStatus i q m p)
  refusal : ∀ i q p, I p → I (deliverRefusal i q p)
  offline : ∀ i p, I p → I (stationOffline i p)

section
variable (K : RepliesKeep I)
include K

theorem beginTransaction_keeps (f : Flight) {p : Part} (a : I p) : I (beginTransaction f p) := by
  have late : ∀ e n q, I q → I (reportLate e n q) := by
    intro e n q b
    unfold reportLate
    split
    · exact ite_keeps (K.post _ _ _ b) b
    · exact b
  exact ite_keeps (late _ _ _ (K.link _ p a)) (K.link _ p a)

theorem selectEntry_keeps {p : Part} (a : I p) : I (selectEntry p) := by
  unfold selectEntry
  split
  · exact beginTransaction_keeps K _ (K.link _ p a)
  · exact a

theorem joinPoll_keeps (i : IslandId) {p : Part} (a : I p) : I (joinPoll i p) :=
  ite_keeps (K.link _ _ (K.link _ p a)) a

theorem joinPolls_keeps {p : Part} (a : I p) : I (joinPolls p) :=
  ite_keeps (joinPoll_keeps K .i1 a) (joinPoll_keeps K .i2 (joinPoll_keeps K .i1 a))

theorem pumpLink_keeps {p : Part} (a : I p) : I (pumpLink p) :=
  joinPolls_keeps K (selectEntry_keeps K (joinPolls_keeps K a))

theorem submitMove_keeps (i : IslandId) (q : Port) (f : Stamp) {p : Part} (a : I p) : I (submitMove i q f p) := by
  have dropped : ∀ q, I q → I (dropPoll q) := by
    intro q b
    unfold dropPoll
    split
    · exact b
    · split
      · exact K.link _ _ (K.link _ q b)
      · exact b
  exact pumpLink_keeps K (K.link _ _ (dropped _ (K.link _ p a)))

theorem endFast_keeps (i : IslandId) {p : Part} (a : I p) : I (endFast i p) :=
  ite_keeps (pumpLink_keeps K (K.link _ p a)) (K.link _ p a)

theorem takePollExpiry_keeps (i : IslandId) {p : Part} (a : I p) : I (takePollExpiry i p) :=
  pumpLink_keeps K (K.link _ p a)

theorem readdress_keeps (i : IslandId) {p : Part} (a : I p) : I (readdress i p) :=
  K.clear _ _ _ _ _ (pumpLink_keeps K (K.link _ _ (K.link _ p a)))

theorem endEntry_keeps {p : Part} (a : I p) : I (endEntry p) := pumpLink_keeps K (K.link _ p a)

theorem reportReply_keeps (i : IslandId) (n : Nat) (o : Station) (r : Reply) {p : Part} (a : I p) :
    I (reportReply i n o r p) := by
  have told : ∀ c f q, I q → I (postStation i c n f q) := fun _ _ _ b => K.post _ _ _ b
  have online : I (if o.online = .online then p else postStation i .online n none p) := ite_keeps a (told _ _ _ a)
  unfold reportReply
  dsimp only
  split
  · exact ite_keeps online (told _ _ _ online)
  · exact told _ _ _ online
  · exact online

theorem judgeReply_keeps (i : IslandId) (o : Bool) (r : Request) (m : Reply) {p : Part} (a : I p) :
    I (judgeReply i o r m p) := by
  have known : I (if o then clearAlarm (.island i) .stationOffline 0 0 p else p) := ite_keeps (K.clear _ _ _ _ _ a) a
  unfold judgeReply
  dsimp only
  split
  · exact K.raise _ _ _ _ _ known
  · exact known
  · exact K.raise _ _ _ _ _ known
  · exact K.clear _ _ _ _ _ known
  · exact known
  · exact known

theorem deliver_keeps (i : IslandId) (r : Request) (m : Reply) {p : Part} (a : I p) : I (deliver i r m p) := by
  unfold deliver
  split
  · exact K.status i _ _ p a
  · exact K.refusal i _ p a
  · exact a
  · exact a

theorem goodReply_keeps (f : Flight) (m : Reply) {p : Part} (a : I p) : I (goodReply f m p) := by
  have gap : I (enterGap p) := K.link _ p a
  unfold goodReply
  exact ite_keeps (endEntry_keeps K gap) (deliver_keeps K _ _ _ (endEntry_keeps K (judgeReply_keeps K _ _ _ _
    (reportReply_keeps K _ _ _ _ (K.link _ _ gap)))))

theorem receive_keeps (c : LinkChar) {p : Part} (a : I p) : I (receive c p) := by
  have judged : ∀ m q, I q → I (judgeMessage m q) := by
    intro m q b
    unfold judgeMessage
    split
    · exact b
    · split
      · exact goodReply_keeps K _ _ b
      · exact b
  exact ite_keeps a (ite_keeps (K.link _ p a) (judged _ _ (K.link _ p a)))

theorem countMiss_keeps (i : IslandId) (n : Nat) {p : Part} (a : I p) : I (countMiss i n p) := by
  have told : ∀ c q, I q → I (postStation i c n none q) := fun _ _ b => K.post _ _ _ b
  have counted : ∀ f : Station → Station, I (p.modStation i f) := fun f => K.link _ p a
  unfold countMiss
  extract_lets old misses q posted raised
  have raisedKept : I raised := K.raise _ _ _ _ _ (ite_keeps (counted _) (told _ _ (counted _)))
  exact ite_keeps (ite_keeps raisedKept (K.offline i _ raisedKept)) (counted _)

theorem takeTimeout_keeps {p : Part} (a : I p) : I (takeTimeout p) := by
  have gap : I (enterGap p) := K.link _ p a
  unfold takeTimeout
  split
  · exact gap
  · have missed : ∀ f : Flight, I (if f.orphan then enterGap p else countMiss f.entry.island f.sentTo (enterGap p)) :=
      fun f => ite_keeps gap (countMiss_keeps K _ _ gap)
    exact ite_keeps (missed _) (endEntry_keeps K (missed _))

theorem takeGapEnd_keeps {p : Part} (a : I p) : I (takeGapEnd p) := by
  unfold takeGapEnd
  split
  · exact ite_keeps (pumpLink_keeps K (K.link _ p a)) (beginTransaction_keeps K _ a)
  · exact pumpLink_keeps K (K.link _ p a)

end

/-- The deliveries of the link are requests to the scheduler. -/
theorem SchedulerKeeps.replies (K : SchedulerKeeps I) (link : ∀ k p, I p → I { p with link := k }) : RepliesKeep I where
  post := K.post
  raise := K.raise
  clear := K.clear
  link := link
  status i q m _ a := deliverStatus_keeps K i q m a
  refusal i q _ a := deliverRefusal_keeps K i q a
  offline i _ a := modIsland_keeps K i _ a

/-! ### Bus, rings and agent -/

/-- A property that does not speak of the bus, the agent and the ring units, and that the commands keep. -/
structure UnitsKeep (I : Part → Prop) : Prop extends CommandKeeps I where
  raise : ∀ s k a b p, I p → I (raiseAlarm s k a b p)
  bus : ∀ x p, I p → I { p with bus := x }
  agent : ∀ x p, I p → I { p with agent := x }
  cmd : ∀ x p, I p → I { p with cmd := x }
  evt : ∀ x p, I p → I { p with evt := x }
  init : ∀ x p, I p → I { p with init := x }
  standbyAtStart : ∀ i p, I p → I (standbyAtStart i p)

section
variable (K : UnitsKeep I)
include K

theorem port_keeps (b : Bus) (x : Agent) {p : Part} (a : I p) : I { p with bus := b, agent := x } :=
  K.agent x { p with bus := b } (K.bus b p a)

theorem cmdInit_keeps (c : CommandUnit) (n : Init) {p : Part} (a : I p) : I { p with cmd := c, init := n } :=
  K.init n { p with cmd := c } (K.cmd c p a)

theorem evtInit_keeps (e : EventUnit) (n : Init) {p : Part} (a : I p) : I { p with evt := e, init := n } :=
  K.init n { p with evt := e } (K.evt e p a)

theorem arbitrate_keeps {p : Part} (a : I p) : I (arbitrate p) := by
  unfold arbitrate
  split
  · split
    · exact port_keeps K _ _ a
    · exact K.bus _ p a
    · exact port_keeps K _ _ a
    · exact a
  · exact a
  · exact a

theorem submit_keeps (j : Job) {p : Part} (a : I p) : I (submit j p) :=
  ite_keeps (arbitrate_keeps K (K.agent _ p a)) (K.agent _ p a)

theorem pumpEvents_keeps {p : Part} (a : I p) : I (pumpEvents p) := by
  unfold pumpEvents
  split
  · exact a
  · exact ite_keeps (submit_keeps K _ (K.evt _ p a)) a

theorem violate_keeps (x : Addr) (k : WindowKind) (c : ViolationCause) {p : Part} (a : I p) : I (violate x k c p) := by
  unfold violate
  split
  · exact K.bus _ p a
  · exact K.raise _ _ _ _ _ (K.bus _ p a)

theorem withhold_keeps (x : Addr) {p : Part} (a : I p) : I (withhold x p) := by
  unfold withhold
  split
  · exact violate_keeps K _ _ _ a
  · exact a
  · exact a
  · exact a

theorem answerRead_keeps (x : Addr) (l h : Bool) {p : Part} (a : I p) : I (answerRead x l h p) := by
  have read : ∀ n, I (readLive n l h p) := by
    intro n
    unfold readLive
    exact K.bus _ p a
  unfold answerRead
  split
  · exact ite_keeps (read _) a
  · exact a

theorem fetchEntry_keeps {p : Part} (a : I p) : I (fetchEntry p) := submit_keeps K _ (K.cmd _ p a)

theorem handOn_keeps (k : WindowKind) (v : Nat) {p : Part} (a : I p) : I (handOn k v p) := by
  cases k with
  | command => exact ite_keeps (fetchEntry_keeps K (K.cmd _ p a)) (K.cmd _ p a)
  | event => exact pumpEvents_keeps K (K.evt _ p a)
  | live => exact a
  | guard => exact a

theorem snoop_keeps (c : BusCycle) (ack : Bool) {p : Part} (a : I p) : I (snoop c ack p) := by
  unfold snoop
  split
  · exact ite_keeps a (ite_keeps (handOn_keeps K _ _ a) (violate_keeps K _ _ _ a))
  · exact a
  · exact a
  · exact a

theorem wantPort_keeps (c : BusCycle) {p : Part} (a : I p) : I (wantPort c p) :=
  ite_keeps a (arbitrate_keeps K (K.bus _ p a))

theorem beginCycle_keeps (c : BusCycle) {p : Part} (a : I p) : I (beginCycle c p) := by
  unfold beginCycle
  split
  · exact wantPort_keeps K c a
  · exact wantPort_keeps K c a
  · exact withhold_keeps K _ a
  · exact answerRead_keeps K _ _ _ a

theorem endCycle_keeps (ack : Bool) {p : Part} (a : I p) : I (endCycle ack p) := by
  unfold endCycle
  split
  · exact arbitrate_keeps K (snoop_keeps K _ ack (K.bus _ p a))
  · exact a
  · exact a

theorem complete_keeps (s : Status) {p : Part} (a : I p) : I (complete s p) := submit_keeps K _ (K.cmd _ p a)

theorem endFetch_keeps (w : Option (List Word)) {p : Part} (a : I p) : I (endFetch w p) := by
  unfold endFetch
  split
  · exact followEntry_keeps K.toCommandKeeps _ _ (complete_keeps K _ (enterEntry_keeps K.toCommandKeeps _ (K.cmd _ p a)))
  · exact complete_keeps K _ a

theorem startValue_keeps (k : WindowKind) (x : Addr) (w : Option (List Word)) {p : Part} (a : I p) :
    I (startValue k x w p).2 := by
  unfold startValue
  split
  · exact a
  · dsimp only
    split
    · exact a
    · exact violate_keeps K _ _ _ a

theorem endStartCommand_keeps (w : Option (List Word)) {p : Part} (a : I p) : I (endStartCommand w p) := by
  unfold endStartCommand
  exact submit_keeps K _ (cmdInit_keeps K _ _ (startValue_keeps K _ _ w a))

theorem endStartEvent_keeps (w : Option (List Word)) {p : Part} (a : I p) : I (endStartEvent w p) := by
  unfold endStartEvent
  exact submit_keeps K _ (submit_keeps K _ (evtInit_keeps K _ _ (startValue_keeps K _ _ w a)))

theorem endInit_keeps {p : Part} (a : I p) : I (endInit p) := by
  unfold endInit
  extract_lets pumped told begun
  have pumpedKept : I pumped := pumpEvents_keeps K (evtInit_keeps K p.evt.judged .done a)
  have begunKept : I begun := K.standbyAtStart .i2 _ (K.standbyAtStart .i1 _ (K.post _ _ _ pumpedKept))
  exact ite_keeps begunKept (fetchEntry_keeps K begunKept)

theorem report_keeps (k : JobKind) (w : Option (List Word)) {p : Part} (a : I p) : I (report k w p) := by
  have written : ∀ x y, I (endInitWrite x y p) := fun _ _ => ite_keeps (endInit_keeps K a) (K.init _ p a)
  unfold report
  split
  · exact written _ _
  · exact written _ _
  · exact endFetch_keeps K w a
  · exact submit_keeps K _ (K.cmd _ p a)
  · exact ite_keeps (K.cmd _ p a) (fetchEntry_keeps K a)
  · exact ite_keeps (submit_keeps K _ (K.evt _ p a)) (pumpEvents_keeps K (K.evt _ p a))
  · exact pumpEvents_keeps K (K.evt _ p a)
  · exact endStartCommand_keeps K w a
  · exact endStartEvent_keeps K w a

theorem dropJob_keeps {p : Part} (a : I p) : I (dropJob p) := port_keeps K _ _ a

theorem failWord_keeps {p : Part} (a : I p) : I (failWord p) := by
  unfold failWord
  split
  · exact a
  · exact arbitrate_keeps K (K.raise _ _ _ _ _ (report_keeps K _ _ (dropJob_keeps K a)))

theorem finishWord_keeps (d : Word) {p : Part} (a : I p) : I (finishWord d p) := by
  unfold finishWord
  split
  · exact a
  · exact ite_keeps (arbitrate_keeps K (port_keeps K _ _ a))
      (arbitrate_keeps K (report_keeps K _ _ (dropJob_keeps K a)))

theorem takeStarve_keeps {p : Part} (a : I p) : I (takeStarve p) := arbitrate_keeps K (K.agent _ p a)

end

/-! ### CLEAR -/

section
variable (K : SchedulerKeeps I)
include K

theorem clearTakes_keeps (i : IslandId) {p : Part} (a : I p) : I (clearTakes i p) :=
  foldl_keeps (fun q (t : Take) => K.post (.island i) (t.endItem t.clearOutcome .clear) q) _ (modIsland_keeps K i _ a)

theorem clearIsland_keeps (readdress : ∀ i p, I p → I (readdress i p)) (i : IslandId) (o : Four (Option Assignment))
    {p : Part} (a : I p) : I (clearIsland i o p) := by
  have set : ∀ f, I (p.modIsland i f) := fun f => modIsland_keeps K i f a
  unfold clearIsland
  extract_lets n settings addressed
  have kept : I addressed := ite_keeps (set _) (readdress i _ (set _))
  exact ite_keeps kept (setOnAir_keeps K i _ _ _ _ kept)

/-- CLEAR, block by block (R177). -/
theorem clearAll_keeps (ref : ∀ r p, I p → I { p with ref := r }) (empty : ∀ p, I p → I (emptyAlarms p))
    (analog : ∀ a p, I p → I { p with analog := a }) (head : ∀ h p, I p → I (clearHead h p))
    (polls : ∀ p, I p → I (clearPolls p)) (readdress : ∀ i p, I p → I (readdress i p))
    (judge : ∀ p, p.init = .done → I p → I { p with evt := p.evt.judged }) {p : Part} (a : I p) : I (clearAll p) := by
  unfold clearAll
  extract_lets old trim trimmed cleared headed addressed followed
  have emptied : I (emptyAlarms { p with ref := { p.ref with trim := p.defaults.trim } }) := empty _ (ref _ p a)
  have trimmedKept : I trimmed := analog _ _ emptied
  have takes : I cleared := clearTakes_keeps K .i2 (clearTakes_keeps K .i1 trimmedKept)
  have heads : I headed := foldl_keeps (fun q h => head h q) _ takes
  have islands : I addressed := clearIsland_keeps K readdress .i2 _ (clearIsland_keeps K readdress .i1 _ (polls _ heads))
  have done : I followed := followEnds_keeps K (standbyNow_keeps K .i2 (standbyNow_keeps K .i1 islands))
  split
  · rename_i begun
    exact judge _ begun done
  · exact done

end

end Sys2Proof.Machine
end

section
/-! PROOFS. Every step keeps the Alarm Table (R141, R143, R147, R150): what each update of the table does to a sound one, each request
the table takes, and then the step. -/

namespace Sys2Proof.Machine

/-! ### Updates of a sound table -/

theorem AlarmTable.sound_iff {t : AlarmTable} :
    t.sound = true ↔ t.entries.length ≤ Config.maxAlarms ∧ (t.entries.map fun e => (e.source, e.kind)).Nodup ∧
      ∀ e ∈ t.entries, e.kind.momentary = true → e.state = .clearedNew := by
  simp [AlarmTable.sound, and_assoc, or_iff_not_imp_left]

theorem AlarmTable.find?_mem {t : AlarmTable} {s : AlarmSource} {k : AlarmKind} {e : AlarmEntry}
    (f : t.find? s k = some e) : e ∈ t.entries ∧ e.source = s ∧ e.kind = k :=
  ⟨List.mem_of_find?_eq_some f, by simpa using List.find?_some f⟩

theorem AlarmTable.setState_sound {t : AlarmTable} (a : t.sound = true) (s : AlarmSource) {k : AlarmKind} {x : EntryState}
    (m : k.momentary = true → x = .clearedNew) : (t.setState s k x).sound = true := by
  obtain ⟨room, keys, states⟩ := AlarmTable.sound_iff.1 a
  refine AlarmTable.sound_iff.2 ⟨by simpa [setState] using room, ?_, ?_⟩
  · have same : (fun e : AlarmEntry => (e.source, e.kind)) ∘
        (fun e => if e.source = s ∧ e.kind = k then { e with state := x } else e) = fun e => (e.source, e.kind) := by
      funext e
      simp only [Function.comp]
      split <;> rfl
    simpa [setState, same] using keys
  · intro e member momentary
    obtain ⟨d, d_mem, rfl⟩ := List.mem_map.1 member
    by_cases pair : d.source = s ∧ d.kind = k
    · rw [if_pos pair] at momentary ⊢
      exact m (pair.2 ▸ momentary)
    · rw [if_neg pair] at momentary ⊢
      exact states d d_mem momentary

theorem AlarmTable.remove_sound {t : AlarmTable} (a : t.sound = true) (s : AlarmSource) (k : AlarmKind) :
    (t.remove s k).sound = true := by
  obtain ⟨room, keys, states⟩ := AlarmTable.sound_iff.1 a
  have sub : (t.remove s k).entries.Sublist t.entries := List.filter_sublist
  exact AlarmTable.sound_iff.2 ⟨sub.length_le.trans room, keys.sublist (sub.map _), fun e m => states e (sub.subset m)⟩

theorem AlarmTable.append_sound {t : AlarmTable} (a : t.sound = true) {e : AlarmEntry}
    (room : t.entries.length < Config.maxAlarms) (fresh : t.find? e.source e.kind = none)
    (m : e.kind.momentary = true → e.state = .clearedNew) : { t with entries := t.entries ++ [e] }.sound = true := by
  obtain ⟨-, keys, states⟩ := AlarmTable.sound_iff.1 a
  refine AlarmTable.sound_iff.2 ⟨by simpa using room, ?_, ?_⟩
  · have new : ∀ d ∈ t.entries, ¬ (d.source = e.source ∧ d.kind = e.kind) := by
      simpa [AlarmTable.find?] using fresh
    simp only [List.map_append, List.map_cons, List.map_nil, List.nodup_append, keys, List.nodup_singleton, true_and]
    intro x x_mem y y_mem same
    obtain ⟨d, d_mem, rfl⟩ := List.mem_map.1 x_mem
    obtain rfl := List.mem_singleton.1 y_mem
    exact new d d_mem (by simpa using same)
  · intro d member
    rcases List.mem_append.1 member with old | new
    · exact states d old
    · obtain rfl := List.mem_singleton.1 new
      exact m

theorem AlarmTable.evictable_mem {t : AlarmTable} {e : AlarmEntry} (f : t.evictable = some e) : e ∈ t.entries := by
  unfold AlarmTable.evictable at f
  split at f
  · rename_i found
    cases f
    exact List.mem_of_find?_eq_some found
  · exact List.mem_of_find?_eq_some f

theorem AlarmTable.remove_length {t : AlarmTable} {e : AlarmEntry} (m : e ∈ t.entries) :
    (t.remove e.source e.kind).entries.length < t.entries.length :=
  List.length_filter_lt_length_iff_exists.2 ⟨e, m, by simp⟩

theorem AlarmTable.remove_find? {t : AlarmTable} {s : AlarmSource} {k : AlarmKind} (x : AlarmSource) (y : AlarmKind)
    (f : t.find? s k = none) : (t.remove x y).find? s k = none := by
  simp only [AlarmTable.find?, List.find?_eq_none] at f ⊢
  exact fun e m => f e (List.mem_of_mem_filter m)

/-! ### Requests to a running part's table -/

/-- A part that runs, its entries sound. -/
def EntriesSound (p : Part) : Prop := p.mode = .running ∧ p.alarms.sound = true

/-- A part that runs, its entries sound and its horn judged. -/
def TableSound (p : Part) : Prop := EntriesSound p ∧ p.alarms.horn = p.alarms.sounds

theorem entriesSound_depends : DependsOn [.mode, .alarms] EntriesSound := by
  intro p q same ⟨mode, sound⟩
  have m : p.mode = q.mode := same .mode (by simp)
  have t : p.alarms = q.alarms := same .alarms (by simp)
  exact ⟨m ▸ mode, t ▸ sound⟩

theorem tableSound_depends : DependsOn [.mode, .alarms] TableSound := by
  intro p q same ⟨entries, horn⟩
  have t : p.alarms = q.alarms := same .alarms (by simp)
  exact ⟨entriesSound_depends p q same entries, t ▸ horn⟩

theorem EntriesSound.post {p : Part} (a : EntriesSound p) (s : AlarmSource) (e : EventItem) : EntriesSound (post s e p) :=
  entriesSound_depends.keeps (post_frame s e p) (by decide) a

theorem EntriesSound.table {p : Part} (a : EntriesSound p) {t : AlarmTable} (sound : t.sound = true) :
    EntriesSound { p with alarms := t } := ⟨a.1, sound⟩

/-- The horn judged at the end of a request makes a table of sound entries sound. -/
theorem EntriesSound.judge {p : Part} (a : EntriesSound p) : TableSound (judgeHorn p) := ⟨a, rfl⟩

theorem enterAlarm_entries {s : AlarmSource} {k : AlarmKind} {x : EntryState} (d1 d2 : Word) {p : Part} (a : EntriesSound p)
    (room : p.alarms.entries.length < Config.maxAlarms) (fresh : p.alarms.find? s k = none)
    (m : k.momentary = true → x = .clearedNew) : EntriesSound (enterAlarm s k x d1 d2 p) :=
  (a.table (AlarmTable.append_sound a.2 (e := ⟨s, k, x, p.ref.count⟩) room fresh m)).post _ _

theorem post_alarms (s : AlarmSource) (e : EventItem) (p : Part) : (post s e p).alarms = p.alarms :=
  (post_frame s e p .alarms (by decide)).symm

theorem addAlarm_entries {s : AlarmSource} {k : AlarmKind} {x : EntryState} (d1 d2 : Word) {p : Part} (a : EntriesSound p)
    (fresh : p.alarms.find? s k = none) (m : k.momentary = true → x = .clearedNew) :
    EntriesSound (addAlarm s k x d1 d2 p) := by
  unfold addAlarm
  split
  · rename_i room
    exact enterAlarm_entries d1 d2 a room fresh m
  · split
    · rename_i e evicted
      have removed := (a.table (AlarmTable.remove_sound a.2 e.source e.kind)).post e.source
        (.alarm .removed (some (.evicted e.state)) none (some e.kind) false 0 0)
      have less := AlarmTable.remove_length (AlarmTable.evictable_mem evicted)
      have most := (AlarmTable.sound_iff.1 a.2).1
      refine enterAlarm_entries d1 d2 removed ?_ ?_ m
      · rw [post_alarms]
        exact less.trans_le most
      · rw [post_alarms]
        exact AlarmTable.remove_find? _ _ fresh
    · exact (a.table (t := { p.alarms with overflow := true, overflowHorn := _ }) a.2).post _ _

theorem raiseAlarm_table (s : AlarmSource) (k : AlarmKind) (d1 d2 : Word) {p : Part} (a : EntriesSound p) :
    TableSound (raiseAlarm s k d1 d2 p) := by
  unfold raiseAlarm
  refine EntriesSound.judge ?_
  split
  · rename_i fresh
    exact addAlarm_entries d1 d2 a fresh fun _ => rfl
  · exact a.post _ _
  · rename_i lasting fresh
    exact addAlarm_entries d1 d2 a fresh fun m => by simp [m] at lasting
  · rename_i lasting _
    split
    · exact (a.table (AlarmTable.setState_sound a.2 s fun m => by simp [m] at lasting)).post _ _
    · exact a
    · exact a

theorem clearAlarm_table (s : AlarmSource) (k : AlarmKind) (d1 d2 : Word) {p : Part} (a : EntriesSound p) :
    TableSound (clearAlarm s k d1 d2 p) := by
  unfold clearAlarm
  refine EntriesSound.judge ?_
  split
  · exact a
  · split
    · exact (a.table (AlarmTable.setState_sound a.2 s fun _ => rfl)).post _ _
    · exact (a.table (AlarmTable.remove_sound a.2 s k)).post _ _
    · exact a

/-- An acknowledgement of an entry that is not both momentary and active. -/
theorem acknowledgeEntry_entries {e : AlarmEntry} (m : e.kind.momentary = true → e.state = .clearedNew) {p : Part}
    (a : EntriesSound p) : EntriesSound (acknowledgeEntry e p) := by
  unfold acknowledgeEntry
  split
  · rename_i active
    exact (a.table (AlarmTable.setState_sound a.2 _ fun momentary => by simp [m momentary] at active)).post _ _
  · exact (a.table (AlarmTable.remove_sound a.2 _ _)).post _ _
  · exact a

theorem acknowledge_table (scope : Option AlarmSource) {p : Part} (a : EntriesSound p) : TableSound (acknowledge scope p) := by
  have states := (AlarmTable.sound_iff.1 a.2).2.2
  have walk : ∀ l : List AlarmEntry, (∀ e ∈ l, e.kind.momentary = true → e.state = .clearedNew) →
      ∀ q, EntriesSound q → EntriesSound (l.foldl (fun q e => acknowledgeEntry e q) q) := by
    intro l
    induction l with
    | nil => exact fun _ _ b => b
    | cons e l ih =>
      intro m q b
      exact ih (fun d d_mem => m d (List.mem_cons_of_mem _ d_mem)) _ (acknowledgeEntry_entries (m e List.mem_cons_self) b)
  have walked := walk (p.alarms.entries.filter fun e => scope = none ∨ scope = some e.source)
    (fun e m => states e (List.mem_of_mem_filter m)) p a
  exact EntriesSound.judge (walked.table
    (t := { (List.foldl _ p _).alarms with overflow := false, overflowHorn := false }) walked.2)

theorem emptyAlarms_table {p : Part} (a : EntriesSound p) : TableSound (emptyAlarms p) :=
  ((a.table (t := { p.alarms with entries := [], overflow := false, overflowHorn := false }) rfl).post _ _).judge

/-! ### The step -/

theorem tableSound_frame {t : List Block} {p q : Part} (c : ChangesOnly t p q) (n : ∀ b ∈ [Block.mode, .alarms], b ∉ t)
    (a : TableSound p) : TableSound q := tableSound_depends.keeps c n a

theorem tableSound_drive : DriveKeeps TableSound where
  post s e p := tableSound_frame (post_frame s e p) (by decide)
  raise s k x y _ a := raiseAlarm_table s k x y a.1
  clear s k x y _ a := clearAlarm_table s k x y a.1
  head h f p _ := tableSound_frame (modHead_frame h f p) (by cases h <;> decide)
  analog _ _ a := a

theorem tableSound_scheduler : SchedulerKeeps TableSound where
  post := tableSound_drive.post
  raise := tableSound_drive.raise
  clear := tableSound_drive.clear
  islands _ _ a := a
  move i q f p := tableSound_frame (submitMove_frame i q f p) (by decide)
  fast i p := tableSound_frame (endFast_frame i p) (by decide)
  start h _ _ a := startDrive_keeps tableSound_drive h _ a

theorem tableSound_replies : RepliesKeep TableSound := tableSound_scheduler.replies fun _ _ a => a

theorem clearHead_keeps {I : Part → Prop} (D : DriveKeeps I) (S : SchedulerKeeps I)
    (settings : ∀ h c a p, I p → I (p.modHead h (Head.cleared c a))) (h : HeadId) {p : Part} (a : I p) :
    I (clearHead h p) := by
  have set := settings h (p.defaults.heads.get h) (p.defaults.assignments.get h) p a
  unfold clearHead
  refine mapPreds_keeps S h _ (followCues_keeps D h (leaveLimit_keeps D h ?_))
  exact ite_keeps (ite_keeps (switchLamp_keeps D h _ set) set) (enterDrive_keeps D h _ _ _ set)

theorem tableSound_commands : CommandKeeps TableSound :=
  { (tableSound_scheduler.reports tableSound_drive).heads with
    post := tableSound_drive.post
    ref := fun _ _ a => a
    analog := fun _ _ a => a
    panel := fun _ _ a => a
    flags := fun _ a => a
    acknowledge := fun s _ a => acknowledge_table s a.1
    clearAll := fun _ a => clearAll_keeps tableSound_scheduler (fun _ _ a => a) (fun _ a => emptyAlarms_table a.1)
      (fun _ _ a => a)
      (fun h _ a => clearHead_keeps tableSound_drive tableSound_scheduler
        (fun h _ _ p => tableSound_frame (modHead_frame h _ p) (by cases h <;> decide)) h a)
      (fun _ a => a) (fun i _ a => readdress_keeps tableSound_replies i a) (fun _ _ a => a) a
    assign := fun h x p _ _ a => by
      have S := tableSound_scheduler.reports tableSound_drive
      have set : TableSound (p.modHead h fun y => { y with assigned := x }) :=
        tableSound_frame (modHead_frame h _ p) (by cases h <;> decide) a
      have preset : ∀ i q, TableSound q → TableSound (checkPreset i q) := fun i q b => by
        unfold checkPreset
        split
        · exact ite_keeps b b
        · exact b
        · exact b
      exact settle_keeps S (preset _ _ (preset _ _ set))
    setIsland := fun i c p a => meetGuard_keeps tableSound_scheduler i (ite_keeps a (readdress_keeps tableSound_replies i
      (p := p.modIsland i _) a))
    preset := fun _ _ a => a
    authority := fun _ _ _ a => a
    join := fun _ _ _ _ a => a
    activate := fun i _ a => activateFront_keeps tableSound_scheduler i a
    cancel := fun _ _ _ a => a
    abort := fun i _ _ _ _ a => endActive_keeps tableSound_scheduler i _ _ a
    standby := fun i _ a => standbyRequest_keeps tableSound_scheduler i a }

theorem tableSound_field {p : Part} (a : TableSound p) : TableSound (fieldEvent p) :=
  tableSound_frame (fieldPolls_frame _) (by decide) a

theorem tableSound_units : UnitsKeep TableSound :=
  { tableSound_commands with
    raise := tableSound_drive.raise
    bus := fun _ _ a => a
    agent := fun _ _ a => a
    cmd := fun _ _ a => a
    evt := fun _ _ a => a
    init := fun _ _ a => a
    standbyAtStart := fun i _ a => commitAsked_keeps tableSound_scheduler 0 i _ _ _ a }

theorem tableSound_runs : RunKeeps TableSound :=
  { tableSound_commands with
    time := fun _ _ a => a
    status := fun _ _ a => a
    field := fun _ a => tableSound_field a
    raise := tableSound_drive.raise
    clear := tableSound_drive.clear
    startField := fun i _ _ a => takeStartField_keeps tableSound_scheduler i a
    commitField := fun i _ _ a => takeCommitField_keeps tableSound_scheduler i a
    guard := fun i _ _ a => takeGuard_keeps tableSound_scheduler i a
    deadline := fun i _ a => takeDeadline_keeps tableSound_scheduler i a
    poll := fun i _ a => takePollExpiry_keeps tableSound_replies i a
    sent := fun _ _ a => a
    receive := fun c _ a => receive_keeps tableSound_replies c a
    timeout := fun _ _ a => takeTimeout_keeps tableSound_replies a
    gapEnd := fun _ _ a => takeGapEnd_keeps tableSound_replies a
    begins := fun c _ a => beginCycle_keeps tableSound_units c a
    ends := fun ack _ a => endCycle_keeps tableSound_units ack a
    withhold := fun x _ a => withhold_keeps tableSound_units x a
    answer := fun x l h _ a => answerRead_keeps tableSound_units x l h a
    finish := fun d _ _ a => finishWord_keeps tableSound_units d a
    fail := fun _ _ a => failWord_keeps tableSound_units a
    starve := fun _ _ a => takeStarve_keeps tableSound_units a }

theorem alarmsSound_of_tableSound {p : Part} (a : TableSound p) : p.alarmsSound = true := by
  obtain ⟨⟨mode, sound⟩, horn⟩ := a
  simp [Part.alarmsSound, mode, sound, horn]

theorem tableSound_of_alarmsSound {p : Part} (m : p.mode = .running) (a : p.alarmsSound = true) : TableSound p := by
  simp only [Part.alarmsSound, m, Bool.and_eq_true, decide_eq_true_eq] at a
  exact ⟨⟨m, a.1⟩, a.2⟩

theorem alarms_of_loading {p : Part} (m : p.mode = .loading) (a : p.alarmsSound = true) : p.alarms = .reset := by
  simp only [Part.alarmsSound, m, Bool.and_eq_true, decide_eq_true_eq] at a
  exact a.2

theorem alarmsSound_depends : DependsOn [.mode, .alarms] (fun p => p.alarmsSound = true) := by
  intro p q same a
  have m : p.mode = q.mode := same .mode (by simp)
  have t : p.alarms = q.alarms := same .alarms (by simp)
  simpa [Part.alarmsSound, m, t] using a

theorem beginRow_mode (r : Fin 8) (t : Nat) (p : Part) : (beginRow r t p).mode = p.mode :=
  (beginRow_frame r t p .mode (by simp)).symm

theorem beginRow_alarms (r : Fin 8) (t : Nat) (p : Part) : (beginRow r t p).alarms = p.alarms :=
  (beginRow_frame r t p .alarms (by simp)).symm

/-- A load ends with the table empty: running with the horn off, transparent with the horn on (R150, R151). -/
theorem endLoad_alarmsSound (l : List Byte) {p : Part} (a : p.alarms = .reset) : (endLoad l p).alarmsSound = true := by
  unfold endLoad
  split
  · rename_i m _
    have begun : TableSound (beginRow 0 p.time.now (startBlocks m p)) := by
      refine ⟨⟨beginRow_mode _ _ _, ?_⟩, ?_⟩ <;> rw [beginRow_alarms] <;> simp only [startBlocks, a] <;> rfl
    exact alarmsSound_of_tableSound (tableSound_frame (submit_frame _ _) (by decide) (p := { beginRow 0 _ _ with init := _ }) begun)
  · have mode := beginRow_mode 0 p.time.now
      { p with mode := .transparent, alarms := { p.alarms with horn := true }, panel := .reset .feet 31 }
    have alarms := beginRow_alarms 0 p.time.now
      { p with mode := .transparent, alarms := { p.alarms with horn := true }, panel := .reset .feet 31 }
    rw [failLoad, Part.alarmsSound, mode, alarms, a]
    rfl

/-- Settles O57: while the part runs each request the table takes keeps it sound (`tableSound_runs`); a part that does not run
leaves the table alone but at a reset and at the end of a load, where it is as those set it. -/
theorem everyStepKeepsTheAlarmTable : Obligations.EveryStepKeepsTheAlarmTable := by
  intro s t a e
  have reset : Part.reset.alarmsSound = true := by decide
  by_cases m : s.part.mode = .running
  · rcases step_keeps_running tableSound_runs (fun _ b => b.1.1) (tableSound_of_alarmsSound m a) e with fresh | kept
    · rw [fresh]
      exact reset
    · exact alarmsSound_of_tableSound kept
  · rcases step_stopped m e with fresh | ⟨dt, l, loading, ended⟩ | frame
    · rw [fresh]
      exact reset
    · rw [ended]
      exact endLoad_alarmsSound l (by simpa using alarms_of_loading loading a)
    · exact alarmsSound_depends.keeps frame (by decide) a

end Sys2Proof.Machine
end

section
/-! PROOFS. Every step keeps the Mirror Link (R115, R118, R119, R124): the rules of its queue and of its line apart, what joining,
dropping and selecting entries does to them, the transactions, and then the step. -/

namespace Sys2Proof.Machine

/-! ### The rules of the queue and of the line -/

/-- What the waiting entries are, beside an entry in flight, however many there are (R118, R126). -/
structure QueueRules (q : List Entry) (flight : Option Flight) : Prop where
  order : q.Pairwise fun a b => b.isMove = true → a.isMove = true
  moves : ∀ i, q.countP (Entry.isMoveOf i) ≤ 2
  polls : ∀ i, q.countP (Entry.isPollOf i) + flight.toList.countP (fun f => f.entry.isPollOf i) ≤ 1

/-- The rules of the waiting entries, with the queue's room (R118). -/
structure QueueSound (q : List Entry) (flight : Option Flight) : Prop extends QueueRules q flight where
  room : q.length ≤ Config.maxWaiting

/-- The rules of the line and the entry in flight (R115, R119, R120, R124, R130). -/
structure LineSound (flight : Option Flight) (line : LineState) (transmit : Bool) (sending : List LinkChar) : Prop where
  idle : line = .idle → flight = none
  busy : line = .sending ∨ line = .awaiting → flight.isSome = true
  gap : line = .gap → ∀ f, flight = some f → f.again = true ∨ f.orphan = true
  transmit : transmit = decide (line = .sending)
  chars : sending.isEmpty = decide (line ≠ .sending)
  tries : ∀ f, flight = some f → f.tries ≤ Config.moveTries

/-- The link between the joining of an entry and the selection of one: sound, but that an IDLE line may have entries waiting. -/
def LinkUnit.Ready (k : LinkUnit) : Prop := QueueSound k.queue k.flight ∧ LineSound k.flight k.line k.transmit k.sending

theorem movesFirst_iff {l : List Entry} :
    movesFirst l = true ↔ l.Pairwise fun a b => b.isMove = true → a.isMove = true := by
  induction l with
  | nil => simp [movesFirst]
  | cons e l ih =>
    simp only [movesFirst, Bool.and_eq_true, ih, List.pairwise_cons, Bool.or_eq_true, List.all_eq_true,
      Bool.not_eq_true']
    refine and_congr_left fun _ => ⟨fun h d m move => ?_, fun h => ?_⟩
    · rcases h with first | polls
      · exact first
      · simp [polls d m] at move
    · by_cases first : e.isMove = true
      · exact .inl first
      · refine .inr fun d m => ?_
        by_contra move
        exact first (h d m (by simpa using move))

theorem entriesSound_iff {k : LinkUnit} {i : IslandId} :
    k.entriesSound i = true ↔ k.queue.countP (Entry.isMoveOf i) ≤ 2 ∧
      k.queue.countP (Entry.isPollOf i) + k.flight.toList.countP (fun f => f.entry.isPollOf i) ≤ 1 := by
  simp [LinkUnit.entriesSound, List.countP_eq_length_filter]

theorem LinkUnit.sound_iff {k : LinkUnit} : k.sound = true ↔ k.Ready ∧ (k.line = .idle → k.queue = []) := by
  have every : ∀ P : IslandId → Prop, (∀ i, P i) ↔ P .i1 ∧ P .i2 := fun P =>
    ⟨fun h => ⟨h _, h _⟩, fun h i => by cases i; exacts [h.1, h.2]⟩
  have queue : QueueSound k.queue k.flight ↔ k.queue.length ≤ Config.maxWaiting ∧ movesFirst k.queue = true ∧
      k.entriesSound .i1 = true ∧ k.entriesSound .i2 = true := by
    rw [movesFirst_iff, entriesSound_iff, entriesSound_iff]
    refine ⟨fun ⟨⟨b, c, d⟩, a⟩ => ⟨a, b, ⟨c _, d _⟩, c _, d _⟩, fun ⟨a, b, c, d⟩ => ⟨⟨b, ?_, ?_⟩, a⟩⟩ <;> rw [every]
    · exact ⟨c.1, d.1⟩
    · exact ⟨c.2, d.2⟩
  have line : LineSound k.flight k.line k.transmit k.sending ∧ (k.line = .idle → k.queue = []) ↔
      (match k.line with
       | .idle => k.flight.isNone && k.queue.isEmpty
       | .sending => k.flight.isSome
       | .awaiting => k.flight.isSome
       | .gap => k.flight.toList.all fun f => f.again || f.orphan) = true ∧
      k.transmit = decide (k.line = .sending) ∧ k.sending.isEmpty = decide (k.line ≠ .sending) ∧
      (k.flight.toList.all fun f => decide (f.tries ≤ Config.moveTries)) = true := by
    constructor
    · rintro ⟨⟨idle, busy, gap, transmit, chars, tries⟩, empty⟩
      refine ⟨?_, transmit, chars, by simpa using tries⟩
      cases l : k.line
      · simp [idle l, empty l]
      · exact busy (.inl l)
      · exact busy (.inr l)
      · simpa using gap l
    · rintro ⟨held, transmit, chars, tries⟩
      refine ⟨⟨fun l => ?_, fun l => ?_, fun l => ?_, transmit, chars, by simpa using tries⟩, fun l => ?_⟩
      · simp [l] at held
        exact held.1
      · rcases l with l | l <;> simpa [l] using held
      · simpa [l] using held
      · simp [l] at held
        exact held.2
  simp only [LinkUnit.Ready, LinkUnit.sound, Bool.and_eq_true, decide_eq_true_eq, and_assoc]
  rw [line, queue]
  simp only [and_assoc] <;> exact Iff.rfl

theorem LinkUnit.Ready.sound {k : LinkUnit} (r : k.Ready) (l : k.line ≠ .idle) : k.sound = true :=
  LinkUnit.sound_iff.2 ⟨r, fun e => absurd e l⟩

theorem QueueRules.sublist {q r : List Entry} {f : Option Flight} (a : QueueRules q f) (s : r.Sublist q) :
    QueueRules r f :=
  ⟨a.order.sublist s, fun i => s.countP_le.trans (a.moves i),
    fun i => (Nat.add_le_add_right s.countP_le _).trans (a.polls i)⟩

theorem QueueSound.sublist {q r : List Entry} {f : Option Flight} (a : QueueSound q f) (s : r.Sublist q) :
    QueueSound r f :=
  ⟨a.toQueueRules.sublist s, s.length_le.trans a.room⟩

/-- The entry in flight may end. -/
theorem QueueSound.ended {q : List Entry} {f : Option Flight} (a : QueueSound q f) : QueueSound q none :=
  ⟨⟨a.order, a.moves, fun i => by have := a.polls i; simp; omega⟩, a.room⟩

/-- The front entry goes into flight. -/
theorem QueueSound.selected {e : Entry} {q : List Entry} (a : QueueSound (e :: q) none) {f : Flight} (same : f.entry = e) :
    QueueSound q (some f) := by
  refine ⟨⟨a.order.tail, fun i => ?_, fun i => ?_⟩, (List.sublist_cons_self e q).length_le.trans a.room⟩
  · exact (List.sublist_cons_self e q).countP_le.trans (a.moves i)
  · have := a.polls i
    simpa [List.countP_cons, same] using this

/-! ### Joining and dropping -/

theorem Entry.isPollOf_poll (i j : IslandId) : Entry.isPollOf j ⟨i, .poll⟩ = decide (i = j) := by
  simp [Entry.isPollOf, Entry.isMove]

theorem Entry.isMoveOf_poll (i j : IslandId) : Entry.isMoveOf j ⟨i, .poll⟩ = false := by
  simp [Entry.isMoveOf, Entry.isMove]

theorem QueueSound.joinPoll {q : List Entry} {f : Option Flight} (a : QueueSound q f) {i : IslandId}
    (room : q.length < Config.maxWaiting) (waits : q.any (Entry.isPollOf i) = false)
    (flies : f.any (fun f => Entry.isPollOf i f.entry) = false) : QueueSound (q ++ [⟨i, .poll⟩]) f := by
  refine ⟨⟨?_, fun j => ?_, fun j => ?_⟩, by simpa using room⟩
  · refine List.pairwise_append.2 ⟨a.order, List.pairwise_singleton _ _, fun _ _ e m => ?_⟩
    obtain rfl := List.mem_singleton.1 m
    simp [Entry.isMove]
  · simpa [Entry.isMoveOf_poll] using a.moves j
  · by_cases same : i = j
    · subst same
      have none : q.countP (Entry.isPollOf i) = 0 := List.countP_eq_zero.2 (by simpa using waits)
      have out : f.toList.countP (fun f => f.entry.isPollOf i) = 0 := by
        cases f <;> simp_all
      simp [none, out, Entry.isPollOf_poll]
    · simpa [Entry.isPollOf_poll, same] using a.polls j

theorem joinPoll_ready (i : IslandId) {p : Part} (a : p.link.Ready) : (joinPoll i p).link.Ready := by
  unfold joinPoll
  split
  · rename_i c
    obtain ⟨-, waits, flies, room⟩ := c
    exact ⟨a.1.joinPoll room (by simpa using waits) (by simpa using flies), a.2⟩
  · exact a

theorem joinPoll_line (i : IslandId) (p : Part) : (joinPoll i p).link.line = p.link.line := by
  unfold joinPoll
  split <;> rfl

/-- A POLL that joins leaves the queue with it. -/
theorem joinPoll_of_empty {i : IslandId} {p : Part} (e : (joinPoll i p).link.queue = []) : joinPoll i p = p := by
  unfold joinPoll at e ⊢
  split
  · rename_i c
    rw [if_pos c] at e
    simp at e
  · rfl

theorem joinPolls_ready {p : Part} (a : p.link.Ready) : (joinPolls p).link.Ready := by
  unfold joinPolls
  dsimp only
  split
  · exact joinPoll_ready .i1 a
  · exact joinPoll_ready .i2 (joinPoll_ready .i1 a)

theorem joinPolls_line (p : Part) : (joinPolls p).link.line = p.link.line := by
  unfold joinPolls
  dsimp only
  split <;> simp only [joinPoll_line]

theorem joinPolls_of_empty {p : Part} (e : (joinPolls p).link.queue = []) : joinPolls p = p := by
  unfold joinPolls at e ⊢
  dsimp only at e ⊢
  split at e
  · rename_i waits
    rw [if_pos waits, joinPoll_of_empty e]
  · rename_i waits
    have second := joinPoll_of_empty e
    rw [second] at e
    rw [if_neg waits, second, joinPoll_of_empty e]

/-! ### Transactions -/

theorem post_link (s : AlarmSource) (e : EventItem) (p : Part) : (post s e p).link = p.link :=
  (post_frame s e p .link (by decide)).symm

theorem reportLate_link (e : Entry) (n : Nat) (p : Part) : (reportLate e n p).link = p.link := by
  unfold reportLate
  split
  · split
    · exact post_link _ _ _
    · rfl
  · rfl

/-- The link as a transaction of the entry in flight begins (R115, R120). -/
theorem beginTransaction_link (f : Flight) (p : Part) :
    (beginTransaction f p).link =
      { p.link with
        flight := some { f with tries := f.tries + 1, sentTo := (p.island f.entry.island).settings.address }
        line := .sending, transmit := true
        sending := messageChars (requestBytes (p.island f.entry.island).settings.address f.entry.request)
        since := p.time.crystal, assembling := [] } := by
  unfold beginTransaction
  dsimp only
  split
  · rw [reportLate_link]
  · rfl

theorem beginTransaction_sound {f : Flight} {p : Part} (few : f.tries < Config.moveTries)
    (a : ∀ g : Flight, g.entry = f.entry → QueueSound p.link.queue (some g)) : (beginTransaction f p).link.sound = true := by
  refine LinkUnit.Ready.sound ?_ ?_ <;> rw [beginTransaction_link]
  · refine ⟨a _ rfl, nofun, fun _ => rfl, nofun, rfl, ?_, ?_⟩
    · simp [requestBytes, messageChars]
    · rintro g rfl'
      cases rfl'
      exact few
  · simp

theorem selectEntry_ready {p : Part} (a : p.link.Ready) :
    (selectEntry p).link.sound = true ∨ selectEntry p = p ∧ (p.link.line = .idle → p.link.queue = []) := by
  unfold selectEntry
  split
  · rename_i e rest idle free queue
    refine .inl (beginTransaction_sound (Nat.zero_lt_succ _) fun g same => ?_)
    have sound := a.1
    rw [free, queue] at sound
    exact sound.selected same
  · rename_i other
    refine .inr ⟨rfl, fun idle => ?_⟩
    match queue : p.link.queue with
    | [] => rfl
    | e :: rest => exact absurd queue (other e rest idle (a.2.idle idle))

/-- Joining and selecting makes the link sound (R118, R119). -/
theorem pumpLink_sound {p : Part} (a : p.link.Ready) : (pumpLink p).link.sound = true := by
  unfold pumpLink
  have joined := joinPolls_ready a
  rcases selectEntry_ready joined with sound | ⟨same, empty⟩
  · obtain ⟨ready, none⟩ := LinkUnit.sound_iff.1 sound
    by_cases idle : (selectEntry (joinPolls p)).link.line = .idle
    · refine LinkUnit.sound_iff.2 ⟨joinPolls_ready ready, fun _ => ?_⟩
      have unchanged : selectEntry (joinPolls p) = joinPolls p := by
        unfold selectEntry at idle ⊢
        split
        · rename_i e rest l free queue
          simp [l, free, queue, beginTransaction_link] at idle
        · rfl
      have queue := none idle
      rw [unchanged] at queue ⊢
      have still := joinPolls_of_empty queue
      rw [still, still]
      rwa [still] at queue
    · exact (joinPolls_ready ready).sound (by rwa [joinPolls_line])
  · rw [same]
    refine LinkUnit.sound_iff.2 ⟨joinPolls_ready joined, fun idle => ?_⟩
    rw [joinPolls_line] at idle
    have queue := empty idle
    have still := joinPolls_of_empty queue
    rw [still, still]
    rwa [still] at queue

/-! ### A MOVE joins -/

/-- What the rules of the queue look at in an entry. -/
def Entry.shape (e : Entry) : IslandId × Bool := (e.island, e.isMove)

/-- The rules look at the entries' shapes alone. -/
theorem QueueRules.of_shapes {q r : List Entry} {f : Option Flight} (a : QueueRules q f)
    (same : r.map Entry.shape = q.map Entry.shape) : QueueRules r f := by
  have count : ∀ g : IslandId × Bool → Bool, r.countP (g ∘ Entry.shape) = q.countP (g ∘ Entry.shape) := fun g => by
    rw [← List.countP_map, same, List.countP_map]
  refine ⟨?_, fun i => ?_, fun i => ?_⟩
  · have order : (q.map Entry.shape).Pairwise fun x y => y.2 = true → x.2 = true := List.pairwise_map.2 a.order
    rw [← same] at order
    exact List.pairwise_map.1 order
  · exact (count fun x => x.1 = i && x.2) ▸ a.moves i
  · exact (count fun x => x.1 = i && !x.2) ▸ a.polls i

theorem replaceMove_shapes (i : IslandId) (q : Port) (f : Stamp) (n : Nat) (l : List Entry) :
    (replaceMove i (.move q f) n l).map Entry.shape = l.map Entry.shape := by
  induction l generalizing n with
  | nil => rfl
  | cons e l ih =>
    unfold replaceMove
    split
    · rename_i mine
      have move : e.isMove = true := by simp [Entry.isMoveOf] at mine; exact mine.2
      cases n with
      | zero =>
        rw [List.map_cons, List.map_cons, Entry.shape, Entry.shape, move]
        rfl
      | succ n => simp [ih n]
    · simp [ih n]

/-- A MOVE that joins goes behind the MOVEs and before the POLLs. -/
theorem QueueRules.joinMove {l : List Entry} {f : Option Flight} (a : QueueRules l f) (i : IslandId) (q : Port) (x : Stamp)
    (few : (l.filter (Entry.isMoveOf i)).length < 2) :
    QueueRules (l.filter Entry.isMove ++ [⟨i, .move q x⟩] ++ l.filter fun e => !e.isMove) f := by
  have perm : (l.filter Entry.isMove ++ [(⟨i, .move q x⟩ : Entry)] ++ l.filter fun e => !Entry.isMove e).Perm
      (⟨i, .move q x⟩ :: l) := by
    rw [List.append_assoc]
    exact List.perm_middle.trans (.cons _ (List.filter_append_perm _ _))
  refine ⟨?_, fun j => ?_, fun j => ?_⟩
  · refine List.pairwise_append.2 ⟨?_, a.order.sublist List.filter_sublist, fun _ _ e m move => ?_⟩
    · refine List.pairwise_append.2 ⟨a.order.sublist List.filter_sublist, List.pairwise_singleton _ _, fun d m _ _ _ => ?_⟩
      exact (List.mem_filter.1 m).2
    · have poll := (List.mem_filter.1 m).2
      simp [move] at poll
  · rw [perm.countP_eq, List.countP_cons]
    by_cases same : i = j
    · subst same
      rw [List.countP_eq_length_filter]
      split <;> omega
    · simpa [Entry.isMoveOf, same] using a.moves j
  · rw [perm.countP_eq, List.countP_cons]
    simpa [Entry.isPollOf, Entry.isMove] using a.polls j

theorem joinMove_rules {l : List Entry} {f : Option Flight} (a : QueueSound l f) (i : IslandId) (q : Port) (x : Stamp) :
    QueueRules (joinMove i q x l) f ∧ (joinMove i q x l).length ≤ Config.maxWaiting + 1 := by
  have room := a.room
  unfold joinMove
  dsimp only
  split
  · exact ⟨a.toQueueRules, Nat.le_succ_of_le room⟩
  · split
    · have shapes := replaceMove_shapes i q x 1 l
      refine ⟨a.toQueueRules.of_shapes shapes, ?_⟩
      have same := congrArg List.length shapes
      simp only [List.length_map] at same
      omega
    · rename_i few
      refine ⟨a.toQueueRules.joinMove i q x (by omega), ?_⟩
      have parts := (List.filter_append_perm Entry.isMove l).length_eq
      simp only [List.length_append, List.length_singleton] at parts ⊢
      omega

theorem dropPoll_ready {p : Part} (rules : QueueRules p.link.queue p.link.flight)
    (room : p.link.queue.length ≤ Config.maxWaiting + 1)
    (line : LineSound p.link.flight p.link.line p.link.transmit p.link.sending) : (dropPoll p).link.Ready := by
  unfold dropPoll
  split
  · rename_i fits
    exact ⟨⟨rules, fits⟩, line⟩
  · rename_i excess
    split
    · refine ⟨⟨rules.sublist (List.dropLast_sublist _), ?_⟩, line⟩
      change p.link.queue.dropLast.length ≤ _
      rw [List.length_dropLast]
      omega
    · rename_i none
      rw [List.getLast?_eq_none_iff.1 none] at excess
      exact absurd (Nat.zero_le _) excess

theorem LinkUnit.ready_of_sound {k : LinkUnit} (a : k.sound = true) : k.Ready := (LinkUnit.sound_iff.1 a).1

theorem submitMove_sound (i : IslandId) (q : Port) (x : Stamp) {p : Part} (a : p.link.sound = true) :
    (submitMove i q x p).link.sound = true := by
  obtain ⟨queue, line⟩ := LinkUnit.ready_of_sound a
  obtain ⟨rules, room⟩ := joinMove_rules queue i q x
  exact pumpLink_sound (p := Part.modStation _ i _) (dropPoll_ready (p := { p with link := { p.link with queue := _ } }) rules room line)

/-! ### Polls and addresses -/

theorem endFast_sound (i : IslandId) {p : Part} (a : p.link.sound = true) : (endFast i p).link.sound = true := by
  unfold endFast
  dsimp only
  split
  · exact pumpLink_sound (p := Part.modStation p i _) (LinkUnit.ready_of_sound a)
  · exact a

theorem fieldPolls_sound {p : Part} (a : p.link.sound = true) : (fieldPolls p).link.sound = true :=
  pumpLink_sound (p := { p with link := { p.link with stations := _ } }) (LinkUnit.ready_of_sound a)

theorem takePollExpiry_sound (i : IslandId) {p : Part} (a : p.link.sound = true) : (takePollExpiry i p).link.sound = true :=
  pumpLink_sound (p := Part.modStation p i _) (LinkUnit.ready_of_sound a)

theorem clearAlarm_link (s : AlarmSource) (k : AlarmKind) (a b : Word) (p : Part) : (clearAlarm s k a b p).link = p.link :=
  (clearAlarm_frame s k a b p .link (by decide)).symm

theorem raiseAlarm_link (s : AlarmSource) (k : AlarmKind) (a b : Word) (p : Part) : (raiseAlarm s k a b p).link = p.link :=
  (raiseAlarm_frame s k a b p .link (by decide)).symm

/-- The entry in flight may be marked as no longer counted (R130). -/
theorem LinkUnit.Ready.orphan {k : LinkUnit} (a : k.Ready) (i : IslandId) : LinkUnit.Ready
    { k with flight := k.flight.map fun f => if f.entry.island = i then { f with orphan := true } else f } := by
  obtain ⟨⟨⟨order, moves, polls⟩, room⟩, idle, busy, gap, transmit, chars, tries⟩ := a
  cases flying : k.flight with
  | none =>
    rw [flying] at polls idle busy gap tries
    exact ⟨⟨⟨order, moves, polls⟩, room⟩, idle, busy, gap, transmit, chars, tries⟩
  | some f =>
    rw [flying] at polls idle busy gap tries
    rw [Option.map_some]
    split
    · refine ⟨⟨⟨order, moves, polls⟩, room⟩, ?_⟩
      exact { idle := fun l => (nomatch idle l), busy := fun _ => rfl, transmit := transmit, chars := chars,
              gap := fun _ g e => .inr (Option.some.inj e ▸ rfl), tries := fun g e => Option.some.inj e ▸ tries f rfl }
    · exact ⟨⟨⟨order, moves, polls⟩, room⟩, idle, busy, gap, transmit, chars, tries⟩

theorem readdress_sound (i : IslandId) {p : Part} (a : p.link.sound = true) : (readdress i p).link.sound = true := by
  unfold readdress
  rw [clearAlarm_link]
  exact pumpLink_sound (p := { (p.modStation i _) with link := { (p.modStation i _).link with flight := _ } })
    (LinkUnit.Ready.orphan (k := (p.modStation i _).link) (LinkUnit.ready_of_sound a) i)

theorem clearPolls_sound {p : Part} (a : p.link.sound = true) : (clearPolls p).link.sound = true := by
  obtain ⟨⟨queue, line⟩, empty⟩ := LinkUnit.sound_iff.1 a
  refine LinkUnit.sound_iff.2 ⟨⟨queue.sublist List.filter_sublist, line⟩, fun idle => ?_⟩
  change p.link.queue.filter _ = []
  rw [empty idle]
  rfl

/-! ### The end of a transaction -/

theorem takeSent_sound {p : Part} (sending : p.link.line = .sending) (a : p.link.sound = true) :
    (takeSent p).link.sound = true := by
  obtain ⟨queue, -, busy, -, -, -, tries⟩ := LinkUnit.ready_of_sound a
  exact LinkUnit.Ready.sound ⟨queue, nofun, fun _ => busy (.inl sending), nofun, rfl, rfl, tries⟩ nofun

/-- The line in GAP, its entry in flight about to end. -/
structure LinkUnit.Ending (k : LinkUnit) : Prop where
  queue : QueueSound k.queue none
  line : k.line = .gap
  transmit : k.transmit = false
  sending : k.sending = []

theorem enterGap_ending {p : Part} (line : p.link.line = .awaiting) (a : p.link.sound = true) : (enterGap p).link.Ending := by
  obtain ⟨queue, -, -, -, transmit, chars, -⟩ := LinkUnit.ready_of_sound a
  rw [line] at transmit chars
  exact ⟨queue.ended, rfl, transmit, by simpa [enterGap] using chars⟩

theorem endEntry_sound {p : Part} (a : p.link.Ending) : (endEntry p).link.sound = true := by
  obtain ⟨queue, line, transmit, sending⟩ := a
  refine pumpLink_sound (p := { p with link := { p.link with flight := none } })
    ⟨queue, fun _ => rfl, fun busy => ?_, nofun, ?_, ?_, nofun⟩
  · rw [line] at busy
    simp at busy
  · rw [line]
    exact transmit
  · rw [line, sending]
    rfl

theorem reportReply_link (i : IslandId) (n : Nat) (o : Station) (r : Reply) (p : Part) :
    (reportReply i n o r p).link = p.link := by
  have told : ∀ c f q, (postStation i c n f q).link = q.link := fun _ _ _ => post_link _ _ _
  unfold reportReply
  dsimp only
  cases r <;> simp only [apply_ite Part.link, told, ite_self]

theorem judgeReply_link (i : IslandId) (o : Bool) (r : Request) (m : Reply) (p : Part) :
    (judgeReply i o r m p).link = p.link := by
  have known : (if o then clearAlarm (.island i) .stationOffline 0 0 p else p).link = p.link := by
    split
    · exact clearAlarm_link _ _ _ _ _
    · rfl
  unfold judgeReply
  dsimp only
  split <;> simp only [raiseAlarm_link, clearAlarm_link, known]

theorem modStation_ending {p : Part} (a : p.link.Ending) (i : IslandId) (f : Station → Station) :
    (p.modStation i f).link.Ending := ⟨a.queue, a.line, a.transmit, a.sending⟩

/-- A miss changes a station's record alone. -/
theorem countMiss_link (i : IslandId) (n : Nat) (p : Part) :
    ∃ x, (countMiss i n p).link = { p.link with stations := x } := by
  have told : ∀ c q, (postStation i c n none q).link = q.link := fun _ _ => post_link _ _ _
  have offline : ∀ q : Part, (stationOffline i q).link = q.link := fun _ => rfl
  have counted : ∀ f : Station → Station, ∃ x, (p.modStation i f).link = { p.link with stations := x } := fun _ => ⟨_, rfl⟩
  unfold countMiss
  simp only [apply_ite Part.link, offline, raiseAlarm_link, told, ite_self]
  exact counted _

theorem goodReply_sound (f : Flight) (m : Reply) {p : Part} (deliver : ∀ i r m q, q.link.sound = true →
    (deliver i r m q).link.sound = true) (line : p.link.line = .awaiting) (a : p.link.sound = true) :
    (goodReply f m p).link.sound = true := by
  have gap := enterGap_ending line a
  unfold goodReply
  dsimp only
  split
  · exact endEntry_sound gap
  · refine deliver _ _ _ _ (endEntry_sound ?_)
    rw [judgeReply_link, reportReply_link]
    exact modStation_ending gap _ _

theorem judgeMessage_sound (m : List LinkChar) {p : Part} (deliver : ∀ i r m q, q.link.sound = true →
    (deliver i r m q).link.sound = true) (line : p.link.line = .awaiting) (a : p.link.sound = true) :
    (judgeMessage m p).link.sound = true := by
  unfold judgeMessage
  split
  · exact a
  · split
    · exact goodReply_sound _ _ deliver line a
    · exact a

theorem receive_sound (c : LinkChar) {p : Part} (deliver : ∀ i r m q, q.link.sound = true →
    (deliver i r m q).link.sound = true) (a : p.link.sound = true) : (receive c p).link.sound = true := by
  have assembled : ∀ l : List LinkChar, { p.link with assembling := l }.sound = true := fun _ => a
  unfold receive
  split
  · exact a
  · rename_i listens
    have line : p.link.line = .awaiting := by
      simp only [LinkUnit.listening, Bool.and_eq_true, decide_eq_true_eq, not_not] at listens
      exact listens.1
    exact ite_keeps (I := fun q => q.link.sound = true) (assembled _) (judgeMessage_sound _ deliver line (assembled []))

theorem takeTimeout_sound {p : Part} (line : p.link.line = .awaiting) (a : p.link.sound = true) :
    (takeTimeout p).link.sound = true := by
  have gap := enterGap_ending line a
  obtain ⟨queue, -, busy, -, transmit, chars, tries⟩ := LinkUnit.ready_of_sound a
  unfold takeTimeout
  split
  · rename_i free
    rw [free] at busy
    exact nomatch busy (.inr line)
  · rename_i f flying
    have missed : ∃ x, (if f.orphan then enterGap p else countMiss f.entry.island f.sentTo (enterGap p)).link =
        { (enterGap p).link with stations := x } := by
      split
      · exact ⟨_, rfl⟩
      · exact countMiss_link _ _ _
    obtain ⟨x, same⟩ := missed
    dsimp only
    generalize (if f.orphan then enterGap p else countMiss f.entry.island f.sentTo (enterGap p)) = q at same ⊢
    split
    · rename_i again
      rw [same]
      rw [line] at transmit chars
      refine LinkUnit.Ready.sound ⟨queue, nofun, nofun, fun _ h held => ?_, transmit, chars, tries⟩ nofun
      cases flying.symm.trans held
      exact .inl again
    · refine endEntry_sound ?_
      rw [same]
      exact ⟨gap.queue, gap.line, gap.transmit, gap.sending⟩

theorem takeGapEnd_sound {p : Part} (line : p.link.line = .gap) (a : p.link.sound = true) :
    (takeGapEnd p).link.sound = true := by
  obtain ⟨queue, -, -, gap, transmit, chars, tries⟩ := LinkUnit.ready_of_sound a
  rw [line] at transmit chars
  unfold takeGapEnd
  split
  · rename_i f flying
    split
    · exact pumpLink_sound (p := { p with link := { p.link with line := .idle, flight := none } })
        ⟨queue.ended, fun _ => rfl, nofun, nofun, transmit, chars, nofun⟩
    · rename_i counted
      have again : f.again = true := (gap line f flying).resolve_right counted
      simp only [Flight.again, Bool.and_eq_true, decide_eq_true_eq] at again
      refine beginTransaction_sound again.2 fun g same => ⟨⟨queue.order, queue.moves, fun i => ?_⟩, queue.room⟩
      have polls := queue.polls i
      rw [flying] at polls
      simpa [same] using polls
  · rename_i free
    exact pumpLink_sound (p := { p with link := { p.link with line := .idle } })
      ⟨queue, fun _ => free, nofun, nofun, transmit, chars, tries⟩

/-! ### The step -/

/-- The link of a part is sound. -/
def LinkSound (p : Part) : Prop := p.link.sound = true

theorem linkSound_depends : DependsOn [.link] LinkSound := by
  intro p q same a
  have k : p.link = q.link := same .link (by simp)
  unfold LinkSound
  exact k ▸ a

theorem linkSound_frame {t : List Block} {p q : Part} (c : ChangesOnly t p q) (n : ∀ b ∈ [Block.link], b ∉ t)
    (a : LinkSound p) : LinkSound q := linkSound_depends.keeps c n a

theorem linkSound_drive : DriveKeeps LinkSound where
  post s e p := linkSound_frame (post_frame s e p) (by decide)
  raise s k x y p := linkSound_frame (raiseAlarm_frame s k x y p) (by decide)
  clear s k x y p := linkSound_frame (clearAlarm_frame s k x y p) (by decide)
  head h f p _ := linkSound_frame (modHead_frame h f p) (by cases h <;> decide)
  analog _ _ a := a

theorem linkSound_scheduler : SchedulerKeeps LinkSound where
  post := linkSound_drive.post
  raise := linkSound_drive.raise
  clear := linkSound_drive.clear
  islands _ _ a := a
  move i q f _ a := submitMove_sound i q f a
  fast i _ a := endFast_sound i a
  start h _ _ a := startDrive_keeps linkSound_drive h _ a

theorem deliver_linkSound (i : IslandId) (r : Request) (m : Reply) (p : Part) (a : p.link.sound = true) :
    (deliver i r m p).link.sound = true := by
  unfold deliver
  split
  · exact deliverStatus_keeps linkSound_scheduler i _ _ a
  · exact deliverRefusal_keeps linkSound_scheduler i _ a
  · exact a
  · exact a

theorem linkSound_commands : CommandKeeps LinkSound :=
  { (linkSound_scheduler.reports linkSound_drive).heads with
    post := linkSound_drive.post
    ref := fun _ _ a => a
    analog := fun _ _ a => a
    panel := fun _ _ a => a
    flags := fun _ a => a
    acknowledge := fun s p => linkSound_frame (acknowledge_frame s p) (by decide)
    clearAll := fun _ a => clearAll_keeps linkSound_scheduler (fun _ _ a => a)
      (fun p => linkSound_frame (emptyAlarms_frame p) (by decide)) (fun _ _ a => a)
      (fun h _ a => clearHead_keeps linkSound_drive linkSound_scheduler
        (fun h _ _ p => linkSound_frame (modHead_frame h _ p) (by cases h <;> decide)) h a)
      (fun _ a => clearPolls_sound a) (fun i _ a => readdress_sound i a) (fun _ _ a => a) a
    assign := fun h x p _ _ a => by
      have S := linkSound_scheduler.reports linkSound_drive
      have set : LinkSound (p.modHead h fun y => { y with assigned := x }) :=
        linkSound_frame (modHead_frame h _ p) (by cases h <;> decide) a
      have preset : ∀ i q, LinkSound q → LinkSound (checkPreset i q) := fun i q b => by
        unfold checkPreset
        split
        · exact ite_keeps b b
        · exact b
        · exact b
      exact settle_keeps S (preset _ _ (preset _ _ set))
    setIsland := fun i c p a => meetGuard_keeps linkSound_scheduler i (ite_keeps a (readdress_sound i (p := p.modIsland i _) a))
    preset := fun _ _ a => a
    authority := fun _ _ _ a => a
    join := fun _ _ _ _ a => a
    activate := fun i _ a => activateFront_keeps linkSound_scheduler i a
    cancel := fun _ _ _ a => a
    abort := fun i _ _ _ _ a => endActive_keeps linkSound_scheduler i _ _ a
    standby := fun i _ a => standbyRequest_keeps linkSound_scheduler i a }

theorem linkSound_units : UnitsKeep LinkSound :=
  { linkSound_commands with
    raise := linkSound_drive.raise
    bus := fun _ _ a => a
    agent := fun _ _ a => a
    cmd := fun _ _ a => a
    evt := fun _ _ a => a
    init := fun _ _ a => a
    standbyAtStart := fun i _ a => commitAsked_keeps linkSound_scheduler 0 i _ _ _ a }

theorem linkSound_runs : RunKeeps LinkSound :=
  { linkSound_commands with
    time := fun _ _ a => a
    status := fun _ _ a => a
    field := fun _ a => fieldPolls_sound a
    raise := linkSound_drive.raise
    clear := linkSound_drive.clear
    startField := fun i _ _ a => takeStartField_keeps linkSound_scheduler i a
    commitField := fun i _ _ a => takeCommitField_keeps linkSound_scheduler i a
    guard := fun i _ _ a => takeGuard_keeps linkSound_scheduler i a
    deadline := fun i _ a => takeDeadline_keeps linkSound_scheduler i a
    poll := fun i _ a => takePollExpiry_sound i a
    sent := fun _ line a => takeSent_sound line a
    receive := fun c _ a => receive_sound c deliver_linkSound a
    timeout := fun _ line a => takeTimeout_sound line a
    gapEnd := fun _ line a => takeGapEnd_sound line a
    begins := fun c _ a => beginCycle_keeps linkSound_units c a
    ends := fun ack _ a => endCycle_keeps linkSound_units ack a
    withhold := fun x _ a => withhold_keeps linkSound_units x a
    answer := fun x l h _ a => answerRead_keeps linkSound_units x l h a
    finish := fun d _ _ a => finishWord_keeps linkSound_units d a
    fail := fun _ _ a => failWord_keeps linkSound_units a
    starve := fun _ _ a => takeStarve_keeps linkSound_units a }

/-- A load ends with the link as it was, or as its reset leaves it, with nothing waiting and nothing in flight. -/
theorem endLoad_linkSound (l : List Byte) {p : Part} (a : LinkSound p) : LinkSound (endLoad l p) := by
  unfold endLoad
  split
  · rename_i m _
    have begun : LinkSound (beginRow 0 p.time.now (startBlocks m p)) :=
      linkSound_frame (beginRow_frame _ _ _) (by decide) (show LinkUnit.sound (.reset m.line) = true from rfl)
    exact linkSound_frame (submit_frame _ _) (by decide) (p := { beginRow 0 _ _ with init := _ }) begun
  · exact linkSound_frame (beginRow_frame _ _ _) (by decide) (p := { p with mode := _, alarms := _, panel := _ }) a

/-- Settles O59: each operation on the link keeps its rules (`linkSound_runs`), and everything else the part does leaves it alone. -/
theorem everyStepKeepsTheLink : Obligations.EveryStepKeepsTheLink := by
  intro s t a e
  exact step_keeps linkSound_runs (show Part.reset.link.sound = true by decide) (fun l _ _ b => endLoad_linkSound l b) a e

end Sys2Proof.Machine
end

section
/-! PROOFS. Time: what `n` crystal cycles make of the timebase, and that the ticks a command lets pass are the fewest cycles that
issue them (section 1.1, R1). -/

namespace Sys2Proof.Machine

theorem increment_bounds {p : Part} (low : -1000 ≤ p.ref.trim) (high : p.ref.trim ≤ 1000) :
    0 < p.increment ∧ p.increment ≤ 2 ^ 22 := by
  unfold Part.increment
  omega

/-- The timebase after `n` crystal cycles. -/
def Part.cycled (p : Part) (n : Nat) : Timebase :=
  { acc := BitVec.ofNat 22 (p.time.acc.toNat + n * p.increment), crystal := p.time.crystal + n
    now := p.time.now + (p.time.acc.toNat + n * p.increment) / 2 ^ 22 }

theorem iterate_crystalCycle {p : Part} (most : p.increment ≤ 2 ^ 22) (n : Nat) :
    Nat.iterate crystalCycle n p = { p with time := p.cycled n } := by
  induction n with
  | zero =>
    have small : p.time.acc.toNat / 2 ^ 22 = 0 := Nat.div_eq_of_lt p.time.acc.isLt
    simp only [Function.iterate_zero, id, Part.cycled, Nat.zero_mul, Nat.add_zero, small, BitVec.ofNat_toNat, BitVec.setWidth_eq]
  | succ n ih =>
    rw [Function.iterate_succ_apply', ih]
    have more : p.time.acc.toNat + (n + 1) * p.increment = p.time.acc.toNat + n * p.increment + p.increment := by
      rw [Nat.succ_mul, Nat.add_assoc]
    have same : ∀ t, Part.increment { p with time := t } = p.increment := fun _ => rfl
    unfold crystalCycle
    simp only [same, Part.cycled, more, BitVec.toNat_ofNat]
    generalize p.time.acc.toNat + n * p.increment = x
    have acc : BitVec.ofNat 22 (x % 2 ^ 22 + p.increment) = BitVec.ofNat 22 (x + p.increment) := by
      apply BitVec.eq_of_toNat_eq
      simp
    have now : (if 2 ^ 22 ≤ x % 2 ^ 22 + p.increment then p.time.now + x / 2 ^ 22 + 1 else p.time.now + x / 2 ^ 22) =
        p.time.now + (x + p.increment) / 2 ^ 22 := by
      split <;> omega
    simp only [Nat.add_assoc] at now ⊢
    rw [acc, now]

/-- The cycles until `n` more ticks: the first count of cycles at which the accumulator has gained them. -/
theorem cyclesFor_bounds {a g n : Nat} (positive : 0 < g) (some : 0 < n) (small : a < 2 ^ 22) :
    n * 2 ^ 22 ≤ a + cyclesFor a g n * g ∧ a + cyclesFor a g n * g < n * 2 ^ 22 + g := by
  unfold cyclesFor
  have parts := Nat.div_add_mod (n * 2 ^ 22 - a + g - 1) g
  have rest := Nat.mod_lt (n * 2 ^ 22 - a + g - 1) positive
  rw [Nat.mul_comm g] at parts
  omega

theorem elapse_iterate {p : Part} (positive : 0 < p.increment) (most : p.increment ≤ 2 ^ 22) (n : Nat) :
    ∃ k, elapse n p = Nat.iterate crystalCycle k p ∧ (elapse n p).time.now = p.time.now + n ∧
      ∀ j < k, (Nat.iterate crystalCycle j p).time.now < p.time.now + n := by
  by_cases none : n = 0
  · subst none
    exact ⟨0, rfl, rfl, fun j less => absurd less j.not_lt_zero⟩
  · have bounds := cyclesFor_bounds positive (Nat.pos_of_ne_zero none) p.time.acc.isLt
    refine ⟨cyclesFor p.time.acc.toNat p.increment n, ?_, elapse_now n p, fun j less => ?_⟩
    · have ticks : (p.time.acc.toNat + cyclesFor p.time.acc.toNat p.increment n * p.increment) / 2 ^ 22 = n := by
        omega
      rw [iterate_crystalCycle most, elapse, if_neg none]
      simp only [Part.cycled, ticks]
    · have before := Nat.mul_le_mul_right p.increment (Nat.succ_le_of_lt less)
      rw [Nat.succ_mul] at before
      rw [iterate_crystalCycle most]
      change p.time.now + (p.time.acc.toNat + j * p.increment) / 2 ^ 22 < _
      omega

/-- Settles O6: by induction on the cycles, and by the bounds of the division that counts the cycles of a lapse. -/
theorem crystalCyclesIssueTicks : Obligations.CrystalCyclesIssueTicks := by
  intro n p low high
  obtain ⟨positive, most⟩ := increment_bounds low high
  refine ⟨?_, elapse_iterate positive most n⟩
  rw [iterate_crystalCycle most]
  refine ⟨rfl, BitVec.toNat_ofNat _ _, rfl, fun b touched => ?_⟩
  cases b <;> simp at touched <;> simp [Block.same]

end Sys2Proof.Machine
end

section
/-! PROOFS. What waits in the event queue, and what the Alarm Table shows: the rules with which a statement about a command tells of
its events and alarms. -/

namespace Sys2Proof.Machine

/-! ### Commands that complete -/

/-- An event of its own moment in a part that runs, when its condition holds after the lapse. -/
theorem Completes.of_timed {c : Instr} {s : State} {dt : Nat} {due : Part → Bool} {f : Part → Part} {P : Part → Prop}
    (e : exec c s = onPart (timed dt due f) s) (r : s.part.mode = .running) (d : due (elapse dt s.part) = true)
    (a : P (f (elapse dt s.part))) : Completes c s P :=
  ⟨_, e.trans (onPart_eq _ s), by rwa [timed_due r d]⟩

theorem Completes.of_event {c : Instr} {s : State} {dt : Nat} {f : Part → Part} {P : Part → Prop}
    (e : exec c s = onPart (event dt f) s) (r : s.part.mode = .running) (a : P (f (elapse dt s.part))) : Completes c s P :=
  .of_timed e r rfl a

theorem ChangesOnly.elapsed {t : List Block} {dt : Nat} {p q : Part} (x : ChangesOnly t (elapse dt p) q) (time : .time ∈ t) :
    ChangesOnly t p q := ((elapse_frame dt p).mono (by simpa using time)).trans x

theorem ChangesOnly.since {t : List Block} {dt : Nat} {p q r : Part} (x : ChangesOnly t p q) (is : p = elapse dt r)
    (time : .time ∈ t) : ChangesOnly t r q := by
  subst is
  exact x.elapsed time

@[simp] theorem elapse_head (n : Nat) (p : Part) (h : HeadId) : (elapse n p).head h = p.head h := by
  simp [Part.head]

@[simp] theorem elapse_island (n : Nat) (p : Part) (i : IslandId) : (elapse n p).island i = p.island i := by
  simp [Part.island]

theorem elapse_listens {n : Nat} {p : Part} (l : p.listens) : (elapse n p).listens := by
  simpa [Part.listens] using l

/-! ### The event queue -/

/-- An event is being written, at most `k` wait behind it, and among those `es` in their order. -/
structure Awaits (k : Nat) (es : List Event) (p : Part) : Prop where
  writing : p.evt.writing = true
  room : p.evt.queue.length ≤ k
  told : es.Sublist p.evt.queue

/-- An event is being written, and among those that wait are `es` in their order. -/
def Holds (es : List Event) (p : Part) : Prop := p.evt.writing = true ∧ es.Sublist p.evt.queue

theorem Part.listens.awaits {p : Part} (l : p.listens) : Awaits 0 [] p :=
  ⟨l.1, by rw [l.2]; exact Nat.le_refl 0, List.nil_sublist _⟩

theorem Awaits.holds {k : Nat} {es : List Event} {p : Part} (a : Awaits k es p) : Holds es p := ⟨a.writing, a.told⟩

theorem Awaits.of_evt {k : Nat} {es : List Event} {p q : Part} (a : Awaits k es p) (same : q.evt = p.evt) : Awaits k es q :=
  ⟨same ▸ a.writing, same ▸ a.room, same ▸ a.told⟩

theorem Awaits.alarms {k : Nat} {es : List Event} {p : Part} (a : Awaits k es p) (t : AlarmTable) :
    Awaits k es { p with alarms := t } := a.of_evt rfl

theorem Awaits.ref {k : Nat} {es : List Event} {p : Part} (a : Awaits k es p) (r : RefUnit) :
    Awaits k es { p with ref := r } := a.of_evt rfl

theorem Awaits.link {k : Nat} {es : List Event} {p : Part} (a : Awaits k es p) (x : LinkUnit) :
    Awaits k es { p with link := x } := a.of_evt rfl

theorem Awaits.judge {k : Nat} {es : List Event} {p : Part} (a : Awaits k es p) : Awaits k es (judgeHorn p) := a.alarms _

theorem Awaits.frame {k : Nat} {es : List Event} {t : List Block} {p q : Part} (a : Awaits k es p) (c : ChangesOnly t p q)
    (n : .events ∉ t) : Awaits k es q := a.of_evt (c .events n).symm

theorem Awaits.mono {k n : Nat} {es : List Event} {p : Part} (a : Awaits k es p) (le : k ≤ n) : Awaits n es p :=
  ⟨a.writing, a.room.trans le, a.told⟩

theorem Holds.tells {p : Part} {s : AlarmSource} {items : List EventItem} {es : List Event} (a : Holds es p)
    (e : es = items.map fun item => ({ source := s, stamp := p.ref.count, item := item } : Event)) : p.tells s items :=
  show (items.map _).Sublist _ from e ▸ a.2

theorem pumpEvents_of_writing {p : Part} (w : p.evt.writing = true) : pumpEvents p = p := by
  unfold pumpEvents
  split
  · rfl
  · exact if_neg (by simp [w])

/-- While an event is being written, one more joins the back of the queue or is lost (R181). -/
theorem post_eq {p : Part} (w : p.evt.writing = true) (s : AlarmSource) (e : EventItem) :
    post s e p = { p with evt :=
      if p.evt.queue.length < Config.maxEvents then { p.evt with queue := p.evt.queue ++ [⟨s, p.ref.count, e⟩] }
      else { p.evt with lost := true } } := by
  unfold post
  split
  · exact pumpEvents_of_writing (p := { p with evt := { p.evt with queue := _ } }) w
  · rfl

theorem post_writing {p : Part} (w : p.evt.writing = true) (s : AlarmSource) (e : EventItem) :
    (post s e p).evt.writing = true := by
  rw [post_eq w]
  dsimp only
  split <;> exact w

theorem post_queue {p : Part} (w : p.evt.writing = true) (s : AlarmSource) (e : EventItem) : (post s e p).evt.queue =
    if p.evt.queue.length < Config.maxEvents then p.evt.queue ++ [⟨s, p.ref.count, e⟩] else p.evt.queue := by
  rw [post_eq w]
  dsimp only
  split <;> rfl

theorem Awaits.post {k : Nat} {es : List Event} {p : Part} (a : Awaits k es p) (s : AlarmSource) (e : EventItem)
    (free : k < Config.maxEvents) : Awaits (k + 1) (es ++ [⟨s, p.ref.count, e⟩]) (post s e p) := by
  have writing := post_writing a.writing s e
  have queue := post_queue a.writing s e
  rw [if_pos (a.room.trans_lt free)] at queue
  exact ⟨writing, by simpa [queue] using a.room, queue ▸ a.told.append (List.Sublist.refl _)⟩

/-- An event of which nothing is to be told. -/
theorem Awaits.other {k : Nat} {es : List Event} {p : Part} (a : Awaits k es p) (s : AlarmSource) (e : EventItem) :
    Awaits (k + 1) es (Machine.post s e p) := by
  have writing := post_writing a.writing s e
  have queue := post_queue a.writing s e
  split at queue
  · exact ⟨writing, by simpa [queue] using a.room, queue ▸ a.told.trans (List.sublist_append_left _ _)⟩
  · exact ⟨writing, queue ▸ a.room.trans (Nat.le_succ k), queue ▸ a.told⟩

theorem Awaits.ite {k : Nat} {es : List Event} {p q : Part} {c : Prop} [Decidable c] (x : Awaits k es p) (y : Awaits k es q) :
    Awaits k es (if c then p else q) := by
  split
  · exact x
  · exact y

theorem enterAlarm_awaits {k : Nat} {es : List Event} {p : Part} (a : Awaits k es p) (s : AlarmSource) (n : AlarmKind)
    (x : EntryState) (d1 d2 : Word) : Awaits (k + 1) es (enterAlarm s n x d1 d2 p) :=
  (a.alarms _).other s _

theorem addAlarm_awaits {k : Nat} {es : List Event} {p : Part} (a : Awaits k es p) (s : AlarmSource) (n : AlarmKind)
    (x : EntryState) (d1 d2 : Word) : Awaits (k + 2) es (addAlarm s n x d1 d2 p) := by
  unfold addAlarm
  split
  · exact (enterAlarm_awaits a s n x d1 d2).mono (Nat.le_succ _)
  · split
    · exact enterAlarm_awaits ((a.alarms _).other _ _) s n x d1 d2
    · exact ((a.alarms _).other _ _).mono
        (Nat.le_succ _)

theorem Awaits.raise {k : Nat} {es : List Event} {p : Part} (a : Awaits k es p) (s : AlarmSource) (n : AlarmKind)
    (d1 d2 : Word) : Awaits (k + 2) es (raiseAlarm s n d1 d2 p) := by
  unfold raiseAlarm
  refine Awaits.judge ?_
  split
  · exact addAlarm_awaits a s n _ d1 d2
  · exact (a.other _ _).mono (Nat.le_succ _)
  · exact addAlarm_awaits a s n _ d1 d2
  · split
    · exact ((a.alarms _).other _ _).mono (Nat.le_succ _)
    · exact a.mono (Nat.le_add_right _ _)
    · exact a.mono (Nat.le_add_right _ _)

theorem Awaits.clear {k : Nat} {es : List Event} {p : Part} (a : Awaits k es p) (s : AlarmSource) (n : AlarmKind)
    (d1 d2 : Word) : Awaits (k + 1) es (clearAlarm s n d1 d2 p) := by
  unfold clearAlarm
  refine Awaits.judge ?_
  split
  · exact a.mono (Nat.le_succ _)
  · split
    · exact (a.alarms _).other _ _
    · exact (a.alarms _).other _ _
    · exact a.mono (Nat.le_succ _)

/-- What waits goes on waiting, whatever is posted behind it. -/
theorem holds_depends (es : List Event) : DependsOn [.events] (Holds es) := by
  intro p q same a
  have e : p.evt = q.evt := same .events (by simp)
  unfold Holds
  exact e ▸ a

theorem Holds.awaits {es : List Event} {p : Part} (a : Holds es p) : Awaits p.evt.queue.length es p := ⟨a.1, Nat.le_refl _, a.2⟩

theorem holds_drive (es : List Event) : DriveKeeps (Holds es) where
  post s e _ a := (a.awaits.other s e).holds
  raise s k x y _ a := (a.awaits.raise s k x y).holds
  clear s k x y _ a := (a.awaits.clear s k x y).holds
  head h f p _ := (holds_depends es).keeps (modHead_frame h f p) (by cases h <;> decide)
  analog _ _ a := a

/-! ### The link's events -/

theorem joinPoll_evt (i : IslandId) (p : Part) : (joinPoll i p).evt = p.evt := by
  unfold joinPoll
  split <;> rfl

theorem joinPolls_evt (p : Part) : (joinPolls p).evt = p.evt := by
  unfold joinPolls
  dsimp only
  split <;> simp only [joinPoll_evt]

theorem beginTransaction_awaits {k : Nat} {es : List Event} {p : Part} (a : Awaits k es p) (f : Flight) :
    Awaits (k + 1) es (beginTransaction f p) := by
  have late : ∀ e n q, Awaits k es q → Awaits (k + 1) es (reportLate e n q) := by
    intro e n q b
    unfold reportLate
    split
    · exact .ite (b.other _ _) (b.mono (Nat.le_succ _))
    · exact b.mono (Nat.le_succ _)
  have begun : ∀ x, Awaits k es { p with link := x } := fun _ => a.of_evt rfl
  exact .ite (late _ _ _ (begun _)) ((begun _).mono (Nat.le_succ _))

theorem pumpLink_awaits {k : Nat} {es : List Event} {p : Part} (a : Awaits k es p) : Awaits (k + 1) es (pumpLink p) := by
  have joined := a.of_evt (joinPolls_evt p)
  refine Awaits.of_evt ?_ (joinPolls_evt _)
  unfold selectEntry
  split
  · exact beginTransaction_awaits (joined.link _) _
  · exact joined.mono (Nat.le_succ _)

theorem submitMove_awaits {k : Nat} {es : List Event} {p : Part} (a : Awaits k es p) (i : IslandId) (q : Port) (f : Stamp) :
    Awaits (k + 1) es (submitMove i q f p) := by
  have dropped : ∀ q : Part, Awaits k es q → Awaits k es (dropPoll q) := by
    intro q b
    unfold dropPoll
    split
    · exact b
    · split
      · exact b.of_evt rfl
      · exact b
  exact pumpLink_awaits ((dropped _ (a.link _)).of_evt rfl)

theorem holds_scheduler (es : List Event) : SchedulerKeeps (Holds es) where
  post := (holds_drive es).post
  raise := (holds_drive es).raise
  clear := (holds_drive es).clear
  islands _ _ a := a
  move i q f _ a := (submitMove_awaits a.awaits i q f).holds
  fast i p a := by
    unfold endFast
    exact ite_keeps (pumpLink_awaits (Holds.awaits (p := p.modStation i _) a)).holds a
  start h _ _ a := startDrive_keeps (holds_drive es) h _ a

/-! ### What the Alarm Table shows -/

theorem raiseAlarm_alarms (s : AlarmSource) (k : AlarmKind) (a b : Word) (p : Part) :
    (raiseAlarm s k a b p).alarms.shows s k = true := by
  have found : ∀ t : AlarmTable, ∀ h, (t.find? s k).isSome → { t with horn := h }.shows s k = true := fun t h f => by
    simp only [AlarmTable.shows, Bool.or_eq_true]
    exact .inr f
  have entered : ∀ x q, ((enterAlarm s k x a b q).alarms.find? s k).isSome = true := fun x q => by
    simp [enterAlarm, post_alarms, AlarmTable.find?]
  have added : ∀ x h, { (addAlarm s k x a b p).alarms with horn := h }.shows s k = true := fun x h => by
    unfold addAlarm
    split
    · exact found _ _ (entered _ _)
    · split
      · exact found _ _ (entered _ _)
      · simp [post_alarms, AlarmTable.shows]
  unfold raiseAlarm judgeHorn
  split
  · exact added _ _
  · rename_i e there
    exact found _ _ (by rw [post_alarms, there]; rfl)
  · exact added _ _
  · rename_i e there
    split
    · refine found _ _ ?_
      rw [post_alarms]
      obtain ⟨mem, source, kind⟩ := AlarmTable.find?_mem there
      simp only [AlarmTable.find?, AlarmTable.setState, List.find?_isSome, List.mem_map]
      exact ⟨_, ⟨_, mem, rfl⟩, by simp [source, kind]⟩
    · exact found _ _ (by rw [there]; rfl)
    · exact found _ _ (by rw [there]; rfl)

theorem AlarmTable.rests_iff {t : AlarmTable} {s : AlarmSource} {k : AlarmKind} :
    t.rests s k ↔ ∀ e, t.find? s k = some e → e.state = .clearedNew := Iff.rfl

theorem AlarmTable.setState_rests (t : AlarmTable) (s : AlarmSource) (k : AlarmKind) :
    (t.setState s k .clearedNew).rests s k := by
  intro e found
  obtain ⟨mem, source, kind⟩ := AlarmTable.find?_mem found
  obtain ⟨d, -, rfl⟩ := List.mem_map.1 mem
  by_cases pair : d.source = s ∧ d.kind = k
  · rw [if_pos pair]
  · rw [if_neg pair] at source kind
    exact absurd ⟨source, kind⟩ pair

theorem AlarmTable.remove_rests (t : AlarmTable) (s : AlarmSource) (k : AlarmKind) : (t.remove s k).rests s k := by
  intro e found
  obtain ⟨mem, source, kind⟩ := AlarmTable.find?_mem found
  have kept := (List.mem_filter.1 mem).2
  simp [source, kind] at kept

theorem clearAlarm_rests (s : AlarmSource) (k : AlarmKind) (a b : Word) (p : Part) : (clearAlarm s k a b p).alarms.rests s k := by
  have judged : ∀ q : Part, q.alarms.rests s k → (judgeHorn q).alarms.rests s k := fun _ r => r
  unfold clearAlarm
  refine judged _ ?_
  split
  · rename_i none
    exact fun e found => nomatch none.symm.trans found
  · rename_i e there
    split
    · rw [post_alarms]
      exact AlarmTable.setState_rests _ _ _
    · rw [post_alarms]
      exact AlarmTable.remove_rests _ _ _
    · rename_i cleared
      exact fun d found => Option.some.inj (there.symm.trans found) ▸ cleared

end Sys2Proof.Machine
end

section
/-! PROOFS. The Field Reference Unit (R5 to R14): field events, changes of the reference state, the phase difference, and then
the pulses and the fields without one. -/

namespace Sys2Proof.Machine

/-! ### Field events -/

theorem fieldEvent_ref (p : Part) :
    (fieldEvent p).ref = { p.ref with count := p.ref.count + 1, pattern := (p.ref.pattern + 1) % 3 } :=
  (fieldPolls_frame _ .ref (by decide)).symm

theorem fieldEvent_head (h : HeadId) (p : Part) :
    (fieldEvent p).head h = { p.head h with cadence := (p.head h).cadence.field } := by
  refine (fieldPolls_frame _ (.head h) (by cases h <;> decide)).symm.trans ?_
  cases h <;> rfl

theorem fieldEvent_time (p : Part) : (fieldEvent p).time = p.time := (fieldPolls_frame _ .time (by decide)).symm

theorem fieldEvent_frame (p : Part) : ChangesOnly Block.fielding p (fieldEvent p) := by
  refine .trans ?_ ((fieldPolls_frame _).mono (by simp [Block.linking, Block.fielding, Block.posting]))
  intro b n
  cases b with
  | head h => cases h <;> simp [Block.fielding] at n
  | _ => first | rfl | (simp [Block.fielding] at n; done) | simp [Block.same]

theorem fieldEvent_awaits {k : Nat} {es : List Event} {p : Part} (a : Awaits k es p) : Awaits (k + 1) es (fieldEvent p) :=
  pumpLink_awaits (Awaits.of_evt a rfl)

theorem setRef_fielding (r : RefUnit) (p : Part) : ChangesOnly Block.fielding p { p with ref := r } :=
  (setRef_frame r p).mono (by simp [Block.fielding])

theorem beginField_fielding (t l : Nat) (p : Part) : ChangesOnly Block.fielding p (beginField t l p) := setRef_fielding _ p

theorem setRef_head (r : RefUnit) (p : Part) (h : HeadId) : Part.head { p with ref := r } h = p.head h := rfl

/-! ### Changes of the reference state -/

theorem enterRef_ref (n : RefState) (p : Part) : (enterRef n p).ref = { p.ref with state := n } :=
  (post_frame _ _ _ .ref (by decide)).symm

theorem enterRef_frame (n : RefState) (p : Part) : ChangesOnly (.ref :: Block.posting) p (enterRef n p) :=
  ((setRef_frame _ p).mono (by simp)).trans ((post_frame _ _ _).mono (by simp))

theorem enterRef_fielding (n : RefState) (p : Part) : ChangesOnly Block.fielding p (enterRef n p) :=
  (enterRef_frame n p).mono (by simp [Block.fielding, Block.posting])

theorem enterRef_head (n : RefState) (p : Part) (h : HeadId) : (enterRef n p).head h = p.head h :=
  (enterRef_frame n p (.head h) (by cases h <;> decide)).symm

theorem enterRef_awaits {k : Nat} {es : List Event} {p : Part} (a : Awaits k es p) (n : RefState) (free : k < Config.maxEvents) :
    Awaits (k + 1) (es ++ [⟨.reference, p.ref.count, .refState n p.ref.state⟩]) (enterRef n p) :=
  Awaits.post (p := { p with ref := { p.ref with state := n } }) (a.of_evt rfl) _ _ free

theorem raiseRefLoss_ref (p : Part) : (raiseRefLoss p).ref = p.ref := (raiseAlarm_frame _ _ _ _ p .ref (by decide)).symm

theorem raiseRefLoss_head (h : HeadId) (p : Part) : (raiseRefLoss p).head h = p.head h :=
  (raiseAlarm_frame _ _ _ _ p (.head h) (by cases h <;> decide)).symm

theorem clearRefLoss_ref (p : Part) : (clearAlarm .reference .refLoss 0 0 p).ref = p.ref :=
  (clearAlarm_frame _ _ _ _ p .ref (by decide)).symm

theorem fielding_alarms : Block.fielding ⊆ .alarms :: Block.fielding := List.subset_cons_self _ _

theorem alarming_fielding : Block.alarming ⊆ .alarms :: Block.fielding := by
  simp [Block.alarming, Block.fielding, Block.posting]

/-- A change of the reference state is told, with the count it has found (R13). -/
theorem enterRef_tells {k : Nat} {p : Part} (a : Awaits k [] p) (n : RefState) (free : k < Config.maxEvents) {f : Part → Part}
    (ref : ∀ q, (f q).ref = q.ref) (keeps : ∀ es q, Holds es q → Holds es (f q)) :
    (f (enterRef n p)).tells .reference [.refState n p.ref.state] := by
  have told := keeps _ _ (enterRef_awaits a n free).holds
  refine told.tells ?_
  rw [ref, enterRef_ref]
  rfl

/-! ### A field of LOCKED -/

theorem acceptPulse_ref (p : Part) : (acceptPulse p).ref = { p.ref with
    count := p.ref.count + 1, pattern := (p.ref.pattern + 1) % 3, begun := p.time.now
    length := p.ref.standard.patternLength ((p.ref.pattern + 1) % 3), raised := false, misses := 0, accepted := some p.time.now
    history := match p.ref.accepted with
      | some a => ((p.time.now - a) :: p.ref.history).take 16
      | none => p.ref.history } := by
  unfold acceptPulse
  simp only [beginField, fieldEvent_ref, RefUnit.nextLength] <;> rfl

theorem acceptPulse_after (p : Part) : ChangesOnly [.ref] (fieldEvent p) (acceptPulse p) :=
  (setRef_frame _ (fieldEvent p)).trans (setRef_frame _ _)

theorem acceptPulse_head (h : HeadId) (p : Part) :
    (acceptPulse p).head h = { p.head h with cadence := (p.head h).cadence.field } :=
  (acceptPulse_after p (.head h) (by simp)).symm.trans (fieldEvent_head h p)

theorem acceptPulse_time (p : Part) : (acceptPulse p).time = p.time :=
  (acceptPulse_after p .time (by simp)).symm.trans (fieldEvent_time p)

theorem acceptPulse_frame (p : Part) : ChangesOnly Block.fielding p (acceptPulse p) :=
  (fieldEvent_frame p).trans ((acceptPulse_after p).mono (by simp [Block.fielding]))

theorem takeStationPulse_locked {p : Part} (locked : p.ref.state = .locked) : takeStationPulse p =
    if p.ref.begun + p.ref.length ≤ p.time.now + 400 ∧ p.time.now ≤ p.ref.begun + p.ref.length + 400 then acceptPulse p
    else p := by
  simp only [takeStationPulse, locked] <;> rfl

/-- Settles O8: the window is `takeStationPulse_locked`; inside it the pulse is the field event. -/
theorem stationPulseInLocked : Obligations.StationPulseInLocked := by
  intro s dt running locked r t
  have pulse := takeStationPulse_locked (p := elapse dt s.part) (by simpa using locked)
  simp only [elapse_ref, elapse_now] at pulse
  refine ⟨fun early late => .of_event rfl running ?accepted, fun outside => .of_event rfl running ?ignored⟩
  case accepted =>
    rw [pulse, if_pos ⟨early, late⟩]
    refine ⟨?_, ?_, fun h => ?_, (acceptPulse_frame _).elapsed (by decide)⟩
    · rw [acceptPulse_time, elapse_now]
    · rw [acceptPulse_ref, elapse_ref, elapse_now] <;> rfl
    · rw [acceptPulse_head, elapse_head]
  case ignored =>
    rw [pulse, if_neg outside]
    exact ⟨elapse_now dt _, elapse_frame dt _⟩

/-! ### The qualifying run and the phase difference -/

theorem Standard.nominal_eq (x : Standard) : x.nominal = if x = .f50 then 20000 else 16683 := by cases x <;> rfl

theorem RefUnit.regular_eq (r : RefUnit) (t : Nat) : r.regular t =
    match r.lastPulse with
    | some l => decide ((if r.standard = .f50 then 20000 else 16683) - 400 ≤ t - l ∧
        t - l ≤ (if r.standard = .f50 then 20000 else 16683) + 400)
    | none => false := by
  cases last : r.lastPulse with
  | none => simp [RefUnit.regular, last]
  | some l => simp [RefUnit.regular, last, Standard.nominal_eq, Config.window]

/-- The phase difference is what R8 says of it. -/
theorem RefUnit.phaseDiff_is (r : RefUnit) (t : Nat) : r.phaseIs t (r.phaseDiff t) := by
  unfold RefUnit.phaseIs RefUnit.phaseDiff RefUnit.takenNearest RefUnit.due
  rw [Standard.nominal_eq]
  simp only [decide_eq_true_eq, Nat.cast_add]
  generalize (t : Int) - r.begun = taken
  generalize (t : Int) - (r.begun + r.length) = due
  split <;> split <;> split <;> omega

/-- The field count after a re-phasing: the field nearest to the pulse is the one taken, or the expiry now due (R8). -/
theorem rephase_ref (p : Part) : ∃ c pattern length, (rephase p).ref = { p.ref with
    count := c, pattern := pattern, begun := p.time.now, length := length, raised := false, misses := 0, history := []
    accepted := some p.time.now, run := 0, lastPulse := none, barren := 0, delta := none } ∧
    c = if p.ref.takenNearest p.time.now then p.ref.count else p.ref.count + 1 := by
  unfold rephase beginField
  dsimp only
  split
  · exact ⟨_, _, _, rfl, rfl⟩
  · rw [fieldEvent_ref]
    exact ⟨_, _, _, rfl, rfl⟩

theorem rephase_frame (p : Part) : ChangesOnly Block.fielding p (rephase p) := by
  have field : ChangesOnly Block.fielding p (if p.ref.takenNearest p.time.now then p else fieldEvent p) :=
    .ite (.refl _ _) (fieldEvent_frame p)
  exact (field.trans (beginField_fielding _ _ _)).trans (setRef_fielding _ _)

theorem rephase_awaits {k : Nat} {p : Part} (a : Awaits k [] p) : Awaits (k + 1) [] (rephase p) :=
  (Awaits.ite (a.mono (Nat.le_succ k)) (fieldEvent_awaits a)).of_evt rfl

/-- What an entry into LOCKED says of the field count (R8). -/
def RefUnit.CountedAt (r : RefUnit) (t : Nat) (count : Stamp) : Prop :=
  (((t : Int) - r.begun).natAbs < ((t : Int) - (r.begun + r.length)).natAbs → count = r.count) ∧
    (((t : Int) - (r.begun + r.length)).natAbs < ((t : Int) - r.begun).natAbs → count = r.count + 1) ∧
    (count = r.count ∨ count = r.count + 1)

theorem rephase_counted (p : Part) : p.ref.CountedAt p.time.now (rephase p).ref.count := by
  obtain ⟨c, pattern, length, ref, counted⟩ := rephase_ref p
  rw [ref]
  unfold RefUnit.CountedAt
  simp only [RefUnit.takenNearest, RefUnit.due, Nat.cast_add, decide_eq_true_eq] at counted
  split at counted
  · exact ⟨fun _ => counted, fun due => by omega, .inl counted⟩
  · exact ⟨fun taken => by omega, fun _ => counted, .inr counted⟩

/-- A pulse that re-phases enters LOCKED at once from a state `x`, told after what has been told before. -/
theorem lock_awaits {k : Nat} {es : List Event} {p : Part} (a : Awaits k es p) (free : k < Config.maxEvents) :
    Awaits (k + 2) (es ++ [⟨.reference, p.ref.count, .refState .locked p.ref.state⟩])
      (clearAlarm .reference .refLoss 0 0 (enterRef .locked p)) := (enterRef_awaits a _ free).clear _ _ _ _

theorem lock_frame (p : Part) :
    ChangesOnly (.alarms :: Block.fielding) p (clearAlarm .reference .refLoss 0 0 (enterRef .locked p)) :=
  ((enterRef_fielding _ p).mono fielding_alarms).trans ((clearAlarm_frame _ _ _ _ _).mono alarming_fielding)

theorem lock_ref (p : Part) :
    (clearAlarm .reference .refLoss 0 0 (enterRef .locked p)).ref = { p.ref with state := .locked } := by
  rw [clearRefLoss_ref, enterRef_ref]

/-! ### Pulses in SEARCH and FLYWHEEL -/

/-- The part with the pulse's qualifying run (R6). -/
def Part.qualified (p : Part) : Part := { p with ref := p.ref.qualify p.time.now }

theorem qualified_frame (p : Part) : ChangesOnly Block.fielding p p.qualified := setRef_fielding _ p

theorem takeStationPulse_search {p : Part} (search : p.ref.state = .search) : takeStationPulse p =
    if p.qualified.ref.run = 4 then enterRef .locked (rephase p.qualified) else p.qualified := by
  simp only [takeStationPulse, search] <;> rfl

theorem takeStationPulse_flywheel {p : Part} (flywheel : p.ref.state = .flywheel) : takeStationPulse p =
    if p.qualified.ref.run = 4 then
      if (p.ref.phaseDiff p.time.now).natAbs ≤ 200 then
        clearAlarm .reference .refLoss 0 0 (enterRef .locked (enterRef .slewing (rephase p.qualified)))
      else enterRef .slewing
        { p.qualified with ref := { p.qualified.ref with delta := some (p.ref.phaseDiff p.time.now) } }
    else p.qualified := by
  simp only [takeStationPulse, flywheel] <;> rfl

/-- A pulse that makes no run of four (R6). -/
theorem takeStationPulse_short {p : Part} (building : p.ref.state = .search ∨ p.ref.state = .flywheel)
    (short : p.qualified.ref.run ≠ 4) : takeStationPulse p = p.qualified := by
  rcases building with search | flywheel
  · rw [takeStationPulse_search search, if_neg short]
  · rw [takeStationPulse_flywheel flywheel, if_neg short]

/-- The fourth regular pulse of SEARCH (R8). -/
theorem searchLocks {p : Part} (search : p.ref.state = .search) : let q := enterRef .locked (rephase p.qualified)
    (q.ref.state = .locked ∧ q.ref.begun = p.time.now ∧ q.ref.misses = 0 ∧ q.ref.history = [] ∧
      q.ref.accepted = some p.time.now ∧ p.ref.CountedAt p.time.now q.ref.count) ∧
    (p.listens → q.tells .reference [.refState .locked .search]) ∧ ChangesOnly Block.fielding p q := by
  obtain ⟨c, pattern, length, ref, -⟩ := rephase_ref p.qualified
  have counted : p.ref.CountedAt p.time.now (rephase p.qualified).ref.count := rephase_counted p.qualified
  have state : (rephase p.qualified).ref.state = .search := ref ▸ search
  refine ⟨?_, fun listens => ?_, ((qualified_frame p).trans (rephase_frame _)).trans (enterRef_fielding _ _)⟩
  · rw [enterRef_ref]
    exact ⟨rfl, by rw [ref]; rfl, by rw [ref], by rw [ref], by rw [ref]; rfl, counted⟩
  · have told := enterRef_tells (rephase_awaits (p := p.qualified) (listens.awaits.of_evt rfl)) .locked (by decide)
      (f := id) (fun _ => rfl) (fun _ _ a => a)
    rwa [state] at told

/-- The fourth regular pulse of FLYWHEEL with the phases apart (R11). -/
theorem flywheelSlews {p : Part} (flywheel : p.ref.state = .flywheel) (d : Int) :
    let q := enterRef .slewing { p.qualified with ref := { p.qualified.ref with delta := some d } }
    (q.ref.state = .slewing ∧ q.ref.count = p.ref.count ∧ q.ref.begun = p.ref.begun ∧ q.ref.length = p.ref.length ∧
      q.ref.delta = some d) ∧
    (p.listens → q.tells .reference [.refState .slewing .flywheel]) ∧ ChangesOnly (.alarms :: Block.fielding) p q := by
  refine ⟨?_, fun listens => ?_, ChangesOnly.mono ?_ fielding_alarms⟩
  · rw [enterRef_ref]
    exact ⟨rfl, rfl, rfl, rfl, rfl⟩
  · have told := enterRef_tells (k := 0) (p := { p.qualified with ref := { p.qualified.ref with delta := some d } })
      (listens.awaits.of_evt rfl) .slewing (by decide) (f := id) (fun _ => rfl) (fun _ _ a => a)
    exact flywheel ▸ told
  · exact ((qualified_frame p).trans (setRef_fielding _ _)).trans (enterRef_fielding _ _)

/-- The fourth regular pulse of FLYWHEEL with the phases together (R11). -/
theorem flywheelLocks {p : Part} (flywheel : p.ref.state = .flywheel) :
    let q := clearAlarm .reference .refLoss 0 0 (enterRef .locked (enterRef .slewing (rephase p.qualified)))
    (q.ref.state = .locked ∧ q.ref.begun = p.time.now ∧ p.ref.CountedAt p.time.now q.ref.count) ∧
    q.alarms.rests .reference .refLoss ∧
    (p.listens → q.tells .reference [.refState .slewing .flywheel, .refState .locked .slewing]) ∧
    ChangesOnly (.alarms :: Block.fielding) p q := by
  obtain ⟨c, pattern, length, ref, -⟩ := rephase_ref p.qualified
  have counted : p.ref.CountedAt p.time.now (rephase p.qualified).ref.count := rephase_counted p.qualified
  have state : (rephase p.qualified).ref.state = .flywheel := ref ▸ flywheel
  refine ⟨?_, clearAlarm_rests _ _ _ _ _, fun listens => ?_, ?_⟩
  · rw [lock_ref, enterRef_ref]
    exact ⟨rfl, by rw [ref]; rfl, counted⟩
  · have slewing := enterRef_awaits (rephase_awaits (p := p.qualified) (listens.awaits.of_evt rfl)) .slewing (by decide)
    refine (lock_awaits slewing (by decide)).holds.tells ?_
    rw [lock_ref, enterRef_ref, state]
    rfl
  · exact (((qualified_frame p).trans (rephase_frame _)).trans (enterRef_fielding _ _)).mono fielding_alarms |>.trans
      (lock_frame _)

/-- Settles O9: what the pulse makes of the run is `RefUnit.qualify`; each state the fourth pulse enters has a lemma of its own. -/
theorem stationPulsesBuildTheRun : Obligations.StationPulsesBuildTheRun := by
  intro s dt running building r t period regular run fromTaken fromDue counted
  obtain ⟨p, is⟩ : ∃ p, p = elapse dt s.part := ⟨_, rfl⟩
  have ref : p.ref = r := by rw [is, elapse_ref]
  have now : p.time.now = t := by rw [is, elapse_now]
  have listens : s.part.listens → p.listens := fun l => is ▸ elapse_listens l
  have isRegular : r.regular t = regular := r.regular_eq t
  have isRun : p.qualified.ref.run = run := by
    change (if p.ref.regular p.time.now then _ else _) = _
    rw [ref, now, isRegular]
  have completes : ∀ P : Part → Prop, P (takeStationPulse p) → Completes (.stationPulse dt) s P := fun P a =>
    .of_event rfl running (is ▸ a)
  refine ⟨fun short => completes _ ?short, fun four search => completes _ ?search, fun four flywheel => completes _ ?flywheel⟩
  case short =>
    rw [takeStationPulse_short (ref ▸ building) (by omega)]
    refine ⟨now, ?_, ?_⟩
    · change p.ref.qualify p.time.now = _
      rw [ref, now, RefUnit.qualify, isRegular]
    · exact ((setRef_frame _ p).mono (by simp)).since is (by decide)
  case search =>
    obtain ⟨⟨state, begun, misses, history, accepted, count⟩, told, frame⟩ := searchLocks (p := p) (ref ▸ search)
    rw [takeStationPulse_search (ref ▸ search), if_pos (isRun.trans four)]
    rw [now] at begun accepted count
    rw [ref] at count
    exact ⟨state, begun, misses, history, accepted, count, fun l => told (listens l), frame.since is (by decide)⟩
  case flywheel =>
    rw [takeStationPulse_flywheel (ref ▸ flywheel), if_pos (isRun.trans four), now, ref]
    refine ⟨RefUnit.phaseDiff_is r t, ?_⟩
    split
    · rename_i near
      obtain ⟨⟨state, begun, count⟩, rests, told, frame⟩ := flywheelLocks (p := p) (ref ▸ flywheel)
      rw [now] at begun count
      rw [ref] at count
      exact ⟨.inr ⟨state, begun, near, count, rests, fun l => told (listens l)⟩, frame.since is (by decide)⟩
    · rename_i far
      obtain ⟨⟨state, count, begun, length, delta⟩, told, frame⟩ :=
        flywheelSlews (p := p) (ref ▸ flywheel) (r.phaseDiff t)
      rw [ref] at begun count length
      exact ⟨.inl ⟨state, count, begun, length, delta, by omega, fun l => told (listens l)⟩, frame.since is (by decide)⟩

/-! ### A loss of the reference -/

/-- The reference is lost: FLYWHEEL, told from the state it was in, with REF_LOSS (R13). -/
theorem loseRef {k : Nat} {p q : Part} (e : q = raiseRefLoss (enterRef .flywheel p)) (free : k < Config.maxEvents) :
    q.ref = { p.ref with state := .flywheel } ∧ q.alarms.shows .reference .refLoss = true ∧
      (Awaits k [] p → q.tells .reference [.refState .flywheel p.ref.state]) ∧
      ChangesOnly (.ref :: Block.alarming) p q ∧ ∀ h, q.head h = p.head h := by
  subst e
  have ref : (raiseRefLoss (enterRef .flywheel p)).ref = { p.ref with state := .flywheel } := by
    rw [raiseRefLoss_ref, enterRef_ref]
  refine ⟨ref, raiseAlarm_alarms _ _ _ _ _, fun a => ?_, ?_, fun h => ?_⟩
  · exact enterRef_tells a .flywheel free raiseRefLoss_ref fun es q b => (holds_drive es).raise _ _ _ _ q b
  · exact ((enterRef_frame _ p).mono (by simp [Block.alarming, Block.posting])).trans
      ((raiseAlarm_frame _ _ _ _ _).mono (List.subset_cons_self _ _))
  · rw [raiseRefLoss_head, enterRef_head]

/-! ### SLEWING -/

theorem takeStationPulse_slewing {p : Part} (slewing : p.ref.state = .slewing) : takeStationPulse p =
    if p.ref.regular p.time.now then
      if (p.ref.phaseDiff p.time.now).natAbs ≤ 200 then
        clearAlarm .reference .refLoss 0 0 (enterRef .locked (rephase p.qualified))
      else { p.qualified with ref := { p.qualified.ref with delta := some (p.ref.phaseDiff p.time.now) } }
    else raiseRefLoss (enterRef .flywheel { p.qualified with ref := { p.qualified.ref with delta := none } }) := by
  simp only [takeStationPulse, slewing] <;> rfl

/-- A pulse of SLEWING with the phases together (R12). -/
theorem slewingLocks {p : Part} (slewing : p.ref.state = .slewing) :
    let q := clearAlarm .reference .refLoss 0 0 (enterRef .locked (rephase p.qualified))
    (q.ref.state = .locked ∧ q.ref.begun = p.time.now ∧ q.ref.history = [] ∧ q.ref.accepted = some p.time.now ∧
      q.ref.misses = 0) ∧
    q.alarms.rests .reference .refLoss ∧ (p.listens → q.tells .reference [.refState .locked .slewing]) ∧
    ChangesOnly (.alarms :: Block.fielding) p q := by
  obtain ⟨c, pattern, length, ref, -⟩ := rephase_ref p.qualified
  have state : (rephase p.qualified).ref.state = .slewing := ref ▸ slewing
  refine ⟨?_, clearAlarm_rests _ _ _ _ _, fun listens => ?_, ?_⟩
  · rw [lock_ref, ref]
    exact ⟨rfl, rfl, rfl, rfl, rfl⟩
  · have told := enterRef_tells (rephase_awaits (p := p.qualified) (listens.awaits.of_evt rfl)) .locked (by decide)
      clearRefLoss_ref fun es q b => (holds_drive es).clear _ _ _ _ q b
    rwa [state] at told
  · exact (((qualified_frame p).trans (rephase_frame _)).mono fielding_alarms).trans (lock_frame _)

/-- Settles O10: the three branches of a pulse in SLEWING, and its missing (R12). -/
theorem slewingFollowsThePulses : Obligations.SlewingFollowsThePulses := by
  intro s dt running slewing r t period regular
  obtain ⟨p, is⟩ : ∃ p, p = elapse dt s.part := ⟨_, rfl⟩
  have ref : p.ref = r := by rw [is, elapse_ref]
  have now : p.time.now = t := by rw [is, elapse_now]
  have listens : s.part.listens → p.listens := fun l => is ▸ elapse_listens l
  have isRegular : r.regular t = regular := r.regular_eq t
  have pulse := takeStationPulse_slewing (p := p) (ref ▸ slewing)
  rw [ref, now, isRegular] at pulse
  have completes : ∀ P : Part → Prop, P (takeStationPulse p) → Completes (.stationPulse dt) s P := fun P a =>
    .of_event rfl running (is ▸ a)
  refine ⟨r.phaseDiff_is t, fun follows far => completes _ ?far, fun follows near => completes _ ?near,
    fun irregular => completes _ ?irregular, fun l last late => ?gap⟩
  case far =>
    rw [pulse, if_pos follows, if_neg (by omega)]
    have frame := (setRef_frame (p.ref.qualify p.time.now) p).trans
      (setRef_frame { p.qualified.ref with delta := some (r.phaseDiff t) } _)
    have kept : p.qualified.ref = r.qualify t := by
      change p.ref.qualify p.time.now = _
      rw [ref, now]
    refine ⟨?_, rfl, ?_, ?_, ?_, (frame.mono (by simp)).since is (by simp)⟩ <;> simp only [kept, RefUnit.qualify]
    exact slewing
  case near =>
    rw [pulse, if_pos follows, if_pos near]
    obtain ⟨⟨state, begun, history, accepted, misses⟩, rests, told, frame⟩ := slewingLocks (p := p) (ref ▸ slewing)
    rw [now] at begun accepted
    exact ⟨state, begun, history, accepted, misses, rests, fun l => told (listens l), frame.since is (by decide)⟩
  case irregular =>
    rw [pulse, if_neg (by simp [irregular])]
    obtain ⟨lost, shows, told, frame, -⟩ := loseRef (k := 0) rfl (by decide)
      (p := { p.qualified with ref := { p.qualified.ref with delta := none } })
    have run : (r.qualify t).run = 1 := by
      rw [RefUnit.qualify, isRegular, irregular]
      rfl
    have before := (setRef_frame (p.ref.qualify p.time.now) p).trans (setRef_frame { p.qualified.ref with delta := none } _)
    refine ⟨by rw [lost], ?_, ?_, ?_, shows, fun l => ?_, ?_⟩
    · rw [lost]
      change (p.ref.qualify p.time.now).run = 1
      rwa [ref, now]
    · rw [lost, ← ref] <;> rfl
    · rw [lost, ← ref] <;> rfl
    · have item := told ((listens l).awaits.of_evt rfl)
      have was : (p.ref.qualify p.time.now).state = .slewing := ref ▸ slewing
      exact was ▸ item
    · exact ((before.mono (by simp)).trans (frame.mono (by simp [Block.alarming]))).since is (by simp)
  case gap =>
    have due : p.ref.pulseGap p.time.now = true := by
      have nominal : r.standard.nominal = period := Standard.nominal_eq _
      have state : r.state = .slewing := slewing
      rw [ref, now]
      simp [RefUnit.pulseGap, state, last, nominal, Config.window, late]
    refine .of_timed (due := fun p => p.ref.pulseGap p.time.now) (f := takePulseGap) rfl running (is ▸ due) (is ▸ ?_)
    obtain ⟨lost, shows, told, frame, -⟩ := loseRef (k := 0) rfl (by decide)
      (p := { p with ref := { p.ref with run := 0, lastPulse := none, delta := none } })
    have before := setRef_frame { p.ref with run := 0, lastPulse := none, delta := none } p
    refine ⟨?_, shows, fun l => ?_, ((before.mono (by simp)).trans (frame.mono (by simp [Block.alarming]))).since is (by simp)⟩
    · rw [takePulseGap, lost, ref]
    · have item := told ((listens l).awaits.of_evt rfl)
      have was : p.ref.state = .slewing := ref ▸ slewing
      exact was ▸ item

/-! ### Fields without a pulse -/

/-- The field that ends at its expiry, and the one that begins there with length `n` (R5). -/
def Part.expired (n : Nat) (p : Part) : Part := beginField p.ref.due n (fieldEvent p)

theorem expired_ref (n : Nat) (p : Part) : (p.expired n).ref = { p.ref with
    count := p.ref.count + 1, pattern := (p.ref.pattern + 1) % 3, begun := p.ref.begun + p.ref.length, length := n
    raised := false } := by
  unfold Part.expired beginField
  dsimp only
  rw [fieldEvent_ref]
  rfl

theorem expired_after (n : Nat) (p : Part) : ChangesOnly [.ref] (fieldEvent p) (p.expired n) := setRef_frame _ (fieldEvent p)

theorem expired_head (n : Nat) (p : Part) (h : HeadId) :
    (p.expired n).head h = { p.head h with cadence := (p.head h).cadence.field } :=
  (expired_after n p (.head h) (by simp)).symm.trans (fieldEvent_head h p)

theorem expired_frame (n : Nat) (p : Part) : ChangesOnly Block.fielding p (p.expired n) :=
  (fieldEvent_frame p).trans (beginField_fielding _ _ _)

theorem expired_awaits {k : Nat} {p : Part} (a : Awaits k [] p) (n : Nat) : Awaits (k + 1) [] (p.expired n) :=
  (fieldEvent_awaits a).of_evt rfl

theorem fieldEvent_nextLength (p : Part) :
    (fieldEvent p).ref.nextLength = p.ref.standard.patternLength ((p.ref.pattern + 1) % 3) := by
  rw [fieldEvent_ref]
  rfl

/-- The length of the field after an expiry (R5, R12). -/
def RefUnit.lengthened (r : RefUnit) : Nat := ((r.standard.patternLength ((r.pattern + 1) % 3) : Int) + r.adjust).toNat

theorem patternLength_bound (x : Standard) (n : Nat) : 16683 ≤ x.patternLength n := by
  unfold Standard.patternLength
  split <;> omega

theorem lengthened_slewing {r : RefUnit} {d : Int} (slewing : r.state = .slewing) (delta : r.delta = some d) :
    (r.lengthened : Int) = r.standard.patternLength ((r.pattern + 1) % 3) + max (-200) (min 200 d) := by
  have bound := patternLength_bound r.standard ((r.pattern + 1) % 3)
  simp only [RefUnit.lengthened, RefUnit.adjust, slewing, delta, clampInt, Config.slew]
  omega

theorem lengthened_plain {r : RefUnit} (plain : r.state ≠ .slewing ∨ r.delta = none) :
    r.lengthened = r.standard.patternLength ((r.pattern + 1) % 3) := by
  have none : r.adjust = 0 := by
    unfold RefUnit.adjust
    split
    · rename_i slewing delta
      rcases plain with other | absent
      · exact absurd slewing other
      · simp [delta] at absent
    · rfl
  simp [RefUnit.lengthened, none]

/-- An expiry outside SEARCH begins the next field and does nothing else (R5). -/
theorem takeFlywheelExpiry_other {p : Part} (other : p.ref.state ≠ .search) :
    takeFlywheelExpiry p = p.expired p.ref.lengthened := by
  have plain : takeFlywheelExpiry p =
      beginField p.ref.due (((fieldEvent p).ref.nextLength : Int) + p.ref.adjust).toNat (fieldEvent p) := by
    unfold takeFlywheelExpiry
    dsimp only
    split
    · exact absurd ‹_› other
    · rfl
    · rfl
    · rfl
  rw [plain, fieldEvent_nextLength]
  rfl

/-- The barren fields of SEARCH after one more field (R7). -/
def RefUnit.barrenNow (r : RefUnit) : Nat := if r.raised then 0 else r.barren + 1

/-- The part after an expiry in SEARCH, before the barren fields are judged (R7). -/
def Part.searched (p : Part) : Part :=
  let q := p.expired p.ref.lengthened
  { q with ref := { q.ref with barren := p.ref.barrenNow } }

theorem searched_head (p : Part) (h : HeadId) :
    p.searched.head h = { p.head h with cadence := (p.head h).cadence.field } :=
  (setRef_frame _ (p.expired p.ref.lengthened) (.head h) (by simp)).symm.trans (expired_head _ p h)

theorem searched_awaits {k : Nat} {p : Part} (a : Awaits k [] p) : Awaits (k + 1) [] p.searched :=
  (expired_awaits a p.ref.lengthened).ref _

theorem takeFlywheelExpiry_search {p : Part} (search : p.ref.state = .search) : takeFlywheelExpiry p =
    if 3 ≤ p.ref.barrenNow then raiseRefLoss (enterRef .flywheel p.searched) else p.searched := by
  have judged : takeFlywheelExpiry p =
      let q := beginField p.ref.due (((fieldEvent p).ref.nextLength : Int) + p.ref.adjust).toNat (fieldEvent p)
      if 3 ≤ p.ref.barrenNow then raiseRefLoss (enterRef .flywheel { q with ref := { q.ref with barren := p.ref.barrenNow } })
      else { q with ref := { q.ref with barren := p.ref.barrenNow } } := by
    simp only [takeFlywheelExpiry, search] <;> rfl
  rw [judged, fieldEvent_nextLength]
  rfl

theorem searched_ref (p : Part) : p.searched.ref = { p.ref with
    count := p.ref.count + 1, pattern := (p.ref.pattern + 1) % 3, begun := p.ref.begun + p.ref.length
    length := p.ref.lengthened, raised := false, barren := p.ref.barrenNow } := by
  unfold Part.searched
  dsimp only
  rw [expired_ref]

/-- The part after a window of LOCKED that ended without a pulse, before the misses are judged (R10). -/
def Part.missed (p : Part) : Part :=
  let q := p.expired (p.ref.standard.patternLength ((p.ref.pattern + 1) % 3))
  { q with ref := { q.ref with misses := p.ref.misses + 1, history := [], accepted := none } }

theorem missed_head (p : Part) (h : HeadId) :
    p.missed.head h = { p.head h with cadence := (p.head h).cadence.field } :=
  (setRef_frame _ (p.expired (p.ref.standard.patternLength ((p.ref.pattern + 1) % 3))) (.head h) (by simp)).symm.trans
    (expired_head _ p h)

theorem missed_awaits {k : Nat} {p : Part} (a : Awaits k [] p) : Awaits (k + 1) [] p.missed :=
  (expired_awaits a (p.ref.standard.patternLength ((p.ref.pattern + 1) % 3))).ref _

theorem takeWindowEnd_eq (p : Part) : takeWindowEnd p =
    if 3 ≤ p.ref.misses + 1 then
      raiseRefLoss (enterRef .flywheel { p.missed with ref := { p.missed.ref with run := 0, lastPulse := none } })
    else p.missed := by
  unfold takeWindowEnd
  simp only [fieldEvent_nextLength] <;> rfl

theorem missed_ref (p : Part) : p.missed.ref = { p.ref with
    count := p.ref.count + 1, pattern := (p.ref.pattern + 1) % 3, begun := p.ref.begun + p.ref.length
    length := p.ref.standard.patternLength ((p.ref.pattern + 1) % 3), raised := false
    misses := p.ref.misses + 1, history := [], accepted := none } := by
  unfold Part.missed
  dsimp only
  rw [expired_ref]

theorem refAlarming_fielding : (.ref :: Block.alarming) ⊆ .alarms :: Block.fielding := by
  simp [Block.alarming, Block.fielding, Block.posting]

/-- Settles O11: an expiry by the state it finds, and the end of an acceptance window (R5, R7, R10). -/
theorem fieldsWithoutAPulse : Obligations.FieldsWithoutAPulse := by
  intro s dt running r t
  obtain ⟨p, is⟩ : ∃ p, p = elapse dt s.part := ⟨_, rfl⟩
  have ref : p.ref = r := by rw [is, elapse_ref]
  have now : p.time.now = t := by rw [is, elapse_now]
  have head : ∀ h, p.head h = s.part.head h := fun h => by rw [is, elapse_head]
  have listens : s.part.listens → p.listens := fun l => is ▸ elapse_listens l
  refine ⟨fun other late => ?expiry, fun locked late => ?window⟩
  case expiry =>
    have due : p.ref.expired p.time.now = true := by
      rw [ref, now]
      simpa [RefUnit.expired, RefUnit.due, late] using other
    refine .of_timed (due := fun p => p.ref.expired p.time.now) (f := takeFlywheelExpiry) rfl running (is ▸ due) (is ▸ ?_)
    by_cases search : p.ref.state = .search
    · have field := searched_ref p
      have before : ChangesOnly Block.fielding p p.searched := (expired_frame _ p).trans (setRef_fielding _ _)
      have heads : ∀ h, p.searched.head h = { p.head h with cadence := (p.head h).cadence.field } := searched_head p
      rw [takeFlywheelExpiry_search search]
      have plain : p.ref.state ≠ .slewing ∨ p.ref.delta = none := .inl (by simp [search])
      have length := lengthened_plain plain
      have slews : ∀ P : Prop, r.state = .slewing → P := fun P slewing => by
        rw [← ref, search] at slewing
        cases slewing
      split
      · rename_i many
        obtain ⟨lost, shows, told, frame, same⟩ := loseRef (k := 1) (p := p.searched) rfl (by decide)
        rw [field, ref] at lost
        rw [ref] at length
        rw [lost]
        refine ⟨rfl, rfl, rfl, fun h => by rw [same, heads, head], fun d slewing _ => slews _ slewing, fun _ => length,
          fun _ => ⟨by rw [RefUnit.barrenNow], fun few => ?_, fun _ => ⟨rfl, shows, fun l => ?_⟩⟩,
          fun x => absurd (ref ▸ search) x, rfl, ?_⟩
        · rw [ref] at many
          exact absurd (few.trans_le many) (Nat.lt_irrefl _)
        · have item := told (searched_awaits (listens l).awaits)
          have was : p.searched.ref.state = .search := by rw [field]; exact search
          rwa [was] at item
        · exact ((before.mono fielding_alarms).trans (frame.mono refAlarming_fielding)).since is (by decide)
      · rename_i few
        rw [field]
        rw [ref] at length few search ⊢
        refine ⟨rfl, rfl, rfl, fun h => by rw [heads, head], fun d slewing _ => slews _ slewing, fun _ => length,
          fun _ => ⟨rfl, fun _ => search, fun many => absurd many few⟩, fun _ => rfl, rfl,
          (before.mono fielding_alarms).since is (by decide)⟩
    · rw [takeFlywheelExpiry_other search, expired_ref, ref]
      refine ⟨rfl, rfl, rfl, fun h => by rw [expired_head, head], fun d slewing delta => lengthened_slewing slewing delta,
        fun plain => lengthened_plain plain, fun x => absurd (ref ▸ x) search, fun _ => rfl, rfl,
        ((expired_frame _ p).mono fielding_alarms).since is (by decide)⟩
  case window =>
    have due : p.ref.windowEnded p.time.now = true := by
      have state : r.state = .locked := locked
      rw [ref, now]
      simp [RefUnit.windowEnded, RefUnit.due, state, Config.window, late]
    refine .of_timed (due := fun p => p.ref.windowEnded p.time.now) (f := takeWindowEnd) rfl running (is ▸ due) (is ▸ ?_)
    have field := missed_ref p
    have before : ChangesOnly Block.fielding p p.missed := (expired_frame _ p).trans (setRef_fielding _ _)
    have heads : ∀ h, p.missed.head h = { p.head h with cadence := (p.head h).cadence.field } := missed_head p
    rw [takeWindowEnd_eq, ref]
    split
    · rename_i many
      obtain ⟨q, lostTo⟩ : ∃ q, q = raiseRefLoss (enterRef .flywheel
        { p.missed with ref := { p.missed.ref with run := 0, lastPulse := none } }) := ⟨_, rfl⟩
      obtain ⟨lost, shows, told, frame, same⟩ := loseRef (k := 1) lostTo (by decide)
      simp only [field, ref] at lost
      rw [← lostTo, lost]
      refine ⟨rfl, rfl, rfl, rfl, rfl, fun h => ?_, fun few => absurd (few.trans_le many) (Nat.lt_irrefl _),
        fun _ => ⟨rfl, rfl, shows, fun l => ?_⟩, ?_⟩
      · exact (same h).trans ((heads h).trans (by rw [head]))
      · have item := told ((missed_awaits (listens l).awaits).ref _)
        have was : p.missed.ref.state = .locked := by rw [field, ref]; exact locked
        exact was ▸ item
      · exact (((before.trans (setRef_fielding _ _)).mono fielding_alarms).trans (frame.mono refAlarming_fielding)).since is
          (by decide)
    · rename_i few
      rw [field, ref]
      exact ⟨rfl, rfl, rfl, rfl, rfl, fun h => (heads h).trans (by rw [head]), fun _ => locked, fun many => absurd many few,
        (before.mono fielding_alarms).since is (by decide)⟩

end Sys2Proof.Machine
end

section
/-! PROOFS. The Cadence Monitor's judgement and timers (R40 to R51), and the commands and requests of the Alarm Table (R142 to R148). -/

namespace Sys2Proof.Machine

/-! ### Frames judged -/

theorem speedAt_eq {c : Cadence} {l t v : Nat} (last : c.lastTime = some l) (later : l < t)
    (low : 2 * v * (t - l) ≤ 200000000 + (t - l)) (high : 200000000 + (t - l) < 2 * (v + 1) * (t - l)) :
    speedAt c t = min 9999 v := by
  have rounded : (200000000 + (t - l)) / (2 * (t - l)) = v := by
    apply Nat.div_eq_of_lt_le
    · calc v * (2 * (t - l)) = 2 * v * (t - l) := by ring
        _ ≤ _ := low
    · calc _ < 2 * (v + 1) * (t - l) := high
        _ = (v + 1) * (2 * (t - l)) := by ring
  simp only [speedAt, last, if_neg (Nat.not_le.2 later)]
  rw [rounded]

/-- What a judged boundary leaves (R43 to R46). -/
theorem boundaryAt_judged {c : Cadence} {b : Stamp} (before : c.boundary = some b) (x : Standard) (count : Stamp) (t : Nat) :
    c.boundaryAt x count t =
      ({ c with speed := speedAt c t, lastTime := some t, boundary := some count, fields := 0, lastLength := some c.fields
                phase := nextPhase x c c.fields (judgeFrame x c c.fields), run := nextRun c.run (judgeFrame x c c.fields)
                provisional := nextProvisional (judgeFrame x c c.fields) }, some (judgeFrame x c c.fields)) := by
  simp only [Cadence.boundaryAt, before]

theorem boundaryAt_first {c : Cadence} (before : c.boundary = none) (x : Standard) (count : Stamp) (t : Nat) :
    c.boundaryAt x count t =
      ({ c with speed := speedAt c t, lastTime := some t, boundary := some count, fields := 0 }, none) := by
  simp only [Cadence.boundaryAt, before]

theorem boundaryAt_stamps (c : Cadence) (x : Standard) (count : Stamp) (t : Nat) :
    (c.boundaryAt x count t).1.boundary = some count ∧ (c.boundaryAt x count t).1.fields = 0 ∧
      (c.boundaryAt x count t).1.lastTime = some t ∧ (c.boundaryAt x count t).1.speed = speedAt c t := by
  unfold Cadence.boundaryAt
  split <;> exact ⟨rfl, rfl, rfl, rfl⟩

theorem expectedOf_eq (x : Standard) (c : Cadence) :
    c.expectedOf x = match x with
      | .f50 => some 2
      | .f60 => c.phase := rfl

section
variable {c : Cadence} {x : Standard} {n e : Nat}

theorem deviation_plus (one : n = e + 1) : deviation n e = some .plus := if_pos one

theorem deviation_minus (one : n + 1 = e) : deviation n e = some .minus := by
  rw [deviation, if_neg (by omega), if_pos one]

theorem eq_of_deviation_plus (d : deviation n e = some .plus) : n = e + 1 := by
  by_contra other
  simp only [deviation, if_neg other] at d
  split at d <;> cases d

theorem eq_of_deviation_minus (d : deviation n e = some .minus) : n + 1 = e := by
  by_contra other
  simp only [deviation, if_neg other] at d
  split at d <;> cases d

theorem deviation_none (more : n + 1 < e ∨ e + 1 < n) : deviation n e = none := by
  rw [deviation, if_neg (by omega), if_neg (by omega)]

/-- With nothing expected a length of 2 or 3 conforms (R42). -/
theorem judgeFrame_unexpected (settled : c.provisional = none) (free : c.expectedOf x = none) :
    judgeFrame x c n = if n = 2 ∨ n = 3 then .conforming else .nonconforming false := by
  simp only [judgeFrame, settled, free]

theorem judgeFrame_exact (settled : c.provisional = none) (expected : c.expectedOf x = some e) (same : n = e) :
    judgeFrame x c n = .conforming := by
  simp only [judgeFrame, settled, expected, if_pos same]

/-- A length one field off is provisional, if it is plausible (R43). -/
theorem judgeFrame_deviant {d : Deviation} (settled : c.provisional = none) (expected : c.expectedOf x = some e)
    (off : deviation n e = some d) :
    judgeFrame x c n = if x.plausible n then .provisional d else .nonconforming false := by
  have other : n ≠ e := by
    rintro rfl
    simp [deviation] at off
  simp only [judgeFrame, settled, expected, if_neg other, off]

theorem judgeFrame_far (settled : c.provisional = none) (expected : c.expectedOf x = some e)
    (off : n + 1 < e ∨ e + 1 < n) : judgeFrame x c n = .nonconforming false := by
  simp only [judgeFrame, settled, expected, deviation_none off, if_neg (show n ≠ e by omega)]

/-- A provisional frame is settled by the opposite deviation (R44). -/
theorem judgeFrame_second {d : Deviation} (unsettled : c.provisional = some d) (expected : c.expectedOf x = some e) :
    judgeFrame x c n = if deviation n e = some d.opposite ∧ x.plausible n then .pair else .nonconforming true := by
  simp only [judgeFrame, unsettled, expected]

theorem plausible_of {k : Nat} (p : x = .f50 ∨ n = k) (k23 : k = 2 ∨ k = 3) : x.plausible n = true := by
  rcases p with rfl | rfl
  · rfl
  · rcases k23 with rfl | rfl <;> cases x <;> rfl

/-- On the 3:2 cadence a length other than 2 and 3 never conforms. -/
theorem judgeFrame_implausible (settled : c.provisional = none) (expected : c.expectedOf .f60 = some e) (e23 : e = 2 ∨ e = 3)
    (off : n < 2 ∨ 3 < n) : judgeFrame .f60 c n = .nonconforming false := by
  have implausible : Standard.f60.plausible n = false := by simp [Standard.plausible]; omega
  cases d : deviation n e with
  | none => simp only [judgeFrame, settled, expected, d, if_neg (show n ≠ e by omega)]
  | some d => rw [judgeFrame_deviant settled expected d, implausible, if_neg (by simp)]

end

/-- The phase after a frame that is not nonconforming on the 3:2 cadence (R42). -/
theorem nextPhase_f60 (c : Cadence) (n : Nat) {v : Verdict} (conforms : ∀ u, v ≠ .nonconforming u) :
    nextPhase .f60 c n v = some (5 - c.phase.getD n) := by
  cases v with
  | nonconforming u => exact absurd rfl (conforms u)
  | conforming => rfl
  | pair => rfl
  | provisional d => rfl

/-- Settles O25: the judgement by what is expected and what is provisional; the records by the verdict. -/
theorem framesAreJudged : Obligations.FramesAreJudged := by
  intro c standard count t r n e
  obtain ⟨boundary, fields, lastTime, speed⟩ := boundaryAt_stamps c standard count t
  refine ⟨⟨boundary, fields, lastTime⟩, fun none => ?unmeasured, ?measured,
    fun first => ?first, fun before plausible => ?judged⟩
  case unmeasured => exact speed.trans (by simp [speedAt, none])
  case measured =>
    intro l last later period v low high
    exact speed.trans (speedAt_eq last later low high)
  case first =>
    have is : r = _ := boundaryAt_first first standard count t
    rw [is]
    exact ⟨rfl, rfl, rfl, rfl⟩
  case judged =>
    obtain ⟨b, before⟩ := Option.isSome_iff_exists.1 before
    have is : r = _ := boundaryAt_judged before standard count t
    have expected : c.expectedOf standard = e := expectedOf_eq standard c
    rw [is]
    refine ⟨rfl, fun settled free length => ?_, fun settled free not2 not3 => ?_, fun x ex => ?_, ?_, ?_, ?_, ?_⟩
    · have verdict := judgeFrame_unexpected (n := n) settled (expected.trans free)
      rw [if_pos length] at verdict
      refine ⟨congrArg some verdict, ?_⟩
      have f60 : standard = .f60 := by
        cases standard with
        | f50 => exact nomatch (free : some 2 = none)
        | f60 => rfl
      subst f60
      have phase : c.phase = none := free
      change nextPhase .f60 c n (judgeFrame .f60 c n) = _
      rw [nextPhase_f60 c n (by rw [verdict]; nofun), phase]
      rfl
    · have verdict := judgeFrame_unexpected (n := n) settled (expected.trans free)
      rw [if_neg (by omega)] at verdict
      exact congrArg some verdict
    · have ex' := expected.trans ex
      have x23 := plausible x ex
      refine ⟨fun settled same => congrArg some (judgeFrame_exact settled ex' same), fun settled off p => ?_,
        fun settled off p => ?_, fun settled f60 off => ?_, fun settled off => congrArg some (judgeFrame_far settled ex' off),
        fun unsettled off p => ?_, fun unsettled off p => ?_, fun unsettled off => ?_, fun unsettled off => ?_,
        fun conforms f60 => ?_⟩
      · exact congrArg some ((judgeFrame_deviant settled ex' (deviation_plus off)).trans
          (if_pos (plausible_of p (.inr rfl))))
      · exact congrArg some ((judgeFrame_deviant settled ex' (deviation_minus off)).trans
          (if_pos (plausible_of p (.inl rfl))))
      · subst f60
        exact congrArg some (judgeFrame_implausible settled ex' x23 off)
      · exact congrArg some ((judgeFrame_second unsettled ex').trans
          (if_pos ⟨deviation_minus off, plausible_of p (.inl rfl)⟩))
      · exact congrArg some ((judgeFrame_second unsettled ex').trans
          (if_pos ⟨deviation_plus off, plausible_of p (.inr rfl)⟩))
      · refine congrArg some ((judgeFrame_second unsettled ex').trans (if_neg fun ⟨opposite, _⟩ => off ?_))
        exact eq_of_deviation_minus opposite
      · refine congrArg some ((judgeFrame_second unsettled ex').trans (if_neg fun ⟨opposite, _⟩ => off ?_))
        exact eq_of_deviation_plus opposite
      · subst f60
        have phase : c.phase = some x := ex
        change nextPhase .f60 c n (judgeFrame .f60 c n) = _
        rw [nextPhase_f60 c n (fun u same => conforms u (congrArg some same)), phase]
        rfl
    · rintro verdict
      have v : judgeFrame standard c n = .conforming := Option.some.inj verdict
      exact ⟨by change nextRun _ (judgeFrame standard c n) = _; rw [v]; rfl,
        by change nextProvisional (judgeFrame standard c n) = _; rw [v]; rfl⟩
    · rintro verdict
      have v : judgeFrame standard c n = .pair := Option.some.inj verdict
      exact ⟨by change nextRun _ (judgeFrame standard c n) = _; rw [v]; rfl,
        by change nextProvisional (judgeFrame standard c n) = _; rw [v]; rfl⟩
    · rintro d - verdict
      have v : judgeFrame standard c n = .provisional d := Option.some.inj verdict
      exact ⟨by change nextRun _ (judgeFrame standard c n) = _; rw [v]; rfl,
        by change nextProvisional (judgeFrame standard c n) = _; rw [v]; rfl⟩
    · rintro u - verdict
      have v : judgeFrame standard c n = .nonconforming u := Option.some.inj verdict
      exact ⟨by change nextRun _ (judgeFrame standard c n) = _; rw [v]; rfl,
        by change nextProvisional (judgeFrame standard c n) = _; rw [v]; rfl,
        by change nextPhase standard c n (judgeFrame standard c n) = _; rw [v]; rfl⟩

/-! ### Timers of the Cadence Monitor -/

/-- A condition on a field met in a part that runs. -/
theorem Completes.of_field {c : Instr} {s : State} {due : Part → Bool} {f : Part → Part} {P : Part → Prop}
    (e : exec c s = onPart (onField due f) s) (r : s.part.mode = .running) (d : due s.part = true)
    (a : P (f s.part)) : Completes c s P :=
  ⟨_, e.trans (onPart_eq _ s), by rwa [onField_due r d]⟩

theorem modHead_head (h : HeadId) (f : Head → Head) (p : Part) : (p.modHead h f).head h = f (p.head h) := by
  cases h <;> rfl

theorem raiseAlarm_head (s : AlarmSource) (k : AlarmKind) (a b : Word) (p : Part) (h : HeadId) :
    (raiseAlarm s k a b p).head h = p.head h := (raiseAlarm_frame s k a b p (.head h) (by cases h <;> decide)).symm

theorem clearAlarm_head (s : AlarmSource) (k : AlarmKind) (a b : Word) (p : Part) (h : HeadId) :
    (clearAlarm s k a b p).head h = p.head h := (clearAlarm_frame s k a b p (.head h) (by cases h <;> decide)).symm

/-- A stamp more than `n` fields old, in the modular order, is reached `n + 1` fields after it (R4). -/
theorem reached_plus {count b : Stamp} {n : Nat} (more : n < (count - b).toNat) (less : (count - b).toNat < 2 ^ 31) :
    reached count (Stamp.plus b (n + 1)) = true := by
  unfold reached Stamp.plus
  rw [sub_add_eq_sub_sub]
  generalize count - b = d at more less
  simp only [decide_eq_true_eq, BitVec.toNat_sub, BitVec.toNat_ofNat]
  omega

/-- Settles O24: the two timers, each by its condition and what it changes (R49, R51). -/
theorem cadenceTimers : Obligations.CadenceTimers := by
  intro s dt h running x c
  refine ⟨fun t last late => ?speed, fun b start more less runup measuring fresh => ?slow⟩
  case speed =>
    have due : speedExpired h (elapse dt s.part) = true := by
      have held : ((elapse dt s.part).head h).cadence.lastTime = some t := by rwa [elapse_head]
      simp only [speedExpired, held, Config.speedTimeout, elapse_now, late, decide_true]
    refine .of_timed (due := speedExpired h) (f := takeSpeedTimeout h) rfl running due
      ⟨elapse_now dt _, ?_, ((modHead_frame h _ _).mono (by simp)).elapsed (by simp)⟩
    rw [takeSpeedTimeout, Part.modCadence, modHead_head, elapse_head]
  case slow =>
    have due : slowStartDue h s.part = true := by
      have held : (s.part.head h).cadence.startStamp = some b := start
      have drive : (s.part.head h).drive = .runup := runup
      have measures : (s.part.head h).cadence.measuring = true := measuring
      have first : (s.part.head h).cadence.slowStart = false := fresh
      simp only [slowStartDue, held, drive, measures, first]
      exact reached_plus more less
    refine .of_field (due := slowStartDue h) (f := takeSlowStart h) rfl running due ⟨?_, raiseAlarm_alarms _ _ _ _ _, ?_⟩
    · rw [takeSlowStart, raiseAlarm_head, Part.modCadence, modHead_head]
    · exact ((modHead_frame h _ s.part).mono (by simp)).trans ((raiseAlarm_frame _ _ _ _ _).mono (List.subset_cons_self _ _))

/-! ### ACK_ALARMS -/

/-- What an acknowledgement makes of an entry (R141, R146). -/
def AlarmEntry.acknowledged (e : AlarmEntry) : Option AlarmEntry :=
  match e.state with
  | .activeNew => some { e with state := .activeAck }
  | .activeAck => some e
  | .clearedNew => none

/-- Two entries of one pair. -/
def AlarmEntry.matches (e d : AlarmEntry) : Bool := e.source = d.source && e.kind = d.kind

theorem AlarmEntry.matches_iff {e d : AlarmEntry} : e.matches d = true ↔ e.source = d.source ∧ e.kind = d.kind := by
  simp [AlarmEntry.matches]

theorem acknowledged_pair {e d : AlarmEntry} (a : e.acknowledged = some d) : d.source = e.source ∧ d.kind = e.kind := by
  unfold AlarmEntry.acknowledged at a
  split at a <;> cases a <;> exact ⟨rfl, rfl⟩

/-- One entry of the walk, in a table where it is the only one of its pair. -/
theorem acknowledgeEntry_walk {d : AlarmEntry} {p : Part} (only : ∀ e ∈ p.alarms.entries, e.matches d = true → e = d) :
    (acknowledgeEntry d p).alarms.entries =
      p.alarms.entries.filterMap fun e => if e.matches d then e.acknowledged else some e := by
  unfold acknowledgeEntry
  split
  · rename_i new
    rw [post_alarms]
    change p.alarms.entries.map _ = _
    rw [← List.filterMap_eq_map]
    refine List.filterMap_congr fun e mem => ?_
    by_cases pair : e.matches d = true
    · have same := only e mem pair
      rw [if_pos pair, Function.comp, if_pos (AlarmEntry.matches_iff.1 pair), same, AlarmEntry.acknowledged, new]
    · rw [if_neg pair, Function.comp, if_neg fun both => pair (AlarmEntry.matches_iff.2 both)]
  · rename_i cleared
    rw [post_alarms]
    change p.alarms.entries.filter _ = _
    rw [← List.filterMap_eq_filter]
    refine List.filterMap_congr fun e mem => ?_
    by_cases pair : e.matches d = true
    · have same := only e mem pair
      rw [if_pos pair, same, AlarmEntry.acknowledged, cleared]
      simp [Option.guard]
    · have other := fun both => pair (AlarmEntry.matches_iff.2 both)
      rw [if_neg pair]
      simpa [Option.guard] using other
  · rename_i known
    refine ((List.filterMap_congr fun e mem => ?_).trans List.filterMap_some).symm
    by_cases pair : e.matches d = true
    · rw [if_pos pair, only e mem pair, AlarmEntry.acknowledged, known]
    · rw [if_neg pair]

/-- The walk over entries of different pairs, each the only one of its pair. -/
theorem acknowledge_walk (l : List AlarmEntry) {p : Part} (pairs : l.Pairwise fun d e => e.matches d = false)
    (only : ∀ d ∈ l, ∀ e ∈ p.alarms.entries, e.matches d = true → e = d) :
    (l.foldl (fun q e => acknowledgeEntry e q) p).alarms.entries =
      p.alarms.entries.filterMap fun e => if l.any e.matches then e.acknowledged else some e := by
  induction l generalizing p with
  | nil => exact List.filterMap_some.symm
  | cons d l ih =>
    obtain ⟨fresh, rest⟩ := List.pairwise_cons.1 pairs
    have first := acknowledgeEntry_walk (only d List.mem_cons_self)
    have others : ∀ e x : AlarmEntry, e.matches d = true → e.matches x = true → x ∈ l → False := by
      intro e x a b mem
      obtain ⟨as, ak⟩ := AlarmEntry.matches_iff.1 a
      obtain ⟨bs, bk⟩ := AlarmEntry.matches_iff.1 b
      have differ := fresh x mem
      rw [← Bool.not_eq_true, AlarmEntry.matches_iff, ← bs, ← bk] at differ
      exact differ ⟨as, ak⟩
    rw [List.foldl_cons, ih rest, first, List.filterMap_filterMap]
    · refine List.filterMap_congr fun e mem => ?_
      by_cases pair : e.matches d = true
      · have later : l.any e.matches = false := by
          rw [← Bool.not_eq_true, List.any_eq_true]
          exact fun ⟨x, mem, b⟩ => others e x pair b mem
        have still : ∀ c, e.acknowledged = some c → (if l.any c.matches then c.acknowledged else some c) = some c := by
          intro c made
          have same : c.matches = e.matches := by
            funext x
            obtain ⟨source, kind⟩ := acknowledged_pair made
            simp only [AlarmEntry.matches, source, kind]
          rw [same, later, if_neg (by simp)]
        rw [List.any_cons, pair, Bool.true_or, if_pos rfl]
        cases made : e.acknowledged with
        | none => rfl
        | some c => exact still c made
      · rw [List.any_cons, if_neg pair, Option.bind_some, Bool.eq_false_iff.2 pair, Bool.false_or]
    · intro x mem c there matching
      rw [first] at there
      obtain ⟨e, e_mem, made⟩ := List.mem_filterMap.1 there
      split at made
      · rename_i pair
        obtain ⟨source, kind⟩ := acknowledged_pair made
        have pairs := AlarmEntry.matches_iff.1 matching
        rw [source, kind] at pairs
        exact (others e x pair (AlarmEntry.matches_iff.2 pairs) mem).elim
      · cases made
        exact only x (List.mem_cons_of_mem _ mem) c e_mem matching

theorem AlarmTable.sound_pair {t : AlarmTable} (a : t.sound = true) {d e : AlarmEntry} (dm : d ∈ t.entries) (em : e ∈ t.entries)
    (same : e.matches d = true) : e = d := by
  obtain ⟨-, keys, -⟩ := AlarmTable.sound_iff.1 a
  exact List.inj_on_of_nodup_map keys em dm (Prod.ext_iff.2 (AlarmEntry.matches_iff.1 same))

theorem acknowledge_entries (scope : Option AlarmSource) {p : Part} (a : p.alarms.sound = true) :
    (acknowledge scope p).alarms.entries = p.alarms.entries.filterMap fun e =>
      if scope = none ∨ scope = some e.source then e.acknowledged else some e := by
  have nodup : (p.alarms.entries.map fun e => (e.source, e.kind)).Nodup := (AlarmTable.sound_iff.1 a).2.1
  have pairs : p.alarms.entries.Pairwise fun d e => e.matches d = false := by
    refine (List.pairwise_map.1 nodup).imp fun differ => ?_
    rw [← Bool.not_eq_true, AlarmEntry.matches_iff]
    exact fun same => differ (Prod.ext same.1.symm same.2.symm)
  refine (acknowledge_walk _ (pairs.sublist List.filter_sublist) fun d dm e em =>
    AlarmTable.sound_pair a (List.mem_of_mem_filter dm) em).trans ?_
  refine List.filterMap_congr fun e mem => ?_
  have covered : (p.alarms.entries.filter fun e => scope = none ∨ scope = some e.source).any e.matches =
      decide (scope = none ∨ scope = some e.source) := by
    rw [Bool.eq_iff_iff, List.any_eq_true, decide_eq_true_eq]
    constructor
    · rintro ⟨d, dm, same⟩
      have is := AlarmTable.sound_pair a (List.mem_of_mem_filter dm) mem same
      exact is ▸ of_decide_eq_true (List.mem_filter.1 dm).2
    · exact fun within => ⟨e, List.mem_filter.2 ⟨mem, decide_eq_true within⟩, AlarmEntry.matches_iff.2 ⟨rfl, rfl⟩⟩
  simp only [covered, decide_eq_true_eq]

theorem readScope_eq_none {w : Word} (beyond : 8 < w.toNat) (other : w ≠ 255) : readScope w = none := by
  have not255 : w.toNat ≠ 255 := fun is => other (BitVec.eq_of_toNat_eq is)
  unfold readScope
  split
  · exact absurd ‹_› not255
  all_goals first | omega | (rw [headOfNat_eq_none (by omega)]; rfl)

theorem sounds_eq (t : AlarmTable) (o : Bool) : { t with overflow := o, overflowHorn := false }.sounds =
    t.entries.any fun e => decide (e.state ≠ .activeAck) && decide (e.kind.severity ≠ .warning) := by
  have sounds : ∀ x : Severity, x.sounds = decide (x ≠ .warning) := fun x => by cases x <;> rfl
  simp only [AlarmTable.sounds, AlarmEntry.unacknowledged, sounds, Bool.false_or]

/-- Settles O45: the walk is `acknowledge_walk`; a sound table holds each pair once. -/
theorem ackAlarmsCommand_settled : Obligations.AckAlarmsCommand := by
  intro s source running
  have e : exec (.ackAlarms source) s = onPart (commanded (ackAlarmsCommand source)) s := rfl
  refine ⟨fun beyond other => .of_commanded e running ?_, fun scope named sound => .of_commanded e running
    (q := acknowledge scope s.part) (st := .ok) ?_ ⟨acknowledge_entries scope sound, rfl, rfl, ?_, ?_⟩⟩
  · rw [Machine.ackAlarmsCommand, readScope_eq_none beyond other]
  · rw [Machine.ackAlarmsCommand, named]
  · exact sounds_eq _ _
  · exact (acknowledge_frame scope s.part).answered _

/-! ### A raise that finds the table full -/

/-- In a sound table the entries without a pair are those without its one entry. -/
theorem AlarmTable.remove_eq_erase {t : AlarmTable} (a : t.sound = true) {e : AlarmEntry} (mem : e ∈ t.entries) :
    (t.remove e.source e.kind).entries = t.entries.erase e := by
  have nodup : t.entries.Nodup := (AlarmTable.sound_iff.1 a).2.1.of_map _
  rw [nodup.erase_eq_filter]
  refine List.filter_congr fun d dm => ?_
  by_cases same : d = e
  · simp [same]
  · have other : ¬ (d.source = e.source ∧ d.kind = e.kind) := fun pair =>
      same (AlarmTable.sound_pair a mem dm (AlarmEntry.matches_iff.2 pair))
    simp [same, other]

/-- The state a new entry of a kind enters (R142). -/
def AlarmKind.entered (k : AlarmKind) : EntryState := if k.momentary then .clearedNew else .activeNew

theorem raiseAlarm_new {p : Part} {s : AlarmSource} {k : AlarmKind} (fresh : p.alarms.find? s k = none) (d1 d2 : Word) :
    raiseAlarm s k d1 d2 p = judgeHorn (addAlarm s k k.entered d1 d2 p) := by
  unfold raiseAlarm AlarmKind.entered
  rw [fresh]
  cases k.momentary <;> rfl

theorem post_count (s : AlarmSource) (e : EventItem) (p : Part) : (post s e p).ref = p.ref :=
  (post_frame s e p .ref (by decide)).symm

theorem post_queue_alarms {p : Part} (w : p.evt.writing = true) (t : AlarmTable) (s : AlarmSource) (e : EventItem) :
    (post s e { p with alarms := t }).evt.queue =
      if p.evt.queue.length < Config.maxEvents then p.evt.queue ++ [⟨s, p.ref.count, e⟩] else p.evt.queue :=
  post_queue (p := { p with alarms := t }) w s e

theorem enterAlarm_queue {p : Part} (w : p.evt.writing = true) (s : AlarmSource) (k : AlarmKind) (x : EntryState)
    (d1 d2 : Word) : (enterAlarm s k x d1 d2 p).evt.queue =
      if p.evt.queue.length < Config.maxEvents then
        p.evt.queue ++ [⟨s, p.ref.count, .alarm .raised none (some x) (some k) false d1 d2⟩]
      else p.evt.queue := by
  unfold enterAlarm
  exact post_queue_alarms w _ s _

/-- A raise into a full table that gives up entry `e` (R145). -/
theorem addAlarm_evicts {p : Part} {s : AlarmSource} {k : AlarmKind} {x : EntryState} {e : AlarmEntry} (d1 d2 : Word)
    (full : ¬ p.alarms.entries.length < Config.maxAlarms) (evicted : p.alarms.evictable = some e) (a : p.alarms.sound = true) :
    (addAlarm s k x d1 d2 p).alarms.entries = p.alarms.entries.erase e ++ [⟨s, k, x, p.ref.count⟩] ∧
    (addAlarm s k x d1 d2 p).alarms.overflow = p.alarms.overflow ∧
    (p.evt.writing = true → p.evt.queue.length ≤ 14 → (addAlarm s k x d1 d2 p).evt.queue = p.evt.queue ++
      [⟨e.source, p.ref.count, .alarm .removed (some (.evicted e.state)) none (some e.kind) false 0 0⟩,
       ⟨s, p.ref.count, .alarm .raised none (some x) (some k) false d1 d2⟩]) := by
  have added : addAlarm s k x d1 d2 p = enterAlarm s k x d1 d2
      (post e.source (.alarm .removed (some (.evicted e.state)) none (some e.kind) false 0 0)
        { p with alarms := p.alarms.remove e.source e.kind }) := by
    rw [addAlarm, if_neg full, evicted]
  rw [added]
  refine ⟨?_, ?_, fun writing room => ?_⟩
  · rw [enterAlarm, post_alarms, post_alarms]
    simp only [AlarmTable.remove_eq_erase a (AlarmTable.evictable_mem evicted), post_count]
  · rw [enterAlarm, post_alarms, post_alarms]
    rfl
  · have first := post_queue (p := { p with alarms := p.alarms.remove e.source e.kind }) writing e.source
      (.alarm .removed (some (.evicted e.state)) none (some e.kind) false 0 0)
    have still := post_writing (p := { p with alarms := p.alarms.remove e.source e.kind }) writing e.source
      (.alarm .removed (some (.evicted e.state)) none (some e.kind) false 0 0)
    have small : p.evt.queue.length < Config.maxEvents := room.trans_lt (by decide)
    rw [if_pos small] at first
    rw [enterAlarm_queue still, first, post_count]
    have next : (p.evt.queue ++
        [(⟨e.source, p.ref.count, .alarm .removed (some (.evicted e.state)) none (some e.kind) false 0 0⟩ : Event)]).length <
        Config.maxEvents := by
      rw [List.length_append]
      exact (Nat.add_le_add_right room 1).trans_lt (by decide)
    rw [if_pos next, List.append_assoc]
    rfl

/-- A raise into a full table that gives up none (R145). -/
theorem addAlarm_overflows {p : Part} {s : AlarmSource} {k : AlarmKind} {x : EntryState} (d1 d2 : Word)
    (full : ¬ p.alarms.entries.length < Config.maxAlarms) (kept : p.alarms.evictable = none) :
    (addAlarm s k x d1 d2 p).alarms =
      { p.alarms with overflow := true, overflowHorn := p.alarms.overflowHorn || k.severity.sounds } ∧
    (p.evt.writing = true → p.evt.queue.length ≤ 14 → (addAlarm s k x d1 d2 p).evt.queue = p.evt.queue ++
      [⟨s, p.ref.count, .alarm (.notEntered x) none none (some k) true d1 d2⟩]) := by
  have added : addAlarm s k x d1 d2 p = post s (.alarm (.notEntered x) none none (some k) true d1 d2)
      { p with alarms :=
        { p.alarms with overflow := true, overflowHorn := p.alarms.overflowHorn || k.severity.sounds } } := by
    rw [addAlarm, if_neg full, kept]
  rw [added]
  refine ⟨post_alarms _ _ _, fun writing room => ?_⟩
  exact (post_queue_alarms writing _ s _).trans (if_pos (room.trans_lt (by decide)))

theorem evictable_first {t : AlarmTable} {e : AlarmEntry} (f : (t.entries.find? fun e => decide (e.state = .clearedNew)) = some e) :
    t.evictable = some e := by
  simp only [AlarmTable.evictable, f]

theorem evictable_second {t : AlarmTable} (f : (t.entries.find? fun e => decide (e.state = .clearedNew)) = none) :
    t.evictable = t.entries.find? fun e => decide (e.state = .activeAck) && decide (e.kind.severity = .warning) := by
  simp only [AlarmTable.evictable, f, Bool.decide_and]

/-- Settles O46: what a full table gives up decides between the two outcomes of `addAlarm`. -/
theorem fullTableMakesRoom : Obligations.FullTableMakesRoom := by
  intro p source kind d1 d2 sound fresh many q es new first second tells replaces
  have is : q = judgeHorn (addAlarm source kind kind.entered d1 d2 p) := raiseAlarm_new fresh d1 d2
  have full : ¬ p.alarms.entries.length < Config.maxAlarms := by rw [many]; decide
  have evicts : ∀ e, p.alarms.evictable = some e → replaces e := fun e evicted => by
    obtain ⟨entries, overflow, queue⟩ := addAlarm_evicts (s := source) (k := kind) (x := kind.entered) d1 d2 full evicted sound
    have table : q.alarms = { (addAlarm source kind kind.entered d1 d2 p).alarms with
      horn := (addAlarm source kind kind.entered d1 d2 p).alarms.sounds } := by rw [is]; rfl
    have posted : q.evt = (addAlarm source kind kind.entered d1 d2 p).evt := by rw [is]; rfl
    exact ⟨by rw [table]; exact entries, by rw [table]; exact overflow,
      fun writing room => (congrArg (·.queue) posted).trans (queue writing room)⟩
  refine ⟨fun e found => evicts e (evictable_first found), fun e found none => evicts e ((evictable_second none).trans found),
    fun none1 none2 => ?_, raiseAlarm_frame source kind d1 d2 p⟩
  obtain ⟨table, queue⟩ := addAlarm_overflows (s := source) (k := kind) (x := kind.entered) d1 d2 full
    ((evictable_second none1).trans none2)
  have judged : q.alarms = { (addAlarm source kind kind.entered d1 d2 p).alarms with
      horn := (addAlarm source kind kind.entered d1 d2 p).alarms.sounds } := by rw [is]; rfl
  rw [table] at judged
  have sounds : ∀ x : Severity, x.sounds = decide (x ≠ .warning) := fun x => by cases x <;> rfl
  refine ⟨by rw [judged], by rw [judged], ?_, fun warns => ?_, fun more => ⟨?_, ?_⟩⟩
  · have posted : q.evt = (addAlarm source kind kind.entered d1 d2 p).evt := by rw [is]; rfl
    exact fun writing room => (congrArg (·.queue) posted).trans (queue writing room)
  · rw [judged, warns, sounds]
    simp
  · rw [judged, sounds]
    simp [more]
  · rw [judged, AlarmTable.sounds, sounds]
    simp [more]

end Sys2Proof.Machine
end

section
/-! PROOFS. The life of a take between its activation and its commit (R97 to R100): what each evaluation keeps of a property that
looks at the active takes' incoming sources and states. -/

namespace Sys2Proof.Machine

variable {I : Part → Prop}

/-! ### Islands after the scheduler's operations -/

theorem modIsland_island (i : IslandId) (f : Island → Island) (p : Part) : (p.modIsland i f).island i = f (p.island i) := by
  simp

theorem modIsland_island_ne {i j : IslandId} (n : j ≠ i) (f : Island → Island) (p : Part) :
    (p.modIsland i f).island j = p.island j := Part.modIsland_get_ne p i j f n

theorem modFront_island (i : IslandId) (f : Take → Take) (p : Part) :
    (p.modFront i f).island i = Island.modFront f (p.island i) := modIsland_island i _ p

theorem modFront_island_ne {i j : IslandId} (n : j ≠ i) (f : Take → Take) (p : Part) :
    (p.modFront i f).island j = p.island j := modIsland_island_ne n _ p

theorem post_island (s : AlarmSource) (e : EventItem) (p : Part) (i : IslandId) : (post s e p).island i = p.island i :=
  (post_frame s e p (.island i) (by simp [Block.posting])).symm

theorem post_head (s : AlarmSource) (e : EventItem) (p : Part) (h : HeadId) : (post s e p).head h = p.head h :=
  (post_frame s e p (.head h) (by simp [Block.posting])).symm

theorem raiseAlarm_island (s : AlarmSource) (k : AlarmKind) (a b : Word) (p : Part) (i : IslandId) :
    (raiseAlarm s k a b p).island i = p.island i :=
  (raiseAlarm_frame s k a b p (.island i) (by simp [Block.alarming, Block.posting])).symm

theorem clearAlarm_island (s : AlarmSource) (k : AlarmKind) (a b : Word) (p : Part) (i : IslandId) :
    (clearAlarm s k a b p).island i = p.island i :=
  (clearAlarm_frame s k a b p (.island i) (by simp [Block.alarming, Block.posting])).symm

theorem submitMove_island (i : IslandId) (q : Port) (f : Stamp) (p : Part) (j : IslandId) :
    (submitMove i q f p).island j = p.island j :=
  (submitMove_frame i q f p (.island j) (by simp [Block.linking, Block.posting])).symm

theorem submitMove_head (i : IslandId) (q : Port) (f : Stamp) (p : Part) (h : HeadId) :
    (submitMove i q f p).head h = p.head h :=
  (submitMove_frame i q f p (.head h) (by simp [Block.linking, Block.posting])).symm

theorem startDrive_island (h : HeadId) (c : Cause) (p : Part) (i : IslandId) : (startDrive h c p).island i = p.island i :=
  (startDrive_frame h c p (.island i) (by simp [Block.driving, Block.alarming, Block.posting])).symm

theorem startDrive_head_ne {h k : HeadId} (n : k ≠ h) (c : Cause) (p : Part) : (startDrive h c p).head k = p.head k :=
  (startDrive_frame h c p (.head k) (by simp [Block.driving, Block.alarming, Block.posting, n])).symm

/-- The island of a commit (R101). -/
theorem commitAsked_island (a : Stamp) (i : IslandId) (s : Source) (c : Stamp) (o : Owner) (p : Part) :
    (commitAsked a i s c o p).island i = { p.island i with
      mirror := .moving (p.portOf i s)
      confirm := some { target := s, port := p.portOf i s, cut := c, deadline := Stamp.plus c (p.island i).settings.grace,
                        owner := o } } := by
  rw [commitAsked, submitMove_island, modIsland_island]

theorem commitAsked_island_ne {i j : IslandId} (n : j ≠ i) (a : Stamp) (s : Source) (c : Stamp) (o : Owner) (p : Part) :
    (commitAsked a i s c o p).island j = p.island j := by
  rw [commitAsked, submitMove_island, modIsland_island_ne n]

theorem commit_island (i : IslandId) (s : Source) (c : Stamp) (o : Owner) (p : Part) :
    (commit i s c o p).island i = { p.island i with
      mirror := .moving (p.portOf i s)
      confirm := some { target := s, port := p.portOf i s, cut := c, deadline := Stamp.plus c (p.island i).settings.grace,
                        owner := o } } := commitAsked_island _ i s c o p

theorem commit_island_ne {i j : IslandId} (n : j ≠ i) (s : Source) (c : Stamp) (o : Owner) (p : Part) :
    (commit i s c o p).island j = p.island j := commitAsked_island_ne n _ s c o p

theorem commit_head (i : IslandId) (s : Source) (c : Stamp) (o : Owner) (p : Part) (h : HeadId) :
    (commit i s c o p).head h = p.head h :=
  (commit_frame i s c o p (.head h) (by cases i <;> simp [Block.committing, Block.linking, Block.posting])).symm

/-! ### The active take -/

theorem Island.active_eq_some {x : Island} {t : Take} : x.active = some t ↔ x.takes.head? = some t ∧ t.state ≠ .queued := by
  unfold Island.active
  split
  · rename_i none
    simp [none]
  · rename_i u rest some
    rw [some]
    split
    · rename_i queued
      simp only [List.head?_cons, Option.some.injEq, reduceCtorEq, false_iff, not_and, not_not]
      rintro rfl
      exact queued
    · rename_i past
      simp only [List.head?_cons, Option.some.injEq]
      exact ⟨fun e => ⟨e, e ▸ past⟩, fun e => e.1⟩

theorem Island.modFront_nil {x : Island} (none : x.takes = []) (f : Take → Take) : x.modFront f = x := by
  rw [Island.modFront, none]

theorem Island.modFront_cons {x : Island} {t : Take} {rest : List Take} (some : x.takes = t :: rest) (f : Take → Take) :
    x.modFront f = { x with takes := f t :: rest } := by
  rw [Island.modFront, some]

theorem Island.active_modFront {x : Island} {t : Take} (a : x.active = some t) {f : Take → Take} (past : (f t).state ≠ .queued) :
    (x.modFront f).active = some (f t) := by
  obtain ⟨front, -⟩ := Island.active_eq_some.1 a
  refine Island.active_eq_some.2 ⟨?_, past⟩
  unfold Island.modFront
  split
  · rename_i none
    simp [none] at front
  · rename_i u rest some
    rw [some] at front
    cases front
    rfl

theorem modFront_active {i : IslandId} {p : Part} {t : Take} (a : (p.island i).active = some t) {f : Take → Take}
    (past : (f t).state ≠ .queued) : ((p.modFront i f).island i).active = some (f t) := by
  rw [modFront_island]
  exact Island.active_modFront a past

/-- The front take's incoming source and state, while it is past QUEUED. -/
def Part.front (p : Part) (i : IslandId) : Option (Source × TakeState) := (p.island i).active.map fun t => (t.incoming, t.state)

theorem front_of_active {p : Part} {i : IslandId} {t : Take} (a : (p.island i).active = some t) :
    p.front i = some (t.incoming, t.state) := by
  rw [Part.front, a]
  rfl

theorem active_of_front {p : Part} {i : IslandId} {s : Source} {x : TakeState} (a : p.front i = some (s, x)) :
    ∃ t, (p.island i).active = some t ∧ t.incoming = s ∧ t.state = x := by
  obtain ⟨t, held, same⟩ := Option.map_eq_some_iff.1 a
  cases same
  exact ⟨t, held, rfl, rfl⟩

theorem front_of_island {p q : Part} {i : IslandId} (same : q.island i = p.island i) : q.front i = p.front i := by
  rw [Part.front, Part.front, same]

/-- A change of the active take that keeps its incoming source and its state. -/
theorem modFront_front {i : IslandId} {p : Part} {f : Take → Take} (keeps : ∀ t, (f t).incoming = t.incoming ∧ (f t).state = t.state)
    (j : IslandId) : (p.modFront i f).front j = p.front j := by
  by_cases same : j = i
  · subst same
    unfold Part.front
    rw [modFront_island]
    cases takes : (p.island j).takes with
    | nil => rw [Island.modFront_nil takes]
    | cons t rest =>
      rw [Island.modFront_cons takes, Island.active, Island.active, takes]
      simp only [(keeps t).2]
      split
      · rfl
      · simp [keeps t]
  · exact front_of_island (modFront_island_ne same f p)

theorem refreshStart_front (i : IslandId) (p : Part) (j : IslandId) : (refreshStart i p).front j = p.front j := by
  unfold refreshStart
  split
  · rfl
  · split
    · dsimp only
      split
      · exact (front_of_island (post_island _ _ _ _)).trans (modFront_front (by exact fun _ => ⟨rfl, rfl⟩) j)
      · exact modFront_front (by exact fun _ => ⟨rfl, rfl⟩) j
    · split
      · exact modFront_front (by exact fun _ => ⟨rfl, rfl⟩) j
      · rfl

theorem refreshTake_front (i : IslandId) (p : Part) (j : IslandId) : (refreshTake i p).front j = p.front j := by
  unfold refreshTake
  split
  · rfl
  · exact (refreshStart_front _ _ _).trans (modFront_front (by exact fun _ => ⟨rfl, rfl⟩) j)

theorem cutSoon_front (i : IslandId) (p : Part) (j : IslandId) : (cutSoon i p).front j = p.front j :=
  (refreshTake_front _ _ _).trans (modFront_front (by exact fun _ => ⟨rfl, rfl⟩) j)

theorem mapPreds_front (h : HeadId) (f : PredKind → Pred → Pred) (p : Part) (j : IslandId) :
    (mapPreds h f p).front j = p.front j := by
  have island : (mapPreds h f p).island j = Island.mapPreds h f (p.island j) := by
    simp [mapPreds]
  unfold Part.front
  rw [island]
  unfold Island.mapPreds
  cases takes : (p.island j).takes with
  | nil => rw [Island.modFront_nil takes, Island.active, Island.active, takes]
  | cons t rest =>
    rw [Island.modFront_cons takes, Island.active, Island.active, takes]
    dsimp only
    split <;> rfl

theorem startRequest_front (h : HeadId) (p : Part) (j : IslandId) : (startRequest h p).front j = p.front j := by
  unfold startRequest
  split
  · exact (refreshTake_front _ _ _).trans ((refreshTake_front _ _ _).trans ((mapPreds_front _ _ _ _).trans
      (front_of_island (startDrive_island _ _ _ _))))
  · rfl

theorem followEnd_front (i : IslandId) (p : Part) (j : IslandId) : (followEnd i p).front j = p.front j := by
  by_cases same : j = i
  · subst same
    unfold Part.front followEnd
    rw [modIsland_island]
    split
    · rfl
    · split
      · split <;> rfl
      · rfl
  · exact front_of_island (modIsland_island_ne same _ p)

theorem Take.incoming_of_head? {t : Take} {h : HeadId} (e : t.head? = some h) : t.incoming = .head h := by
  unfold Take.head? at e
  split at e
  · rename_i is
    cases e
    exact is
  · cases e
  · cases e

theorem front_of_head? {p : Part} {i : IslandId} {t : Take} {h : HeadId} (active : (p.island i).active = some t)
    (e : t.head? = some h) : p.front i = some (.head h, t.state) := by
  rw [front_of_active active, Take.incoming_of_head? e]

/-! ### What an evaluation keeps -/

/-- A take whose F_cut record is REACHED without a value before its commit (R99). -/
def Take.loses (t : Take) : Bool := t.state.pending && t.cut.any fun r => r.basis = .reached && r.value.isNone

/-- What a step of its evaluation leaves of an active take. -/
structure Take.Follows (t u : Take) : Prop where
  tag : u.tag = t.tag
  incoming : u.incoming = t.incoming
  outgoing : u.outgoing = t.outgoing
  tolerance : u.tolerance = t.tolerance
  preroll : u.preroll = t.preroll
  sopCue : u.sopCue = t.sopCue
  changeCue : u.changeCue = t.changeCue
  effective : u.effective = t.effective ∨ t.loses = true
  cut : u.cut = t.cut ∨ u.cut = none
  past : u.state ≠ .queued
  committed : t.state = .committed → u.state = .committed

/-- A step that keeps the state of an active take, and its mode. -/
theorem Take.Follows.of_state {t u : Take} (past : t.state ≠ .queued) (state : u.state = t.state) (tag : u.tag = t.tag)
    (incoming : u.incoming = t.incoming) (outgoing : u.outgoing = t.outgoing) (tolerance : u.tolerance = t.tolerance)
    (preroll : u.preroll = t.preroll) (sopCue : u.sopCue = t.sopCue) (changeCue : u.changeCue = t.changeCue)
    (effective : u.effective = t.effective) (cut : u.cut = t.cut ∨ u.cut = none) : t.Follows u :=
  ⟨tag, incoming, outgoing, tolerance, preroll, sopCue, changeCue, .inl effective, cut, state ▸ past, fun c => state.trans c⟩

/-- A step to another state before the commit. -/
theorem Take.Follows.to {t : Take} (open_ : t.state ≠ .committed) {s : TakeState} (past : s ≠ .queued) :
    t.Follows { t with state := s } :=
  ⟨rfl, rfl, rfl, rfl, rfl, rfl, rfl, .inl rfl, .inl rfl, past, fun c => absurd c open_⟩

/-- A property that the evaluation of island `i`'s active take keeps: a start is that of its incoming head, at rest; the figures of
both islands follow it. -/
structure TakesKeep (i : IslandId) (I : Part → Prop) : Prop where
  post : ∀ s e p, I p → I (post s e p)
  front : ∀ j f t p, (p.island j).active = some t → t.Follows (f t) → I p → I (p.modFront j f)
  preds : ∀ h x f p, p.front i = some (.head h, x) → (p.head h).drive = .runup → I p → I (mapPreds h f p)
  start : ∀ h x p, p.front i = some (.head h, x) → (p.head h).drive.atRest = true → I p → I (startDrive h .scheduler p)
  commit : ∀ o l p, I p → I (commitTake i o l p)

section
variable {i : IslandId} (K : TakesKeep i I)
include K

theorem refreshStart_takes (j : IslandId) {p : Part} (a : I p) : I (refreshStart j p) := by
  unfold refreshStart
  split
  · exact a
  · rename_i t active
    have past := (Island.active_eq_some.1 active).2
    have kept : ∀ f : Take → Take, t.Follows (f t) → I (p.modFront j f) := fun f follows => K.front j f t p active follows a
    split
    · refine ite_keeps (K.post _ _ _ (kept _ ?_)) (kept _ ?_) <;>
        exact .of_state past rfl rfl rfl rfl rfl rfl rfl rfl rfl (.inl rfl)
    · exact ite_keeps (kept _ (by exact .of_state past rfl rfl rfl rfl rfl rfl rfl rfl rfl (.inl rfl))) a

theorem refreshTake_takes (j : IslandId) {p : Part} (a : I p) : I (refreshTake j p) := by
  unfold refreshTake
  split
  · exact a
  · rename_i t active
    exact refreshStart_takes K j (K.front j (Take.figures _) t p active
      (.of_state (Island.active_eq_some.1 active).2 rfl rfl rfl rfl rfl rfl rfl rfl rfl (.inl rfl)) a)

theorem cutSoon_takes {j : IslandId} {p : Part} {t : Take} (active : (p.island j).active = some t) (a : I p) : I (cutSoon j p) :=
  refreshTake_takes K j (K.front j (fun t => { t with cut := none, fCut := some (p.leadField j) }) t p active
    (.of_state (Island.active_eq_some.1 active).2 rfl rfl rfl rfl rfl rfl rfl rfl rfl (.inr rfl)) a)

theorem convertNow_takes {p : Part} (a : I p) : I (convertNow i p) := by
  unfold convertNow
  split
  · exact a
  · rename_i t active
    split
    · exact a
    · rename_i r cut
      split
      · rename_i lost
        obtain ⟨pending, basis, value⟩ := lost
        have loses : t.loses = true := by simp [Take.loses, cut, pending, basis, value]
        have now : I (p.modFront i fun t => { t with effective := .now, cut := none, fCut := none, fStart := none }) :=
          K.front i _ t p active ⟨rfl, rfl, rfl, rfl, rfl, rfl, rfl, .inr loses, .inr rfl, (Island.active_eq_some.1 active).2, id⟩ a
        exact ite_keeps (cutSoon_takes K (modFront_active active (Island.active_eq_some.1 active).2) now) (refreshTake_takes K i now)
      · exact a

theorem startRequest_takes {h : HeadId} {x : TakeState} {p : Part} (front : p.front i = some (.head h, x))
    (a : I p) : I (startRequest h p) := by
  unfold startRequest
  split
  · rename_i rest
    have started := K.start h x p front rest a
    have runup : ((startDrive h .scheduler p).head h).drive = .runup := by rw [startDrive_head h .scheduler p rest]
    exact refreshTake_takes K .i2 (refreshTake_takes K .i1 (K.preds h x _ _
      ((front_of_island (startDrive_island h .scheduler p i)).trans front) runup started))
  · exact a

theorem sendStart_takes {p : Part} (a : I p) : I (sendStart i p) := by
  unfold sendStart
  split
  · exact a
  · rename_i t active
    split
    · rename_i h incoming
      exact ite_keeps (startRequest_takes K (front_of_head? active incoming) a) a
    · exact a

theorem followRunning_takes {p : Part} (a : I p) : I (followRunning i p) := by
  unfold followRunning
  split
  · exact a
  · rename_i t active
    split
    · split
      · rename_i armed
        exact K.front i _ t p active (.to (by rw [armed.1]; exact nofun) nofun) a
      · exact a
    · exact a

theorem becomeReady_takes {t : Take} {p : Part} (active : (p.island i).active = some t)
    (open_ : t.state ≠ .committed) (a : I p) : I (becomeReady i p) := by
  have ready : I (p.modFront i fun t => { t with state := .ready }) :=
    K.front i _ t p active (.to open_ nofun) a
  unfold becomeReady
  dsimp only
  split
  · exact ready
  · rename_i u now
    have formed : I (if u.effective = .now then cutSoon i (p.modFront i fun t => { t with state := .ready })
        else refreshTake i (p.modFront i fun t => { t with state := .ready })) :=
      ite_keeps (cutSoon_takes K now ready) (refreshTake_takes K i ready)
    split
    · exact formed
    · exact K.post _ _ _ formed

theorem judgeReady_takes {p : Part} (a : I p) : I (judgeReady i p) := by
  unfold judgeReady
  split
  · exact a
  · rename_i t active
    split
    · rename_i starting
      exact becomeReady_takes K active (by rw [starting.1]; exact nofun) a
    · split
      · rename_i ready
        exact K.front i _ t p active (.to (by rw [ready.1]; exact nofun) nofun) a
      · exact a

theorem retarget_takes {p : Part} (a : I p) : I (retarget i p) := by
  unfold retarget
  split
  · exact a
  · rename_i t active
    have past := (Island.active_eq_some.1 active).2
    split
    · exact a
    · split
      · exact K.front i _ t p active (.of_state past rfl rfl rfl rfl rfl rfl rfl rfl rfl (.inl rfl)) a
      · have formed : ∀ (x y : Option Stamp) (z : Take → Int), I (refreshTake i (p.modFront i fun t =>
            { t with fCut := x, commitAt := y, slip := z t })) := fun x y z =>
          refreshTake_takes K i (K.front i _ t p active (.of_state past rfl rfl rfl rfl rfl rfl rfl rfl rfl (.inl rfl)) a)
        exact ite_keeps (ite_keeps (formed _ _ _) (K.commit _ _ _ (formed _ _ _))) (formed _ _ _)

theorem evalTake_takes {p : Part} (a : I p) : I (evalTake i p) :=
  retarget_takes K (judgeReady_takes K (followRunning_takes K (sendStart_takes K (convertNow_takes K a))))

/-- The front take, past QUEUED, is not COMMITTED. -/
def Part.uncommitted (p : Part) (i : IslandId) : Prop := ∃ s x, p.front i = some (s, x) ∧ x ≠ .committed

theorem enterHeld_takes {p : Part} (open_ : p.uncommitted i) (a : I p) : I (enterHeld i p) := by
  obtain ⟨s, x, front, uncommitted⟩ := open_
  unfold enterHeld
  split
  · exact a
  · rename_i t active
    rw [front_of_active active] at front
    cases front
    have held : I (p.modFront i fun t => { t with state := .held, heldCut := t.fCut, cut := none, commitAt := none }) :=
      K.front i _ t p active ⟨rfl, rfl, rfl, rfl, rfl, rfl, rfl, .inl rfl, .inr rfl, nofun, fun c => absurd c uncommitted⟩ a
    split
    · rename_i h incoming
      have now := front_of_active (modFront_active active
        (f := fun t => { t with state := .held, heldCut := t.fCut, cut := none, commitAt := none }) nofun)
      rw [show t.incoming = .head h from Take.incoming_of_head? incoming] at now
      exact evalTake_takes K (ite_keeps (startRequest_takes K now held) held)
    · exact evalTake_takes K held

end

theorem judgeReady_uncommitted {i : IslandId} {p : Part} (a : p.uncommitted i) : (judgeReady i p).uncommitted i := by
  have ready : ∀ t : Take, (p.island i).active = some t → (becomeReady i p).uncommitted i := by
    intro t active
    have now := front_of_active (modFront_active active (f := fun t => { t with state := .ready }) nofun)
    refine ⟨t.incoming, .ready, ?_, nofun⟩
    unfold becomeReady
    dsimp only
    split
    · exact now
    · rename_i u _
      have formed : (if u.effective = .now then cutSoon i (p.modFront i fun t => { t with state := .ready })
          else refreshTake i (p.modFront i fun t => { t with state := .ready })).front i = some (t.incoming, .ready) := by
        split
        · rw [cutSoon_front]
          exact now
        · rw [refreshTake_front]
          exact now
      split
      · exact formed
      · rw [front_of_island (post_island _ _ _ _)]
        exact formed
  unfold judgeReady
  split
  · exact a
  · rename_i t active
    split
    · exact ready t active
    · split
      · exact ⟨_, _, front_of_active (modFront_active active (f := fun t => { t with state := .starting }) nofun), nofun⟩
      · exact a

section
variable {i : IslandId} (K : TakesKeep i I)
include K

theorem takeCommitField_takes {p : Part} (due : commitDue i p = true) (a : I p) : I (takeCommitField i p) := by
  unfold takeCommitField
  split
  · exact a
  · rename_i t active
    have open_ : t.state ≠ .committed := by
      intro committed
      simp [commitDue, -Part.island_eq, active, committed, TakeState.pending] at due
    have before : p.uncommitted i := ⟨_, _, front_of_active active, open_⟩
    dsimp only
    have past := (Island.active_eq_some.1 active).2
    have late : ∀ z : Take → Int,
        let q := judgeReady i (refreshTake i (p.modFront i fun t => { t with cut := none, fCut := some (p.leadField i), slip := z t }))
        I q ∧ q.uncommitted i := by
      intro z
      refine ⟨judgeReady_takes K (refreshTake_takes K i (K.front i _ t p active
        (.of_state past rfl rfl rfl rfl rfl rfl rfl rfl rfl (.inr rfl)) a)), judgeReady_uncommitted ⟨t.incoming, t.state, ?_, open_⟩⟩
      rw [refreshTake_front]
      have now := front_of_active (modFront_active active (f := fun t =>
        { t with cut := none, fCut := some (p.leadField i), slip := z t }) past)
      exact now
    have formed : ∀ c : Prop, ∀ [Decidable c],
        let q := if c then p else judgeReady i (refreshTake i (p.modFront i fun u =>
          { u with cut := none, fCut := some (p.leadField i),
                   slip := if u.state = .held then u.slipTo (p.leadField i) else u.slip }))
        I q ∧ q.uncommitted i := by
      intro c _
      dsimp only
      split
      · exact ⟨a, before⟩
      · exact late _
    obtain ⟨kept, uncommitted⟩ := formed (t.commitAt = some p.ref.count)
    split
    · exact kept
    · split
      · exact K.commit _ _ _ kept
      · exact enterHeld_takes K uncommitted kept

theorem takeStartField_takes {p : Part} (due : startDue i p = true) (a : I p) : I (takeStartField i p) := by
  unfold takeStartField
  split
  · rename_i h incoming
    obtain ⟨t, active, is⟩ := Option.bind_eq_some_iff.1 incoming
    have armed : t.state = .armed := by
      by_contra other
      simp [startDue, -Part.island_eq, active, Take.planned, is, other] at due
    have starting : I (p.modFront i fun t => { t with state := .starting }) :=
      K.front i _ t p active (.to (by rw [armed]; exact nofun) nofun) a
    have now := front_of_active (modFront_active active (f := fun t => { t with state := .starting }) nofun)
    rw [show t.incoming = .head h from Take.incoming_of_head? is] at now
    exact evalTake_takes K (startRequest_takes K now starting)
  · exact a

theorem meetStart_takes {p : Part} (a : I p) : I (meetStart i p) := by
  unfold meetStart
  split
  · rename_i due
    exact takeStartField_takes K due a
  · exact a

theorem meetCommit_takes {p : Part} (a : I p) : I (meetCommit i p) := by
  unfold meetCommit
  split
  · rename_i due
    exact takeCommitField_takes K due a
  · exact a

theorem workTake_takes {p : Part} (a : I p) : I (workTake i p) :=
  meetCommit_takes K (meetStart_takes K (evalTake_takes K a))

end

theorem settleTakes_takes (K : ∀ i, TakesKeep i I) {p : Part} (a : I p) : I (settleTakes p) :=
  workTake_takes (K .i2) (refreshTake_takes (K .i2) .i2 (workTake_takes (K .i1) (refreshTake_takes (K .i1) .i1 a)))

/-! ### A head in no active take's plan -/

/-- Head `h` is in no active take's plan, and is as given. -/
def Unplanned (h : HeadId) (x : Head) (p : Part) : Prop := p.unplanned h ∧ p.head h = x

theorem unplanned_iff {p : Part} {h : HeadId} : p.unplanned h ↔ ∀ i s x, p.front i = some (s, x) → s ≠ .head h := by
  constructor
  · rintro a i s x front
    obtain ⟨t, active, rfl, -⟩ := active_of_front front
    exact a i t active
  · exact fun a i t active => a i _ _ (front_of_active active)

theorem Unplanned.of_front {h : HeadId} {x : Head} {p q : Part} (a : Unplanned h x p)
    (front : ∀ i s y, q.front i = some (s, y) → ∃ z, p.front i = some (s, z)) (head : q.head h = p.head h) : Unplanned h x q := by
  refine ⟨unplanned_iff.2 fun i s y held => ?_, head.trans a.2⟩
  obtain ⟨z, before⟩ := front i s y held
  exact unplanned_iff.1 a.1 i s z before

theorem commitTake_front (i : IslandId) (o : TakeOutcome) (l : Option Int) (p : Part) (j : IslandId) (s : Source) (y : TakeState)
    (held : (commitTake i o l p).front j = some (s, y)) : ∃ z, p.front j = some (s, z) := by
  unfold commitTake at held
  split at held
  · exact ⟨y, held⟩
  · rename_i t active
    dsimp only at held
    rw [front_of_island (post_island _ _ _ _)] at held
    by_cases same : j = i
    · subst same
      have before : ∀ c, ((commit j t.incoming c .take p).island j).active = some t := fun c => by
        rw [commit_island]
        exact active
      rw [front_of_active (modFront_active (before _) (f := fun t =>
        { t with state := .committed, cut := none, commitAt := none, outcome := o, lost := l }) nofun)] at held
      cases held
      exact ⟨t.state, front_of_active (t := t) active⟩
    · rw [front_of_island (modFront_island_ne same _ _), front_of_island (commit_island_ne same _ _ _ _)] at held
      exact ⟨y, held⟩

theorem commitTake_head (i : IslandId) (o : TakeOutcome) (l : Option Int) (p : Part) (h : HeadId) :
    (commitTake i o l p).head h = p.head h :=
  (commitTake_frame i o l p (.head h) (by cases i <;> simp [Block.committing, Block.linking, Block.posting])).symm

theorem modFront_head (i : IslandId) (f : Take → Take) (p : Part) (h : HeadId) : (p.modFront i f).head h = p.head h := by simp

theorem mapPreds_head (k : HeadId) (f : PredKind → Pred → Pred) (p : Part) (h : HeadId) : (mapPreds k f p).head h = p.head h := rfl

theorem unplanned_takes (h : HeadId) (x : Head) (i : IslandId) : TakesKeep i (Unplanned h x) where
  post s e p a := a.of_front (fun i s y held => ⟨y, front_of_island (post_island _ _ _ _) ▸ held⟩) (post_head _ _ _ _)
  front i f t p active follows a := by
    refine a.of_front (fun j s y held => ?_) (modFront_head i f p h)
    by_cases same : j = i
    · subst same
      rw [front_of_active (modFront_active active follows.past), follows.incoming] at held
      cases held
      exact ⟨_, front_of_active active⟩
    · exact ⟨y, front_of_island (modFront_island_ne same f p) ▸ held⟩
  preds k _ f p _ _ a := a.of_front (fun i s y held => ⟨y, mapPreds_front k f p i ▸ held⟩) rfl
  start k y p front _ a := by
    have other : h ≠ k := by
      rintro rfl
      exact unplanned_iff.1 a.1 i _ y front rfl
    exact a.of_front (fun i s y held => ⟨y, front_of_island (startDrive_island _ _ _ _) ▸ held⟩) (startDrive_head_ne other _ _)
  commit o l p a := a.of_front (commitTake_front i o l p) (commitTake_head i o l p h)

theorem meetGuards_head (p : Part) (h : HeadId) : (meetGuards p).head h = p.head h := by
  have one : ∀ (i : IslandId) (q : Part), (meetGuard i q).head h = q.head h := fun i q => by
    unfold meetGuard
    split
    · exact (takeGuard_frame i q (.head h) ((guarding_steady i).heads h)).symm
    · rfl
  exact (one .i2 _).trans (one .i1 p)

/-- A head in no plan is left alone as the takes are settled and the guards met. -/
theorem settle_unplanned {h : HeadId} {p : Part} (u : p.unplanned h) : (settle p).head h = p.head h :=
  (meetGuards_head _ h).trans (settleTakes_takes (unplanned_takes h _) ⟨u, rfl⟩).2

theorem settleTakes_unplanned {h : HeadId} {p : Part} (u : p.unplanned h) : (settleTakes p).head h = p.head h :=
  (settleTakes_takes (unplanned_takes h _) ⟨u, rfl⟩).2

theorem unplanned_of_front {p q : Part} {h : HeadId} (same : ∀ i, q.front i = p.front i) (u : p.unplanned h) : q.unplanned h := by
  rw [unplanned_iff] at u ⊢
  exact fun i s x held => u i s x (same i ▸ held)

theorem mapPreds_unplanned {p : Part} {h : HeadId} (k : HeadId) (f : PredKind → Pred → Pred) (u : p.unplanned h) :
    (mapPreds k f p).unplanned h := unplanned_of_front (mapPreds_front k f p) u

theorem followEnds_unplanned {p : Part} {h : HeadId} (u : p.unplanned h) : (followEnds p).unplanned h :=
  unplanned_of_front (fun _ => (followEnd_front _ _ _).trans (followEnd_front _ _ _)) u

end Sys2Proof.Machine
end

section
/-! PROOFS. What a request or an event of one head does: the head itself, changed by its controller and then by the scheduler if it
waits for it (`Drives`, `Acts`), with the events it tells. -/

namespace Sys2Proof.Machine

/-! ### The Head Controller's own work -/

/-- From `p` to `q` head `h` alone has been driven: it stands as `x`, at most `k` events wait, and `es` among them. -/
structure Drives (h : HeadId) (x : Head) (k : Nat) (es : List Event) (p q : Part) : Prop where
  head : q.head h = x
  frame : ChangesOnly (Block.driving h) p q
  told : p.listens → Awaits k es q

theorem Drives.refl (h : HeadId) (p : Part) : Drives h (p.head h) 0 [] p p := ⟨rfl, .refl _ p, Part.listens.awaits⟩

/-- A HEAD_STATE as `enterDrive` posts it (R36). -/
def headStateEvent (h : HeadId) (n : Stamp) (x : Head) (d : DriveState) (c : Cause) : Event :=
  ⟨.head h, n, .headState d x.drive c x.pos.frame⟩

theorem Awaits.analog {k : Nat} {es : List Event} {p : Part} (a : Awaits k es p) (x : Analog) :
    Awaits k es { p with analog := x } := a.of_evt rfl

theorem lampChanged_awaits {k : Nat} {es : List Event} {p : Part} (a : Awaits k es p) (h : HeadId) :
    Awaits (k + 1) es (lampChanged h p) := by
  unfold lampChanged
  split
  · exact a.mono (Nat.le_succ k)
  · dsimp only
    split
    · exact (a.analog _).clear _ _ _ _
    · exact (a.analog _).mono (Nat.le_succ k)

theorem tensionIdle_evt (h : HeadId) (p : Part) : (tensionIdle h p).evt = p.evt := by
  unfold tensionIdle
  dsimp only
  split <;> rfl

theorem stopMeasuring_awaits {k : Nat} {es : List Event} {p : Part} (a : Awaits k es p) (h : HeadId) :
    Awaits (k + 2) es (stopMeasuring h p) :=
  ((a.of_evt (q := p.modCadence h Cadence.stopped) rfl).clear _ _ _ _).clear _ _ _ _

/-- The HEAD_STATE of a change of drive state waits, and at most the alarms of the change behind it. -/
theorem enterDrive_awaits {k : Nat} {es : List Event} {p : Part} (a : Awaits k es p) (free : k < Config.maxEvents) (h : HeadId)
    (d : DriveState) (c : Cause) (fault : Option FaultKind) :
    Awaits (k + 6) (es ++ [headStateEvent h p.ref.count (p.head h) d c]) (enterDrive h d c fault p) := by
  have told := (a.of_evt (q := p.modHead h fun x => x.enter d p.time.now) rfl).post (.head h)
    (.headState d (p.head h).drive c (p.head h).pos.frame) free
  unfold enterDrive
  extract_lets old entered posted alarmed lamped idled
  have alarms : Awaits (k + 3) (es ++ [headStateEvent h p.ref.count (p.head h) d c]) alarmed := by
    unfold alarmed
    split
    · exact told.raise _ _ _ _
    · exact told.mono (by omega)
  have lamp : Awaits (k + 4) (es ++ [headStateEvent h p.ref.count (p.head h) d c]) lamped :=
    (alarms.mono (Nat.le_succ _)).ite (lampChanged_awaits alarms h)
  have idle : Awaits (k + 4) (es ++ [headStateEvent h p.ref.count (p.head h) d c]) idled :=
    (lamp.of_evt (tensionIdle_evt h _)).ite lamp
  exact (stopMeasuring_awaits idle h).ite (idle.mono (by omega))

section
variable {h : HeadId} {x : Head} {k : Nat} {es : List Event} {p q : Part} (a : Drives h x k es p q)
include a

theorem Drives.ref : q.ref = p.ref := (a.frame .ref (by simp [Block.driving, Block.alarming, Block.posting])).symm

theorem Drives.now : q.time.now = p.time.now :=
  congrArg Timebase.now (a.frame .time (by simp [Block.driving, Block.alarming, Block.posting])).symm

theorem Drives.other {j : HeadId} (n : j ≠ h) : q.head j = p.head j :=
  (a.frame (.head j) (by simp [Block.driving, Block.alarming, Block.posting, n])).symm

theorem Drives.island (i : IslandId) : q.island i = p.island i :=
  (a.frame (.island i) (by simp [Block.driving, Block.alarming, Block.posting])).symm

theorem Drives.modHead (f : Head → Head) : Drives h (f x) k es p (q.modHead h f) where
  head := by rw [modHead_head, a.head]
  frame := a.frame.trans ((modHead_frame h f q).mono (by simp [Block.driving]))
  told l := (a.told l).of_evt rfl

/-- The head as it enters a drive state, with the HEAD_STATE of the change. -/
theorem Drives.enter (free : k < Config.maxEvents) (d : DriveState) (c : Cause) (fault : Option FaultKind) :
    Drives h (if x.drive.running && !d.running then
        { x.enter d p.time.now with cadence := x.cadence.stopped } else x.enter d p.time.now) (k + 6)
      (es ++ [headStateEvent h p.ref.count x d c]) p (enterDrive h d c fault q) where
  head := by rw [enterDrive_head, a.head, a.now]
  frame := a.frame.trans (enterDrive_frame h d c fault q)
  told l := by
    have entered := enterDrive_awaits (a.told l) free h d c fault
    rwa [a.head, a.ref] at entered

theorem Drives.post (s : AlarmSource) (e : EventItem) (free : k < Config.maxEvents) :
    Drives h x (k + 1) (es ++ [⟨s, p.ref.count, e⟩]) p (post s e q) where
  head := (post_head s e q h).trans a.head
  frame := a.frame.trans ((post_alarming s e q).mono fun _ m => List.mem_cons_of_mem _ (List.mem_cons_of_mem _ m))
  told l := a.ref ▸ (a.told l).post s e free

theorem Drives.raise (s : AlarmSource) (n : AlarmKind) (d e : Word) : Drives h x (k + 2) es p (raiseAlarm s n d e q) where
  head := (raiseAlarm_head s n d e q h).trans a.head
  frame := a.frame.trans ((raiseAlarm_frame s n d e q).mono fun _ m => List.mem_cons_of_mem _ (List.mem_cons_of_mem _ m))
  told l := (a.told l).raise s n d e

theorem Drives.clear (s : AlarmSource) (n : AlarmKind) (d e : Word) : Drives h x (k + 1) es p (clearAlarm s n d e q) where
  head := (clearAlarm_head s n d e q h).trans a.head
  frame := a.frame.trans ((clearAlarm_frame s n d e q).mono fun _ m => List.mem_cons_of_mem _ (List.mem_cons_of_mem _ m))
  told l := (a.told l).clear s n d e

end

/-! ### The scheduler behind it -/

/-- From `p` to `q` head `h` has been driven to `x` and the scheduler told: it may have started a head that a take waits for, and
`es` are among the events that wait. -/
structure Acts (h : HeadId) (x : Head) (es : List Event) (p q : Part) : Prop where
  head : x.steered (q.head h)
  alone : p.unplanned h → q.head h = x
  others : OthersSteered h p q
  frame : ChangesOnly Block.scheduling p q
  told : p.listens → Holds es q

theorem settleTakes_holds {es : List Event} {p : Part} (a : Holds es p) : Holds es (settleTakes p) :=
  settleTakes_keeps (holds_scheduler es) a

theorem holds_reports (es : List Event) : ReportKeeps (Holds es) := (holds_scheduler es).reports (holds_drive es)

section
variable {h : HeadId} {x : Head} {k : Nat} {es : List Event} {p q r : Part}

theorem Drives.unplanned (a : Drives h x k es p q) (u : p.unplanned h) : q.unplanned h :=
  unplanned_of_front (fun i => front_of_island (a.island i)) u

theorem Drives.scheduled (a : Drives h x k es p q) (s : Scheduled q r) (alone : q.unplanned h → r.head h = q.head h)
    (told : Holds es q → Holds es r) : Acts h x es p r where
  head := a.head ▸ s.heads h
  alone u := (alone (a.unplanned u)).trans a.head
  others _ n := a.other n ▸ s.heads _
  frame := (a.frame.mono (driving_scheduling h)).trans s.frame
  told l := told (a.told l).holds

theorem Acts.scheduled (a : Acts h x es p q) (s : Scheduled q r) (same : r.head h = q.head h) (told : Holds es q → Holds es r) :
    Acts h x es p r where
  head := same ▸ a.head
  alone u := same.trans (a.alone u)
  others j n := Head.steered_trans (a.others j n) (s.heads j)
  frame := a.frame.trans s.frame
  told l := told (a.told l)

theorem Drives.settleTakes (a : Drives h x k es p q) : Acts h x es p (settleTakes q) :=
  a.scheduled (settleTakes_sched q) settleTakes_unplanned settleTakes_holds

theorem Drives.settle (a : Drives h x k es p q) : Acts h x es p (settle q) :=
  a.scheduled (settle_sched q) settle_unplanned (settle_keeps (holds_reports es))

theorem Drives.tellStart (a : Drives h x k es p q) : Acts h x es p (tellStart h q) :=
  a.scheduled (tellStart_sched h q) (fun u => settle_unplanned (mapPreds_unplanned h _ u)) (tellStart_keeps (holds_reports es) h)

theorem Drives.tellJump (a : Drives h x k es p q) (f : Bool) : Acts h x es p (tellJump h f q) :=
  a.scheduled (tellJump_sched h f q)
    (fun u => (settleTakes_unplanned (followEnds_unplanned (mapPreds_unplanned h _ u))).trans rfl)
    (tellJump_keeps (holds_reports es) h f)

theorem Acts.guards (a : Acts h x es p q) : Acts h x es p (meetGuards q) :=
  a.scheduled (meetGuards_sched q) (meetGuards_head q h) (meetGuards_keeps (holds_reports es))

theorem Acts.raise (a : Acts h x es p q) (s : AlarmSource) (n : AlarmKind) (d e : Word) : Acts h x es p (raiseAlarm s n d e q) :=
  a.scheduled (raiseAlarm_sched s n d e q) (raiseAlarm_head s n d e q h) fun b => (b.awaits.raise s n d e).holds

theorem Acts.clear (a : Acts h x es p q) (s : AlarmSource) (n : AlarmKind) (d e : Word) : Acts h x es p (clearAlarm s n d e q) :=
  a.scheduled (clearAlarm_sched s n d e q) (clearAlarm_head s n d e q h) fun b => (b.awaits.clear s n d e).holds

/-- A head that is not at rest is left by the scheduler as it is. -/
theorem Acts.moving (a : Acts h x es p q) (n : x.drive.atRest = false) : q.head h = x := by
  obtain same | ⟨rest, -⟩ := a.head
  · exact same
  · rw [n] at rest
    cases rest

/-- What the scheduler did, told as that of a command and as that of an event of its own. -/
theorem Acts.tells (a : Acts h x es p q) (l : p.listens) (items : List EventItem)
    (is : es = items.map fun item => ({ source := .head h, stamp := p.ref.count, item := item } : Event)) :
    q.tells (.head h) items :=
  (a.told l).tells (is.trans (by rw [a.frame .ref (by simp [Block.scheduling, Block.alarming, Block.posting])]))

end

/-! ### START -/

/-- A head at rest as a START leaves it (R24, R38). -/
def Head.started (x : Head) (now : Nat) (stamp : Stamp) : Head :=
  let lamp := if x.lampPolicy = .auto then true else x.outputs.lamp
  { x with
    drive := .runup
    outputs := ⟨true, false, false, true, lamp⟩
    lampOnAt := if lamp && !x.outputs.lamp then some now else x.lampOnAt
    gapFrom := some now
    settleFrom := none
    cueUp := none
    park := none
    cadence := x.cadence.started stamp x.pos.frame }

theorem lampOn_runup (l : LampPolicy) (b : Bool) : lampOn l .runup b = if l = .auto then true else b := by
  cases l <;> rfl

theorem startDrive_started {h : HeadId} {p : Part} (c : Cause) (rest : (p.head h).drive.atRest = true) :
    (startDrive h c p).head h = (p.head h).started p.time.now p.ref.count := by
  rw [startDrive_head h c p rest, lampOn_runup]
  rfl

theorem startDrive_drives {h : HeadId} {p : Part} (c : Cause) (rest : (p.head h).drive.atRest = true) :
    Drives h ((p.head h).started p.time.now p.ref.count) 6 [headStateEvent h p.ref.count (p.head h) .runup c] p
      (startDrive h c p) where
  head := startDrive_started c rest
  frame := startDrive_frame h c p
  told l := by
    have entered := (((Drives.refl h p).modHead fun x => { x with cadence := x.cadence.started p.ref.count (p.head h).pos.frame
      }).enter (by decide) .runup c none).told l
    exact entered

theorem startHead_rest {h : HeadId} {p : Part} (c : Cause) (rest : (p.head h).drive.atRest = true) :
    startHead h c p = (tellStart h (startDrive h c p), .ok) := by
  unfold startHead
  revert rest
  cases (p.head h).drive <;> simp [DriveState.atRest]

theorem startHead_running {h : HeadId} {p : Part} (c : Cause) (running : (p.head h).drive.running = true) :
    startHead h c p = (p, .ok) := by
  unfold startHead
  revert running
  cases (p.head h).drive <;> simp [DriveState.running]

/-- A command for a head outside LOCAL, as what it does to the head. -/
theorem onHead_remote {w : Word} {h : HeadId} {p : Part} (f : HeadId → Part → Part × Status) (named : readHead w = some h)
    (remote : p.headLocal h = false) : onHead w (unlessLocal f) p = f h p :=
  (onHead_some _ _ named).trans (unlessLocal_remote f remote)

/-- Settles O15: the four classes of drive state are the arms of `startHead`. -/
theorem startCommand_settled : Obligations.StartCommand := by
  intro s w h running named remote
  have does : startCommand w s.part = startHead h .command s.part := onHead_remote _ named remote
  have refuses : ∀ st, startHead h .command s.part = (s.part, st) → Refuses (.start w) s st := fun st e =>
    .of_commanded (f := startCommand w) rfl running (does.trans e)
  intro x lamp
  refine ⟨fun at_ => ?rest, fun at_ => refuses _ (startHead_running _ ?run), fun at_ => refuses _ ?busy,
    fun at_ => refuses _ ?fault⟩
  case rest =>
    have rest : (s.part.head h).drive.atRest = true := by
      obtain e | e := at_ <;> simp only [e, show s.part.head h = x from rfl, DriveState.atRest]
    have acts := (startDrive_drives .command rest).tellStart
    refine .of_commanded (f := startCommand w) rfl running (does.trans (startHead_rest _ rest)) ?_
    exact ⟨acts.moving rfl, fun l => acts.tells l [_] rfl, acts.others, acts.frame.answered _⟩
  case run => obtain e | e | e := at_ <;> simp only [e, show s.part.head h = x from rfl, DriveState.running]
  case busy => obtain e | e | e | e := at_ <;> simp only [startHead, show s.part.head h = x from rfl, e]
  case fault => simp only [startHead, show s.part.head h = x from rfl, at_]

/-! ### A head as it enters a state in which it is not running -/

/-- A head that enters STOPPED (R16, R17). -/
def Head.halted (x : Head) : Head :=
  { x with
    drive := .stopped
    outputs := ⟨false, false, false, false, if x.lampPolicy = .auto then false else x.outputs.lamp⟩
    gapFrom := none, settleFrom := none, cueUp := none, park := none }

theorem Head.enter_stopped (x : Head) (now : Nat) : x.enter .stopped now = x.halted := by
  obtain ⟨_, ⟨_, _, _, _, lamp⟩, policy⟩ := x
  cases policy <;> cases lamp <;> rfl

theorem Head.enter_parked (x : Head) (now : Nat) : x.enter .parked now =
    { x with drive := .parked, outputs := ⟨false, false, false, false, x.outputs.lamp⟩, gapFrom := none, settleFrom := none
             cueUp := none } := by
  obtain ⟨_, ⟨_, _, _, _, lamp⟩, policy⟩ := x
  cases policy <;> cases lamp <;> rfl

/-- A head that enters a leg from an undriven state (R16, R27, R63, R65). -/
theorem Head.enter_leg {x : Head} {c : CueUp} (now : Nat) (far : Bool) (cue : x.cueUp = some c)
    (still : x.drive.driven = false) : x.enter (if far then .cueFast else .cueInch) now =
    { x with drive := if far then .cueFast else .cueInch, outputs := ⟨c.ahead, !c.ahead, far, false, x.outputs.lamp⟩
             gapFrom := some now, settleFrom := none, park := none } := by
  have fast : DriveState.cueFast.driven = true := rfl
  have inch : DriveState.cueInch.driven = true := rfl
  have cueing : DriveState.cueFast.cueing = true := rfl
  have inching : DriveState.cueInch.cueing = true := rfl
  have lamp : ∀ d : DriveState, d.cueing = true → lampOn x.lampPolicy d x.outputs.lamp = x.outputs.lamp := fun d => by
    cases d <;> cases x.lampPolicy <;> simp [DriveState.cueing, lampOn]
  cases far <;> simp [Head.enter, motor, gapStart, settleStart, still, fast, inch, cueing, inching, cue, lamp]

theorem Drives.enterIdle {h : HeadId} {x : Head} {k : Nat} {es : List Event} {p q : Part} (a : Drives h x k es p q)
    (free : k < Config.maxEvents) (idle : x.drive.running = false) (d : DriveState) (c : Cause) (fault : Option FaultKind) :
    Drives h (x.enter d p.time.now) (k + 6) (es ++ [headStateEvent h p.ref.count x d c]) p (enterDrive h d c fault q) := by
  have entered := a.enter free d c fault
  rwa [if_neg (by simp [idle])] at entered

/-! ### The settle expiry -/

theorem takeSettleExpiry_stopping {h : HeadId} {p : Part} (d : (p.head h).drive = .stopping) :
    takeSettleExpiry h p = Machine.settle (enterDrive h .stopped .settle none p) := by
  simp only [takeSettleExpiry, d]

theorem takeSettleExpiry_settling {h : HeadId} {p : Part} {c : CueUp} (d : (p.head h).drive = .settling)
    (cue : (p.head h).cueUp = some c) : takeSettleExpiry h p = decidePark h c p := by
  simp only [takeSettleExpiry, d, cue]

theorem settleExpired_of {h : HeadId} {p : Part} {t : Nat} (begun : (p.head h).settleFrom = some t)
    (late : t + (p.head h).settings.settleTime * 1000 ≤ p.time.now) : settleExpired h p = true := by
  simp only [settleExpired, begun, Option.any_some, late, decide_true]

/-! ### An event of its own moment -/

theorem elapse_unplanned {n : Nat} {p : Part} {h : HeadId} (u : p.unplanned h) : (elapse n p).unplanned h :=
  unplanned_of_front (fun i => front_of_island (elapse_island n p i)) u

section
variable {h : HeadId} {x : Head} {es : List Event} {dt : Nat} {p q : Part} (a : Acts h x es (elapse dt p) q)
include a

theorem Acts.sinceAlone (u : p.unplanned h) : q.head h = x := a.alone (elapse_unplanned u)

theorem Acts.sinceOthers : OthersSteered h p q := fun k n => elapse_head dt p k ▸ a.others k n

theorem Acts.sinceFrame : ChangesOnly (.time :: Block.scheduling) p q :=
  (a.frame.mono (List.subset_cons_self _ _)).elapsed (List.mem_cons_self ..)

theorem Acts.sinceTells (l : p.listens) (items : List EventItem)
    (is : es = items.map fun item => ({ source := .head h, stamp := p.ref.count, item := item } : Event)) :
    q.tells (.head h) items := a.tells (elapse_listens l) items (by rw [is, elapse_ref])

end

/-- The position of a cue-up head relative to its target, in perfs (R65). -/
def Head.parkError (x : Head) (c : CueUp) : Int :=
  x.pos.frame * x.settings.gauge.perfs + x.pos.phase - c.target * x.settings.gauge.perfs

/-- A head that enters PARKED at a target (R65, R66). -/
def Head.parkedAt (x : Head) (target : Int) : Head :=
  { x with
    drive := .parked
    outputs := ⟨false, false, false, false, x.outputs.lamp⟩
    gapFrom := none, settleFrom := none, cueUp := none, park := some ⟨target, x.pos⟩ }

/-- A head on another attempt at its target (R65). -/
def Head.retried (x : Head) (target : Int) (ahead : Bool) (now : Nat) : Head :=
  { x with
    drive := .cueInch
    outputs := ⟨ahead, !ahead, false, false, x.outputs.lamp⟩
    settleFrom := none, gapFrom := some now, cueUp := some ⟨target, ahead⟩, park := none
    attempts := x.attempts + 1 }

section
variable {h : HeadId} {x : Head} {p : Part} (head : p.head h = x)
include head

theorem halt_acts (c : Cause) (idle : x.drive.running = false) :
    Acts h x.halted [headStateEvent h p.ref.count x .stopped c] p (Machine.settle (enterDrive h .stopped c none p)) :=
  (Head.enter_stopped x _ ▸ (head ▸ Drives.refl h p).enterIdle (by decide) idle .stopped c none).settle

theorem decidePark_eq (c : CueUp) : decidePark h c p =
    if (x.parkError c).natAbs ≤ x.settings.parkTolerance then
      Machine.settle (enterDrive h .parked .settle none (p.modHead h fun y => { y with park := some ⟨c.target, y.pos⟩ }))
    else if x.attempts < 3 then
      Machine.settle (enterDrive h .cueInch .cueUp none (p.modHead h fun y =>
        { y with attempts := y.attempts + 1, cueUp := some ⟨c.target, decide (x.parkError c < 0)⟩ }))
    else raiseAlarm (.head h) .cueFault (lowWord (cueFaultDetail c.target (x.parkError c)))
      (highWord (cueFaultDetail c.target (x.parkError c))) (Machine.settle (enterDrive h .stopped .cueUp none p)) := by
  subst head
  rfl

theorem decidePark_within {c : CueUp} (idle : x.drive.running = false) (within : (x.parkError c).natAbs ≤ x.settings.parkTolerance) :
    Acts h (x.parkedAt c.target) [headStateEvent h p.ref.count x .parked .settle] p (decidePark h c p) := by
  have parked := ((head ▸ Drives.refl h p).modHead fun y => { y with park := some ⟨c.target, y.pos⟩ }).enterIdle (by decide) idle
    .parked .settle none
  rw [Head.enter_parked] at parked
  rw [decidePark_eq head, if_pos within]
  exact parked.settle

theorem decidePark_retry {c : CueUp} (at_ : x.drive = .settling) (beyond : x.settings.parkTolerance < (x.parkError c).natAbs)
    (more : x.attempts < 3) :
    Acts h (x.retried c.target (decide (x.parkError c < 0)) p.time.now) [headStateEvent h p.ref.count x .cueInch .cueUp] p
      (decidePark h c p) := by
  have again := ((head ▸ Drives.refl h p).modHead fun y =>
    { y with attempts := y.attempts + 1, cueUp := some ⟨c.target, decide (x.parkError c < 0)⟩ }).enterIdle (by decide)
      (show x.drive.running = false by rw [at_]; rfl) (if false then .cueFast else .cueInch) .cueUp none
  rw [Head.enter_leg (x := { x with attempts := _, cueUp := _ }) p.time.now false rfl
    (show x.drive.driven = false by rw [at_]; rfl)] at again
  rw [decidePark_eq head, if_neg (Nat.not_le.2 beyond), if_pos more]
  exact again.settle

theorem decidePark_failed {c : CueUp} (idle : x.drive.running = false)
    (beyond : x.settings.parkTolerance < (x.parkError c).natAbs) (spent : 3 ≤ x.attempts) :
    Acts h x.halted [headStateEvent h p.ref.count x .stopped .cueUp] p (decidePark h c p) ∧
      (decidePark h c p).alarms.shows (.head h) .cueFault = true := by
  rw [decidePark_eq head, if_neg (Nat.not_le.2 beyond), if_neg (Nat.not_lt.2 spent)]
  exact ⟨(halt_acts head .cueUp idle).raise _ _ _ _, raiseAlarm_alarms _ _ _ _ _⟩

end

/-- Settles O14: the arms of `takeSettleExpiry`, and for SETTLING the three outcomes of `decidePark`. -/
theorem settleExpiryEndsTheMotion : Obligations.SettleExpiryEndsTheMotion := by
  intro s dt t h running x lamp stopped begun late told
  have head : (elapse dt s.part).head h = x := elapse_head dt s.part h
  have now : (elapse dt s.part).time.now = s.part.time.now + dt := elapse_now dt s.part
  have due : settleExpired h (elapse dt s.part) = true := settleExpired_of (head ▸ begun) (by rw [head, now]; exact late)
  have completes : ∀ P : Part → Prop, P (takeSettleExpiry h (elapse dt s.part)) → Completes (.settleExpiry dt h) s P :=
    fun P a => .of_timed (due := settleExpired h) (f := takeSettleExpiry h) rfl running due a
  refine ⟨fun at_ => completes _ ?stopping, fun c at_ cue => completes _ ?settling⟩
  case stopping =>
    have acts := halt_acts head .settle (by rw [at_]; rfl)
    rw [takeSettleExpiry_stopping (head ▸ at_)]
    exact ⟨acts.head, acts.sinceAlone, fun l => acts.sinceTells l [_] (by rw [elapse_ref]; rfl), acts.sinceOthers, acts.sinceFrame⟩
  case settling =>
    have idle : x.drive.running = false := by rw [at_]; rfl
    rw [takeSettleExpiry_settling (head ▸ at_) (head ▸ cue)]
    obtain ⟨y, es, acts⟩ : ∃ y es, Acts h y es (elapse dt s.part) (decidePark h c (elapse dt s.part)) := by
      by_cases within : (x.parkError c).natAbs ≤ x.settings.parkTolerance
      · exact ⟨_, _, decidePark_within head idle within⟩
      · by_cases more : x.attempts < 3
        · exact ⟨_, _, decidePark_retry head at_ (Nat.not_le.1 within) more⟩
        · exact ⟨_, _, (decidePark_failed head idle (Nat.not_le.1 within) (Nat.not_lt.1 more)).1⟩
    refine ⟨fun within => ?parked, fun beyond more => ?retried, fun beyond spent => ?failed, acts.sinceOthers, acts.sinceFrame⟩
    case parked =>
      have parks := decidePark_within head idle within
      exact ⟨parks.head, parks.sinceAlone, fun l => parks.sinceTells l [_] (by rw [elapse_ref]; rfl)⟩
    case retried =>
      have retries := decidePark_retry head at_ beyond more
      exact ⟨(retries.moving rfl).trans (by rw [now]; rfl), fun l => retries.sinceTells l [_] (by rw [elapse_ref]; rfl)⟩
    case failed =>
      obtain ⟨fails, shown⟩ := decidePark_failed head idle beyond spent
      exact ⟨fails.head, fails.sinceAlone, fun l => fails.sinceTells l [_] (by rw [elapse_ref]; rfl), fun _ => shown⟩

end Sys2Proof.Machine
end

section
/-! PROOFS. The entry of one pair of the Alarm Table while other pairs are raised and cleared, and through the work of the
scheduler. -/

namespace Sys2Proof.Machine

/-! ### One pair beside others -/

theorem AlarmTable.find?_setState_ne {t : AlarmTable} {s a : AlarmSource} {k b : AlarmKind} (n : (s, k) ≠ (a, b)) (x : EntryState) :
    (t.setState a b x).find? s k = t.find? s k := by
  unfold AlarmTable.find? AlarmTable.setState
  induction t.entries with
  | nil => rfl
  | cons e rest ih =>
    by_cases pair : e.source = a ∧ e.kind = b
    · have other : ¬ (e.source = s ∧ e.kind = k) := fun m => n (by rw [← m.1, ← m.2, pair.1, pair.2])
      simp only [List.map_cons, if_pos pair, List.find?_cons, decide_eq_false other, ih]
    · simp only [List.map_cons, if_neg pair, List.find?_cons, ih]

theorem AlarmTable.find?_remove_ne {t : AlarmTable} {s a : AlarmSource} {k b : AlarmKind} (n : (s, k) ≠ (a, b)) :
    (t.remove a b).find? s k = t.find? s k := by
  unfold AlarmTable.find? AlarmTable.remove
  induction t.entries with
  | nil => rfl
  | cons e rest ih =>
    by_cases pair : e.source = a ∧ e.kind = b
    · have other : ¬ (e.source = s ∧ e.kind = k) := fun m => n (by rw [← m.1, ← m.2, pair.1, pair.2])
      rw [List.filter_cons_of_neg (by simp [pair]), ih, List.find?_cons, decide_eq_false other]
    · rw [List.filter_cons_of_pos (by simpa [imp_iff_not_or] using pair), List.find?_cons, List.find?_cons, ih]

theorem find?_append_ne {l : List AlarmEntry} {s : AlarmSource} {k : AlarmKind} {e : AlarmEntry} (n : (s, k) ≠ (e.source, e.kind)) :
    (l ++ [e]).find? (fun e => decide (e.source = s ∧ e.kind = k)) = l.find? (fun e => decide (e.source = s ∧ e.kind = k)) := by
  have other : ¬ (e.source = s ∧ e.kind = k) := fun m => n (by rw [m.1, m.2])
  rw [List.find?_append, List.find?_cons, decide_eq_false other]
  simp

/-- The table's entry of a pair is as given, and it holds at most `n` entries. -/
def Stands (s : AlarmSource) (k : AlarmKind) (r : Option AlarmEntry) (n : Nat) (p : Part) : Prop :=
  p.alarms.find? s k = r ∧ p.alarms.entries.length ≤ n

section
variable {s a : AlarmSource} {k b : AlarmKind} {r : Option AlarmEntry} {n : Nat} {p : Part}

theorem Stands.of_alarms {q : Part} (x : Stands s k r n p) (same : q.alarms = p.alarms) : Stands s k r n q := by
  rwa [Stands, same]

theorem Stands.post (x : Stands s k r n p) (c : AlarmSource) (e : EventItem) : Stands s k r n (post c e p) :=
  x.of_alarms (post_alarms c e p)

theorem Stands.mono {m : Nat} (x : Stands s k r n p) (le : n ≤ m) : Stands s k r m p := ⟨x.1, x.2.trans le⟩

theorem Stands.setState (x : Stands s k r n p) (other : (s, k) ≠ (a, b)) (y : EntryState) :
    Stands s k r n { p with alarms := p.alarms.setState a b y } :=
  ⟨(AlarmTable.find?_setState_ne other y).trans x.1, by simpa [AlarmTable.setState] using x.2⟩

theorem Stands.remove (x : Stands s k r n p) (other : (s, k) ≠ (a, b)) : Stands s k r n { p with alarms := p.alarms.remove a b } :=
  ⟨(AlarmTable.find?_remove_ne other).trans x.1, (List.length_filter_le _ _).trans x.2⟩

theorem Stands.judge (x : Stands s k r n p) : Stands s k r n (judgeHorn p) := x

theorem Stands.clear (x : Stands s k r n p) (other : (s, k) ≠ (a, b)) (d e : Word) : Stands s k r n (clearAlarm a b d e p) := by
  unfold clearAlarm
  refine Stands.judge ?_
  split
  · exact x
  · split
    · exact (x.setState other _).post _ _
    · exact (x.remove other).post _ _
    · exact x

/-- A raise of another pair while there is room. -/
theorem Stands.raise (x : Stands s k r n p) (other : (s, k) ≠ (a, b)) (room : n < Config.maxAlarms) (d e : Word) :
    Stands s k r (n + 1) (raiseAlarm a b d e p) := by
  have added : ∀ y, Stands s k r (n + 1) (addAlarm a b y d e p) := fun y => by
    unfold addAlarm
    rw [if_pos (x.2.trans_lt room)]
    refine Stands.of_alarms (p := { p with alarms := { p.alarms with entries := p.alarms.entries ++ [⟨a, b, y, p.ref.count⟩] } })
      ⟨(find?_append_ne other).trans x.1, ?_⟩ (post_alarms _ _ _)
    simpa using x.2
  unfold raiseAlarm
  refine Stands.judge ?_
  split
  · exact added _
  · exact (x.post _ _).mono (Nat.le_succ n)
  · exact added _
  · split
    · exact ((x.setState other _).post _ _).mono (Nat.le_succ n)
    · exact x.mono (Nat.le_succ n)
    · exact x.mono (Nat.le_succ n)

end

/-! ### An alarm that rests -/

theorem AlarmTable.rests_of_find? {t u : AlarmTable} {s : AlarmSource} {k : AlarmKind} (x : t.rests s k)
    (same : u.find? s k = t.find? s k) : u.rests s k := fun e found => x e (same ▸ found)

theorem AlarmTable.rests_remove {t : AlarmTable} {s : AlarmSource} {k : AlarmKind} (x : t.rests s k) (a : AlarmSource)
    (b : AlarmKind) : (t.remove a b).rests s k := by
  by_cases pair : (s, k) = (a, b)
  · cases pair
    exact t.remove_rests s k
  · exact AlarmTable.rests_of_find? x (AlarmTable.find?_remove_ne pair)

section
variable {s a : AlarmSource} {k b : AlarmKind} {p : Part}

theorem rests_of_alarms {q : Part} (x : p.alarms.rests s k) (same : q.alarms = p.alarms) : q.alarms.rests s k := same ▸ x

/-- What rests goes on resting as any alarm is cleared. -/
theorem rests_clearAlarm (x : p.alarms.rests s k) (d e : Word) : (clearAlarm a b d e p).alarms.rests s k := by
  by_cases pair : (s, k) = (a, b)
  · cases pair
    exact clearAlarm_rests s k d e p
  · exact AlarmTable.rests_of_find? x ((Stands.clear ⟨rfl, le_rfl⟩ pair d e).1)

/-- What rests goes on resting as another alarm is raised, also where a full table makes room for it. -/
theorem rests_raiseAlarm (x : p.alarms.rests s k) (other : (s, k) ≠ (a, b)) (d e : Word) :
    (raiseAlarm a b d e p).alarms.rests s k := by
  have judged : ∀ q : Part, q.alarms.rests s k → (judgeHorn q).alarms.rests s k := fun _ r => r
  have entered : ∀ y (q : Part), q.alarms.rests s k → (enterAlarm a b y d e q).alarms.rests s k := fun y q r => by
    unfold enterAlarm
    rw [post_alarms]
    exact AlarmTable.rests_of_find? r (find?_append_ne other)
  have added : ∀ y, (addAlarm a b y d e p).alarms.rests s k := fun y => by
    unfold addAlarm
    split
    · exact entered y p x
    · split
      · refine entered y _ ?_
        rw [post_alarms]
        exact AlarmTable.rests_remove x _ _
      · rw [post_alarms]
        exact x
  unfold raiseAlarm
  refine judged _ ?_
  split
  · exact added _
  · rw [post_alarms]
    exact x
  · exact added _
  · split
    · rw [post_alarms]
      exact AlarmTable.rests_of_find? x (AlarmTable.find?_setState_ne other _)
    · exact x
    · exact x

end

/-! ### The guards and the takes -/

theorem commit_alarms (i : IslandId) (s : Source) (c : Stamp) (o : Owner) (p : Part) : (commit i s c o p).alarms = p.alarms :=
  (commit_frame i s c o p .alarms (by simp [Block.committing, Block.linking, Block.posting])).symm

theorem fallBack_alarms (i : IslandId) (r : Reason) (p : Part) : (fallBack i r p).alarms = p.alarms :=
  (fallBack_frame i r p .alarms (by simp [Block.taking, Block.posting])).symm

/-- The guard of an island raises one alarm, or leaves the alarms alone. -/
theorem meetGuard_raises (i : IslandId) (p : Part) : (meetGuard i p).alarms = p.alarms ∨
    ∃ k q, q.alarms = p.alarms ∧ meetGuard i p = raiseAlarm (.island i) k 0 0 q := by
  unfold meetGuard takeGuard closeGuard
  dsimp only [id]
  split
  · split
    · exact .inl rfl
    · exact .inr ⟨_, _, by rw [fallBack_alarms, commit_alarms], rfl⟩
  · exact .inl rfl

theorem meetGuard_rests {h : HeadId} {k : AlarmKind} {p : Part} (i : IslandId) (x : p.alarms.rests (.head h) k) :
    (meetGuard i p).alarms.rests (.head h) k := by
  obtain same | ⟨b, q, same, raised⟩ := meetGuard_raises i p
  · exact same ▸ x
  · rw [raised]
    exact rests_raiseAlarm (same ▸ x) (by simp) 0 0

theorem meetGuards_rests {h : HeadId} {k : AlarmKind} {p : Part} (x : p.alarms.rests (.head h) k) :
    (meetGuards p).alarms.rests (.head h) k := meetGuard_rests .i2 (meetGuard_rests .i1 x)

theorem meetGuards_stands {h : HeadId} {k : AlarmKind} {r : Option AlarmEntry} {n : Nat} {p : Part}
    (x : Stands (.head h) k r n p) (room : n + 1 < Config.maxAlarms) : Stands (.head h) k r (n + 2) (meetGuards p) := by
  have one : ∀ (i : IslandId) (m : Nat) (q : Part), m < Config.maxAlarms → Stands (.head h) k r m q →
      Stands (.head h) k r (m + 1) (meetGuard i q) := fun i m q free y => by
    obtain same | ⟨b, u, same, raised⟩ := meetGuard_raises i q
    · exact (y.of_alarms same).mono (Nat.le_succ m)
    · rw [raised]
      exact (y.of_alarms same).raise (by simp) free 0 0
  exact one .i2 _ _ room (one .i1 _ _ (Nat.lt_of_succ_lt room) x)

/-- The alarms that a start of a head can end (R38, R135). -/
def AlarmKind.ofDrive (k : AlarmKind) : Bool := k = .lampFail || k = .lampStuck || k = .slowStart || k = .lockLoss

theorem lampEnds_ofDrive {on : Bool} {c : Option Condition} {k : AlarmKind} (e : lampEnds on c = some k) : k.ofDrive = true := by
  unfold lampEnds at e
  split at e <;> (try split at e) <;> cases e <;> rfl

section
variable {s : AlarmSource} {k : AlarmKind} {r : Option AlarmEntry} {n : Nat} (o : k.ofDrive = false)
include o

theorem lampChanged_stands {p : Part} (h : HeadId) (x : Stands s k r n p) : Stands s k r n (lampChanged h p) := by
  have set : ∀ a, Stands s k r n { p with analog := a } := fun _ => x
  unfold lampChanged
  split
  · exact x
  · dsimp only
    split
    · rename_i b ends
      exact (set _).clear (fun e => by cases e; exact nomatch o.symm.trans (lampEnds_ofDrive ends)) 0 0
    · exact set _

omit o in
theorem tensionIdle_alarms (h : HeadId) (p : Part) : (tensionIdle h p).alarms = p.alarms := by
  unfold tensionIdle
  dsimp only
  split <;> rfl

theorem stopMeasuring_stands {p : Part} (h : HeadId) (x : Stands s k r n p) : Stands s k r n (stopMeasuring h p) := by
  have noted : Stands s k r n (p.modCadence h Cadence.stopped) := x
  exact (noted.clear (fun e => by cases e; cases o) 0 0).clear (fun e => by cases e; cases o) 0 0

theorem startDrive_stands {p : Part} (h : HeadId) (c : Cause) (x : Stands s k r n p) : Stands s k r n (startDrive h c p) := by
  unfold startDrive enterDrive
  extract_lets frame old entered posted alarmed lamped idled
  have before : Stands s k r n entered := x
  have alarms : Stands s k r n alarmed := before.post _ _
  have lampKept : Stands s k r n lamped := ite_keeps alarms (lampChanged_stands o h alarms)
  have idleKept : Stands s k r n idled := ite_keeps (lampKept.of_alarms (tensionIdle_alarms h _)) lampKept
  exact ite_keeps (stopMeasuring_stands o h idleKept) idleKept

theorem stands_takes (i : IslandId) : TakesKeep i (Stands s k r n) where
  post a e p x := x.post a e
  front i f t p _ _ x := x.of_alarms rfl
  preds h _ f p _ _ x := x.of_alarms rfl
  start h y p _ _ x := startDrive_stands o h .scheduler x
  commit out l p x := x.of_alarms (commitTake_frame i out l p .alarms (by simp [Block.committing, Block.linking, Block.posting])).symm

end

end Sys2Proof.Machine
end

section
/-! PROOFS. The head commands: LAMP and CLEAR_FAULT, CUE_UP, SET_POSITION, ASSIGN_HEAD and CONFIGURE_HEAD (R31 to R35, R62, R63). -/

namespace Sys2Proof.Machine

/-! ### LAMP -/

/-- A head with its LAMP output switched (R32). -/
def Head.lit (x : Head) (on : Bool) (now : Nat) : Head :=
  { x with outputs := { x.outputs with lamp := on }, lampOnAt := if on && !x.outputs.lamp then some now else x.lampOnAt }

theorem Head.lit_same {x : Head} (now : Nat) : x.lit x.outputs.lamp now = x := by
  simp [Head.lit]

theorem switchLamp_head (h : HeadId) (on : Bool) (p : Part) : (switchLamp h on p).head h = (p.head h).lit on p.time.now := by
  unfold switchLamp
  dsimp only
  split
  · rename_i same
    rw [← same, Head.lit_same]
  · rename_i other
    rw [lampChanged_head, modHead_head, Head.lit]
    cases on <;> simp at other <;> simp [other]

theorem driving_commands (h : HeadId) : Block.status :: Block.driving h = [.status, .head h, .analog] ++ Block.alarming := rfl

/-! ### CLEAR_FAULT -/

theorem clearLatched_head (h k : HeadId) (p : Part) : (clearLatched h p).head k = p.head k :=
  ((clearLatched_frame h p) (.head k) (Block.head_alarming k)).symm

theorem Acts.clearLatched {h : HeadId} {x : Head} {es : List Event} {p q : Part} (a : Acts h x es p q) :
    Acts h x es p (clearLatched h q) := ((a.clear _ _ _ _).clear _ _ _ _).clear _ _ _ _

theorem clearLatched_rests (h : HeadId) (k : FaultKind) (p : Part) : (clearLatched h p).alarms.rests (.head h) k.alarm := by
  unfold clearLatched
  cases k with
  | tachLoss => exact rests_clearAlarm (rests_clearAlarm (clearAlarm_rests _ _ _ _ _) _ _) _ _
  | filmBreak => exact rests_clearAlarm (clearAlarm_rests _ _ _ _ _) _ _
  | jam => exact clearAlarm_rests _ _ _ _ _

theorem clearFaultCommand_of {h : HeadId} {w : Word} {p : Part} (named : readHead w = some h) : clearFaultCommand w p =
    if (p.head h).drive ≠ .fault then (p, .ok)
    else if (p.analog.tension.get h).condition.isSome then (p, .conditionPresent)
    else (meetGuards (clearLatched h (settleTakes (enterDrive h .stopped .command none
      (p.modHead h fun x => { x with fault := none })))), .ok) := onHead_some _ _ named

theorem lampCommand_of {h : HeadId} {w on : Word} {p : Part} (named : readHead w = some h) : lampCommand w on p =
    match readFlag on with
    | none => (p, .badArgument)
    | some b =>
      if (p.head h).drive = .fault then (p, .faultLatched)
      else (switchLamp h b (p.modHead h fun x => { x with lampPolicy := .manual }), .ok) := onHead_some _ _ named

/-- CLEAR_FAULT taken by head `h` (R31). -/
def releaseFault (h : HeadId) (p : Part) : Part :=
  clearLatched h (settleTakes (enterDrive h .stopped .command none (p.modHead h fun x => { x with fault := none })))

theorem releaseFault_acts {h : HeadId} {x : Head} {p : Part} (head : p.head h = x) (idle : x.drive.running = false) :
    Acts h { x.halted with fault := none } [headStateEvent h p.ref.count x .stopped .command] p (meetGuards (releaseFault h p)) := by
  have entered := ((head ▸ Drives.refl h p).modHead fun x => { x with fault := none }).enterIdle (by decide) idle .stopped .command
    none
  rw [Head.enter_stopped] at entered
  exact entered.settleTakes.clearLatched.guards

/-- Settles O17: LAMP is `switchLamp` under policy MANUAL, and CLEAR_FAULT an entry into STOPPED. -/
theorem lampAndClearFault : Obligations.LampAndClearFault := by
  intro s w on h running named x lamp stopped
  have ofLamp : ∀ st, lampCommand w on s.part = (s.part, st) → Refuses (.lamp w on) s st := fun st e =>
    .of_commanded (f := lampCommand w on) rfl running e
  have ofClear : ∀ st, clearFaultCommand w s.part = (s.part, st) → Refuses (.clearFault w) s st := fun st e =>
    .of_commanded (f := clearFaultCommand w) rfl running e
  refine ⟨fun b flag off => ?lamp, fun b flag fault => ofLamp _ ?_, fun bad => ofLamp _ ?_, fun off => ofClear _ ?_,
    fun fault present => ofClear _ ?_, fun fault clear => ?clear⟩
  case lamp =>
    refine .of_commanded (f := lampCommand w on) (q := switchLamp h b (s.part.modHead h fun x => { x with lampPolicy := .manual }))
      rfl running ?_ ⟨?_, ?_⟩
    · rw [lampCommand_of named, flag]
      exact if_neg off
    · exact (switchLamp_head h b _).trans (by rw [modHead_head]; rfl)
    · refine ChangesOnly.answered .ok (t := Block.driving h) ?_
      exact ((modHead_frame h _ _).mono (by simp [Block.driving])).trans (switchLamp_frame h b _)
  case clear =>
    have acts := releaseFault_acts (p := s.part) rfl (show x.drive.running = false by rw [fault]; rfl)
    have rests : ∀ k : FaultKind, (meetGuards (releaseFault h s.part)).alarms.rests (.head h) k.alarm := fun k =>
      meetGuards_rests (clearLatched_rests h k _)
    have does : clearFaultCommand w s.part = (meetGuards (releaseFault h s.part), .ok) := by
      rw [clearFaultCommand_of named, if_neg (not_not.2 fault), if_neg (by rw [clear]; nofun)]
      rfl
    generalize meetGuards (releaseFault h s.part) = q at acts rests does
    refine .of_commanded (f := clearFaultCommand w) rfl running does ⟨acts.head, acts.alone, rests, fun l => ?_, acts.others,
      acts.frame.answered _⟩
    exact acts.tells l [.headState .stopped .fault .command x.pos.frame] (by rw [← fault]; rfl)
  · rw [lampCommand_of named, flag]
    exact if_pos fault
  · rw [lampCommand_of named, bad]
  · rw [clearFaultCommand_of named, if_pos off]
  · rw [clearFaultCommand_of named, if_neg (not_not.2 fault), if_pos present]

/-! ### CUE_UP -/

theorem Head.steered_keeps {x y : Head} (a : x.steered y) : y.pos = x.pos ∧ y.settings = x.settings ∧ y.cues = x.cues := by
  obtain same | ⟨-, -, same⟩ := a <;> rw [same] <;> exact ⟨rfl, rfl, rfl⟩

/-- A head on the first leg of a cue-up (R63). -/
def Head.wound (x : Head) (target : Int) (ahead far : Bool) (now : Nat) : Head :=
  { x with
    drive := if far then .cueFast else .cueInch
    outputs := ⟨ahead, !ahead, far, false, x.outputs.lamp⟩
    attempts := 1, cueUp := some ⟨target, ahead⟩, park := none, gapFrom := some now, settleFrom := none }

/-- Whether a target lies beyond the approach distance, and whether it lies ahead (R63). -/
def Head.far (x : Head) (target : Int) : Bool := decide (x.settings.approach < (target - x.pos.frame).natAbs)

def Head.below (x : Head) (target : Int) : Bool :=
  decide (x.pos.frame * x.settings.gauge.perfs + x.pos.phase < target * x.settings.gauge.perfs)

/-- A head that stands at its target as a CUE_UP finds it (R63, R66). -/
def Head.parkedHere (x : Head) (target : Int) : Head := { x with park := some ⟨target, x.pos⟩, attempts := 0 }

theorem atRest_driven {d : DriveState} (rest : d.atRest = true) : d.driven = false := by
  cases d <;> first | rfl | cases rest

theorem atRest_running {d : DriveState} (rest : d.atRest = true) : d.running = false := by
  cases d <;> first | rfl | cases rest

theorem atRest_cases {d : DriveState} (rest : d.atRest = true) : d = .stopped ∨ d = .parked := by
  cases d <;> first | exact .inl rfl | exact .inr rfl | cases rest

section
variable {h : HeadId} {x : Head} {p : Part} (head : p.head h = x) (target : Int) (c : Cause)
include head

theorem beginCueUp_eq : beginCueUp h target c p =
    if x.pos = ⟨target, 0⟩ then
      Machine.settle (if x.drive = .parked then p.modHead h fun x => { x with park := some ⟨target, x.pos⟩, attempts := 0 }
        else enterDrive h .parked c none (p.modHead h fun x => { x with park := some ⟨target, x.pos⟩, attempts := 0 }))
    else Machine.settle (enterDrive h (if x.far target then .cueFast else .cueInch) c none
      (p.modHead h fun y => { y with cueUp := some ⟨target, x.below target⟩, attempts := 1 })) := by
  subst head
  simp only [Head.far, decide_eq_true_eq]
  rfl

/-- A head already at its target is PARKED there, with its HEAD_STATE when it was STOPPED. -/
theorem beginCueUp_here (rest : x.drive.atRest = true) (here : x.pos = ⟨target, 0⟩) :
    (x.drive = .parked → Acts h (x.parkedHere target) [] p (beginCueUp h target c p)) ∧
    (x.drive = .stopped → Acts h ((x.parkedHere target).enter .parked p.time.now)
      [headStateEvent h p.ref.count x .parked c] p (beginCueUp h target c p)) := by
  have set := (head ▸ Drives.refl h p).modHead fun x => { x with park := some ⟨target, x.pos⟩, attempts := 0 }
  rw [beginCueUp_eq head, if_pos here]
  refine ⟨fun parked => ?_, fun stopped => ?_⟩
  · rw [if_pos parked]
    exact set.settle
  · rw [if_neg (by rw [stopped]; nofun)]
    exact (set.enterIdle (by decide) (atRest_running rest) .parked c none).settle

theorem beginCueUp_away (rest : x.drive.atRest = true) (away : x.pos ≠ ⟨target, 0⟩) :
    Acts h (x.wound target (x.below target) (x.far target) p.time.now)
      [headStateEvent h p.ref.count x (if x.far target then .cueFast else .cueInch) c] p (beginCueUp h target c p) := by
  have leg := ((head ▸ Drives.refl h p).modHead fun y => { y with cueUp := some ⟨target, x.below target⟩, attempts := 1 }).enterIdle
    (by decide) (atRest_running rest) (if x.far target then .cueFast else .cueInch) c none
  rw [Head.enter_leg (x := { x with cueUp := _, attempts := _ }) p.time.now (x.far target) rfl (atRest_driven rest)] at leg
  rw [beginCueUp_eq head, if_neg away]
  exact leg.settle

/-- A CUE_UP keeps the position, the settings and the cues. -/
theorem beginCueUp_keepsPlace (rest : x.drive.atRest = true) : ∃ y es, Acts h y es p (beginCueUp h target c p) ∧
    y.pos = x.pos ∧ y.settings = x.settings ∧ y.cues = x.cues := by
  by_cases here : x.pos = ⟨target, 0⟩
  · obtain ⟨parked, stopped⟩ := beginCueUp_here head target c rest here
    obtain at_ | at_ := atRest_cases rest
    · exact ⟨_, _, stopped at_, rfl, rfl, rfl⟩
    · exact ⟨_, _, parked at_, rfl, rfl, rfl⟩
  · exact ⟨_, _, beginCueUp_away head target c rest here, rfl, rfl, rfl⟩

end

theorem Head.enter_parked_sound {x : Head} (target : Int) (stopped : x.drive = .stopped) (sound : x.sound = true) (now : Nat) :
    (x.parkedHere target).enter .parked now = { x.parkedHere target with drive := .parked } := by
  simp only [Head.sound, stopped, Bool.and_eq_true, decide_eq_true_eq, motor] at sound
  obtain ⟨⟨⟨⟨⟨⟨⟨⟨⟨⟨outputs, -⟩, -⟩, -⟩, cue⟩, gap⟩, settle⟩, -⟩, -⟩, -⟩, -⟩ := sound
  have noCue : x.cueUp = none := by simpa [DriveState.cueing] using cue
  have noGap : x.gapFrom = none := by simpa [DriveState.driven, DriveState.running, DriveState.cueing] using gap
  have noSettle : x.settleFrom = none := by simpa using settle
  rw [Head.enter_parked]
  simp only [Head.parkedHere, noCue, noGap, noSettle, Head.mk.injEq, and_true, true_and]
  exact outputs.symm

/-! The forms of a CUE_UP (R62). -/

theorem readFrame_eq_some {arg : BitVec 32} (low : -99999 ≤ arg.toInt) (high : arg.toInt ≤ 999999) : readFrame arg = some arg.toInt :=
  if_pos ⟨low, high⟩

theorem readFrame_eq_none {arg : BitVec 32} (out : arg.toInt < -99999 ∨ 999999 < arg.toInt) : readFrame arg = none :=
  if_neg (by simp only [Config.frameMin, Config.frameMax]; omega)

theorem inRange_eq_some {f : Int} (low : -99999 ≤ f) (high : f ≤ 999999) : inRange f = some f := if_pos ⟨low, high⟩

theorem inRange_eq_none {f : Int} (out : f < -99999 ∨ 999999 < f) : inRange f = none :=
  if_neg (by simp only [Config.frameMin, Config.frameMax]; omega)

/-- The target that a CUE_UP names: a frame, a displacement, or a cue (R62). -/
def cueUpTarget (form : Word) (arg : BitVec 32) (x : Head) : Option Int :=
  match form.toNat with
  | 0 => some arg.toInt
  | 1 => some (x.pos.frame + arg.toInt)
  | 2 => (findCue x.cues (arg.toNat % 65536)).map fun c => c.frame - x.settings.runupDistance
  | _ => none

section
variable {w form : Word} {arg : BitVec 32} {h : HeadId} {p : Part} (named : readHead w = some h) (remote : p.headLocal h = false)
include named remote

theorem cueUpCommand_of : cueUpCommand w form arg p =
    match form.toNat with
    | 0 => cueToFrame h (readFrame arg) p
    | 1 => cueToFrame h (inRange ((p.head h).pos.frame + arg.toInt)) p
    | 2 => cueToId h (lowWord arg).toNat .command p
    | _ => (p, .badArgument) := onHead_remote _ named remote

theorem cueUpCommand_form (bad : 2 < form.toNat) : cueUpCommand w form arg p = (p, .badArgument) := by
  rw [cueUpCommand_of named remote]
  split
  · omega
  · omega
  · omega
  · rfl

theorem cueUpCommand_cue (form2 : form = 2) : cueUpCommand w form arg p = cueToId h (arg.toNat % 65536) .command p := by
  rw [cueUpCommand_of named remote, form2]
  have low : (lowWord arg).toNat = arg.toNat % 65536 := by
    simp [lowWord]
  rw [← low]
  rfl

/-- A form other than TO_CUE gives a frame, or none when it lies outside the range. -/
theorem cueUpCommand_frame (other : form ≠ 2) {f : Int} (target : cueUpTarget form arg (p.head h) = some f) :
    cueUpCommand w form arg p = cueToFrame h (inRange f) p := by
  rw [cueUpCommand_of named remote]
  unfold cueUpTarget at target
  split at target
  · rename_i is
    cases target
    rfl
  · rename_i is
    cases target
    rfl
  · rename_i is
    exact absurd (BitVec.eq_of_toNat_eq is) other
  · cases target

end

theorem cueToFrame_none (h : HeadId) (p : Part) : cueToFrame h none p = (p, .badArgument) := rfl

theorem cueToFrame_some (h : HeadId) (f : Int) (p : Part) : cueToFrame h (some f) p =
    if (p.head h).drive.atRest then (beginCueUp h f .command p, .ok) else (p, .busy) := rfl

theorem cueToId_eq (h : HeadId) (id : Nat) (c : Cause) (p : Part) : cueToId h id c p =
    if (p.head h).drive.atRest = false then (p, .busy)
    else
      match (p.head h).cueTarget id with
      | none => (p, .notFound)
      | some t => if t < -99999 then (p, .badArgument) else (beginCueUp h t c p, .ok) := by
  simp only [cueToId, Bool.not_eq_true]
  rfl

/-- A CUE_UP taken: the three forms lead to `beginCueUp` with their target (R62, R63). -/
theorem cueUpCommand_begins {w form : Word} {arg : BitVec 32} {h : HeadId} {p : Part} {f : Int} (named : readHead w = some h)
    (remote : p.headLocal h = false) (target : cueUpTarget form arg (p.head h) = some f) (low : -99999 ≤ f) (high : f ≤ 999999)
    (rest : (p.head h).drive.atRest = true) : cueUpCommand w form arg p = (beginCueUp h f .command p, .ok) := by
  by_cases form2 : form = 2
  · rw [cueUpCommand_cue named remote form2, cueToId_eq, if_neg (by rw [rest]; nofun)]
    rw [form2] at target
    rw [show (p.head h).cueTarget (arg.toNat % 65536) = some f from target]
    exact if_neg (by omega)
  · rw [cueUpCommand_frame named remote form2 target, inRange_eq_some low high, cueToFrame_some, if_pos rest]

/-- Settles O21: the refusals are read off the three forms, and the rest is `beginCueUp`. -/
theorem cueUpCommand_settled : Obligations.CueUpCommand := by
  intro s w form arg h running named remote x cue target
  have refuses : ∀ st, cueUpCommand w form arg s.part = (s.part, st) → Refuses (.cueUp w form arg) s st := fun st e =>
    .of_commanded (f := cueUpCommand w form arg) rfl running e
  have cued : form = 2 → cueUpCommand w form arg s.part = cueToId h (arg.toNat % 65536) .command s.part :=
    cueUpCommand_cue named remote
  have framed : ∀ f, form ≠ 2 → target = some f → cueUpCommand w form arg s.part = cueToFrame h (inRange f) s.part :=
    fun f other e => cueUpCommand_frame named remote other e
  refine ⟨fun bad => refuses _ (cueUpCommand_form named remote bad), fun form2 moving => refuses _ ?_,
    fun form2 none rest => refuses _ ?_, fun f is => ⟨fun other out => refuses _ ?_, fun other low high moving => refuses _ ?_,
      fun form2 low rest => refuses _ ?_, fun low high rest => ?begun⟩⟩
  case begun =>
    have does : cueUpCommand w form arg s.part = (beginCueUp h f .command s.part, .ok) :=
      cueUpCommand_begins named remote is low high rest
    obtain ⟨y, es, acts, pos, settings, cues⟩ := beginCueUp_keepsPlace (p := s.part) rfl f .command rest
    obtain ⟨samePos, sameSettings, sameCues⟩ := Head.steered_keeps acts.head
    have here : x.pos = ⟨f, 0⟩ → _ := beginCueUp_here (p := s.part) rfl f .command rest
    have away : x.pos ≠ ⟨f, 0⟩ → _ := beginCueUp_away (p := s.part) rfl f .command rest
    generalize beginCueUp h f .command s.part = q at does acts samePos sameSettings sameCues here away
    refine .of_commanded (f := cueUpCommand w form arg) rfl running does ?_
    refine ⟨fun at_ sound => ?there, fun at_ stopped l => ?told, fun off => ?leg, samePos.trans pos, sameSettings.trans settings,
      sameCues.trans cues, acts.others, acts.frame.answered _⟩
    case there =>
      obtain ⟨fromParked, fromStopped⟩ := here at_
      obtain stopped | parked : x.drive = .stopped ∨ x.drive = .parked := atRest_cases rest
      · have parks := fromStopped stopped
        rw [Head.enter_parked_sound f stopped sound] at parks
        exact ⟨parks.head, parks.alone⟩
      · have stays := fromParked parked
        have same : x.parkedHere f = { x.parkedHere f with drive := .parked } := by
          rw [← parked]
          rfl
        rw [same] at stays
        exact ⟨stays.head, stays.alone⟩
    case told =>
      exact ((here at_).2 stopped).tells l [.headState .parked .stopped .command f] (by
        rw [← stopped, ← show x.pos.frame = f by rw [at_]]
        rfl)
    case leg =>
      have leg := away off
      exact ⟨(leg.moving (by cases h : (s.part.head _).far f <;> rfl)).trans rfl, fun l => leg.tells l [_] rfl⟩
  · rw [cued form2, cueToId_eq, if_pos moving]
  · have noCue : (s.part.head h).cueTarget (arg.toNat % 65536) = Option.none := by
      rw [Head.cueTarget, show findCue (s.part.head h).cues _ = Option.none from none]
      rfl
    rw [cued form2, cueToId_eq, if_neg (by rw [rest]; nofun), noCue]
  · rw [framed f other is, inRange_eq_none out, cueToFrame_none]
  · rw [framed f other is, inRange_eq_some low high, cueToFrame_some, if_neg (by rw [moving]; nofun)]
  · have cueAt : (s.part.head h).cueTarget (arg.toNat % 65536) = some f := by
      subst form2
      exact is
    rw [cued form2, cueToId_eq, if_neg (by rw [rest]; nofun), cueAt]
    exact if_pos low

end Sys2Proof.Machine
end

section
/-! PROOFS. What an island keeps as the takes are settled, and the commands that change a head's settings, its assignment and its
position (R33 to R35). -/

namespace Sys2Proof.Machine

/-! ### What settling leaves of an island -/

/-- What no evaluation of a take changes of an island: its settings, its authority, its source and its preset. -/
def Island.fixed (x : Island) : IslandSettings × Authority × Source × Source := (x.settings, x.authority, x.onAir, x.preset)

/-- Island `i` is as given in what no evaluation changes. -/
def Fixed (i : IslandId) (f : IslandSettings × Authority × Source × Source) (p : Part) : Prop := (p.island i).fixed = f

theorem Island.modFront_fixed (f : Take → Take) (x : Island) : (x.modFront f).fixed = x.fixed := by
  unfold Island.modFront
  split <;> rfl

section
variable {i : IslandId} {f : IslandSettings × Authority × Source × Source}

theorem Fixed.of_island {p q : Part} (a : Fixed i f p) (same : q.island i = p.island i) : Fixed i f q := by
  rwa [Fixed, same]

theorem Fixed.modIsland {p : Part} (a : Fixed i f p) (j : IslandId) (g : Island → Island) (keeps : ∀ x, (g x).fixed = x.fixed) :
    Fixed i f (p.modIsland j g) := by
  by_cases same : i = j
  · subst same
    rw [Fixed, modIsland_island, keeps]
    exact a
  · exact a.of_island (modIsland_island_ne same g p)

theorem Fixed.modFront {p : Part} (a : Fixed i f p) (j : IslandId) (g : Take → Take) : Fixed i f (p.modFront j g) :=
  a.modIsland j _ (Island.modFront_fixed g)

theorem Fixed.commit {p : Part} (a : Fixed i f p) (j : IslandId) (s : Source) (c : Stamp) (o : Owner) :
    Fixed i f (commit j s c o p) := by
  by_cases same : i = j
  · subst same
    rw [Fixed, commit_island]
    exact a
  · exact a.of_island (commit_island_ne same s c o p)

theorem Fixed.post {p : Part} (a : Fixed i f p) (s : AlarmSource) (e : EventItem) : Fixed i f (post s e p) :=
  a.of_island (post_island s e p i)

theorem fixed_takes (j : IslandId) : TakesKeep j (Fixed i f) where
  post s e _ a := a.post s e
  front j g _ _ _ _ a := a.modFront j g
  preds h _ g p _ _ a := by
    have island : (mapPreds h g p).island i = Island.mapPreds h g (p.island i) := by simp [mapPreds]
    rw [Fixed, island]
    exact a
  start h x p _ _ a := a.of_island (startDrive_island h .scheduler p i)
  commit o l p a := by
    unfold commitTake
    split
    · exact a
    · exact ((a.commit j _ _ .take).modFront j _).post _ _

theorem endFront_fixed {p : Part} (a : Fixed i f p) (j : IslandId) (o : TakeOutcome) (r : Reason) : Fixed i f (endFront j o r p) := by
  unfold endFront
  split
  · exact a
  · exact (a.modIsland j _ (by exact fun _ => rfl)).post _ _

theorem meetGuard_fixed {p : Part} (a : Fixed i f p) (j : IslandId) : Fixed i f (meetGuard j p) := by
  have closed : ∀ c r, Fixed i f (raiseFallBack j r (fallBack j r (Machine.commit j .standby c .island p))) := fun c r => by
    refine Fixed.of_island (p := fallBack j r (Machine.commit j .standby c .island p)) ?_ (raiseAlarm_island _ _ _ _ _ i)
    unfold fallBack
    split
    · exact endFront_fixed (a.commit j _ _ _) j _ _
    · exact a.commit j _ _ _
  unfold meetGuard takeGuard closeGuard
  dsimp only [id]
  split
  · split
    · exact a
    · exact closed _ _
  · exact a

theorem settle_fixed {p : Part} (a : Fixed i f p) : Fixed i f (settle p) :=
  meetGuard_fixed (meetGuard_fixed (settleTakes_takes fixed_takes a) .i1) .i2

end

/-- Settling keeps an island's settings, authority, source and preset. -/
theorem settle_island_fixed (i : IslandId) (p : Part) : ((settle p).island i).fixed = (p.island i).fixed :=
  settle_fixed (f := (p.island i).fixed) rfl

/-! ### ASSIGN_HEAD -/

theorem checkPreset_cases (i : IslandId) (p : Part) : checkPreset i p = p ∨
    checkPreset i p = p.modIsland i fun x => { x with preset := .standby } := by
  unfold checkPreset
  split
  · split
    · exact .inl rfl
    · exact .inr rfl
  · exact .inl rfl
  · exact .inl rfl

theorem checkPreset_head (i : IslandId) (p : Part) (h : HeadId) : (checkPreset i p).head h = p.head h := by
  obtain e | e := checkPreset_cases i p <;> rw [e] <;> rfl

theorem checkPreset_evt (i : IslandId) (p : Part) : (checkPreset i p).evt = p.evt := by
  obtain e | e := checkPreset_cases i p <;> rw [e] <;> rfl

theorem checkPreset_sched (i : IslandId) (p : Part) : Scheduled p (checkPreset i p) := by
  obtain e | e := checkPreset_cases i p <;> rw [e]
  · exact .refl p
  · exact modIsland_sched i _ p

theorem checkPreset_island_ne {i j : IslandId} (n : j ≠ i) (p : Part) : (checkPreset i p).island j = p.island j := by
  obtain e | e := checkPreset_cases i p <;> rw [e]
  exact modIsland_island_ne n _ p

theorem checkPreset_front (i : IslandId) (p : Part) (j : IslandId) : (checkPreset i p).front j = p.front j := by
  obtain e | e := checkPreset_cases i p <;> rw [e]
  by_cases same : j = i
  · subst same
    rw [Part.front, modIsland_island]
    rfl
  · exact front_of_island (modIsland_island_ne same _ p)

theorem checkPreset_gone {i : IslandId} {h : HeadId} {p : Part} (preset : (p.island i).preset = .head h)
    (gone : p.isAssigned i h = false) : ((checkPreset i p).island i).preset = .standby := by
  have e : checkPreset i p = p.modIsland i fun x => { x with preset := .standby } := by
    simp only [checkPreset, preset, gone]
    rfl
  rw [e, modIsland_island]

/-- Both presets after a change of assignment (R91). -/
def checkPresets (p : Part) : Part := checkPreset .i2 (checkPreset .i1 p)

theorem checkPresets_gone {i : IslandId} {h : HeadId} {p : Part} (preset : (p.island i).preset = .head h)
    (gone : p.isAssigned i h = false) : ((checkPresets p).island i).preset = .standby := by
  unfold checkPresets
  cases i with
  | i1 =>
    rw [checkPreset_island_ne (by decide)]
    exact checkPreset_gone preset gone
  | i2 =>
    refine checkPreset_gone (h := h) ?_ ?_
    · rw [checkPreset_island_ne (by decide)]
      exact preset
    · rw [Part.isAssigned, checkPreset_head]
      exact gone

theorem Holds.of_evt {es : List Event} {p q : Part} (a : Holds es p) (same : q.evt = p.evt) : Holds es q := by
  rwa [Holds, same]

theorem assignHead_acts (h : HeadId) (a : Option Assignment) (p : Part) :
    Acts h { p.head h with assigned := a } [] p (assignHead h a p) := by
  have set := (Drives.refl h p).modHead fun x => { x with assigned := a }
  refine set.scheduled (((checkPreset_sched .i1 _).trans (checkPreset_sched .i2 _)).trans (settle_sched _)) (fun u => ?_) fun b => ?_
  · have presets := unplanned_of_front (q := checkPresets (p.modHead h fun x => { x with assigned := a }))
      (fun i => (checkPreset_front _ _ _).trans (checkPreset_front _ _ _)) u
    exact (settle_unplanned presets).trans ((checkPreset_head _ _ _).trans (checkPreset_head _ _ _))
  · exact settle_keeps (holds_reports []) (b.of_evt ((checkPreset_evt _ _).trans (checkPreset_evt _ _)))

theorem assignHead_preset {i : IslandId} {h : HeadId} {a : Option Assignment} {p : Part} (preset : (p.island i).preset = .head h)
    (gone : ∀ b, a = some b → b.island ≠ i) : ((assignHead h a p).island i).preset = .standby := by
  have kept := congrArg (·.2.2.2) (settle_island_fixed i (checkPresets (p.modHead h fun x => { x with assigned := a })))
  refine Eq.trans kept (checkPresets_gone (h := h) preset ?_)
  rw [Part.isAssigned, modHead_head]
  cases a with
  | none => rfl
  | some b => simpa using gone b rfl

/-- The port that a word names (R34, R186). -/
theorem readPort_cases (port : Word) : (port = 0 ∨ 4 < port.toNat) ∧ readPort port = none ∨
    ¬ (port = 0 ∨ 4 < port.toNat) ∧ readPort port =
      some (if port = 1 then .p1 else if port = 2 then .p2 else if port = 3 then .p3 else .p4) := by
  have is : ∀ n : Nat, n < 65536 → port.toNat = n → port = BitVec.ofNat 16 n := fun n small e =>
    BitVec.eq_of_toNat_eq (by rw [e, BitVec.toNat_ofNat, Nat.mod_eq_of_lt small])
  by_cases beyond : 4 < port.toNat
  · refine .inl ⟨.inr beyond, ?_⟩
    obtain ⟨n, e⟩ := Nat.exists_eq_add_of_lt beyond
    rw [readPort, e, show 4 + n + 1 = n + 5 by omega]
    rfl
  · obtain e | e | e | e | e : port.toNat = 0 ∨ port.toNat = 1 ∨ port.toNat = 2 ∨ port.toNat = 3 ∨ port.toNat = 4 := by omega
    · exact .inl ⟨.inl (is 0 (by decide) e), by rw [is 0 (by decide) e]; rfl⟩
    all_goals
      rw [is _ (by decide) e]
      exact .inr (by decide)

/-- The island that a word other than 0 names. -/
theorem readIsland_cases {island : Word} (n : island ≠ 0) : 2 < island.toNat ∧ readIsland island = none ∨
    ¬ 2 < island.toNat ∧ readIsland island = some (if island = 1 then .i1 else .i2) := by
  have is : ∀ n : Nat, n < 65536 → island.toNat = n → island = BitVec.ofNat 16 n := fun n small e =>
    BitVec.eq_of_toNat_eq (by rw [e, BitVec.toNat_ofNat, Nat.mod_eq_of_lt small])
  by_cases beyond : 2 < island.toNat
  · refine .inl ⟨beyond, ?_⟩
    obtain ⟨n, e⟩ := Nat.exists_eq_add_of_lt beyond
    rw [readIsland, e, show 2 + n + 1 = n + 3 by omega]
    rfl
  · obtain e | e | e : island.toNat = 0 ∨ island.toNat = 1 ∨ island.toNat = 2 := by omega
    · exact absurd (is 0 (by decide) e) n
    all_goals
      rw [is _ (by decide) e]
      exact .inr (by decide)

/-- The assignment that the words of an ASSIGN_HEAD name (R34). -/
theorem readAssignment_cases (island port : Word) :
    (2 < island.toNat ∨ island ≠ 0 ∧ (port = 0 ∨ 4 < port.toNat)) ∧ readAssignment island port = none ∨
    ¬ (2 < island.toNat ∨ island ≠ 0 ∧ (port = 0 ∨ 4 < port.toNat)) ∧ readAssignment island port =
      some (if island = 0 then none else some
        { island := if island = 1 then .i1 else .i2
          port := if port = 1 then .p1 else if port = 2 then .p2 else if port = 3 then .p3 else .p4 }) := by
  by_cases zero : island = 0
  · subst zero
    exact .inr ⟨by simp, rfl⟩
  · unfold readAssignment
    rw [if_neg zero, if_neg zero]
    obtain ⟨bad, none⟩ | ⟨good, some⟩ := readIsland_cases zero
    · exact .inl ⟨.inl bad, by rw [none]⟩
    · obtain ⟨badPort, none⟩ | ⟨goodPort, port⟩ := readPort_cases port
      · exact .inl ⟨.inr ⟨zero, badPort⟩, by rw [some, none]⟩
      · exact .inr ⟨fun bad => bad.elim good fun b => goodPort b.2, by rw [some, port]⟩

theorem onAir_iff {p : Part} {h : HeadId} : p.onAir h = true ↔ ∃ i, (p.island i).onAir = .head h := by
  simp only [Part.onAir, Bool.or_eq_true, decide_eq_true_eq]
  exact ⟨fun a => a.elim (⟨.i1, ·⟩) (⟨.i2, ·⟩), fun ⟨i, a⟩ => by cases i <;> [exact .inl a; exact .inr a]⟩

theorem incomingNamed_iff {p : Part} {h : HeadId} : p.incomingNamed h = true ↔ ∃ i, ∃ t ∈ (p.island i).takes, t.incoming = .head h := by
  simp only [Part.incomingNamed, Bool.or_eq_true, List.any_eq_true, decide_eq_true_eq]
  exact ⟨fun a => a.elim (⟨.i1, ·⟩) (⟨.i2, ·⟩), fun ⟨i, a⟩ => by cases i <;> [exact .inl a; exact .inr a]⟩

theorem portTaken_iff {p : Part} {h : HeadId} {a : Assignment} : p.portTaken h a = true ↔
    (p.island a.island).settings.standbyPort = a.port ∨ ∃ k, k ≠ h ∧ (p.head k).assigned = some a := by
  simp only [Part.portTaken, Bool.or_eq_true, List.any_eq_true, decide_eq_true_eq, Bool.and_eq_true]
  exact or_congr Iff.rfl ⟨fun ⟨k, _, x⟩ => ⟨k, x⟩, fun ⟨k, x⟩ => ⟨k, by cases k <;> decide, x⟩⟩

theorem unplanned_of_named {p : Part} {h : HeadId} (n : ¬ ∃ i, ∃ t ∈ (p.island i).takes, t.incoming = .head h) : p.unplanned h :=
  fun i t active incoming => n ⟨i, t, List.mem_of_mem_head? (Island.active_eq_some.1 active).1, incoming⟩

/-- Settles O19: the checks of ASSIGN_HEAD in their order, and then `assignHead`. -/
theorem assignHeadCommand_settled : Obligations.AssignHeadCommand := by
  intro s w island port h running named remote authority x bad a onAir inTake taken
  have notLocal : (readIsland island).any s.part.inLocal = false := by
    cases e : readIsland island with
    | none => rfl
    | some i => exact authority i e
  have does : assignHeadCommand w island port s.part =
      match readAssignment island port with
      | none => (s.part, .badArgument)
      | some a =>
        if s.part.onAir h then (s.part, .onAir)
        else if s.part.incomingNamed h then (s.part, .inUse)
        else if a.any (s.part.portTaken h) then (s.part, .portTaken)
        else (assignHead h a s.part, .ok) := by
    refine (onHead_remote _ named remote).trans ?_
    rw [notLocal]
    rfl
  have read : bad ∧ readAssignment island port = none ∨ ¬ bad ∧ readAssignment island port = some a :=
    readAssignment_cases island port
  have takenIff : a.any (s.part.portTaken h) = true ↔ taken := by
    rw [Option.any_eq_true]
    exact ⟨fun ⟨b, is, t⟩ => ⟨b, is, portTaken_iff.1 t⟩, fun ⟨b, is, t⟩ => ⟨b, is, portTaken_iff.2 t⟩⟩
  have refuses : ∀ st, assignHeadCommand w island port s.part = (s.part, st) → Refuses (.assignHead w island port) s st :=
    fun st e => .of_commanded (f := assignHeadCommand w island port) rfl running e
  have good : ¬ bad → readAssignment island port = some a := fun n => (read.resolve_left fun b => n b.1).2
  refine ⟨fun b => refuses _ ?_, fun n on => refuses _ ?_, fun n off use => refuses _ ?_, fun n off free t => refuses _ ?_,
    fun n off free clear => ?assigned⟩
  case assigned =>
    have acts := assignHead_acts h a s.part
    have presets : ∀ i, (s.part.island i).preset = .head h → (∀ b, a = some b → b.island ≠ i) →
        ((assignHead h a s.part).island i).preset = .standby := fun i => assignHead_preset
    have ends : assignHeadCommand w island port s.part = (assignHead h a s.part, .ok) := by
      rw [does, good n]
      dsimp only
      rw [if_neg (mt onAir_iff.1 off), if_neg (mt incomingNamed_iff.1 free), if_neg (mt takenIff.1 clear)]
    generalize assignHead h a s.part = q at acts presets ends
    exact .of_commanded (f := assignHeadCommand w island port) rfl running ends
      ⟨acts.alone (unplanned_of_named free), presets, acts.others, acts.frame.answered _⟩
  · rw [does, (read.resolve_right fun n => n.1 b).2]
  · rw [does, good n]
    exact if_pos (onAir_iff.2 on)
  · rw [does, good n]
    dsimp only
    rw [if_neg (mt onAir_iff.1 off), if_pos (incomingNamed_iff.2 use)]
  · rw [does, good n]
    dsimp only
    rw [if_neg (mt onAir_iff.1 off), if_neg (mt incomingNamed_iff.1 free), if_pos (takenIff.2 t)]

end Sys2Proof.Machine
end

section
/-! PROOFS. SET_POSITION and CONFIGURE_HEAD (R33, R35). -/

namespace Sys2Proof.Machine

/-! ### COUNT_LIMIT at a jump -/

/-- A head with its COUNT_LIMIT record ended (R19). -/
def Head.unlimited (x : Head) : Head := { x with countLimit := none }

/-- The COUNT_LIMIT of a head stays where the position is at the limit at which it was raised (R19). -/
def Head.limited (x : Head) : Bool := x.countLimit.any fun s => decide (x.pos = s.position x.settings.gauge)

theorem Head.steered_unlimited {x y : Head} (a : x.steered y) : x.unlimited.steered y.unlimited := by
  obtain same | ⟨rest, drive, same⟩ := a
  · exact .inl (congrArg _ same)
  · exact .inr ⟨rest, drive, congrArg Head.unlimited same⟩

theorem Head.steered_limit {x y : Head} (a : x.steered y) : y.countLimit = x.countLimit ∧ y.limited = x.limited := by
  obtain same | ⟨-, -, same⟩ := a <;> rw [same] <;> exact ⟨rfl, rfl⟩

theorem leaveLimit_eq (h : HeadId) (p : Part) :
    leaveLimit h p = if (p.head h).countLimit.isSome = true ∧ (p.head h).limited = false then endLimit h p else p := by
  unfold leaveLimit
  dsimp only
  split
  · rename_i side limit
    simp only [limit, Head.limited, Option.isSome_some, Option.any_some, decide_eq_false_iff_not, true_and, ite_not]
  · rename_i limit
    rw [limit, if_neg (by simp)]

theorem endLimit_head (h : HeadId) (p : Part) : (endLimit h p).head h = (p.head h).unlimited := by
  unfold endLimit
  rw [clearAlarm_head, modHead_head]
  rfl

theorem endLimit_head_ne {h k : HeadId} (n : k ≠ h) (p : Part) : (endLimit h p).head k = p.head k := by
  unfold endLimit
  rw [clearAlarm_head]
  exact Part.modHead_get_ne p h k _ n

theorem endLimit_holds {es : List Event} (h : HeadId) {p : Part} (a : Holds es p) : Holds es (endLimit h p) :=
  endLimit_keeps (holds_drive es) h a

theorem leaveLimit_scheduling (h : HeadId) (p : Part) : ChangesOnly Block.scheduling p (leaveLimit h p) :=
  (leaveLimit_frame h p).mono (driving_scheduling h)

section
variable {h : HeadId} {x : Head} {es : List Event} {p q : Part} (a : Acts h x es p q)
include a

theorem Acts.leaveLimit : Acts h (if x.countLimit.isSome = true ∧ x.limited = false then x.unlimited else x) es p (leaveLimit h q) := by
  obtain ⟨limit, limited⟩ := Head.steered_limit a.head
  have frame := a.frame.trans (leaveLimit_scheduling h q)
  rw [leaveLimit_eq] at frame ⊢
  rw [limit, limited] at frame ⊢
  split
  · rename_i ends
    rw [if_pos ends] at frame
    exact
      { head := endLimit_head h q ▸ Head.steered_unlimited a.head
        alone := fun u => (endLimit_head h q).trans (congrArg _ (a.alone u))
        others := fun k n => endLimit_head_ne n q ▸ a.others k n
        frame := frame
        told := fun l => endLimit_holds h (a.told l) }
  · exact a

theorem Acts.leaveLimit_rests (limit : x.countLimit.isSome = true) (away : x.limited = false) :
    (Machine.leaveLimit h q).alarms.rests (.head h) .countLimit := by
  obtain ⟨same, limited⟩ := Head.steered_limit a.head
  rw [leaveLimit_eq, if_pos ⟨same ▸ limit, limited.trans away⟩]
  exact clearAlarm_rests _ _ _ _ _

theorem Acts.leaveLimit_stays (stays : x.limited = true) : Machine.leaveLimit h q = q := by
  rw [leaveLimit_eq, (Head.steered_limit a.head).2, stays]
  simp

end

/-! ### SET_POSITION -/

/-- A head whose cues follow its position, with a clear mark latch (R59, R67). -/
def Head.followed (x : Head) : Head := { x with cues := x.cues.map (Cue.follow x.pos.frame), mark := none }

theorem Drives.followCues {h : HeadId} {x : Head} {k : Nat} {es : List Event} {p q : Part} (a : Drives h x k es p q) :
    Drives h x.followed k es p (followCues h q) := a.modHead Head.followed

theorem Cue.follow_same (f : Int) (c : Cue) : (c.follow f).id = c.id ∧ (c.follow f).frame = c.frame := by
  unfold Cue.follow
  split
  · exact ⟨rfl, rfl⟩
  · split <;> exact ⟨rfl, rfl⟩

theorem Cue.follow_passed (f : Int) (c : Cue) : (c.follow f).passed = decide (c.frame ≤ f) := by
  unfold Cue.follow
  split
  · rename_i passed
    exact (decide_eq_true passed).symm
  · rename_i ahead
    rw [decide_eq_false ahead]
    split
    · rfl
    · rename_i pending
      exact Bool.not_eq_true _ ▸ pending

theorem Head.followed_ids (x : Head) : x.followed.cues.map (·.id) = x.cues.map (·.id) := by
  simp only [Head.followed, List.map_map]
  exact List.map_congr_left fun c _ => (c.follow_same _).1

theorem Head.followed_passed {x : Head} : ∀ c ∈ x.followed.cues, c.passed = decide (c.frame ≤ x.pos.frame) := by
  intro c member
  obtain ⟨b, -, rfl⟩ := List.mem_map.1 member
  rw [Cue.follow_passed, (b.follow_same _).2]

/-- A head placed at a frame (R33). -/
def Head.placed (x : Head) (f : Int) : Head :=
  { x with pos := ⟨f, 0⟩, park := if x.drive = .parked then some ⟨f, ⟨f, 0⟩⟩ else x.park }

theorem setPosition_before (h : HeadId) (f : Int) (p : Part) : Acts h ((p.head h).placed f).followed [] p
    (meetGuards (tellJump h false (followCues h (p.modHead h fun x => x.placed f)))) :=
  (((Drives.refl h p).modHead fun x => x.placed f).followCues.tellJump false).guards

theorem setPosition_acts (h : HeadId) (f : Int) (p : Part) :
    let y := ((p.head h).placed f).followed
    Acts h (if y.countLimit.isSome = true ∧ y.limited = false then y.unlimited else y) [] p (setPosition h f p) :=
  (setPosition_before h f p).leaveLimit

/-- The COUNT_LIMIT record of a head that has jumped (R19). -/
theorem Head.left_eq (y : Head) : (if y.countLimit.isSome = true ∧ y.limited = false then y.unlimited else y) =
    { y with countLimit := if y.limited then y.countLimit else none } := by
  cases l : y.limited
  · cases c : y.countLimit with
    | none =>
      simp only [Option.isSome_none, Bool.false_eq_true, false_and, if_false]
      rw [← c]
    | some s => rfl
  · simp

/-- The limit a frame with phase 0 can lie at (R19). -/
theorem Head.placed_limited (x : Head) (f : Int) : (x.placed f).followed.limited = decide
    (x.countLimit = some .lowest ∧ f = -99999 ∨ x.countLimit = some .highest ∧ f = 999999 ∧ x.settings.gauge.perfs = 1) := by
  rw [Bool.eq_iff_iff, decide_eq_true_iff]
  show (x.countLimit.any fun s => decide ((⟨f, 0⟩ : Position) = s.position x.settings.gauge)) = true ↔ _
  cases x.countLimit with
  | none => simp
  | some s =>
    rw [Option.any_some, decide_eq_true_iff]
    cases s <;> cases x.settings.gauge <;> simp [LimitSide.position, Config.frameMin, Config.frameMax, Gauge.perfs]

theorem setPosition_limit {h : HeadId} {f : Int} {p : Part} (stays : ((p.head h).placed f).followed.limited = true)
    (room : p.alarms.entries.length ≤ 20) :
    (setPosition h f p).alarms.find? (.head h) .countLimit = p.alarms.find? (.head h) .countLimit := by
  have jumped := settleTakes_takes (stands_takes (s := .head h) (k := .countLimit)
      (r := p.alarms.find? (.head h) .countLimit) (n := 20) rfl)
    (p := followEnds (mapPreds h (Pred.atJump (followCues h (p.modHead h fun x => x.placed f)) false)
      (followCues h (p.modHead h fun x => x.placed f)))) ⟨rfl, room⟩
  have same : setPosition h f p = _ := (setPosition_before h f p).leaveLimit_stays stays
  rw [same]
  exact (meetGuards_stands jumped (by decide)).1

theorem setPositionCommand_of {h : HeadId} {w : Word} {f : BitVec 32} {p : Part} (named : readHead w = some h)
    (remote : p.headLocal h = false) : setPositionCommand w f p =
    match readFrame f with
    | none => (p, .badArgument)
    | some f => if (p.head h).drive.atRest then (setPosition h f p, .ok) else (p, .busy) := onHead_remote _ named remote

/-- Settles O18: the refusals of SET_POSITION, and then `setPosition`. -/
theorem setPositionCommand_settled : Obligations.SetPositionCommand := by
  intro s w f h running named remote x
  have does := setPositionCommand_of (f := f) named remote
  have refuses : ∀ st, setPositionCommand w f s.part = (s.part, st) → Refuses (.setPosition w f) s st := fun st e =>
    .of_commanded (f := setPositionCommand w f) rfl running e
  refine ⟨fun out => refuses _ ?_, fun low high n m => refuses _ ?_, fun low high rest => ?placed⟩
  case placed =>
    have atRest : (s.part.head h).drive.atRest = true := by
      obtain e | e := rest <;> simp only [show s.part.head h = x from rfl, e, DriveState.atRest]
    have ends : setPositionCommand w f s.part = (setPosition h f.toInt s.part, .ok) := by
      rw [does, readFrame_eq_some low high]
      exact if_pos atRest
    have limit := setPosition_limit (h := h) (f := f.toInt) (p := s.part)
    have rests := (setPosition_before h f.toInt s.part).leaveLimit_rests
    have acts := setPosition_acts h f.toInt s.part
    have limited : (x.placed f.toInt).followed.limited = _ := x.placed_limited f.toInt
    change _ → _ → (setPosition h f.toInt s.part).alarms.rests _ _ at rests
    generalize setPosition h f.toInt s.part = q at ends limit acts rests
    refine .of_commanded (f := setPositionCommand w f) rfl running ends ?_
    dsimp only at acts
    rw [Head.left_eq, limited] at acts
    obtain ⟨-, -, cues⟩ := Head.steered_keeps acts.head
    intro stays placed
    have same : placed = { (x.placed f.toInt).followed with countLimit := if stays then x.countLimit else none } :=
      congrArg (fun c => { placed with cues := c }) cues
    refine ⟨fun raised away => rests raised (limited.trans away), fun at_ room => limit (limited.trans at_) room, same ▸ acts.head,
      fun u => same ▸ acts.alone u, ?_, ?_, acts.others, acts.frame.answered _⟩
    · exact (congrArg _ cues).trans (Head.followed_ids _)
    · exact fun c member => Head.followed_passed (x := x.placed f.toInt) c (cues ▸ member)
  · rw [does, readFrame_eq_none out]
  · rw [does, readFrame_eq_some low high]
    exact if_neg fun rest => (atRest_cases rest).elim n m

/-! ### CONFIGURE_HEAD -/

/-- A head without a park record is given none by the scheduler. -/
theorem park_takes (h : HeadId) (i : IslandId) : TakesKeep i fun p => (p.head h).park = none where
  post s e p a := by rwa [post_head]
  front i f t p _ _ a := a
  preds k _ f p _ _ a := a
  start k y p _ rest a := by
    by_cases same : h = k
    · subst same
      rw [startDrive_head h _ p rest]
    · rwa [startDrive_head_ne same]
  commit o l p a := by rwa [commitTake_head]

theorem tellJump_park {h : HeadId} {p : Part} (k : HeadId) (f : Bool) (a : (p.head h).park = none) :
    ((meetGuards (tellJump k f p)).head h).park = none := by
  rw [meetGuards_head]
  exact settleTakes_takes (park_takes h) (p := followEnds (mapPreds k (Pred.atJump p f) p)) a

theorem gaugeOfNat_eq (n : Nat) : gaugeOfNat n = if 1 < n then none else some (if n = 0 then .g35 else .g16) := by
  match n with
  | 0 => rfl
  | 1 => rfl
  | n + 2 => simp [gaugeOfNat]

theorem policyOfNat_eq (n : Nat) : policyOfNat n = if 1 < n then none else some (if n = 0 then .auto else .manual) := by
  match n with
  | 0 => rfl
  | 1 => rfl
  | n + 2 => simp [policyOfNat]

/-- A head with other settings (R35). -/
def Head.configured (x : Head) (c : HeadSettings) : Head := { x with settings := c, lampPolicy := c.lampPolicy }

/-- A head with its phase at 0 (R35). -/
def Head.rephased (x : Head) : Head := { x with pos := ⟨x.pos.frame, 0⟩ }

section
variable {h : HeadId} {x : Head} {p : Part} (head : p.head h = x) (c : HeadSettings)
include head

theorem configureHead_eq : configureHead h c p =
    if x.settings.gauge = c.gauge then Machine.settle (p.modHead h fun x => x.configured c)
    else meetGuards (tellJump h false (followCues h
      (if x.drive = .parked then enterDrive h .stopped .command none
        ((p.modHead h fun x => x.configured c).modHead h Head.rephased)
      else (p.modHead h fun x => x.configured c).modHead h Head.rephased))) := by
  subst head
  rfl

theorem configureHead_same (gauge : x.settings.gauge = c.gauge) : Acts h (x.configured c) [] p (configureHead h c p) := by
  rw [configureHead_eq head, if_pos gauge]
  exact ((head ▸ Drives.refl h p).modHead fun x => x.configured c).settle

theorem configureHead_changed (gauge : x.settings.gauge ≠ c.gauge) (drive : x.drive ≠ .parked) :
    Acts h (x.configured c).rephased.followed [] p (configureHead h c p) := by
  rw [configureHead_eq head, if_neg gauge, if_neg drive]
  exact ((((head ▸ Drives.refl h p).modHead fun x => x.configured c).modHead Head.rephased).followCues.tellJump false).guards

theorem configureHead_parked (gauge : x.settings.gauge ≠ c.gauge) (drive : x.drive = .parked) :
    Acts h (x.configured c).rephased.halted.followed [headStateEvent h p.ref.count x .stopped .command] p (configureHead h c p) ∧
      ((configureHead h c p).head h).park = none := by
  have halted := (((head ▸ Drives.refl h p).modHead fun x => x.configured c).modHead Head.rephased).enterIdle (by decide)
    (show x.drive.running = false by rw [drive]; rfl) .stopped .command none
  rw [Head.enter_stopped] at halted
  rw [configureHead_eq head, if_neg gauge, if_pos drive]
  exact ⟨(halted.followCues.tellJump false).guards, tellJump_park h false (congrArg Head.park halted.followCues.head)⟩

end

/-- The settings of a CONFIGURE_HEAD as its words give them (R35, R180). -/
def givenSettings (ws : HeadWords) : HeadSettings :=
  { gauge := if ws.gaugePolicy.toNat % 256 = 0 then .g35 else .g16
    lampPolicy := if ws.gaugePolicy.toNat / 256 = 0 then .auto else .manual
    lockCount := ws.lockCount.toNat, runupLead := ws.runupLead.toNat, runupDistance := ws.runupDistance.toNat
    runupLimit := ws.runupLimit.toNat, startResponse := ws.startResponse.toNat, lossTimeout := ws.lossTimeout.toNat
    approach := ws.approach.toNat, parkTolerance := ws.parkTolerance.toNat, settleTime := ws.settleTime.toNat
    sensorOffset := ws.sensorOffset.toNat, lampSettle := ws.lampSettle.toNat }

theorem readHeadSettings_eq (ws : HeadWords) : readHeadSettings ws =
    if 1 < ws.gaugePolicy.toNat % 256 ∨ 1 < ws.gaugePolicy.toNat / 256 then none else some (givenSettings ws) := by
  unfold readHeadSettings
  rw [gaugeOfNat_eq, policyOfNat_eq]
  by_cases gauge : 1 < ws.gaugePolicy.toNat % 256
  · have bad : 1 < ws.gaugePolicy.toNat % 256 ∨ 1 < ws.gaugePolicy.toNat / 256 := .inl gauge
    rw [if_pos gauge, if_pos bad]
  · by_cases policy : 1 < ws.gaugePolicy.toNat / 256
    · have bad : 1 < ws.gaugePolicy.toNat % 256 ∨ 1 < ws.gaugePolicy.toNat / 256 := .inr policy
      rw [if_neg gauge, if_pos policy, if_pos bad]
    · have good : ¬ (1 < ws.gaugePolicy.toNat % 256 ∨ 1 < ws.gaugePolicy.toNat / 256) := fun e => e.elim gauge policy
      rw [if_neg gauge, if_neg policy, if_neg good]
      rfl

theorem HeadSettings.clamped_eq (c : HeadSettings) : c.clamped =
    { gauge := c.gauge
      lockCount := max 2 (min 15 c.lockCount)
      runupLead := max 10 (min 1000 c.runupLead)
      runupDistance := min 240 c.runupDistance
      runupLimit := max 20 (min 2000 c.runupLimit)
      startResponse := max 100 (min 5000 c.startResponse)
      lossTimeout := max 20 (min 1000 c.lossTimeout)
      approach := max 4 (min 480 c.approach)
      parkTolerance := min 8 c.parkTolerance
      settleTime := max 50 (min 1000 c.settleTime)
      sensorOffset := min 63 c.sensorOffset
      lampPolicy := c.lampPolicy
      lampSettle := max 100 (min 2000 c.lampSettle) } := by
  simp [HeadSettings.clamped, clamp]

theorem runEntry_configureHead {v : Nat → Word} (code : (v 0).toNat % 256 = 0x10) (p : Part) :
    runEntry v p = configureHeadCommand (v 1) (headWords v) p := by
  simp only [runEntry, code]

/-- Settles O20: the refusals of CONFIGURE_HEAD, and then the branches of `configureHead`. -/
theorem configureHeadCommand_settled : Obligations.ConfigureHeadCommand := by
  intro s w ws h running named x gauge policy bad c d
  have does : configureHeadCommand w ws s.part =
      match readHeadSettings ws with
      | none => (s.part, .badArgument)
      | some c =>
        if (s.part.head h).drive.atRest ∨ (s.part.head h).drive = .fault then
          (configureHead h c.clamped s.part, doneStatus (c.clamped ≠ c))
        else (s.part, .busy) := onHead_some _ _ named
  have read : readHeadSettings ws = if bad then none else some c := readHeadSettings_eq ws
  have refuses : ∀ st, configureHeadCommand w ws s.part = (s.part, st) → Refuses (.configureHead w ws) s st := fun st e =>
    .of_commanded (f := configureHeadCommand w ws) rfl running e
  have clamps : c.clamped = d := c.clamped_eq
  refine ⟨fun b => refuses _ ?_, fun n a b e => refuses _ ?_, fun v p code head words => ?entry, fun n state => ?done⟩
  case entry =>
    subst head words
    exact runEntry_configureHead code p
  case done =>
    have atRest : (s.part.head h).drive.atRest = true ∨ (s.part.head h).drive = .fault := by
      obtain e | e | e := state <;> simp only [show s.part.head h = x from rfl, e, DriveState.atRest, true_or, or_true]
    have ends : configureHeadCommand w ws s.part = (configureHead h d s.part, if d = c then .ok else .clamped) := by
      rw [does, read, if_neg n]
      dsimp only
      rw [if_pos atRest, clamps]
      exact congrArg _ (doneStatus_not (d = c))
    have same := configureHead_same (p := s.part) rfl (h := h) d
    have changed := configureHead_changed (p := s.part) rfl (h := h) d
    have parked := configureHead_parked (p := s.part) rfl (h := h) d
    obtain ⟨y, es, acts⟩ : ∃ y es, Acts h y es s.part (configureHead h d s.part) := by
      by_cases g : x.settings.gauge = d.gauge
      · exact ⟨_, _, same g⟩
      · by_cases e : x.drive = .parked
        · exact ⟨_, _, (parked g e).1⟩
        · exact ⟨_, _, changed g e⟩
    generalize configureHead h d s.part = q at ends same changed parked acts
    refine .of_commanded (f := configureHeadCommand w ws) rfl running ends ?_
    intro kept moved
    refine ⟨fun g => ⟨(same g).head, (same g).alone⟩, fun g => ⟨?_, fun e => ?_, fun e => ?_⟩, acts.others, acts.frame.answered _⟩
    · by_cases e : x.drive = .parked
      · exact (congrArg _ (Head.steered_keeps (parked g e).1.head).2.2).trans (Head.followed_ids _)
      · exact (congrArg _ (Head.steered_keeps (changed g e).head).2.2).trans (Head.followed_ids _)
    · have is : moved = ((x.configured d).rephased).followed :=
        congrArg (fun c => { moved with cues := c }) (Head.steered_keeps (changed g e).head).2.2
      exact is ▸ ⟨(changed g e).head, (changed g e).alone⟩
    · obtain ⟨stops, park⟩ := parked g e
      obtain ⟨pos, settings, -⟩ := Head.steered_keeps stops.head
      refine ⟨settings, ?_, pos, park, fun l => stops.tells l [.headState .stopped .parked .command x.pos.frame] (by rw [← e]; rfl),
        fun u => congrArg Head.drive (stops.alone u)⟩
      obtain kept | ⟨-, -, kept⟩ := stops.head
      · exact congrArg Head.lampPolicy kept
      · exact congrArg Head.lampPolicy kept
  · rw [does, read, if_pos b]
  · rw [does, read, if_neg n]
    exact if_neg fun r => r.elim (fun rest => (atRest_cases rest).elim a b) e

end Sys2Proof.Machine
end

section
/-! PROOFS. A head in no plan: the scheduler has nothing to do as it is driven (R97, R105, R108, R109). -/

namespace Sys2Proof.Machine

/-- Head `h` is in no plan of the scheduler, and no end guard is due. -/
structure Quiet (h : HeadId) (p : Part) : Prop where
  alone : p.uninvolved h
  rests : ∀ i, guardDue i p = false

section
variable {h : HeadId} {p : Part} (a : Quiet h p)
include a

theorem Quiet.active (i : IslandId) : (p.island i).active = none := by
  rw [Island.active, (a.alone i).1]

theorem Quiet.of_frame {q : Part} (f : ChangesOnly (Block.driving h) p q) : Quiet h q := by
  have island : ∀ i, p.island i = q.island i := fun i => f (.island i) (by simp [Block.driving, Block.alarming, Block.posting])
  have ref : p.ref = q.ref := f .ref (by simp [Block.driving, Block.alarming, Block.posting])
  refine ⟨fun i => island i ▸ a.alone i, fun i => ?_⟩
  have rests := a.rests i
  simp only [guardDue, Part.awaits, island i, ref] at rests ⊢
  exact rests

theorem Quiet.mapPreds (f : PredKind → Pred → Pred) : Machine.mapPreds h f p = p := by
  have one : ∀ i, Island.mapPreds h f (p.island i) = p.island i := fun i => by
    obtain ⟨takes, -, ends⟩ := a.alone i
    have kept : (p.island i).fEnd.map (followedBy h f .cutOrEnd) = (p.island i).fEnd := by
      cases r : (p.island i).fEnd with
      | none => rfl
      | some r' => simp only [Option.map_some, followedBy, if_neg (ends r' r)]
    rw [Island.mapPreds, kept, Island.modFront_nil takes]
  have islands : p.islands.map (Island.mapPreds h f) = p.islands := Two.ext_get fun i => by
    rw [Two.get_map]
    exact one i
  rw [Machine.mapPreds, islands]

theorem Quiet.refreshTake (i : IslandId) : Machine.refreshTake i p = p := by
  simp only [Machine.refreshTake, a.active i]

theorem Quiet.workTake (i : IslandId) : Machine.workTake i p = p := by
  have start : startDue i p = false := by simp only [startDue, a.active i]
  have commit : commitDue i p = false := by simp only [commitDue, a.active i]; simp
  have eval : evalTake i p = p := by
    simp only [evalTake, convertNow, sendStart, followRunning, judgeReady, retarget, a.active i]
  rw [Machine.workTake, eval, meetStart, if_neg (by simp [start]), meetCommit, if_neg (by simp [commit])]

theorem Quiet.settleTakes : Machine.settleTakes p = p := by
  rw [Machine.settleTakes, a.refreshTake .i1, a.workTake .i1, a.refreshTake .i2, a.workTake .i2]

theorem Quiet.meetGuards : Machine.meetGuards p = p := by
  have one : ∀ i, meetGuard i p = p := fun i => if_neg (by simp [a.rests i])
  rw [Machine.meetGuards, one .i1, one .i2]

theorem Quiet.settle : Machine.settle p = p := by
  rw [Machine.settle, a.settleTakes, a.meetGuards]

theorem Quiet.incomingFailed (i : IslandId) (r : Reason) : Machine.incomingFailed i h r p = p := by
  simp only [Machine.incomingFailed, a.active i]

theorem Quiet.tellStart : Machine.tellStart h p = p := by
  rw [Machine.tellStart, a.mapPreds, a.settle]

theorem Quiet.tellFault : Machine.tellFault h p = p := by
  rw [Machine.tellFault, a.mapPreds, a.settleTakes]
  dsimp only
  rw [if_neg (a.alone .i1).2.1, a.incomingFailed .i1, if_neg (a.alone .i2).2.1, a.incomingFailed .i2, a.meetGuards]

theorem Quiet.tellStop : Machine.tellStop h p = p := by
  rw [Machine.tellStop, a.mapPreds, a.settleTakes]
  dsimp only
  rw [if_neg (a.alone .i1).2.1, a.incomingFailed .i1, if_neg (a.alone .i2).2.1, a.incomingFailed .i2]

end

/-! ### The requests and expiries of such a head -/

/-- What is done to head `h` stays with it, when it is in no plan. -/
def StaysWith (h : HeadId) (p q : Part) : Prop := ChangesOnly (Block.driving h) p q

section
variable {h : HeadId} {p : Part} (a : Quiet h p)
include a

theorem StaysWith.settle {q : Part} (f : StaysWith h p q) : StaysWith h p (Machine.settle q) := by
  rwa [(a.of_frame f).settle]

theorem StaysWith.guards {q : Part} (f : StaysWith h p q) : StaysWith h p (meetGuards q) := by
  rwa [(a.of_frame f).meetGuards]

omit a in
theorem enterDrive_staysWith {q : Part} (f : StaysWith h p q) (d : DriveState) (c : Cause) (k : Option FaultKind) :
    StaysWith h p (enterDrive h d c k q) := f.trans (enterDrive_frame h d c k q)

omit a in
theorem modHead_staysWith (f : Head → Head) : StaysWith h p (p.modHead h f) := (modHead_frame h f p).mono (by simp [Block.driving])

omit a in
theorem StaysWith.refl : StaysWith h p p := ChangesOnly.refl _ p

theorem startHead_staysWith (c : Cause) : StaysWith h p (startHead h c p).1 := by
  have starts : StaysWith h p (tellStart h (startDrive h c p)) := by
    rw [(a.of_frame (startDrive_frame h c p)).tellStart]
    exact startDrive_frame h c p
  unfold startHead
  split
  · exact starts
  · exact starts
  all_goals exact .refl

theorem stopHead_staysWith (c : Cause) : StaysWith h p (stopHead h c p) := by
  have entered := enterDrive_staysWith (StaysWith.refl (h := h) (p := p)) .stopping c none
  have told : StaysWith h p (tellStop h (enterDrive h .stopping c none p)) := by rwa [(a.of_frame entered).tellStop]
  have settled : StaysWith h p (settleTakes (enterDrive h .stopping c none p)) := by rwa [(a.of_frame entered).settleTakes]
  have lamp : StaysWith h p (if (p.head h).lampPolicy = .auto then switchLamp h false p else p) :=
    .ite (switchLamp_frame h false p) (.refl _ p)
  unfold stopHead
  split
  · exact told
  · exact told
  · exact told
  · exact settled
  · exact settled
  · exact settled
  · exact .refl
  all_goals exact lamp

theorem requestStop_staysWith (c : Cause) : StaysWith h p (requestStop h c p) := by
  have stops := stopHead_staysWith a c
  exact .ite stops (stops.guards a)

theorem beginCueUp_staysWith (t : Int) (c : Cause) : StaysWith h p (beginCueUp h t c p) := by
  rw [beginCueUp_eq rfl]
  split
  · exact StaysWith.settle a (.ite (modHead_staysWith _) (enterDrive_staysWith (modHead_staysWith _) _ _ _))
  · exact StaysWith.settle a (enterDrive_staysWith (modHead_staysWith _) _ _ _)

theorem cueToFrame_staysWith (t : Option Int) : StaysWith h p (cueToFrame h t p).1 := by
  unfold cueToFrame
  split
  · exact .refl
  · split
    · exact beginCueUp_staysWith a _ _
    · exact .refl

theorem cueToId_staysWith (id : Nat) (c : Cause) : StaysWith h p (cueToId h id c p).1 := by
  rw [cueToId_eq]
  split
  · exact .refl
  · split
    · exact .refl
    · split
      · exact .refl
      · exact beginCueUp_staysWith a _ _

theorem clearFault_staysWith {w : Word} (named : readHead w = some h) : StaysWith h p (clearFaultCommand w p).1 := by
  rw [clearFaultCommand_of named]
  split
  · exact .refl
  · split
    · exact .refl
    · have entered := enterDrive_staysWith (modHead_staysWith (h := h) (p := p) fun x => { x with fault := none }) .stopped .command none
      refine StaysWith.guards a ?_
      rw [(a.of_frame entered).settleTakes]
      exact entered.trans ((clearLatched_frame h _).mono fun _ m => List.mem_cons_of_mem _ (List.mem_cons_of_mem _ m))

theorem faultHead_staysWith (k : FaultKind) : StaysWith h p (faultHead h k p) := by
  unfold faultHead
  split
  · exact (raiseAlarm_frame _ _ _ _ p).mono fun _ m => List.mem_cons_of_mem _ (List.mem_cons_of_mem _ m)
  · have entered := enterDrive_staysWith (modHead_staysWith (h := h) (p := p) fun x => { x with fault := some k }) .fault k.cause (some k)
    rwa [(a.of_frame entered).tellFault]

theorem decidePark_staysWith (c : CueUp) : StaysWith h p (decidePark h c p) := by
  rw [decidePark_eq rfl]
  split
  · exact StaysWith.settle a (enterDrive_staysWith (modHead_staysWith _) _ _ _)
  · split
    · exact StaysWith.settle a (enterDrive_staysWith (modHead_staysWith _) _ _ _)
    · exact (StaysWith.settle a (enterDrive_staysWith .refl _ _ _)).trans
        ((raiseAlarm_frame _ _ _ _ _).mono fun _ m => List.mem_cons_of_mem _ (List.mem_cons_of_mem _ m))

theorem takeSettleExpiry_staysWith : StaysWith h p (takeSettleExpiry h p) := by
  unfold takeSettleExpiry
  split
  · exact StaysWith.settle a (enterDrive_staysWith .refl _ _ _)
  · exact decidePark_staysWith a _
  · exact .refl

omit a in
theorem unlessLocal_staysWith {f : HeadId → Part → Part × Status} {w : Word} (named : readHead w = some h)
    (x : StaysWith h p (f h p).1) : StaysWith h p (onHead w (unlessLocal f) p).1 := by
  rw [onHead_some _ _ named]
  unfold unlessLocal
  split
  · exact .refl
  · exact x

theorem cueUpCommand_staysWith {w form : Word} {arg : BitVec 32} (named : readHead w = some h) :
    StaysWith h p (cueUpCommand w form arg p).1 := by
  refine unlessLocal_staysWith named ?_
  split
  · exact cueToFrame_staysWith a _
  · exact cueToFrame_staysWith a _
  · exact cueToId_staysWith a _ _
  · exact .refl

end

theorem elapse_quiet {h : HeadId} {n : Nat} {p : Part} (a : Quiet h p) : Quiet h (elapse n p) where
  alone i := elapse_island n p i ▸ a.alone i
  rests i := by
    have rests := a.rests i
    simpa only [guardDue, Part.awaits, elapse_island, elapse_ref] using rests

/-- A ring command whose work stays with head `h`. -/
theorem Completes.staysWith {h : HeadId} {c : Instr} {s : State} {f : Part → Part × Status} (running : s.part.mode = .running)
    (e : exec c s = onPart (commanded f) s) (stays : StaysWith h s.part (f s.part).1) :
    Completes c s fun q => ChangesOnly (.status :: Block.driving h) s.part q := by
  refine ⟨_, e.trans (onPart_eq _ s), ?_⟩
  rw [commanded_eq running]
  exact stays.answered _

/-- An event of its own moment whose work stays with head `h`, also where it is not due. -/
theorem Completes.lapseStaysWith {h : HeadId} {c : Instr} {s : State} {dt : Nat} {due : Part → Bool} {f : Part → Part}
    (running : s.part.mode = .running) (e : exec c s = onPart (timed dt due f) s)
    (stays : StaysWith h (elapse dt s.part) (f (elapse dt s.part))) :
    Completes c s fun q => ChangesOnly (.time :: Block.driving h) s.part q := by
  refine ⟨_, e.trans (onPart_eq _ s), ?_⟩
  have lapse : ChangesOnly (.time :: Block.driving h) s.part (elapse dt s.part) := (elapse_frame dt _).mono (by simp)
  cases d : due (elapse dt s.part) with
  | true =>
    rw [timed_due running d]
    exact lapse.trans (stays.mono (List.subset_cons_self _ _))
  | false =>
    rw [timed_not d]
    exact lapse

/-- Settles O23: with the head in no plan and no guard due, what the scheduler is told of changes nothing, and the rest is the
frame of a change of drive state. -/
theorem headOutOfPlan : Obligations.HeadOutOfPlan := by
  intro s dt w form arg h running named alone rests
  have quiet : Quiet h s.part := ⟨alone, rests⟩
  have later : Quiet h (elapse dt s.part) := elapse_quiet quiet
  constructor
  · intro c member
    simp only [List.mem_cons, List.not_mem_nil, or_false] at member
    obtain rfl | rfl | rfl | rfl := member
    · exact .staysWith running (f := startCommand w) rfl (unlessLocal_staysWith named (startHead_staysWith quiet .command))
    · exact .staysWith running (f := stopCommand w) rfl (unlessLocal_staysWith named (requestStop_staysWith quiet .command))
    · exact .staysWith running (f := cueUpCommand w form arg) rfl (cueUpCommand_staysWith quiet named)
    · exact .staysWith running (f := clearFaultCommand w) rfl (clearFault_staysWith quiet named)
  · intro c member
    simp only [List.mem_cons, List.not_mem_nil, or_false] at member
    obtain rfl | rfl := member
    · exact .lapseStaysWith (due := gapExpired h) (f := takeGapExpiry h) running rfl (faultHead_staysWith later .tachLoss)
    · exact .lapseStaysWith (due := settleExpired h) (f := takeSettleExpiry h) running rfl (takeSettleExpiry_staysWith later)

end Sys2Proof.Machine
end

section
/-! PROOFS. The commands of an island: TAKE in a list that waits, and STANDBY (R93, R111). -/

namespace Sys2Proof.Machine

/-! ### The words of a TAKE -/

theorem toNat_of_lt {w : Word} {n : Nat} (e : w.toNat = n) (small : n < 65536) : w = BitVec.ofNat 16 n :=
  BitVec.eq_of_toNat_eq (by rw [e, BitVec.toNat_ofNat, Nat.mod_eq_of_lt small])

theorem readMode_eq_none {w : Word} : readMode w = none ↔ 2 < w.toNat := by
  unfold readMode
  split <;> simp_all
  omega

theorem readPreroll_eq_none {w : Word} : readPreroll w = none ↔ 1 < w.toNat := by
  unfold readPreroll
  split <;> simp_all
  omega

theorem headOfNat_eq_none_iff {n : Nat} : headOfNat n = none ↔ n = 0 ∨ 4 < n := by
  unfold headOfNat
  split <;> simp_all
  omega

theorem readIncoming_eq_none {w : Word} : readIncoming w = none ↔ 4 < w.toNat := by
  unfold readIncoming
  split
  · rename_i zero
    simp [zero]
  · rename_i n is
    rw [is, Option.map_eq_none_iff, headOfNat_eq_none_iff]
    omega

theorem readIncoming_standby {w : Word} : readIncoming w = some .standby ↔ w = 0 := by
  unfold readIncoming
  split
  · rename_i zero
    exact ⟨fun _ => toNat_of_lt zero (by decide), fun _ => rfl⟩
  · rename_i n is
    refine ⟨fun e => ?_, fun e => ?_⟩
    · obtain ⟨h, -, e⟩ := Option.map_eq_some_iff.1 e
      cases e
    · rw [e] at is
      cases is

theorem readCueId_eq (w : Word) : readCueId w =
    if 255 < w.toNat ∧ w ≠ 65535 then none else some (if w = 65535 then none else some w.toNat) := by
  unfold readCueId
  by_cases absent : w = 65535
  · rw [if_pos absent, if_neg (fun e => e.2 absent), if_pos absent]
  · by_cases small : w.toNat ≤ 255
    · rw [if_neg absent, if_pos small, if_neg (fun e => absurd small (Nat.not_le.2 e.1)), if_neg absent]
    · rw [if_neg absent, if_neg small, if_pos ⟨Nat.not_le.1 small, absent⟩]

/-- What makes the words of a TAKE malformed (R93). -/
def badTake (incoming mode outCue inCue preroll : Word) : Prop :=
  4 < incoming.toNat ∨ 2 < mode.toNat ∨ 1 < preroll.toNat ∨ (255 < outCue.toNat ∧ outCue ≠ 65535) ∨
    (255 < inCue.toNat ∧ inCue ≠ 65535) ∨ (incoming = 0 ∧ inCue ≠ 65535)

/-! ### The commands of an island -/

theorem islandOfNat_eq_none {n : Nat} (h : n = 0 ∨ 2 < n) : islandOfNat n = none := by
  obtain rfl | beyond := h
  · rfl
  · obtain ⟨m, rfl⟩ := Nat.exists_eq_add_of_lt beyond
    rw [show 2 + m + 1 = m + 3 by omega]
    rfl

theorem onIsland_some {w : Word} {i : IslandId} (f : IslandId → Part → Part × Status) (p : Part) (e : readIsland w = some i) :
    onIsland w f p = f i p := by
  simp only [onIsland, e]

theorem onIsland_none {w : Word} (f : IslandId → Part → Part × Status) (p : Part) (e : w.toNat = 0 ∨ 2 < w.toNat) :
    onIsland w f p = (p, .badTarget) := by
  simp only [onIsland, show readIsland w = none from islandOfNat_eq_none e]

theorem unlessPanel_local {i : IslandId} {p : Part} (f : IslandId → Part → Part × Status) (l : (p.island i).authority = .panel) :
    unlessPanel f i p = (p, .localAuthority) := if_pos (by rw [Part.inLocal, l]; rfl)

theorem unlessPanel_remote {i : IslandId} {p : Part} (f : IslandId → Part → Part × Status) (l : (p.island i).authority = .remote) :
    unlessPanel f i p = f i p := if_neg (by rw [Part.inLocal, l]; nofun)

theorem activate_empty {i : IslandId} {p : Part} (empty : (p.island i).takes = []) (n : Nat) : activate n i p = p := by
  cases n with
  | zero => rfl
  | succ n =>
    unfold activate
    split
    · rfl
    · rename_i t rest some
      rw [empty] at some
      cases some

theorem activate_awaits {i : IslandId} {p : Part} (await : p.awaits i = true) (n : Nat) : activate n i p = p := by
  cases n with
  | zero => rfl
  | succ n =>
    unfold activate
    split
    · rfl
    · exact if_pos (.inr await)

theorem followTakeOf_same (w : Word) (p : Part) : followTakeOf w p p = p := by
  unfold followTakeOf
  split
  · unfold followTake
    split
    · rename_i empty
      exact activate_empty (List.isEmpty_iff.1 empty) _
    · rfl
  · rfl

/-- A TAKE that is refused leaves the part as it was: nothing follows. -/
theorem takeCommand_refused {w tag n m : Word} {f : Stamp} {o c t r : Word} {p : Part} {st : Status}
    (e : queueTake w tag n m f o c t r p = (p, st)) : takeCommand w tag n m f o c t r p = (p, st) := by
  rw [takeCommand, e]
  exact congrArg (·, st) (followTakeOf_same w p)

/-! ### What a TAKE asks of the heads -/

theorem isAssigned_iff {p : Part} {i : IslandId} {h : HeadId} : p.isAssigned i h = true ↔ (p.head h).assigned.map (·.island) = some i := by
  rw [Part.isAssigned]
  cases (p.head h).assigned <;> simp

theorem findCue_isNone {cues : List Cue} {id : Nat} : (findCue cues id).isNone = true ↔ ∀ c ∈ cues, c.id ≠ id := by
  simp [findCue]

theorem findCue_isSome {cues : List Cue} {id : Nat} : (findCue cues id).isSome = true ↔ ∃ c ∈ cues, c.id = id := by
  simp [findCue]

theorem HeadId.mem_list (h : HeadId) : h ∈ HeadId.list := by cases h <;> decide

theorem outCueKnown_iff {p : Part} {i : IslandId} {id : Nat} : p.outCueKnown i id = true ↔
    ∃ h, (p.head h).assigned.map (·.island) = some i ∧ ∃ c ∈ (p.head h).cues, c.id = id := by
  simp only [Part.outCueKnown, List.any_eq_true, Bool.and_eq_true, isAssigned_iff, findCue_isSome]
  exact ⟨fun ⟨h, _, x⟩ => ⟨h, x⟩, fun ⟨h, x⟩ => ⟨h, HeadId.mem_list h, x⟩⟩

section
variable {w tag incoming mode outCue inCue tolerance preroll : Word} {field : Stamp} {i : IslandId} {p : Part}
  (named : readIsland w = some i) (remote : (p.island i).authority = .remote)
include named remote

theorem queueTake_of : queueTake w tag incoming mode field outCue inCue tolerance preroll p =
    match readMode mode, readPreroll preroll, readIncoming incoming, readCueId outCue, readCueId inCue with
    | some m, some r, some s, some o, some c =>
      if s = .standby ∧ c.isSome then (p, .badArgument)
      else requestTake i (.new tag s m field o c (readTolerance tolerance) r) (tolerance ≠ 0xFFFF && 8 < tolerance.toNat) p
    | _, _, _, _, _ => (p, .badArgument) :=
  (onIsland_some _ p named).trans (unlessPanel_remote _ remote)

theorem queueTake_bad (bad : badTake incoming mode outCue inCue preroll) :
    queueTake w tag incoming mode field outCue inCue tolerance preroll p = (p, .badArgument) := by
  rw [queueTake_of named remote]
  split
  · rename_i m r s o c mode' preroll' incoming' outCue' inCue'
    refine if_pos ?_
    have cue : ¬ (255 < inCue.toNat ∧ inCue ≠ 65535) := fun e => by
      rw [readCueId_eq, if_pos e] at inCue'
      cases inCue'
    obtain far | far | far | far | far | ⟨standby, given⟩ := bad
    · exact nomatch (readIncoming_eq_none.2 far).symm.trans incoming'
    · exact nomatch (readMode_eq_none.2 far).symm.trans mode'
    · exact nomatch (readPreroll_eq_none.2 far).symm.trans preroll'
    · rw [readCueId_eq, if_pos far] at outCue'
      cases outCue'
    · exact absurd far cue
    · rw [readCueId_eq, if_neg cue, if_neg given] at inCue'
      cases inCue'
      rw [readIncoming_standby.2 standby] at incoming'
      cases incoming'
      exact ⟨rfl, rfl⟩
  · rfl

/-- A TAKE with words in order, as its checks 4 to 6 find it (R93). -/
theorem queueTake_good (good : ¬ badTake incoming mode outCue inCue preroll) {src : Source} (incoming' : readIncoming incoming = some src)
    {m : TakeMode} (mode' : readMode mode = some m) {r : Preroll} (preroll' : readPreroll preroll = some r) :
    queueTake w tag incoming mode field outCue inCue tolerance preroll p =
      requestTake i (.new tag src m field (if outCue = 65535 then none else some outCue.toNat)
        (if inCue = 65535 then none else some inCue.toNat) (readTolerance tolerance) r)
        (tolerance ≠ 0xFFFF && 8 < tolerance.toNat) p := by
  have outFits : ¬ (255 < outCue.toNat ∧ outCue ≠ 65535) := fun e => good (.inr (.inr (.inr (.inl e))))
  have inFits : ¬ (255 < inCue.toNat ∧ inCue ≠ 65535) := fun e => good (.inr (.inr (.inr (.inr (.inl e)))))
  rw [queueTake_of named remote, incoming', mode', preroll', readCueId_eq, if_neg outFits, readCueId_eq, if_neg inFits]
  refine if_neg ?_
  rintro ⟨rfl, given⟩
  refine good (.inr (.inr (.inr (.inr (.inr ⟨readIncoming_standby.1 incoming', fun absent => ?_⟩)))))
  rw [if_pos absent] at given
  cases given

end

theorem Take.head?_iff {t : Take} {h : HeadId} : t.head? = some h ↔ t.incoming = .head h := by
  refine ⟨Take.incoming_of_head?, fun e => ?_⟩
  simp only [Take.head?, e]

section
variable {p : Part} {i : IslandId} {t : Take}

theorem stray_iff : (t.head?.any fun h => !p.isAssigned i h) = true ↔
    ∃ h, t.incoming = .head h ∧ (p.head h).assigned.map (·.island) ≠ some i := by
  simp only [Option.any_eq_true, Take.head?_iff, Bool.not_eq_true', ← Bool.not_eq_true, isAssigned_iff]

theorem inCueLost_iff : (t.head?.any fun h => t.inCue.any fun id => (findCue (p.head h).cues id).isNone) = true ↔
    ∃ h, t.incoming = .head h ∧ ∃ id, t.inCue = some id ∧ ∀ c ∈ (p.head h).cues, c.id ≠ id := by
  simp only [Option.any_eq_true, Take.head?_iff, findCue_isNone]

theorem outCueLost_iff : (t.outCue.any fun id => !p.outCueKnown i id) = true ↔
    ∃ id, t.outCue = some id ∧ ∀ h, (p.head h).assigned.map (·.island) = some i → ∀ c ∈ (p.head h).cues, c.id ≠ id := by
  simp only [Option.any_eq_true, Bool.not_eq_true', ← Bool.not_eq_true, outCueKnown_iff]
  simp only [not_exists, not_and]

/-- Some cue that a take names is not there (R93). -/
def cueLost (p : Part) (i : IslandId) (t : Take) : Prop :=
  (∃ h, t.incoming = .head h ∧ ∃ id, t.inCue = some id ∧ ∀ c ∈ (p.head h).cues, c.id ≠ id) ∨
    ∃ id, t.outCue = some id ∧ ∀ h, (p.head h).assigned.map (·.island) = some i → ∀ c ∈ (p.head h).cues, c.id ≠ id

section
variable (room : (p.island i).takes.length < Config.maxTakes) (c : Bool)
include room

theorem requestTake_stray (stray : ∃ h, t.incoming = .head h ∧ (p.head h).assigned.map (·.island) ≠ some i) :
    requestTake i t c p = (p, .notAssigned) := by
  rw [requestTake, if_neg (Nat.not_le.2 room), if_pos (stray_iff.2 stray)]

theorem requestTake_lost (stays : ¬ ∃ h, t.incoming = .head h ∧ (p.head h).assigned.map (·.island) ≠ some i)
    (lost : cueLost p i t) : requestTake i t c p = (p, .notFound) := by
  rw [requestTake, if_neg (Nat.not_le.2 room), if_neg (mt stray_iff.1 stays)]
  by_cases incoming : ∃ h, t.incoming = .head h ∧ ∃ id, t.inCue = some id ∧ ∀ c ∈ (p.head h).cues, c.id ≠ id
  · rw [if_pos (inCueLost_iff.2 incoming)]
  · rw [if_neg (mt inCueLost_iff.1 incoming), if_pos (outCueLost_iff.2 (lost.resolve_left incoming))]

theorem requestTake_joins (stays : ¬ ∃ h, t.incoming = .head h ∧ (p.head h).assigned.map (·.island) ≠ some i)
    (there : ¬ cueLost p i t) : requestTake i t c p = (joinTake i t p, doneStatus c) := by
  rw [requestTake, if_neg (Nat.not_le.2 room), if_neg (mt stray_iff.1 stays),
    if_neg (mt inCueLost_iff.1 fun e => there (.inl e)), if_neg (mt outCueLost_iff.1 fun e => there (.inr e))]

end

end

theorem given_iff {w : Word} {n : Nat} : (if w = 65535 then none else some w.toNat) = some n ↔ w ≠ 65535 ∧ w.toNat = n := by
  split <;> simp_all

/-- A take that joins the back of the list (R93). -/
theorem joinTake_island (i : IslandId) (t : Take) (p : Part) :
    (joinTake i t p).island i = { p.island i with takes := (p.island i).takes ++ [t] } := modIsland_island i _ p

/-- A take joined behind others, or while a move awaits, is not activated. -/
theorem followTakeOf_waits {w : Word} {i : IslandId} {t : Take} {p : Part} (named : readIsland w = some i)
    (waits : (p.island i).takes ≠ [] ∨ (p.island i).confirm.isSome = true) : followTakeOf w p (joinTake i t p) = joinTake i t p := by
  simp only [followTakeOf, named, followTake]
  split
  · rename_i empty
    refine activate_awaits ?_ _
    rw [Part.awaits, joinTake_island]
    exact waits.resolve_left fun some => some (List.isEmpty_iff.1 empty)
  · rfl

/-- Settles O33: the checks of a TAKE in their order, and the take in the list. -/
theorem takeCommandChecks : Obligations.TakeCommandChecks := by
  intro s w tag incoming mode field outCue inCue tolerance preroll i running cmd x
  have refuses : ∀ st, queueTake w tag incoming mode field outCue inCue tolerance preroll s.part = (s.part, st) → Refuses cmd s st :=
    fun st e => .of_commanded (f := takeCommand w tag incoming mode field outCue inCue tolerance preroll) rfl running
      (takeCommand_refused e)
  refine ⟨fun bad => refuses _ (onIsland_none _ _ bad), fun named panel =>
    refuses _ ((onIsland_some _ _ named).trans (unlessPanel_local _ panel)), fun named remote => ?_⟩
  intro bad
  have badIs : bad ↔ badTake incoming mode outCue inCue preroll := Iff.rfl
  have body := fun (n : ¬ bad) src isSrc m isMode r isPreroll => queueTake_good (tag := tag) (tolerance := tolerance) (field := field)
    named remote (mt badIs.2 n) (src := src) isSrc (m := m) isMode (r := r) isPreroll
  have reads : ¬ bad → (∃ m, readMode mode = some m) ∧ (∃ r, readPreroll preroll = some r) ∧ ∃ src, readIncoming incoming = some src :=
    fun n => ⟨Option.ne_none_iff_exists'.1 fun e => n (.inr (.inl (readMode_eq_none.1 e))),
      Option.ne_none_iff_exists'.1 fun e => n (.inr (.inr (.inl (readPreroll_eq_none.1 e)))),
      Option.ne_none_iff_exists'.1 fun e => n (.inl (readIncoming_eq_none.1 e))⟩
  refine ⟨fun b => refuses _ (queueTake_bad named remote b), fun n full => refuses _ ?full, fun n room src isSrc => ?_⟩
  case full =>
    obtain ⟨⟨m, isMode⟩, ⟨r, isPreroll⟩, src, isSrc⟩ := reads n
    rw [body n src isSrc m isMode r isPreroll]
    exact if_pos full
  intro stray lost
  obtain ⟨⟨m, isMode⟩, ⟨r, isPreroll⟩, -⟩ := reads n
  have lostIs : ∀ m r, lost ↔ cueLost s.part i (.new tag src m field (if outCue = 65535 then none else some outCue.toNat)
      (if inCue = 65535 then none else some inCue.toNat) (readTolerance tolerance) r) := fun m r => by
    simp only [cueLost, Take.new, given_iff]
    constructor
    · rintro (⟨given, h, is, gone⟩ | ⟨given, gone⟩)
      · exact .inl ⟨h, is, _, ⟨given, rfl⟩, gone⟩
      · exact .inr ⟨_, ⟨given, rfl⟩, gone⟩
    · rintro (⟨h, is, _, ⟨given, rfl⟩, gone⟩ | ⟨_, ⟨given, rfl⟩, gone⟩)
      · exact .inl ⟨given, h, is, gone⟩
      · exact .inr ⟨given, gone⟩
  refine ⟨fun a => refuses _ ?_, fun a b => refuses _ ?_, fun a b waits m isMode r isPreroll => ?_⟩
  · rw [body n src isSrc m isMode r isPreroll]
    exact requestTake_stray room _ a
  · rw [body n src isSrc m isMode r isPreroll]
    exact requestTake_lost room _ a ((lostIs m r).1 b)
  · have joins := (body n src isSrc m isMode r isPreroll).trans (requestTake_joins room _ a (mt (lostIs m r).2 b))
    have status : doneStatus (decide (tolerance ≠ 0xFFFF) && decide (8 < tolerance.toNat)) =
        if 8 < tolerance.toNat ∧ tolerance ≠ 65535 then .clamped else .ok := by
      simp only [doneStatus, Bool.and_eq_true, decide_eq_true_eq]
      exact if_congr and_comm rfl rfl
    rw [status] at joins
    refine .of_commanded (f := takeCommand w tag incoming mode field outCue inCue tolerance preroll) rfl running
      (q := joinTake i _ s.part) ?_ ⟨joinTake_island i _ s.part, ((modIsland_frame i _ s.part).answered _)⟩
    rw [takeCommand, joins]
    exact congrArg (·, _) (followTakeOf_waits named waits)

end Sys2Proof.Machine
end

section
/-! PROOFS. Where the MOVE of a commit stands at the link (R101, R118, R126), and the STANDBY command (R111). -/

namespace Sys2Proof.Machine

/-! ### The MOVEs at the link -/

/-- The entries the link has: those that wait, and the one in flight. -/
def LinkUnit.hand (k : LinkUnit) : List Entry := k.queue ++ k.flight.toList.map (·.entry)

theorem LinkUnit.mem_hand {k : LinkUnit} {e : Entry} : e ∈ k.hand ↔ e ∈ k.queue ∨ ∃ f, k.flight = some f ∧ f.entry = e := by
  simp [LinkUnit.hand]

theorem joinPoll_hand (i : IslandId) {p : Part} {e : Entry} (m : e ∈ p.link.hand) : e ∈ (joinPoll i p).link.hand := by
  rw [LinkUnit.mem_hand] at m
  unfold joinPoll
  split
  · exact LinkUnit.mem_hand.2 (m.imp_left (List.mem_append_left _))
  · exact LinkUnit.mem_hand.2 m

theorem joinPolls_hand {p : Part} {e : Entry} (m : e ∈ p.link.hand) : e ∈ (joinPolls p).link.hand := by
  unfold joinPolls
  dsimp only
  split
  · exact joinPoll_hand _ m
  · exact joinPoll_hand _ (joinPoll_hand _ m)

theorem selectEntry_hand {p : Part} {e : Entry} (m : e ∈ p.link.hand) : e ∈ (selectEntry p).link.hand := by
  rw [LinkUnit.mem_hand] at m
  unfold selectEntry
  split
  · rename_i front rest idle free queue
    rw [queue, free] at m
    rw [LinkUnit.mem_hand, beginTransaction_link]
    obtain waits | ⟨f, flies, -⟩ := m
    · obtain rfl | behind := List.mem_cons.1 waits
      · exact .inr ⟨_, rfl, rfl⟩
      · exact .inl behind
    · cases flies
  · exact LinkUnit.mem_hand.2 m

theorem pumpLink_hand {p : Part} {e : Entry} (m : e ∈ p.link.hand) : e ∈ (pumpLink p).link.hand :=
  joinPolls_hand (selectEntry_hand (joinPolls_hand m))

/-- What a POLL that joins leaves of a station goes on as entries join and are selected. -/
theorem pumpLink_station {α : Type} (g : Station → α) (keeps : ∀ s : Station, g { s with due := false } = g s) (i : IslandId) (p : Part) :
    g ((pumpLink p).link.stations.get i) = g (p.link.stations.get i) := by
  have poll : ∀ j (q : Part), g ((joinPoll j q).link.stations.get i) = g (q.link.stations.get i) := fun j q => by
    unfold joinPoll
    split
    · rw [Part.modStation_link]
      by_cases same : i = j
      · subst same
        rw [Two.get_set_same, keeps]
      · rw [Two.get_set_ne _ _ same]
    · rfl
  have polls : ∀ q : Part, g ((joinPolls q).link.stations.get i) = g (q.link.stations.get i) := fun q => by
    unfold joinPolls
    dsimp only
    split
    · exact poll _ _
    · exact (poll _ _).trans (poll _ _)
  have selects : ∀ q : Part, (selectEntry q).link.stations = q.link.stations := fun q => by
    unfold selectEntry
    split
    · rw [beginTransaction_link]
    · rfl
  rw [pumpLink, polls, selects, polls]

theorem pumpLink_fast (i : IslandId) (p : Part) : ((pumpLink p).link.stations.get i).fast = (p.link.stations.get i).fast :=
  pumpLink_station _ (fun _ => rfl) i p

theorem pumpLink_countdown (i : IslandId) (p : Part) :
    ((pumpLink p).link.stations.get i).countdown = (p.link.stations.get i).countdown :=
  pumpLink_station _ (fun _ => rfl) i p

theorem mem_replaceMove {i : IslandId} {r : Request} {e : Entry} (other : e.isMoveOf i = false) {n : Nat} {l : List Entry}
    (m : e ∈ l) : e ∈ replaceMove i r n l := by
  induction l generalizing n with
  | nil => cases m
  | cons d l ih =>
    unfold replaceMove
    obtain rfl | behind := List.mem_cons.1 m
    · rw [if_neg (by simp [other])]
      exact List.mem_cons_self ..
    · split
      · split
        · exact List.mem_cons_of_mem _ behind
        · exact List.mem_cons_of_mem _ (ih behind)
      · exact List.mem_cons_of_mem _ (ih behind)

/-- Where enough MOVEs of the island wait, one takes the new request. -/
theorem replaceMove_replaces {i : IslandId} {r : Request} {n : Nat} {l : List Entry} (enough : n < l.countP (Entry.isMoveOf i)) :
    ∃ e ∈ replaceMove i r n l, e.island = i ∧ e.request = r := by
  induction l generalizing n with
  | nil => simp at enough
  | cons d l ih =>
    unfold replaceMove
    split
    · rename_i mine
      have island : d.island = i := by simp [Entry.isMoveOf] at mine; exact mine.1
      cases n with
      | zero => exact ⟨_, List.mem_cons_self .., island, rfl⟩
      | succ n =>
        rw [List.countP_cons_of_pos mine] at enough
        obtain ⟨e, m, x⟩ := ih (Nat.lt_of_succ_lt_succ enough)
        exact ⟨e, List.mem_cons_of_mem _ m, x⟩
    · rename_i other
      rw [List.countP_cons_of_neg other] at enough
      obtain ⟨e, m, x⟩ := ih enough
      exact ⟨e, List.mem_cons_of_mem _ m, x⟩

/-- The MOVE of a commit is among the waiting entries, joined, merged or in another's place (R118). -/
theorem joinMove_there (i : IslandId) (port : Port) (asked : Stamp) (l : List Entry) :
    ∃ e ∈ joinMove i port asked l, e.isMove = true ∧ e.island = i ∧ e.request.port? = some port := by
  unfold joinMove
  dsimp only
  split
  · rename_i merged
    obtain ⟨e, last, is⟩ := Option.bind_eq_some_iff.1 merged
    obtain ⟨member, mine⟩ := List.mem_filter.1 (List.mem_of_getLast? last)
    simp only [Entry.isMoveOf, Bool.and_eq_true, decide_eq_true_eq] at mine
    exact ⟨e, member, mine.2, mine.1, is⟩
  · split
    · rename_i two
      obtain ⟨e, member, island, request⟩ := replaceMove_replaces (r := .move port asked) (n := 1) (i := i) (l := l)
        (by rw [List.countP_eq_length_filter]; omega)
      exact ⟨e, member, by rw [Entry.isMove, request], island, by rw [request]; rfl⟩
    · exact ⟨⟨i, .move port asked⟩, by simp, rfl, rfl, rfl⟩

theorem joinMove_keeps {i : IslandId} (port : Port) (asked : Stamp) {l : List Entry} {e : Entry} (m : e ∈ l) (move : e.isMove = true)
    (other : e.island ≠ i) : e ∈ joinMove i port asked l := by
  unfold joinMove
  dsimp only
  split
  · exact m
  · split
    · exact mem_replaceMove (by simp [Entry.isMoveOf, other]) m
    · simp [m, move]

theorem countP_moves {l : List Entry} (all : ∀ e ∈ l, e.isMove = true) :
    l.countP (Entry.isMoveOf .i1) + l.countP (Entry.isMoveOf .i2) = l.length := by
  induction l with
  | nil => rfl
  | cons e l ih =>
    have rest := ih fun d m => all d (List.mem_cons_of_mem _ m)
    have move := all e (List.mem_cons_self ..)
    have one : (if e.isMoveOf .i1 = true then 1 else 0) + (if e.isMoveOf .i2 = true then 1 else 0) = 1 := by
      simp only [Entry.isMoveOf, move, Bool.and_true, decide_eq_true_eq]
      cases e.island <;> rfl
    rw [List.countP_cons, List.countP_cons, List.length_cons]
    omega

/-- A queue over its room gives up a POLL, not a MOVE (R118). -/
theorem dropPoll_move {p : Part} (rules : QueueRules p.link.queue p.link.flight) {e : Entry} (m : e ∈ p.link.queue)
    (move : e.isMove = true) : e ∈ (dropPoll p).link.queue := by
  unfold dropPoll
  split
  · exact m
  · rename_i excess
    split
    · rename_i d last
      obtain ⟨front, queue⟩ : ∃ front, p.link.queue = front ++ [d] := by
        obtain ⟨front, is⟩ := List.getLast?_eq_some_iff.1 last
        exact ⟨front, is⟩
      have poll : d.isMove = false := by
        by_contra moves
        have all : ∀ b ∈ p.link.queue, b.isMove = true := fun b member => by
          have order := rules.order
          rw [queue] at order member
          obtain inFront | is := List.mem_append.1 member
          · exact (List.pairwise_append.1 order).2.2 b inFront d (List.mem_singleton_self d) (by simpa using moves)
          · rw [List.mem_singleton.1 is]
            simpa using moves
        have few := Nat.add_le_add (rules.moves .i1) (rules.moves .i2)
        have count : p.link.queue.countP (Entry.isMoveOf .i1) + p.link.queue.countP (Entry.isMoveOf .i2) = p.link.queue.length := countP_moves all
        rw [count] at few
        exact excess few
      change e ∈ p.link.queue.dropLast
      rw [queue] at m ⊢
      rw [List.dropLast_concat]
      obtain inFront | is := List.mem_append.1 m
      · exact inFront
      · rw [List.mem_singleton.1 is, poll] at move
        cases move
    · exact m

theorem dropPoll_flight (p : Part) : (dropPoll p).link.flight = p.link.flight := by
  unfold dropPoll
  split
  · rfl
  · split <;> rfl

/-- The link's hand after a commit's MOVE: the MOVE itself, and every MOVE of the other island. -/
theorem submitMove_hand {i : IslandId} {port : Port} {asked : Stamp} {p : Part} (sound : p.link.sound = true) :
    (∃ e ∈ (submitMove i port asked p).link.hand, e.island = i ∧ e.request.port? = some port) ∧
    ∀ e ∈ p.link.queue, e.isMove = true → e.island ≠ i → e ∈ (submitMove i port asked p).link.hand := by
  have rules := (joinMove_rules (LinkUnit.ready_of_sound sound).1 i port asked).1
  have joined : ∀ e ∈ joinMove i port asked p.link.queue, e.isMove = true → e ∈ (submitMove i port asked p).link.hand :=
    fun e m move => pumpLink_hand (p := Part.modStation _ i _) (LinkUnit.mem_hand.2 (.inl
      (dropPoll_move (p := { p with link := { p.link with queue := joinMove i port asked p.link.queue } }) rules m move)))
  refine ⟨?_, fun e m move other => joined e (joinMove_keeps port asked m move other) move⟩
  obtain ⟨e, member, move, island, is⟩ := joinMove_there i port asked p.link.queue
  exact ⟨e, joined e member move, island, is⟩

theorem submitMove_fast (i : IslandId) (port : Port) (asked : Stamp) (p : Part) :
    ((submitMove i port asked p).link.stations.get i).fast = true := by
  unfold submitMove
  rw [pumpLink_fast, Part.modStation_link, Two.get_set_same]

/-! ### STANDBY -/

theorem standbyNow_island (i : IslandId) (p : Part) : (standbyNow i p).island i = { p.island i with
    mirror := .moving (p.island i).settings.standbyPort
    confirm := some { target := .standby, port := (p.island i).settings.standbyPort, cut := p.leadField i
                      deadline := Stamp.plus (p.leadField i) (p.island i).settings.grace, owner := .island } } :=
  commit_island i .standby (p.leadField i) .island p

/-- A commit marks the island and submits the MOVE (R101). -/
theorem commit_eq (i : IslandId) (s : Source) (c : Stamp) (o : Owner) (p : Part) :
    ∃ f, commit i s c o p = submitMove i (p.portOf i s) p.ref.count (p.modIsland i f) := ⟨_, rfl⟩

theorem endFront_island {i : IslandId} {p : Part} {t : Take} {rest : List Take} (takes : (p.island i).takes = t :: rest)
    (o : TakeOutcome) (r : Reason) : (endFront i o r p).island i = { p.island i with takes := rest } := by
  simp only [endFront, takes]
  rw [post_island, modIsland_island]

theorem endFront_link (i : IslandId) (o : TakeOutcome) (r : Reason) (p : Part) : (endFront i o r p).link = p.link :=
  (endFront_frame i o r p .link (by simp [Block.taking, Block.posting])).symm

/-- The TAKE_END of a front take that ends. -/
theorem endFront_awaits {k : Nat} {es : List Event} {i : IslandId} {p : Part} {t : Take} (a : Awaits k es p)
    (active : (p.island i).active = some t) (free : k < Config.maxEvents) (o : TakeOutcome) (r : Reason) :
    Awaits (k + 1) (es ++ [⟨.island i, p.ref.count, t.endItem o r⟩]) (endFront i o r p) := by
  obtain ⟨rest, takes⟩ : ∃ rest, (p.island i).takes = t :: rest := by
    obtain ⟨front, -⟩ := Island.active_eq_some.1 active
    cases list : (p.island i).takes with
    | nil => rw [list] at front; cases front
    | cons u rest => rw [list] at front; cases front; exact ⟨rest, rfl⟩
  simp only [endFront, takes]
  exact (a.of_evt (q := p.modIsland i fun x => { x with takes := rest }) rfl).post (.island i) (t.endItem o r) free

theorem commit_awaits {k : Nat} {es : List Event} {p : Part} (a : Awaits k es p) (i : IslandId) (s : Source) (c : Stamp) (o : Owner) :
    Awaits (k + 1) es (commit i s c o p) := by
  obtain ⟨f, is⟩ := commit_eq i s c o p
  rw [is]
  have marked : Awaits k es (p.modIsland i f) := a.of_evt rfl
  exact submitMove_awaits marked i _ _

/-- The island of a STANDBY request (R111). -/
theorem standbyRequest_island (i : IslandId) (p : Part) : (standbyRequest i p).island i = { p.island i with
    mirror := .moving (p.island i).settings.standbyPort
    confirm := some { target := .standby, port := (p.island i).settings.standbyPort, cut := p.leadField i
                      deadline := Stamp.plus (p.leadField i) (p.island i).settings.grace, owner := .island }
    takes := if (p.island i).active.isSome then (p.island i).takes.tail else (p.island i).takes } := by
  have now := standbyNow_island i p
  have active : ((standbyNow i p).island i).active = (p.island i).active := by
    rw [now]
    rfl
  unfold standbyRequest
  dsimp only
  rw [active]
  cases a : (p.island i).active with
  | none =>
    rw [if_neg (by simp), if_neg (by simp)]
    exact now
  | some t =>
    obtain ⟨front, -⟩ := Island.active_eq_some.1 a
    have takes : (p.island i).takes = t :: (p.island i).takes.tail := (List.cons_head?_tail front).symm
    rw [if_pos (show (some t).isSome = true from rfl), if_pos (show (some t).isSome = true from rfl), endFront_island (t := t) (rest := (p.island i).takes.tail) (by rw [now]; exact takes), now]

theorem standbyRequest_link (i : IslandId) (p : Part) : (standbyRequest i p).link = (standbyNow i p).link := by
  unfold standbyRequest
  dsimp only
  split
  · exact endFront_link _ _ _ _
  · rfl

theorem standbyRequest_holds {i : IslandId} {p : Part} {t : Take} (l : p.listens) (active : (p.island i).active = some t) :
    Holds [⟨.island i, p.ref.count, t.endItem .aborted .standby⟩] (standbyRequest i p) := by
  have now := standbyNow_island i p
  have active' : ((standbyNow i p).island i).active = some t := by
    rw [now]
    exact active
  have ref : (standbyNow i p).ref = p.ref :=
    (standbyNow_frame i p .ref (by simp [Block.committing, Block.linking, Block.posting])).symm
  unfold standbyRequest
  dsimp only
  rw [if_pos (by rw [active']; rfl)]
  have ends := endFront_awaits (commit_awaits l.awaits i .standby (p.leadField i) .island) active' (by decide) .aborted .standby
  exact ref ▸ ends.holds

/-- Settles O36: `standbyRequest` is a standby commit, and the end of the active take. -/
theorem standbyCommand_settled : Obligations.StandbyCommand := by
  intro s w i running x z cut
  refine ⟨fun bad => .of_commanded (f := standbyCommand w) rfl running (onIsland_none _ _ bad), fun named => ?_⟩
  have does : standbyCommand w s.part = (standbyRequest i s.part, .ok) := onIsland_some _ _ named
  have island := standbyRequest_island i s.part
  have link := standbyRequest_link i s.part
  have frame := standbyRequest_frame i s.part
  have told := fun t l active => standbyRequest_holds (i := i) (p := s.part) (t := t) l active
  obtain ⟨f, is⟩ := commit_eq i .standby (s.part.leadField i) .island s.part
  have now : standbyNow i s.part = _ := is
  have ref : (standbyRequest i s.part).ref = s.part.ref :=
    (frame .ref (by simp [Block.committing, Block.linking, Block.posting])).symm
  generalize standbyRequest i s.part = q at does island link frame told ref
  refine .of_commanded (f := standbyCommand w) rfl running does ⟨island, fun t active l => ?_, ?_, fun sound => ?_, frame.answered _⟩
  · exact (told t l active).tells (by rw [ref]; rfl)
  · show (q.link.stations.get i).fast = true
    rw [link, now]
    exact submitMove_fast _ _ _ _
  · show (∃ e ∈ q.link.hand, _) ∧ ∀ e ∈ s.part.link.queue, _ → _ → e ∈ q.link.hand
    rw [link, now]
    exact submitMove_hand (p := s.part.modIsland i f) sound

end Sys2Proof.Machine
end

section
/-! PROOFS. Cue tables: the rules of a table as one inserts into it and removes from it, and the commands (R53 to R57). -/

namespace Sys2Proof.Machine

/-! ### The rules of a table -/

theorem ascending_iff {l : List Cue} : ascending l = true ↔ l.Pairwise fun c d => c.frame < d.frame := by
  induction l with
  | nil => simp [ascending]
  | cons c l ih => rw [ascending_cons, List.pairwise_cons, ih]

theorem Head.cuesSound_iff {x : Head} : x.cuesSound = true ↔ x.cues.length ≤ 32 ∧ (x.cues.Pairwise fun c d => c.frame < d.frame) ∧
    (x.cues.map (·.id)).Nodup ∧ ∀ c ∈ x.cues, c.passed = decide (c.frame ≤ x.pos.frame) := by
  simp only [Head.cuesSound, Bool.and_eq_true, decide_eq_true_eq, ascending_iff, List.all_eq_true, and_assoc]
  rfl

theorem insertCue_perm (c : Cue) (l : List Cue) : (insertCue c l).Perm (c :: l) := by
  induction l with
  | nil => rfl
  | cons d l ih =>
    unfold insertCue
    split
    · rfl
    · exact (ih.cons d).trans (.swap c d l)

theorem insertCue_ascending {c : Cue} {l : List Cue} (a : l.Pairwise fun c d => c.frame < d.frame)
    (fresh : ∀ d ∈ l, d.frame ≠ c.frame) : (insertCue c l).Pairwise fun c d => c.frame < d.frame := by
  induction l with
  | nil => exact List.pairwise_singleton _ _
  | cons d l ih =>
    obtain ⟨before, rest⟩ := List.pairwise_cons.1 a
    unfold insertCue
    split
    · rename_i less
      refine List.pairwise_cons.2 ⟨fun b m => ?_, a⟩
      obtain rfl | behind := List.mem_cons.1 m
      · exact less
      · exact less.trans (before b behind)
    · rename_i more
      refine List.pairwise_cons.2 ⟨fun b m => ?_, ih rest fun e m => fresh e (List.mem_cons_of_mem _ m)⟩
      obtain rfl | behind := List.mem_cons.1 ((insertCue_perm c l).mem_iff.1 m)
      · have other := fresh d (List.mem_cons_self ..)
        omega
      · exact before b behind

theorem Head.cuesSound_insert {x : Head} {c : Cue} (a : x.cuesSound = true) (room : x.cues.length < 32)
    (fresh : ∀ d ∈ x.cues, d.id ≠ c.id ∧ d.frame ≠ c.frame) (passed : c.passed = decide (c.frame ≤ x.pos.frame)) :
    ({ x with cues := insertCue c x.cues } : Head).cuesSound = true := by
  obtain ⟨-, order, ids, states⟩ := Head.cuesSound_iff.1 a
  have perm := insertCue_perm c x.cues
  refine Head.cuesSound_iff.2 ⟨?_, insertCue_ascending order fun d m => (fresh d m).2, ?_, fun d m => ?_⟩
  · rw [perm.length_eq]
    exact room
  · rw [(perm.map _).nodup_iff, List.map_cons, List.nodup_cons]
    refine ⟨fun m => ?_, ids⟩
    obtain ⟨d, member, same⟩ := List.mem_map.1 m
    exact (fresh d member).1 same
  · obtain rfl | old := List.mem_cons.1 (perm.mem_iff.1 m)
    · exact passed
    · exact states d old

/-- A table of some of the cues keeps the rules. -/
theorem Head.cuesSound_filter {x : Head} (a : x.cuesSound = true) (f : Cue → Bool) :
    ({ x with cues := x.cues.filter f } : Head).cuesSound = true := by
  obtain ⟨room, order, ids, states⟩ := Head.cuesSound_iff.1 a
  exact Head.cuesSound_iff.2 ⟨(List.length_filter_le _ _).trans room, order.filter _, ids.sublist (List.filter_sublist.map _),
    fun d m => states d (List.mem_filter.1 m).1⟩

theorem Head.cuesSound_of {x y : Head} (cues : y.cues = x.cues) (pos : y.pos = x.pos) : y.cuesSound = x.cuesSound := by
  rw [Head.cuesSound, Head.cuesSound, cues, pos]

theorem Head.cuesSound_steered {x y : Head} (a : x.steered y) : y.cuesSound = x.cuesSound :=
  Head.cuesSound_of (Head.steered_keeps a).2.2 (Head.steered_keeps a).1

/-! ### The words of LOAD_CUE -/

theorem readCueKind_eq_none {w : Word} : readCueKind w = none ↔ 4 < w.toNat := by
  unfold readCueKind
  split <;> simp_all
  omega

theorem readFlag_eq (w : Word) : readFlag w = if 1 < w.toNat then none else some (decide (w = 1)) := by
  by_cases far : 1 < w.toNat
  · rw [if_pos far, readFlag]
    split
    · omega
    · omega
    · rfl
  · rw [if_neg far]
    obtain e | e : w.toNat = 0 ∨ w.toNat = 1 := by omega
    · rw [toNat_of_lt e (by decide)]
      rfl
    · rw [toNat_of_lt e (by decide)]
      rfl

/-- What a LOAD_CUE puts in the table (R54). -/
def Cue.loaded (id : Nat) (frame : Int) (k : CueKind) (window : Word) (correct : Bool) (x : Head) : Cue :=
  { id := id, frame := frame, kind := k, correct := correct, confirm := .none, window := readWindow window
    passed := decide (frame ≤ x.pos.frame) }

def loadedCue (id window correct : Word) (frame : BitVec 32) (k : CueKind) (x : Head) : Cue :=
  .loaded id.toNat frame.toInt k window (decide (correct = 1)) x

/-- What makes the words of a LOAD_CUE malformed (R54). -/
def badCue (id kind correct : Word) (frame : BitVec 32) : Prop :=
  255 < id.toNat ∨ 4 < kind.toNat ∨ 1 < correct.toNat ∨ frame.toInt < -99999 ∨ 999999 < frame.toInt

section
variable {w id kind window correct : Word} {frame : BitVec 32} {h : HeadId} {p : Part} (named : readHead w = some h)
include named

theorem loadCueCommand_of : loadCueCommand w id kind frame window correct p =
    match readCueKind kind, readFlag correct, readFrame frame with
    | some k, some b, some f =>
      if 255 < id.toNat then (p, .badArgument)
      else if (p.head h).cues.any fun c => c.id = id.toNat ∨ c.frame = f then (p, .duplicate)
      else if Config.maxCues ≤ (p.head h).cues.length then (p, .tableFull)
      else
        (reviewCues (p.modHead h fun x =>
          { x with cues := insertCue (.loaded id.toNat f k window b (p.head h)) x.cues }), doneStatus (15 < window.toNat))
    | _, _, _ => (p, .badArgument) := onHead_some _ _ named

theorem loadCueCommand_bad (bad : badCue id kind correct frame) :
    loadCueCommand w id kind frame window correct p = (p, .badArgument) := by
  rw [loadCueCommand_of named]
  split
  · rename_i k b f isKind isFlag isFrame
    obtain far | far | far | out := bad
    · exact if_pos far
    · exact nomatch (readCueKind_eq_none.2 far).symm.trans isKind
    · rw [readFlag_eq, if_pos far] at isFlag
      cases isFlag
    · exact nomatch (readFrame_eq_none out).symm.trans isFrame
  · rfl

theorem loadCueCommand_good (good : ¬ badCue id kind correct frame) {k : CueKind} (isKind : readCueKind kind = some k) :
    loadCueCommand w id kind frame window correct p =
      if (p.head h).cues.any fun c => c.id = id.toNat ∨ c.frame = frame.toInt then (p, .duplicate)
      else if Config.maxCues ≤ (p.head h).cues.length then (p, .tableFull)
      else (reviewCues (p.modHead h fun x => { x with cues := insertCue (loadedCue id window correct frame k (p.head h)) x.cues }),
        doneStatus (15 < window.toNat)) := by
  have fits : ¬ 255 < id.toNat := fun e => good (.inl e)
  have flag : ¬ 1 < correct.toNat := fun e => good (.inr (.inr (.inl e)))
  have low : -99999 ≤ frame.toInt := not_lt.1 fun e => good (.inr (.inr (.inr (.inl e))))
  have high : frame.toInt ≤ 999999 := not_lt.1 fun e => good (.inr (.inr (.inr (.inr e))))
  rw [loadCueCommand_of named, isKind, readFlag_eq, if_neg flag, readFrame_eq_some low high]
  exact if_neg fits

end

theorem Drives.reviewCues {h : HeadId} {x : Head} {k : Nat} {es : List Event} {p q : Part} (a : Drives h x k es p q) :
    Acts h x es p (reviewCues q) :=
  a.scheduled ((followEnds_sched q).trans (settle_sched _)) (fun u => (settle_unplanned (followEnds_unplanned u)).trans rfl)
    (reviewCues_keeps (holds_reports es))

/-! ### A cue that a take names -/

/-- A take of island `i` names the cue of an id in the table of head `h` (R55). -/
def namesCue (p : Part) (h : HeadId) (id : Nat) (i : IslandId) (t : Take) : Prop :=
  t.incoming = .head h ∧ t.inCue = some id ∨
  t.state = .queued ∧ t.outCue = some id ∧ (p.head h).assigned.map (·.island) = some i ∨
  t.state ≠ .queued ∧ t.outgoing = some (.head h) ∧ (t.outCue = some id ∨ t.changeCue.map (·.id) = some id) ∨
  t.state ≠ .queued ∧ t.incoming = .head h ∧ t.sopCue.map (·.id) = some id

theorem names_iff {p : Part} {h : HeadId} {id : Nat} {i : IslandId} {t : Take} :
    Take.names p i h id t = true ↔ namesCue p h id i t := by
  simp only [Take.names, namesCue, Bool.or_eq_true, Bool.and_eq_true, decide_eq_true_eq, Option.any_eq_true, Option.map_eq_some_iff,
    isAssigned_iff, or_assoc, and_assoc, ne_eq]

theorem cueNamed_iff {p : Part} {h : HeadId} {id : Nat} : p.cueNamed h id = true ↔
    ∃ i, ∃ t ∈ (p.island i).takes, namesCue p h id i t := by
  simp only [Part.cueNamed, Bool.or_eq_true, List.any_eq_true, names_iff]
  exact ⟨fun a => a.elim (⟨.i1, ·⟩) (⟨.i2, ·⟩), fun ⟨i, a⟩ => by cases i <;> [exact .inl a; exact .inr a]⟩

/-- Settles O27: the checks of the three commands, and then a change of the table with a review. -/
theorem cueTableCommands : Obligations.CueTableCommands := by
  intro s w id kind frame window correct h running head x bad double here named cmd
  have load : ∀ st, loadCueCommand w id kind frame window correct s.part = (s.part, st) → Refuses cmd s st := fun st e =>
    .of_commanded (f := loadCueCommand w id kind frame window correct) rfl running e
  have deletes : deleteCueCommand w id s.part =
      if 255 < id.toNat then (s.part, .badArgument)
      else if (findCue (s.part.head h).cues id.toNat).isNone then (s.part, .notFound)
      else if s.part.cueNamed h id.toNat then (s.part, .inUse)
      else (reviewCues (s.part.modHead h fun x => { x with cues := x.cues.filter fun c => c.id ≠ id.toNat }), .ok) :=
    onHead_some _ _ head
  have clears : clearCuesCommand w s.part =
      if (s.part.head h).cues.any fun c => s.part.cueNamed h c.id then (s.part, .inUse)
      else (reviewCues (s.part.modHead h fun x => { x with cues := [] }), .ok) := onHead_some _ _ head
  have delete : ∀ st, deleteCueCommand w id s.part = (s.part, st) → Refuses (.deleteCue w id) s st := fun st e =>
    .of_commanded (f := deleteCueCommand w id) rfl running e
  have kindOf : ¬ bad → ∃ k, readCueKind kind = some k := fun n => Option.ne_none_iff_exists'.1 fun e =>
    n (.inr (.inl (readCueKind_eq_none.1 e)))
  have doubleIff : ((s.part.head h).cues.any fun c => decide (c.id = id.toNat ∨ c.frame = frame.toInt)) = true ↔ double := by
    simp only [List.any_eq_true, decide_eq_true_eq]
    rfl
  have there : (findCue (s.part.head h).cues id.toNat).isNone = true ↔ ¬ here := by
    rw [findCue_isNone]
    exact ⟨fun a ⟨c, m, e⟩ => a c m e, fun a c m e => a ⟨c, m, e⟩⟩
  have reviewed : ∀ f : Head → Head, Acts h (f x) [] s.part (reviewCues (s.part.modHead h f)) := fun f =>
    ((Drives.refl h s.part).modHead f).reviewCues
  refine ⟨fun b => load _ (loadCueCommand_bad head b), fun n d => load _ ?_, fun n d full => load _ ?_,
    fun n d room k isKind => ?load, fun far => delete _ ?_, fun fits gone => delete _ ?_, fun fits h' use => delete _ ?_,
    fun fits h' free => ?delete, fun use => ?used, fun free => ?clear⟩
  case load =>
    have does := loadCueCommand_good (window := window) (p := s.part) head n isKind
    rw [if_neg (mt doubleIff.1 d), if_neg (show ¬ Config.maxCues ≤ _ from Nat.not_le.2 room)] at does
    have acts := reviewed fun y => { y with cues := insertCue (loadedCue id window correct frame k x) y.cues }
    change loadCueCommand w id kind frame window correct s.part = (reviewCues (s.part.modHead h fun y =>
      { y with cues := insertCue (loadedCue id window correct frame k x) y.cues }), _) at does
    generalize reviewCues _ = q at does acts
    have cues : (q.head h).cues = insertCue (loadedCue id window correct frame k x) x.cues := (Head.steered_keeps acts.head).2.2
    have status : doneStatus (decide (15 < window.toNat)) = if 15 < window.toNat then .clamped else .ok := by
      simp only [doneStatus, decide_eq_true_eq]
    rw [status] at does
    refine .of_commanded (f := loadCueCommand w id kind frame window correct) rfl running does
      ⟨?_, fun sound => ?_, ?_, acts.others, acts.frame.answered _⟩
    · exact cues ▸ insertCue_perm _ _
    · have fresh : ∀ c ∈ x.cues, c.id ≠ id.toNat ∧ c.frame ≠ frame.toInt := fun c m => not_or.1 fun e => d ⟨c, m, e⟩
      have kept := Head.cuesSound_insert sound room (c := loadedCue id window correct frame k x) fresh rfl
      exact (Head.cuesSound_steered acts.head).trans kept
    · exact (congrArg (fun c => ({ x with cues := c } : Head)) cues) ▸ acts.head
  case delete =>
    have acts := reviewed fun y => { y with cues := y.cues.filter fun c => c.id ≠ id.toNat }
    rw [if_neg (Nat.not_lt.2 fits), if_neg (fun e => there.1 e h'), if_neg (mt cueNamed_iff.1 free)] at deletes
    generalize reviewCues _ = q at deletes acts
    exact .of_commanded (f := deleteCueCommand w id) rfl running deletes ⟨acts.head, acts.others, acts.frame.answered _⟩
  case used =>
    obtain ⟨c, m, use⟩ := use
    refine .of_commanded (f := clearCuesCommand w) rfl running (clears.trans (if_pos ?_))
    exact List.any_eq_true.2 ⟨c, m, cueNamed_iff.2 use⟩
  case clear =>
    have acts := reviewed fun y => { y with cues := [] }
    have none : ¬ ((s.part.head h).cues.any fun c => s.part.cueNamed h c.id) = true := fun e => by
      obtain ⟨c, m, use⟩ := List.any_eq_true.1 e
      exact free c m (cueNamed_iff.1 use)
    rw [if_neg none] at clears
    generalize reviewCues _ = q at clears acts
    exact .of_commanded (f := clearCuesCommand w) rfl running clears ⟨acts.head, acts.others, acts.frame.answered _⟩
  · obtain ⟨k, isKind⟩ := kindOf n
    rw [loadCueCommand_good head n isKind]
    exact if_pos (doubleIff.2 d)
  · obtain ⟨k, isKind⟩ := kindOf n
    rw [loadCueCommand_good head n isKind, if_neg (mt doubleIff.1 d)]
    exact if_pos full
  · rw [deletes]
    exact if_pos far
  · rw [deletes, if_neg (Nat.not_lt.2 fits)]
    exact if_pos (there.2 gone)
  · rw [deletes, if_neg (Nat.not_lt.2 fits), if_neg (fun e => there.1 e h')]
    exact if_pos (cueNamed_iff.2 use)

end Sys2Proof.Machine
end

section
/-! PROOFS. The rules of a head, and the moves of its controller that keep them (R16, R17, R26, R27, R30, R38, R66). -/

namespace Sys2Proof.Machine

/-! ### The rules, by name -/

/-- `Head.sound`, rule by rule. -/
structure Head.Sound (x : Head) : Prop where
  outputs : x.outputs = motor x.drive x.cueUp x.outputs.lamp
  fault : x.fault.isSome = decide (x.drive = .fault)
  dark : x.fault.isSome = true → x.outputs.lamp = false
  park : x.park.isSome = decide (x.drive = .parked)
  cueUp : x.cueUp.isSome = (x.drive.cueing || decide (x.drive = .settling))
  gap : x.gapFrom.isSome = x.drive.driven
  settle : x.settleFrom.isSome = (decide (x.drive = .settling) || decide (x.drive = .stopping))
  measuring : x.cadence.measuring = x.drive.running
  low : -99999 ≤ x.pos.frame
  high : x.pos.frame ≤ 999999
  phase : x.pos.phase < x.settings.gauge.perfs

theorem Head.sound_iff {x : Head} : x.sound = true ↔ x.Sound := by
  simp only [Head.sound, Bool.and_eq_true, decide_eq_true_eq, Bool.or_eq_true, Bool.not_eq_true']
  constructor
  · rintro ⟨⟨⟨⟨⟨⟨⟨⟨⟨⟨a, b⟩, c⟩, d⟩, e⟩, f⟩, g⟩, i⟩, j⟩, k⟩, l⟩
    refine ⟨a, b, fun some => ?_, d, e, f, g, i, j, k, l⟩
    exact c.resolve_left fun none => nomatch none.symm.trans some
  · rintro ⟨a, b, c, d, e, f, g, i, j, k, l⟩
    refine ⟨⟨⟨⟨⟨⟨⟨⟨⟨⟨a, b⟩, ?_⟩, d⟩, e⟩, f⟩, g⟩, i⟩, j⟩, k⟩, l⟩
    cases s : x.fault.isSome
    · exact .inl rfl
    · exact .inr (c s)

/-! ### A change of drive state -/

/-- What a head needs, to be sound after it has entered drive state `d`. -/
structure Head.Enters (x : Head) (d : DriveState) : Prop where
  fault : x.fault.isSome = decide (d = .fault)
  park : d = .parked → x.park.isSome = true
  cueUp : d.cueing = true ∨ d = .settling → x.cueUp.isSome = true
  gap : x.gapFrom.isSome = x.drive.driven
  settle : d = .stopping → x.drive = .settling → x.settleFrom.isSome = true
  measuring : x.cadence.measuring = x.drive.running
  running : d.running = true → x.drive.running = true
  low : -99999 ≤ x.pos.frame
  high : x.pos.frame ≤ 999999
  phase : x.pos.phase < x.settings.gauge.perfs

/-- A head as `enterDrive` leaves it. -/
def Head.entered (x : Head) (d : DriveState) (now : Nat) : Head :=
  if x.drive.running && !d.running then { x.enter d now with cadence := x.cadence.stopped } else x.enter d now

theorem Head.Enters.entered {x : Head} {d : DriveState} (a : x.Enters d) (now : Nat) : (x.entered d now).Sound := by
  have cueing : (if (d.cueing || decide (d = .settling)) = true then x.cueUp else none).isSome = (d.cueing || decide (d = .settling)) := by
    split
    · rename_i cue
      rw [cue]
      exact a.cueUp (by simpa using cue)
    · rename_i none
      simpa using none
  have base : ∀ c : Cadence, c.measuring = d.running → ({ x.enter d now with cadence := c } : Head).Sound := fun c measuring => by
    have gap := a.gap
    constructor
    case outputs =>
      cases d <;> rfl
    case fault => exact a.fault
    case dark =>
      intro some
      have is : d = .fault := by simpa using a.fault.symm.trans some
      rw [is]
      rfl
    case park =>
      show (if d = .parked then x.park else none).isSome = decide (d = .parked)
      split
      · rename_i is
        rw [a.park is, is]
        rfl
      · rename_i other
        rw [decide_eq_false other]
        rfl
    case cueUp =>
      exact cueing
    case gap =>
      show (gapStart x.drive d x.gapFrom now).isSome = d.driven
      unfold gapStart
      split
      · rename_i driven
        rw [driven]
        split
        · rename_i before
          rw [gap, before]
        · rfl
      · rename_i still
        simpa using still
    case settle =>
      show (settleStart x.drive d x.settleFrom now).isSome = (decide (d = .settling) || decide (d = .stopping))
      cases d <;> try rfl
      show (if x.drive = .settling then x.settleFrom else some now).isSome = true
      split
      · rename_i is
        exact a.settle rfl is
      · rfl
    case measuring => exact measuring
    case low => exact a.low
    case high => exact a.high
    case phase => exact a.phase
  unfold Head.entered
  split
  · rename_i leaves
    simp only [Bool.and_eq_true, Bool.not_eq_true'] at leaves
    exact base x.cadence.stopped leaves.2.symm
  · rename_i stays
    refine base x.cadence (a.measuring.trans ?_)
    have running := a.running
    revert stays running
    cases x.drive.running <;> cases d.running <;> simp

/-- A sound head enters a state that needs no more of it. -/
theorem Head.Sound.enters {x : Head} (a : x.Sound) {d : DriveState} (clear : x.drive ≠ .fault) (fault : d ≠ .fault)
    (parked : d ≠ .parked) (running : d.running = true → x.drive.running = true)
    (cue : d.cueing = true ∨ d = .settling → x.drive.cueing = true ∨ x.drive = .settling) : x.Enters d where
  fault := by rw [a.fault, decide_eq_false clear, decide_eq_false fault]
  park e := absurd e parked
  cueUp e := by rw [a.cueUp]; simpa using cue e
  gap := a.gap
  settle _ e := by rw [a.settle, e]; rfl
  measuring := a.measuring
  running := running
  low := a.low
  high := a.high
  phase := a.phase

/-! ### Moves -/

/-- A head after a move of its controller: its place, its settings, its assignment and its cues are as they were, and it is
sound if it was. -/
structure Head.Moves (x y : Head) : Prop where
  pos : y.pos = x.pos
  settings : y.settings = x.settings
  assigned : y.assigned = x.assigned
  cues : y.cues = x.cues
  sound : x.Sound → y.Sound

theorem Head.Moves.refl (x : Head) : x.Moves x := ⟨rfl, rfl, rfl, rfl, id⟩

theorem Head.Moves.trans {x y z : Head} (a : x.Moves y) (b : y.Moves z) : x.Moves z :=
  ⟨b.pos.trans a.pos, b.settings.trans a.settings, b.assigned.trans a.assigned, b.cues.trans a.cues, fun s => b.sound (a.sound s)⟩

theorem Head.entered_place (x : Head) (d : DriveState) (now : Nat) : (x.entered d now).pos = x.pos ∧
    (x.entered d now).settings = x.settings ∧ (x.entered d now).assigned = x.assigned ∧ (x.entered d now).cues = x.cues := by
  unfold Head.entered
  split <;> exact ⟨rfl, rfl, rfl, rfl⟩

theorem Head.Moves.entered {x y : Head} (a : x.pos = y.pos ∧ x.settings = y.settings ∧ x.assigned = y.assigned ∧ x.cues = y.cues)
    {d : DriveState} (now : Nat) (e : y.Sound → x.Enters d) : y.Moves (x.entered d now) := by
  obtain ⟨pos, settings, assigned, cues⟩ := x.entered_place d now
  exact ⟨pos.trans a.1, settings.trans a.2.1, assigned.trans a.2.2.1, cues.trans a.2.2.2, fun s => (e s).entered now⟩

/-- Other records of a Cadence Monitor that measures, or does not, as before. -/
theorem Head.Moves.cadence (x : Head) {c : Cadence} (same : c.measuring = x.cadence.measuring) : x.Moves { x with cadence := c } :=
  ⟨rfl, rfl, rfl, rfl, fun s => { s with measuring := same.trans s.measuring }⟩

theorem Head.Moves.lit {x : Head} {on : Bool} (now : Nat) (ok : on = true → x.drive ≠ .fault) : x.Moves (x.lit on now) := by
  refine ⟨rfl, rfl, rfl, rfl, fun s => { s with outputs := ?_, dark := fun some => ?_ }⟩
  · show { x.outputs with lamp := on } = motor x.drive x.cueUp on
    rw [s.outputs]
    cases x.drive <;> rfl
  · have is : x.drive = .fault := by simpa using s.fault.symm.trans some
    cases on with
    | true => exact absurd is (ok rfl)
    | false => rfl

/-- From `p` to `q` head `h` alone was driven, by moves of its controller. -/
structure Moved (h : HeadId) (p q : Part) : Prop where
  frame : ChangesOnly (Block.driving h) p q
  head : (p.head h).Moves (q.head h)

section
variable {h : HeadId} {p q r : Part}

theorem Moved.refl : Moved h p p := ⟨.refl _ p, .refl _⟩

theorem Moved.trans (a : Moved h p q) (b : Moved h q r) : Moved h p r := ⟨a.frame.trans b.frame, a.head.trans b.head⟩

theorem Moved.ite {c : Prop} [Decidable c] (x : Moved h p q) (y : Moved h p r) : Moved h p (if c then q else r) := by
  split
  · exact x
  · exact y

theorem Moved.alarming (a : ChangesOnly Block.alarming p q) : Moved h p q where
  frame := a.mono fun _ m => List.mem_cons_of_mem _ (List.mem_cons_of_mem _ m)
  head := by rw [a.head (Block.head_alarming h)]; exact .refl _

theorem Moved.post (s : AlarmSource) (e : EventItem) : Moved h p (post s e p) := .alarming (post_alarming s e p)

theorem Moved.raise (s : AlarmSource) (k : AlarmKind) (a b : Word) : Moved h p (raiseAlarm s k a b p) :=
  .alarming (raiseAlarm_frame s k a b p)

theorem Moved.clear (s : AlarmSource) (k : AlarmKind) (a b : Word) : Moved h p (clearAlarm s k a b p) :=
  .alarming (clearAlarm_frame s k a b p)

theorem Moved.modHead {f : Head → Head} (a : (p.head h).Moves (f (p.head h))) : Moved h p (p.modHead h f) where
  frame := modHead_staysWith f
  head := by rw [modHead_head]; exact a

theorem Moved.modCadence {f : Cadence → Cadence} (same : ∀ c, (f c).measuring = c.measuring) : Moved h p (p.modCadence h f) :=
  .modHead (.cadence _ (same _))

theorem enterDrive_entered (h : HeadId) (d : DriveState) (c : Cause) (k : Option FaultKind) (p : Part) :
    (enterDrive h d c k p).head h = (p.head h).entered d p.time.now := enterDrive_head h d c k p

/-- A change of the head and an entry into a drive state, the two one move. -/
theorem Moved.enter {f : Head → Head} (d : DriveState) (c : Cause) (k : Option FaultKind)
    (place : (f (p.head h)).pos = (p.head h).pos ∧ (f (p.head h)).settings = (p.head h).settings ∧
      (f (p.head h)).assigned = (p.head h).assigned ∧ (f (p.head h)).cues = (p.head h).cues)
    (enters : (p.head h).Sound → (f (p.head h)).Enters d) : Moved h p (enterDrive h d c k (p.modHead h f)) where
  frame := (modHead_staysWith f).trans (enterDrive_frame h d c k _)
  head := by
    rw [enterDrive_entered, modHead_head]
    exact .entered place _ enters

theorem Moved.enterAs (d : DriveState) (c : Cause) (k : Option FaultKind) (enters : (p.head h).Sound → (p.head h).Enters d) :
    Moved h p (enterDrive h d c k p) where
  frame := enterDrive_frame h d c k p
  head := by
    rw [enterDrive_entered]
    exact .entered ⟨rfl, rfl, rfl, rfl⟩ _ enters

theorem switchLamp_moved {on : Bool} (ok : on = true → (p.head h).drive ≠ .fault) : Moved h p (switchLamp h on p) where
  frame := switchLamp_frame h on p
  head := by
    rw [switchLamp_head]
    exact .lit _ ok

end

/-! ### The moves themselves -/

section
variable {h : HeadId} {p : Part}

/-- A STOP in a moving state (R25). -/
theorem stopping_moved (c : Cause) (moving : (p.head h).drive.running = true ∨ (p.head h).drive.cueing = true ∨
    (p.head h).drive = .settling) : Moved h p (enterDrive h .stopping c none p) :=
  .enterAs _ _ _ fun s => s.enters (fun e => by rw [e] at moving; simp [DriveState.running, DriveState.cueing] at moving)
    (by decide) (by decide) nofun (fun e => e.elim nofun nofun)

theorem startDrive_moved (c : Cause) (rest : (p.head h).drive.atRest = true) : Moved h p (startDrive h c p) := by
  refine ⟨startDrive_frame h c p, ?_⟩
  rw [startDrive_started c rest]
  refine ⟨rfl, rfl, rfl, rfl, fun s => ?_⟩
  have clear : (p.head h).fault.isSome = false := by
    rw [s.fault]
    obtain e | e := atRest_cases rest <;> rw [e] <;> rfl
  exact
    { outputs := rfl
      fault := clear
      dark := fun some => absurd (clear.symm.trans some) (by decide)
      park := rfl, cueUp := rfl, gap := rfl, settle := rfl, measuring := rfl, low := s.low, high := s.high, phase := s.phase }

/-- The entry into FAULT (R28 to R30). -/
theorem fault_moved (k : FaultKind) (c : Cause) : Moved h p
    (enterDrive h .fault c (some k) (p.modHead h fun x => { x with fault := some k })) :=
  .enter _ _ _ ⟨rfl, rfl, rfl, rfl⟩ fun s =>
    { fault := rfl, park := nofun, cueUp := nofun, gap := s.gap, settle := nofun, measuring := s.measuring, running := nofun
      low := s.low, high := s.high, phase := s.phase }

/-- The release of a fault (R31). -/
theorem release_moved (c : Cause) : Moved h p (enterDrive h .stopped c none (p.modHead h fun x => { x with fault := none })) :=
  .enter _ _ _ ⟨rfl, rfl, rfl, rfl⟩ fun s =>
    { fault := rfl, park := nofun, cueUp := nofun, gap := s.gap, settle := nofun, measuring := s.measuring, running := nofun
      low := s.low, high := s.high, phase := s.phase }

/-- An entry into STOPPED from a state that is not FAULT. -/
theorem stopped_moved (c : Cause) (clear : (p.head h).drive ≠ .fault) : Moved h p (enterDrive h .stopped c none p) :=
  .enterAs _ _ _ fun s => s.enters clear (by decide) (by decide) nofun (fun e => e.elim nofun nofun)

/-- An entry into PARKED with its record (R63, R65, R66). -/
theorem parked_moved {f : Head → Head} (c : Cause)
    (sets : ∀ x : Head, ∃ r n, f x = { x with park := some r, attempts := n }) (clear : (p.head h).drive ≠ .fault) :
    Moved h p (enterDrive h .parked c none (p.modHead h f)) := by
  obtain ⟨r, n, is⟩ := sets (p.head h)
  refine .enter _ _ _ (by rw [is]; exact ⟨rfl, rfl, rfl, rfl⟩) fun s => ?_
  rw [is]
  exact
    { fault := by rw [show _ = (p.head h).fault.isSome from rfl, s.fault, decide_eq_false clear]; rfl
      park := fun _ => rfl, cueUp := nofun, gap := s.gap, settle := nofun, measuring := s.measuring, running := nofun, low := s.low
      high := s.high, phase := s.phase }

/-- An entry into a leg with its cue-up (R63, R65). -/
theorem leg_moved {f : Head → Head} {d : DriveState} (c : Cause)
    (sets : ∀ x : Head, ∃ r n, f x = { x with cueUp := some r, attempts := n }) (leg : d.cueing = true)
    (clear : (p.head h).drive ≠ .fault) : Moved h p (enterDrive h d c none (p.modHead h f)) := by
  obtain ⟨r, n, is⟩ := sets (p.head h)
  refine .enter _ _ _ (by rw [is]; exact ⟨rfl, rfl, rfl, rfl⟩) fun s => ?_
  rw [is]
  exact
    { fault := by
        rw [show _ = (p.head h).fault.isSome from rfl, s.fault, decide_eq_false clear]
        revert leg
        cases d <;> simp [DriveState.cueing]
      park := fun e => by rw [e] at leg; cases leg
      cueUp := fun _ => rfl, gap := s.gap, settle := fun e => by rw [e] at leg; cases leg
      measuring := s.measuring, running := fun e => absurd leg (by revert e; cases d <;> simp [DriveState.cueing, DriveState.running])
      low := s.low, high := s.high, phase := s.phase }

end

end Sys2Proof.Machine
end

section
/-! PROOFS. What the work of a Head Controller and of the scheduler keeps, over the moves of a head and the requests to the
scheduler. -/

namespace Sys2Proof.Machine

variable {I : Part → Prop}

/-- A property that the requests to the scheduler keep, and the moves of head `h`'s controller. -/
structure HeadWork (h : HeadId) (I : Part → Prop) : Prop extends SchedulerKeeps I where
  moved : ∀ p q, Moved h p q → I p → I q

/-! ### Reports to the scheduler -/

section
variable (K : SchedulerKeeps I)
include K

theorem guards_work {p : Part} (a : I p) : I (meetGuards p) := meetGuard_keeps K .i2 (meetGuard_keeps K .i1 a)

theorem settle_work {p : Part} (a : I p) : I (settle p) := guards_work K (settleTakes_keeps K a)

theorem tellFault_work (h : HeadId) {p : Part} (a : I p) : I (tellFault h p) := by
  have one : ∀ (i : IslandId) (q : Part), I q → I (incomingFailed i h .incomingFault
      (if (q.island i).onAir = .head h then onAirFault i q else q)) := fun i q b =>
    incomingFailed_keeps K i h _ (ite_keeps (onAirFault_keeps K i b) b)
  unfold tellFault
  exact guards_work K (one .i2 _ (one .i1 _ (settleTakes_keeps K (mapPreds_keeps K h _ a))))

theorem tellStop_work (h : HeadId) {p : Part} (a : I p) : I (tellStop h p) := by
  have one : ∀ (i : IslandId) (q : Part), I q → I (incomingFailed i h .incomingStopped
      (if (q.island i).onAir = .head h then onAirStop i q else q)) := fun i q b =>
    incomingFailed_keeps K i h _ (ite_keeps (onAirStop_keeps K i b) b)
  unfold tellStop
  exact one .i2 _ (one .i1 _ (settleTakes_keeps K (mapPreds_keeps K h _ a)))

theorem tellStart_work (h : HeadId) {p : Part} (a : I p) : I (tellStart h p) := settle_work K (mapPreds_keeps K h _ a)

theorem tellJump_work (h : HeadId) (f : Bool) {p : Part} (a : I p) : I (tellJump h f p) :=
  settleTakes_keeps K (followEnds_keeps K (mapPreds_keeps K h _ a))

theorem tellBoundary_work (h : HeadId) (u : Bool) {p : Part} (a : I p) : I (tellBoundary h u p) :=
  settleTakes_keeps K (mapPreds_keeps K h _ a)

theorem tellReverse_work (h : HeadId) {p : Part} (a : I p) : I (tellReverse h p) :=
  settle_work K (followEnds_keeps K (mapPreds_keeps K h _ a))

theorem reviewCues_work {p : Part} (a : I p) : I (reviewCues p) := settle_work K (followEnds_keeps K a)

end

/-! ### The Cadence Monitor and the limits -/

section
variable {h : HeadId} {p q r : Part}

theorem Moved.analog (x : Analog) : Moved h p { p with analog := x } where
  frame := (setAnalog_frame x p).mono (by simp [Block.driving])
  head := .refl _

theorem Moved.then (f : Part → Part) (a : Moved h p q) (b : Moved h q (f q)) : Moved h p (f q) := a.trans b

theorem locked_moved (running : (p.head h).drive.running = true) (d : DriveState) (on : d.running = true) (c : Cause) :
    Moved h p (enterDrive h d c none p) :=
  .enterAs _ _ _ fun s => s.enters (fun e => by rw [e] at running; cases running) (fun e => by rw [e] at on; cases on)
    (fun e => by rw [e] at on; cases on) (fun _ => running)
    (fun e => by obtain e | e := e <;> revert on e <;> cases d <;> simp [DriveState.cueing, DriveState.running])

theorem modCadence_head (f : Cadence → Cadence) : (p.modCadence h f).head h = { p.head h with cadence := f (p.head h).cadence } :=
  modHead_head h _ p

theorem boundaryAt_measuring (c : Cadence) (x : Standard) (count : Stamp) (t : Nat) :
    (c.boundaryAt x count t).1.measuring = c.measuring := by
  unfold Cadence.boundaryAt
  dsimp only
  split <;> rfl

theorem declareLock_moved (running : (p.head h).drive.running = true) : Moved h p (declareLock h p) := by
  have locked := locked_moved running .locked rfl .cadence
  unfold declareLock
  dsimp only
  split
  · exact (locked.trans (.post _ _)).trans (.clear _ _ _ _)
  · have recorded : ∀ r, Moved h p ((enterDrive h .locked .cadence none p).modCadence h fun c =>
        { c with firstLock := true, lastRunup := some r, slowStart := false }) := fun _ => locked.trans (.modCadence fun _ => rfl)
    exact ((recorded _).trans (.post _ _)).trans (.clear _ _ _ _)

theorem declareUnlock_moved (running : (p.head h).drive.running = true) (m : Nat) (e : Option Nat) (u : Bool) :
    Moved h p (declareUnlock h m e u p) := by
  have stamped : Moved h p (p.modCadence h fun c => { c with unlockStamp := some p.ref.count }) := .modCadence fun _ => rfl
  have unlocked := stamped.trans (locked_moved (by rw [modCadence_head]; exact running) .unlocked rfl .cadence)
  exact (unlocked.trans (.post _ _)).trans (.ite (.raise _ _ _ _) .refl)

theorem cadenceBoundary_moved (running : (p.head h).drive.running = true) : Moved h p (cadenceBoundary h p) := by
  have judged : Moved h p (p.modCadence h fun _ => ((p.head h).cadence.boundaryAt p.ref.standard p.ref.count p.time.now).1) :=
    .modHead (.cadence _ (boundaryAt_measuring _ _ _ _))
  have still : ((p.modCadence h fun _ => ((p.head h).cadence.boundaryAt p.ref.standard p.ref.count p.time.now).1).head
      h).drive.running = true := by rw [modCadence_head]; exact running
  unfold cadenceBoundary
  dsimp only
  split
  · exact judged
  · exact .ite (judged.trans (declareUnlock_moved still _ _ _)) judged
  · exact judged
  · exact .ite (judged.trans (declareLock_moved still)) judged
  · exact .ite (judged.trans (declareLock_moved still)) judged

end

/-! ### The work of a controller -/

section
variable {h : HeadId} (K : HeadWork h I)
include K

theorem HeadWork.analog (x : Analog) {p : Part} (a : I p) : I { p with analog := x } := K.moved p _ (.analog x) a

theorem dark_work {p : Part} (a : I p) :
    I (if (p.head h).lampPolicy = .auto then switchLamp h false p else p) :=
  ite_keeps (K.moved _ _ (switchLamp_moved nofun) a) a

theorem stopHead_work (c : Cause) {p : Part} (a : I p) : I (stopHead h c p) := by
  have stopping : ((p.head h).drive.running = true ∨ (p.head h).drive.cueing = true ∨ (p.head h).drive = .settling) →
      I (enterDrive h .stopping c none p) := fun moving => K.moved _ _ (stopping_moved c moving) a
  unfold stopHead
  split <;> rename_i is
  · exact tellStop_work K.toSchedulerKeeps h (stopping (by rw [is]; exact .inl rfl))
  · exact tellStop_work K.toSchedulerKeeps h (stopping (by rw [is]; exact .inl rfl))
  · exact tellStop_work K.toSchedulerKeeps h (stopping (by rw [is]; exact .inl rfl))
  · exact settleTakes_keeps K.toSchedulerKeeps (stopping (by rw [is]; exact .inr (.inl rfl)))
  · exact settleTakes_keeps K.toSchedulerKeeps (stopping (by rw [is]; exact .inr (.inl rfl)))
  · exact settleTakes_keeps K.toSchedulerKeeps (stopping (.inr (.inr is)))
  · exact a
  · exact dark_work K a
  · exact dark_work K a
  · exact dark_work K a

theorem requestStop_work (c : Cause) {p : Part} (a : I p) : I (requestStop h c p) :=
  ite_keeps (stopHead_work K c a) (guards_work K.toSchedulerKeeps (stopHead_work K c a))

theorem faultHead_work (k : FaultKind) {p : Part} (a : I p) : I (faultHead h k p) :=
  ite_keeps (K.raise _ _ _ _ _ a) (tellFault_work K.toSchedulerKeeps h (K.moved _ _ (fault_moved k k.cause) a))

theorem startHead_work (c : Cause) {p : Part} (a : I p) : I (startHead h c p).1 := by
  have started : (p.head h).drive.atRest = true → I (tellStart h (startDrive h c p)) := fun rest =>
    tellStart_work K.toSchedulerKeeps h (K.moved _ _ (startDrive_moved c rest) a)
  unfold startHead
  split <;> rename_i is
  · exact started (by rw [is]; rfl)
  · exact started (by rw [is]; rfl)
  all_goals exact a

theorem cueAction_work (k : CueKind) {p : Part} (a : I p) : I (cueAction h k p) := by
  cases k with
  | ending => exact endReached_keeps K.toSchedulerKeeps .i2 h (endReached_keeps K.toSchedulerKeeps .i1 h a)
  | stop => exact stopHead_work K _ a
  | sop => exact a
  | changeover => exact a
  | mark => exact a

theorem followLeg_work {p : Part} (a : I p) : I (followLeg h p) := by
  unfold followLeg
  dsimp only
  split
  · exact a
  split
  · exact a
  rename_i leg
  have cueing : (p.head h).drive.cueing = true := by simpa using leg
  have clear : (p.head h).drive ≠ .fault := fun e => by rw [e] at cueing; cases cueing
  have entered : ∀ d, d = .settling ∨ d = .cueInch → I (settle (enterDrive h d .cueUp none p)) := fun d e => by
    refine settle_work K.toSchedulerKeeps (K.moved _ _ (.enterAs _ _ _ fun s => ?_) a)
    obtain rfl | rfl := e
    · exact s.enters clear (by decide) (by decide) nofun fun _ => .inl cueing
    · exact s.enters clear (by decide) (by decide) nofun fun _ => .inl cueing
  exact ite_keeps (entered _ (.inl rfl)) (ite_keeps (entered _ (.inr rfl)) a)

theorem decidePark_work (c : CueUp) {p : Part} (is : (p.head h).drive = .settling) (a : I p) :
    I (decidePark h c p) := by
  have clear : (p.head h).drive ≠ .fault := fun e => nomatch is.symm.trans e
  unfold decidePark
  exact ite_keeps (settle_work K.toSchedulerKeeps (K.moved _ _ (parked_moved _ (fun _ => ⟨_, _, rfl⟩) clear) a))
    (ite_keeps (settle_work K.toSchedulerKeeps (K.moved _ _ (leg_moved _ (fun _ => ⟨_, _, rfl⟩) rfl clear) a))
      (K.raise _ _ _ _ _ (settle_work K.toSchedulerKeeps (K.moved _ _ (stopped_moved _ clear) a))))

theorem takeSettleExpiry_work {p : Part} (a : I p) : I (takeSettleExpiry h p) := by
  unfold takeSettleExpiry
  split
  · rename_i is
    exact settle_work K.toSchedulerKeeps (K.moved _ _ (stopped_moved _ fun e => nomatch is.symm.trans e) a)
  · rename_i is _
    exact decidePark_work K _ is a
  · exact a

theorem beginCueUp_work (t : Int) (c : Cause) {p : Part} (rest : (p.head h).drive.atRest = true) (a : I p) :
    I (beginCueUp h t c p) := by
  have clear : (p.head h).drive ≠ .fault := fun e => by rw [e] at rest; cases rest
  unfold beginCueUp
  dsimp only
  split
  · refine settle_work K.toSchedulerKeeps ?_
    split
    · rename_i parked
      refine K.moved _ _ (.modHead ⟨rfl, rfl, rfl, rfl, fun s => { s with park := ?_ }⟩) a
      exact (decide_eq_true parked).symm
    · exact K.moved _ _ (parked_moved _ (fun _ => ⟨_, _, rfl⟩) clear) a
  · refine settle_work K.toSchedulerKeeps (K.moved _ _ (leg_moved _ (fun _ => ⟨_, _, rfl⟩) ?_ clear) a)
    split <;> rfl

theorem cueToId_work (id : Nat) (c : Cause) {p : Part} (a : I p) : I (cueToId h id c p).1 := by
  unfold cueToId
  dsimp only
  split
  · exact a
  rename_i rest
  split
  · exact a
  split
  · exact a
  exact beginCueUp_work K _ c (by simpa using rest) a

theorem cueToFrame_work (t : Option Int) {p : Part} (a : I p) : I (cueToFrame h t p).1 := by
  unfold cueToFrame
  split
  · exact a
  split
  · rename_i rest
    exact beginCueUp_work K _ _ rest a
  · exact a

theorem clearLatched_work {p : Part} (a : I p) : I (clearLatched h p) :=
  K.clear _ _ _ _ _ (K.clear _ _ _ _ _ (K.clear _ _ _ _ _ a))

theorem takeSlowStart_work {p : Part} (a : I p) : I (takeSlowStart h p) :=
  K.raise _ _ _ _ _ (K.moved _ _ (.modCadence fun _ => rfl) a)

theorem takeSpeedTimeout_work {p : Part} (a : I p) : I (takeSpeedTimeout h p) :=
  K.moved _ _ (.modCadence fun _ => rfl) a

end

/-! ### Commands that name a head, and conversions -/

section
variable (K : ∀ h, HeadWork h I)
include K

theorem cueUpCommand_work (w form : Word) (arg : BitVec 32) {p : Part} (a : I p) : I (cueUpCommand w form arg p).1 := by
  refine onHead_keeps w (fun h => unlessLocal_keeps ?_ a) a
  split
  · exact cueToFrame_work (K h) _ a
  · exact cueToFrame_work (K h) _ a
  · exact cueToId_work (K h) _ _ a
  · exact a

theorem clearFaultCommand_work (w : Word) {p : Part} (a : I p) : I (clearFaultCommand w p).1 := by
  refine onHead_keeps w (fun h => ?_) a
  dsimp only
  split
  · exact a
  split
  · exact a
  exact guards_work (K h).toSchedulerKeeps (clearLatched_work (K h) (settleTakes_keeps (K h).toSchedulerKeeps
    ((K h).moved _ _ (release_moved _) a)))

theorem lampCommand_work (w on : Word) {p : Part} (a : I p) : I (lampCommand w on p).1 := by
  refine onHead_keeps w (fun h => ?_) a
  split
  · exact a
  split
  · exact a
  rename_i clear
  have manual : Moved h p (p.modHead h fun x => { x with lampPolicy := .manual }) := .modHead ⟨rfl, rfl, rfl, rfl, fun s => { s with }⟩
  exact (K h).moved _ _ (manual.trans (switchLamp_moved fun _ => by rw [modHead_head]; exact clear)) a

theorem lampFault_work (h : HeadId) {p : Part} (a : I p) : I (lampFault h p) := by
  have one : ∀ (i : IslandId) (q : Part), I q → I (if (q.island i).onAir = .head h then onAirFault i q else q) :=
    fun i q b => ite_keeps (onAirFault_keeps (K h).toSchedulerKeeps i b) b
  exact one .i2 _ (one .i1 _ a)

theorem deliverCondition_work (k : ChannelId) (d : Delivery) (w : Word) {p : Part} (a : I p) :
    I (deliverCondition k d w p) := by
  unfold deliverCondition
  split
  · exact a
  · exact (K .h1).raise _ _ _ _ _ a
  · exact (K .h1).clear _ _ _ _ _ a
  · exact ite_keeps (lampFault_work K _ ((K .h1).raise _ _ _ _ _ a)) ((K .h1).raise _ _ _ _ _ a)
  · exact (K .h1).clear _ _ _ _ _ a
  · exact faultHead_work (K _) _ a
  · exact a

theorem convertReference_work (r : Nat) {p : Part} (a : I p) : I (convertReference r p) := by
  unfold convertReference
  dsimp only
  refine deliverCondition_work K _ _ _ ?_
  split
  · exact (K .h1).analog _ ((K .h1).analog _ a)
  · exact (K .h1).analog _ a
  · exact (K .h1).analog _ a

theorem convertChannel_work (k : ChannelId) (r : Nat) {p : Part} (a : I p) : I (convertChannel k r p) := by
  have channel : ∀ f q, I q → I (q.modChannel k f) := fun _ _ b => (K .h1).analog _ b
  have taken := channel (Channel.taken (p.channelMode k) r) p a
  unfold convertChannel
  dsimp only
  exact ite_keeps taken (deliverCondition_work K _ _ _ (channel _ _ (deliverCondition_work K _ _ _ (channel _ _ taken))))

theorem takeConversion_work (r : Nat) {p : Part} (a : I p) : I (takeConversion r p) := by
  have next : I { p with analog := { p.analog with next := p.analog.next + 1 } } := (K .h1).analog _ a
  unfold takeConversion
  dsimp only
  split
  · exact a
  · exact convertReference_work K r next
  · exact convertChannel_work K _ r next
  · exact convertChannel_work K _ r next

end

/-! ### What moves the position, or has the cues follow it -/

section
variable {h : HeadId} {p : Part}

theorem loseParked_moved : Moved h p (loseParked h p) := by
  have lost : (p.head h).drive = .parked → Moved h p (enterDrive h .stopped .motion none p) :=
    fun is => stopped_moved _ fun e => nomatch is.symm.trans e
  unfold loseParked
  dsimp only
  split
  · rename_i is _
    refine .trans (.post _ _) (stopped_moved _ fun e => ?_)
    rw [post_head] at e
    exact nomatch is.symm.trans e
  · rename_i is _
    exact lost is
  · exact .refl

theorem endLimit_moved : Moved h p (endLimit h p) :=
  .trans (.modHead ⟨rfl, rfl, rfl, rfl, fun s => { s with }⟩) (.clear _ _ _ _)

theorem leaveLimit_moved : Moved h p (leaveLimit h p) := by
  unfold leaveLimit
  dsimp only
  split
  · exact .ite .refl endLimit_moved
  · exact .refl

end

end Sys2Proof.Machine
end

section
/-! PROOFS. Every step keeps the rules of the heads and of their cue tables (R16 to R19, R26, R27, R30, R38, R53, R66): a move of a
controller keeps a head's rules and its place; where the position has moved on, the table agrees with the frame before until the
cues follow or the frame is passed. -/

namespace Sys2Proof.Machine

/-! ### The rules between events, and within one -/

/-- The rules of a cue table whose pass states agree with frame `g`. -/
def Head.CuesAt (g : Int) (x : Head) : Prop := ({ x with pos := ⟨g, 0⟩ } : Head).cuesSound = true

theorem Head.CuesAt.of {g : Int} {x y : Head} (a : x.CuesAt g) (cues : y.cues = x.cues) : y.CuesAt g := by
  unfold CuesAt at a ⊢
  rwa [Head.cuesSound_of (y := { y with pos := ⟨g, 0⟩ }) (x := { x with pos := ⟨g, 0⟩ }) cues rfl]

theorem Head.cuesAt_iff {g : Int} {x : Head} : x.CuesAt g ↔ x.cues.length ≤ 32 ∧ (x.cues.Pairwise fun c d => c.frame < d.frame) ∧
    (x.cues.map (·.id)).Nodup ∧ ∀ c ∈ x.cues, c.passed = decide (c.frame ≤ g) := Head.cuesSound_iff

/-- The rules of the heads, where head `h` stands at frame `x` and its pass states agree with frame `g`. -/
structure HeadsAt (h : HeadId) (x g : Int) (p : Part) : Prop where
  heads : ∀ k, (p.head k).Sound
  others : ∀ k, k ≠ h → (p.head k).cuesSound = true
  frame : (p.head h).pos.frame = x
  cues : (p.head h).CuesAt g

/-- The rules of the heads between events. -/
def HeadsRules (p : Part) : Prop := ∀ k, (p.head k).Sound ∧ (p.head k).cuesSound = true

theorem HeadsRules.at {p : Part} (a : HeadsRules p) (h : HeadId) : HeadsAt h (p.head h).pos.frame (p.head h).pos.frame p :=
  ⟨fun k => (a k).1, fun k _ => (a k).2, rfl, (a h).2⟩

theorem HeadsAt.rules {h : HeadId} {x : Int} {p : Part} (a : HeadsAt h x x p) : HeadsRules p := fun k => by
  refine ⟨a.heads k, ?_⟩
  by_cases same : k = h
  · rw [same]
    have cues := a.cues
    rwa [← a.frame] at cues
  · exact a.others k same

/-! ### Moves keep them -/

/-- A property that moves of the heads keep, and that depends on nothing else. -/
theorem HeadWork.of_moves {I : Part → Prop} (d : ∀ p q : Part, (∀ k, (p.head k).Moves (q.head k)) → I p → I q) (h : HeadId) :
    HeadWork h I := by
  have moved : ∀ h p q, Moved h p q → I p → I q := fun h p q m => d p q fun k => by
    by_cases same : k = h
    · exact same ▸ m.head
    · rw [m.frame.head (by simp [Block.driving, Block.alarming, Block.posting, same])]
      exact .refl _
  exact
    { moved := moved h
      post := fun s e p => moved .h1 _ _ (.post s e)
      raise := fun s k a b p => moved .h1 _ _ (.raise s k a b)
      clear := fun s k a b p => moved .h1 _ _ (.clear s k a b)
      islands := fun x p => d _ _ fun k => .refl _
      move := fun i q f p => d _ _ fun k => by rw [submitMove_head]; exact .refl _
      fast := fun i p => d _ _ fun k => by rw [(endFast_frame i p).head (by cases k <;> decide)]; exact .refl _
      start := fun h p rest => moved h _ _ (startDrive_moved _ rest) }

theorem headsRules_moves {p q : Part} (m : ∀ k, (p.head k).Moves (q.head k)) (a : HeadsRules p) : HeadsRules q := fun k =>
  ⟨(m k).sound (a k).1, (Head.cuesSound_of (m k).cues (m k).pos).trans (a k).2⟩

theorem headsRules_work (h : HeadId) : HeadWork h HeadsRules := .of_moves (fun _ _ => headsRules_moves) h

theorem headsAt_work (h : HeadId) (x g : Int) : HeadWork h (HeadsAt h x g) :=
  .of_moves (h := h) fun _ _ m a =>
    ⟨fun k => (m k).sound (a.heads k), fun k n => (Head.cuesSound_of (m k).cues (m k).pos).trans (a.others k n),
      (congrArg Position.frame (m h).pos).trans a.frame, a.cues.of (m h).cues⟩

section
variable {h : HeadId} {x y g : Int} {p : Part}

theorem modHead_head_ne {k : HeadId} (n : k ≠ h) (f : Head → Head) : (p.modHead h f).head k = p.head k :=
  (modHead_frame h f p).head (by simp [n])

/-- A change of head `h` that leaves the others. -/
theorem HeadsAt.head {q : Part} {f : Int} (a : HeadsAt h x g p) (others : ∀ k, k ≠ h → q.head k = p.head k) (sound : (q.head h).Sound)
    (frame : (q.head h).pos.frame = y) (cues : (q.head h).CuesAt f) : HeadsAt h y f q where
  heads k := by
    by_cases same : k = h
    · exact same ▸ sound
    · rw [others k same]
      exact a.heads k
  others k n := by rw [others k n]; exact a.others k n
  frame := frame
  cues := cues

theorem HeadsAt.modHead {f : Head → Head} {e : Int} (a : HeadsAt h x g p) (sound : (f (p.head h)).Sound)
    (frame : (f (p.head h)).pos.frame = y) (cues : (f (p.head h)).CuesAt e) : HeadsAt h y e (p.modHead h f) :=
  a.head (fun k n => modHead_head_ne n f) (by rwa [modHead_head]) (by rwa [modHead_head]) (by rwa [modHead_head])

/-- A change of head `h` and its entry into a drive state. -/
theorem HeadsAt.enter {f : Head → Head} {d : DriveState} {e : Int} (c : Cause) (k : Option FaultKind) (a : HeadsAt h x g p)
    (enters : (f (p.head h)).Enters d) (frame : (f (p.head h)).pos.frame = y) (cues : (f (p.head h)).CuesAt e) :
    HeadsAt h y e (enterDrive h d c k (p.modHead h f)) := by
  obtain ⟨pos, -, -, same⟩ := (f (p.head h)).entered_place d p.time.now
  have is : (enterDrive h d c k (p.modHead h f)).head h = (f (p.head h)).entered d p.time.now := by
    rw [enterDrive_entered, modHead_head]
    rfl
  refine a.head (fun k n => ?_) (by rw [is]; exact enters.entered _) (by rw [is, pos]; exact frame) (by rw [is]; exact cues.of same)
  rw [(enterDrive_frame h d c _ _).head (by simp [Block.driving, Block.alarming, Block.posting, n])]
  exact modHead_head_ne n f

end

/-! ### Cue tables -/

section
variable {x : Head} {g : Int}

/-- Cues changed one by one, each at its frame and with its id. -/
theorem Head.CuesAt.map {e : Int} (a : x.CuesAt g) {f : Cue → Cue} (id : ∀ c, (f c).id = c.id) (frame : ∀ c, (f c).frame = c.frame)
    (passed : ∀ c ∈ x.cues, (f c).passed = decide (c.frame ≤ e)) {y : Head} (cues : y.cues = x.cues.map f) : y.CuesAt e := by
  obtain ⟨room, order, ids, -⟩ := Head.cuesAt_iff.1 a
  have sameIds : (x.cues.map f).map (·.id) = x.cues.map (·.id) := by
    rw [List.map_map]
    exact List.map_congr_left fun c _ => id c
  refine Head.cuesAt_iff.2 ⟨?_, ?_, ?_, ?_⟩ <;> rw [cues]
  · rwa [List.length_map]
  · refine List.pairwise_map.2 (order.imp fun less => ?_)
    rwa [frame, frame]
  · rwa [sameIds]
  · intro c m
    obtain ⟨d, old, rfl⟩ := List.mem_map.1 m
    rw [frame]
    exact passed d old

/-- A change of confirm states. -/
theorem Head.CuesAt.update (a : x.CuesAt g) {id : Nat} {f : Cue → Cue} (same : ∀ c, (f c).id = c.id) (frame : ∀ c, (f c).frame = c.frame)
    (passed : ∀ c, (f c).passed = c.passed) : ({ x with cues := updateCue id f x.cues } : Head).CuesAt g := by
  refine a.map (f := fun c => if c.id = id then f c else c) (fun c => ?_) (fun c => ?_) (fun c m => ?_) rfl
  · split
    · exact same c
    · rfl
  · split
    · exact frame c
    · rfl
  · rw [← (Head.cuesAt_iff.1 a).2.2.2 c m]
    split
    · exact passed c
    · rfl

theorem Head.CuesAt.follow (a : x.CuesAt g) (f : Int) : ({ x with cues := x.cues.map (Cue.follow f), mark := none } : Head).CuesAt f :=
  a.map (fun c => (c.follow_same f).1) (fun c => (c.follow_same f).2) (fun c _ => c.follow_passed f) rfl

/-- The one cue of the next frame fires. -/
theorem Head.CuesAt.fire (a : x.CuesAt (g - 1)) {c : Cue} (m : c ∈ x.cues) (frame : c.frame = g) :
    ({ x with cues := updateCue c.id (fun c => { c with passed := true }) x.cues } : Head).CuesAt g := by
  obtain ⟨-, order, ids, states⟩ := Head.cuesAt_iff.1 a
  refine a.map (f := fun d => if d.id = c.id then { d with passed := true } else d) (fun d => ?_) (fun d => ?_) (fun d old => ?_) rfl
  · split <;> rfl
  · split <;> rfl
  · by_cases same : d.id = c.id
    · have is : d = c := List.inj_on_of_nodup_map ids old m same
      rw [if_pos same, is, frame]
      exact (decide_eq_true le_rfl).symm
    · have frames : (x.cues.map (·.frame)).Nodup := List.pairwise_map.2 (order.imp ne_of_lt)
      have apart : d.frame ≠ g := fun e => same (congrArg Cue.id (List.inj_on_of_nodup_map frames old m (e.trans frame.symm)))
      rw [if_neg same, states d old]
      congr 1
      apply propext
      omega

/-- No cue of the next frame is pending. -/
theorem Head.CuesAt.pass (a : x.CuesAt (g - 1)) (none : ∀ c ∈ x.cues, c.frame = g → c.passed = true) : x.CuesAt g := by
  obtain ⟨room, order, ids, states⟩ := Head.cuesAt_iff.1 a
  refine Head.cuesAt_iff.2 ⟨room, order, ids, fun c m => ?_⟩
  have is := states c m
  by_cases same : c.frame = g
  · have passed := none c m same
    rw [is, decide_eq_true_eq] at passed
    omega
  · rw [is]
    congr 1
    apply propext
    omega

end

/-! ### Marks missed, cues fired and cues that follow -/

section
variable {h : HeadId} {x g : Int} {p : Part}

theorem followCues_at (a : HeadsAt h x g p) : HeadsAt h x x (followCues h p) :=
  a.modHead { a.heads h with } a.frame (a.frame ▸ a.cues.follow _)

theorem missedMarkStep_at (f : Int) (a : HeadsAt h x g p) : HeadsAt h x g (missedMarkStep h f p) := by
  refine foldl_keeps (fun q c b => (headsAt_work h x g).post _ _ _ ?_) _ a
  exact b.modHead { b.heads h with } b.frame (b.cues.update (fun _ => rfl) (fun _ => rfl) fun _ => rfl)

/-- The cue of a frame one on fires, and the table agrees with that frame (R58). -/
theorem passFrame_at (b : Bool) (f : Int) (a : HeadsAt h x (f - 1) p) : HeadsAt h x f (passFrame h b f p) := by
  have missed := missedMarkStep_at f a
  unfold passFrame
  dsimp only
  split
  · rename_i c found
    have fires := List.find?_some found
    simp only [Bool.not_eq_true, decide_eq_true_eq] at fires
    have fired := missed.modHead (f := fun x => { x with cues := updateCue c.id (fun c => { c with passed := true }) x.cues })
      { missed.heads h with } missed.frame (missed.cues.fire (List.mem_of_find?_eq_some found) fires.1)
    exact cueAction_work (headsAt_work h x f) _ ((headsAt_work h x f).post _ _ _ fired)
  · rename_i none
    refine missed.head (fun _ _ => rfl) (missed.heads h) missed.frame (missed.cues.pass fun c m frame => ?_)
    have pending := List.find?_eq_none.1 none c m
    simpa [frame] using pending

theorem skipped_eq (a b : Int) : skipped a b = (List.range (b - a).toNat).map fun n : Nat => a + 1 + (n : Int) := by
  show ((List.range (b - a).toNat).flatMap fun n : Nat => [(n : Int)]).map _ = _
  rw [List.map_flatMap]
  exact List.flatMap_pure_eq_map _ _

/-- A correction to a frame: the frames it skips are passed, or the cues follow (R72, R73). -/
theorem correctCues_at (y : Int) (a : HeadsAt h y x p) : HeadsAt h y y (correctCues h x y p) := by
  unfold correctCues
  split
  · rename_i forward
    have walk : ∀ n : Nat, HeadsAt h y (x + n)
        (((List.range n).map fun n : Nat => x + 1 + (n : Int)).foldl (fun q f => passFrame h true f q) p) := fun n => by
      induction n with
      | zero => simpa using a
      | succ n ih =>
        rw [List.range_succ, List.map_append, List.foldl_append]
        have next := passFrame_at (f := x + 1 + n) true (p := List.foldl (fun q f => passFrame h true f q) p
          ((List.range n).map fun n : Nat => x + 1 + (n : Int))) (h := h) (x := y) (by rwa [show x + 1 + (n : Int) - 1 = x + n by omega])
        rwa [show x + ((n + 1 : Nat) : Int) = x + 1 + n by omega]
    have all := walk (y - x).toNat
    rw [show x + ((y - x).toNat : Int) = y by omega] at all
    rwa [← skipped_eq] at all
  · exact followCues_at a

end

/-! ### What the heads do -/

theorem nearestFrame_range (f : Int) : -99999 ≤ nearestFrame f ∧ nearestFrame f ≤ 999999 := by
  unfold nearestFrame Config.frameMin Config.frameMax
  omega

theorem Gauge.perfs_pos (g : Gauge) : 0 < g.perfs := by cases g <;> decide

/-- The rules of a head hold at another position of the range. -/
theorem Head.Sound.at {x : Head} (a : x.Sound) {q : Position} (low : -99999 ≤ q.frame) (high : q.frame ≤ 999999)
    (phase : q.phase < x.settings.gauge.perfs) : ({ x with pos := q } : Head).Sound := { a with low, high, phase }

/-- A position that is not at the end of the range stays in it by one perf (R18, R19). -/
theorem Position.perf_range {g : Gauge} {q : Position} {f : Bool} (away : q ≠ (sideOf f).position g) (low : -99999 ≤ q.frame)
    (high : q.frame ≤ 999999) (phase : q.phase < g.perfs) :
    -99999 ≤ (q.perf g f).frame ∧ (q.perf g f).frame ≤ 999999 ∧ (q.perf g f).phase < g.perfs := by
  obtain ⟨frame, n⟩ := q
  have pos := g.perfs_pos
  cases f with
  | true =>
    have away' : ¬ (frame = 999999 ∧ n = g.perfs - 1) := fun e => away (by rw [e.1, e.2]; rfl)
    simp only [Position.perf, if_true] at *
    split <;> simp only <;> omega
  | false =>
    have away' : ¬ (frame = -99999 ∧ n = 0) := fun e => away (by rw [e.1, e.2]; rfl)
    simp only [Position.perf, Bool.false_eq_true, if_false] at *
    split <;> simp only <;> omega

/-- A counted perf moves the frame by at most one, in its direction. -/
theorem Position.perf_frame (g : Gauge) (q : Position) : (q.perf g true).frame = q.frame ∨ (q.perf g true).frame = q.frame + 1 := by
  simp only [Position.perf, if_true]
  split
  · exact .inr rfl
  · exact .inl rfl

section
variable {h : HeadId} {p : Part}

theorem runningBoundary_rules {x : Int} (running : (p.head h).drive.running = true) (a : HeadsAt h x (x - 1) p) :
    HeadsRules (runningBoundary h p) := by
  have K := headsAt_work h x (x - 1)
  have L := headsAt_work h x x
  unfold runningBoundary
  dsimp only
  rw [a.frame]
  have judged := K.moved _ _ (cadenceBoundary_moved running) a
  have told := tellBoundary_work K.toSchedulerKeeps h ((p.head h).drive = .locked && ((cadenceBoundary h p).head h).drive = .unlocked)
    judged
  have clear := told.modHead (f := fun x => { x with mark := none }) { told.heads h with } told.frame told.cues
  exact (settle_work L.toSchedulerKeeps (followEnds_keeps L.toSchedulerKeeps (passFrame_at false x clear))).rules

theorem reportBoundary_rules {x y : Int} {f : Bool} (forward : f = true → x = y - 1) (a : HeadsAt h y x p) :
    HeadsRules (reportBoundary h f p) := by
  have L := headsAt_work h y y
  have followed := followCues_at a
  unfold reportBoundary
  split
  · rename_i on
    split
    · rename_i running
      exact runningBoundary_rules running (forward on ▸ a)
    · exact (settle_work L.toSchedulerKeeps (followEnds_keeps L.toSchedulerKeeps
        (tellBoundary_work L.toSchedulerKeeps h false followed))).rules
  · exact (tellReverse_work L.toSchedulerKeeps h followed).rules

theorem countedPerf_rules (f : Bool) (away : (p.head h).pos ≠ (sideOf f).position (p.head h).settings.gauge) (a : HeadsRules p) :
    HeadsRules (countedPerf h f p) := by
  have W := headsRules_work h
  have sound := (a h).1
  obtain ⟨low, high, phase⟩ := Position.perf_range away sound.low sound.high sound.phase
  unfold countedPerf
  extract_lets x pos moved reported followed
  have movedAt : HeadsAt h pos.frame x.pos.frame moved :=
    (headsAt_work h _ _).moved _ _ loseParked_moved ((a.at h).modHead (f := fun x => { x with pos := pos })
      (sound.at low high phase) rfl (Head.CuesAt.of (a h).2 rfl))
  have reportedRules : HeadsRules reported := by
    by_cases boundary : pos.frame = x.pos.frame
    · have still : HeadsRules moved := by
        rw [← boundary] at movedAt
        exact movedAt.rules
      have is : reported = if x.drive = .parked then settle moved else moved := if_neg (not_not.2 boundary)
      rw [is]
      exact ite_keeps (settle_work W.toSchedulerKeeps still) still
    · have is : reported = reportBoundary h f moved := if_pos boundary
      rw [is]
      refine reportBoundary_rules (fun on => ?_) movedAt
      subst on
      obtain same | next := Position.perf_frame x.settings.gauge x.pos
      · exact absurd same boundary
      · have is : pos.frame = x.pos.frame + 1 := next
        omega
  have followedRules : HeadsRules followed := followLeg_work W reportedRules
  exact ite_keeps (W.moved _ _ endLimit_moved followedRules) followedRules

theorem takeTach_rules (f : Bool) (a : HeadsRules p) : HeadsRules (takeTach h f p) := by
  have W := headsRules_work h
  have timed : HeadsRules (p.modHead h fun x =>
      { x with gapFrom := x.gapFrom.map fun _ => p.time.now, settleFrom := x.settleFrom.map fun _ => p.time.now }) := by
    refine W.moved _ _ (.modHead ⟨rfl, rfl, rfl, rfl, fun s => { s with gap := ?_, settle := ?_ }⟩) a
    · exact (Option.isSome_map ..).trans s.gap
    · exact (Option.isSome_map ..).trans s.settle
  unfold takeTach
  dsimp only
  split
  · exact W.raise _ _ _ _ _ (W.moved _ _ (.modHead ⟨rfl, rfl, rfl, rfl, fun s => { s with }⟩) timed)
  · rename_i away
    exact countedPerf_rules f away timed

theorem correct_rules (t : Int) (e : EventItem) (a : HeadsRules p) : HeadsRules (correct h t e p) := by
  obtain ⟨low, high⟩ := nearestFrame_range t
  have K := headsAt_work h (nearestFrame t) (p.head h).pos.frame
  have W := headsRules_work h
  have moved := (a.at h).modHead (f := fun x => { x with pos := ⟨nearestFrame t, 0⟩, mark := none })
    { (a h).1 with low, high, phase := Gauge.perfs_pos _ } rfl (Head.CuesAt.of (a h).2 rfl)
  unfold correct
  exact W.moved _ _ leaveLimit_moved (reviewCues_work W.toSchedulerKeeps (correctCues_at _
    (tellJump_work K.toSchedulerKeeps h true (K.post _ _ _ moved))).rules)

theorem takeMark_rules (a : HeadsRules p) : HeadsRules (takeMark h p) := by
  have W := headsRules_work h
  have latched := W.moved _ _ (.modHead (f := fun x => { x with mark := some (p.head h).pos.frame })
    ⟨rfl, rfl, rfl, rfl, fun s => { s with }⟩) a
  unfold takeMark
  dsimp only
  split
  · exact a
  split
  · rename_i c _ _
    have b := latched.at h
    have confirmed := (b.modHead (f := fun x => { x with cues := updateCue c.id (fun c => { c with confirm := .confirmed }) x.cues })
      { b.heads h with } rfl (b.cues.update (fun _ => rfl) (fun _ => rfl) fun _ => rfl)).rules
    exact ite_keeps (correct_rules _ _ confirmed) (W.post _ _ _ confirmed)
  · exact W.post _ _ _ latched

theorem setPosition_rules {f : Int} (low : -99999 ≤ f) (high : f ≤ 999999) (a : HeadsRules p) : HeadsRules (setPosition h f p) := by
  have W := headsRules_work h
  have sound := (a h).1
  have placed := (a.at h).modHead (f := fun x =>
      { x with pos := ⟨f, 0⟩, park := if x.drive = .parked then some ⟨f, ⟨f, 0⟩⟩ else x.park })
    { sound with
      low := low, high := high, phase := Gauge.perfs_pos _
      park := by
        show (if (p.head h).drive = .parked then some (ParkRecord.mk f ⟨f, 0⟩) else (p.head h).park).isSome = _
        split
        · rename_i is
          exact (decide_eq_true is).symm
        · exact sound.park } rfl (Head.CuesAt.of (a h).2 rfl)
  unfold setPosition
  exact W.moved _ _ leaveLimit_moved (guards_work W.toSchedulerKeeps (tellJump_work W.toSchedulerKeeps h false
    (followCues_at placed).rules))

theorem configureHead_rules (c : HeadSettings) (a : HeadsRules p) : HeadsRules (configureHead h c p) := by
  have W := headsRules_work h
  have sound := (a h).1
  have cues : ∀ y : Head, y.cues = (p.head h).cues → y.CuesAt (p.head h).pos.frame := fun _ same => Head.CuesAt.of (a h).2 same
  rw [configureHead_eq rfl]
  split
  · rename_i gauge
    exact settle_work W.toSchedulerKeeps ((a.at h).modHead (f := fun x => x.configured c)
      { sound with phase := gauge ▸ sound.phase } rfl (cues _ rfl)).rules
  · have jumped : ∀ q, HeadsAt h (p.head h).pos.frame (p.head h).pos.frame q →
        HeadsRules (meetGuards (tellJump h false (followCues h q))) := fun q b =>
      guards_work W.toSchedulerKeeps (tellJump_work W.toSchedulerKeeps h false (followCues_at b).rules)
    rw [Part.modHead_modHead]
    refine jumped _ ?_
    split
    · rename_i parked
      refine (a.at h).enter _ _ ?_ rfl (cues _ rfl)
      exact
        { sound.enters (d := .stopped) (fun e => nomatch parked.symm.trans e) (by decide) (by decide) nofun
            (fun e => e.elim nofun nofun) with phase := Gauge.perfs_pos _ }
    · exact (a.at h).modHead { sound with phase := Gauge.perfs_pos _ } rfl (cues _ rfl)

end

/-! ### Commands and the step -/

theorem configured_rules {w : Word} {ws : HeadWords} {p : Part} (a : HeadsRules p) : HeadsRules (configureHeadCommand w ws p).1 := by
  refine onHead_keeps w (fun h => ?_) a
  split
  · exact a
  · split
    · exact configureHead_rules _ a
    · exact a

theorem placed_rules {w : Word} {f : BitVec 32} {p : Part} (a : HeadsRules p) : HeadsRules (setPositionCommand w f p).1 := by
  refine onHead_keeps w (fun h => unlessLocal_keeps ?_ a) a
  split
  · exact a
  · rename_i read
    split
    · by_cases in_ : -99999 ≤ f.toInt ∧ f.toInt ≤ 999999
      · rw [readFrame_eq_some in_.1 in_.2] at read
        cases read
        exact setPosition_rules in_.1 in_.2 a
      · rw [readFrame_eq_none (by omega)] at read
        cases read
    · exact a

/-- A change of one cue table. -/
theorem table_rules {h : HeadId} {p : Part} (f : List Cue → List Cue) (a : HeadsRules p)
    (sound : ({ p.head h with cues := f (p.head h).cues } : Head).cuesSound = true) :
    HeadsRules (reviewCues (p.modHead h fun x => { x with cues := f x.cues })) := by
  have changed := (a.at h).modHead (f := fun x => { x with cues := f x.cues }) (y := (p.head h).pos.frame) { (a h).1 with } rfl sound
  exact reviewCues_work (headsRules_work .h1).toSchedulerKeeps changed.rules

theorem loaded_rules {w id kind : Word} {f : BitVec 32} {window correct : Word} {p : Part} (a : HeadsRules p) :
    HeadsRules (loadCueCommand w id kind f window correct p).1 := by
  refine onHead_keeps w (fun h => ?_) a
  split
  · split
    · exact a
    split
    · exact a
    rename_i fresh
    split
    · exact a
    rename_i room
    refine table_rules (insertCue _) a (Head.cuesSound_insert (a h).2 (Nat.lt_of_not_le room) (fun d m => ?_) rfl)
    have other := fun e => fresh (List.any_eq_true.2 ⟨d, m, e⟩)
    simpa using other
  · exact a

theorem headsRules_heads : HeadsKeep HeadsRules where
  tach _ f _ a := takeTach_rules f a
  gap h _ a := faultHead_work (headsRules_work h) _ a
  settled h _ a := takeSettleExpiry_work (headsRules_work h) a
  speed h _ a := takeSpeedTimeout_work (headsRules_work h) a
  slow h _ a := takeSlowStart_work (headsRules_work h) a
  mark _ _ a := takeMark_rules a
  conversion r _ a := takeConversion_work headsRules_work r a
  startHead h c _ a := startHead_work (headsRules_work h) c a
  requestStop h c _ a := requestStop_work (headsRules_work h) c a
  cueToId h id c _ a := cueToId_work (headsRules_work h) id c a
  cueUp w form arg _ a := cueUpCommand_work headsRules_work w form arg a
  setPosition _ _ _ a := placed_rules a
  lamp w on _ a := lampCommand_work headsRules_work w on a
  clearFault w _ a := clearFaultCommand_work headsRules_work w a
  configure _ _ _ a := configured_rules a
  loadCue _ _ _ _ _ _ _ a := loaded_rules a
  deleteCue w id p a := by
    refine onHead_keeps w (fun h => ?_) a
    split
    · exact a
    split
    · exact a
    split
    · exact a
    exact table_rules (List.filter _) a (Head.cuesSound_filter (a h).2 _)
  clearCues w p a := by
    refine onHead_keeps w (fun h => ?_) a
    split
    · exact a
    exact table_rules (fun _ => []) a rfl

theorem headsRules_same {p q : Part} (same : ∀ k, q.head k = p.head k) (a : HeadsRules p) : HeadsRules q :=
  fun k => by rw [same k]; exact a k

/-- A change within a frame that names no head. -/
theorem headsRules_frame {t : List Block} {p q : Part} (c : ChangesOnly t p q) (n : ∀ k, Block.head k ∉ t) (a : HeadsRules p) :
    HeadsRules q := headsRules_same (fun k => c.head (n k)) a

theorem headsRules_replies : RepliesKeep HeadsRules := (headsRules_work .h1).toSchedulerKeeps.replies fun _ _ a => a

/-- CLEAR of a head: the records it sets hold the rules as the head enters STOPPED, or where it is STOPPED (R37, R74). -/
theorem clearHead_rules (h : HeadId) {p : Part} (a : HeadsRules p) : HeadsRules (clearHead h p) := by
  have W := headsRules_work h
  have sound := (a h).1
  let y := (p.head h).cleared (p.defaults.heads.get h) (p.defaults.assignments.get h)
  have frame : y.pos.frame = (p.head h).pos.frame := by
    show (if _ then _ else _ : Position).frame = _
    split <;> rfl
  have phase : y.pos.phase < y.settings.gauge.perfs := by
    show (if _ then _ else _ : Position).phase < _
    split
    · rename_i gauge
      exact gauge ▸ sound.phase
    · exact Gauge.perfs_pos _
  have low := frame.symm ▸ sound.low
  have high := frame.symm ▸ sound.high
  have cues : y.CuesAt (p.head h).pos.frame := Head.CuesAt.of (a h).2 rfl
  have stopped : HeadsRules (if ((p.modHead h (Head.cleared (p.defaults.heads.get h) (p.defaults.assignments.get h))).head h).drive =
      .stopped then (if ((p.modHead h (Head.cleared (p.defaults.heads.get h) (p.defaults.assignments.get h))).head h).lampPolicy = .auto
        then switchLamp h false (p.modHead h (Head.cleared (p.defaults.heads.get h) (p.defaults.assignments.get h)))
        else p.modHead h (Head.cleared (p.defaults.heads.get h) (p.defaults.assignments.get h)))
      else enterDrive h .stopped .clear none (p.modHead h (Head.cleared (p.defaults.heads.get h) (p.defaults.assignments.get h)))) := by
    rw [modHead_head]
    split
    · rename_i is
      have set := ((a.at h).modHead (f := Head.cleared (p.defaults.heads.get h) (p.defaults.assignments.get h))
        { sound with
          low := low, high := high, phase := phase, dark := nofun
          fault := by
            show false = decide ((p.head h).drive = .fault)
            rw [show (p.head h).drive = .stopped from is]
            rfl } frame cues).rules
      exact ite_keeps (W.moved _ _ (switchLamp_moved (on := false) fun e => nomatch e) set) set
    · exact ((a.at h).enter (d := .stopped) .clear none (f := Head.cleared (p.defaults.heads.get h) (p.defaults.assignments.get h))
        { fault := rfl, park := nofun, cueUp := nofun, gap := sound.gap, settle := nofun, measuring := sound.measuring
          running := nofun, low := low, high := high, phase := phase } frame cues).rules
  have left := W.moved _ _ leaveLimit_moved stopped
  exact mapPreds_keeps W.toSchedulerKeeps h _ (followCues_at (left.at h)).rules

theorem headsRules_commands : CommandKeeps HeadsRules :=
  { headsRules_heads with
    post := (headsRules_work .h1).post
    ref := fun _ _ a => a
    analog := fun _ _ a => a
    panel := fun _ _ a => a
    flags := fun p a => headsRules_frame (resetFlags_frame p) (by rintro ⟨⟩ <;> decide) a
    acknowledge := fun s p a => headsRules_frame (acknowledge_frame s p) (by rintro ⟨⟩ <;> decide) a
    clearAll := fun _ a => clearAll_keeps (headsRules_work .h1).toSchedulerKeeps (fun _ _ a => a)
      (fun p a => headsRules_frame (emptyAlarms_frame p) (by rintro ⟨⟩ <;> decide) a) (fun _ _ a => a) (fun h _ a => clearHead_rules h a)
      (fun _ a => a) (fun i _ a => readdress_keeps headsRules_replies i a) (fun _ _ a => a) a
    assign := fun h x p _ _ a => by
      have set : HeadsRules (p.modHead h fun y => { y with assigned := x }) :=
        ((a.at h).modHead (f := fun y => { y with assigned := x }) { (a h).1 with } rfl (Head.CuesAt.of (a h).2 rfl)).rules
      exact settle_work (headsRules_work .h1).toSchedulerKeeps (headsRules_same (fun k => by rw [checkPreset_head, checkPreset_head]) set)
    setIsland := fun i c p a => meetGuard_keeps (headsRules_work .h1).toSchedulerKeeps i (ite_keeps a (readdress_keeps headsRules_replies i
      (p := p.modIsland i _) a))
    preset := fun _ _ a => a
    authority := fun _ _ _ a => a
    join := fun _ _ _ _ a => a
    activate := fun i _ a => activateFront_keeps (headsRules_work .h1).toSchedulerKeeps i a
    cancel := fun _ _ _ a => a
    abort := fun i _ _ _ _ a => endActive_keeps (headsRules_work .h1).toSchedulerKeeps i _ _ a
    standby := fun i _ a => standbyRequest_keeps (headsRules_work .h1).toSchedulerKeeps i a }

theorem headsRules_units : UnitsKeep HeadsRules :=
  { headsRules_commands with
    raise := (headsRules_work .h1).raise
    bus := fun _ _ a => a
    agent := fun _ _ a => a
    cmd := fun _ _ a => a
    evt := fun _ _ a => a
    init := fun _ _ a => a
    standbyAtStart := fun i _ a => commitAsked_keeps (headsRules_work .h1).toSchedulerKeeps 0 i _ _ _ a }

/-- A field counts in every head that measures (R39). -/
theorem fieldEvent_rules {p : Part} (a : HeadsRules p) : HeadsRules (fieldEvent p) := by
  exact fun k => by
    rw [fieldEvent_head]
    refine ⟨(Head.Moves.cadence _ ?_).sound (a k).1, (a k).2⟩
    unfold Cadence.field
    split <;> rfl

theorem headsRules_runs : RunKeeps HeadsRules :=
  { headsRules_commands with
    time := fun _ _ a => a
    status := fun _ _ a => a
    field := fun _ a => fieldEvent_rules a
    raise := (headsRules_work .h1).raise
    clear := (headsRules_work .h1).clear
    startField := fun i _ _ a => takeStartField_keeps (headsRules_work .h1).toSchedulerKeeps i a
    commitField := fun i _ _ a => takeCommitField_keeps (headsRules_work .h1).toSchedulerKeeps i a
    guard := fun i _ _ a => takeGuard_keeps (headsRules_work .h1).toSchedulerKeeps i a
    deadline := fun i _ a => takeDeadline_keeps (headsRules_work .h1).toSchedulerKeeps i a
    poll := fun i _ a => takePollExpiry_keeps headsRules_replies i a
    sent := fun _ _ a => a
    receive := fun c _ a => receive_keeps headsRules_replies c a
    timeout := fun _ _ a => takeTimeout_keeps headsRules_replies a
    gapEnd := fun _ _ a => takeGapEnd_keeps headsRules_replies a
    begins := fun c _ a => beginCycle_keeps headsRules_units c a
    ends := fun ack _ a => endCycle_keeps headsRules_units ack a
    withhold := fun x _ a => withhold_keeps headsRules_units x a
    answer := fun x l h _ a => answerRead_keeps headsRules_units x l h a
    finish := fun d _ _ a => finishWord_keeps headsRules_units d a
    fail := fun _ _ a => failWord_keeps headsRules_units a
    starve := fun _ _ a => takeStarve_keeps headsRules_units a }

/-- A head after reset keeps its rules (R37, R74). -/
theorem Head.reset_rules (c : HeadSettings) (a : Option Assignment) : (Head.reset c a).Sound ∧ (Head.reset c a).cuesSound = true := by
  refine ⟨?_, rfl⟩
  exact
    { outputs := rfl, fault := rfl, dark := nofun, park := rfl, cueUp := rfl, gap := rfl, settle := rfl, measuring := rfl
      low := by show (-99999 : Int) ≤ 0; decide
      high := by show (0 : Int) ≤ 999999; decide
      phase := Gauge.perfs_pos _ }

theorem endLoad_rules (l : List Byte) {p : Part} (a : HeadsRules p) : HeadsRules (endLoad l p) := by
  unfold endLoad
  split
  · rename_i m _
    have begun : HeadsRules (startBlocks m p) := fun k => by cases k <;> exact Head.reset_rules _ _
    have row := headsRules_frame (beginRow_frame 0 p.time.now _) (by rintro ⟨⟩ <;> decide) begun
    exact headsRules_frame (submit_frame _ _) (by rintro ⟨⟩ <;> decide) (p := { beginRow 0 _ _ with init := _ }) row
  · exact headsRules_frame (beginRow_frame 0 p.time.now _) (by rintro ⟨⟩ <;> decide) a

theorem headsRules_iff {p : Part} : HeadsRules p ↔ p.headsSound = true ∧ p.cuesSound = true := by
  simp only [HeadsRules, ← Head.sound_iff, Part.headsSound, Part.cuesSound, Bool.and_eq_true]
  constructor
  · exact fun a => ⟨⟨⟨⟨(a .h1).1, (a .h2).1⟩, (a .h3).1⟩, (a .h4).1⟩, ⟨⟨(a .h1).2, (a .h2).2⟩, (a .h3).2⟩, (a .h4).2⟩
  · rintro ⟨⟨⟨⟨a, b⟩, c⟩, d⟩, ⟨⟨e, f⟩, g⟩, i⟩ k
    cases k
    · exact ⟨a, e⟩
    · exact ⟨b, f⟩
    · exact ⟨c, g⟩
    · exact ⟨d, i⟩

/-- Settles O56: each event and command keeps the rules (`headsRules_runs`), and so does a load; a reset has them. -/
theorem everyStepKeepsTheHeads : Obligations.EveryStepKeepsTheHeads := by
  intro s t heads cues e
  have reset : HeadsRules .reset := fun k => by cases k <;> exact Head.reset_rules _ _
  exact headsRules_iff.1 (step_keeps headsRules_runs reset (fun l _ _ => endLoad_rules l) (headsRules_iff.2 ⟨heads, cues⟩) e)

end Sys2Proof.Machine
end

section
/-! PROOFS. Every step keeps the islands (R89, R91 to R93, R101 to R103): a take that owns a move is the front one until its move ends,
and a take ends by another way only where it owns none. -/

namespace Sys2Proof.Machine

/-! ### The rules of an island -/

/-- `Part.islandSound`, rule by rule, where `A` tells the heads assigned to the island. -/
structure Island.Keeps (A : HeadId → Bool) (x : Island) : Prop where
  room : x.takes.length ≤ 6
  behind : ∀ t ∈ x.takes.tail, t.state = .queued
  named : ∀ t ∈ x.takes, (∀ h, t.incoming = .head h → A h = true) ∧ t.incoming ≠ .unknown
  air : ∀ h, x.onAir = .head h → A h = true
  preset : ∀ h, x.preset = .head h → A h = true
  known : x.preset ≠ .unknown
  confirm : ∀ c, x.confirm = some c → (c.owner = .island ∧ c.target = .standby) ∨
    (c.owner = .take ∧ ∃ t rest, x.takes = t :: rest ∧ t.state = .committed ∧ c.target = t.incoming)

/-- Every island keeps its rules. -/
def IslandsRules (p : Part) : Prop := ∀ i, (p.island i).Keeps (p.isAssigned i)

theorem sourceSound_iff {p : Part} {i : IslandId} {s : Source} :
    p.sourceSound i s = true ↔ ∀ h, s = .head h → p.isAssigned i h = true := by
  cases s with
  | standby => exact iff_of_true rfl nofun
  | unknown => exact iff_of_true rfl nofun
  | head h => exact ⟨fun a k e => by cases e; exact a, fun a => a h rfl⟩

theorem confirmSound_iff {x : Island} : x.confirmSound = true ↔ ∀ c, x.confirm = some c →
    (c.owner = .island ∧ c.target = .standby) ∨
      (c.owner = .take ∧ ∃ t rest, x.takes = t :: rest ∧ t.state = .committed ∧ c.target = t.incoming) := by
  unfold Island.confirmSound
  split
  · rename_i none
    simp [none]
  · rename_i c some
    simp only [some, Option.some.injEq, forall_eq']
    split
    · rename_i is
      simp [is]
    · rename_i is
      cases takes : x.takes <;> simp [is]

theorem islandSound_iff {p : Part} {i : IslandId} : p.islandSound i = true ↔ (p.island i).Keeps (p.isAssigned i) := by
  simp only [Part.islandSound, Bool.and_eq_true, decide_eq_true_eq, List.all_eq_true, sourceSound_iff, confirmSound_iff]
  constructor
  · rintro ⟨⟨⟨⟨⟨⟨a, b⟩, c⟩, d⟩, e⟩, f⟩, g⟩
    exact ⟨a, b, c, d, e, f, g⟩
  · rintro ⟨a, b, c, d, e, f, g⟩
    exact ⟨⟨⟨⟨⟨⟨a, b⟩, c⟩, d⟩, e⟩, f⟩, g⟩

theorem islandsRules_iff {p : Part} : IslandsRules p ↔ p.islandsSound = true := by
  simp only [Part.islandsSound, Bool.and_eq_true, islandSound_iff]
  exact ⟨fun a => ⟨a .i1, a .i2⟩, fun a i => by cases i; exact a.1; exact a.2⟩

/-! ### One island -/

/-- No take owns the move that awaits. -/
def Island.Free (x : Island) : Prop := ∀ c, x.confirm = some c → c.owner = .island

section
variable {A : HeadId → Bool} {x : Island}

/-- A front take that is not COMMITTED owns no move. -/
theorem Island.Keeps.free (a : x.Keeps A) (open_ : ∀ t, x.takes.head? = some t → t.state ≠ .committed) : x.Free := fun c some => by
  obtain ⟨island, -⟩ | ⟨-, t, rest, takes, committed, -⟩ := a.confirm c some
  · exact island
  · exact absurd committed (open_ t (by rw [takes]; rfl))

/-- A change of the front take that keeps its incoming source, and COMMITTED where it is that. -/
theorem Island.Keeps.modFront (a : x.Keeps A) {f : Take → Take} (incoming : ∀ t, (f t).incoming = t.incoming)
    (committed : ∀ t, x.takes.head? = some t → t.state = .committed → (f t).state = .committed) : (x.modFront f).Keeps A := by
  cases takes : x.takes with
  | nil => rwa [Island.modFront_nil takes]
  | cons t rest =>
    rw [Island.modFront_cons takes]
    refine { a with room := ?_, behind := ?_, named := fun u m => ?_, confirm := fun c some => ?_ }
    · have room := a.room
      rwa [takes] at room
    · have behind := a.behind
      rwa [takes] at behind
    · obtain rfl | m := List.mem_cons.1 m
      · rw [incoming]
        exact a.named t (by rw [takes]; exact List.mem_cons_self ..)
      · exact a.named u (by rw [takes]; exact List.mem_cons_of_mem _ m)
    · obtain island | ⟨owner, u, more, same, state, target⟩ := a.confirm c some
      · exact .inl island
      · rw [takes] at same
        cases same
        exact .inr ⟨owner, _, _, rfl, committed t (by rw [takes]; rfl) state, target.trans (incoming t).symm⟩

/-- The front take leaves the list where it owns no move. -/
theorem Island.Keeps.pop (a : x.Keeps A) (free : x.Free) {t : Take} {rest : List Take} (takes : x.takes = t :: rest) :
    ({ x with takes := rest } : Island).Keeps A where
  room := by
    have room := a.room
    rw [takes, List.length_cons] at room
    exact (Nat.le_succ _).trans room
  behind u m := a.behind u (by rw [takes]; exact List.mem_of_mem_tail m)
  named u m := a.named u (by rw [takes]; exact List.mem_cons_of_mem _ m)
  air := a.air
  preset := a.preset
  known := a.known
  confirm c some := .inl ((a.confirm c some).elim id fun e => nomatch (free c some).symm.trans e.1)

/-- A move to STANDBY made for the island. -/
theorem Island.Keeps.standby (a : x.Keeps A) {c : Confirmation} (owner : c.owner = .island) (target : c.target = .standby)
    (m : MirrorState) : ({ x with mirror := m, confirm := some c } : Island).Keeps A :=
  { a with confirm := fun _ e => by cases e; exact .inl ⟨owner, target⟩ }

/-- The front take owns the move to its incoming source as it is COMMITTED. -/
theorem Island.Keeps.cut (a : x.Keeps A) {t : Take} {rest : List Take} (takes : x.takes = t :: rest) {c : Confirmation}
    (owner : c.owner = .take) (target : c.target = t.incoming) (m : MirrorState) {f : Take → Take}
    (incoming : ∀ t, (f t).incoming = t.incoming) (committed : (f t).state = .committed) :
    (({ x with mirror := m, confirm := some c } : Island).modFront f).Keeps A := by
  have kept := a.modFront incoming fun u e _ => by
    rw [takes] at e
    cases e
    exact committed
  rw [Island.modFront_cons takes] at kept
  rw [Island.modFront_cons (x := { x with mirror := m, confirm := some c }) takes]
  exact { kept with confirm := fun _ e => by cases e; exact .inr ⟨owner, _, _, rfl, committed, target.trans (incoming t).symm⟩ }

end

/-! ### A part -/

section
variable {p q : Part} {i : IslandId}

/-- A change of the islands one by one that leaves the assignments. -/
theorem IslandsRules.to (a : IslandsRules p) (heads : ∀ k, (q.head k).assigned = (p.head k).assigned)
    (islands : ∀ i, (p.island i).Keeps (p.isAssigned i) → (q.island i).Keeps (p.isAssigned i)) : IslandsRules q := fun i => by
  have same : q.isAssigned i = p.isAssigned i := funext fun k => by rw [Part.isAssigned, Part.isAssigned, heads]
  rw [same]
  exact islands i (a i)

theorem IslandsRules.same (a : IslandsRules p) (heads : ∀ k, (q.head k).assigned = (p.head k).assigned)
    (islands : ∀ i, q.island i = p.island i) : IslandsRules q := a.to heads fun i x => by rwa [islands]

theorem IslandsRules.frame (a : IslandsRules p) {t : List Block} (c : ChangesOnly t p q)
    (n : (∀ k, Block.head k ∉ t) ∧ ∀ i, Block.island i ∉ t) : IslandsRules q :=
  a.same (fun k => by rw [c.head (n.1 k)]) fun i => (c (.island i) (n.2 i)).symm

theorem IslandsRules.alarming (a : IslandsRules p) (c : ChangesOnly Block.alarming p q) : IslandsRules q :=
  a.frame c ⟨by rintro ⟨⟩ <;> decide, by rintro ⟨⟩ <;> decide⟩

theorem IslandsRules.linking (a : IslandsRules p) (c : ChangesOnly Block.linking p q) : IslandsRules q :=
  a.frame c ⟨by rintro ⟨⟩ <;> decide, by rintro ⟨⟩ <;> decide⟩

theorem IslandsRules.modIsland (a : IslandsRules p) {f : Island → Island} (x : (f (p.island i)).Keeps (p.isAssigned i)) :
    IslandsRules (p.modIsland i f) :=
  a.to (fun k => by simp) fun j y => by
    by_cases same : j = i
    · subst same
      rwa [modIsland_island]
    · rwa [modIsland_island_ne same]

theorem IslandsRules.modFront (a : IslandsRules p) {f : Take → Take} (incoming : ∀ t, (f t).incoming = t.incoming)
    (committed : ∀ t, (p.island i).takes.head? = some t → t.state = .committed → (f t).state = .committed) :
    IslandsRules (p.modFront i f) := a.modIsland ((a i).modFront incoming committed)

theorem IslandsRules.moved {h : HeadId} (a : IslandsRules p) (m : Moved h p q) : IslandsRules q :=
  a.same (fun k => by
    by_cases same : k = h
    · rw [same, m.head.assigned]
    · rw [m.frame.head (by simp [Block.driving, Block.alarming, Block.posting, same])])
    fun i => (m.frame (.island i) (by simp [Block.driving, Block.alarming, Block.posting])).symm

theorem IslandsRules.post (a : IslandsRules p) (s : AlarmSource) (e : EventItem) : IslandsRules (post s e p) :=
  a.alarming (post_alarming s e p)

end

/-! ### Commits and ends -/

section
variable {p : Part} {i : IslandId}

theorem commitAsked_head (a : Stamp) (i : IslandId) (s : Source) (c : Stamp) (o : Owner) (p : Part) (h : HeadId) :
    (commitAsked a i s c o p).head h = p.head h := by
  rw [commitAsked, submitMove_head]
  simp

theorem commitAsked_rules (x : Stamp) (c : Stamp) (a : IslandsRules p) : IslandsRules (commitAsked x i .standby c .island p) :=
  a.to (fun k => by rw [commitAsked_head]) fun j y => by
    by_cases same : j = i
    · subst same
      rw [commitAsked_island]
      exact y.standby rfl rfl _
    · rwa [commitAsked_island_ne same]

theorem standbyNow_rules (a : IslandsRules p) : IslandsRules (standbyNow i p) := commitAsked_rules _ _ a

theorem standbyNow_free : ((standbyNow i p).island i).Free := fun c e => by
  rw [standbyNow, commit_island] at e
  cases e
  rfl

theorem commitTake_rules (o : TakeOutcome) (l : Option Int) (a : IslandsRules p) : IslandsRules (commitTake i o l p) := by
  unfold commitTake
  split
  · exact a
  rename_i t active
  obtain ⟨front, -⟩ := Island.active_eq_some.1 active
  obtain ⟨rest, takes⟩ := List.head?_eq_some_iff.1 front
  refine IslandsRules.post (a.to (fun k => by rw [modFront_head, commit_head]) fun j y => ?_) _ _
  by_cases same : j = i
  · subst same
    rw [modFront_island, commit_island]
    exact y.cut takes rfl rfl _ (fun _ => rfl) rfl
  · rwa [modFront_island_ne same, commit_island_ne same]

theorem mapPreds_rules (h : HeadId) (f : PredKind → Pred → Pred) (a : IslandsRules p) : IslandsRules (mapPreds h f p) :=
  a.to (fun _ => rfl) fun i x => by
    have island : (mapPreds h f p).island i = Island.mapPreds h f (p.island i) := by simp [mapPreds]
    rw [island]
    have mapped := x.modFront (f := fun t =>
      { t with cut := t.cut.map (followedBy h f .cutOrEnd), sop := t.sop.map (followedBy h f .sop) }) (fun _ => rfl) fun _ _ c => c
    unfold Island.mapPreds
    unfold Island.modFront at mapped ⊢
    split
    · rename_i none
      rw [none] at mapped
      exact { x with }
    · rename_i some
      rw [some] at mapped
      exact { mapped with }

theorem islandsRules_takes (i : IslandId) : TakesKeep i IslandsRules where
  post s e _ a := a.post s e
  front i f t p active follows a := by
    obtain ⟨front, -⟩ := Island.active_eq_some.1 active
    obtain ⟨rest, takes⟩ := List.head?_eq_some_iff.1 front
    have same : (p.island i).modFront f = (p.island i).modFront fun _ => f t := by
      rw [Island.modFront_cons takes, Island.modFront_cons takes]
    have kept : IslandsRules (p.modFront i fun u => { f t with incoming := u.incoming }) :=
      a.modFront (fun _ => rfl) fun u e c => by
        rw [front] at e
        cases e
        exact follows.committed c
    refine kept.same (fun k => by simp) fun j => ?_
    by_cases is : j = i
    · subst is
      rw [modFront_island, modFront_island, Island.modFront_cons takes, Island.modFront_cons takes, ← follows.incoming]
    · rw [modFront_island_ne is, modFront_island_ne is]
  preds h _ f p _ _ a := mapPreds_rules h f a
  start h x p _ rest a := a.moved (startDrive_moved _ rest)
  commit o l p a := commitTake_rules o l a

theorem endFront_rules (o : TakeOutcome) (r : Reason) (a : IslandsRules p) (free : (p.island i).Free) :
    IslandsRules (endFront i o r p) := by
  unfold endFront
  split
  · exact a
  · rename_i t rest takes
    exact (a.modIsland (f := fun x => { x with takes := rest }) ((a i).pop free takes)).post _ _

/-- The move an island has made for itself leaves its takes free. -/
theorem fallBack_rules (r : Reason) (a : IslandsRules p) (free : (p.island i).Free) : IslandsRules (fallBack i r p) :=
  ite_keeps (endFront_rules _ _ a free) a

end

/-! ### Takes that are activated, re-formed and ended -/

section
variable {p : Part} {i : IslandId}

theorem formCut_rules (o : Source) (keep : Bool) (a : IslandsRules p) : IslandsRules (formCut i o keep p) :=
  a.modFront (fun _ => rfl) fun _ _ c => c

/-- A front take that is QUEUED is not COMMITTED. -/
theorem enterTake_rules (o : Source) (queued : ∀ t, (p.island i).takes.head? = some t → t.state = .queued) (a : IslandsRules p) :
    IslandsRules (enterTake i o p) := by
  have still : ∀ t, ((formCut i o false p).island i).takes.head? = some t → t.state = .queued := fun t e => by
    rw [formCut, modFront_island] at e
    cases takes : (p.island i).takes with
    | nil =>
      rw [Island.modFront_nil takes, takes] at e
      cases e
    | cons u rest =>
      rw [Island.modFront_cons takes] at e
      cases e
      exact queued u (by rw [takes]; rfl)
  unfold enterTake
  extract_lets q entered now
  have formed : IslandsRules q := formCut_rules o false a
  have enteredRules : IslandsRules entered := formed.modFront (fun _ => rfl) fun t e c => nomatch (still t e).symm.trans c
  have nowRules : IslandsRules now := convertNow_takes (islandsRules_takes i) (refreshTake_takes (islandsRules_takes i) i enteredRules)
  split
  · exact nowRules
  · exact workTake_takes (islandsRules_takes i) (nowRules.post _ _)

theorem queued_free (a : IslandsRules p) (queued : ∀ t, (p.island i).takes.head? = some t → t.state = .queued) :
    (p.island i).Free := (a i).free fun t e c => nomatch (queued t e).symm.trans c

/-- A QUEUED front take that fails at its activation (R95). -/
theorem dropFront_rules (o : Source) (r : Reason) (queued : ∀ t, (p.island i).takes.head? = some t → t.state = .queued)
    (a : IslandsRules p) : IslandsRules (endFront i .failed r (p.modFront i fun t => { t with outgoing := some o })) := by
  have set : IslandsRules (p.modFront i fun t => { t with outgoing := some o }) := a.modFront (fun _ => rfl) fun _ _ c => c
  refine endFront_rules _ _ set ?_
  rw [modFront_island]
  have free := queued_free a queued
  unfold Island.modFront
  split <;> exact free

theorem activate_rules (n : Nat) (a : IslandsRules p) : IslandsRules (activate n i p) := by
  induction n generalizing p with
  | zero => exact a
  | succ n ih =>
    unfold activate
    split
    · exact a
    · rename_i t rest takes
      split
      · exact a
      · rename_i open'
        have queued : ∀ u, (p.island i).takes.head? = some u → u.state = .queued := fun u e => by
          rw [takes] at e
          cases e
          exact not_not.1 fun n => open' (.inl n)
        dsimp only
        exact ite_keeps (ih (dropFront_rules _ _ queued a)) (ite_keeps (ih (dropFront_rules _ _ queued a))
          (enterTake_rules _ queued a))

theorem activateFront_rules (a : IslandsRules p) : IslandsRules (activateFront i p) := activate_rules _ a

/-- An active take that has not committed ends. -/
theorem endActive_rules {t : Take} (o : TakeOutcome) (r : Reason) (active : (p.island i).active = some t) (open_ : t.state ≠ .committed)
    (a : IslandsRules p) : IslandsRules (endActive i o r p) := by
  refine activateFront_rules (endFront_rules o r a ((a i).free fun u e => ?_))
  rw [(Island.active_eq_some.1 active).1] at e
  cases e
  exact open_

theorem reform_rules (a : IslandsRules p) : IslandsRules (reform i p) := by
  unfold reform
  split
  · exact a
  rename_i t active
  dsimp only
  split
  · exact a
  rename_i open'
  have open_ : t.state ≠ .committed := fun e => open' (by rw [e]; decide)
  split
  · have set : IslandsRules (p.modFront i fun t => { t with outgoing := some (p.island i).onAir }) :=
      a.modFront (fun _ => rfl) fun _ _ c => c
    exact endActive_rules _ _ (modFront_active active (f := fun t => { t with outgoing := some (p.island i).onAir })
      (Island.active_eq_some.1 active).2) open_ set
  · have formed := formCut_rules (i := i) (p.island i).onAir true a
    refine workTake_takes (islandsRules_takes i) ?_
    split
    · rename_i ready
      obtain ⟨u, now⟩ := Option.isSome_iff_exists.1 (Option.isSome_of_any ready.2)
      exact cutSoon_takes (islandsRules_takes i) now formed
    · exact refreshTake_takes (islandsRules_takes i) i formed

theorem reformOrActivate_rules (a : IslandsRules p) : IslandsRules (reformOrActivate i p) :=
  ite_keeps (reform_rules a) (activateFront_rules a)

/-! ### The source on air -/

theorem followEnd_rules (a : IslandsRules p) : IslandsRules (followEnd i p) := by
  refine a.modIsland ?_
  have end_ : ∀ e, ({ p.island i with fEnd := e } : Island).Keeps (p.isAssigned i) := fun _ => { a i with }
  split
  · exact end_ _
  · split
    · split
      · exact a i
      · exact end_ _
    · exact end_ _

theorem setOnAir_rules {n : Source} (air : ∀ h, n = .head h → p.isAssigned i h = true) (c : OnAirCause) (q : Option Port)
    (f : Option Stamp) (a : IslandsRules p) : IslandsRules (setOnAir i n c q f p) := by
  unfold setOnAir
  dsimp only
  have set : IslandsRules (p.modIsland i fun x => { x with onAir := n, fEnd := if (p.island i).onAir = n then x.fEnd else none }) :=
    a.modIsland { a i with air := air }
  exact followEnd_rules (ite_keeps (set.post _ _) ((set.post _ _).alarming (tellMonitors_frame _ _ _)))

theorem onAirStop_rules (a : IslandsRules p) : IslandsRules (onAirStop i p) := ite_keeps a (standbyNow_rules a)

theorem onAirFault_rules (a : IslandsRules p) : IslandsRules (onAirFault i p) := by
  unfold onAirFault
  split
  · exact a
  split
  · rename_i t active
    split
    · have slipped : IslandsRules (p.modFront i fun t => { t with slip := t.slipTo (p.leadField i) }) :=
        a.modFront (fun _ => rfl) fun _ _ c => c
      exact commitTake_rules _ _ (cutSoon_takes (islandsRules_takes i) (modFront_active active
        (f := fun t => { t with slip := t.slipTo (p.leadField i) }) (Island.active_eq_some.1 active).2) slipped)
    · exact standbyNow_rules a
  · exact standbyNow_rules a

theorem examine_rules (a : IslandsRules p) : IslandsRules (examine i p) := by
  unfold examine
  split
  · have dark : ∀ c : Prop, ∀ [Decidable c], IslandsRules (if c then onAirFault i p else p) :=
      fun _ _ => ite_keeps (onAirFault_rules a) a
    exact ite_keeps (onAirFault_rules a) (ite_keeps (dark _) (onAirStop_rules (dark _)))
  · exact a
  · exact a

theorem raiseFallBack_rules (r : Reason) (a : IslandsRules p) : IslandsRules (raiseFallBack i r p) :=
  a.alarming (raiseAlarm_frame _ _ _ _ _)

theorem clearNoSafe_rules (a : IslandsRules p) : IslandsRules (clearNoSafe i p) := a.alarming (clearAlarm_frame _ _ _ _ _)

theorem closeGuard_rules {known : Part → Part} (k : ∀ q, IslandsRules q → IslandsRules (known q)) (a : IslandsRules p) :
    IslandsRules (closeGuard i known p) := by
  unfold closeGuard
  dsimp only
  split
  · exact k _ a
  · refine raiseFallBack_rules _ (k _ (fallBack_rules _ (commitAsked_rules _ _ a) fun c e => ?_))
    rw [commit_island] at e
    cases e
    rfl

theorem meetGuard_rules (a : IslandsRules p) : IslandsRules (meetGuard i p) := ite_keeps (closeGuard_rules (fun _ b => b) a) a

theorem meetGuardKnown_rules (a : IslandsRules p) : IslandsRules (meetGuardKnown i p) :=
  ite_keeps (closeGuard_rules (fun _ => clearNoSafe_rules) a) (clearNoSafe_rules a)

end

/-! ### The ends of a move -/

section
variable {p : Part} {i : IslandId}

theorem endConfirmation_rules (m : MirrorState) (a : IslandsRules p) :
    IslandsRules (endConfirmation i (p.modIsland i fun x => { x with mirror := m })) := by
  have set : IslandsRules (p.modIsland i fun x => { x with mirror := m }) := a.modIsland { a i with }
  have ended : IslandsRules ((p.modIsland i fun x => { x with mirror := m }).modIsland i fun x => { x with confirm := none }) :=
    set.modIsland { set i with confirm := nofun }
  exact ended.linking (endFast_frame i _)

theorem endConfirmation_none (p : Part) : ((endConfirmation i p).island i).confirm = none := by
  rw [endConfirmation, ← (endFast_frame i _) (.island i) (by cases i <;> decide), modIsland_island]

theorem endConfirmation_assigned (m : MirrorState) (p : Part) :
    (endConfirmation i (p.modIsland i fun x => { x with mirror := m })).isAssigned i = p.isAssigned i := by
  funext k
  rw [Part.isAssigned, Part.isAssigned, endConfirmation, (endFast_frame i _).head (by cases k <;> decide)]
  simp

theorem followEnd_confirm (p : Part) : ((followEnd i p).island i).confirm = (p.island i).confirm := by
  rw [followEnd, modIsland_island]
  split
  · rfl
  · split
    · split <;> rfl
    · rfl

theorem setOnAir_confirm (n : Source) (c : OnAirCause) (q : Option Port) (f : Option Stamp) (p : Part) :
    ((setOnAir i n c q f p).island i).confirm = (p.island i).confirm := by
  unfold setOnAir
  dsimp only
  rw [followEnd_confirm]
  split
  · rw [post_island, modIsland_island]
  · rw [← (tellMonitors_frame _ _ _) (.island i) (by cases i <;> decide), post_island, modIsland_island]

theorem confirmed_source {c : Confirmation} (awaited : (p.island i).confirm = some c) (a : IslandsRules p) :
    ∀ h, c.target = .head h → p.isAssigned i h = true := fun h e => by
  obtain ⟨-, standby⟩ | ⟨-, t, rest, takes, -, target⟩ := (a i).confirm c awaited
  · cases standby.symm.trans e
  · exact ((a i).named t (by rw [takes]; exact List.mem_cons_self ..)).1 h (target.symm.trans e)

theorem confirmMove_rules {c : Confirmation} (awaited : (p.island i).confirm = some c) (a : IslandsRules p) :
    IslandsRules (confirmMove i c p) := by
  unfold confirmMove
  extract_lets q1 q2 q3
  have ended : IslandsRules q1 := endConfirmation_rules _ a
  have aired : IslandsRules q2 := by
    refine setOnAir_rules (fun h e => ?_) _ _ _ ended
    rw [endConfirmation_assigned]
    exact confirmed_source awaited a h e
  have none : (q2.island i).confirm = none := (setOnAir_confirm _ _ _ _ _).trans (endConfirmation_none _)
  have left : IslandsRules q3 := by
    show IslandsRules (match c.owner, (q2.island i).active with
      | .take, some t => endFront i t.outcome .none q2
      | _, _ => q2)
    split
    · exact endFront_rules _ _ aired fun c e => nomatch none.symm.trans e
    · exact aired
  exact meetGuardKnown_rules (meetCommit_takes (islandsRules_takes i) (reformOrActivate_rules (examine_rules left)))

theorem failMove_rules (c : Confirmation) (a : IslandsRules p) : IslandsRules (failMove i c p) := by
  unfold failMove
  extract_lets q1 q2 q3 q4
  have ended : IslandsRules q1 := endConfirmation_rules _ a
  have aired : IslandsRules q2 := setOnAir_rules (n := .unknown) nofun _ _ _ ended
  have none : (q2.island i).confirm = none := (setOnAir_confirm _ _ _ _ _).trans (endConfirmation_none _)
  have left : IslandsRules q3 := by
    show IslandsRules (match c.owner, (q2.island i).active with
      | .take, some t => endFront i .failed .mirror q2
      | _, _ => q2)
    split
    · exact endFront_rules _ _ aired fun c e => nomatch none.symm.trans e
    · exact aired
  have failed : IslandsRules q4 := (meetCommit_takes (islandsRules_takes i) (reformOrActivate_rules left)).alarming
    (raiseAlarm_frame _ _ _ _ _)
  exact ite_keeps (failed.alarming (raiseAlarm_frame _ _ _ _ _)) failed

theorem takeDeadline_rules (a : IslandsRules p) : IslandsRules (takeDeadline i p) := by
  unfold takeDeadline
  split
  · exact failMove_rules _ a
  · exact a

/-! ### Reports of the station, and of the heads -/

/-- The source at a port is assigned to the island. -/
theorem sourceAt_assigned (p : Part) (i : IslandId) (q : Port) : ∀ h, p.sourceAt i q = .head h → p.isAssigned i h = true := by
  intro h e
  unfold Part.sourceAt at e
  split at e
  · rename_i k found
    cases e
    have is := List.find?_some found
    simp only [decide_eq_true_eq] at is
    rw [Part.isAssigned, is]
    simp
  · split at e <;> cases e

theorem reportSource_rules {n : Source} (air : ∀ h, n = .head h → p.isAssigned i h = true) (q : Option Port) (a : IslandsRules p) :
    IslandsRules (reportSource i n q p) := by
  have reported := examine_rules (i := i) (reform_rules (i := i) (setOnAir_rules air .report q none a))
  exact ite_keeps a (ite_keeps (meetGuard_rules reported) (meetGuardKnown_rules reported))

theorem stationReport_rules (q : Port) (m : Bool) (a : IslandsRules p) : IslandsRules (stationReport i q m p) := by
  have mirror : ∀ m, IslandsRules (p.modIsland i fun x => { x with mirror := m }) := fun _ => a.modIsland { a i with }
  unfold stationReport
  refine ite_keeps (reportSource_rules (n := .unknown) nofun _ (mirror _)) (ite_keeps a (reportSource_rules (fun h e => ?_) _ (mirror _)))
  have is := sourceAt_assigned p i q h e
  simpa [Part.isAssigned] using is

theorem deliverStatus_rules (q : Port) (m : Bool) (a : IslandsRules p) : IslandsRules (deliverStatus i q m p) := by
  unfold deliverStatus
  split
  · rename_i awaited
    exact ite_keeps (confirmMove_rules awaited a) a
  · exact stationReport_rules q m a

theorem deliverRefusal_rules (q : Port) (a : IslandsRules p) : IslandsRules (deliverRefusal i q p) := by
  unfold deliverRefusal
  split
  · exact ite_keeps (failMove_rules _ a) a
  · exact a

theorem endReached_rules (h : HeadId) (a : IslandsRules p) : IslandsRules (endReached i h p) :=
  ite_keeps (raiseFallBack_rules _ (fallBack_rules _ (standbyNow_rules a) standbyNow_free)) a

theorem incomingFailed_rules (h : HeadId) (r : Reason) (a : IslandsRules p) : IslandsRules (incomingFailed i h r p) := by
  unfold incomingFailed
  split
  · exact a
  · rename_i t active
    split
    · rename_i fails
      exact endActive_rules _ _ active fails.2 a
    · exact a

theorem standbyRequest_rules (a : IslandsRules p) : IslandsRules (standbyRequest i p) :=
  ite_keeps (endFront_rules _ _ (standbyNow_rules a) standbyNow_free) (standbyNow_rules a)

end

/-! ### Commands and the step -/

theorem islandsRules_same_work {p q : Part} (a : IslandsRules p) (heads : q.heads = p.heads) (islands : q.islands = p.islands) :
    IslandsRules q :=
  a.same (fun k => by rw [Part.head, Part.head, heads]) fun i => by rw [Part.island, Part.island, islands]

theorem islandsRules_reports : ReportKeeps IslandsRules where
  post s e _ a := a.post s e
  raise s k x y _ a := a.alarming (raiseAlarm_frame s k x y _)
  clear s k x y _ a := a.alarming (clearAlarm_frame s k x y _)
  head h f p same a := a.same (fun k => by
    by_cases is : k = h
    · rw [is, modHead_head, same]
    · rw [modHead_head_ne is]) fun i => ((modHead_frame h f p) (.island i) (by simp)).symm
  analog _ _ a := a
  settleTakes _ a := settleTakes_takes islandsRules_takes a
  meetGuard _ _ a := meetGuard_rules a
  followEnd _ _ a := followEnd_rules a
  preds h f p a := mapPreds_rules h f a
  endReached _ h _ a := endReached_rules h a
  onAirFault _ _ a := onAirFault_rules a
  onAirStop _ _ a := onAirStop_rules a
  incomingFailed _ h r _ a := incomingFailed_rules h r a

theorem islandsRules_replies : RepliesKeep IslandsRules where
  post s e _ a := a.post s e
  raise s k x y _ a := a.alarming (raiseAlarm_frame s k x y _)
  clear s k x y _ a := a.alarming (clearAlarm_frame s k x y _)
  link _ _ a := a
  status _ q m _ a := deliverStatus_rules q m a
  refusal _ q _ a := deliverRefusal_rules q a
  offline i _ a := a.modIsland (f := fun x => { x with mirror := .unknown }) { a i with }

/-- A take that may join the list joins it QUEUED (R92, R93). -/
theorem joinTake_rules {i : IslandId} {t : Take} {p : Part} (j : t.Joins p i) (a : IslandsRules p) : IslandsRules (joinTake i t p) := by
  have x := a i
  refine a.modIsland { x with room := ?_, behind := fun u m => ?_, named := fun u m => ?_, confirm := fun c e => ?_ }
  · rw [List.length_append]
    exact j.room
  · cases takes : (p.island i).takes with
    | nil =>
      rw [takes] at m
      cases m
    | cons v rest =>
      rw [takes] at m
      obtain old | new := List.mem_append.1 (show u ∈ rest ++ [t] from m)
      · exact x.behind u (by rw [takes]; exact old)
      · obtain rfl := List.mem_singleton.1 new
        exact j.queued
  · obtain old | new := List.mem_append.1 m
    · exact x.named u old
    · obtain rfl := List.mem_singleton.1 new
      exact ⟨j.assigned, fun e => j.known.elim (fun n => n e) fun is => x.known (is.symm.trans e)⟩
  · obtain island | ⟨owner, u, rest, takes, state, target⟩ := x.confirm c e
    · exact .inl island
    · exact .inr ⟨owner, u, rest ++ [t], by rw [takes]; rfl, state, target⟩

theorem dropQueued_sublist (tag : Word) (l : List Take) : (dropQueued tag l).Sublist l := by
  induction l with
  | nil => exact .slnil
  | cons t rest ih =>
    unfold dropQueued
    split
    · exact List.sublist_cons_self t rest
    · exact ih.cons_cons t

/-- A QUEUED take removed leaves a front take past QUEUED where it is. -/
theorem dropQueued_rules {i : IslandId} {p : Part} (tag : Word) (a : IslandsRules p) :
    IslandsRules (p.modIsland i fun x => { x with takes := dropQueued tag x.takes }) := by
  have x := a i
  have less := dropQueued_sublist tag (p.island i).takes
  refine a.modIsland { x with
    room := less.length_le.trans x.room, behind := fun u m => ?_, named := fun u m => x.named u (less.subset m), confirm := fun c e => ?_ }
  · refine x.behind u ?_
    cases takes : (p.island i).takes with
    | nil =>
      rw [takes] at m
      cases m
    | cons t rest =>
      rw [takes] at m
      unfold dropQueued at m
      split at m
      · exact List.mem_of_mem_tail m
      · exact (dropQueued_sublist tag rest).subset m
  · obtain island | ⟨owner, t, rest, takes, state, target⟩ := x.confirm c e
    · exact .inl island
    · refine .inr ⟨owner, t, dropQueued tag rest, ?_, state, target⟩
      show dropQueued tag (p.island i).takes = _
      rw [takes, dropQueued, if_neg (show ¬ (t.state = .queued ∧ t.tag = tag) from fun e => nomatch state.symm.trans e.1)]

theorem nextHead_assigned {p : Part} {i : IslandId} {n : Nat} {h : HeadId} (e : p.nextHead i n = some h) : p.isAssigned i h = true := by
  obtain ⟨q, -, found⟩ := List.exists_of_findSome?_eq_some e
  split at found
  · have is := List.find?_some found
    simp only [decide_eq_true_eq] at is
    rw [Part.isAssigned, is]
    simp
  · cases found

theorem nextPreset_cases (p : Part) (i : IslandId) :
    p.nextPreset i = .standby ∨ ∃ h n, p.nextPreset i = .head h ∧ p.nextHead i n = some h := by
  have step : ∀ n, (match p.nextHead i n with | some h => Source.head h | none => .standby) = .standby ∨
      ∃ h m, (match p.nextHead i n with | some h => Source.head h | none => .standby) = .head h ∧ p.nextHead i m = some h := fun n => by
    split
    · rename_i h above
      exact .inr ⟨h, n, rfl, above⟩
    · exact .inl rfl
  unfold Part.nextPreset
  split
  · exact step _
  · exact step _
  · exact step _

theorem nextPreset_rules {i : IslandId} {p : Part} (a : IslandsRules p) :
    IslandsRules (p.modIsland i fun x => { x with preset := p.nextPreset i }) := by
  refine a.modIsland { a i with preset := fun h e => ?_, known := fun e => ?_ }
  · obtain standby | ⟨k, n, is, above⟩ := nextPreset_cases p i
    · cases standby.symm.trans e
    · cases is.symm.trans e
      exact nextHead_assigned above
  · obtain standby | ⟨k, n, is, above⟩ := nextPreset_cases p i
    · cases standby.symm.trans e
    · cases is.symm.trans e

/-- A preset is as it was with its head assigned to the island, or has become STANDBY (R91). -/
theorem checkPreset_preset (i : IslandId) (q : Part) : ∃ s, (checkPreset i q).island i = { q.island i with preset := s } ∧
    (s = .unknown → (q.island i).preset = .unknown) ∧ ∀ h, s = .head h → q.isAssigned i h = true := by
  have kept : ∀ s, (q.island i).preset = s → q.island i = { q.island i with preset := s } := fun s e => by rw [← e]
  unfold checkPreset
  split
  · rename_i h is
    split
    · rename_i assigned
      exact ⟨.head h, kept _ is, nofun, fun k e => by cases e; exact assigned⟩
    · exact ⟨.standby, modIsland_island i _ q, nofun, nofun⟩
  · rename_i is
    exact ⟨.standby, kept _ is, nofun, nofun⟩
  · rename_i is
    exact ⟨.unknown, kept _ is, fun _ => is, nofun⟩

theorem checkPresets_preset (i : IslandId) (q : Part) : ∃ s, (checkPresets q).island i = { q.island i with preset := s } ∧
    (s = .unknown → (q.island i).preset = .unknown) ∧ ∀ h, s = .head h → q.isAssigned i h = true := by
  unfold checkPresets
  cases i with
  | i1 =>
    rw [checkPreset_island_ne (by decide)]
    exact checkPreset_preset .i1 q
  | i2 =>
    obtain ⟨s, is, unknown, assigned⟩ := checkPreset_preset .i2 (checkPreset .i1 q)
    rw [checkPreset_island_ne (i := .i1) (j := .i2) (by decide)] at is unknown
    refine ⟨s, is, unknown, fun h e => ?_⟩
    have a := assigned h e
    rwa [Part.isAssigned, checkPreset_head] at a

/-- A head that no source names is assigned elsewhere; a preset that named it becomes STANDBY (R34, R91). -/
theorem assignHead_rules {h : HeadId} {x : Option Assignment} {p : Part} (free : p.onAir h = false) (unnamed : p.incomingNamed h = false)
    (a : IslandsRules p) : IslandsRules (assignHead h x p) := by
  have others : ∀ i k, k ≠ h → (p.modHead h fun y => { y with assigned := x }).isAssigned i k = p.isAssigned i k := fun i k n => by
    rw [Part.isAssigned, Part.isAssigned, modHead_head_ne n]
  refine settle_keeps islandsRules_reports (p := checkPresets (p.modHead h fun y => { y with assigned := x })) fun i => ?_
  have same : (checkPresets (p.modHead h fun y => { y with assigned := x })).isAssigned i =
      (p.modHead h fun y => { y with assigned := x }).isAssigned i := funext fun k => by
    rw [Part.isAssigned, checkPresets, checkPreset_head, checkPreset_head]
    rfl
  obtain ⟨s, is, unknown, assigned⟩ := checkPresets_preset i (p.modHead h fun y => { y with assigned := x })
  have island : (p.modHead h fun y => { y with assigned := x }).island i = p.island i := (modHead_frame h _ p (.island i) (by simp)).symm
  rw [island] at is unknown
  rw [is, same]
  have old := a i
  refine { old with named := fun t m => ⟨fun k e => ?_, (old.named t m).2⟩, air := fun k e => ?_, preset := assigned, known := fun e => old.known (unknown e) }
  · rw [others i k fun same => ?_]
    · exact (old.named t m).1 k e
    · exact Bool.false_ne_true (unnamed.symm.trans (incomingNamed_iff.2 ⟨i, t, m, same ▸ e⟩))
  · rw [others i k fun same => ?_]
    · exact old.air k e
    · exact Bool.false_ne_true (free.symm.trans (onAir_iff.2 ⟨i, same ▸ e⟩))

/-! ### CLEAR -/

/-- No island has a take. -/
def NoTakes (p : Part) : Prop := ∀ i, (p.island i).takes = []

/-- An island as CLEAR leaves it, its move apart (R113). -/
structure ClearedIsland (i : IslandId) (p : Part) : Prop where
  takes : (p.island i).takes = []
  preset : (p.island i).preset = .standby
  air : ∀ h, (p.island i).onAir = .head h → p.isAssigned i h = true

section
variable {p q : Part} {i j : IslandId}

theorem NoTakes.same (a : NoTakes p) (islands : ∀ i, q.island i = p.island i) : NoTakes q := fun i => by rw [islands]; exact a i

theorem NoTakes.of_takes (a : NoTakes p) (takes : (q.island i).takes = (p.island i).takes) (others : ∀ j, j ≠ i → q.island j = p.island j) :
    NoTakes q := fun j => by
  by_cases same : j = i
  · rw [same, takes]
    exact a i
  · rw [others j same]
    exact a j

theorem ClearedIsland.of (a : ClearedIsland i p) (heads : ∀ k, (q.head k).assigned = (p.head k).assigned)
    (takes : (q.island i).takes = (p.island i).takes) (preset : (q.island i).preset = (p.island i).preset)
    (air : (q.island i).onAir = (p.island i).onAir) : ClearedIsland i q where
  takes := takes.trans a.takes
  preset := preset.trans a.preset
  air h e := by
    rw [Part.isAssigned, heads]
    exact a.air h (air.symm.trans e)

theorem clearTakes_island (i : IslandId) (p : Part) : (clearTakes i p).island i = { p.island i with takes := [] } ∧
    ∀ j, j ≠ i → (clearTakes i p).island j = p.island j := by
  have walk : ∀ (l : List Take) (q : Part) (k : IslandId),
      (l.foldl (fun q t => post (.island i) (t.endItem t.clearOutcome .clear) q) q).island k = q.island k := fun l => by
    induction l with
    | nil => exact fun _ _ => rfl
    | cons t l ih => exact fun q k => (ih _ k).trans (post_island _ _ q k)
  refine ⟨?_, fun j n => ?_⟩
  · rw [clearTakes, walk, modIsland_island]
  · rw [clearTakes, walk, modIsland_island_ne n]

theorem clearHead_takes (h : HeadId) (a : NoTakes p) : NoTakes (clearHead h p) := by
  have drives : ∀ {q r : Part}, ChangesOnly (Block.driving h) q r → ∀ i, r.island i = q.island i := fun c i =>
    (c (.island i) (by simp [Block.driving, Block.alarming, Block.posting])).symm
  unfold clearHead
  extract_lets q1 q2 q3
  have b1 : NoTakes q1 := a.same (drives (modHead_driving h _ p))
  have b2 : NoTakes q2 := ite_keeps (ite_keeps (b1.same (drives (switchLamp_frame h _ _))) b1) (b1.same (drives (enterDrive_frame h _ _ _ _)))
  have b3 : NoTakes q3 := b2.same (drives leaveLimit_moved.frame)
  intro i
  have island : (mapPreds h Pred.atLeave (followCues h q3)).island i = Island.mapPreds h Pred.atLeave ((followCues h q3).island i) := by
    simp [mapPreds]
  rw [island, show (followCues h q3).island i = q3.island i from drives (modHead_driving h _ _) i, Island.mapPreds]
  rw [Island.modFront_nil (b3 i)]
  exact b3 i

theorem setOnAir_island (i : IslandId) (n : Source) (c : OnAirCause) (o : Option Port) (f : Option Stamp) (p : Part) :
    ((setOnAir i n c o f p).island i).takes = (p.island i).takes ∧ ((setOnAir i n c o f p).island i).preset = (p.island i).preset ∧
      ((setOnAir i n c o f p).island i).onAir = n ∧ (∀ j, j ≠ i → (setOnAir i n c o f p).island j = p.island j) ∧
        ∀ k, (setOnAir i n c o f p).head k = p.head k := by
  let q := post (.island i) (.onAir c n (p.island i).onAir o f) (p.modIsland i fun x =>
    { x with onAir := n, fEnd := if (p.island i).onAir = n then x.fEnd else none })
  have told : ChangesOnly Block.alarming q (if (p.island i).onAir = n then q else tellMonitors (p.island i).onAir n q) :=
    .ite (.refl _ q) (tellMonitors_frame _ _ _)
  have followed : ∀ r : Part, ((followEnd i r).island i).takes = (r.island i).takes ∧ ((followEnd i r).island i).preset = (r.island i).preset ∧
      ((followEnd i r).island i).onAir = (r.island i).onAir := fun r => by
    rw [followEnd, modIsland_island]
    split
    · exact ⟨rfl, rfl, rfl⟩
    · split
      · split <;> exact ⟨rfl, rfl, rfl⟩
      · exact ⟨rfl, rfl, rfl⟩
  have same : (if (p.island i).onAir = n then q else tellMonitors (p.island i).onAir n q).island i = q.island i :=
    (told (.island i) (by cases i <;> decide)).symm
  have set : q.island i = { p.island i with onAir := n, fEnd := if (p.island i).onAir = n then (p.island i).fEnd else none } := by
    rw [post_island, modIsland_island]
  obtain ⟨takes, preset, air⟩ := followed (if (p.island i).onAir = n then q else tellMonitors (p.island i).onAir n q)
  rw [same, set] at takes preset air
  refine ⟨takes, preset, air, fun j m => ?_, fun k => ?_⟩
  · refine (modIsland_island_ne m _ _).trans ((told (.island j) (by cases j <;> decide)).symm.trans ?_)
    rw [post_island, modIsland_island_ne m]
  · refine Eq.trans (show _ = (if (p.island i).onAir = n then q else tellMonitors (p.island i).onAir n q).head k by simp [setOnAir, followEnd, q]) ?_
    exact (told.head (by cases k <;> decide)).trans ((post_head _ _ _ k).trans (by simp))

end

section
variable {p : Part} {i : IslandId}

theorem readdress_island (i j : IslandId) (p : Part) : (readdress i p).island j = p.island j := by
  have link : ∀ {q r : Part}, ChangesOnly Block.linking q r → r.island j = q.island j := fun c => (c (.island j) (by cases j <;> decide)).symm
  refine ((clearAlarm_frame _ _ _ _ _) (.island j) (by cases j <;> decide)).symm.trans ?_
  exact link (((modStation_linking i _ p).trans (link_linking _ _)).trans (pumpLink_frame _))

theorem readdress_head (i : IslandId) (k : HeadId) (p : Part) : (readdress i p).head k = p.head k := by
  have link : ∀ {q r : Part}, ChangesOnly Block.linking q r → r.head k = q.head k := fun c => c.head (by cases k <;> decide)
  refine ((clearAlarm_frame _ _ _ _ _).head (by cases k <;> decide)).trans ?_
  exact link (((modStation_linking i _ p).trans (link_linking _ _)).trans (pumpLink_frame _))

/-- CLEAR of an island: its preset is STANDBY, and a head on air is kept where it is assigned there (R113). -/
theorem clearIsland_clears (i : IslandId) (old : Four (Option Assignment)) (empty : (p.island i).takes = []) :
    ClearedIsland i (clearIsland i old p) ∧ (∀ j, j ≠ i → (clearIsland i old p).island j = p.island j) ∧
      ∀ k, (clearIsland i old p).head k = p.head k := by
  unfold clearIsland
  extract_lets address set q
  let Set (r : Part) : Prop := (r.island i).takes = [] ∧ (r.island i).preset = .standby ∧ (∀ j, j ≠ i → r.island j = p.island j) ∧
    ∀ k, r.head k = p.head k
  have before : Set set := by
    have is : set.island i = _ := modIsland_island i _ p
    show (set.island i).takes = [] ∧ _
    rw [is]
    exact ⟨empty, rfl, fun j n => modIsland_island_ne n _ p, fun k => by simp [set]⟩
  have at_ : Set q := by
    obtain ⟨takes, preset, others, heads⟩ := before
    refine ite_keeps (I := Set) ⟨takes, preset, others, heads⟩ ⟨?_, ?_, fun j n => ?_, fun k => ?_⟩
    · rw [readdress_island]
      exact takes
    · rw [readdress_island]
      exact preset
    · rw [readdress_island]
      exact others j n
    · rw [readdress_head]
      exact heads k
  obtain ⟨takes, preset, others, heads⟩ := at_
  split
  · rename_i kept
    refine ⟨⟨takes, preset, fun h air => ?_⟩, others, heads⟩
    unfold keepsAir at kept
    rw [air] at kept
    exact (Bool.and_eq_true_iff.1 kept).1
  · obtain ⟨takes', preset', air', others', heads'⟩ := setOnAir_island i .unknown .clear none none q
    refine ⟨⟨takes'.trans takes, preset'.trans preset, fun h e => nomatch air'.symm.trans e⟩, fun j n => (others' j n).trans (others j n),
      fun k => (heads' k).trans (heads k)⟩

/-- A cleared island whose move is one to STANDBY keeps the rules. -/
theorem ClearedIsland.keeps (a : ClearedIsland i p) (moves : ∃ c, (p.island i).confirm = some c ∧ c.owner = .island ∧ c.target = .standby) :
    (p.island i).Keeps (p.isAssigned i) where
  room := by rw [a.takes]; exact Nat.zero_le _
  behind t m := by rw [a.takes] at m; cases m
  named t m := by rw [a.takes] at m; cases m
  air := a.air
  preset h e := nomatch a.preset.symm.trans e
  known e := nomatch a.preset.symm.trans e
  confirm c e := by
    obtain ⟨d, is, owner, target⟩ := moves
    cases is.symm.trans e
    exact .inl ⟨owner, target⟩

theorem clearAll_rules (p : Part) : IslandsRules (clearAll p) := by
  unfold clearAll
  extract_lets old trim trimmed cleared headed addressed followed
  have empty : NoTakes cleared := by
    obtain ⟨one, other⟩ := clearTakes_island .i1 trimmed
    obtain ⟨two, apart⟩ := clearTakes_island .i2 (clearTakes .i1 trimmed)
    intro i
    cases i with
    | i1 => rw [apart .i1 (by decide), one]
    | i2 => rw [two]
  have headedEmpty : NoTakes headed := foldl_keeps (fun q h => clearHead_takes h) _ empty
  have polled : NoTakes (clearPolls headed) := headedEmpty.same fun i => (clearPolls_frame headed (.island i) (by cases i <;> decide)).symm
  obtain ⟨one, apart, heads⟩ := clearIsland_clears .i1 old (polled .i1)
  have still : ((clearIsland .i1 old (clearPolls headed)).island .i2).takes = [] := by
    rw [apart .i2 (by decide)]
    exact polled .i2
  obtain ⟨two, apart', heads'⟩ := clearIsland_clears .i2 old still
  have addressedBoth : ∀ i, ClearedIsland i addressed := fun i => by
    cases i with
    | i1 =>
      have same : addressed.island .i1 = (clearIsland .i1 old (clearPolls headed)).island .i1 := apart' .i1 (by decide)
      exact one.of (fun k => by rw [heads' k]) (by rw [same]) (by rw [same]) (by rw [same])
    | i2 => exact two
  have moved : ∀ i, ∃ c m, ((standbyNow .i2 (standbyNow .i1 addressed)).island i) =
      { addressed.island i with mirror := m, confirm := some c } ∧ c.owner = .island ∧ c.target = .standby := fun i => by
    cases i with
    | i1 =>
      rw [standbyNow, commit_island_ne (i := .i2) (j := .i1) (by decide), standbyNow, commit_island]
      exact ⟨_, _, rfl, rfl, rfl⟩
    | i2 =>
      rw [standbyNow, commit_island, standbyNow, commit_island_ne (i := .i1) (j := .i2) (by decide)]
      exact ⟨_, _, rfl, rfl, rfl⟩
  have standbyBoth : IslandsRules (standbyNow .i2 (standbyNow .i1 addressed)) := fun i => by
    obtain ⟨c, m, is, owner, target⟩ := moved i
    refine ClearedIsland.keeps ((addressedBoth i).of (fun k => ?_) (by rw [is]) (by rw [is]) (by rw [is])) ⟨c, by rw [is], owner, target⟩
    rw [standbyNow, commit_head, standbyNow, commit_head]
  have done : IslandsRules followed := followEnd_rules (followEnd_rules standbyBoth)
  clear_value followed
  exact ite_keeps (islandsRules_same_work done rfl rfl) done

end

theorem islandsRules_commands : CommandKeeps IslandsRules :=
  { islandsRules_reports.heads with
    post := islandsRules_reports.post
    ref := fun _ _ a => a
    analog := fun _ _ a => a
    panel := fun _ _ a => a
    flags := fun p a => a.frame (resetFlags_frame p) ⟨by rintro ⟨⟩ <;> decide, by rintro ⟨⟩ <;> decide⟩
    acknowledge := fun s p a => a.alarming (acknowledge_frame s p)
    clearAll := fun p _ => clearAll_rules p
    assign := fun _ _ _ free unnamed a => assignHead_rules free unnamed a
    setIsland := fun i c p a => by
      have set : ∀ m : Island → MirrorState, IslandsRules (p.modIsland i fun x => { x with settings := c, mirror := m x }) := fun m =>
        a.modIsland (f := fun x => { x with settings := c, mirror := m x }) { a i with }
      exact meetGuard_rules (ite_keeps (set _) (readdress_keeps islandsRules_replies i (set _)))
    preset := fun _ _ a => nextPreset_rules a
    authority := fun i f _ a => a.modIsland (f := fun x => { x with authority := f x }) { a i with }
    join := fun _ _ _ j a => joinTake_rules j a
    activate := fun _ _ a => activateFront_rules a
    cancel := fun _ tag _ a => dropQueued_rules tag a
    abort := fun _ _ _ active open_ a => endActive_rules _ _ active open_ a
    standby := fun _ _ a => standbyRequest_rules a }

theorem islandsRules_units : UnitsKeep IslandsRules :=
  { islandsRules_commands with
    raise := islandsRules_reports.raise
    bus := fun _ _ a => a
    agent := fun _ _ a => a
    cmd := fun _ _ a => a
    evt := fun _ _ a => a
    init := fun _ _ a => a
    standbyAtStart := fun _ _ a => commitAsked_rules _ _ a }

theorem fieldEvent_islands {p : Part} (a : IslandsRules p) : IslandsRules (fieldEvent p) :=
  a.same (fun k => by rw [fieldEvent_head]) fun i => (fieldEvent_frame p (.island i) (by cases i <;> decide)).symm

theorem islandsRules_runs : RunKeeps IslandsRules :=
  { islandsRules_commands with
    time := fun _ _ a => a
    status := fun _ _ a => a
    field := fun _ a => fieldEvent_islands a
    raise := islandsRules_reports.raise
    clear := islandsRules_reports.clear
    startField := fun _ _ due a => takeStartField_takes (islandsRules_takes _) due a
    commitField := fun _ _ due a => takeCommitField_takes (islandsRules_takes _) due a
    guard := fun _ _ _ a => closeGuard_rules (fun _ b => b) a
    deadline := fun _ _ a => takeDeadline_rules a
    poll := fun i _ a => takePollExpiry_keeps islandsRules_replies i a
    sent := fun _ _ a => a
    receive := fun c _ a => receive_keeps islandsRules_replies c a
    timeout := fun _ _ a => takeTimeout_keeps islandsRules_replies a
    gapEnd := fun _ _ a => takeGapEnd_keeps islandsRules_replies a
    begins := fun c _ a => beginCycle_keeps islandsRules_units c a
    ends := fun ack _ a => endCycle_keeps islandsRules_units ack a
    withhold := fun x _ a => withhold_keeps islandsRules_units x a
    answer := fun x l h _ a => answerRead_keeps islandsRules_units x l h a
    finish := fun d _ _ a => finishWord_keeps islandsRules_units d a
    fail := fun _ _ a => failWord_keeps islandsRules_units a
    starve := fun _ _ a => takeStarve_keeps islandsRules_units a }

/-- An island after reset, or as a load starts it. -/
theorem Island.reset_keeps (A : HeadId → Bool) (c : IslandSettings) : (Island.reset c).Keeps A where
  room := Nat.zero_le _
  behind _ m := (List.not_mem_nil m).elim
  named _ m := (List.not_mem_nil m).elim
  air _ e := by cases e
  preset _ e := by cases e
  known e := by cases e
  confirm _ e := by cases e

theorem endLoad_islands (l : List Byte) {p : Part} (a : IslandsRules p) : IslandsRules (endLoad l p) := by
  have free : (∀ k, Block.head k ∉ [Block.panel]) ∧ ∀ i, Block.island i ∉ [Block.panel] := ⟨by rintro ⟨⟩ <;> decide, by rintro ⟨⟩ <;> decide⟩
  unfold endLoad
  split
  · rename_i m _
    have begun : IslandsRules (startBlocks m p) := fun i => by
      have is : (startBlocks m p).island i = .reset (m.defaults.islands.get i) := by cases i <;> rfl
      rw [is]
      exact Island.reset_keeps _ _
    have row := begun.frame (beginRow_frame 0 p.time.now _) free
    have read : IslandsRules { beginRow 0 p.time.now (startBlocks m p) with init := .readCommand } := row
    have submitted := read.frame (submit_frame (readJob .startupCommand (indexWord (beginRow 0 p.time.now (startBlocks m p)).bus .command 0) 1) _)
      ⟨by rintro ⟨⟩ <;> decide, by rintro ⟨⟩ <;> decide⟩
    exact submitted
  · exact IslandsRules.frame (p := { p with mode := .transparent, alarms := { p.alarms with horn := true }, panel := .reset .feet 31 }) a
      (beginRow_frame 0 p.time.now _) free

/-- Settles O58: each event and command keeps the rules (`islandsRules_runs`), and so does a load; a reset has them. -/
theorem everyStepKeepsTheIslands : Obligations.EveryStepKeepsTheIslands := by
  intro s t rules e
  have reset : IslandsRules .reset := fun i => by
    cases i <;> exact Island.reset_keeps _ _
  exact islandsRules_iff.1 (step_keeps islandsRules_runs reset (fun l _ _ => endLoad_islands l) (islandsRules_iff.2 rules) e)

end Sys2Proof.Machine
end

section
/-! PROOFS. What every command keeps of a property that speaks of the rings alone: it need only be kept as an event is posted, and by whatever leaves the rings, the agent and the port as they were. -/

namespace Sys2Proof.Machine

/-- Two parts have the same rings: the same mode and initialisation, decoder, port, agent, Command Unit and Event Unit. -/
def SameRings (p q : Part) : Prop :=
  q.mode = p.mode ∧ q.init = p.init ∧ q.bus = p.bus ∧ q.agent = p.agent ∧ q.cmd = p.cmd ∧ q.evt = p.evt

/-- A property of the rings that a posted event keeps. -/
structure PostsKeep (I : Part → Prop) : Prop where
  post : ∀ s e p, I p → I (post s e p)
  same : ∀ p q, SameRings p q → I p → I q

section
variable {I : Part → Prop} (K : PostsKeep I)
include K

theorem PostsKeep.alarms {p : Part} (t : AlarmTable) (a : I p) : I { p with alarms := t } :=
  K.same p _ ⟨rfl, rfl, rfl, rfl, rfl, rfl⟩ a

theorem PostsKeep.link {p : Part} (k : LinkUnit) (a : I p) : I { p with link := k } :=
  K.same p _ ⟨rfl, rfl, rfl, rfl, rfl, rfl⟩ a

theorem PostsKeep.judge {p : Part} (a : I p) : I (judgeHorn p) := K.alarms _ a

/-! ### Alarms -/

theorem enterAlarm_posts (s : AlarmSource) (k : AlarmKind) (x : EntryState) (b c : Word) {p : Part} (a : I p) :
    I (enterAlarm s k x b c p) := K.post _ _ _ (K.alarms _ a)

theorem addAlarm_posts (s : AlarmSource) (k : AlarmKind) (x : EntryState) (b c : Word) {p : Part} (a : I p) :
    I (addAlarm s k x b c p) := by
  unfold addAlarm
  split
  · exact enterAlarm_posts K s k x b c a
  · split
    · exact enterAlarm_posts K s k x b c (K.post _ _ _ (K.alarms _ a))
    · exact K.post _ _ _ (K.alarms _ a)

theorem raiseAlarm_posts (s : AlarmSource) (k : AlarmKind) (b c : Word) {p : Part} (a : I p) : I (raiseAlarm s k b c p) := by
  unfold raiseAlarm
  refine K.judge ?_
  split
  · exact addAlarm_posts K s k _ b c a
  · exact K.post _ _ _ a
  · exact addAlarm_posts K s k _ b c a
  · split
    · exact K.post _ _ _ (K.alarms _ a)
    · exact a
    · exact a

theorem clearAlarm_posts (s : AlarmSource) (k : AlarmKind) (b c : Word) {p : Part} (a : I p) : I (clearAlarm s k b c p) := by
  unfold clearAlarm
  refine K.judge ?_
  split
  · exact a
  · split
    · exact K.post _ _ _ (K.alarms _ a)
    · exact K.post _ _ _ (K.alarms _ a)
    · exact a

theorem acknowledge_posts (s : Option AlarmSource) {p : Part} (a : I p) : I (acknowledge s p) := by
  have entry : ∀ q e, I q → I (acknowledgeEntry e q) := fun q e b => by
    unfold acknowledgeEntry
    split
    · exact K.post _ _ _ (K.alarms _ b)
    · exact K.post _ _ _ (K.alarms _ b)
    · exact b
  exact K.judge (K.alarms _ (foldl_keeps entry _ a))

theorem emptyAlarms_posts {p : Part} (a : I p) : I (emptyAlarms p) := K.judge (K.post _ _ _ (K.alarms _ a))

/-! ### The link -/

theorem selectEntry_posts {p : Part} (a : I p) : I (selectEntry p) := by
  have late : ∀ e n q, I q → I (reportLate e n q) := fun e n q b => by
    unfold reportLate
    split
    · exact ite_keeps (K.post _ _ _ b) b
    · exact b
  unfold selectEntry
  split
  · have begun : ∀ f q, I q → I (beginTransaction f q) := fun f q b => ite_keeps (late _ _ _ (K.link _ b)) (K.link _ b)
    exact begun _ _ (K.link _ a)
  · exact a

theorem joinPolls_posts {p : Part} (a : I p) : I (joinPolls p) := by
  have join : ∀ i q, I q → I (joinPoll i q) := fun i q b => ite_keeps (K.link _ (K.link _ b)) b
  exact ite_keeps (join .i1 _ a) (join .i2 _ (join .i1 _ a))

theorem pumpLink_posts {p : Part} (a : I p) : I (pumpLink p) := joinPolls_posts K (selectEntry_posts K (joinPolls_posts K a))

theorem submitMove_posts (i : IslandId) (q : Port) (f : Stamp) {p : Part} (a : I p) : I (submitMove i q f p) := by
  have dropped : ∀ q, I q → I (dropPoll q) := fun q b => by
    unfold dropPoll
    split
    · exact b
    · split
      · exact K.link _ (K.link _ b)
      · exact b
  exact pumpLink_posts K (K.link _ (dropped _ (K.link _ a)))

theorem endFast_posts (i : IslandId) {p : Part} (a : I p) : I (endFast i p) :=
  ite_keeps (pumpLink_posts K (K.link _ a)) (K.link _ a)

/-! ### Every command but CLEAR and RESET_FLAGS -/

theorem PostsKeep.drive : DriveKeeps I where
  post := K.post
  raise s k b c _ a := raiseAlarm_posts K s k b c a
  clear s k b c _ a := clearAlarm_posts K s k b c a
  head _ _ p _ a := K.same p _ ⟨rfl, rfl, rfl, rfl, rfl, rfl⟩ a
  analog _ p a := K.same p _ ⟨rfl, rfl, rfl, rfl, rfl, rfl⟩ a

theorem PostsKeep.scheduler : SchedulerKeeps I where
  post := K.post
  raise s k b c _ a := raiseAlarm_posts K s k b c a
  clear s k b c _ a := clearAlarm_posts K s k b c a
  islands _ p a := K.same p _ ⟨rfl, rfl, rfl, rfl, rfl, rfl⟩ a
  move i q f _ a := submitMove_posts K i q f a
  fast i _ a := endFast_posts K i a
  start h _ _ a := startDrive_keeps K.drive h _ a

theorem PostsKeep.replies : RepliesKeep I := K.scheduler.replies fun _ _ a => K.link _ a

theorem PostsKeep.commands (flags : ∀ p, I p → I (resetFlags p))
    (judge : ∀ p, p.init = .done → I p → I { p with evt := p.evt.judged }) : CommandKeeps I :=
  { (K.scheduler.reports K.drive).heads with
    post := K.post
    ref := fun _ p a => K.same p _ ⟨rfl, rfl, rfl, rfl, rfl, rfl⟩ a
    analog := fun _ p a => K.same p _ ⟨rfl, rfl, rfl, rfl, rfl, rfl⟩ a
    panel := fun _ p a => K.same p _ ⟨rfl, rfl, rfl, rfl, rfl, rfl⟩ a
    flags
    acknowledge := fun s _ a => acknowledge_posts K s a
    clearAll := fun _ a => clearAll_keeps K.scheduler (fun _ p a => K.same p _ ⟨rfl, rfl, rfl, rfl, rfl, rfl⟩ a)
      (fun _ a => emptyAlarms_posts K a) (fun _ p a => K.same p _ ⟨rfl, rfl, rfl, rfl, rfl, rfl⟩ a)
      (fun h _ a => clearHead_keeps K.drive K.scheduler (fun _ _ _ p a => K.same p _ ⟨rfl, rfl, rfl, rfl, rfl, rfl⟩ a) h a)
      (fun p a => K.same p _ ⟨rfl, rfl, rfl, rfl, rfl, rfl⟩ a) (fun i _ a => readdress_keeps K.replies i a) judge a
    assign := fun h x p _ _ a => by
      have preset : ∀ i q, I q → I (checkPreset i q) := fun i q b => by
        obtain e | e := checkPreset_cases i q <;> rw [e]
        · exact b
        · exact K.same q _ ⟨rfl, rfl, rfl, rfl, rfl, rfl⟩ b
      exact settle_keeps (K.scheduler.reports K.drive) (preset _ _ (preset _ _ (K.same p _ ⟨rfl, rfl, rfl, rfl, rfl, rfl⟩ a)))
    setIsland := fun i c p a => by
      have set : ∀ f, I (p.modIsland i f) := fun f => modIsland_keeps K.scheduler i f a
      exact meetGuard_keeps K.scheduler i (ite_keeps (set _) (readdress_keeps K.replies i (set _)))
    preset := fun i _ a => modIsland_keeps K.scheduler i _ a
    authority := fun i f _ a => modIsland_keeps K.scheduler i _ a
    join := fun i _ _ _ a => modIsland_keeps K.scheduler i _ a
    activate := fun i _ a => activateFront_keeps K.scheduler i a
    cancel := fun i _ _ a => modIsland_keeps K.scheduler i _ a
    abort := fun i _ _ _ _ a => endActive_keeps K.scheduler i _ _ a
    standby := fun i _ a => standbyRequest_keeps K.scheduler i a }

end

end Sys2Proof.Machine
end

section
/-! PROOFS. Every step keeps the rings (R165, R166, R170, R171, R174 to R176, R181, R182, R185): what a job submitted and a word handed on do, a unit's report of its job, and the step. -/

namespace Sys2Proof.Machine

/-! ### The port -/

/-- The agent's word and the port agree; with `free`, a free port has nothing waiting for it. -/
structure PortAt (free : Bool) (p : Part) : Prop where
  port : p.agent.onPort = decide (p.bus.holder = .agent)
  word : p.agent.jobs.isEmpty = decide (p.agent.word = .idle)
  handed : free = true → p.bus.holder = .free → p.agent.word = .idle ∧ p.bus.waiting = none

/-- The units and the window table are as they were. -/
structure SameUnits (p q : Part) : Prop where
  windows : q.bus.windows = p.bus.windows
  evt : q.evt = p.evt
  cmd : q.cmd = p.cmd
  init : q.init = p.init
  mode : q.mode = p.mode

theorem SameUnits.trans {p q r : Part} (a : SameUnits p q) (b : SameUnits q r) : SameUnits p r :=
  ⟨b.windows.trans a.windows, b.evt.trans a.evt, b.cmd.trans a.cmd, b.init.trans a.init, b.mode.trans a.mode⟩

/-- What handing on the port leaves. -/
theorem arbitrate_leaves (p : Part) : SameUnits p (arbitrate p) ∧ (arbitrate p).agent.jobs = p.agent.jobs := by
  unfold arbitrate
  split
  · split <;> exact ⟨⟨rfl, rfl, rfl, rfl, rfl⟩, rfl⟩
  · exact ⟨⟨rfl, rfl, rfl, rfl, rfl⟩, rfl⟩
  · exact ⟨⟨rfl, rfl, rfl, rfl, rfl⟩, rfl⟩

theorem arbitrate_port {free : Bool} {p : Part} (a : PortAt free p) : PortAt true (arbitrate p) := by
  unfold arbitrate
  split
  · rename_i open'
    have port := a.port
    have word := a.word
    rw [open'] at port
    split
    · rename_i ready _
      exact ⟨rfl, by rw [word, ready]; rfl, fun _ e => nomatch e⟩
    · exact ⟨port, word, fun _ e => nomatch e⟩
    · rename_i ready _ _
      exact ⟨rfl, by rw [word, ready]; rfl, fun _ e => nomatch e⟩
    · rename_i none still other
      refine ⟨by rw [open']; exact port, word, fun _ _ => ⟨?_, none⟩⟩
      cases e : p.agent.word with
      | idle => rfl
      | ready t =>
        cases s : p.agent.starved with
        | true => exact (still t e s).elim
        | false => exact (other t e s).elim
      | active t =>
        rw [Agent.onPort, e] at port
        cases port
  · rename_i c held
    exact ⟨a.port, a.word, fun _ e => nomatch held.symm.trans e⟩
  · rename_i held
    exact ⟨a.port, a.word, fun _ e => nomatch held.symm.trans e⟩

theorem submit_leaves (j : Job) (p : Part) : SameUnits p (submit j p) ∧ (submit j p).agent.jobs = p.agent.jobs ++ [j] := by
  unfold submit
  split
  · rename_i empty
    have none : p.agent.jobs = [] := by simpa using empty
    obtain ⟨same, jobs⟩ := arbitrate_leaves { p with agent :=
      { p.agent with jobs := [j], done := 0, got := [], word := .ready p.time.now, starved := false } }
    refine ⟨⟨same.windows, same.evt, same.cmd, same.init, same.mode⟩, jobs.trans ?_⟩
    rw [none]
    rfl
  · exact ⟨⟨rfl, rfl, rfl, rfl, rfl⟩, rfl⟩

theorem submit_port {free : Bool} {p : Part} (j : Job) (a : PortAt free p) : PortAt free (submit j p) := by
  unfold submit
  split
  · rename_i empty
    have idle : p.agent.word = .idle := by
      have word := a.word
      rw [empty] at word
      simpa using word.symm
    have ready : PortAt false { p with agent :=
        { p.agent with jobs := [j], done := 0, got := [], word := .ready p.time.now, starved := false } } := by
      refine ⟨?_, rfl, nofun⟩
      have port := a.port
      rw [Agent.onPort, idle] at port
      exact port
    have handed := arbitrate_port ready
    exact ⟨handed.port, handed.word, fun _ => handed.handed rfl⟩
  · rename_i some
    have busy : p.agent.word ≠ .idle := fun e => by
      have word := a.word
      rw [e] at word
      exact some (by simpa using word)
    refine ⟨a.port, ?_, a.handed⟩
    rw [decide_eq_false busy]
    simp

/-! ### The rings -/

/-- The jobs the initialisation has submitted at each of its stages (R174). -/
def Init.kinds : Init → List JobKind
  | .readCommand => [.startupCommand]
  | .readEvent => [.startupEvent]
  | .writing false _ => [.consumerWrite, .producerWrite]
  | .writing true _ => [.producerWrite]
  | .waiting => []
  | .done => []

/-- The rings at stage `n` of the initialisation, where the jobs are of the kinds `l` before it is done, and then `c` jobs of the
Command Unit, which is at work as `busy` says; with `free`, the port is handed on. -/
structure RingsAt (n : Init) (l : List JobKind) (c : Nat) (busy free : Bool) (p : Part) : Prop extends PortAt free p where
  queue : p.evt.queue.length ≤ 16
  mode : p.mode = .running ∨ n = .waiting
  init : p.init = n
  indices : p.indicesSound = true
  fetch : decide (p.cmd.fetch ≠ .idle) = busy
  early : n ≠ .done → p.agent.jobs.map (·.kind) = l ∧ p.evt.writing = false ∧ busy = false
  starts : n = .done → p.agent.count 2 = 0
  events : n = .done → p.agent.count 1 = flag p.evt.writing
  commands : n = .done → p.agent.count 0 = c

/-- The rings between events: one job of the Command Unit exactly while it is at work. -/
def RingsRules (p : Part) : Prop :=
  ∃ n busy, RingsAt n n.kinds (flag busy) busy true p ∧ ∀ x, n ≠ .writing x true

theorem Agent.count_append (a b : Agent) (j : Job) (u : Nat) (jobs : b.jobs = a.jobs ++ [j]) :
    b.count u = a.count u + if j.unit = u then 1 else 0 := by
  unfold count
  rw [jobs, List.filter_append, List.length_append]
  congr 1
  by_cases is : j.unit = u
  · rw [if_pos is, List.filter_cons_of_pos (by simpa using is)]
    rfl
  · rw [if_neg is, List.filter_cons_of_neg (by simpa using is)]
    rfl

section
variable {n : Init} {l : List JobKind} {c : Nat} {busy free : Bool} {p q : Part}

theorem indices_same (windows : q.bus.windows = p.bus.windows) (init : q.init = p.init) (cmd : q.cmd.consumer = p.cmd.consumer ∧
    q.cmd.producer = p.cmd.producer) (evt : q.evt.producer = p.evt.producer ∧ q.evt.consumer = p.evt.consumer) :
    q.indicesSound = p.indicesSound := by
  unfold Part.indicesSound Bus.ringSize Bus.window?
  rw [windows, init, cmd.1, cmd.2, evt.1, evt.2]

/-- The same units with the same jobs. -/
theorem RingsAt.units {free' : Bool} (a : RingsAt n l c busy free p) (same : SameUnits p q) (jobs : q.agent.jobs = p.agent.jobs)
    (port : PortAt free' q) : RingsAt n l c busy free' q := by
  have count : ∀ u, q.agent.count u = p.agent.count u := fun u => by rw [Agent.count, Agent.count, jobs]
  exact
    { port with
      queue := same.evt ▸ a.queue
      mode := same.mode ▸ a.mode
      init := same.init.trans a.init
      indices := (indices_same same.windows same.init (by rw [same.cmd]; exact ⟨rfl, rfl⟩)
        (by rw [same.evt]; exact ⟨rfl, rfl⟩)).trans a.indices
      fetch := same.cmd ▸ a.fetch
      early := fun e => by rw [jobs, same.evt]; exact a.early e
      starts := fun e => (count 2).trans (a.starts e)
      events := fun e => by rw [count, same.evt]; exact a.events e
      commands := fun e => (count 0).trans (a.commands e) }

theorem RingsAt.arbitrate (a : RingsAt n l c busy free p) : RingsAt n l c busy true (arbitrate p) :=
  a.units (arbitrate_leaves p).1 (arbitrate_leaves p).2 (arbitrate_port a.toPortAt)

/-- The Event Unit goes to work on a job. -/
theorem write_rings {j : Job} {x : EventUnit} (unit : j.unit = 1) (a : RingsAt .done l c busy free p) (still : p.evt.writing = false)
    (writing : x.writing = true) (indices : x.producer = p.evt.producer ∧ x.consumer = p.evt.consumer) (queue : x.queue.length ≤ 16) :
    RingsAt .done l c busy free (submit j { p with evt := x }) := by
  have port : PortAt free { p with evt := x } := ⟨a.port, a.word, a.handed⟩
  obtain ⟨same, jobs⟩ := submit_leaves j { p with evt := x }
  have count : ∀ u, (submit j { p with evt := x }).agent.count u = p.agent.count u + if j.unit = u then 1 else 0 :=
    fun u => Agent.count_append p.agent _ j u jobs
  exact
    { submit_port j port with
      queue := by rw [same.evt]; exact queue
      mode := by rw [same.mode]; exact a.mode
      init := same.init.trans a.init
      indices := (indices_same (p := p) same.windows same.init (by rw [same.cmd]; exact ⟨rfl, rfl⟩)
        (by rw [same.evt]; exact indices)).trans a.indices
      fetch := by rw [same.cmd]; exact a.fetch
      early := fun e => absurd rfl e
      starts := fun e => by rw [count, a.starts e, unit]; rfl
      events := fun e => by
        rw [count, same.evt, a.events e, unit, still]
        show flag false + 1 = flag x.writing
        rw [writing]
        rfl
      commands := fun e => by rw [count, a.commands e, unit]; rfl }

/-- With an event in hand the Event Unit writes it (R182). -/
theorem pumpEvents_rings (a : RingsAt n l c busy free p) : RingsAt n l c busy free (pumpEvents p) := by
  unfold pumpEvents
  split
  · exact a
  rename_i e rest queue
  split
  · rename_i writes
    obtain ⟨done, idle, -⟩ := writes
    obtain rfl : n = .done := a.init.symm.trans done
    have room := a.queue
    rw [queue, List.length_cons] at room
    exact write_rings rfl a (by simpa using idle) rfl ⟨rfl, rfl⟩ (Nat.le_of_succ_le room)
  · exact a

theorem RingsAt.post (a : RingsAt n l c busy free p) (s : AlarmSource) (e : EventItem) : RingsAt n l c busy free (post s e p) := by
  unfold Machine.post
  split
  · rename_i room
    refine pumpEvents_rings { a with queue := ?_, indices := ?_ }
    · rw [List.length_append]
      exact room
    · exact (indices_same rfl rfl ⟨rfl, rfl⟩ ⟨rfl, rfl⟩).trans a.indices
  · exact { a with indices := (indices_same rfl rfl ⟨rfl, rfl⟩ ⟨rfl, rfl⟩).trans a.indices }

theorem ringsAt_posts (n : Init) (l : List JobKind) (c : Nat) (busy free : Bool) : PostsKeep (RingsAt n l c busy free) where
  post s e _ a := a.post s e
  same p q s a := by
    obtain ⟨mode, init, bus, agent, cmd, evt⟩ := s
    exact a.units ⟨by rw [bus], evt, cmd, init, mode⟩ (by rw [agent]) ⟨by rw [agent, bus]; exact a.port, by rw [agent]; exact a.word,
      by rw [bus, agent]; exact a.handed⟩

end

/-! ### Jobs and indices -/

section
variable {n : Init} {l : List JobKind} {c : Nat} {busy free : Bool} {p q : Part}

theorem indicesSound_iff : p.indicesSound = true ↔
    (p.init = .waiting → p.bus.windows = [] ∧ p.cmd.consumer = 0 ∧ p.cmd.producer = 0 ∧ p.evt.producer = 0 ∧ p.evt.consumer = 0) ∧
    (p.init ≠ .waiting → p.bus.ringSize .command ≤ 65535 ∧ p.bus.ringSize .event ≤ 65535 ∧
      p.cmd.consumer < p.bus.ringSize .command ∧ p.cmd.producer < p.bus.ringSize .command ∧
      p.evt.producer < p.bus.ringSize .event ∧ p.evt.consumer < p.bus.ringSize .event) := by
  unfold Part.indicesSound
  by_cases waiting : p.init = .waiting
  · simp [waiting, and_assoc]
  · simp [waiting, and_assoc]

/-- A job of the Command Unit, or of the initialisation. -/
theorem submit_rings (j : Job) (unit : n = .done → j.unit = 0) (a : RingsAt n l c busy free q) :
    RingsAt n (l ++ [j.kind]) (c + 1) busy free (submit j q) := by
  obtain ⟨same, jobs⟩ := submit_leaves j q
  have count : ∀ u, (submit j q).agent.count u = q.agent.count u + if j.unit = u then 1 else 0 :=
    fun u => Agent.count_append q.agent _ j u jobs
  exact
    { submit_port j a.toPortAt with
      queue := same.evt ▸ a.queue
      mode := same.mode ▸ a.mode
      init := same.init.trans a.init
      indices := (indices_same same.windows same.init (by rw [same.cmd]; exact ⟨rfl, rfl⟩)
        (by rw [same.evt]; exact ⟨rfl, rfl⟩)).trans a.indices
      fetch := same.cmd ▸ a.fetch
      early := fun e => by
        obtain ⟨kinds, rest⟩ := a.early e
        rw [jobs, same.evt, List.map_append, kinds]
        exact ⟨rfl, rest⟩
      starts := fun e => by rw [count, a.starts e, unit e]; rfl
      events := fun e => by rw [count, same.evt, a.events e, unit e]; rfl
      commands := fun e => by rw [count, a.commands e, unit e]; rfl }

/-- Another record of the Command Unit, its indices in range. -/
theorem RingsAt.setCmd (a : RingsAt n l c busy free p) (x : CommandUnit) (early : n ≠ .done → x.fetch = .idle)
    (indices : ({ p with cmd := x } : Part).indicesSound = true) :
    RingsAt n l c (decide (x.fetch ≠ .idle)) free { p with cmd := x } :=
  { a with
    indices := indices
    fetch := rfl
    early := fun e => ⟨(a.early e).1, (a.early e).2.1, by rw [early e]; rfl⟩ }

theorem RingsAt.setFetch (a : RingsAt .done l c busy free p) (f : FetchState) (s : Option Status) :
    RingsAt .done l c (decide (f ≠ .idle)) free { p with cmd := { p.cmd with status := s, fetch := f } } :=
  a.setCmd { p.cmd with status := s, fetch := f } (fun e => absurd rfl e) ((indices_same rfl rfl ⟨rfl, rfl⟩ ⟨rfl, rfl⟩).trans a.indices)

theorem fetchEntry_rings (a : RingsAt .done l 0 busy free p) : RingsAt .done (l ++ [.commandFetch]) 1 true free (fetchEntry p) :=
  submit_rings (readJob .commandFetch (commandEntry p.bus p.cmd.consumer) 15) (fun _ => rfl) (a.setFetch .fetching p.cmd.status)

theorem RingsAt.kinds (a : RingsAt .done l c busy free p) (m : List JobKind) : RingsAt .done m c busy free p :=
  { a with early := fun e => absurd rfl e }

/-- The rings, the port handed on or not. -/
def RingsSome (free : Bool) (p : Part) : Prop := ∃ n busy, RingsAt n n.kinds (flag busy) busy free p ∧ ∀ x, n ≠ .writing x true

theorem RingsAt.done (a : RingsAt .done l (flag busy) busy free p) : RingsSome free p := ⟨.done, busy, a.kinds _, nofun⟩

theorem RingsSome.arbitrate (a : RingsSome free p) : RingsSome true (arbitrate p) := by
  obtain ⟨n, busy, a, x⟩ := a
  exact ⟨n, busy, a.arbitrate, x⟩

theorem ringsSome_posts (free : Bool) : PostsKeep (RingsSome free) where
  post s e _ := fun ⟨n, busy, a, x⟩ => ⟨n, busy, a.post s e, x⟩
  same p q s := fun ⟨n, busy, a, x⟩ => ⟨n, busy, (ringsAt_posts _ _ _ _ _).same p q s a, x⟩

/-! ### The units report -/

/-- The agent leaves its front job. -/
theorem dropJob_port (p : Part) : PortAt false (dropJob p) := by
  unfold dropJob
  cases p.agent.jobs.tail with
  | nil => exact ⟨rfl, rfl, nofun⟩
  | cons j rest => exact ⟨rfl, rfl, nofun⟩

theorem count_front {j : Job} {rest : List Job} (jobs : p.agent.jobs = j :: rest) (u : Nat) :
    p.agent.count u = (if j.unit = u then 1 else 0) + (dropJob p).agent.count u := by
  have left : (dropJob p).agent.jobs = rest := by rw [dropJob, jobs]; rfl
  rw [Agent.count, Agent.count, jobs, left]
  by_cases is : j.unit = u
  · rw [if_pos is, List.filter_cons_of_pos (by simpa using is), List.length_cons, Nat.add_comm]
  · rw [if_neg is, List.filter_cons_of_neg (by simpa using is), Nat.zero_add]

/-- The front job is dropped, the rings at work. -/
theorem dropJob_rings {j : Job} {rest : List Job} (jobs : p.agent.jobs = j :: rest) (a : RingsAt .done l (flag busy) busy free p) :
    (j.unit = 0 ∧ RingsAt .done l 0 true false (dropJob p)) ∨
      (j.unit = 1 ∧ ∀ x, x.writing = false → x.producer < p.bus.ringSize .event → x.consumer < p.bus.ringSize .event →
        x.queue = p.evt.queue → RingsAt .done l (flag busy) busy false { dropJob p with evt := x }) := by
  have starts := (count_front jobs 2).symm.trans (a.starts rfl)
  have events := (count_front jobs 1).symm.trans (a.events rfl)
  have commands := (count_front jobs 0).symm.trans (a.commands rfl)
  have indices : (dropJob p).indicesSound = true := (indices_same rfl rfl ⟨rfl, rfl⟩ ⟨rfl, rfl⟩).trans a.indices
  have unit : j.unit = 0 ∨ j.unit = 1 ∨ j.unit = 2 := by unfold Job.unit; cases j.kind <;> simp
  obtain is | is | is := unit <;> simp only [is] at starts events commands
  · refine .inl ⟨is, ?_⟩
    have busy' : busy = true := by
      cases busy with
      | true => rfl
      | false => simp [flag] at commands
    rw [busy'] at commands
    exact
      { dropJob_port p with
        queue := a.queue, mode := a.mode, init := a.init, indices := indices, fetch := a.fetch.trans busy'
        early := fun e => absurd rfl e, starts := fun _ => by simpa using starts, events := fun _ => (Nat.zero_add _).symm.trans events
        commands := fun _ => by simpa [flag] using commands }
  · refine .inr ⟨is, fun x still producer consumer queue => ?_⟩
    have none : (dropJob p).agent.count 1 = 0 := by
      unfold flag at events
      simp only [if_true] at events
      split at events <;> omega
    obtain ⟨-, sizes⟩ := indicesSound_iff.1 a.indices
    have init : p.init ≠ .waiting := by rw [a.init]; nofun
    obtain ⟨b, d, e, f, -, -⟩ := sizes init
    exact
      { dropJob_port p with
        queue := queue ▸ a.queue, mode := a.mode, init := a.init
        indices := indicesSound_iff.2 ⟨fun e => absurd e init, fun _ => ⟨b, d, e, f, producer, consumer⟩⟩
        fetch := a.fetch, early := fun e => absurd rfl e, starts := fun _ => by simpa using starts
        events := fun _ => by rw [show (_ : Part).evt.writing = false from still]; exact none
        commands := fun _ => by simpa using commands }
  · simp at starts

end

section
variable {n : Init} {l : List JobKind} {c : Nat} {busy free : Bool} {p q : Part}

theorem resetFlags_rings (a : RingsAt n l c busy free p) : RingsAt n l c busy free (resetFlags p) :=
  { a with indices := (indices_same rfl rfl ⟨rfl, rfl⟩ ⟨rfl, rfl⟩).trans a.indices }

theorem judged_rings (a : RingsAt n l c busy free p) : RingsAt n l c busy free { p with evt := p.evt.judged } :=
  { a with indices := (indices_same rfl rfl ⟨rfl, rfl⟩ ⟨rfl, rfl⟩).trans a.indices }

theorem ringsAt_commands (n : Init) (l : List JobKind) (c : Nat) (busy free : Bool) : CommandKeeps (RingsAt n l c busy free) :=
  (ringsAt_posts n l c busy free).commands (fun _ => resetFlags_rings) fun _ _ => judged_rings

theorem violate_rings (x : Addr) (k : WindowKind) (v : ViolationCause) (a : RingsAt n l c busy free p) :
    RingsAt n l c busy free (violate x k v p) := by
  have noted : ∀ v, RingsAt n l c busy free { p with bus := { p.bus with violation := v } } := fun _ =>
    { a with indices := (indices_same rfl rfl ⟨rfl, rfl⟩ ⟨rfl, rfl⟩).trans a.indices }
  unfold violate
  split
  · exact noted _
  · exact raiseAlarm_posts (ringsAt_posts n l c busy free) _ _ _ _ (noted _)

/-- A status is in hand: the unit writes it (R178). -/
theorem complete_rings (s : Status) (a : RingsAt .done l 0 busy free p) : RingsAt .done (l ++ [.statusWrite]) 1 true free (complete s p) :=
  submit_rings (writeJob .statusWrite (commandEntry p.bus p.cmd.consumer + 30) (statusWord s)) (fun _ => rfl) (a.setFetch .completing (some s))

theorem endFetch_rings (w : Option (List Word)) (a : RingsAt .done l 0 true free p) : RingsSome free (endFetch w p) := by
  unfold endFetch
  split
  · rename_i words
    have executing := a.setFetch .executing p.cmd.status
    have K := ringsAt_commands .done l 0 true free
    have entered := enterEntry_keeps K (fun n => words.getD n 0) executing
    have completed := complete_rings (enterEntry (fun n => words.getD n 0) { p with cmd := { p.cmd with fetch := .executing } }).2 entered
    exact (followEntry_keeps (ringsAt_commands .done (l ++ [.statusWrite]) 1 true free) _ _ completed).done (busy := true)
  · exact (complete_rings _ a).done (busy := true)

/-- The ring sizes are not 0 once there are windows. -/
theorem RingsAt.sizes (a : RingsAt n l c busy free p) (w : n ≠ .waiting) : p.bus.ringSize .command ≤ 65535 ∧ p.bus.ringSize .event ≤ 65535 ∧
    p.cmd.consumer < p.bus.ringSize .command ∧ p.cmd.producer < p.bus.ringSize .command ∧
    p.evt.producer < p.bus.ringSize .event ∧ p.evt.consumer < p.bus.ringSize .event :=
  (indicesSound_iff.1 a.indices).2 (a.init ▸ w)

/-- Another Command Unit record with its indices in range. -/
theorem RingsAt.setIndices (a : RingsAt n l c busy free p) (w : n ≠ .waiting) {x : CommandUnit} (fetch : x.fetch = p.cmd.fetch)
    (consumer : x.consumer < p.bus.ringSize .command) (producer : x.producer < p.bus.ringSize .command) :
    RingsAt n l c busy free { p with cmd := x } := by
  obtain ⟨b, d, -, -, e, f⟩ := a.sizes w
  have set := a.setCmd x (fun early => ?_) (indicesSound_iff.2 ⟨fun e => absurd (a.init.symm.trans e) w, fun _ => ⟨b, d, consumer, producer, e, f⟩⟩)
  · rwa [fetch, a.fetch] at set
  · have idle := a.fetch
    rw [(a.early early).2.2] at idle
    rw [fetch]
    simpa using idle

theorem endStatus_rings (a : RingsAt .done l 0 true free p) : RingsSome free (endStatus p) := by
  obtain ⟨-, -, consumer, producer, -, -⟩ := a.sizes nofun
  have size : 0 < p.bus.ringSize .command := Nat.zero_lt_of_lt consumer
  have set : ∀ v < p.bus.ringSize .command, RingsAt .done l 0 true free { p with cmd := { p.cmd with consumer := v } } := fun v less =>
    a.setIndices nofun rfl less producer
  have next : (if p.cmd.consumer = p.cmd.producer then p.cmd.consumer else (p.cmd.consumer + 1) % p.bus.ringSize .command) <
      p.bus.ringSize .command := by
    split
    · exact consumer
    · exact Nat.mod_lt _ size
  exact (submit_rings (writeJob .consumerWrite _ _) (fun _ => rfl) (set _ next)).done (busy := true)

theorem endConsumer_rings (a : RingsAt .done l 0 true free p) : RingsSome free (endConsumer p) := by
  unfold endConsumer
  split
  · exact (a.setFetch .idle p.cmd.status).done (busy := false)
  · exact (fetchEntry_rings a).done (busy := true)

end

/-! ### The initialisation -/

section
variable {n : Init} {l : List JobKind} {c : Nat} {busy free : Bool} {p : Part}

/-- A start-up value lies below the ring size (R174). -/
theorem startValue_rings (k : WindowKind) (x : Addr) (w : Option (List Word)) (size : 0 < p.bus.ringSize k)
    (a : RingsAt n l c busy free p) :
    (startValue k x w p).1 < p.bus.ringSize k ∧ RingsAt n l c busy free (startValue k x w p).2 := by
  unfold startValue
  split
  · exact ⟨size, a⟩
  · dsimp only
    split
    · rename_i less
      exact ⟨less, a⟩
    · exact ⟨size, violate_rings _ _ _ a⟩

/-- The next stage of the initialisation, the units' records given. -/
theorem RingsAt.stage (a : RingsAt n [] c busy free p) (early : n ≠ .done) {m : Init} (next : m ≠ .done ∧ m ≠ .waiting) (w : n ≠ .waiting)
    {x : CommandUnit} {e : EventUnit} (fetch : x.fetch = .idle) (writing : e.writing = false) (queue : e.queue.length ≤ 16)
    (command : x.consumer < p.bus.ringSize .command ∧ x.producer < p.bus.ringSize .command)
    (event : e.producer < p.bus.ringSize .event ∧ e.consumer < p.bus.ringSize .event) :
    RingsAt m [] c false free { p with cmd := x, evt := e, init := m } := by
  obtain ⟨b, d, -⟩ := a.sizes w
  exact
    { port := a.port, word := a.word, handed := a.handed, queue := queue
      mode := .inl (a.mode.resolve_right w)
      init := rfl
      indices := indicesSound_iff.2 ⟨fun e => absurd e next.2, fun _ => ⟨b, d, command.1, command.2, event.1, event.2⟩⟩
      fetch := by rw [fetch]; rfl
      early := fun _ => ⟨(a.early early).1, writing, rfl⟩
      starts := fun e => absurd e next.1, events := fun e => absurd e next.1, commands := fun e => absurd e next.1 }

theorem RingsAt.submits (a : RingsAt n l c busy free p) (j : Job) (early : n ≠ .done) :
    RingsAt n (l ++ [j.kind]) (c + 1) busy free (submit j p) := submit_rings j (fun e => absurd e early) a

theorem RingsAt.started (a : RingsAt n n.kinds c false free p) (w : ∀ x, n ≠ .writing x true) (early : n ≠ .done) : RingsSome free p :=
  ⟨n, false, { a with commands := fun e => absurd e early }, w⟩

theorem fetch_idle (a : RingsAt n l c false free p) : p.cmd.fetch = .idle := by simpa using a.fetch

theorem violate_windows (x : Addr) (k : WindowKind) (v : ViolationCause) (p : Part) : (violate x k v p).bus.windows = p.bus.windows := by
  have posts : PostsKeep fun q => q.bus.windows = p.bus.windows :=
    { post := fun s e q same => by
        have pumped : ∀ r : Part, (pumpEvents r).bus.windows = r.bus.windows := fun r => by
          unfold pumpEvents
          split
          · rfl
          · split
            · exact (submit_leaves _ _).1.windows
            · rfl
        unfold Machine.post
        split
        · exact (pumped _).trans same
        · exact same
      same := fun q r s same => by rw [s.2.2.1]; exact same }
  unfold violate
  split
  · rfl
  · exact raiseAlarm_posts posts _ _ _ _ rfl

theorem startValue_windows (k : WindowKind) (x : Addr) (w : Option (List Word)) (p : Part) :
    (startValue k x w p).2.bus.windows = p.bus.windows := by
  unfold startValue
  split
  · rfl
  · dsimp only
    split
    · rfl
    · exact violate_windows _ _ _ _

theorem endStartCommand_rings (w : Option (List Word)) (a : RingsAt .readCommand [] c false free p) : RingsSome free (endStartCommand w p) := by
  obtain ⟨-, -, consumer, -⟩ := a.sizes nofun
  obtain ⟨value, b⟩ := startValue_rings .command (indexWord p.bus .command 0) w (Nat.zero_lt_of_lt consumer) a
  have windows := startValue_windows .command (indexWord p.bus .command 0) w p
  have size : (startValue .command (indexWord p.bus .command 0) w p).2.bus.ringSize .command = p.bus.ringSize .command := by
    rw [Bus.ringSize, Bus.ringSize, Bus.window?, Bus.window?, windows]
  rw [← size] at value
  unfold endStartCommand
  generalize startValue .command (indexWord p.bus .command 0) w p = r at value b
  obtain ⟨v, q⟩ := r
  obtain ⟨-, -, -, -, e, f⟩ := b.sizes nofun
  have next : RingsAt .readEvent [] c false free { q with cmd := { q.cmd with consumer := v, producer := v }, init := .readEvent } :=
    b.stage (m := .readEvent) (x := { q.cmd with consumer := v, producer := v }) (by decide) (by decide) (by decide) (fetch_idle b)
      (b.early (by decide)).2.1 b.queue ⟨value, value⟩ ⟨e, f⟩
  exact (next.submits (readJob .startupEvent (indexWord q.bus .event 1) 1) (by decide)).started (n := .readEvent) (by simp) (by decide)

theorem endStartEvent_rings (w : Option (List Word)) (a : RingsAt .readEvent [] c false free p) : RingsSome free (endStartEvent w p) := by
  obtain ⟨-, -, -, -, -, consumer⟩ := a.sizes nofun
  obtain ⟨value, b⟩ := startValue_rings .event (indexWord p.bus .event 1) w (Nat.zero_lt_of_lt consumer) a
  have windows := startValue_windows .event (indexWord p.bus .event 1) w p
  have size : (startValue .event (indexWord p.bus .event 1) w p).2.bus.ringSize .event = p.bus.ringSize .event := by
    rw [Bus.ringSize, Bus.ringSize, Bus.window?, Bus.window?, windows]
  rw [← size] at value
  unfold endStartEvent
  generalize startValue .event (indexWord p.bus .event 1) w p = r at value b
  obtain ⟨v, q⟩ := r
  obtain ⟨-, -, e, f, -, -⟩ := b.sizes nofun
  have next : RingsAt (.writing false false) [] c false free
      { q with evt := { q.evt with producer := v, consumer := v }, init := .writing false false } :=
    b.stage (m := .writing false false) (e := { q.evt with producer := v, consumer := v }) (by decide) (by decide) (by decide)
      (fetch_idle b) (b.early (by decide)).2.1 b.queue ⟨e, f⟩ ⟨value, value⟩
  have consumed := next.submits (writeJob .consumerWrite (indexWord q.bus .command 1) (word q.cmd.consumer)) (by decide)
  exact (consumed.submits (writeJob .producerWrite _ _) (by decide)).started (n := .writing false false) (by simp) (by decide)

/-- The two index words have been written: the units go to work (R174). -/
theorem endInit_rings (a : RingsAt (.writing true false) [] c false free p) : RingsSome free (endInit p) := by
  obtain ⟨b, d, e, f, g, h⟩ := a.sizes nofun
  have empty : p.agent.jobs = [] := List.map_eq_nil_iff.1 (a.early nofun).1
  have begun : RingsAt .done [] 0 false free { p with init := .done, evt := p.evt.judged } :=
    { port := a.port, word := a.word, handed := a.handed, queue := a.queue
      mode := .inl (a.mode.resolve_right nofun)
      init := rfl
      indices := indicesSound_iff.2 ⟨nofun, fun _ => ⟨b, d, e, f, g, h⟩⟩
      fetch := a.fetch
      early := fun e => absurd rfl e
      starts := fun _ => by rw [Agent.count, show (_ : Part).agent.jobs = [] from empty]; rfl
      events := fun _ => by
        rw [Agent.count, show (_ : Part).agent.jobs = [] from empty]
        show 0 = flag p.evt.writing
        rw [(a.early nofun).2.1]
        rfl
      commands := fun _ => by rw [Agent.count, show (_ : Part).agent.jobs = [] from empty]; rfl }
  have K := (ringsAt_posts .done [] 0 false free).scheduler
  have told := (pumpEvents_rings begun).post .device (.started p.cmd.consumer p.evt.producer)
  have standby : RingsAt .done [] 0 false free (standbyAtStart .i2 (standbyAtStart .i1 _)) :=
    commitAsked_keeps K 0 .i2 .standby _ .island (commitAsked_keeps K 0 .i1 .standby _ .island told)
  unfold endInit
  dsimp only
  split
  · exact standby.done (busy := false)
  · exact (fetchEntry_rings standby).done (busy := true)

end

/-! ### A word of the agent ends -/

section
variable {n : Init} {l : List JobKind} {c : Nat} {busy free : Bool} {p : Part}

theorem report_consumer_early {x e : Bool} (at_ : p.init = .writing x e) (w : Option (List Word)) :
    report .consumerWrite w p = endInitWrite true e p := by
  unfold report
  rw [at_]

theorem report_producer_early {x e : Bool} (at_ : p.init = .writing x e) (w : Option (List Word)) :
    report .producerWrite w p = endInitWrite x true p := by
  unfold report
  rw [at_]

theorem endInitWrite_both (p : Part) : endInitWrite true true p = endInit p := if_pos rfl

theorem endInitWrite_first (p : Part) : endInitWrite true false p = { p with init := .writing true false } := if_neg (by decide)

/-- The jobs of the initialisation are reported in the order of its stages (R174). -/
theorem report_early {j : Job} {rest : List Job} (jobs : p.agent.jobs = j :: rest) (w : Option (List Word)) (early : n ≠ .done)
    (x : ∀ x, n ≠ .writing x true) (a : RingsAt n n.kinds (flag busy) busy free p) :
    RingsSome false (report j.kind w (dropJob p)) := by
  obtain ⟨kinds, writing, idle⟩ := a.early early
  rw [jobs, List.map_cons] at kinds
  have left : (dropJob p).agent.jobs = rest := by rw [dropJob, jobs]; rfl
  have dropped : RingsAt n n.kinds.tail (flag busy) false false (dropJob p) :=
    { dropJob_port p with
      queue := a.queue, mode := a.mode, init := a.init
      indices := (indices_same rfl rfl ⟨rfl, rfl⟩ ⟨rfl, rfl⟩).trans a.indices
      fetch := a.fetch.trans idle
      early := fun _ => ⟨by rw [left, ← kinds]; rfl, writing, rfl⟩
      starts := fun e => absurd e early, events := fun e => absurd e early, commands := fun e => absurd e early }
  cases n with
  | waiting => cases kinds
  | readCommand =>
    rw [(List.cons.inj kinds).1]
    exact endStartCommand_rings w dropped
  | readEvent =>
    rw [(List.cons.inj kinds).1]
    exact endStartEvent_rings w dropped
  | done => exact absurd rfl early
  | writing k e =>
    have at_ : (dropJob p).init = .writing k e := dropped.init
    cases e with
    | true => exact absurd rfl (x k)
    | false =>
      cases k with
      | false =>
        rw [(List.cons.inj kinds).1]
        obtain ⟨-, -, b, d, e, f⟩ := dropped.sizes (by decide)
        have next : RingsAt (.writing true false) (Init.writing true false).kinds (flag busy) false false
            { dropJob p with init := .writing true false } :=
          { dropped with
            init := rfl, mode := .inl (dropped.mode.resolve_right nofun)
            indices := indicesSound_iff.2 ⟨nofun, fun _ => dropped.sizes (by decide)⟩
            early := fun _ => dropped.early (by decide)
            starts := nofun, events := nofun, commands := nofun }
        rw [report_consumer_early at_, endInitWrite_first]
        exact next.started (by simp) (by decide)
      | true =>
        rw [(List.cons.inj kinds).1]
        rw [report_producer_early at_, endInitWrite_both]
        exact endInit_rings dropped

/-- The jobs of the units at work (R177, R178, R182). -/
theorem report_done {j : Job} {rest : List Job} (jobs : p.agent.jobs = j :: rest) (w : Option (List Word))
    (a : RingsAt .done l (flag busy) busy free p) : RingsSome false (report j.kind w (dropJob p)) := by
  have at_ : (dropJob p).init = .done := a.init
  obtain ⟨-, -, -, -, producer, consumer⟩ := a.sizes nofun
  have size : 0 < p.bus.ringSize .event := Nat.zero_lt_of_lt consumer
  obtain ⟨unit, dropped⟩ | ⟨unit, dropped⟩ := dropJob_rings jobs a
  · unfold Job.unit at unit
    unfold report
    cases kind : j.kind with
    | commandFetch => exact endFetch_rings w dropped
    | statusWrite => exact endStatus_rings dropped
    | consumerWrite =>
      rw [at_]
      exact endConsumer_rings dropped
    | eventWrite => rw [kind] at unit; cases unit
    | producerWrite => rw [kind] at unit; cases unit
    | startupCommand => rw [kind] at unit; cases unit
    | startupEvent => rw [kind] at unit; cases unit
  · unfold Job.unit at unit
    unfold report
    cases kind : j.kind with
    | eventWrite =>
      unfold endEvent
      dsimp only
      split
      · have moved := dropped { p.evt with producer := (p.evt.producer + 1) % p.bus.ringSize .event, writing := false } rfl
          (Nat.mod_lt _ size) consumer rfl
        have written : (dropJob p).evt.writing = true := by
          have events := (count_front jobs 1).symm.trans (a.events rfl)
          have one : j.unit = 1 := by rw [Job.unit, kind]
          rw [one] at events
          show p.evt.writing = true
          cases is : p.evt.writing with
          | true => rfl
          | false =>
            rw [is] at events
            simp [flag] at events
        exact (write_rings (j := writeJob .producerWrite _ _) (x := { p.evt with producer := (p.evt.producer + 1) % p.bus.ringSize .event }) rfl moved rfl written ⟨rfl, rfl⟩ a.queue).done
      · exact (pumpEvents_rings (dropped { p.evt with lost := true, writing := false } rfl producer consumer rfl)).done
    | producerWrite =>
      rw [at_]
      exact (pumpEvents_rings (dropped { p.evt.judged with writing := false } rfl producer consumer rfl)).done
    | commandFetch => rw [kind] at unit; cases unit
    | statusWrite => rw [kind] at unit; cases unit
    | consumerWrite => rw [kind] at unit; cases unit
    | startupCommand => rw [kind] at unit; cases unit
    | startupEvent => rw [kind] at unit; cases unit

theorem report_rings {j : Job} {rest : List Job} (jobs : p.agent.jobs = j :: rest) (w : Option (List Word)) (a : RingsRules p) :
    RingsSome false (report j.kind w (dropJob p)) := by
  obtain ⟨n, busy, a, x⟩ := a
  by_cases done : n = .done
  · subst done
    exact report_done jobs w a
  · exact report_early jobs w done x a

theorem finishWord_rings (d : Word) (a : RingsRules p) : RingsRules (finishWord d p) := by
  unfold finishWord
  split
  · exact a
  rename_i j rest jobs
  dsimp only
  split
  · obtain ⟨n, busy, a, x⟩ := a
    refine RingsSome.arbitrate (free := false) ⟨n, busy, a.units ⟨rfl, rfl, rfl, rfl, rfl⟩ rfl ⟨rfl, ?_, nofun⟩, x⟩
    show p.agent.jobs.isEmpty = _
    rw [jobs]
    rfl
  · exact (report_rings jobs _ a).arbitrate

theorem failWord_rings (a : RingsRules p) : RingsRules (failWord p) := by
  unfold failWord
  split
  · exact a
  · rename_i j rest jobs
    exact (raiseAlarm_posts (ringsSome_posts false) _ _ _ _ (report_rings jobs _ a)).arbitrate

theorem takeStarve_rings (a : RingsRules p) : RingsRules (takeStarve p) := by
  obtain ⟨n, busy, a, x⟩ := a
  exact ⟨n, busy, (a.units (q := { p with agent := { p.agent with starved := true } }) ⟨rfl, rfl, rfl, rfl, rfl⟩ rfl
    ⟨a.port, a.word, a.handed⟩).arbitrate, x⟩

/-! ### Processor cycles -/

/-- A value in range is handed on to its unit (R166, R176, R182). -/
theorem handOn_rings (k : WindowKind) {v : Nat} (less : v < p.bus.ringSize k) (a : RingsSome free p) : RingsSome free (handOn k v p) := by
  obtain ⟨n, busy, a, x⟩ := a
  have started : n ≠ .waiting := fun e => by
    obtain ⟨none, -⟩ := (indicesSound_iff.1 a.indices).1 (a.init.trans e)
    rw [Bus.ringSize, Bus.window?, none] at less
    exact Nat.not_lt_zero _ less
  obtain ⟨b, d, consumer, producer, e, f⟩ := a.sizes started
  cases k with
  | command =>
    have seen : RingsAt n n.kinds (flag busy) busy free { p with cmd := { p.cmd with producer := v } } :=
      a.setIndices started rfl consumer less
    unfold handOn takeProducer
    dsimp only
    split
    · rename_i wakes
      obtain ⟨done, idle, -⟩ := wakes
      have stage : n = .done := a.init.symm.trans done
      have still : busy = false := by
        have fetch := a.fetch
        rw [show p.cmd.fetch = .idle from idle] at fetch
        exact fetch.symm
      subst stage still
      exact (fetchEntry_rings seen).done (busy := true)
    · exact ⟨n, busy, seen, x⟩
  | event =>
    have seen : ∀ y : EventUnit, y.queue = p.evt.queue → y.writing = p.evt.writing → y.producer = p.evt.producer → y.consumer = v →
        RingsAt n n.kinds (flag busy) busy free { p with evt := y } := fun y queue writing same is =>
      { a with
        queue := queue ▸ a.queue
        indices := indicesSound_iff.2 ⟨fun e => absurd (a.init.symm.trans e) started, fun _ =>
          ⟨b, d, consumer, producer, by rw [show (_ : Part).evt.producer = _ from same]; exact e, by rw [show (_ : Part).evt.consumer = _ from is]; exact less⟩⟩
        early := fun e => ⟨(a.early e).1, writing.trans (a.early e).2.1, (a.early e).2.2⟩
        events := fun e => (a.events e).trans (congrArg flag writing.symm) }
    refine ⟨n, busy, pumpEvents_rings (seen _ ?_ ?_ ?_ ?_), x⟩ <;> split <;> rfl
  | live => exact ⟨n, busy, a, x⟩
  | guard => exact ⟨n, busy, a, x⟩

theorem snoop_rings (y : BusCycle) (ack : Bool) (a : RingsSome free p) : RingsSome free (snoop y ack p) := by
  have violated : ∀ k v, RingsSome free (violate y.addr k v p) := fun k v => by
    obtain ⟨n, busy, a, x⟩ := a
    exact ⟨n, busy, violate_rings _ _ _ a, x⟩
  unfold snoop
  split
  · split
    · exact a
    · split
      · rename_i good
        simp only [Bool.and_eq_true, decide_eq_true_eq] at good
        exact handOn_rings _ good.2 a
      · exact violated _ _
  · exact a
  · exact a
  · exact a

theorem endCycle_rings (ack : Bool) (a : RingsRules p) : RingsRules (endCycle ack p) := by
  unfold endCycle
  split
  · rename_i y held
    obtain ⟨n, busy, a, x⟩ := a
    have port := a.port
    rw [held] at port
    refine (snoop_rings (free := false) y ack ⟨n, busy, ?_, x⟩).arbitrate
    exact a.units ⟨rfl, rfl, rfl, rfl, rfl⟩ rfl ⟨port, a.word, nofun⟩
  · exact a
  · exact a

theorem withhold_rings (y : Addr) (a : RingsSome free p) : RingsSome free (withhold y p) := by
  obtain ⟨n, busy, a, x⟩ := a
  unfold withhold
  split
  · exact ⟨n, busy, violate_rings _ _ _ a, x⟩
  · exact ⟨n, busy, a, x⟩
  · exact ⟨n, busy, a, x⟩
  · exact ⟨n, busy, a, x⟩

theorem answerRead_rings (y : Addr) (low high : Bool) (a : RingsSome free p) : RingsSome free (answerRead y low high p) := by
  have read : ∀ o, RingsSome free (readLive o low high p) := fun o => by
    obtain ⟨n, busy, a, x⟩ := a
    exact ⟨n, busy, a.units ⟨rfl, rfl, rfl, rfl, rfl⟩ rfl ⟨a.port, a.word, a.handed⟩, x⟩
  unfold answerRead
  split
  · exact ite_keeps (read _) a
  · exact a

theorem beginCycle_rings (y : BusCycle) (a : RingsRules p) : RingsRules (beginCycle y p) := by
  have wants : RingsRules (wantPort y p) := by
    refine ite_keeps a ?_
    obtain ⟨n, busy, a, x⟩ := a
    refine RingsSome.arbitrate (free := false) ⟨n, busy, ?_, x⟩
    exact a.units ⟨rfl, rfl, rfl, rfl, rfl⟩ rfl ⟨a.port, a.word, nofun⟩
  unfold beginCycle
  split
  · exact wants
  · exact wants
  · exact withhold_rings _ a
  · exact answerRead_rings _ _ _ a

end

/-! ### Commands and the step -/

theorem ringsRules_posts : PostsKeep RingsRules := ringsSome_posts true

theorem ringsRules_commands : CommandKeeps RingsRules :=
  ringsRules_posts.commands (fun _ ⟨n, busy, a, x⟩ => ⟨n, busy, resetFlags_rings a, x⟩) fun _ _ ⟨n, busy, a, x⟩ => ⟨n, busy, judged_rings a, x⟩

theorem fieldEvent_rings {p : Part} (a : RingsRules p) : RingsRules (fieldEvent p) := by
  have counted : RingsRules { p with
      ref := { p.ref with count := p.ref.count + 1, pattern := (p.ref.pattern + 1) % 3 }
      heads := p.heads.map fun h => { h with cadence := h.cadence.field } } := ringsRules_posts.same p _ ⟨rfl, rfl, rfl, rfl, rfl, rfl⟩ a
  exact pumpLink_posts ringsRules_posts (ringsRules_posts.link _ counted)

theorem ringsRules_runs : RunKeeps RingsRules :=
  { ringsRules_commands with
    time := fun _ p a => ringsRules_posts.same p _ ⟨rfl, rfl, rfl, rfl, rfl, rfl⟩ a
    status := fun _ _ ⟨n, busy, a, x⟩ => ⟨n, busy,
      { a with indices := (indices_same rfl rfl ⟨rfl, rfl⟩ ⟨rfl, rfl⟩).trans a.indices }, x⟩
    field := fun _ a => fieldEvent_rings a
    raise := ringsRules_posts.drive.raise
    clear := ringsRules_posts.drive.clear
    startField := fun i _ _ a => takeStartField_keeps ringsRules_posts.scheduler i a
    commitField := fun i _ _ a => takeCommitField_keeps ringsRules_posts.scheduler i a
    guard := fun i _ _ a => takeGuard_keeps ringsRules_posts.scheduler i a
    deadline := fun i _ a => takeDeadline_keeps ringsRules_posts.scheduler i a
    poll := fun i _ a => takePollExpiry_keeps ringsRules_posts.replies i a
    sent := fun p _ a => ringsRules_posts.same p _ ⟨rfl, rfl, rfl, rfl, rfl, rfl⟩ a
    receive := fun c _ a => receive_keeps ringsRules_posts.replies c a
    timeout := fun _ _ a => takeTimeout_keeps ringsRules_posts.replies a
    gapEnd := fun _ _ a => takeGapEnd_keeps ringsRules_posts.replies a
    begins := fun c _ a => beginCycle_rings c a
    ends := fun ack _ a => endCycle_rings ack a
    withhold := fun x _ a => withhold_rings x a
    answer := fun x l h _ a => answerRead_rings x l h a
    finish := fun d _ _ a => finishWord_rings d a
    fail := fun _ _ a => failWord_rings a
    starve := fun _ _ a => takeStarve_rings a }

theorem ringSize_of_sound {l : List Window} (sound : soundTable l = true) {b : Bus} (table : b.windows = l) {k : WindowKind}
    (one : kindCount k l = 1) : b.ringSize k ∈ k.rings := by
  unfold soundTable at sound
  simp only [Bool.and_eq_true] at sound
  have all := List.all_eq_true.1 sound.1.1.1.1.1
  have some : (l.filter fun w => w.kind = k) ≠ [] := fun e => by rw [kindCount, e] at one; cases one
  obtain ⟨w, m⟩ := List.exists_mem_of_ne_nil _ some
  obtain ⟨member, is⟩ := List.mem_filter.1 m
  obtain ⟨v, found⟩ := Option.isSome_iff_exists.1 (List.find?_isSome (p := fun w : Window => decide (w.kind = k)).2 ⟨w, member, is⟩)
  have kind : v.kind = k := by simpa using List.find?_some found
  have fits := all v (List.mem_of_find?_eq_some found)
  simp only [Window.sound, Bool.and_eq_true, List.contains_iff_mem] at fits
  rw [Bus.ringSize, Bus.window?, table, found, ← kind]
  exact fits.1.1.2

/-- A sound window table gives each ring a size that a word holds (R165). -/
theorem ringSize_sound {l : List Window} (sound : soundTable l = true) (b : Bus) (table : b.windows = l) :
    (0 < b.ringSize .command ∧ b.ringSize .command ≤ 65535) ∧ 0 < b.ringSize .event ∧ b.ringSize .event ≤ 65535 := by
  have counts := sound
  simp only [soundTable, Bool.and_eq_true, decide_eq_true_eq] at counts
  have command := ringSize_of_sound sound table counts.1.1.1.2
  have event := ringSize_of_sound sound table counts.1.1.2
  simp only [WindowKind.rings, List.mem_cons, List.not_mem_nil, or_false] at command event
  omega

/-- The part's rules, as the obligation writes them. -/
theorem ringsRules_iff {p : Part} : RingsRules p ↔ p.ringsSound = true := by
  simp only [Part.ringsSound, Bool.and_eq_true, Bool.or_eq_true, decide_eq_true_eq, Part.portSound]
  constructor
  · rintro ⟨n, busy, a, x⟩
    refine ⟨⟨⟨⟨⟨a.queue, a.indices⟩, ?_⟩, ⟨a.port, a.word⟩, ?_⟩, ?_⟩, ?_⟩
    · have init := a.init
      have early := a.early
      cases n with
      | waiting =>
        obtain ⟨jobs, writing, -⟩ := early nofun
        simp [Part.jobsSound, init, writing, List.map_eq_nil_iff.1 jobs]
      | readCommand =>
        obtain ⟨jobs, writing, -⟩ := early nofun
        simp [Part.jobsSound, init, writing, jobs, Init.kinds]
      | readEvent =>
        obtain ⟨jobs, writing, -⟩ := early nofun
        simp [Part.jobsSound, init, writing, jobs, Init.kinds]
      | writing k e =>
        obtain ⟨jobs, writing, -⟩ := early nofun
        cases e with
        | true => exact absurd rfl (x k)
        | false => cases k <;> simp [Part.jobsSound, init, writing, jobs, Init.kinds]
      | done =>
        simp only [Part.jobsSound, init, Bool.and_eq_true, decide_eq_true_eq]
        exact ⟨⟨a.starts rfl, a.events rfl⟩, by rw [a.fetch]; exact a.commands rfl⟩
    · by_cases free : p.bus.holder = .free
      · obtain ⟨idle, none⟩ := a.handed rfl free
        exact .inr ⟨idle, by rw [none]; rfl⟩
      · exact .inl free
    · exact a.mode.imp id fun e => a.init.trans e
    · by_cases done : n = .done
      · exact .inl (a.init.trans done)
      · have fetch := a.fetch
        rw [(a.early done).2.2] at fetch
        exact .inr (by simpa using fetch)
  · rintro ⟨⟨⟨⟨⟨queue, indices⟩, jobs⟩, ⟨port, word⟩, handed⟩, mode⟩, fetch⟩
    refine ⟨p.init, decide (p.cmd.fetch ≠ .idle), ?_, fun k e => ?_⟩
    · exact
        { port := port, word := word
          handed := fun _ free => by
            obtain held | ⟨idle, none⟩ := handed
            · exact absurd free held
            · exact ⟨idle, Option.isNone_iff_eq_none.1 none⟩
          queue := queue, mode := mode, init := rfl, indices := indices, fetch := rfl
          early := fun early => by
            have idle := fetch.resolve_left early
            refine ⟨?_, ?_, by rw [idle]; rfl⟩
            all_goals
              unfold Part.jobsSound at jobs
              cases init : p.init with
              | done => exact absurd init early
              | waiting => simp_all [Init.kinds]
              | readCommand => simp_all [Init.kinds]
              | readEvent => simp_all [Init.kinds]
              | writing k e => cases k <;> cases e <;> simp_all [Init.kinds]
          starts := fun done => by simp_all [Part.jobsSound]
          events := fun done => by simp_all [Part.jobsSound]
          commands := fun done => by simp_all [Part.jobsSound] }
    · simp [Part.jobsSound, e] at jobs

theorem beginRow_same (r : Fin 8) (t : Nat) (p : Part) : SameRings p (beginRow r t p) := by
  unfold beginRow
  dsimp only
  split
  · split <;> exact ⟨rfl, rfl, rfl, rfl, rfl, rfl⟩
  · exact ⟨rfl, rfl, rfl, rfl, rfl, rfl⟩

theorem readImage_windows {l : List Byte} {m : Image} (read : readImage l = some m) : soundTable m.windows = true := by
  unfold readImage at read
  split at read
  · cases read
  · split at read
    · split at read
      · rename_i sound
        cases read
        exact (Bool.and_eq_true_iff.1 sound).1
      · cases read
    · cases read

theorem endLoad_rings (l : List Byte) {p : Part} (loading : p.mode = .loading) (a : RingsRules p) : RingsRules (endLoad l p) := by
  obtain ⟨n, busy, a, -⟩ := a
  obtain rfl : n = .waiting := a.mode.resolve_left fun e => nomatch loading.symm.trans e
  obtain ⟨jobs, writing, rfl⟩ := a.early nofun
  have none : p.agent.jobs = [] := List.map_eq_nil_iff.1 jobs
  have word := a.word
  rw [none] at word
  have idle : p.agent.word = .idle := by simpa using word.symm
  have port := a.port
  rw [Agent.onPort, idle] at port
  obtain ⟨-, c0, c1, e0, e1⟩ := (indicesSound_iff.1 a.indices).1 a.init
  unfold endLoad
  split
  · rename_i m read
    have sound := readImage_windows read
    let q : Part := { beginRow 0 p.time.now (startBlocks m p) with init := .readCommand }
    obtain ⟨command, event⟩ := ringSize_sound sound q.bus rfl
    have begun : RingsAt .readCommand [] 0 false true q :=
      { port := port, word := rfl, handed := fun _ free => ⟨rfl, (a.handed rfl free).2⟩
        queue := a.queue, mode := .inl rfl, init := rfl
        indices := indicesSound_iff.2 ⟨nofun, fun _ => ⟨command.2, event.2, c0 ▸ command.1, c1 ▸ command.1, e0 ▸ event.1, e1 ▸ event.1⟩⟩
        fetch := a.fetch
        early := fun _ => ⟨rfl, writing, rfl⟩
        starts := nofun, events := nofun, commands := nofun }
    exact (begun.submits (readJob .startupCommand _ 1) (by decide)).started (n := .readCommand) (by simp) (by decide)
  · have still : RingsAt .waiting [] (flag false) false true
        { p with mode := .transparent, alarms := { p.alarms with horn := true }, panel := .reset .feet 31 } :=
      { a with mode := .inr rfl, indices := (indices_same rfl rfl ⟨rfl, rfl⟩ ⟨rfl, rfl⟩).trans a.indices }
    exact ringsRules_posts.same _ _ (beginRow_same 0 p.time.now _) ⟨.waiting, false, still, nofun⟩

/-- Settles O60: each event and command keeps the rules (`ringsRules_runs`), and so does a load; a reset has them. -/
theorem everyStepKeepsTheRings : Obligations.EveryStepKeepsTheRings := by
  intro s t rules e
  have reset : RingsRules .reset := ringsRules_iff.2 (by decide)
  exact ringsRules_iff.1 (step_keeps ringsRules_runs reset (fun l _ loading => endLoad_rings l loading) (ringsRules_iff.2 rules) e)

end Sys2Proof.Machine
end

section
/-! PROOFS. The conditions the scheduler meets by field: the end guard (R105). -/

namespace Sys2Proof.Machine

/-! ### The end guard -/

/-- The alarm of a fall back stands whatever the island was. -/
theorem raiseFallBack_island (i : IslandId) (r : Reason) (p : Part) (j : IslandId) : (raiseFallBack i r p).island j = p.island j :=
  raiseAlarm_island ..

theorem fallBack_island (i : IslandId) (r : Reason) (p : Part) : (fallBack i r p).island i = { p.island i with
    takes := if (p.island i).active.isSome then (p.island i).takes.tail else (p.island i).takes } := by
  unfold fallBack
  cases active : (p.island i).active with
  | none => rfl
  | some t =>
    obtain ⟨front, -⟩ := Island.active_eq_some.1 active
    exact endFront_island (List.cons_head?_tail front).symm .fallback r

/-- Where the island stands once its end guard has been met. -/
theorem takeGuard_island {i : IslandId} {p : Part} {f : Stamp} (ends : (p.island i).fEnd.bind (·.value) = some f) {cut : Stamp}
    (is : cut = if p.ref.count = Stamp.minus f (p.island i).settings.lead then f else p.leadField i) :
    (takeGuard i p).island i = { p.island i with
      mirror := .moving (p.island i).settings.standbyPort
      confirm := some { target := .standby, port := (p.island i).settings.standbyPort, cut := cut
                        deadline := Stamp.plus cut (p.island i).settings.grace, owner := .island }
      takes := if (p.island i).active.isSome then (p.island i).takes.tail else (p.island i).takes } := by
  subst is
  simp only [takeGuard, closeGuard, ends, id]
  rw [raiseFallBack_island, fallBack_island, commit_island]
  rfl

theorem takeGuard_shows {i : IslandId} {p : Part} {f : Stamp} (ends : (p.island i).fEnd.bind (·.value) = some f) :
    (takeGuard i p).alarms.shows (.island i) (if (p.island i).active.any (·.state = .held) then .lateStart else .runout) = true := by
  have kind : (if (p.island i).guardReason = .lateStart then AlarmKind.lateStart else .runout) =
      if (p.island i).active.any (·.state = .held) then .lateStart else .runout := by
    unfold Island.guardReason
    split <;> rfl
  simp only [takeGuard, closeGuard, ends, id, raiseFallBack, kind]
  exact raiseAlarm_alarms ..

theorem takeGuard_holds {i : IslandId} {p : Part} {f : Stamp} {t : Take} (ends : (p.island i).fEnd.bind (·.value) = some f)
    (l : p.listens) (active : (p.island i).active = some t) :
    Holds [⟨.island i, p.ref.count, t.endItem .fallback (p.island i).guardReason⟩] (takeGuard i p) := by
  simp only [takeGuard, closeGuard, ends, id, raiseFallBack]
  suffices ended : Awaits 2 [⟨.island i, p.ref.count, t.endItem .fallback (p.island i).guardReason⟩]
      (fallBack i (p.island i).guardReason (commit i .standby
        (if p.ref.count = Stamp.minus f (p.island i).settings.lead then f else p.leadField i) .island p)) from
    (ended.raise ..).holds
  generalize cut : (if p.ref.count = Stamp.minus f (p.island i).settings.lead then f else p.leadField i) = c
  have active' : ((commit i .standby c .island p).island i).active = some t := by
    rw [commit_island]
    exact active
  have ref : (commit i .standby c .island p).ref = p.ref :=
    (commit_frame i .standby c .island p .ref (by simp [Block.committing, Block.linking, Block.posting])).symm
  rw [fallBack, if_pos (by rw [active']; rfl)]
  exact ref ▸ endFront_awaits (commit_awaits l.awaits i .standby c .island) active' (by decide) .fallback _

/-- A stamp is M fields on when the count is M fields before it. -/
theorem plus_eq_iff (c f : Stamp) (n : Nat) : Stamp.plus c n = f ↔ c = Stamp.minus f n := by
  unfold Stamp.plus Stamp.minus
  exact eq_sub_iff_add_eq.symm

/-- Settles O39: the end guard is a standby commit, the end of the active take and the alarm of its reason. -/
theorem endGuardCommitsStandby : Obligations.EndGuardCommitsStandby := by
  intro s i running free x z count f ends onAir due
  have guard : guardDue i s.part = true := by
    obtain ⟨h, air⟩ := onAir
    have awaits : s.part.awaits i = false := by
      rw [Part.awaits, free]
      rfl
    simp only [guardDue, awaits, show (s.part.island i).onAir = .head h from air,
      show (s.part.island i).fEnd.bind (·.value) = some f from ends, Bool.not_false, Bool.true_and]
    exact decide_eq_true due
  have cut := if_congr (plus_eq_iff count f z.lead) (rfl : f = f) (rfl : s.part.leadField i = s.part.leadField i)
  have island := takeGuard_island ends cut
  have told := fun t l active => takeGuard_holds (t := t) ends l active
  have shows := takeGuard_shows ends
  have frame := takeGuard_frame i s.part
  have ref : (takeGuard i s.part).ref = s.part.ref :=
    (frame .ref (by simp [Block.guarding, Block.committing, Block.linking, Block.posting])).symm
  refine .of_field (due := guardDue i) (f := takeGuard i) rfl running guard ?_
  generalize takeGuard i s.part = q at island told shows frame ref
  refine ⟨island, shows, fun t active l => ?_, frame⟩
  have reason : x.guardReason = if t.state = .held then .lateStart else .runout := by
    simp [Island.guardReason, active]
  exact (told t l active).tells (by rw [ref, reason]; rfl)

end Sys2Proof.Machine
end

section
/-! PROOFS. The active take of an island as each step of its life leaves it (R81 to R83, R97 to R101). -/

namespace Sys2Proof.Machine

/-! ### The active take of an island -/

/-- An island with front take `t`. -/
def Island.led (x : Island) (t : Take) : Island := { x with takes := t :: x.takes.tail }

theorem Island.led_modFront (x : Island) (t : Take) (f : Take → Take) : (x.led t).modFront f = x.led (f t) := rfl

theorem Island.led_active {t : Take} (x : Island) (past : t.state ≠ .queued) : (x.led t).active = some t :=
  if_neg past

theorem Island.led_of_active {x : Island} {t : Take} (active : x.active = some t) : x = x.led t := by
  obtain ⟨front, -⟩ := Island.active_eq_some.1 active
  exact congrArg (fun l => { x with takes := l }) (List.cons_head?_tail front).symm

/-- Island `i` stands as `x` with active take `t`, and the heads and the field count stand as in `v`. -/
structure Leads (i : IslandId) (v : Part) (x : Island) (t : Take) (p : Part) : Prop where
  island : p.island i = x.led t
  past : t.state ≠ .queued
  heads : ∀ h, p.head h = v.head h
  ref : p.ref = v.ref

/-- The start field of an active take as `refreshStart` leaves it (R81). -/
def Take.replanned (v : Part) (t : Take) : Take :=
  match t.planned v, t.fCut with
  | some h, some cut =>
    let short := (t.leader (v.head h)).map (shortLeader (v.head h))
    { t with fStart := some (startField v.ref.standard (v.head h) (t.leader (v.head h)) cut)
             short := if short.isSome then short else t.short }
  | _, _ => if t.state = .armed then { t with fStart := none } else t

/-- An active take with its figures recomputed (R83). -/
def Take.refreshed (v : Part) (lead : Nat) (t : Take) : Take := (t.figures lead).replanned v

theorem Take.replanned_plan {v : Part} {t : Take} {h : HeadId} {cut : Stamp} (plan : t.planned v = some h)
    (is : t.fCut = some cut) : t.replanned v = { t with
      fStart := some (startField v.ref.standard (v.head h) (t.leader (v.head h)) cut)
      short := if ((t.leader (v.head h)).map (shortLeader (v.head h))).isSome
        then (t.leader (v.head h)).map (shortLeader (v.head h)) else t.short } := by
  simp only [Take.replanned, plan, is]

theorem Take.replanned_none {v : Part} {t : Take} (no : t.planned v = none ∨ t.fCut = none) :
    t.replanned v = if t.state = .armed then { t with fStart := none } else t := by
  obtain no | no := no
  · simp only [Take.replanned, no]
  · unfold Take.replanned
    cases t.planned v <;> simp only [no]

theorem Take.figures_state (n : Nat) (t : Take) : (t.figures n).state = t.state := rfl

theorem Take.replanned_state (v : Part) (t : Take) : (t.replanned v).state = t.state := by
  unfold Take.replanned
  split
  · rfl
  · split <;> rfl

theorem Take.refreshed_state (v : Part) (n : Nat) (t : Take) : (t.refreshed v n).state = t.state :=
  Take.replanned_state v _

/-- A take that keeps no start field has its figures recomputed, and nothing else. -/
theorem Take.refreshed_of_state {v : Part} {n : Nat} {t : Take} (past : t.state ≠ .armed) : t.refreshed v n = t.figures n := by
  have none : (t.figures n).planned v = none := by
    unfold Take.planned
    split
    · exact if_neg fun plan => past plan.1
    · rfl
  unfold Take.refreshed Take.replanned
  rw [none]
  exact if_neg past

section
variable {i : IslandId} {v : Part} {x : Island} {t : Take} {p : Part} (a : Leads i v x t p)
include a

theorem Leads.active : (p.island i).active = some t := by
  rw [a.island]
  exact Island.led_active x a.past

theorem Leads.settings : (p.island i).settings = x.settings := by
  rw [a.island]
  rfl

theorem Leads.front : Leads i v (p.island i) t p := ⟨Island.led_of_active a.active, a.past, a.heads, a.ref⟩

theorem Leads.lead : p.leadField i = Stamp.plus v.ref.count x.settings.lead := by
  rw [Part.leadField, a.settings, a.ref]

theorem Leads.frame {q : Part} {bs : List Block} (same : ChangesOnly bs p q) (island : .island i ∉ bs) (heads : ∀ h, .head h ∉ bs)
    (ref : Block.ref ∉ bs) : Leads i v x t q :=
  ⟨(same (.island i) island).symm.trans a.island, a.past, fun h => (same (.head h) (heads h)).symm.trans (a.heads h),
    (same .ref ref).symm.trans a.ref⟩

theorem Leads.modFront {f : Take → Take} (past : (f t).state ≠ .queued) : Leads i v x (f t) (p.modFront i f) where
  island := by rw [modFront_island, a.island, Island.led_modFront]
  past := past
  heads h := (modFront_head i f p h).trans (a.heads h)
  ref := ((modFront_frame i f p) .ref (by simp)).symm.trans a.ref

theorem Leads.modFront_other {j : IslandId} (n : i ≠ j) (f : Take → Take) : Leads i v x t (p.modFront j f) where
  island := (modFront_island_ne n f p).trans a.island
  past := a.past
  heads h := (modFront_head j f p h).trans (a.heads h)
  ref := ((modFront_frame j f p) .ref (by simp)).symm.trans a.ref

theorem Leads.post (s : AlarmSource) (e : EventItem) : Leads i v x t (post s e p) :=
  a.frame (post_frame s e p) (by simp [Block.posting]) (by simp [Block.posting]) (by simp [Block.posting])

theorem Leads.planned : t.planned p = t.planned v := by
  unfold Take.planned
  split
  · rw [a.heads]
  · rfl

theorem Leads.refreshStart_plan {h : HeadId} {cut : Stamp} (plan : t.planned v = some h) (is : t.fCut = some cut) :
    refreshStart i p =
      let q := p.modFront i fun u => { u with
        fStart := some (startField v.ref.standard (v.head h) (t.leader (v.head h)) cut)
        short := if ((t.leader (v.head h)).map (shortLeader (v.head h))).isSome
          then (t.leader (v.head h)).map (shortLeader (v.head h)) else u.short }
      if (t.leader (v.head h)).map (shortLeader (v.head h)) = some true ∧ t.short ≠ some true then
        Machine.post (.island i) (.shortLeader t.tag h (v.head h).settings.runupDistance ((t.leader (v.head h)).getD 0)) q
      else q := by
  have planned := a.planned.trans plan
  simp only [Machine.refreshStart, a.active, planned, is, a.heads, a.ref]

theorem Leads.refreshStart_none (no : t.planned v = none ∨ t.fCut = none) :
    refreshStart i p = if t.state = .armed then p.modFront i fun u => { u with fStart := none } else p := by
  rw [← a.planned] at no
  unfold Machine.refreshStart
  rw [a.active]
  obtain no | no := no
  · simp only [no]
  · simp only [no]
    cases t.planned p <;> rfl

theorem Leads.refreshStart : Leads i v x (t.replanned v) (refreshStart i p) := by
  by_cases no : t.planned v = none ∨ t.fCut = none
  · rw [a.refreshStart_none no, Take.replanned_none no]
    split
    · exact a.modFront (f := fun u => { u with fStart := none }) a.past
    · exact a
  · obtain ⟨⟨h, plan⟩, cut, is⟩ := (not_or.1 no).imp Option.ne_none_iff_exists'.1 Option.ne_none_iff_exists'.1
    rw [a.refreshStart_plan plan is, Take.replanned_plan plan is]
    have kept := a.modFront (f := fun u => { u with
      fStart := some (startField v.ref.standard (v.head h) (t.leader (v.head h)) cut)
      short := if ((t.leader (v.head h)).map (shortLeader (v.head h))).isSome
        then (t.leader (v.head h)).map (shortLeader (v.head h)) else u.short }) a.past
    exact ite_keeps (kept.post _ _) kept

theorem Leads.refresh : Leads i v x (t.refreshed v x.settings.lead) (refreshTake i p) := by
  unfold refreshTake
  rw [a.active, a.settings]
  exact Leads.refreshStart (a.modFront (f := Take.figures x.settings.lead) a.past)

theorem Leads.refresh_other {j : IslandId} (n : i ≠ j) : Leads i v x t (refreshTake j p) :=
  a.frame (refreshTake_frame j p) (by simp [Block.taking, Block.posting, n]) (by simp [Block.taking, Block.posting])
    (by simp [Block.taking, Block.posting])

theorem Leads.refreshBoth : Leads i v x (t.refreshed v x.settings.lead) (refreshTake .i2 (refreshTake .i1 p)) := by
  cases i
  · exact a.refresh.refresh_other (by decide)
  · exact (a.refresh_other (by decide)).refresh

/-- The cut M fields on (R98, R99, R107). -/
theorem Leads.cutSoon : Leads i v x
    ({ t with cut := none, fCut := some (Stamp.plus v.ref.count x.settings.lead) }.refreshed v x.settings.lead) (cutSoon i p) := by
  unfold Machine.cutSoon
  rw [a.lead]
  exact Leads.refresh (a.modFront (f := fun u =>
    { u with cut := none, fCut := some (Stamp.plus v.ref.count x.settings.lead) }) a.past)

theorem Leads.commit (s : Source) (c : Stamp) (o : Owner) : Leads i v
    { x with mirror := .moving (p.portOf i s)
             confirm := some { target := s, port := p.portOf i s, cut := c, deadline := Stamp.plus c x.settings.grace, owner := o } }
    t (commit i s c o p) where
  island := by
    rw [commit_island, a.island]
    rfl
  past := a.past
  heads h := (commit_frame i s c o p (.head h) (by simp [Block.committing, Block.linking, Block.posting])).symm.trans (a.heads h)
  ref := (commit_frame i s c o p .ref (by simp [Block.committing, Block.linking, Block.posting])).symm.trans a.ref

/-- The take commits (R101). -/
theorem Leads.commitTake {cut : Stamp} (o : TakeOutcome) (l : Option Int)
    (is : t.fCut.getD (Stamp.plus v.ref.count x.settings.lead) = cut) : Leads i v
    { x with mirror := .moving (p.portOf i t.incoming)
             confirm := some { target := t.incoming, port := p.portOf i t.incoming, cut := cut
                               deadline := Stamp.plus cut x.settings.grace, owner := .take } }
    { t with state := .committed, cut := none, commitAt := none, outcome := o, lost := l } (commitTake i o l p) := by
  subst is
  unfold Machine.commitTake
  rw [a.active, ← a.lead]
  exact ((a.commit t.incoming _ .take).modFront (f := fun u =>
    { u with state := .committed, cut := none, commitAt := none, outcome := o, lost := l }) nofun).post _ _

theorem Leads.commitTake_awaits {k : Nat} {es : List Event} (w : Awaits k es p) (free : k + 1 < Config.maxEvents) (o : TakeOutcome)
    (l : Option Int) {cut : Stamp} (is : t.fCut.getD (Stamp.plus v.ref.count x.settings.lead) = cut) :
    Awaits (k + 2) (es ++ [⟨.island i, p.ref.count, .takeCommit t.tag (p.portOf i t.incoming) (some cut) t.error o t.slip⟩])
      (Machine.commitTake i o l p) := by
  subst is
  unfold Machine.commitTake
  rw [a.active, ← a.lead]
  have ref : ∀ c, (Machine.commit i t.incoming c .take p).ref = p.ref := fun c =>
    (commit_frame i t.incoming c .take p .ref (by simp [Block.committing, Block.linking, Block.posting])).symm
  have posted := ((Machine.commit_awaits w i t.incoming (t.fCut.getD (p.leadField i)) .take).of_evt
    (q := (Machine.commit i t.incoming (t.fCut.getD (p.leadField i)) .take p).modFront i fun u =>
      { u with state := .committed, cut := none, commitAt := none, outcome := o, lost := l }) rfl).post (.island i)
    (.takeCommit t.tag (p.portOf i t.incoming) (some (t.fCut.getD (p.leadField i))) t.error o t.slip) free
  rw [show (Part.modFront i _ (Machine.commit i t.incoming (t.fCut.getD (p.leadField i)) .take p)).ref = p.ref from ref _] at posted
  exact posted

/-! ### The steps of an evaluation -/

/-- A cut record that still has its value, or a state past the plan, leaves the mode. -/
theorem Leads.convertNow_stays (holds : t.state.pending = true → ∀ r, t.cut = some r → r.basis = .reached → r.value ≠ none) :
    convertNow i p = p := by
  unfold convertNow
  rw [a.active]
  cases cut : t.cut with
  | none => simp only [cut]
  | some r =>
    simp only [cut]
    exact if_neg fun lost => holds lost.1 r cut lost.2.1 lost.2.2

theorem Leads.sendStart_stays (no : ∀ h, t.head? = some h → ¬ (t.state = .armed ∧ t.preroll = .auto ∧ t.effective = .now ∧
    (v.head h).drive.atRest = true)) : sendStart i p = p := by
  unfold sendStart
  rw [a.active]
  dsimp only
  split
  · rename_i h is
    rw [a.heads]
    exact if_neg (no h is)
  · rfl

theorem Leads.followRunning_stays (no : ∀ h, t.head? = some h → ¬ (t.state = .armed ∧ (v.head h).drive.running = true)) :
    followRunning i p = p := by
  unfold followRunning
  rw [a.active]
  dsimp only
  split
  · rename_i h is
    rw [a.heads]
    exact if_neg (no h is)
  · rfl

end

theorem Take.mayReady_of_heads {p q : Part} (same : ∀ h, p.head h = q.head h) (x : Island) (t : Take) :
    t.mayReady p x = t.mayReady q x := by
  unfold Take.mayReady
  split <;> simp only [same]

theorem Take.staysReady_of_heads {p q : Part} (same : ∀ h, p.head h = q.head h) (x : Island) (t : Take) :
    t.staysReady p x = t.staysReady q x := by
  unfold Take.staysReady
  split <;> simp only [same]

/-! ### A start request -/

/-- A take whose records follow a change of head `h`. -/
def Take.mapPreds (h : HeadId) (f : PredKind → Pred → Pred) (t : Take) : Take :=
  { t with cut := t.cut.map (followedBy h f .cutOrEnd), sop := t.sop.map (followedBy h f .sop) }

theorem refreshTake_awaits {k : Nat} {es : List Event} {p : Part} (a : Awaits k es p) (i : IslandId) :
    Awaits (k + 1) es (refreshTake i p) := by
  unfold refreshTake
  split
  · exact a.mono (Nat.le_succ k)
  · have figured : Awaits k es (p.modFront i (Take.figures (p.island i).settings.lead)) := a.of_evt rfl
    unfold refreshStart
    split
    · exact figured.mono (Nat.le_succ k)
    · split
      · exact ite_keeps ((figured.of_evt (by exact rfl)).other _ _) ((figured.of_evt (by exact rfl)).mono (Nat.le_succ k))
      · exact ite_keeps ((figured.of_evt (by exact rfl)).mono (Nat.le_succ k)) (figured.mono (Nat.le_succ k))

theorem startRequest_rest {h : HeadId} {p : Part} (rest : (p.head h).drive.atRest = true) : startRequest h p =
    refreshTake .i2 (refreshTake .i1 (mapPreds h (Pred.atStart (startDrive h .scheduler p)) (startDrive h .scheduler p))) :=
  if_pos rest

theorem startRequest_awaits {k : Nat} {es : List Event} {p : Part} (a : Awaits k es p) (free : k < Config.maxEvents) {h : HeadId}
    (rest : (p.head h).drive.atRest = true) :
    Awaits (k + 8) (es ++ [headStateEvent h p.ref.count (p.head h) .runup .scheduler]) (startRequest h p) := by
  have noted : Awaits k es (p.modCadence h fun c => c.started p.ref.count (p.head h).pos.frame) := a.of_evt rfl
  have entered := enterDrive_awaits noted free h .runup .scheduler none
  rw [startRequest_rest rest]
  refine refreshTake_awaits (refreshTake_awaits ?_ .i1) .i2
  rw [show headStateEvent h p.ref.count (p.head h) .runup .scheduler = headStateEvent h p.ref.count
    ((p.modCadence h fun c => c.started p.ref.count (p.head h).pos.frame).head h) .runup .scheduler by
      rw [modCadence_head]; rfl]
  exact Awaits.of_evt (p := startDrive h .scheduler p) entered rfl

theorem mapPreds_island (h : HeadId) (f : PredKind → Pred → Pred) (p : Part) (i : IslandId) :
    (mapPreds h f p).island i = Island.mapPreds h f (p.island i) := by
  simp [mapPreds]

/-- An island whose F_end record follows a change of head `h`. -/
def Island.mapEnd (h : HeadId) (f : PredKind → Pred → Pred) (x : Island) : Island :=
  { x with fEnd := x.fEnd.map (followedBy h f .cutOrEnd) }

section
variable {i : IslandId} {v : Part} {x : Island} {t : Take} {p : Part} (a : Leads i v x t p)
include a

/-- The heads and the field count looked at from another moment. -/
theorem Leads.seen {w : Part} (heads : ∀ h, p.head h = w.head h) (ref : p.ref = w.ref) : Leads i w x t p :=
  ⟨a.island, a.past, heads, ref⟩

theorem Leads.mapPreds (h : HeadId) (f : PredKind → Pred → Pred) :
    Leads i v (x.mapEnd h f) (t.mapPreds h f) (Machine.mapPreds h f p) where
  island := by
    rw [mapPreds_island, a.island]
    rfl
  past := a.past
  heads := a.heads
  ref := a.ref

/-- What a start of the incoming head leaves of the take and of the head (R24, R84, R97). -/
theorem Leads.startRequest {h : HeadId} (rest : (v.head h).drive.atRest = true) :
    let w := startDrive h .scheduler p
    w.head h = (v.head h).started p.time.now v.ref.count ∧ (∀ k, k ≠ h → w.head k = v.head k) ∧ w.ref = v.ref ∧
    Leads i w (x.mapEnd h (Pred.atStart w)) ((t.mapPreds h (Pred.atStart w)).refreshed w x.settings.lead)
      (Machine.startRequest h p) := by
  have still : (p.head h).drive.atRest = true := a.heads h ▸ rest
  intro w
  refine ⟨?_, fun k n => (startDrive_head_ne n .scheduler p).trans (a.heads k), ?_, ?_⟩
  · rw [startDrive_started .scheduler still, a.heads, a.ref]
  · exact (startDrive_frame h .scheduler p .ref (by simp [Block.driving, Block.alarming, Block.posting])).symm.trans a.ref
  · rw [startRequest_rest still]
    have driven : Leads i w x t w := ⟨(startDrive_island h .scheduler p i).trans a.island, a.past, fun _ => rfl, rfl⟩
    exact (driven.mapPreds h (Pred.atStart w)).refreshBoth

end

/-! ### The conditions of a take -/

/-- A take turned NOW (R99). -/
def Take.turned (t : Take) : Take := { t with effective := .now, cut := none, fCut := none, fStart := none }

/-- A take with its F_cut M fields on (R98). -/
def Take.soon (v : Part) (lead : Nat) (t : Take) : Take :=
  { t with cut := none, fCut := some (Stamp.plus v.ref.count lead) }.refreshed v lead

/-- What `convertNow` leaves of a take (R97, R99). -/
def Take.converted (v : Part) (lead : Nat) (t : Take) : Take :=
  if t.loses then if t.state = .ready then t.turned.soon v lead else t.turned.refreshed v lead else t

theorem Take.converted_state (v : Part) (n : Nat) (t : Take) : (t.converted v n).state = t.state := by
  unfold Take.converted
  split
  · split <;> exact Take.refreshed_state ..
  · rfl

theorem Take.replanned_keeps (v : Part) (t : Take) : t.replanned v =
    { t with fStart := (t.replanned v).fStart, short := (t.replanned v).short } := by
  unfold Take.replanned
  split
  · rfl
  · split <;> rfl

theorem Take.refreshed_tag (v : Part) (n : Nat) (t : Take) : (t.refreshed v n).tag = t.tag := by
  rw [Take.refreshed, Take.replanned_keeps]
  rfl

theorem Take.refreshed_incoming (v : Part) (n : Nat) (t : Take) : (t.refreshed v n).incoming = t.incoming := by
  rw [Take.refreshed, Take.replanned_keeps]
  rfl

theorem Take.converted_tag (v : Part) (n : Nat) (t : Take) : (t.converted v n).tag = t.tag := by
  unfold Take.converted
  split
  · split <;> exact Take.refreshed_tag ..
  · rfl

theorem Take.converted_incoming (v : Part) (n : Nat) (t : Take) : (t.converted v n).incoming = t.incoming := by
  unfold Take.converted
  split
  · split <;> exact Take.refreshed_incoming ..
  · rfl

section
variable {i : IslandId} {v : Part} {x : Island} {t : Take} {p : Part} (a : Leads i v x t p)
include a

omit a in
theorem Take.loses_iff {r : Pred} (cut : t.cut = some r) :
    t.loses = true ↔ t.state.pending = true ∧ r.basis = .reached ∧ r.value = none := by
  simp [Take.loses, cut]

theorem Leads.convertNow_loses (lost : t.loses = true) : convertNow i p =
    if t.state = .ready then Machine.cutSoon i (p.modFront i Take.turned) else refreshTake i (p.modFront i Take.turned) := by
  cases cut : t.cut with
  | none => simp [Take.loses, cut] at lost
  | some r =>
    simp only [Machine.convertNow, a.active, cut]
    exact if_pos ((Take.loses_iff cut).1 lost)

theorem Leads.convertNow_keeps (kept : t.loses = false) : convertNow i p = p := by
  refine a.convertNow_stays fun pending r cut basis none => ?_
  rw [(Take.loses_iff cut).2 ⟨pending, basis, none⟩] at kept
  cases kept

theorem Leads.convertNow : Leads i v x (t.converted v x.settings.lead) (convertNow i p) := by
  unfold Take.converted
  cases lost : t.loses with
  | false =>
    rw [a.convertNow_keeps lost]
    exact a
  | true =>
    have turned := a.modFront (f := Take.turned) a.past
    rw [a.convertNow_loses lost, if_pos rfl]
    by_cases ready : t.state = .ready
    · rw [if_pos ready, if_pos ready]
      exact turned.cutSoon
    · rw [if_neg ready, if_neg ready]
      exact turned.refresh

/-- A take in STARTING whose head is not LOCKED may lose its cut by the evaluation of its conditions, and nothing else. -/
theorem Leads.evalTake_converts {h : HeadId} (state : t.state = .starting) (is : t.head? = some h)
    (unlocked : (v.head h).drive ≠ .locked) : evalTake i p = Machine.convertNow i p := by
  have b := a.convertNow
  have same : (t.converted v x.settings.lead).state = .starting := (Take.converted_state ..).trans state
  have incoming : (t.converted v x.settings.lead).incoming = .head h :=
    (Take.converted_incoming ..).trans (Take.incoming_of_head? is)
  have may : (t.converted v x.settings.lead).mayReady (Machine.convertNow i p) ((Machine.convertNow i p).island i) = false := by
    simp only [Take.mayReady, incoming, b.heads, unlocked, decide_false, Bool.false_and]
  unfold evalTake
  rw [b.sendStart_stays (fun _ _ armed => nomatch same.symm.trans armed.1),
    b.followRunning_stays (fun _ _ armed => nomatch same.symm.trans armed.1)]
  have judged : judgeReady i (Machine.convertNow i p) = Machine.convertNow i p := by
    simp only [judgeReady, b.active, may, same, Bool.false_eq_true, and_false, if_false, reduceCtorEq, false_and]
  rw [judged, retarget, b.active]
  exact if_pos (same.symm ▸ nofun)

/-- A take in STARTING whose head is not LOCKED waits on. -/
theorem Leads.evalTake_starting {h : HeadId} (state : t.state = .starting) (is : t.head? = some h)
    (unlocked : (v.head h).drive ≠ .locked) : Leads i v x (t.converted v x.settings.lead) (evalTake i p) := by
  rw [a.evalTake_converts state is unlocked]
  exact a.convertNow

end

/-! ### The start field -/

theorem startDue_planned {i : IslandId} {p : Part} {t : Take} {h : HeadId} {f : Stamp} (active : (p.island i).active = some t)
    (start : t.fStart = some f) (is : t.head? = some h) (state : t.state = .armed) (auto : t.preroll = .auto)
    (plans : t.effective ≠ .now) (rest : (p.head h).drive.atRest = true) (due : reached p.ref.count f = true) :
    startDue i p = true := by
  have planned : t.planned p = some h := by
    simp only [Take.planned, is]
    exact if_pos ⟨state, auto, plans, rest⟩
  simp only [startDue, active, planned, start, Option.isSome_some, Option.any_some, due, Bool.and_self]

/-- Settles O37: the start request of the armed take, evaluated as one in STARTING whose head has not locked. -/
theorem startFieldStartsTheHead : Obligations.StartFieldStartsTheHead := by
  intro s i running x t active f start h is armed auto plans rest due
  have reached : reached s.part.ref.count f = true := decide_eq_true due
  refine .of_field (due := startDue i) (f := takeStartField i) rfl running
    (startDue_planned active start is armed auto plans rest reached) ?_
  have sched := takeStartField_sched i s.part
  have first : Leads i s.part x t s.part := ⟨Island.led_of_active active, (Island.active_eq_some.1 active).2, fun _ => rfl, rfl⟩
  have starting := first.modFront (f := fun u => { u with state := .starting }) nofun
  obtain ⟨head, -, ref, requested⟩ := starting.startRequest rest
  have takes : takeStartField i s.part = evalTake i (startRequest h (s.part.modFront i fun u => { u with state := .starting })) := by
    rw [takeStartField, show (s.part.island i).active = some t from active]
    simp only [Option.bind_some, is]
  have told : s.part.listens → Holds [headStateEvent h s.part.ref.count (s.part.head h) .runup .scheduler]
      (takeStartField i s.part) := fun l => by
    rw [takes]
    refine evalTake_keeps (holds_scheduler _) i (Awaits.holds (k := 8) ?_)
    have asked := startRequest_awaits (h := h) ((l.awaits).of_evt (q := s.part.modFront i fun u => { u with state := .starting }) rfl)
      (by decide) (by rw [modFront_head]; exact rest)
    rwa [modFront_head, starting.ref] at asked
  generalize startDrive h .scheduler (s.part.modFront i fun u => { u with state := .starting }) = w at head ref requested
  have state : ((Take.mapPreds h (Pred.atStart w) { t with state := .starting }).refreshed w x.settings.lead).state = .starting :=
    Take.refreshed_state ..
  rw [Take.refreshed_of_state (by exact nofun)] at requested
  have ends := requested.evalTake_starting (h := h) rfl is (by rw [head]; exact nofun)
  rw [← takes] at ends
  generalize takeStartField i s.part = q at ends told sched
  have drive : (q.head h).drive = .runup ∧ (q.head h).outputs.fwd = true ∧ (q.head h).outputs.sync = true ∧
      (q.head h).cadence.measuring = true ∧ (q.head h).cadence.startStamp = some s.part.ref.count := by
    rw [ends.heads, head]
    exact ⟨rfl, rfl, rfl, rfl, rfl⟩
  obtain ⟨runup, fwd, sync, measuring, stamp⟩ := drive
  refine ⟨runup, fwd, sync, measuring, stamp, fun l => ?_, ?_, ?_, fun holds => ?_, ?_, ?_, ?_, sched.heads, sched.frame⟩
  · exact (told l).tells (by rw [ends.ref, ref]; rfl)
  · rw [ends.active, Option.map_some, Take.converted_state]
    rfl
  · rw [ends.active, Option.map_some, Take.converted_tag]
    rfl
  · have kept : (Take.mapPreds h (Pred.atStart w) { t with state := .starting }).cut = t.cut := by
      cases cut : t.cut with
      | none => simp only [Take.mapPreds, Option.map_none]
      | some r => simp only [Take.mapPreds, Option.map_some, followedBy, (holds r cut).1, if_false]
    have stays : ((Take.mapPreds h (Pred.atStart w) { t with state := .starting }).figures x.settings.lead).loses = false := by
      show (_ && (Take.mapPreds h (Pred.atStart w) { t with state := .starting }).cut.any _) = false
      rw [kept]
      cases cut : t.cut with
      | none => simp
      | some r => simp [(holds r cut).2]
    rw [ends.active, Option.bind_some, Take.converted, stays]
    exact start
  · rw [ends.island]
    rfl
  · rw [ends.island]
    rfl
  · rw [ends.island]
    rfl

end Sys2Proof.Machine
end

section
/-! PROOFS. The decision at a take's commit field (R98 to R101). -/

namespace Sys2Proof.Machine

/-! ### What recomputed figures leave -/

theorem Take.refreshed_eq (v : Part) (n : Nat) (t : Take) : t.refreshed v n =
    { t.figures n with fStart := (t.refreshed v n).fStart, short := (t.refreshed v n).short } := Take.replanned_keeps v _

section
variable (v : Part) (n : Nat) (t : Take)

theorem Take.refreshed_effective : (t.refreshed v n).effective = t.effective := by rw [Take.refreshed_eq]; rfl
theorem Take.refreshed_preroll : (t.refreshed v n).preroll = t.preroll := by rw [Take.refreshed_eq]; rfl
theorem Take.refreshed_tolerance : (t.refreshed v n).tolerance = t.tolerance := by rw [Take.refreshed_eq]; rfl
theorem Take.refreshed_sopCue : (t.refreshed v n).sopCue = t.sopCue := by rw [Take.refreshed_eq]; rfl
theorem Take.refreshed_sop : (t.refreshed v n).sop = t.sop := by rw [Take.refreshed_eq]; rfl
theorem Take.refreshed_cut : (t.refreshed v n).cut = t.cut := by rw [Take.refreshed_eq]; rfl
theorem Take.refreshed_heldCut : (t.refreshed v n).heldCut = t.heldCut := by rw [Take.refreshed_eq]; rfl
theorem Take.refreshed_slip : (t.refreshed v n).slip = t.slip := by rw [Take.refreshed_eq]; rfl
theorem Take.refreshed_fCut : (t.refreshed v n).fCut = (t.figures n).fCut := by rw [Take.refreshed_eq]
theorem Take.refreshed_error : (t.refreshed v n).error = (t.figures n).error := by rw [Take.refreshed_eq]
theorem Take.refreshed_commitAt : (t.refreshed v n).commitAt = (t.figures n).commitAt := by rw [Take.refreshed_eq]

theorem Take.figures_fCut (free : t.cut = none) : (t.figures n).fCut = t.fCut := by simp only [Take.figures, free]

theorem Take.figures_error (free : t.cut = none) : (t.figures n).error = t.errorOf := by
  simp only [Take.figures, free, Take.errorOf]

theorem Take.refreshed_head? : (t.refreshed v n).head? = t.head? := by
  rw [Take.head?, Take.head?, Take.refreshed_incoming]

end

/-! ### The judgement of READY -/

/-- A take in STARTING or READY as R98 judges it. -/
def Take.judged (v : Part) (x : Island) (t : Take) : Take :=
  if t.state = .starting ∧ t.mayReady v x then
    if t.effective = .now then { t with state := .ready }.soon v x.settings.lead
    else { t with state := .ready }.refreshed v x.settings.lead
  else if t.state = .ready ∧ ¬ t.staysReady v x then { t with state := .starting }
  else t

theorem cutSoon_awaits {k : Nat} {es : List Event} {p : Part} (a : Awaits k es p) (i : IslandId) :
    Awaits (k + 1) es (cutSoon i p) :=
  refreshTake_awaits (Awaits.of_evt (q := p.modFront i fun t => { t with cut := none, fCut := some (p.leadField i) }) a rfl) i

theorem judgeReady_awaits {k : Nat} {es : List Event} {p : Part} (a : Awaits k es p) (i : IslandId) :
    Awaits (k + 2) es (judgeReady i p) := by
  have ready : Awaits (k + 2) es (becomeReady i p) := by
    have entered : Awaits k es (p.modFront i fun t => { t with state := .ready }) := a.of_evt rfl
    unfold becomeReady
    dsimp only
    split
    · exact entered.mono (by omega)
    · rename_i t _
      have formed := ite_keeps (c := t.effective = .now) (cutSoon_awaits entered i) (refreshTake_awaits entered i)
      split
      · exact formed.mono (by omega)
      · exact formed.other _ _
  unfold judgeReady
  split
  · exact a.mono (by omega)
  · exact ite_keeps ready (ite_keeps ((a.of_evt (by exact rfl)).mono (by omega)) (a.mono (by omega)))

section
variable {i : IslandId} {v : Part} {x : Island} {t : Take} {p : Part} (a : Leads i v x t p)
include a

theorem Leads.allowed (u : Take) : u.allowed (p.island i) = u.allowed x := by
  rw [Take.allowed, Take.allowed, a.settings]

theorem Leads.mayReady : t.mayReady p (p.island i) = t.mayReady v x := by
  unfold Take.mayReady
  rw [a.allowed]
  split <;> simp only [a.heads]

theorem Leads.staysReady : t.staysReady p (p.island i) = t.staysReady v x := by
  unfold Take.staysReady
  rw [a.allowed]
  split <;> simp only [a.heads]

theorem Leads.becomeReady : Leads i v x (if t.effective = .now then { t with state := .ready }.soon v x.settings.lead
    else { t with state := .ready }.refreshed v x.settings.lead) (becomeReady i p) := by
  have entered := a.modFront (f := fun u => { u with state := .ready }) nofun
  unfold Machine.becomeReady
  dsimp only
  rw [entered.active]
  have formed : Leads i v x (if t.effective = .now then { t with state := .ready }.soon v x.settings.lead
      else { t with state := .ready }.refreshed v x.settings.lead)
      (if t.effective = .now then Machine.cutSoon i (p.modFront i fun u => { u with state := .ready })
        else refreshTake i (p.modFront i fun u => { u with state := .ready })) := by
    split
    · exact entered.cutSoon
    · exact entered.refresh
  dsimp only
  rw [formed.active]
  exact formed.post _ _

theorem Leads.judgeReady : Leads i v x (t.judged v x) (judgeReady i p) := by
  unfold Machine.judgeReady Take.judged
  rw [a.active]
  dsimp only
  rw [a.mayReady, a.staysReady]
  split
  · exact a.becomeReady
  · split
    · exact a.modFront (f := fun u => { u with state := .starting }) nofun
    · exact a

end

/-! ### A HELD take -/

/-- A take as it becomes HELD (R100). -/
def Take.hold (t : Take) : Take := { t with state := .held, heldCut := t.fCut, cut := none, commitAt := none }

/-- A HELD take with no field to commit at (R100). -/
def Take.unaimed (t : Take) : Take := { t with commitAt := none }

/-- A HELD take re-targeted to a cut, with the commit field given (R100). -/
def Take.aimed (cut commit : Stamp) (t : Take) : Take :=
  { t with fCut := some cut, commitAt := some commit, slip := t.slipTo cut }

section
variable {i : IslandId} {v : Part} {x : Island} {t : Take} {p : Part} (a : Leads i v x t p)
include a

theorem Leads.heldSop : t.heldSop p = t.heldSop v := by
  unfold Take.heldSop
  split
  · rw [a.heads]
  · rfl

/-- A HELD take is evaluated by re-targeting it alone (R97, R98, R100). -/
theorem Leads.evalTake_held (held : t.state = .held) : evalTake i p = retarget i p := by
  unfold evalTake
  rw [a.convertNow_stays (fun pending => by rw [held] at pending; cases pending),
    a.sendStart_stays (fun _ _ armed => nomatch held.symm.trans armed.1),
    a.followRunning_stays (fun _ _ armed => nomatch held.symm.trans armed.1)]
  have judged : Machine.judgeReady i p = p := by
    simp only [Machine.judgeReady, a.active, held, reduceCtorEq, false_and, if_false]
  rw [judged]

theorem Leads.retarget_waits (held : t.state = .held) (lost : t.heldSop v = none) :
    Leads i v x t.unaimed (retarget i p) := by
  simp only [retarget, a.active, held, ne_eq, not_true_eq_false, if_false, a.heldSop, lost]
  exact a.modFront (f := Take.unaimed) (by exact a.past)

/-- The field M before F_sop lies ahead: the take follows F_sop. -/
theorem Leads.retarget_follows {sop : Stamp} (held : t.state = .held) (is : t.heldSop v = some sop)
    (ahead : reached v.ref.count (Stamp.minus sop x.settings.lead) = false) :
    Leads i v x ((t.aimed sop (Stamp.minus sop x.settings.lead)).refreshed v x.settings.lead) (retarget i p) := by
  simp only [retarget, a.active, held, ne_eq, not_true_eq_false, if_false, a.heldSop, is, a.settings, a.ref, ahead, Bool.false_eq_true]
  exact (a.modFront (f := Take.aimed sop (Stamp.minus sop x.settings.lead)) (by exact a.past)).refresh

/-- The field M before F_sop is reached with no move awaiting: the take commits SLIPPED, M fields on. -/
theorem Leads.retarget_commits {sop : Stamp} (held : t.state = .held) (is : t.heldSop v = some sop)
    (due : reached v.ref.count (Stamp.minus sop x.settings.lead) = true) (free : x.confirm = none) :
    ∃ q, Leads i v x ((t.aimed (Stamp.plus v.ref.count x.settings.lead) v.ref.count).refreshed v x.settings.lead) q ∧
      retarget i p = Machine.commitTake i .slipped none q := by
  have unawaited : p.awaits i = false := by
    rw [Part.awaits, a.island]
    simp [Island.led, free]
  refine ⟨_, (a.modFront (f := Take.aimed (Stamp.plus v.ref.count x.settings.lead) v.ref.count) (by exact a.past)).refresh, ?_⟩
  simp only [retarget, a.active, held, ne_eq, not_true_eq_false, if_false, a.heldSop, is, a.settings, a.ref, due, if_true, a.lead,
    unawaited, Bool.false_eq_true]
  rfl

/-- A take that is not committed becomes HELD, with nothing to start. -/
theorem Leads.enterHeld_unstarted (moving : ∀ h, t.head? = some h → t.preroll = .auto → (v.head h).drive.atRest = false) :
    ∃ q, Leads i v x t.hold q ∧ enterHeld i p = retarget i q := by
  have held := a.modFront (f := Take.hold) nofun
  refine ⟨_, held, ?_⟩
  rw [← held.evalTake_held rfl]
  simp only [enterHeld, a.active]
  cases is : t.head? with
  | none => rfl
  | some h =>
    by_cases auto : t.preroll = .auto
    · have unstarted : Machine.startRequest h (p.modFront i Take.hold) = p.modFront i Take.hold := by
        rw [Machine.startRequest, held.heads, moving h is auto]
        exact if_neg nofun
      simp only [show (p.modFront i fun t => { t with state := .held, heldCut := t.fCut, cut := none, commitAt := none }) =
        p.modFront i Take.hold from rfl, unstarted, ite_self]
    · simp only [auto, if_false]
      rfl

/-- A take whose head stands becomes HELD, and under AUTO the head is started (R100). -/
theorem Leads.enterHeld_auto {h : HeadId} (is : t.head? = some h) (auto : t.preroll = .auto) :
    enterHeld i p = evalTake i (Machine.startRequest h (p.modFront i Take.hold)) := by
  simp only [enterHeld, a.active, is, auto, if_true]
  rfl

end

/-! ### The decision -/

/-- A take whose commit field is met late: its cut M fields on (R99). -/
def Take.late (v : Part) (x : Island) (t : Take) : Take :=
  { t with cut := none, fCut := some (Stamp.plus v.ref.count x.settings.lead)
           slip := if t.state = .held then t.slipTo (Stamp.plus v.ref.count x.settings.lead) else t.slip }

/-- The take the decision at the commit field is about (R98, R99). -/
def Take.recut (v : Part) (x : Island) (t : Take) : Take :=
  if t.commitAt = some v.ref.count then t else ((t.late v x).refreshed v x.settings.lead).judged v x

theorem Leads.recut {i : IslandId} {v : Part} {x : Island} {t : Take} {p : Part} (a : Leads i v x t p) :
    ∃ q, Leads i v x (t.recut v x) q ∧ ChangesOnly (Block.taking i) p q ∧ (∀ k es, Awaits k es p → Awaits (k + 3) es q) ∧
      (∀ o l, (t.recut v x).decide x = .cut o l → takeCommitField i p = Machine.commitTake i o l q) ∧
      ((t.recut v x).decide x = .hold → takeCommitField i p = enterHeld i q) := by
  have decided : ∀ {u : Take} {q : Part}, Leads i v x u q → u.decide (q.island i) = u.decide x := fun {u q} b => by
    unfold Take.decide
    rw [b.allowed]
  by_cases prompt : t.commitAt = some v.ref.count
  · refine ⟨p, ?_, .refl _ p, fun k es w => w.mono (Nat.le_add_right k 3), ?_⟩
    · rw [Take.recut, if_pos prompt]
      exact a
    · simp only [takeCommitField, Take.recut, a.active, a.ref, prompt, if_true, decided a]
      exact ⟨fun o l is => by rw [is], fun is => by rw [is]⟩
  · have late := a.modFront (f := Take.late v x) (by exact a.past)
    refine ⟨Machine.judgeReady i (refreshTake i (p.modFront i (Take.late v x))), ?_, ?_, fun k es w => ?_, ?_⟩
    · rw [Take.recut, if_neg prompt]
      exact late.refresh.judgeReady
    · exact ((front_taking i _ p).trans (refreshTake_frame i _)).trans (judgeReady_frame i _)
    · exact judgeReady_awaits (refreshTake_awaits (w.of_evt (by exact rfl)) i) i
    · have judged := late.refresh.judgeReady
      simp only [takeCommitField, Take.recut, a.active, a.ref, prompt, if_false, a.lead]
      rw [show (p.modFront i fun u => { u with
          cut := none, fCut := some (Stamp.plus v.ref.count x.settings.lead),
          slip := if u.state = .held then u.slipTo (Stamp.plus v.ref.count x.settings.lead) else u.slip }) =
        p.modFront i (Take.late v x) from rfl, judged.active]
      dsimp only
      rw [decided judged]
      exact ⟨fun o l is => by rw [is], fun is => by rw [is]⟩

/-- The active take of island `i` of `p` commits at `cut`, its record as the commit found it but for the outcome (R101, R112). -/
def Commits (i : IslandId) (p : Part) (x : Island) (u : Take) (cut : Stamp) (o : TakeOutcome) (l : Option Int) (q : Part) : Prop :=
  q.island i = ({ x with
    mirror := .moving (p.portOf i u.incoming)
    confirm := some { target := u.incoming, port := p.portOf i u.incoming, cut := cut, deadline := Stamp.plus cut x.settings.grace
                      owner := .take } } : Island).led
      { u with state := .committed, cut := none, commitAt := none, outcome := o, lost := l } ∧
  (p.listens → q.tells (.island i) [.takeCommit u.tag (p.portOf i u.incoming) (some cut) u.error o u.slip]) ∧
  ChangesOnly (Block.committing i) p q

theorem Leads.portOf {i : IslandId} {v : Part} {x : Island} {t : Take} {p : Part} (a : Leads i v x t p) (b : v.island i = x)
    (s : Source) : p.portOf i s = v.portOf i s := by
  unfold Part.portOf
  rw [a.settings, b]
  split <;> simp only [a.heads]

/-- A commit that the commit field has brought. -/
theorem commits_of_recut {i : IslandId} {p : Part} {t : Take} (a : Leads i p (p.island i) t p) {o : TakeOutcome} {l : Option Int}
    {cut : Stamp} (decides : (t.recut p (p.island i)).decide (p.island i) = .cut o l)
    (is : (t.recut p (p.island i)).fCut.getD (Stamp.plus p.ref.count (p.island i).settings.lead) = cut) :
    Commits i p (p.island i) (t.recut p (p.island i)) cut o l (takeCommitField i p) := by
  obtain ⟨q, b, frame, awaits, does, -⟩ := a.recut
  rw [does o l decides]
  have committed := b.commitTake o l is
  rw [b.portOf rfl] at committed
  have whole : ChangesOnly (Block.committing i) p (commitTake i o l q) :=
    (frame.mono (taking_committing i)).trans (commitTake_frame i o l q)
  refine ⟨committed.island, fun w => ?_, whole⟩
  have told := (b.commitTake_awaits (awaits 0 [] w.awaits) (by decide) o l is).holds
  rw [List.nil_append, b.portOf rfl] at told
  exact told.tells (by rw [committed.ref, b.ref]; rfl)

/-! ### The take the decision is about -/

/-- What no judgement changes of a take. -/
structure Take.Alike (t u : Take) : Prop where
  tag : u.tag = t.tag
  incoming : u.incoming = t.incoming
  effective : u.effective = t.effective
  tolerance : u.tolerance = t.tolerance
  preroll : u.preroll = t.preroll
  sopCue : u.sopCue = t.sopCue
  sop : u.sop = t.sop
  heldCut : u.heldCut = t.heldCut

theorem Take.Alike.refl (t : Take) : t.Alike t := ⟨rfl, rfl, rfl, rfl, rfl, rfl, rfl, rfl⟩

theorem Take.Alike.refreshed {t u : Take} (a : t.Alike u) (v : Part) (n : Nat) : t.Alike (u.refreshed v n) where
  tag := (Take.refreshed_tag v n u).trans a.tag
  incoming := (Take.refreshed_incoming v n u).trans a.incoming
  effective := (Take.refreshed_effective v n u).trans a.effective
  tolerance := (Take.refreshed_tolerance v n u).trans a.tolerance
  preroll := (Take.refreshed_preroll v n u).trans a.preroll
  sopCue := (Take.refreshed_sopCue v n u).trans a.sopCue
  sop := (Take.refreshed_sop v n u).trans a.sop
  heldCut := (Take.refreshed_heldCut v n u).trans a.heldCut

theorem Take.Alike.state {t u : Take} (a : t.Alike u) (s : TakeState) : t.Alike { u with state := s } :=
  ⟨a.tag, a.incoming, a.effective, a.tolerance, a.preroll, a.sopCue, a.sop, a.heldCut⟩

theorem Take.Alike.soon {t u : Take} (a : t.Alike u) (v : Part) (n : Nat) : t.Alike (u.soon v n) :=
  Take.Alike.refreshed (u := { u with cut := none, fCut := some (Stamp.plus v.ref.count n) })
    ⟨a.tag, a.incoming, a.effective, a.tolerance, a.preroll, a.sopCue, a.sop, a.heldCut⟩ v n

theorem Take.Alike.judged {t u : Take} (a : t.Alike u) (v : Part) (x : Island) : t.Alike (u.judged v x) := by
  unfold Take.judged
  split
  · split
    · exact (a.state .ready).soon v _
    · exact (a.state .ready).refreshed v _
  · split
    · exact a.state .starting
    · exact a

/-- What the cut M fields on makes of the error (R82, R99). -/
def Take.errorAt (t : Take) (cut : Stamp) : Option Int := { t with fCut := some cut }.errorOf

/-- The figures of a take whose cut lies at a field the scheduler set. -/
structure Take.CutAt (cut : Stamp) (slip : Int) (t : Take) : Prop where
  free : t.cut = none
  fCut : t.fCut = some cut
  slip : t.slip = slip

theorem Take.CutAt.refreshed {cut : Stamp} {z : Int} {t : Take} (a : t.CutAt cut z) (v : Part) (n : Nat) :
    (t.refreshed v n).CutAt cut z ∧ (t.refreshed v n).error = t.errorAt cut := by
  refine ⟨⟨(Take.refreshed_cut v n t).trans a.free, ?_, (Take.refreshed_slip v n t).trans a.slip⟩, ?_⟩
  · rw [Take.refreshed_fCut, Take.figures_fCut n t a.free, a.fCut]
  · rw [Take.refreshed_error, Take.figures_error n t a.free, Take.errorAt, Take.errorOf, Take.errorOf]
    simp only [a.fCut]

theorem Take.CutAt.judged {cut : Stamp} {z : Int} {t : Take} (a : t.CutAt cut z) (e : t.error = t.errorAt cut) {v : Part} {x : Island}
    (is : Stamp.plus v.ref.count x.settings.lead = cut) :
    (t.judged v x).CutAt cut z ∧ (t.judged v x).error = t.errorAt cut := by
  unfold Take.judged
  split
  · split
    · subst is
      exact Take.CutAt.refreshed (t := { t with state := .ready, cut := none, fCut := some (Stamp.plus v.ref.count x.settings.lead) })
        ⟨rfl, rfl, a.slip⟩ v _
    · exact Take.CutAt.refreshed (t := { t with state := .ready }) ⟨a.free, a.fCut, a.slip⟩ v _
  · split
    · exact ⟨⟨a.free, a.fCut, a.slip⟩, e⟩
    · exact ⟨a, e⟩

theorem Take.judged_state (v : Part) (x : Island) (t : Take) : (t.judged v x).state =
    if t.state = .starting ∧ t.mayReady v x then .ready else if t.state = .ready ∧ ¬ t.staysReady v x then .starting else t.state := by
  unfold Take.judged
  split
  · split <;> exact Take.refreshed_state ..
  · split <;> rfl

theorem Take.recut_prompt {v : Part} {x : Island} {t : Take} (prompt : t.commitAt = some v.ref.count) : t.recut v x = t :=
  if_pos prompt

theorem Take.recut_alike (v : Part) (x : Island) (t : Take) : t.Alike (t.recut v x) := by
  unfold Take.recut
  split
  · exact .refl t
  · exact Take.Alike.judged (Take.Alike.refreshed (t := t) (u := t.late v x) ⟨rfl, rfl, rfl, rfl, rfl, rfl, rfl, rfl⟩ v _) v x

/-- A take whose commit field is met late: its cut and the error of that cut (R99). -/
theorem Take.recut_late {v : Part} {x : Island} {t : Take} (late : t.commitAt ≠ some v.ref.count) :
    (t.recut v x).CutAt (Stamp.plus v.ref.count x.settings.lead) (t.late v x).slip ∧
    (t.recut v x).error = t.errorAt (Stamp.plus v.ref.count x.settings.lead) := by
  rw [Take.recut, if_neg late]
  have formed : (t.late v x).CutAt (Stamp.plus v.ref.count x.settings.lead) (t.late v x).slip := ⟨rfl, rfl, rfl⟩
  obtain ⟨cut, error⟩ := formed.refreshed v x.settings.lead
  have same : ((t.late v x).refreshed v x.settings.lead).errorAt (Stamp.plus v.ref.count x.settings.lead) =
      t.errorAt (Stamp.plus v.ref.count x.settings.lead) := by
    simp only [Take.errorAt, Take.errorOf, Take.refreshed_incoming, Take.refreshed_sop, Take.late]
  exact same ▸ cut.judged (error.trans same.symm) rfl

/-! ### What the decision says -/

section
variable {x : Island} {t : Take}

theorem Take.decide_held (held : t.state = .held) : t.decide x = .cut .slipped none := by
  simp only [Take.decide, held]

theorem Take.decide_pending (waits : t.state = .armed ∨ t.state = .starting) : t.decide x = .hold := by
  obtain waits | waits := waits <;> simp only [Take.decide, waits]

theorem Take.decide_ready_uncued (ready : t.state = .ready) (none : t.sopCue = none) : t.decide x = .cut .done .none := by
  simp only [Take.decide, ready, none, Option.isNone_none, if_true]

theorem Take.decide_ready_error {e : Int} (ready : t.state = .ready) (cued : t.sopCue.isSome = true) (error : t.error = some e) :
    t.decide x = if e.natAbs ≤ (t.allowed x).toNat then .cut .done none else if e < 0 then .cut .early (some (-e)) else .hold := by
  have some : t.sopCue.isNone = false := by simpa [Option.isNone_eq_false_iff] using cued
  simp only [Take.decide, ready, some, error, Bool.false_eq_true, if_false]

/-- A READY take whose SOP frame has been reached (R99). -/
theorem Take.decide_ready_reached {r : Pred} (ready : t.state = .ready) (cued : t.sopCue.isSome = true) (error : t.error = none)
    (sop : t.sop = some r) (basis : r.basis = .reached) : t.decide x = .cut .early (match r.value, t.fCut with
      | some v, some c => some (Stamp.diff c v)
      | _, _ => none) := by
  have some : t.sopCue.isNone = false := by simpa [Option.isNone_eq_false_iff] using cued
  simp only [Take.decide, ready, some, error, sop, basis, Bool.false_eq_true, if_false, if_true] <;> rfl

end

section
variable {v : Part} {x : Island} {t : Take} {h : HeadId}

theorem mayReady_head (is : t.incoming = .head h) (locked : (v.head h).drive = .locked) : t.mayReady v x =
    (decide (t.effective = .now) || match t.error with
      | some e => decide (e ≤ t.allowed x)
      | none => t.sopCue.isNone || t.sop.any fun r => decide (r.basis = .reached) && r.value.isNone) := by
  simp only [Take.mayReady, is, locked, decide_true, Bool.true_and] <;> rfl

theorem staysReady_head (is : t.incoming = .head h) (locked : (v.head h).drive = .locked) : t.staysReady v x =
    (decide (t.effective = .now) || t.error.all fun e => decide (e ≤ t.allowed x)) := by
  simp only [Take.staysReady, is, locked, decide_true, Bool.true_and]

theorem mayReady_unlocked (is : t.incoming = .head h) (unlocked : (v.head h).drive ≠ .locked) : t.mayReady v x = false := by
  simp only [Take.mayReady, is, unlocked, decide_false, Bool.false_and]

/-- The exact F_sop of a take whose head is LOCKED gives its error (R82). -/
theorem Take.errorOf_exact {r : Pred} {a b : Stamp} (is : t.incoming = .head h) (sop : t.sop = some r) (exact_ : r.basis = .exact)
    (value : r.value = some a) (cut : t.fCut = some b) : t.errorOf = some (Stamp.diff a b) := by
  simp only [Take.errorOf, is, sop, cut, exact_, value, reduceCtorEq, if_false, if_true, Option.map_some]

theorem Take.errorOf_inexact {r : Pred} (is : t.incoming = .head h) (sop : t.sop = some r) (inexact : r.basis ≠ .exact) :
    t.errorOf = none := by
  cases cut : t.fCut <;> simp only [Take.errorOf, is, sop, cut, inexact, reduceCtorEq, if_false]

theorem Take.errorOf_uncued (is : t.incoming = .head h) (sop : t.sop = none) : t.errorOf = none := by
  simp only [Take.errorOf, is, sop, reduceCtorEq, if_false]

theorem Take.heldSop_exact {r : Pred} (is : t.incoming = .head h) (locked : (v.head h).drive = .locked) (sop : t.sop = some r)
    (basis : r.basis = .exact) : t.heldSop v = r.value := by
  have head : t.head? = some h := by simp only [Take.head?, is]
  simp only [Take.heldSop, head, sop, locked, basis, and_self, if_true]

theorem Take.heldSop_unlocked (no : ∀ h, t.head? = some h → (v.head h).drive ≠ .locked) : t.heldSop v = none := by
  unfold Take.heldSop
  split
  · rename_i h r is _
    exact if_neg fun both => no h is both.1
  · rfl

end

/-! ### The state the decision finds -/

/-- The take as its commit field is met late, before it is judged again (R99). -/
def Take.redone (v : Part) (x : Island) (t : Take) : Take := (t.late v x).refreshed v x.settings.lead

section
variable {v : Part} {x : Island} {t : Take}

theorem Take.redone_alike (v : Part) (x : Island) (t : Take) : t.Alike (t.redone v x) :=
  Take.Alike.refreshed (t := t) (u := t.late v x) ⟨rfl, rfl, rfl, rfl, rfl, rfl, rfl, rfl⟩ v _

theorem Take.redone_state (v : Part) (x : Island) (t : Take) : (t.redone v x).state = t.state := Take.refreshed_state ..

theorem Take.redone_error (v : Part) (x : Island) (t : Take) :
    (t.redone v x).error = t.errorAt (Stamp.plus v.ref.count x.settings.lead) := by
  have formed : (t.late v x).CutAt (Stamp.plus v.ref.count x.settings.lead) (t.late v x).slip := ⟨rfl, rfl, rfl⟩
  rw [Take.redone, (formed.refreshed v x.settings.lead).2]
  rfl

theorem Take.recut_state (late : t.commitAt ≠ some v.ref.count) : (t.recut v x).state =
    if t.state = .starting ∧ (t.redone v x).mayReady v x then .ready
    else if t.state = .ready ∧ ¬ (t.redone v x).staysReady v x then .starting else t.state := by
  rw [Take.recut, if_neg late, Take.judged_state, show (t.late v x).refreshed v x.settings.lead = t.redone v x from rfl,
    Take.redone_state]

/-- A take that is READY stays so, or becomes so, as its commit field is met late. -/
theorem Take.recut_ready (late : t.commitAt ≠ some v.ref.count)
    (is : t.state = .ready ∧ (t.redone v x).staysReady v x = true ∨ t.state = .starting ∧ (t.redone v x).mayReady v x = true) :
    (t.recut v x).state = .ready := by
  rw [Take.recut_state late]
  obtain ⟨ready, stays⟩ | ⟨starting, may⟩ := is
  · simp [ready, stays]
  · simp [starting, may]

theorem Take.recut_starting (late : t.commitAt ≠ some v.ref.count)
    (is : t.state = .ready ∧ (t.redone v x).staysReady v x = false ∨ t.state = .starting ∧ (t.redone v x).mayReady v x = false) :
    (t.recut v x).state = .starting := by
  rw [Take.recut_state late]
  obtain ⟨ready, stays⟩ | ⟨starting, may⟩ := is
  · simp [ready, stays]
  · simp [starting, may]

theorem Take.recut_other (other : t.state ≠ .starting ∧ t.state ≠ .ready) : (t.recut v x).state = t.state := by
  by_cases late : t.commitAt = some v.ref.count
  · rw [Take.recut_prompt late]
  · rw [Take.recut_state late, if_neg fun starting => other.1 starting.1, if_neg fun ready => other.2 ready.1]

/-- A source that a take without a SOP record can show: STANDBY, or a LOCKED head (R98). -/
def Take.Sits (v : Part) (t : Take) : Prop :=
  t.incoming ≠ .unknown ∧ t.sop = none ∧ ∀ h, t.head? = some h → (v.head h).drive = .locked

theorem Take.redone_sits (sits : t.Sits v) (uncued : t.sopCue = none) :
    (t.redone v x).staysReady v x = true ∧ (t.redone v x).mayReady v x = true := by
  have same := Take.redone_alike v x t
  obtain ⟨known, sop, locked⟩ := sits
  cases is : t.incoming with
  | unknown => exact absurd is known
  | standby => simp only [Take.staysReady, Take.mayReady, same.incoming.trans is, and_self]
  | head h =>
    have drive := locked h (by simp only [Take.head?, is])
    have error : (t.redone v x).error = none := by
      rw [Take.redone_error]
      exact Take.errorOf_uncued is sop
    rw [staysReady_head (same.incoming.trans is) drive, mayReady_head (same.incoming.trans is) drive, error, same.sopCue, uncued]
    simp

end

end Sys2Proof.Machine
end

section
/-! PROOFS. The commit field of a take, clause by clause (R98 to R101). -/

namespace Sys2Proof.Machine

/-! ### A commit, clause by clause -/

/-- A commit of island `i` of `p` as its clauses say it, for a take of the given tag and incoming source. -/
def CommitsAs (i : IslandId) (p : Part) (x : Island) (t : Take) (cut : Stamp) (o : TakeOutcome) (l : Option Int) (q : Part) : Prop :=
  (q.island i).mirror = .moving (p.portOf i t.incoming) ∧
  (q.island i).confirm = some { target := t.incoming, port := p.portOf i t.incoming, cut := cut, owner := .take
                                deadline := cut + BitVec.ofNat 32 x.settings.grace } ∧
  (q.island i).active.map (·.state) = some .committed ∧ (q.island i).active.map (·.outcome) = some o ∧
  (q.island i).active.map (·.lost) = some l ∧ (q.island i).takes.tail = x.takes.tail ∧
  (∀ u, (q.island i).active = some u → p.listens →
    q.tells (.island i) [.takeCommit t.tag (p.portOf i t.incoming) (some cut) u.error o u.slip]) ∧
  (q.island i).onAir = x.onAir ∧ ChangesOnly (Block.committing i) p q

section
variable {i : IslandId} {p : Part} {x : Island} {t u : Take} {cut : Stamp} {o : TakeOutcome} {l : Option Int} {q : Part}

theorem Commits.active (c : Commits i p x u cut o l q) :
    (q.island i).active = some { u with state := .committed, cut := none, commitAt := none, outcome := o, lost := l } := by
  rw [c.1]
  exact Island.led_active _ nofun

theorem Commits.clauses (c : Commits i p x u cut o l q) (alike : t.Alike u) : CommitsAs i p x t cut o l q := by
  have active := c.active
  obtain ⟨island, told, frame⟩ := c
  rw [alike.incoming] at island told
  rw [alike.tag] at told
  refine ⟨?_, ?_, ?_, ?_, ?_, ?_, fun w held l => ?_, ?_, frame⟩
  · rw [island]; rfl
  · rw [island]; rfl
  · rw [active]; rfl
  · rw [active]; rfl
  · rw [active]; rfl
  · rw [island]; rfl
  · rw [active] at held
    cases held
    exact told l
  · rw [island]; rfl

end

theorem commitDue_of {i : IslandId} {p : Part} {t : Take} {c : Stamp} (free : (p.island i).confirm = none)
    (active : (p.island i).active = some t) (is : t.commitAt = some c) (due : reached p.ref.count c = true)
    (waits : t.state.pending = true ∨ t.state = .held) : commitDue i p = true := by
  have unawaited : p.awaits i = false := by
    rw [Part.awaits, free]
    rfl
  have state : (t.state.pending || decide (t.state = .held)) = true := by simpa using waits
  simp only [commitDue, unawaited, active, state, is, Option.any_some, due, Bool.not_false, Bool.and_self]

theorem leads_of_active {i : IslandId} {p : Part} {t : Take} (active : (p.island i).active = some t) :
    Leads i p (p.island i) t p :=
  ⟨Island.led_of_active active, (Island.active_eq_some.1 active).2, fun _ => rfl, rfl⟩

/-! ### A take that is HELD at its commit field -/

/-- The incoming head of the take the decision holds is LOCKED, and its exact F_sop lies ahead by more than M: the take follows
it (R100). -/
theorem takeCommitField_follows {i : IslandId} {p : Part} {t : Take} {h : HeadId} {r : Pred} {sop : Stamp} (a : Leads i p (p.island i) t p)
    (holds : (t.recut p (p.island i)).decide (p.island i) = .hold) (is : t.incoming = .head h) (locked : (p.head h).drive = .locked)
    (record : t.sop = some r) (basis : r.basis = .exact) (value : r.value = some sop)
    (ahead : reached p.ref.count (Stamp.minus sop (p.island i).settings.lead) = false) :
    Leads i p (p.island i) (((t.recut p (p.island i)).hold.aimed sop (Stamp.minus sop (p.island i).settings.lead)).figures
      (p.island i).settings.lead) (takeCommitField i p) := by
  have same := Take.recut_alike p (p.island i) t
  obtain ⟨q, b, -, -, -, does⟩ := a.recut
  obtain ⟨q', held, enters⟩ := b.enterHeld_unstarted fun k incoming _ => by
    have mine := Take.incoming_of_head? incoming
    rw [same.incoming, is] at mine
    cases mine
    rw [locked]
    rfl
  rw [does holds, enters]
  have heldSop : (t.recut p (p.island i)).hold.heldSop p = some sop :=
    (Take.heldSop_exact (same.incoming.trans is) locked (same.sop.trans record) basis).trans value
  have follows := held.retarget_follows rfl heldSop ahead
  rwa [Take.refreshed_of_state (by exact nofun)] at follows

/-- The field M before the exact F_sop is reached: the take so held commits SLIPPED at once (R100). -/
theorem takeCommitField_slips {i : IslandId} {p : Part} {t : Take} {h : HeadId} {r : Pred} {sop : Stamp} (a : Leads i p (p.island i) t p)
    (holds : (t.recut p (p.island i)).decide (p.island i) = .hold) (is : t.incoming = .head h) (locked : (p.head h).drive = .locked)
    (record : t.sop = some r) (basis : r.basis = .exact) (value : r.value = some sop) (free : (p.island i).confirm = none)
    (due : reached p.ref.count (Stamp.minus sop (p.island i).settings.lead) = true) :
    ∃ x u, Leads i p x u (takeCommitField i p) ∧
      x = { p.island i with
        mirror := .moving (p.portOf i t.incoming)
        confirm := some { target := t.incoming, port := p.portOf i t.incoming, owner := .take
                          cut := Stamp.plus p.ref.count (p.island i).settings.lead
                          deadline := Stamp.plus (Stamp.plus p.ref.count (p.island i).settings.lead) (p.island i).settings.grace } } ∧
      u.tag = t.tag ∧ u.state = .committed ∧ u.outcome = .slipped ∧ u.heldCut = (t.recut p (p.island i)).fCut ∧
      u.fCut = some (Stamp.plus p.ref.count (p.island i).settings.lead) ∧
      u.slip = (t.recut p (p.island i)).hold.slipTo (Stamp.plus p.ref.count (p.island i).settings.lead) := by
  have same := Take.recut_alike p (p.island i) t
  obtain ⟨q, b, -, -, -, does⟩ := a.recut
  obtain ⟨q', held, enters⟩ := b.enterHeld_unstarted fun k incoming _ => by
    have mine := Take.incoming_of_head? incoming
    rw [same.incoming, is] at mine
    cases mine
    rw [locked]
    rfl
  have heldSop : (t.recut p (p.island i)).hold.heldSop p = some sop :=
    (Take.heldSop_exact (same.incoming.trans is) locked (same.sop.trans record) basis).trans value
  obtain ⟨q'', aimed, commits⟩ := held.retarget_commits rfl heldSop due free
  rw [does holds, enters, commits]
  rw [Take.refreshed_of_state (by exact nofun)] at aimed
  have done := aimed.commitTake .slipped none (cut := Stamp.plus p.ref.count (p.island i).settings.lead) rfl
  rw [aimed.portOf rfl, show (((t.recut p (p.island i)).hold.aimed _ _).figures _).incoming = t.incoming from same.incoming] at done
  exact ⟨_, _, done, rfl, same.tag, rfl, rfl, rfl, rfl, rfl⟩

/-- A take whose head is not LOCKED is HELD, its head started under AUTO where it stands (R100). -/
theorem takeCommitField_waits {i : IslandId} {p : Part} {t : Take} (a : Leads i p (p.island i) t p)
    (holds : (t.recut p (p.island i)).decide (p.island i) = .hold)
    (unlocked : ∀ h, t.head? = some h → (p.head h).drive ≠ .locked) :
    ∃ w x u, Leads i w x u (takeCommitField i p) ∧ (∃ e, x = { p.island i with fEnd := e }) ∧ u.state = .held ∧
      u.heldCut = (t.recut p (p.island i)).fCut ∧ u.commitAt = none ∧
      ∀ h, t.head? = some h → t.preroll = .auto → (p.head h).drive.atRest = true → (w.head h).drive = .runup := by
  have same := Take.recut_alike p (p.island i) t
  have incoming : (t.recut p (p.island i)).head? = t.head? := by rw [Take.head?, Take.head?, same.incoming]
  obtain ⟨q, b, -, -, -, does⟩ := a.recut
  rw [does holds]
  by_cases starts : ∃ h, t.head? = some h ∧ t.preroll = .auto ∧ (p.head h).drive.atRest = true
  · obtain ⟨h, is, auto, rest⟩ := starts
    rw [b.enterHeld_auto (incoming.trans is) (same.preroll.trans auto)]
    have held := b.modFront (f := Take.hold) nofun
    obtain ⟨head, -, -, requested⟩ := held.startRequest rest
    generalize startDrive h .scheduler (q.modFront i Take.hold) = w at head requested
    rw [Take.refreshed_of_state (by exact nofun)] at requested
    have runup : (w.head h).drive = .runup := by
      rw [head]
      rfl
    rw [requested.evalTake_held rfl]
    have waits := requested.retarget_waits rfl (Take.heldSop_unlocked fun k is' => by
      rw [show k = h from Option.some.inj (is'.symm.trans (incoming.trans is)), runup]
      exact nofun)
    refine ⟨_, _, _, waits, ⟨_, rfl⟩, rfl, rfl, rfl, fun k is' _ _ => ?_⟩
    rw [show k = h from Option.some.inj (is'.symm.trans is)]
    exact runup
  · obtain ⟨q', held, enters⟩ := b.enterHeld_unstarted fun h is auto => by
      by_contra stands
      exact starts ⟨h, incoming.symm.trans is, same.preroll.symm.trans auto, by simpa using stands⟩
    rw [enters]
    have waits := held.retarget_waits rfl (Take.heldSop_unlocked fun k is => unlocked k (incoming.symm.trans is))
    exact ⟨_, _, _, waits, ⟨_, rfl⟩, rfl, rfl, rfl, fun h is auto rest => absurd ⟨h, is, auto, rest⟩ starts⟩

/-! ### The cut of the decision -/

theorem Take.recut_cut {p : Part} {x : Island} {t : Take} {c : Stamp} (at_ : t.commitAt = some c) :
    (t.recut p x).fCut.getD (Stamp.plus p.ref.count x.settings.lead) =
      if c = p.ref.count then t.fCut.getD (Stamp.plus p.ref.count x.settings.lead) else Stamp.plus p.ref.count x.settings.lead := by
  by_cases prompt : c = p.ref.count
  · rw [if_pos prompt, Take.recut_prompt (by rw [at_, prompt])]
  · rw [if_neg prompt, (Take.recut_late (x := x) (by rw [at_]; simpa using prompt)).1.fCut]
    rfl

/-- F_sop lies more than M ahead of the count when it lies ahead of the cut M fields on. -/
theorem reached_of_ahead {c v : Stamp} {n : Nat} (ahead : 0 < (v - Stamp.plus c n).toInt) : reached c (Stamp.minus v n) = false := by
  refine decide_eq_false (Nat.not_lt.2 ?_)
  unfold Stamp.minus
  unfold Stamp.plus at ahead
  generalize BitVec.ofNat 32 n = m at *
  have same : v - (c + m) = -(c - (v - m)) := by ring
  rw [same] at ahead
  generalize c - (v - m) = d at ahead
  by_contra small
  rw [BitVec.toInt_eq_toNat_cond, BitVec.toNat_neg] at ahead
  have bound := d.isLt
  split at ahead <;> omega

/-- What a HELD take that follows F_sop looks like. -/
theorem follows_clauses {i : IslandId} {p q : Part} {t u : Take} {h : HeadId} {r : Pred} {sop cut : Stamp}
    (b : Leads i p (p.island i) ((u.hold.aimed sop (Stamp.minus sop (p.island i).settings.lead)).figures (p.island i).settings.lead) q)
    (same : t.Alike u) (held : u.fCut = some cut) (is : t.incoming = .head h) (record : t.sop = some r) (basis : r.basis = .exact)
    (value : r.value = some sop) (free : (p.island i).confirm = none) :
    (∃ w, (q.island i).active = some w ∧ w.tag = t.tag ∧ w.state = .held ∧ w.heldCut = some cut ∧ w.fCut = some sop ∧
      w.slip = (sop - cut).toInt ∧ w.error = some 0 ∧ w.commitAt = some (sop - BitVec.ofNat 32 (p.island i).settings.lead)) ∧
    (q.island i).takes.tail = (p.island i).takes.tail ∧ (q.island i).confirm = none ∧ (q.island i).mirror = (p.island i).mirror := by
  refine ⟨⟨_, b.active, same.tag, rfl, held, rfl, ?_, ?_, rfl⟩, ?_, ?_, ?_⟩
  · show u.hold.slipTo sop = _
    simp only [Take.slipTo, Take.hold, held, Stamp.diff]
  · rw [Take.figures_error _ _ rfl]
    refine (Take.errorOf_exact (t := u.hold.aimed sop _) (same.incoming.trans is) (same.sop.trans record) basis value rfl).trans ?_
    simp [Stamp.diff]
  · rw [b.island]; rfl
  · rw [b.island]; exact free
  · rw [b.island]; rfl

/-- Settles O38: the decision of `Take.decide` on the take as the commit field finds it, its commit or its hold. -/
theorem commitFieldDecides : Obligations.CommitFieldDecides := by
  intro s i running free x z count t active c at_ due port cut commits allowed sits
  have a : Leads i s.part x t s.part := leads_of_active active
  have same := Take.recut_alike s.part x t
  have sched := takeCommitField_sched i s.part
  have meets : ∀ {P : Part → Prop}, t.state.pending = true ∨ t.state = .held → P (takeCommitField i s.part) →
      Completes (.commitFieldReached i) s P := fun waits does =>
    .of_field (due := commitDue i) rfl running (commitDue_of free active at_ (decide_eq_true due) waits) does
  have cutIs : (t.recut s.part x).fCut.getD (Stamp.plus count z.lead) = cut := Take.recut_cut at_
  have made : ∀ o l, (t.recut s.part x).decide x = .cut o l →
      Commits i s.part x (t.recut s.part x) cut o l (takeCommitField i s.part) := fun o l decides => commits_of_recut a decides cutIs
  have by_ : ∀ o l, (t.recut s.part x).decide x = .cut o l → commits o l (takeCommitField i s.part) :=
    fun o l decides => (made o l decides).clauses same
  have prompt : c = count → t.recut s.part x = t := fun e => Take.recut_prompt (at_.trans (congrArg some e))
  have late : c ≠ count → t.commitAt ≠ some count := fun n e => n (Option.some.inj (at_.symm.trans e))
  have cutLate : c ≠ count → cut = Stamp.plus count z.lead := fun n => if_neg n
  have recutCut : c ≠ count → (t.recut s.part x).fCut = some cut := fun n => by
    rw [cutLate n]
    exact (Take.recut_late (late n)).1.fCut
  have recutError : c ≠ count → (t.recut s.part x).error = t.errorAt cut := fun n => by
    rw [cutLate n]
    exact (Take.recut_late (late n)).2
  have redoneError : c ≠ count → (t.redone s.part x).error = t.errorAt cut := fun n => by
    rw [cutLate n]
    exact Take.redone_error ..
  have allow : ∀ u : Take, t.Alike u → (u.allowed x).toNat = allowed ∧ u.allowed x = allowed := fun u like => by
    rw [Take.allowed, like.tolerance]
    exact ⟨Int.toNat_natCast _, rfl⟩
  have readyPending : t.state = .ready → t.state.pending = true := fun e => by rw [e]; rfl
  have startingPending : t.state = .starting → t.state.pending = true := fun e => by rw [e]; rfl
  have errs : ∀ e, (t.recut s.part x).state = .ready → t.sopCue.isSome = true → (t.recut s.part x).error = some e →
      (t.recut s.part x).decide x =
        if e.natAbs ≤ allowed then .cut .done none else if e < 0 then .cut .early (some (-e)) else .hold := fun e ready cued error => by
    rw [Take.decide_ready_error ready (by rw [same.sopCue]; exact cued) error, (allow _ same).1]
  refine ⟨fun ready uncued now => ?_, fun starting uncued n si => ?_, fun held => ?_,
    fun r record basis ready error cued e => ?_, fun h r v f is locked record basis value cutAt e state => ?_,
    fun e error ready cued now => ?_, fun h r v is locked cued record state n => ?_, fun state unlocked some => ?_⟩
  · refine meets (.inl (readyPending ready)) (by_ _ _ (Take.decide_ready_uncued ?_ (same.sopCue.trans uncued)))
    by_cases e : c = count
    · rw [prompt e]
      exact ready
    · obtain e' | si := now
      · exact absurd e' e
      · exact Take.recut_ready (late e) (.inl ⟨ready, (Take.redone_sits si uncued).1⟩)
  · exact meets (.inl (startingPending starting)) (by_ _ _ (Take.decide_ready_uncued
      (Take.recut_ready (late n) (.inr ⟨starting, (Take.redone_sits si uncued).2⟩)) (same.sopCue.trans uncued)))
  · have decides : (t.recut s.part x).decide x = .cut .slipped none :=
      Take.decide_held ((Take.recut_other (by rw [held]; exact ⟨nofun, nofun⟩)).trans held)
    refine meets (.inr held) ⟨by_ _ _ decides, ?_⟩
    rw [(made _ _ decides).active, Option.map_some]
    by_cases e : c = count
    · rw [if_pos e, prompt e]
    · rw [if_neg e, (Take.recut_late (late e)).1.slip, cutLate e]
      simp only [Take.late, held, if_true, Take.slipTo, Stamp.diff]
      cases t.heldCut <;> rfl
  · refine meets (.inl (readyPending ready)) (by_ _ _ ?_)
    rw [prompt e]
    exact Take.decide_ready_reached ready cued error record basis
  · have holds : (t.recut s.part x).decide x = .hold := by
      obtain starting | ⟨ready, cued, error, errorIs, above⟩ := state
      · rw [prompt e]
        exact Take.decide_pending (.inr starting)
      · rw [errs error (by rw [prompt e]; exact ready) cued (by rw [prompt e]; exact errorIs), if_neg (by omega), if_neg (by omega)]
    have pending : t.state.pending = true := state.elim startingPending fun ready => readyPending ready.1
    refine ⟨fun ahead => meets (.inl pending) ?_, fun reached' => meets (.inl pending) ?_⟩
    · have follows := takeCommitField_follows a holds is locked record basis value
        (decide_eq_false (Nat.not_lt.2 ahead))
      have clauses := follows_clauses follows same (by rw [prompt e]; exact cutAt) is record basis value free
      exact ⟨clauses.1, clauses.2.1, clauses.2.2.1, clauses.2.2.2, sched.heads, sched.frame⟩
    · obtain ⟨y, u, leads, rfl, tag, committed, outcome, heldCut, fCut, slip⟩ :=
        takeCommitField_slips a holds is locked record basis value free (decide_eq_true reached')
      refine ⟨⟨u, leads.active, tag, committed, outcome, ?_, fCut, ?_⟩, ?_, ?_, ?_, sched.heads, sched.frame⟩
      · rw [heldCut, prompt e, cutAt]
      · rw [slip, prompt e]
        simp only [Take.slipTo, Take.hold, cutAt, Stamp.diff]
        rfl
      · rw [leads.island]; rfl
      · rw [leads.island]; rfl
      · rw [leads.island]; rfl
  · refine ⟨fun within => meets (.inl (readyPending ready)) (by_ _ _ ?_),
      fun early => meets (.inl (readyPending ready)) (by_ _ _ ?_)⟩
    · rw [errs e (by rw [prompt now]; exact ready) cued (by rw [prompt now]; exact error), if_pos within]
    · rw [errs e (by rw [prompt now]; exact ready) cued (by rw [prompt now]; exact error), if_neg (by omega), if_pos (by omega)]
  · have like := Take.redone_alike s.part x t
    have incoming : (t.redone s.part x).incoming = .head h := like.incoming.trans is
    have pending : t.state.pending = true := state.elim startingPending readyPending
    have cuedNot : (t.redone s.part x).sopCue.isNone = false := by
      rw [like.sopCue]
      simpa [Option.isNone_eq_false_iff] using cued
    refine ⟨fun basis value => ?_, fun basis none => ?_, fun basis value ready => ?_⟩
    · have error : t.errorAt cut = some (v - cut).toInt := Take.errorOf_exact is record basis value rfl
      have ready : (v - cut).toInt ≤ allowed → (t.recut s.part x).state = .ready := fun within => by
        refine Take.recut_ready (late n) (state.symm.imp (fun e => ⟨e, ?_⟩) fun e => ⟨e, ?_⟩)
        · rw [staysReady_head incoming locked, redoneError n, error, (allow _ like).2]
          simp [-BitVec.toInt_sub, within]
        · rw [mayReady_head incoming locked, redoneError n, error, (allow _ like).2]
          simp [-BitVec.toInt_sub, within]
      refine ⟨fun within => meets (.inl pending) ?_, fun early => meets (.inl pending) ?_, fun above => meets (.inl pending) ?_⟩
      · have decides : (t.recut s.part x).decide x = .cut .done .none := by
          rw [errs _ (ready (by omega)) cued ((recutError n).trans error), if_pos within]
        refine ⟨by_ _ _ decides, ?_⟩
        rw [(made _ _ decides).active]
        exact (recutError n).trans error
      · have decides : (t.recut s.part x).decide x = .cut .early (some (-(v - cut).toInt)) := by
          rw [errs _ (ready (by omega)) cued ((recutError n).trans error), if_neg (by omega), if_pos (by omega)]
        refine ⟨by_ _ _ decides, ?_⟩
        rw [(made _ _ decides).active]
        exact (recutError n).trans error
      · have holds : (t.recut s.part x).decide x = .hold := by
          by_cases r : (t.recut s.part x).state = .ready
          · rw [errs _ r cued ((recutError n).trans error), if_neg (by omega), if_neg (by omega)]
          · refine Take.decide_pending (.inr (Take.recut_starting (late n) (state.symm.imp (fun e => ⟨e, ?_⟩) fun e => ⟨e, ?_⟩)))
            · by_contra stays
              exact r (Take.recut_ready (late n) (.inl ⟨e, by simpa using stays⟩))
            · by_contra may
              exact r (Take.recut_ready (late n) (.inr ⟨e, by simpa using may⟩))
        have above' : 0 < (v - Stamp.plus s.part.ref.count (s.part.island i).settings.lead).toInt := by
          rw [cutLate n] at above
          exact lt_of_le_of_lt (Int.natCast_nonneg _) above
        have follows := takeCommitField_follows a holds is locked record basis value (reached_of_ahead above')
        have clauses := follows_clauses follows same (recutCut n) is record basis value free
        exact ⟨clauses.1, clauses.2.1, clauses.2.2.1, clauses.2.2.2, sched.heads, sched.frame⟩
    · have error : t.errorAt cut = .none := Take.errorOf_inexact is record (by rw [basis]; nofun)
      refine meets (.inl pending) (by_ _ _ ?_)
      have ready : (t.recut s.part x).state = .ready := by
        refine Take.recut_ready (late n) (state.symm.imp (fun e => ⟨e, ?_⟩) fun e => ⟨e, ?_⟩)
        · rw [staysReady_head incoming locked, redoneError n, error]
          simp
        · rw [mayReady_head incoming locked, redoneError n, error, like.sop, record]
          simp [basis, none]
      rw [Take.decide_ready_reached ready (by rw [same.sopCue]; exact cued) ((recutError n).trans error) (same.sop.trans record) basis,
        none]
    · have error : t.errorAt cut = .none := Take.errorOf_inexact is record (by rw [basis]; nofun)
      refine meets (.inl pending) (by_ _ _ ?_)
      have still : (t.recut s.part x).state = .ready := by
        refine Take.recut_ready (late n) (.inl ⟨ready, ?_⟩)
        rw [staysReady_head incoming locked, redoneError n, error]
        simp
      rw [Take.decide_ready_reached still (by rw [same.sopCue]; exact cued) ((recutError n).trans error) (same.sop.trans record) basis,
        value, recutCut n]
      rfl
  · have pending : t.state.pending = true := by
      obtain e | e := state <;> rw [e] <;> rfl
    have holds : (t.recut s.part x).decide x = .hold := by
      refine Take.decide_pending ?_
      by_cases e : c = count
      · rw [prompt e]
        exact state
      · obtain armed | starting := state
        · exact .inl ((Take.recut_other (by rw [armed]; exact ⟨nofun, nofun⟩)).trans armed)
        · refine .inr (Take.recut_starting (late e) (.inr ⟨starting, ?_⟩))
          obtain known | e' := some
          · obtain ⟨h, is⟩ := Option.isSome_iff_exists.1 known
            exact mayReady_unlocked ((Take.redone_alike s.part x t).incoming.trans (Take.incoming_of_head? is)) (unlocked h is)
          · exact absurd e' e
    obtain ⟨w, y, u, leads, ⟨e, rfl⟩, held, heldCut, commitAt, started⟩ := takeCommitField_waits a holds unlocked
    refine meets (.inl pending) ⟨?_, ?_, ?_, ?_, ?_, ?_, ?_, fun h is auto rest => ?_, sched.heads, sched.frame⟩
    · rw [leads.active, Option.map_some, held]
    · rw [leads.active, Option.bind_some, heldCut]
      by_cases e : c = count
      · rw [if_pos e, prompt e]
      · rw [if_neg e]
        exact recutCut e
    · rw [leads.active]
      exact commitAt
    · rw [leads.island]; rfl
    · rw [leads.island]; exact free
    · rw [leads.island]; rfl
    · rw [leads.island]; rfl
    · rw [leads.heads]
      exact started h is auto rest

end Sys2Proof.Machine
end

section
/-! PROOFS. What a take keeps from its activation on (R92 to R99). -/

namespace Sys2Proof.Machine

/-! ### What a take keeps -/

/-- The F_cut record of a take, if it follows one, has its value, and no start of the take's own head changes it. -/
def Take.Firm (t : Take) : Prop :=
  ∀ r, t.cut = some r → (r.basis = .reached → r.value ≠ none) ∧ ∀ h, t.incoming = .head h → r.head ≠ h

/-- What a take keeps from its activation on. -/
structure Take.Same (t u : Take) : Prop where
  tag : u.tag = t.tag
  incoming : u.incoming = t.incoming
  outgoing : u.outgoing = t.outgoing
  tolerance : u.tolerance = t.tolerance
  preroll : u.preroll = t.preroll
  sopCue : u.sopCue = t.sopCue
  changeCue : u.changeCue = t.changeCue
  effective : u.effective = t.effective

theorem Take.Same.refl (t : Take) : t.Same t := ⟨rfl, rfl, rfl, rfl, rfl, rfl, rfl, rfl⟩

theorem Take.Same.trans {t u w : Take} (a : t.Same u) (b : u.Same w) : t.Same w :=
  ⟨b.tag.trans a.tag, b.incoming.trans a.incoming, b.outgoing.trans a.outgoing, b.tolerance.trans a.tolerance,
    b.preroll.trans a.preroll, b.sopCue.trans a.sopCue, b.changeCue.trans a.changeCue, b.effective.trans a.effective⟩

theorem Take.refreshed_same (v : Part) (n : Nat) (t : Take) : t.Same (t.refreshed v n) := by
  rw [Take.refreshed_eq]
  exact ⟨rfl, rfl, rfl, rfl, rfl, rfl, rfl, rfl⟩

theorem Take.soon_same (v : Part) (n : Nat) (t : Take) : t.Same (t.soon v n) :=
  Take.Same.trans (u := { t with cut := none, fCut := some (Stamp.plus v.ref.count n) }) ⟨rfl, rfl, rfl, rfl, rfl, rfl, rfl, rfl⟩
    (Take.refreshed_same v n _)

theorem Take.Firm.of_none {t : Take} (none : t.cut = none) : t.Firm := fun _ is => nomatch none.symm.trans is

theorem Take.Firm.refreshed {t : Take} (a : t.Firm) (v : Part) (n : Nat) : (t.refreshed v n).Firm := fun r is => by
  rw [Take.refreshed_cut] at is
  rw [Take.refreshed_incoming]
  exact a r is

theorem Take.soon_firm (v : Part) (n : Nat) (t : Take) : (t.soon v n).Firm := .of_none (Take.refreshed_cut v n _)

theorem Take.Firm.stays {t : Take} (a : t.Firm) : t.loses = false := by
  unfold Take.loses
  cases cut : t.cut with
  | none => simp
  | some r =>
    have kept := (a r cut).1
    cases basis : r.basis <;> simp_all [Option.isNone_eq_false_iff, Option.isSome_iff_ne_none]

/-- The front take of island `i` is `t` as far as a take keeps itself, with a firm cut, in front of `rest`. -/
def Goes (i : IslandId) (t : Take) (rest : List Take) (p : Part) : Prop :=
  ∃ u, (p.island i).active = some u ∧ t.Same u ∧ u.Firm ∧ (p.island i).takes.tail = rest

theorem Leads.goes {i : IslandId} {v : Part} {x : Island} {t u : Take} {p : Part} {rest : List Take} (a : Leads i v x u p) (same : t.Same u)
    (firm : u.Firm) (tail : x.takes.tail = rest) : Goes i t rest p :=
  ⟨u, a.active, same, firm, by rw [a.island]; exact tail⟩

section
variable {i : IslandId} {t : Take} {rest : List Take} {p : Part} (a : Goes i t rest p)
include a

theorem Goes.of_island {q : Part} (same : q.island i = p.island i) : Goes i t rest q := by
  rwa [Goes, same]

/-- The take as it stands, with the part as its own view. -/
theorem Goes.leads : ∃ u, Leads i p (p.island i) u p ∧ t.Same u ∧ u.Firm ∧ (p.island i).takes.tail = rest := by
  obtain ⟨u, active, same, firm, tail⟩ := a
  exact ⟨u, leads_of_active active, same, firm, tail⟩

theorem Goes.post (s : AlarmSource) (e : EventItem) : Goes i t rest (post s e p) := a.of_island (post_island s e p i)

theorem Goes.convertNow : convertNow i p = p := by
  obtain ⟨u, b, -, firm, -⟩ := a.leads
  exact b.convertNow_keeps firm.stays

end

theorem Take.Follows.same {t u : Take} (a : t.Follows u) (firm : t.Firm) : t.Same u ∧ u.Firm := by
  refine ⟨⟨a.tag, a.incoming, a.outgoing, a.tolerance, a.preroll, a.sopCue, a.changeCue, ?_⟩, fun r is => ?_⟩
  · exact a.effective.resolve_right (by rw [firm.stays]; exact nofun)
  · obtain e | e := a.cut
    · rw [a.incoming]
      exact firm r (e.symm.trans is)
    · exact nomatch e.symm.trans is

/-- The work of a take leaves what it keeps: its records do not follow its own head. -/
theorem goes_takes (i : IslandId) (t : Take) (rest : List Take) : TakesKeep i (Goes i t rest) where
  post s e _ a := a.post s e
  front j f u p active follows a := by
    by_cases is : i = j
    · subst is
      obtain ⟨w, b, same, firm, tail⟩ := a.leads
      cases active.symm.trans b.active
      obtain ⟨kept, firm'⟩ := follows.same firm
      exact (b.modFront (f := f) follows.past).goes (same.trans kept) firm' tail
    · exact a.of_island (modFront_island_ne is f p)
  preds h x f p front _ a := by
    obtain ⟨w, b, same, firm, tail⟩ := a.leads
    have own : w.incoming = .head h := by
      rw [front_of_active b.active] at front
      exact (Prod.mk.inj (Option.some.inj front)).1
    have kept : (w.mapPreds h f).cut = w.cut := by
      cases cut : w.cut with
      | none => simp only [Take.mapPreds, cut, Option.map_none]
      | some r => simp only [Take.mapPreds, cut, Option.map_some, followedBy, (firm r cut).2 h own, if_false]
    exact (b.mapPreds h f).goes (same.trans ⟨rfl, rfl, rfl, rfl, rfl, rfl, rfl, rfl⟩) (fun r is => firm r (kept.symm.trans is)) tail
  start h x p _ _ a := a.of_island (startDrive_island h .scheduler p i)
  commit o l p a := by
    obtain ⟨w, b, same, -, tail⟩ := a.leads
    exact (b.commitTake o l rfl).goes (same.trans ⟨rfl, rfl, rfl, rfl, rfl, rfl, rfl, rfl⟩) (.of_none rfl) tail

theorem Goes.workTake {i : IslandId} {t : Take} {rest : List Take} {p : Part} (a : Goes i t rest p) : Goes i t rest (workTake i p) :=
  workTake_takes (goes_takes i t rest) a

/-! ### A take that is NOW -/

theorem Stamp.minus_plus (c : Stamp) (n : Nat) : Stamp.minus (Stamp.plus c n) n = c := add_sub_cancel_right c _

theorem reached_self (c : Stamp) : reached c c = true := by simp [reached]

theorem meetStart_stays {i : IslandId} {v : Part} {x : Island} {t : Take} {p : Part} (a : Leads i v x t p) (no : t.planned v = none) :
    meetStart i p = p := by
  have undue : startDue i p = false := by
    simp only [startDue, a.active, a.planned, no, Option.isSome_none, Bool.false_and]
  rw [meetStart, undue]
  exact if_neg nofun

theorem meetCommit_stays {i : IslandId} {v : Part} {x : Island} {t : Take} {p : Part} (a : Leads i v x t p)
    (no : ∀ c, t.commitAt = some c → t.state.pending = true ∨ t.state = .held → reached v.ref.count c = false) :
    meetCommit i p = p := by
  have undue : commitDue i p = false := by
    simp only [commitDue, a.active, a.ref]
    cases is : t.commitAt with
    | none => simp
    | some c =>
      by_cases state : t.state.pending = true ∨ t.state = .held
      · simp [no c is state]
      · simp [not_or.1 state]
  rw [meetCommit, undue]
  exact if_neg nofun

theorem meetCommit_awaiting {i : IslandId} {p : Part} (awaits : p.awaits i = true) : meetCommit i p = p := by
  have undue : commitDue i p = false := by simp only [commitDue, awaits, Bool.not_true, Bool.false_and]
  rw [meetCommit, undue]
  exact if_neg nofun

theorem Leads.awaits {i : IslandId} {v : Part} {x : Island} {t : Take} {p : Part} (a : Leads i v x t p) :
    p.awaits i = x.confirm.isSome := by
  rw [Part.awaits, a.island]
  rfl

/-- A READY take whose commit field is this very count commits at once, where it has no error. -/
theorem meetCommit_commits {i : IslandId} {v : Part} {x : Island} {t : Take} {p : Part} (a : Leads i v x t p) (free : x.confirm = none)
    (due : t.commitAt = some v.ref.count) {o : TakeOutcome} {l : Option Int} (waits : t.state.pending = true ∨ t.state = .held)
    (decides : t.decide x = .cut o l) : meetCommit i p = commitTake i o l p := by
  have isDue : commitDue i p = true :=
    commitDue_of (by rw [a.island]; exact free) a.active due (by rw [a.ref]; exact reached_self _) waits
  obtain ⟨q, -, -, -, does, -⟩ := a.recut
  rw [meetCommit, if_pos isDue]
  have same : t.decide (p.island i) = t.decide x := by
    unfold Take.decide
    rw [a.allowed]
  simp only [takeCommitField, a.active, a.ref, due, if_true, same, decides]

/-- An island whose take of STANDBY has committed M fields on (R101). -/
def Island.standby (x : Island) (v : Part) : Island :=
  { x with
    mirror := .moving x.settings.standbyPort
    confirm := some { target := .standby, port := x.settings.standbyPort, cut := Stamp.plus v.ref.count x.settings.lead
                      deadline := Stamp.plus (Stamp.plus v.ref.count x.settings.lead) x.settings.grace, owner := .take } }

section
variable {i : IslandId} {v : Part} {x : Island} {t : Take} {p : Part} (a : Leads i v x t p)
include a

/-- A READY take of STANDBY, its cut M fields on, commits. -/
theorem Leads.meetCommit_standby (standby : t.incoming = .standby) (state : t.state = .ready) (free : x.confirm = none)
    (cut : t.fCut = some (Stamp.plus v.ref.count x.settings.lead)) (error : t.error = some 0) (due : t.commitAt = some v.ref.count) :
    ∃ u, t.Same u ∧ u.state = .committed ∧ Leads i v (x.standby v) u (meetCommit i (meetStart i p)) := by
  have head : t.head? = none := by simp only [Take.head?, standby]
  have planned : t.planned v = none := by simp only [Take.planned, head]
  have decides : t.decide x = .cut .done none := by
    by_cases uncued : t.sopCue = none
    · exact Take.decide_ready_uncued state uncued
    · rw [Take.decide_ready_error state (Option.isSome_iff_ne_none.2 uncued) error]
      exact if_pos (Nat.zero_le _)
  have done := a.commitTake .done none (cut := Stamp.plus v.ref.count x.settings.lead) (by rw [cut]; rfl)
  have port : p.portOf i t.incoming = x.settings.standbyPort := by
    rw [standby]
    exact congrArg IslandSettings.standbyPort a.settings
  rw [meetStart_stays a planned, meetCommit_commits a free due (.inl (by rw [state]; rfl)) decides]
  rw [port, standby] at done
  refine ⟨_, ?_, ?_, done⟩
  · exact ⟨rfl, standby.symm, rfl, rfl, rfl, rfl, rfl, rfl⟩
  · rfl

theorem Leads.judgeReady_standby (standby : t.incoming = .standby) (state : t.state = .ready) : Machine.judgeReady i p = p := by
  simp only [Machine.judgeReady, a.active, state, reduceCtorEq, false_and, if_false, Take.staysReady, standby, not_true_eq_false,
    and_false]

theorem Leads.evalTake_headless (headless : t.head? = none) (firm : t.cut = none) :
    evalTake i p = retarget i (Machine.judgeReady i p) := by
  unfold evalTake
  rw [a.convertNow_stays (fun _ r is => nomatch firm.symm.trans is), a.sendStart_stays (fun h is => nomatch headless.symm.trans is),
    a.followRunning_stays (fun h is => nomatch headless.symm.trans is)]

theorem Leads.retarget_stays (other : t.state ≠ .held) : retarget i p = p := by
  simp only [Machine.retarget, a.active, other, ne_eq, not_false_eq_true, if_true]

/-- A take of STANDBY that is NOW and is, or shows itself, READY commits (R97 to R99). -/
theorem Leads.works_standby (standby : t.incoming = .standby) (now : t.effective = .now) (firm : t.cut = none)
    (free : x.confirm = none) (waits : t.state = .starting ∨ t.state = .ready ∧
      t.fCut = some (Stamp.plus v.ref.count x.settings.lead) ∧ t.error = some 0 ∧ t.commitAt = some v.ref.count) :
    ∃ u, t.Same u ∧ u.state = .committed ∧ Leads i v (x.standby v) u (workTake i p) := by
  have head : t.head? = none := by simp only [Take.head?, standby]
  rw [workTake, a.evalTake_headless head firm]
  obtain state | ⟨state, cut, error, due⟩ := waits
  · have shows : Leads i v x ({ t with state := .ready }.soon v x.settings.lead) (Machine.judgeReady i p) := by
      have judged := a.judgeReady
      have may : t.mayReady v x = true := by simp only [Take.mayReady, standby]
      rwa [Take.judged, if_pos ⟨state, may⟩, if_pos now] at judged
    have same := Take.Same.trans (u := { t with state := .ready }) (t := t) ⟨rfl, rfl, rfl, rfl, rfl, rfl, rfl, rfl⟩
      (Take.soon_same v x.settings.lead { t with state := .ready })
    rw [shows.retarget_stays (by rw [Take.soon, Take.refreshed_state]; exact nofun)]
    obtain ⟨u, kept, committed, done⟩ := shows.meetCommit_standby (same.incoming.trans standby) (Take.refreshed_state ..) free
      (by rw [Take.soon, Take.refreshed_fCut, Take.figures_fCut _ _ rfl])
      (by rw [Take.soon, Take.refreshed_error, Take.figures_error _ _ rfl, Take.errorOf]; exact if_pos standby)
      (by rw [Take.soon, Take.refreshed_commitAt]; exact congrArg some (Stamp.minus_plus _ _))
    exact ⟨u, same.trans kept, committed, done⟩
  · rw [a.judgeReady_standby standby state, a.retarget_stays (by rw [state]; exact nofun)]
    exact a.meetCommit_standby standby state free cut error due

/-- A start that the take itself has sent: its head in RUNUP, the take in STARTING without a start field (R97). -/
theorem Leads.evalTake_starts {h : HeadId} (is : t.incoming = .head h) (armed : t.state = .armed) (auto : t.preroll = .auto)
    (now : t.effective = .now) (rest : (v.head h).drive.atRest = true) (firm : t.cut = none) (uncut : t.fCut = none) :
    ∃ w y u, Leads i w y u (evalTake i p) ∧ (∃ e, y = { x with fEnd := e }) ∧ t.Same u ∧ u.state = .starting ∧ u.fStart = none ∧
      u.commitAt = none ∧ (w.head h).drive = .runup ∧ w.ref = v.ref := by
  have head : t.head? = some h := by simp only [Take.head?, is]
  have sends : sendStart i p = Machine.startRequest h p := by
    simp only [sendStart, a.active, head, armed, auto, now, a.heads, rest, and_self, if_true]
  obtain ⟨drives, -, ref, requested⟩ := a.startRequest rest
  unfold evalTake
  rw [a.convertNow_stays (fun _ r is => nomatch firm.symm.trans is), sends]
  generalize startDrive h .scheduler p = w at drives ref requested
  have runup : (w.head h).drive = .runup := by
    rw [drives]
    rfl
  have mapped : t.Same (t.mapPreds h (Pred.atStart w)) := ⟨rfl, rfl, rfl, rfl, rfl, rfl, rfl, rfl⟩
  generalize before : t.mapPreds h (Pred.atStart w) = b at requested mapped
  have keeps : b.state = .armed ∧ b.cut = none ∧ b.fCut = none := by
    rw [← before]
    exact ⟨armed, by simp only [Take.mapPreds, firm, Option.map_none], uncut⟩
  obtain ⟨armed', firm', uncut'⟩ := keeps
  have same := mapped.trans (Take.refreshed_same w x.settings.lead b)
  have unplanned : (b.figures x.settings.lead).planned w = none := by
    have head' : (b.figures x.settings.lead).head? = some h := by
      rw [Take.head?, show (b.figures x.settings.lead).incoming = .head h from mapped.incoming.trans is]
    simp only [Take.planned, head']
    exact if_neg fun plan => plan.2.2.1 (mapped.effective.trans now)
  have start : (b.refreshed w x.settings.lead).fStart = none := by
    rw [Take.refreshed, Take.replanned_none (.inl unplanned), if_pos (show (b.figures x.settings.lead).state = .armed from armed')]
  have commit : (b.refreshed w x.settings.lead).commitAt = none := by
    rw [Take.refreshed_commitAt]
    simp only [Take.figures, armed', firm', uncut', Option.map_none]
  have state : (b.refreshed w x.settings.lead).state = .armed := (Take.refreshed_state ..).trans armed'
  have head' : (b.refreshed w x.settings.lead).head? = some h := by
    rw [Take.head?, same.incoming, is]
  have running : followRunning i (Machine.startRequest h p) =
      (Machine.startRequest h p).modFront i fun u => { u with state := .starting } := by
    simp only [followRunning, requested.active, head', state, requested.heads, runup, DriveState.running, and_self, if_true]
  have starting := requested.modFront (f := fun u => { u with state := .starting }) nofun
  rw [running]
  have may : Take.mayReady w (x.mapEnd h (Pred.atStart w)) { b.refreshed w x.settings.lead with state := .starting } = false :=
    mayReady_unlocked (h := h) (same.incoming.trans is) (by rw [runup]; exact nofun)
  have judged := starting.judgeReady
  rw [Take.judged, if_neg (by rw [may]; exact fun both => nomatch both.2), if_neg (fun both => nomatch both.1)] at judged
  rw [judged.retarget_stays nofun]
  exact ⟨w, _, _, judged, ⟨_, rfl⟩, same.trans ⟨rfl, rfl, rfl, rfl, rfl, rfl, rfl, rfl⟩, rfl, start, commit, runup, ref⟩

theorem Leads.works_start {h : HeadId} (is : t.incoming = .head h) (armed : t.state = .armed) (auto : t.preroll = .auto)
    (now : t.effective = .now) (rest : (v.head h).drive.atRest = true) (firm : t.cut = none) (uncut : t.fCut = none) :
    ∃ w y u, Leads i w y u (workTake i p) ∧ (∃ e, y = { x with fEnd := e }) ∧ t.Same u ∧ u.state = .starting ∧ u.fStart = none ∧
      u.commitAt = none ∧ (w.head h).drive = .runup ∧ w.ref = v.ref := by
  obtain ⟨w, y, u, leads, fEnd, same, starting, start, commit, runup, ref⟩ := a.evalTake_starts is armed auto now rest firm uncut
  have unplanned : u.planned w = none := by
    unfold Take.planned
    split
    · exact if_neg fun plan => (show u.state ≠ .armed by rw [starting]; exact nofun) plan.1
    · rfl
  rw [workTake, meetStart_stays leads unplanned, meetCommit_stays leads (fun c at_ => nomatch commit.symm.trans at_)]
  exact ⟨w, y, u, leads, fEnd, same, starting, start, commit, runup, ref⟩

end

end Sys2Proof.Machine
end

section
/-! PROOFS. The activation and the re-forming of a take (R92, R95, R96). -/

namespace Sys2Proof.Machine

/-! ### A record as it is formed -/

theorem Pred.ahead_basis (p : Part) (k : PredKind) (r : Pred) : (r.ahead p k).basis ≠ .reached := by
  unfold Pred.ahead
  dsimp only
  split <;> exact nofun

theorem Pred.ahead_head (p : Part) (k : PredKind) (r : Pred) : (r.ahead p k).head = r.head := by
  unfold Pred.ahead
  dsimp only
  split <;> rfl

theorem formPred_behind {p : Part} {k : PredKind} {h : HeadId} {c : Int} (behind : c ≤ (p.head h).pos.frame) :
    formPred p k h c = ⟨h, c, none, .reached⟩ := if_pos behind

theorem formPred_ahead {p : Part} {k : PredKind} {h : HeadId} {c : Int} (ahead : (p.head h).pos.frame < c) :
    formPred p k h c = Pred.ahead p k ⟨h, c, none, .absent⟩ := if_neg (Int.not_le.2 ahead)

theorem formPred_head (p : Part) (k : PredKind) (h : HeadId) (c : Int) : (formPred p k h c).head = h := by
  by_cases behind : c ≤ (p.head h).pos.frame
  · rw [formPred_behind behind]
  · rw [formPred_ahead (Int.not_le.1 behind), Pred.ahead_head]

/-! ### The take as R95 and R96 form it -/

/-- The take that `formCut` leaves (R95 steps 1, 4, 5, 6). -/
def Take.formed (p : Part) (i : IslandId) (out : Source) (keep : Bool) (t : Take) : Take :=
  let change := chooseChange p t out
  let mode := if keep && t.effective = .now then .now else effectiveMode p.ref.count (p.island i).settings.lead t out change
  let cut := cutRecord p mode out change
  { t with outgoing := some out, changeCue := change, effective := mode, cut := cut,
           fCut := if mode = .atField then some t.field else cut.bind (·.value),
           fStart := if t.state = .armed ∨ mode = .now then none else t.fStart }

theorem formCut_eq (i : IslandId) (out : Source) (keep : Bool) (p : Part) :
    formCut i out keep p = p.modFront i (Take.formed p i out keep) := rfl

/-- The mode a take is formed with (R95 step 5, R96). -/
def Take.formMode (p : Part) (i : IslandId) (out : Source) (keep : Bool) (t : Take) : TakeMode :=
  if keep && t.effective = .now then .now else effectiveMode p.ref.count (p.island i).settings.lead t out (chooseChange p t out)

theorem Take.formed_effective (p : Part) (i : IslandId) (out : Source) (keep : Bool) (t : Take) :
    (t.formed p i out keep).effective = t.formMode p i out keep := rfl

theorem cutRecord_eq_none {p : Part} {m : TakeMode} {out : Source} {change : Option CueRef} (other : m ≠ .atCue) :
    cutRecord p m out change = none := by
  unfold cutRecord
  split
  · exact absurd rfl other
  · rfl

/-- A take formed in another mode than AT_CUE follows no record. -/
theorem Take.formed_uncued {p : Part} {i : IslandId} {out : Source} {keep : Bool} {t : Take} (other : t.formMode p i out keep ≠ .atCue) :
    (t.formed p i out keep).cut = none := cutRecord_eq_none other

theorem Take.formed_now {p : Part} {i : IslandId} {out : Source} {keep : Bool} {t : Take} (now : t.formMode p i out keep = .now) :
    (t.formed p i out keep).cut = none ∧ (t.formed p i out keep).fCut = none ∧ (t.formed p i out keep).fStart = none := by
  have cut : (t.formed p i out keep).cut = none := Take.formed_uncued (by rw [now]; exact nofun)
  have field : (t.formed p i out keep).fCut = none := by
    show (if t.formMode p i out keep = .atField then some t.field else (t.formed p i out keep).cut.bind (·.value)) = none
    rw [now, cut]
    rfl
  exact ⟨cut, field, if_pos (.inr now)⟩

/-- An AT_CUE take is formed where a head goes out and a CHANGEOVER cue is chosen. -/
theorem Take.formed_atCue {p : Part} {i : IslandId} {out : Source} {keep : Bool} {t : Take} (atCue : t.formMode p i out keep = .atCue) :
    ∃ g c, out = .head g ∧ chooseChange p t out = some c ∧ (t.formed p i out keep).cut = some (formPred p .cutOrEnd g c.frame) := by
  have mode := atCue
  unfold Take.formMode at mode
  split at mode
  · cases mode
  · unfold effectiveMode at mode
    split at mode
    · cases mode
    · split at mode
      · rename_i g c change
        refine ⟨g, c, rfl, change, ?_⟩
        show cutRecord p (t.formMode p i (.head g) keep) (.head g) (chooseChange p t (.head g)) = _
        rw [atCue, change]
        rfl
      · cases mode
    · split at mode <;> cases mode

theorem chooseChange_eq (p : Part) (t : Take) (out : Source) :
    chooseChange p t out = (p.cueFor .changeover t.outCue out).map fun c => ⟨c.id, c.frame⟩ := by
  cases out with
  | head h =>
    cases named : t.outCue <;> simp only [chooseChange, named, Part.cueFor, findCue, firstPending] <;> congr 2 <;> funext c <;> simp
  | standby => rfl
  | unknown => rfl

theorem chooseSop_eq (p : Part) (t : Take) : chooseSop p t = (p.cueFor .sop t.inCue t.incoming).map fun c => ⟨c.id, c.frame⟩ := by
  cases is : t.incoming with
  | head h =>
    cases named : t.inCue <;> simp only [chooseSop, Take.head?, is, named, Part.cueFor, findCue, firstPending] <;> congr 2 <;>
      funext c <;> simp
  | standby => simp [chooseSop, Take.head?, is, Part.cueFor]
  | unknown => simp [chooseSop, Take.head?, is, Part.cueFor]

/-- Any mode but AT_CUE is the one R95 gives. -/
theorem Take.modeFor_of_uncued {p : Part} {i : IslandId} {out : Source} {t : Take} (other : t.formMode p i out false ≠ .atCue) :
    p.modeFor i t out = t.formMode p i out false := by
  simp only [Take.formMode, Bool.false_and, Bool.false_eq_true, if_false, effectiveMode, chooseChange_eq] at other ⊢
  unfold Part.modeFor
  cases mode : t.mode with
  | now => rfl
  | atField =>
    simp only [reached, Stamp.diff, decide_eq_true_eq]
    by_cases ahead : 2 ^ 31 ≤ (p.ref.count - t.field).toNat ∧ ((p.island i).settings.lead : Int) ≤ (t.field - p.ref.count).toInt
    · rw [if_pos ahead, if_neg (by omega)]
    · rw [if_neg ahead, if_pos (by omega)]
  | atCue =>
    cases out with
    | standby => rfl
    | unknown => rfl
    | head g =>
      cases found : p.cueFor .changeover t.outCue (.head g) with
      | none => simp only [Option.map_none, Option.any_none, Bool.false_eq_true, if_false]
      | some c => exact absurd (by simp only [mode, found, Option.map_some]) other

/-- AT_CUE holds while the cue lies ahead of the outgoing head (R95 step 5, R99). -/
theorem Take.modeFor_of_cued {p : Part} {i : IslandId} {g : HeadId} {c : CueRef} {t : Take}
    (atCue : t.formMode p i (.head g) false = .atCue) (change : chooseChange p t (.head g) = some c) :
    p.modeFor i t (.head g) = if (p.head g).pos.frame < c.frame then .atCue else .now := by
  have mode : t.mode = .atCue := by
    by_contra other
    simp only [Take.formMode, Bool.false_and, Bool.false_eq_true, if_false, effectiveMode] at atCue
    split at atCue
    · cases atCue
    · rename_i is
      exact other is
    · split at atCue <;> cases atCue
  rw [chooseChange_eq] at change
  obtain ⟨d, found, rfl⟩ := Option.map_eq_some_iff.1 change
  simp only [Part.modeFor, mode, found, Option.any_some, decide_eq_true_eq]

/-- The mode that a take so formed has once it has been found to hold or not (R95 step 5, R96, R99). -/
theorem Take.converted_effective {p : Part} {i : IslandId} {out : Source} {keep : Bool} {t u : Take} {v : Part} {n : Nat}
    (cut : u.cut = (t.formed p i out keep).cut) (mode : u.effective = t.formMode p i out keep) (pending : u.state.pending = true) :
    (u.converted v n).effective = if keep && t.effective = .now then .now else p.modeFor i t out := by
  by_cases kept : keep && t.effective = .now
  · have now : t.formMode p i out keep = .now := if_pos kept
    have stays : u.loses = false := by simp [Take.loses, cut, (Take.formed_now now).1]
    rw [if_pos kept, Take.converted, stays, if_neg nofun, mode, now]
  · have same : t.formMode p i out keep = t.formMode p i out false := by
      rw [Take.formMode, if_neg kept, Take.formMode, Bool.false_and, if_neg nofun]
    rw [if_neg kept]
    by_cases atCue : t.formMode p i out keep = .atCue
    · obtain ⟨g, c, rfl, change, formed⟩ := Take.formed_atCue atCue
      rw [Take.modeFor_of_cued (same.symm.trans atCue) change]
      by_cases ahead : (p.head g).pos.frame < c.frame
      · have stays : u.loses = false := by
          have basis := Pred.ahead_basis p .cutOrEnd ⟨g, c.frame, none, .absent⟩
          rw [formPred_ahead ahead] at formed
          simp [Take.loses, cut, formed, basis]
        rw [if_pos ahead, Take.converted, stays, if_neg nofun, mode, atCue]
      · have lost : u.loses = true := by
          rw [formPred_behind (Int.not_lt.1 ahead)] at formed
          simp [Take.loses, cut, formed, pending]
        rw [if_neg ahead, Take.converted, lost, if_pos rfl]
        split
        · exact (Take.soon_same v n u.turned).effective
        · exact (Take.refreshed_same v n u.turned).effective
    · have stays : u.loses = false := by simp [Take.loses, cut, Take.formed_uncued atCue]
      rw [Take.converted, stays, if_neg nofun, mode, Take.modeFor_of_uncued (same ▸ atCue), same]

/-- A take so formed keeps what it follows, its source not the one that goes out. -/
theorem Take.converted_firm {p : Part} {i : IslandId} {out : Source} {keep : Bool} {t u : Take} {v : Part} {n : Nat}
    (cut : u.cut = (t.formed p i out keep).cut) (other : u.incoming ≠ out) (pending : u.state.pending = true) :
    (u.converted v n).Firm := by
  unfold Take.converted
  by_cases lost : u.loses = true
  · rw [if_pos lost]
    split
    · exact Take.soon_firm v n _
    · exact (Take.Firm.of_none (t := u.turned) rfl).refreshed v n
  · rw [if_neg lost]
    intro r is
    refine ⟨fun basis none => lost ((Take.loses_iff is).2 ⟨pending, basis, none⟩), fun h own same => ?_⟩
    by_cases atCue : t.formMode p i out keep = .atCue
    · obtain ⟨g, c, rfl, -, formed⟩ := Take.formed_atCue atCue
      rw [cut, formed] at is
      cases is
      rw [formPred_head] at same
      exact other (same ▸ own)
    · rw [cut, Take.formed_uncued atCue] at is
      cases is

/-- What a take that has turned NOW, or was formed so, has of its cut. -/
theorem Take.converted_now {p : Part} {i : IslandId} {out : Source} {keep : Bool} {t u : Take} {v : Part} {n : Nat}
    (cut : u.cut = (t.formed p i out keep).cut) (fCut : u.fCut = (t.formed p i out keep).fCut)
    (mode : u.effective = t.formMode p i out keep) (unready : u.state ≠ .ready) (now : (u.converted v n).effective = .now) :
    (u.converted v n).cut = none ∧ (u.converted v n).fCut = none := by
  unfold Take.converted at now ⊢
  by_cases lost : u.loses = true
  · rw [if_pos lost, if_neg unready] at now ⊢
    exact ⟨Take.refreshed_cut .., by rw [Take.refreshed_fCut, Take.figures_fCut n u.turned rfl]; rfl⟩
  · rw [if_neg lost] at now ⊢
    obtain ⟨free, field, -⟩ := Take.formed_now (mode.symm.trans now)
    exact ⟨cut.trans free, fCut.trans field⟩

/-! ### Activation -/

/-- A take at its activation, past its cut: its tolerance, its SOP cue with its record, and its first state (R95, R96, R97). -/
def Take.activated (p : Part) (i : IslandId) (t : Take) : Take :=
  let sop := chooseSop p t
  { t with
    tolerance := some (t.tolerance.getD (p.island i).settings.tolerance)
    sopCue := sop
    sop := match t.head?, sop with
      | some h, some c => some (formPred p .sop h c.frame)
      | _, _ => none
    state := match t.head? with
      | some h => if (p.head h).drive.running then .starting else .armed
      | none => .starting }

/-- A take as its activation forms it, before its figures are computed (R95). -/
def Take.entered (p : Part) (i : IslandId) (out : Source) (t : Take) : Take := (t.formed p i out false).activated p i

/-- The take that TAKE_ACTIVE tells of (R95, R99, R112). -/
def Take.active (p : Part) (i : IslandId) (out : Source) (t : Take) : Take :=
  ((t.entered p i out).refreshed p (p.island i).settings.lead).converted p (p.island i).settings.lead

/-- The TAKE_ACTIVE of a take (R112). -/
def Take.activeItem (t : Take) : EventItem :=
  .takeActive t.tag t.incoming t.outgoing t.effective t.cutBasis (t.sopCue.map (·.id)) (t.changeCue.map (·.id)) t.fCut t.fStart

section
variable {p : Part} {i : IslandId} {out : Source} {t : Take}

theorem Take.entered_state (p : Part) (i : IslandId) (out : Source) (t : Take) : (t.entered p i out).state =
    match t.head? with
    | some h => if (p.head h).drive.running then .starting else .armed
    | none => .starting := rfl

theorem Take.entered_pending (p : Part) (i : IslandId) (out : Source) (t : Take) :
    (t.entered p i out).state = .starting ∨ (t.entered p i out).state = .armed := by
  rw [Take.entered_state]
  split
  · split
    · exact .inl rfl
    · exact .inr rfl
  · exact .inl rfl

theorem Take.active_state (p : Part) (i : IslandId) (out : Source) (t : Take) :
    (t.active p i out).state = (t.entered p i out).state :=
  (Take.converted_state ..).trans (Take.refreshed_state ..)

/-- What the activation gives a take, and what it keeps (R95, R96). -/
structure Take.Activated (p : Part) (i : IslandId) (out : Source) (t u : Take) : Prop where
  tag : u.tag = t.tag
  incoming : u.incoming = t.incoming
  outgoing : u.outgoing = some out
  tolerance : u.tolerance = some (t.tolerance.getD (p.island i).settings.tolerance)
  preroll : u.preroll = t.preroll
  sopCue : u.sopCue = (p.cueFor .sop t.inCue t.incoming).map fun c => ⟨c.id, c.frame⟩
  changeCue : u.changeCue = (p.cueFor .changeover t.outCue out).map fun c => ⟨c.id, c.frame⟩
  effective : u.effective = p.modeFor i t out

theorem Take.converted_same_but (v : Part) (n : Nat) (t : Take) : ({ t with effective := (t.converted v n).effective } : Take).Same
    (t.converted v n) := by
  have turned : ∀ u : Take, t.turned.Same u → ({ t with effective := u.effective } : Take).Same u := fun u same =>
    ⟨same.tag, same.incoming, same.outgoing, same.tolerance, same.preroll, same.sopCue, same.changeCue, rfl⟩
  unfold Take.converted
  split
  · split
    · exact turned _ (Take.soon_same v n _)
    · exact turned _ (Take.refreshed_same v n _)
  · exact .refl t

theorem Take.active_activated (p : Part) (i : IslandId) (out : Source) (t : Take) : t.Activated p i out (t.active p i out) := by
  have pending : ((t.entered p i out).refreshed p (p.island i).settings.lead).state.pending = true := by
    rw [Take.refreshed_state]
    obtain state | state := Take.entered_pending p i out t <;> rw [state] <;> rfl
  have refreshed := Take.refreshed_same p (p.island i).settings.lead (t.entered p i out)
  have converted := Take.converted_same_but p (p.island i).settings.lead ((t.entered p i out).refreshed p (p.island i).settings.lead)
  have same : ({ t.entered p i out with effective := (t.active p i out).effective } : Take).Same (t.active p i out) :=
    Take.Same.trans (u := { (t.entered p i out).refreshed p (p.island i).settings.lead with
      effective := (t.active p i out).effective })
      ⟨refreshed.tag, refreshed.incoming, refreshed.outgoing, refreshed.tolerance, refreshed.preroll, refreshed.sopCue,
        refreshed.changeCue, rfl⟩ converted
  refine ⟨same.tag, same.incoming, same.outgoing, same.tolerance, same.preroll, same.sopCue.trans (chooseSop_eq p t),
    same.changeCue.trans (chooseChange_eq p t out), ?_⟩
  exact Take.converted_effective (keep := false) (Take.refreshed_cut ..) refreshed.effective pending

theorem Take.active_firm (other : t.incoming ≠ out) : (t.active p i out).Firm := by
  refine Take.converted_firm (t := t) (i := i) (out := out) (keep := false) (p := p) (Take.refreshed_cut ..) ?_ ?_
  · rw [Take.refreshed_incoming]
    exact other
  · rw [Take.refreshed_state]
    obtain state | state := Take.entered_pending p i out t <;> rw [state] <;> rfl

/-- The cut of a take so formed is that of its record, where it follows one. -/
theorem Take.formed_figures_fCut (p : Part) (i : IslandId) (out : Source) (keep : Bool) (t : Take) (n : Nat) :
    ((t.formed p i out keep).figures n).fCut = (t.formed p i out keep).fCut := by
  by_cases atCue : t.formMode p i out keep = .atCue
  · obtain ⟨g, c, -, -, cut⟩ := Take.formed_atCue atCue
    have field : (t.formed p i out keep).fCut = (t.formed p i out keep).cut.bind (·.value) := by
      show (if t.formMode p i out keep = .atField then some t.field else (t.formed p i out keep).cut.bind (·.value)) = _
      rw [atCue]
      exact if_neg nofun
    rw [field]
    simp only [Take.figures, cut, Option.bind_some]
  · exact Take.figures_fCut n _ (Take.formed_uncued atCue)

theorem Take.active_now (now : p.modeFor i t out = .now) : (t.active p i out).cut = none ∧ (t.active p i out).fCut = none := by
  have same := Take.active_activated p i out t
  refine Take.converted_now (t := t) (i := i) (out := out) (keep := false) (p := p) (Take.refreshed_cut ..) ?_
    (Take.refreshed_effective ..) ?_ (same.effective.trans now)
  · rw [Take.refreshed_fCut]
    exact Take.formed_figures_fCut p i out false t (p.island i).settings.lead
  · rw [Take.refreshed_state]
    obtain state | state := Take.entered_pending p i out t <;> rw [state] <;> exact nofun

end

/-! ### A take entered -/

/-- The figures of a take that is NOW are recomputed without a word (R81, R97). -/
theorem refreshTake_silent {i : IslandId} {p : Part} (now : ∀ t, (p.island i).active = some t → t.effective = .now) :
    (refreshTake i p).evt = p.evt := by
  unfold refreshTake
  split
  · rfl
  · rename_i t active
    have figured := modFront_active (f := Take.figures (p.island i).settings.lead) active (by exact (Island.active_eq_some.1 active).2)
    have unplanned : ∀ q : Part, (t.figures (p.island i).settings.lead).planned q = none := fun q => by
      unfold Take.planned
      split
      · exact if_neg fun planned => planned.2.2.1 (now t active)
      · rfl
    unfold refreshStart
    rw [figured]
    dsimp only
    rw [unplanned]
    dsimp only
    split <;> rfl

/-- A take turns NOW without a word (R99). -/
theorem convertNow_silent (i : IslandId) (p : Part) : (convertNow i p).evt = p.evt := by
  unfold convertNow
  split
  · rfl
  · rename_i t active
    split
    · rfl
    · split
      · have turned := modFront_active (f := Take.turned) active (by exact (Island.active_eq_some.1 active).2)
        dsimp only
        split
        · have aimed := modFront_active (f := fun t => { t with cut := none, fCut := some ((p.modFront i Take.turned).leadField i) }) turned
            (by exact (Island.active_eq_some.1 active).2)
          exact refreshTake_silent fun u is => by
            rw [Option.some.inj (is.symm.trans aimed)]
            rfl
        · exact refreshTake_silent fun u is => by
            rw [Option.some.inj (is.symm.trans turned)]
            rfl
      · rfl

theorem convertNow_awaits {k : Nat} {es : List Event} {p : Part} (a : Awaits k es p) (i : IslandId) : Awaits k es (convertNow i p) :=
  a.of_evt (convertNow_silent i p)

/-- The part with its front take formed for its outgoing source, before the take's figures are computed (R95). -/
def Part.entering (i : IslandId) (out : Source) (p : Part) : Part :=
  (p.modFront i (Take.formed p i out false)).modFront i (Take.activated p i)

theorem entering_leads {i : IslandId} {p : Part} {x : Island} {t : Take} (out : Source) (island : p.island i = x.led t) :
    Leads i p x (t.entered p i out) (p.entering i out) := by
  refine ⟨?_, ?_, fun h => ?_, ?_⟩
  · rw [Part.entering, modFront_island, modFront_island, island]
    rfl
  · obtain state | state := Take.entered_pending p i out t <;> rw [state] <;> exact nofun
  · rw [Part.entering, modFront_head, modFront_head]
  · exact ((front_taking i _ p).trans (front_taking i _ _) .ref (by simp [Block.taking, Block.posting])).symm

theorem Island.led_settings {i : IslandId} {p : Part} {x : Island} {t : Take} (island : p.island i = x.led t) :
    x.settings = (p.island i).settings := by
  rw [island]
  rfl

theorem entered_leads {i : IslandId} {p : Part} {x : Island} {t : Take} (out : Source) (island : p.island i = x.led t) :
    Leads i p x (t.active p i out) (convertNow i (refreshTake i (p.entering i out))) := by
  have converted := (entering_leads out island).refresh.convertNow
  rwa [Island.led_settings island] at converted

theorem enterTake_eq {i : IslandId} {p : Part} {x : Island} {t : Take} (out : Source) (island : p.island i = x.led t) :
    enterTake i out p =
      workTake i (post (.island i) (t.active p i out).activeItem (convertNow i (refreshTake i (p.entering i out)))) := by
  have active := (entered_leads out island).active
  unfold enterTake
  rw [formCut_eq]
  dsimp only
  split <;> rename_i found
  · exact absurd (active.symm.trans found) nofun
  · rw [Option.some.inj (found.symm.trans active)]
    rfl

/-- The activation of the front take, past the steps that can end it: TAKE_ACTIVE, and the take's own work behind it (R95, R112). -/
theorem enterTake_works {i : IslandId} {p : Part} {x : Island} {t : Take} (out : Source) (island : p.island i = x.led t) :
    ∃ q, Leads i p x (t.active p i out) q ∧ enterTake i out p = workTake i (post (.island i) (t.active p i out).activeItem q) ∧
      ∀ k es, Awaits k es p → Awaits (k + 1) es q :=
  ⟨_, entered_leads out island, enterTake_eq out island, fun _ _ a => convertNow_awaits (refreshTake_awaits (a.of_evt (by exact rfl)) i) i⟩

/-! ### The activation of a list -/

/-- `p` stands as `v` in what the activation of a take of island `i` reads of it. -/
structure Views (i : IslandId) (v p : Part) : Prop where
  heads : ∀ h, p.head h = v.head h
  ref : p.ref = v.ref
  settings : (p.island i).settings = (v.island i).settings

/-- What comes after the scheduler's work on island `i`: the island, the heads and the count stand, and what waits is still told. -/
structure Closes (i : IslandId) (p q : Part) : Prop where
  island : q.island i = p.island i
  heads : ∀ h, q.head h = p.head h
  ref : q.ref = p.ref
  told : ∀ es, Holds es p → Holds es q

theorem Closes.refl (i : IslandId) (p : Part) : Closes i p p := ⟨rfl, fun _ => rfl, rfl, fun _ => id⟩

section
variable {i : IslandId} {v p : Part}

theorem Views.cueFor (a : Views i v p) (k : CueKind) (n : Option Nat) (s : Source) : p.cueFor k n s = v.cueFor k n s := by
  cases s with
  | head h => simp only [Part.cueFor, a.heads]
  | standby => rfl
  | unknown => rfl

theorem Views.modeFor (a : Views i v p) (t : Take) (s : Source) : p.modeFor i t s = v.modeFor i t s := by
  unfold Part.modeFor
  rw [a.ref, a.settings, a.cueFor]
  split <;> (try rfl)
  rw [a.heads]

end

theorem activate_dead {n : Nat} {i : IslandId} {p : Part} {t : Take} {rest : List Take} (takes : (p.island i).takes = t :: rest)
    (queued : t.state = .queued) (free : (p.island i).confirm = none)
    (dead : t.incoming = (p.island i).onAir ∨ ∃ h, t.incoming = .head h ∧ (p.head h).drive = .fault) :
    activate (n + 1) i p = activate n i (endFront i .failed (if t.incoming = (p.island i).onAir then .sameSource else .incomingFault)
      (p.modFront i fun t => { t with outgoing := some (p.island i).onAir })) := by
  have unawaited : ¬ (t.state ≠ .queued ∨ p.awaits i = true) := by
    simp [Part.awaits, -Part.island_eq, free, queued]
  conv_lhs => unfold activate
  simp only [takes]
  rw [if_neg unawaited]
  by_cases same : t.incoming = (p.island i).onAir
  · rw [if_pos same, if_pos same]
  · obtain ⟨h, is, fault⟩ := dead.resolve_left same
    have faulty : (t.head?.any fun h => decide ((p.head h).drive = .fault)) = true := by
      simp only [Take.head?, is, Option.any_some, fault, decide_true]
    rw [if_neg same, if_neg same, if_pos faulty]

theorem activate_enters {n : Nat} {i : IslandId} {p : Part} {t : Take} {rest : List Take} (takes : (p.island i).takes = t :: rest)
    (queued : t.state = .queued) (free : (p.island i).confirm = none)
    (live : ¬ (t.incoming = (p.island i).onAir ∨ ∃ h, t.incoming = .head h ∧ (p.head h).drive = .fault)) :
    activate (n + 1) i p = enterTake i (p.island i).onAir p := by
  have unawaited : ¬ (t.state ≠ .queued ∨ p.awaits i = true) := by
    simp [Part.awaits, -Part.island_eq, free, queued]
  have sound : ¬ (t.head?.any fun h => decide ((p.head h).drive = .fault)) = true := fun fault => by
    cases is : t.head? with
    | none => simp [is] at fault
    | some h => exact live (.inr ⟨h, Take.incoming_of_head? is, by simpa [is, -Part.head_eq] using fault⟩)
  conv_lhs => unfold activate
  simp only [takes]
  rw [if_neg unawaited, if_neg fun same => live (.inl same), if_neg sound]

theorem Take.active_queued_state {p : Part} {i : IslandId} {out : Source} {t : Take} :
    (t.head? = none → (t.active p i out).state = .starting) ∧
    ∀ h, t.head? = some h → (p.head h).drive.atRest = true → (t.active p i out).state = .armed := by
  rw [Take.active_state, Take.entered_state]
  refine ⟨fun none => by rw [none], fun h is rest => ?_⟩
  rw [is]
  refine if_neg ?_
  revert rest
  generalize (p.head h).drive = d
  cases d <;> decide

/-- What an activated take that is NOW does at once (R97, R98, R99). -/
theorem enterTake_worksNow {i : IslandId} {v p q : Part} {t u : Take} {rest : List Take} (view : Views i v p)
    (takes : (p.island i).takes = t :: rest) (free : (p.island i).confirm = none) {out : Source}
    (island : q.island i = (enterTake i out p).island i) (heads : ∀ h, q.head h = (enterTake i out p).head h)
    (active : (q.island i).active = some u) (now : v.modeFor i t out = .now) : WorksNow i t u v q := by
  have led : p.island i = (p.island i).led t := by
    rw [Island.led, takes]
    exact (congrArg (fun l => { p.island i with takes := l }) takes.symm).symm
  obtain ⟨r, leads, works, -⟩ := enterTake_works out led
  have posted := leads.post (.island i) (t.active p i out).activeItem
  have given := Take.active_activated p i out t
  have isNow : (t.active p i out).effective = .now := by
    rw [given.effective, view.modeFor]
    exact now
  obtain ⟨cut, fCut⟩ := Take.active_now (t := t) (p := p) (i := i) (out := out) (by rw [view.modeFor]; exact now)
  rw [works] at island heads
  refine ⟨fun standby _ => ?_, fun h is _ auto still => ?_⟩
  · obtain ⟨w, -, committed, done⟩ := posted.works_standby (given.incoming.trans standby) isNow cut free
      (.inl (Take.active_queued_state.1 (by simp only [Take.head?, standby])))
    rw [island, done.active] at active
    cases active
    refine ⟨committed, ?_⟩
    rw [island, done.island]
    show (Island.standby (p.island i) p).confirm = _
    rw [Island.standby, view.settings, view.ref]
    rfl
  · have rest' : (p.head h).drive.atRest = true := view.heads h ▸ still
    obtain ⟨w, y, w', done, -, -, starting, start, -, runup, -⟩ := posted.works_start (given.incoming.trans is)
      (Take.active_queued_state.2 h (by simp only [Take.head?, is]) rest') (given.preroll.trans auto) isNow rest' cut fCut
    rw [island, done.active] at active
    cases active
    exact ⟨starting, start, by rw [heads, done.heads]; exact runup⟩

/-- A take that its activation ends gives way to the next, told by TAKE_END (R95 steps 2 and 3). -/
theorem endFailed {i : IslandId} {v p : Part} {t : Take} {rest : List Take} (view : Views i v p)
    (takes : (p.island i).takes = t :: rest) (out : Source) (r : Reason) :
    let p' := endFront i .failed r (p.modFront i fun t => { t with outgoing := some out })
    Views i v p' ∧ p'.island i = { p.island i with takes := rest } ∧ ∀ k es, Awaits k es p → k < Config.maxEvents →
      Awaits (k + 1) (es ++ [⟨.island i, v.ref.count, .takeEnd t.tag .failed r t.incoming (some out) t.fCut t.error t.slip t.lost⟩])
        p' := by
  intro p'
  have marked : (p.modFront i fun t => { t with outgoing := some out }).island i =
      { p.island i with takes := { t with outgoing := some out } :: rest } := by
    rw [modFront_island, Island.modFront_cons takes]
  have ended : p'.island i = { p.island i with takes := rest } := by
    rw [endFront_island (congrArg Island.takes marked) .failed r, marked]
  have frame := (front_taking i (fun t => { t with outgoing := some out }) p).trans (endFront_frame i .failed r _)
  refine ⟨⟨fun h => (frame (.head h) (by simp [Block.taking, Block.posting])).symm.trans (view.heads h),
    (frame .ref (by simp [Block.taking, Block.posting])).symm.trans view.ref, by rw [ended]; exact view.settings⟩, ended,
    fun k es a free => ?_⟩
  have takes' : ((p.modFront i fun t => { t with outgoing := some out }).island i).takes = { t with outgoing := some out } :: rest := by
    rw [marked]
  show Awaits _ _ (endFront i .failed r (p.modFront i fun t => { t with outgoing := some out }))
  simp only [endFront, takes']
  rw [← view.ref]
  exact (a.of_evt (q := (p.modFront i fun t => { t with outgoing := some out }).modIsland i
    fun x => { x with takes := rest }) rfl).post (.island i) (Take.endItem { t with outgoing := some out } .failed r) free

theorem Closes.tells_last {i : IslandId} {p q : Part} {es : List Event} {e : EventItem} {n : Stamp} (c : Closes i p q)
    (h : Holds (es ++ [⟨.island i, n, e⟩]) p) (ref : p.ref.count = n) : q.tells (.island i) [e] := by
  have final := c.told _ h
  refine Holds.tells (es := [⟨.island i, n, e⟩]) ⟨final.1, (List.sublist_append_right _ _).trans final.2⟩ ?_
  rw [c.ref, ref]
  rfl

/-- The activation of the takes of an island with no move awaiting (R92, R95, R96). -/
theorem activate_activates {i : IslandId} {v : Part} (n : Nat) : ∀ {list : List Take} {p q : Part}, Views i v p →
    (p.island i).takes = list → (∀ t ∈ list, t.state = .queued) → list.length ≤ n → (p.island i).confirm = none →
    (v.hears i → ∃ k es, Awaits k es p ∧ k + list.length < Config.maxEvents) → Closes i (activate n i p) q →
    Activates i (p.island i).onAir v q list := by
  induction n with
  | zero =>
    intro list p q _ takes _ few _ _ closes
    cases List.length_eq_zero_iff.1 (Nat.le_zero.1 few)
    rw [activate_empty takes] at closes
    exact (congrArg Island.takes closes.island).trans takes
  | succ n ih =>
    intro list p q view takes queued few free heard closes
    have ref : ∀ r : Part, r.ref = v.ref → (activate n i r).ref.count = v.ref.count := fun r same => by
      rw [← (activate_sched n i r).frame .ref (by simp [Block.scheduling, Block.alarming, Block.posting]), same]
    cases list with
    | nil =>
      rw [activate_empty takes] at closes
      exact (congrArg Island.takes closes.island).trans takes
    | cons t rest =>
      have waits := queued t (List.mem_cons_self ..)
      refine ⟨fun dead => ?_, fun live => ?_⟩
      · have dead' : t.incoming = (p.island i).onAir ∨ ∃ h, t.incoming = .head h ∧ (p.head h).drive = .fault :=
          dead.imp_right fun ⟨h, is, fault⟩ => ⟨h, is, by rw [view.heads]; exact fault⟩
        rw [activate_dead takes waits free dead'] at closes
        obtain ⟨view', ended, told⟩ := endFailed view takes (p.island i).onAir
          (if t.incoming = (p.island i).onAir then .sameSource else .incomingFault)
        generalize endFront i .failed _ _ = p' at closes ended view' told
        have onAir : (p'.island i).onAir = (p.island i).onAir := by rw [ended]
        have awaits : v.hears i → ∃ k es, Awaits (k + 1) (es ++ [⟨.island i, v.ref.count, .takeEnd t.tag .failed
            (if t.incoming = (p.island i).onAir then .sameSource else .incomingFault) t.incoming (some (p.island i).onAir) t.fCut
            t.error t.slip t.lost⟩]) p' ∧ k + 1 + rest.length < Config.maxEvents := fun h => by
          obtain ⟨k, es, a, room⟩ := heard h
          rw [List.length_cons] at room
          exact ⟨k, es, told k es a (by omega), by omega⟩
        refine ⟨onAir ▸ ih view' (by rw [ended]) (fun u m => queued u (List.mem_cons_of_mem _ m)) (Nat.le_of_succ_le_succ few)
          (by rw [ended]; exact free) (fun h => ?_) closes, fun h => ?_⟩
        · obtain ⟨k, es, a, room⟩ := awaits h
          exact ⟨_, _, a, room⟩
        · obtain ⟨k, es, a, -⟩ := awaits h
          exact closes.tells_last (activate_keeps (holds_scheduler _) n i a.holds) (ref _ view'.ref)
      · have live' : ¬ (t.incoming = (p.island i).onAir ∨ ∃ h, t.incoming = .head h ∧ (p.head h).drive = .fault) := fun dead =>
          live (dead.imp_right fun ⟨h, is, fault⟩ => ⟨h, is, by rw [← view.heads]; exact fault⟩)
        rw [activate_enters takes waits free live'] at closes
        have led : p.island i = (p.island i).led t := by
          rw [Island.led, takes]
          exact (congrArg (fun l => { p.island i with takes := l }) takes.symm).symm
        obtain ⟨r, leads, works, awaits⟩ := enterTake_works (p.island i).onAir led
        have given := Take.active_activated p i (p.island i).onAir t
        have tail : (p.island i).takes.tail = rest := by rw [takes, List.tail_cons]
        have goes : Goes i (t.active p i (p.island i).onAir) rest (enterTake i (p.island i).onAir p) := by
          rw [works]
          exact Goes.workTake (Leads.goes (leads.post _ _) (.refl _) (Take.active_firm fun same => live' (.inl same)) tail)
        obtain ⟨u, active, same, -, tail'⟩ := goes
        rw [← closes.island] at active tail'
        have mode : u.effective = v.modeFor i t (p.island i).onAir := by rw [same.effective, given.effective, view.modeFor]
        refine ⟨tail', u, active, same.tag.trans given.tag, same.incoming.trans given.incoming, same.outgoing.trans given.outgoing, ?_,
          ?_, ?_, mode, fun now => ?_, fun h => ?_⟩
        · rw [same.tolerance, given.tolerance, view.settings]
        · rw [same.sopCue, given.sopCue, view.cueFor]
        · rw [same.changeCue, given.changeCue, view.cueFor]
        · exact enterTake_worksNow view takes free closes.island closes.heads active (mode.symm.trans now)
        · obtain ⟨k, es, a, room⟩ := heard h
          have posted := (awaits k es a).post (.island i) (t.active p i (p.island i).onAir).activeItem
            (by rw [List.length_cons] at room; omega)
          have final := workTake_keeps (holds_scheduler _) i posted.holds
          rw [← works] at final
          have count : (enterTake i (p.island i).onAir p).ref.count = r.ref.count := by
            rw [← activate_enters (n := n) takes waits free live', leads.ref,
              ← (activate_sched (n + 1) i p).frame .ref (by simp [Block.scheduling, Block.alarming, Block.posting])]
          have told := closes.tells_last final count
          rw [Take.activeItem, given.tag, given.incoming, given.outgoing, given.sopCue, given.changeCue, view.cueFor, view.cueFor,
            Option.map_map, Option.map_map] at told
          rw [same.effective]
          exact ⟨_, _, _, told⟩

end Sys2Proof.Machine
end

section
/-! PROOFS. The commands that end a take: CANCEL_TAKE and ABORT_TAKE (R94, R110). -/

namespace Sys2Proof.Machine

/-! ### The takes of a tag -/

theorem dropQueued_eq (tag : Word) (l : List Take) : dropQueued tag l = l.eraseP fun t => decide (t.state = .queued ∧ t.tag = tag) := by
  induction l with
  | nil => rfl
  | cons t rest ih =>
    unfold dropQueued
    by_cases mine : t.state = .queued ∧ t.tag = tag
    · rw [if_pos mine, List.eraseP_cons_of_pos (by simpa using mine)]
    · rw [if_neg mine, List.eraseP_cons_of_neg (by simpa using mine), ih]

section
variable {s : State} {w tag : Word} {i : IslandId} (named : readIsland w = some i)
include named

theorem cancelTake_remote (remote : (s.part.island i).authority = .remote) : cancelTakeCommand w tag s.part =
    match (s.part.island i).takes.find? fun t => decide (t.state = .queued ∧ t.tag = tag) with
    | some t => (post (.island i) (t.endItem .cancelled .command)
        (s.part.modIsland i fun x => { x with takes := dropQueued tag x.takes }), .ok)
    | none => if (s.part.island i).active.any fun t => t.tag = tag then (s.part, .active) else (s.part, .notFound) :=
  (onIsland_some _ _ named).trans (unlessPanel_remote _ remote)

theorem abortTake_remote (remote : (s.part.island i).authority = .remote) : abortTakeCommand w s.part =
    match (s.part.island i).active with
    | none => (s.part, .notFound)
    | some t => if t.state = .committed then (s.part, .tooLate) else (endActive i .aborted .command s.part, .ok) :=
  (onIsland_some _ _ named).trans (unlessPanel_remote _ remote)

end

/-- A part whose status is set stands as it was for the scheduler. -/
theorem Closes.status (i : IslandId) (p : Part) (c : Option Status) : Closes i p { p with cmd := { p.cmd with status := c } } :=
  ⟨rfl, fun _ => rfl, rfl, fun _ => id⟩

/-- A take ended by ABORT_TAKE: the next is activated (R92, R110). -/
theorem endActive_activates {i : IslandId} {p q : Part} {t : Take} (active : (p.island i).active = some t)
    (free : (p.island i).confirm = none) (queued : ∀ u ∈ (p.island i).takes.tail, u.state = .queued) (o : TakeOutcome) (r : Reason)
    (closes : Closes i (endActive i o r p) q) : Activates i (p.island i).onAir p q (p.island i).takes.tail := by
  obtain ⟨front, -⟩ := Island.active_eq_some.1 active
  have takes : (p.island i).takes = t :: (p.island i).takes.tail := (List.cons_head?_tail front).symm
  have ended := endFront_island takes o r
  have frame := endFront_frame i o r p
  have view : Views i p (endFront i o r p) :=
    ⟨fun h => (frame (.head h) (by simp [Block.taking, Block.posting])).symm,
      (frame .ref (by simp [Block.taking, Block.posting])).symm, by rw [ended]⟩
  have onAir : ((endFront i o r p).island i).onAir = (p.island i).onAir := by rw [ended]
  rw [← onAir]
  refine activate_activates _ view (by rw [ended]) queued (by rw [ended]) (by rw [ended]; exact free) (fun h => ?_) closes
  refine ⟨1, _, endFront_awaits h.1.awaits active (by decide) o r, ?_⟩
  have six : (p.island i).takes.length ≤ 6 := h.2
  rw [takes, List.length_cons] at six
  show 1 + (p.island i).takes.tail.length < 16
  omega

/-- Settles O35: CANCEL_TAKE removes the first take found, ABORT_TAKE ends the front and activates the rest. -/
theorem cancelAndAbortTake : Obligations.CancelAndAbortTake := by
  intro s w tag running
  have refusesCancel : ∀ {st}, cancelTakeCommand w tag s.part = (s.part, st) → Refuses (.cancelTake w tag) s st :=
    fun e => .of_commanded (f := cancelTakeCommand w tag) rfl running e
  have refusesAbort : ∀ {st}, abortTakeCommand w s.part = (s.part, st) → Refuses (.abortTake w) s st :=
    fun e => .of_commanded (f := abortTakeCommand w) rfl running e
  refine ⟨fun bad => ⟨refusesCancel (onIsland_none _ _ bad), refusesAbort (onIsland_none _ _ bad)⟩, ?_⟩
  intro i named x waits
  refine ⟨fun panel => ⟨refusesCancel ((onIsland_some _ _ named).trans (unlessPanel_local _ panel)),
    refusesAbort ((onIsland_some _ _ named).trans (unlessPanel_local _ panel))⟩, fun remote some => ?_, fun remote none_ mine => ?_,
    fun remote none_ other => ?_, fun remote idle => ?_, fun t active remote => ⟨fun committed => ?_, fun open_ => ?_⟩⟩
  · obtain ⟨t, found⟩ := Option.isSome_iff_exists.1 (show (x.takes.find? waits).isSome = true by
      rw [List.find?_isSome]
      exact List.any_eq_true.1 some)
    have does : cancelTakeCommand w tag s.part = (post (.island i) (t.endItem .cancelled .command)
        (s.part.modIsland i fun x => { x with takes := dropQueued tag x.takes }), .ok) := by
      rw [cancelTake_remote named remote, show (s.part.island i).takes.find? _ = Option.some t from found]
    have told : s.part.listens → Holds [⟨.island i, s.part.ref.count, t.endItem .cancelled .command⟩]
        (post (.island i) (t.endItem .cancelled .command) (s.part.modIsland i fun x => { x with takes := dropQueued tag x.takes })) :=
      fun l => ((l.awaits.of_evt (q := s.part.modIsland i fun x => { x with takes := dropQueued tag x.takes }) rfl).post (.island i)
        (t.endItem .cancelled .command) (by decide)).holds
    have island := (post_island (.island i) (t.endItem .cancelled .command)
      (s.part.modIsland i fun x => { x with takes := dropQueued tag x.takes }) i).trans (modIsland_island i _ s.part)
    have frame : ChangesOnly (Block.taking i) s.part (post (.island i) (t.endItem .cancelled .command)
        (s.part.modIsland i fun x => { x with takes := dropQueued tag x.takes })) :=
      ((modIsland_frame i _ s.part).mono (by simp [Block.taking])).trans (post_taking i _ _ _)
    generalize post (.island i) (t.endItem .cancelled .command)
      (s.part.modIsland i fun x => { x with takes := dropQueued tag x.takes }) = q at does told island frame
    refine .of_commanded (f := cancelTakeCommand w tag) rfl running does ⟨?_, fun u is l => ?_, frame.answered _⟩
    · exact island.trans (by rw [dropQueued_eq])
    · cases found.symm.trans is
      exact (told l).tells (by rw [← frame .ref (by simp [Block.taking, Block.posting])]; rfl)
  · have found : x.takes.find? waits = none := by
      rw [List.find?_eq_none]
      exact fun u m is => absurd (List.any_eq_true.2 ⟨u, m, is⟩) (by rw [none_]; exact nofun)
    have tagged : (x.active.any fun t => decide (t.tag = tag)) = true := by
      obtain ⟨t, active, is⟩ := Option.map_eq_some_iff.1 mine
      simp [active, is]
    refine refusesCancel ?_
    rw [cancelTake_remote named remote, show (s.part.island i).takes.find? _ = Option.none from found]
    exact if_pos tagged
  · have found : x.takes.find? waits = none := by
      rw [List.find?_eq_none]
      exact fun u m is => absurd (List.any_eq_true.2 ⟨u, m, is⟩) (by rw [none_]; exact nofun)
    have untagged : ¬ (x.active.any fun t => decide (t.tag = tag)) = true := fun is => by
      cases active : x.active with
      | none => simp [active] at is
      | some t => exact other (by simpa [active] using is)
    refine refusesCancel ?_
    rw [cancelTake_remote named remote, show (s.part.island i).takes.find? _ = Option.none from found]
    exact if_neg untagged
  · refine refusesAbort ?_
    rw [abortTake_remote named remote, show (s.part.island i).active = none from idle]
  · refine refusesAbort ?_
    rw [abortTake_remote named remote, show (s.part.island i).active = some t from active]
    exact if_pos committed
  · have does : abortTakeCommand w s.part = (endActive i .aborted .command s.part, .ok) := by
      rw [abortTake_remote named remote, show (s.part.island i).active = some t from active]
      exact if_neg open_
    obtain ⟨front, -⟩ := Island.active_eq_some.1 active
    have takes : x.takes = t :: x.takes.tail := (List.cons_head?_tail front).symm
    have ended := endFront_island takes .aborted .command
    have sched := endActive_sched i .aborted .command s.part
    have next := fun free queued q => endActive_activates (q := q) active free queued .aborted .command
    have told : s.part.listens → Holds [⟨.island i, s.part.ref.count, t.endItem .aborted .command⟩]
        (endActive i .aborted .command s.part) := fun l =>
      activateFront_keeps (holds_scheduler _) i (endFront_awaits l.awaits active (by decide) .aborted .command).holds
    have alone : x.takes.length = 1 → endActive i .aborted .command s.part = endFront i .aborted .command s.part := fun one => by
      rw [takes, List.length_cons] at one
      exact activate_empty (by rw [ended]; exact List.length_eq_zero_iff.1 (by omega : x.takes.tail.length = 0)) _
    have stays : x.confirm.isSome = true → endActive i .aborted .command s.part = endFront i .aborted .command s.part := fun awaits =>
      activate_awaits (by rw [Part.awaits, ended]; exact awaits) _
    have frame := endFront_frame i .aborted .command s.part
    generalize endActive i .aborted .command s.part = q at does sched next told alone stays
    refine .of_commanded (f := abortTakeCommand w) rfl running does ⟨fun one => ⟨?_, ?_⟩, fun awaits => ?_, fun free queued =>
      next free queued _ (.status i q _), fun l => ?_, sched.heads, sched.frame.answered _⟩
    · rw [takes, List.length_cons] at one
      show q.island i = _
      rw [alone (by rw [takes, List.length_cons]; exact one), ended, List.length_eq_zero_iff.1 (by omega : x.takes.tail.length = 0)]
    · rw [alone one]
      exact frame.answered _
    · show q.island i = _
      rw [stays awaits, ended]
    · exact (told l).tells (by rw [← sched.frame .ref (by simp [Block.scheduling, Block.alarming, Block.posting])]; rfl)

end Sys2Proof.Machine
end

section
/-! PROOFS. The takes of an island after a confirmation has ended (R92, R96, R102, R103). -/

namespace Sys2Proof.Machine

/-! ### A commit field once met -/

theorem commitDue_of_awaits {i : IslandId} {p : Part} (awaits : p.awaits i = true) : commitDue i p = false := by
  simp only [commitDue, awaits, Bool.not_true, Bool.false_and]

theorem commitDue_of_idle {i : IslandId} {p : Part} (idle : (p.island i).active = none) : commitDue i p = false := by
  simp only [commitDue, idle, Bool.and_false]

theorem Leads.undue {i : IslandId} {v : Part} {x : Island} {t : Take} {p : Part} (a : Leads i v x t p)
    (no : ∀ c, t.commitAt = some c → reached v.ref.count c = false) : commitDue i p = false := by
  simp only [commitDue, a.active, a.ref]
  cases is : t.commitAt with
  | none => simp
  | some c => simp [no c is]

/-- A HELD take, evaluated with no move awaiting, has no commit field left to meet. -/
theorem Leads.retarget_undue {i : IslandId} {v : Part} {x : Island} {t : Take} {p : Part} (a : Leads i v x t p)
    (held : t.state = .held) (free : x.confirm = none) : commitDue i (retarget i p) = false := by
  cases sop : t.heldSop v with
  | none => exact (a.retarget_waits held sop).undue (fun c is => nomatch is)
  | some f =>
    cases due : reached v.ref.count (Stamp.minus f x.settings.lead) with
    | false =>
      refine (a.retarget_follows held sop due).undue fun c is => ?_
      rw [Take.refreshed_commitAt] at is
      have same : c = Stamp.minus f x.settings.lead := by
        have held' : (t.aimed f (Stamp.minus f x.settings.lead)).state = .held := held
        simp only [Take.figures, held'] at is
        exact (Option.some.inj is).symm
      exact same ▸ due
    | true =>
      obtain ⟨q, aimed, commits⟩ := a.retarget_commits held sop due free
      rw [commits]
      exact commitDue_of_awaits ((aimed.commitTake .slipped none rfl).awaits.trans rfl)

theorem takeCommitField_undue {i : IslandId} {p : Part} (due : commitDue i p = true) : commitDue i (takeCommitField i p) = false := by
  cases active : (p.island i).active with
  | none => exact absurd (commitDue_of_idle active) (by rw [due]; exact nofun)
  | some t =>
    have a := leads_of_active active
    have free : (p.island i).confirm = none := by
      by_contra awaits
      exact absurd (commitDue_of_awaits (p := p) (i := i) (Option.isSome_iff_ne_none.2 awaits)) (by rw [due]; exact nofun)
    obtain ⟨q, b, -, -, cuts, holds⟩ := a.recut
    cases decides : (t.recut p (p.island i)).decide (p.island i) with
    | cut o l =>
      rw [cuts o l decides]
      exact commitDue_of_awaits ((b.commitTake o l rfl).awaits.trans rfl)
    | hold =>
      rw [holds decides]
      by_cases starts : ∃ h, (t.recut p (p.island i)).head? = some h ∧ (t.recut p (p.island i)).preroll = .auto ∧
          (p.head h).drive.atRest = true
      · obtain ⟨h, is, auto, rest⟩ := starts
        rw [b.enterHeld_auto is auto]
        have held := b.modFront (f := Take.hold) nofun
        obtain ⟨-, -, -, requested⟩ := held.startRequest rest
        rw [requested.evalTake_held (Take.refreshed_state ..)]
        exact requested.retarget_undue (Take.refreshed_state ..) free
      · obtain ⟨q', held, enters⟩ := b.enterHeld_unstarted fun h is auto => by
          by_contra stands
          exact starts ⟨h, is, auto, by simpa using stands⟩
        rw [enters]
        exact held.retarget_undue rfl free

/-- What has met its commit field has none to meet again. -/
theorem meetCommit_twice (i : IslandId) (p : Part) : meetCommit i (meetCommit i p) = meetCommit i p := by
  by_cases due : commitDue i p = true
  · rw [show meetCommit i p = takeCommitField i p from if_pos due, meetCommit]
    exact if_neg (by rw [takeCommitField_undue due]; exact nofun)
  · rw [show meetCommit i p = p from if_neg due, show meetCommit i p = p from if_neg due]

theorem workTake_settled (i : IslandId) (p : Part) : meetCommit i (workTake i p) = workTake i p := meetCommit_twice i _

theorem meetCommit_undue {i : IslandId} {p : Part} (undue : commitDue i p = false) : meetCommit i p = p := by
  rw [meetCommit, undue]
  exact if_neg nofun

/-- An activation leaves no commit field to meet. -/
theorem activate_settled (n : Nat) {i : IslandId} : ∀ {p : Part}, (∀ t ∈ (p.island i).takes, t.state = .queued) →
    meetCommit i (activate n i p) = activate n i p := by
  have idle : ∀ {p : Part}, (∀ t ∈ (p.island i).takes, t.state = .queued) → meetCommit i p = p := fun {p} queued => by
    refine meetCommit_undue (commitDue_of_idle ?_)
    cases active : (p.island i).active with
    | none => rfl
    | some t =>
      obtain ⟨front, past⟩ := Island.active_eq_some.1 active
      exact absurd (queued t (List.mem_of_head? front)) past
  induction n with
  | zero => exact idle
  | succ n ih =>
    intro p queued
    by_cases awaits : p.awaits i = true
    · rw [activate_awaits awaits]
      exact idle queued
    · have free : (p.island i).confirm = none := by simpa [Part.awaits, -Part.island_eq] using awaits
      cases takes : (p.island i).takes with
      | nil =>
        rw [activate_empty takes]
        exact idle queued
      | cons t rest =>
        have waits := queued t (by rw [takes]; exact List.mem_cons_self ..)
        by_cases dead : t.incoming = (p.island i).onAir ∨ ∃ h, t.incoming = .head h ∧ (p.head h).drive = .fault
        · rw [activate_dead takes waits free dead]
          refine ih fun u m => queued u ?_
          have set : ((p.modFront i fun t => { t with outgoing := some (p.island i).onAir }).island i).takes =
              { t with outgoing := some (p.island i).onAir } :: rest := by
            rw [modFront_island, Island.modFront_cons takes]
          rw [endFront_island set] at m
          rw [takes]
          exact List.mem_cons_of_mem _ m
        · rw [activate_enters takes waits free dead]
          have led : p.island i = (p.island i).led t := by
            rw [Island.led, takes]
            exact (congrArg (fun l => { p.island i with takes := l }) takes.symm).symm
          obtain ⟨r, -, works, -⟩ := enterTake_works (p.island i).onAir led
          rw [works]
          exact workTake_settled i _

/-! ### A take re-formed -/

/-- The take that `reform` leaves to its own work, its cut found to hold or not (R96, R99). -/
def Take.reformed (p : Part) (i : IslandId) (out : Source) (t : Take) : Take :=
  (if t.state = .ready ∧ (t.formed p i out true).effective = .now then (t.formed p i out true).soon p (p.island i).settings.lead
    else (t.formed p i out true).refreshed p (p.island i).settings.lead).converted p (p.island i).settings.lead

/-- What a re-forming gives a take, and what it keeps (R96). -/
structure Take.Reformed (p : Part) (i : IslandId) (out : Source) (t u : Take) : Prop where
  tag : u.tag = t.tag
  incoming : u.incoming = t.incoming
  outgoing : u.outgoing = some out
  preroll : u.preroll = t.preroll
  sopCue : u.sopCue = t.sopCue
  changeCue : u.changeCue = (p.cueFor .changeover t.outCue out).map fun c => ⟨c.id, c.frame⟩
  effective : u.effective = if t.effective = .now then .now else p.modeFor i t out
  state : u.state = t.state

section
variable {p : Part} {i : IslandId} {out : Source} {t : Take}

/-- The take as `reform` computes its figures, before R99 is looked at. -/
theorem Take.reforming (p : Part) (i : IslandId) (out : Source) (t : Take) :
    let n := (p.island i).settings.lead
    let u := if t.state = .ready ∧ (t.formed p i out true).effective = .now then (t.formed p i out true).soon p n
      else (t.formed p i out true).refreshed p n
    (t.formed p i out true).Same u ∧ u.cut = (t.formed p i out true).cut ∧ u.state = t.state ∧
      (t.state ≠ .ready → u.fCut = (t.formed p i out true).fCut) := by
  intro n u
  by_cases now : t.state = .ready ∧ (t.formed p i out true).effective = .now
  · rw [show u = (t.formed p i out true).soon p n from if_pos now]
    exact ⟨Take.soon_same .., (Take.refreshed_cut ..).trans (Take.formed_now now.2).1.symm, Take.refreshed_state ..,
      fun unready => absurd now.1 unready⟩
  · rw [show u = (t.formed p i out true).refreshed p n from if_neg now]
    exact ⟨Take.refreshed_same .., Take.refreshed_cut .., Take.refreshed_state ..,
      fun _ => (Take.refreshed_fCut ..).trans (Take.formed_figures_fCut p i out true t n)⟩

theorem Take.reformed_reformed (pending : t.state.pending = true) : t.Reformed p i out (t.reformed p i out) := by
  obtain ⟨same, cut, state, -⟩ := Take.reforming p i out t
  have converted := Take.converted_same_but p (p.island i).settings.lead
    (if t.state = .ready ∧ (t.formed p i out true).effective = .now then (t.formed p i out true).soon p (p.island i).settings.lead
      else (t.formed p i out true).refreshed p (p.island i).settings.lead)
  refine ⟨converted.tag.trans same.tag, converted.incoming.trans same.incoming, converted.outgoing.trans same.outgoing,
    converted.preroll.trans same.preroll, converted.sopCue.trans same.sopCue,
    (converted.changeCue.trans same.changeCue).trans (chooseChange_eq p t out), ?_, (Take.converted_state ..).trans state⟩
  exact (Take.converted_effective (keep := true) cut same.effective ((congrArg TakeState.pending state).trans pending)).trans (by simp)

theorem Take.reformed_firm (pending : t.state.pending = true) (other : t.incoming ≠ out) : (t.reformed p i out).Firm := by
  obtain ⟨same, cut, state, -⟩ := Take.reforming p i out t
  exact Take.converted_firm cut (fun is => other (same.incoming.symm.trans is)) ((congrArg TakeState.pending state).trans pending)

theorem Take.reformed_now (unready : t.state ≠ .ready) (now : (t.reformed p i out).effective = .now) :
    (t.reformed p i out).cut = none ∧ (t.reformed p i out).fCut = none := by
  obtain ⟨same, cut, state, fCut⟩ := Take.reforming p i out t
  exact Take.converted_now cut (fCut unready) same.effective (fun ready => unready (state.symm.trans ready)) now

/-- What a READY take that has its cut M fields on has of its figures (R98). -/
theorem Take.soon_ready (v : Part) (n : Nat) {u : Take} (ready : u.state = .ready) :
    (u.soon v n).cut = none ∧ (u.soon v n).fCut = some (Stamp.plus v.ref.count n) ∧ (u.soon v n).commitAt = some v.ref.count ∧
      (u.incoming = .standby → (u.soon v n).error = some 0) := by
  refine ⟨Take.refreshed_cut .., ?_, ?_, fun standby => ?_⟩
  · rw [Take.soon, Take.refreshed_fCut, Take.figures_fCut _ _ rfl]
  · rw [Take.soon, Take.refreshed_commitAt]
    simp only [Take.figures, ready, Option.map_some, Stamp.minus_plus]
  · rw [Take.soon, Take.refreshed_error, Take.figures_error _ _ rfl, Take.errorOf]
    exact if_pos standby

/-- A READY take that is NOW as it is re-formed has its cut M fields on (R99, log entry 59). -/
theorem Take.reformed_ready (ready : t.state = .ready) (now : (t.reformed p i out).effective = .now) :
    (t.reformed p i out).cut = none ∧ (t.reformed p i out).fCut = some (Stamp.plus p.ref.count (p.island i).settings.lead) ∧
    (t.reformed p i out).commitAt = some p.ref.count ∧ (t.incoming = .standby → (t.reformed p i out).error = some 0) := by
  by_cases formed : (t.formed p i out true).effective = .now
  · have soon := Take.soon_ready p (p.island i).settings.lead (u := t.formed p i out true) ready
    have stays : ((t.formed p i out true).soon p (p.island i).settings.lead).loses = false := (Take.Firm.of_none soon.1).stays
    rw [Take.reformed, if_pos ⟨ready, formed⟩, Take.converted, stays, if_neg nofun]
    exact soon
  · rw [Take.reformed, if_neg fun both => formed both.2, Take.converted] at now ⊢
    split at now <;> rename_i lost
    · have state : ((t.formed p i out true).refreshed p (p.island i).settings.lead).state = .ready := (Take.refreshed_state ..).trans ready
      have soon := Take.soon_ready p (p.island i).settings.lead
        (u := ((t.formed p i out true).refreshed p (p.island i).settings.lead).turned) state
      rw [if_pos lost, if_pos state]
      exact ⟨soon.1, soon.2.1, soon.2.2.1, fun standby => soon.2.2.2 ((Take.refreshed_incoming ..).trans standby)⟩
    · exact absurd ((Take.refreshed_effective ..).symm.trans now) formed

end

/-- A take past its plan is left by a re-forming as it is (R96). -/
theorem reform_past {i : IslandId} {p : Part} {t : Take} (active : (p.island i).active = some t) (past : t.state.pending = false) :
    reform i p = p := by
  simp only [reform, active, past, Bool.false_eq_true, not_false_eq_true, if_true]

theorem reform_same {i : IslandId} {p : Part} {t : Take} (active : (p.island i).active = some t) (pending : t.state.pending = true)
    (same : t.incoming = (p.island i).onAir) : reform i p =
      endActive i .failed .sameSource (p.modFront i fun t => { t with outgoing := some (p.island i).onAir }) := by
  simp only [reform, active, pending, not_true_eq_false, if_false, same, if_true]

/-- A re-forming as the take's own work on what R96 and R99 leave of it. -/
theorem reform_works {i : IslandId} {p : Part} {t : Take} (active : (p.island i).active = some t) (pending : t.state.pending = true)
    (other : t.incoming ≠ (p.island i).onAir) :
    ∃ q, Leads i p (p.island i) (t.reformed p i (p.island i).onAir) q ∧ reform i p = workTake i q := by
  have a := leads_of_active active
  have formed := a.modFront (f := Take.formed p i (p.island i).onAir true) (by exact a.past)
  have figured : Leads i p (p.island i)
      (if t.state = .ready ∧ (t.formed p i (p.island i).onAir true).effective = .now then
        (t.formed p i (p.island i).onAir true).soon p (p.island i).settings.lead
        else (t.formed p i (p.island i).onAir true).refreshed p (p.island i).settings.lead)
      (if t.state = .ready ∧ (t.formed p i (p.island i).onAir true).effective = .now then
        cutSoon i (p.modFront i (Take.formed p i (p.island i).onAir true))
        else refreshTake i (p.modFront i (Take.formed p i (p.island i).onAir true))) := by
    split
    · exact formed.cutSoon
    · exact formed.refresh
  have converted := figured.convertNow
  have firm : (t.reformed p i (p.island i).onAir).Firm := Take.reformed_firm pending other
  refine ⟨_, converted, ?_⟩
  have twice : convertNow i (convertNow i (if t.state = .ready ∧ (t.formed p i (p.island i).onAir true).effective = .now then
        cutSoon i (p.modFront i (Take.formed p i (p.island i).onAir true))
        else refreshTake i (p.modFront i (Take.formed p i (p.island i).onAir true)))) = _ := converted.convertNow_keeps firm.stays
  have again : ∀ r : Part, convertNow i (convertNow i r) = convertNow i r → workTake i (convertNow i r) = workTake i r :=
    fun r same => by rw [workTake, workTake, evalTake, evalTake, same]
  rw [again _ twice]
  simp only [reform, active, pending, not_true_eq_false, if_false, other]
  rw [formCut_eq, formed.active]
  simp only [Option.any_some, decide_eq_true_eq]

/-! ### What becomes of the takes -/

/-- What a re-formed take that is NOW does at once (R97, R98, R99). -/
theorem workTake_worksNow {i : IslandId} {v p q r : Part} {t u : Take} (view : Views i v p) (active : (p.island i).active = some t)
    (leads : Leads i p (p.island i) (t.reformed p i (p.island i).onAir) r) (free : (p.island i).confirm = none)
    (pending : t.state.pending = true) (island : q.island i = (workTake i r).island i) (heads : ∀ h, q.head h = (workTake i r).head h)
    (is : (q.island i).active = some u) (now : (t.reformed p i (p.island i).onAir).effective = .now) : WorksNow i t u v q := by
  have given := Take.reformed_reformed (p := p) (i := i) (out := (p.island i).onAir) pending
  have past := (Island.active_eq_some.1 active).2
  refine ⟨fun standby state => ?_, fun h own state auto still => ?_⟩
  · have ready := state.resolve_left past
    obtain ⟨cut, fCut, commitAt, error⟩ := Take.reformed_ready ready now
    obtain ⟨w, -, committed, done⟩ := leads.works_standby (given.incoming.trans standby) now cut free
      (.inr ⟨given.state.trans ready, fCut, error standby, commitAt⟩)
    rw [island, done.active] at is
    cases is
    refine ⟨committed, ?_⟩
    rw [island, done.island]
    show (Island.standby (p.island i) p).confirm = _
    rw [Island.standby, view.settings, view.ref]
    rfl
  · have armed := state.resolve_left past
    obtain ⟨cut, fCut⟩ := Take.reformed_now (by rw [armed]; exact nofun) now
    obtain ⟨w, y, w', done, -, -, starting, start, -, runup, -⟩ := leads.works_start (given.incoming.trans own)
      (given.state.trans armed) (given.preroll.trans auto) now (view.heads h ▸ still) cut fCut
    rw [island, done.active] at is
    cases is
    exact ⟨starting, start, by rw [heads, done.heads]; exact runup⟩

theorem Take.judged_other {v : Part} {x : Island} {t : Take} (unstarted : t.state ≠ .starting) (unready : t.state ≠ .ready) :
    t.judged v x = t := by
  rw [Take.judged, if_neg fun both => unstarted both.1, if_neg fun both => unready both.1]

/-- A HELD take as its commit field is met or not: it is HELD or has committed, else as it was. -/
theorem meetCommit_held {i : IslandId} {p : Part} {t : Take} (active : (p.island i).active = some t) (held : t.state = .held) :
    ∃ x u, Leads i p x u (meetCommit i p) ∧ x.takes.tail = (p.island i).takes.tail ∧ u.tag = t.tag ∧ u.outgoing = t.outgoing ∧
      u.effective = t.effective ∧ (u.state = .held ∨ u.state = .committed) := by
  have a := leads_of_active active
  by_cases due : commitDue i p = true
  · have same : t.Same (t.recut p (p.island i)) := by
      unfold Take.recut
      split
      · exact .refl t
      · have state : ((t.late p (p.island i)).refreshed p (p.island i).settings.lead).state = .held :=
          (Take.refreshed_state ..).trans held
        rw [Take.judged_other (by rw [state]; exact nofun) (by rw [state]; exact nofun)]
        exact Take.Same.trans (u := t.late p (p.island i)) ⟨rfl, rfl, rfl, rfl, rfl, rfl, rfl, rfl⟩ (Take.refreshed_same ..)
    obtain ⟨q, b, -, -, cuts, -⟩ := a.recut
    have decides := Take.decide_held (x := p.island i)
      ((Take.recut_other (v := p) (x := p.island i) (by rw [held]; exact ⟨nofun, nofun⟩)).trans held)
    rw [show meetCommit i p = takeCommitField i p from if_pos due, cuts _ _ decides]
    exact ⟨_, _, b.commitTake .slipped none rfl, rfl, same.tag, same.outgoing, same.effective, .inr rfl⟩
  · rw [show meetCommit i p = p from if_neg due]
    exact ⟨_, _, a, rfl, rfl, rfl, rfl, .inl held⟩

theorem reformOrActivate_queued {i : IslandId} {p : Part} {t : Take} {rest : List Take} (takes : (p.island i).takes = t :: rest)
    (waits : t.state = .queued) : reformOrActivate i p = activateFront i p := by
  have idle : (p.island i).active = none := by simp only [Island.active, takes, waits, if_true]
  rw [reformOrActivate, idle]
  exact if_neg nofun

/-- The takes of an island as its confirmation has ended: the active take re-formed, else the front activated (R92, R96). -/
theorem takes_follow {i : IslandId} {v p q r : Part} {list : List Take} (view : Views i v p) (takes : (p.island i).takes = list)
    (free : (p.island i).confirm = none)
    (heard : v.hears i → ∃ k es, Awaits k es p ∧ k + list.length < Config.maxEvents)
    (is : r = reformOrActivate i p ∨ r = meetCommit i (reformOrActivate i p)) (closes : Closes i r q) :
    TakesFollow i (p.island i).onAir v q list := by
  have settled : meetCommit i (reformOrActivate i p) = reformOrActivate i p → r = reformOrActivate i p := fun same =>
    is.elim id (·.trans same)
  cases list with
  | nil =>
    have idle : (p.island i).active = none := by simp only [Island.active, takes]
    have unchanged : reformOrActivate i p = p := by
      rw [reformOrActivate, idle, if_neg nofun, activateFront, activate_empty takes]
    rw [settled (by rw [unchanged, meetCommit_undue (commitDue_of_idle idle)]), unchanged] at closes
    exact (congrArg Island.takes closes.island).trans takes
  | cons t rest =>
    intro queued
    have activeOf : t.state ≠ .queued → (p.island i).active = some t := fun past => by
      simp only [Island.active, takes]
      exact if_neg past
    have reforms : t.state ≠ .queued → reformOrActivate i p = reform i p := fun past => by
      rw [reformOrActivate, activeOf past]
      rfl
    refine ⟨fun waits => ?_, fun state => ?_, fun held => ?_⟩
    · have all : ∀ u ∈ t :: rest, u.state = .queued := fun u m => by
        obtain rfl | m := List.mem_cons.1 m
        · exact waits
        · exact queued u m
      rw [settled (by rw [reformOrActivate_queued takes waits, activateFront, activate_settled _ (by rw [takes]; exact all)]),
        reformOrActivate_queued takes waits, activateFront] at closes
      exact activate_activates _ view takes all (by rw [takes]) free heard closes
    · have pending : t.state.pending = true := by
        obtain e | e | e := state <;> rw [e] <;> rfl
      have past : t.state ≠ .queued := fun e => by
        rw [e] at pending
        cases pending
      have active := activeOf past
      rw [reforms past] at settled
      refine ⟨fun same => ?_, fun other => ?_⟩
      · rw [reform_same active pending same, endActive] at settled
        obtain ⟨view', ended, told⟩ := endFailed view takes (p.island i).onAir .sameSource
        generalize endFront i .failed .sameSource (p.modFront i fun t => { t with outgoing := some (p.island i).onAir }) = p'
          at settled ended view' told
        have onAir : (p'.island i).onAir = (p.island i).onAir := by rw [ended]
        have takes' : (p'.island i).takes = rest := by rw [ended]
        rw [settled (by rw [activateFront, activate_settled _ (by rw [takes']; exact queued)]), activateFront] at closes
        refine ⟨onAir ▸ activate_activates _ view' takes' queued (by rw [takes']) (by rw [ended]; exact free) (fun h => ?_) closes,
          fun h => ?_⟩
        · obtain ⟨k, es, a, room⟩ := heard h
          rw [List.length_cons] at room
          exact ⟨k + 1, _, told k es a (by omega), by omega⟩
        · obtain ⟨k, es, a, room⟩ := heard h
          rw [List.length_cons] at room
          refine closes.tells_last (activate_keeps (holds_scheduler _) _ i (told k es a (by omega)).holds) ?_
          rw [← (activate_sched _ i p').frame .ref (by simp [Block.scheduling, Block.alarming, Block.posting]), view'.ref]
      · obtain ⟨r, leads, works⟩ := reform_works active pending other
        rw [works] at settled
        rw [settled (workTake_settled i r)] at closes
        have given := Take.reformed_reformed (p := p) (i := i) (out := (p.island i).onAir) pending
        have goes : Goes i (t.reformed p i (p.island i).onAir) rest (workTake i r) :=
          Goes.workTake (leads.goes (.refl _) (Take.reformed_firm pending other) (by rw [takes, List.tail_cons]))
        obtain ⟨u, is, same, -, tail⟩ := goes
        rw [← closes.island] at is tail
        have mode : u.effective = if t.effective = .now then .now else v.modeFor i t (p.island i).onAir := by
          rw [same.effective, given.effective, view.modeFor]
        refine ⟨tail, u, is, same.tag.trans given.tag, same.incoming.trans given.incoming, same.outgoing.trans given.outgoing,
          same.sopCue.trans given.sopCue, ?_, mode, fun now => ?_⟩
        · rw [same.changeCue, given.changeCue, view.cueFor]
        · exact workTake_worksNow view active leads free pending closes.island closes.heads is (same.effective.symm.trans now)
    · have past : t.state ≠ .queued := by
        rw [held]
        exact nofun
      have active := activeOf past
      have stays := (reforms past).trans (reform_past active (by rw [held]; rfl))
      rw [stays] at is
      obtain rfl | rfl := is
      · refine ⟨?_, t, ?_, rfl, rfl, rfl, .inl held⟩
        · rw [closes.island, takes, List.tail_cons]
        · rw [closes.island]
          exact active
      obtain ⟨x, u, leads, tail, tag, outgoing, effective, state⟩ := meetCommit_held active held
      refine ⟨?_, u, ?_, tag, outgoing, effective, state⟩
      · rw [closes.island, leads.island]
        exact tail.trans (by rw [takes, List.tail_cons])
      · rw [closes.island]
        exact leads.active

end Sys2Proof.Machine
end

section
/-! PROOFS. The end of a move: the source on air, the take that owned the move, and the takes behind it (R102, R103). -/

namespace Sys2Proof.Machine

/-! ### What the activation and the re-forming of a take keep -/

/-- A property that the takes of island `i` keep as they are activated, re-formed and ended, past their evaluation. -/
structure TakesHold (i : IslandId) (I : Part → Prop) : Prop extends TakesKeep i I where
  mark : ∀ f t p, (p.island i).takes.head? = some t → t.state ≠ .committed → (f t).incoming = t.incoming →
    (f t).state ≠ .committed → I p → I (p.modFront i f)
  ends : ∀ o r t p, (p.island i).takes.head? = some t → t.state ≠ .committed → I p → I (endFront i o r p)

section
variable {i : IslandId} {I : Part → Prop} (K : TakesHold i I)
include K

theorem enterTake_holds {p : Part} {t : Take} {rest : List Take} (out : Source) (takes : (p.island i).takes = t :: rest)
    (queued : t.state = .queued) (a : I p) : I (enterTake i out p) := by
  have front : (p.island i).takes.head? = some t := by rw [takes, List.head?_cons]
  have open_ : t.state ≠ .committed := by rw [queued]; exact nofun
  have formed : I (p.modFront i (Take.formed p i out false)) := K.mark _ t p front open_ rfl (by exact open_) a
  have state : (t.entered p i out).state ≠ .committed := by
    obtain e | e := Take.entered_pending p i out t <;> rw [e] <;> exact nofun
  have entered : I ((p.modFront i (Take.formed p i out false)).modFront i (Take.activated p i)) := by
    refine K.mark _ (t.formed p i out false) _ ?_ open_ rfl state formed
    rw [modFront_island, Island.modFront_cons takes, List.head?_cons]
  have now := convertNow_takes K.toTakesKeep (refreshTake_takes K.toTakesKeep i entered)
  unfold enterTake
  rw [formCut_eq]
  dsimp only
  split
  · exact now
  · exact workTake_takes K.toTakesKeep (K.post _ _ _ now)

theorem activate_holds (n : Nat) : ∀ {p : Part}, I p → I (activate n i p) := by
  induction n with
  | zero => exact id
  | succ n ih =>
    intro p a
    unfold activate
    split
    · exact a
    · rename_i t rest takes
      split
      · exact a
      · rename_i open'
        have queued : t.state = .queued := not_not.1 fun n => open' (.inl n)
        have open_ : t.state ≠ .committed := by rw [queued]; exact nofun
        have front : (p.island i).takes.head? = some t := by rw [takes, List.head?_cons]
        have dropped : ∀ r, I (endFront i .failed r (p.modFront i fun t => { t with outgoing := some (p.island i).onAir })) := fun r =>
          K.ends _ _ { t with outgoing := some (p.island i).onAir } _
            (by rw [modFront_island, Island.modFront_cons takes, List.head?_cons]) open_
            (K.mark _ t p front open_ rfl open_ a)
        dsimp only
        exact ite_keeps (ih (dropped _)) (ite_keeps (ih (dropped _)) (enterTake_holds K _ takes queued a))

theorem reform_holds {p : Part} (a : I p) : I (reform i p) := by
  unfold reform
  split
  · exact a
  rename_i t active
  obtain ⟨front, -⟩ := Island.active_eq_some.1 active
  have takes : (p.island i).takes = t :: (p.island i).takes.tail := (List.cons_head?_tail front).symm
  dsimp only
  split
  · exact a
  rename_i open'
  have open_ : t.state ≠ .committed := fun e => open' (by rw [e]; decide)
  split
  · exact activate_holds K _ (K.ends _ _ { t with outgoing := some (p.island i).onAir } _
      (by rw [modFront_island, Island.modFront_cons takes, List.head?_cons]) open_ (K.mark _ t p front open_ rfl open_ a))
  · have formed : I (p.modFront i (Take.formed p i (p.island i).onAir true)) := K.mark _ t p front open_ rfl (by exact open_) a
    refine workTake_takes K.toTakesKeep ?_
    split
    · rename_i ready
      obtain ⟨u, now⟩ := Option.isSome_iff_exists.1 (Option.isSome_of_any ready.2)
      exact cutSoon_takes K.toTakesKeep now formed
    · exact refreshTake_takes K.toTakesKeep i formed

theorem reformOrActivate_holds {p : Part} (a : I p) : I (reformOrActivate i p) :=
  ite_keeps (reform_holds K a) (activate_holds K _ a)

/-- The work behind the end of a move. -/
theorem follow_holds {p : Part} (a : I p) : I (meetCommit i (reformOrActivate i p)) :=
  meetCommit_takes K.toTakesKeep (reformOrActivate_holds K a)

end

/-! ### What an island keeps behind the end of a move -/

/-- Island `i` is as given in what no take changes, its F_end record with it while it follows a LOCKED head or is absent. -/
def Airs (i : IslandId) (f : IslandSettings × Authority × Source × Source) (e : Option Pred) (p : Part) : Prop :=
  Fixed i f p ∧ (p.island i).fEnd = e ∧ ∀ r, e = some r → (p.head r.head).drive = .locked

theorem Airs.of_fixed {i : IslandId} {f : IslandSettings × Authority × Source × Source} {e : Option Pred} {p q : Part} (a : Airs i f e p)
    (fixed : Fixed i f q) (fEnd : (q.island i).fEnd = (p.island i).fEnd) (heads : ∀ h, q.head h = p.head h) : Airs i f e q :=
  ⟨fixed, fEnd.trans a.2.1, fun r is => by rw [heads]; exact a.2.2 r is⟩

theorem Island.modFront_fEnd (f : Take → Take) (x : Island) : (x.modFront f).fEnd = x.fEnd := by
  unfold Island.modFront
  split <;> rfl

theorem modFront_fEnd (i j : IslandId) (f : Take → Take) (p : Part) : ((p.modFront j f).island i).fEnd = (p.island i).fEnd := by
  by_cases same : i = j
  · subst same
    rw [modFront_island, Island.modFront_fEnd]
  · rw [modFront_island_ne same]

theorem commitTake_fEnd (i j : IslandId) (o : TakeOutcome) (l : Option Int) (p : Part) :
    ((commitTake j o l p).island i).fEnd = (p.island i).fEnd := by
  unfold commitTake
  split
  · rfl
  · dsimp only
    rw [post_island, modFront_fEnd]
    by_cases same : i = j
    · subst same
      rw [commit_island]
    · rw [commit_island_ne same]

theorem airs_takes (i j : IslandId) (f : IslandSettings × Authority × Source × Source) (e : Option Pred) :
    TakesHold j (Airs i f e) where
  post s x p a := a.of_fixed (a.1.post s x) (by rw [post_island]) (post_head s x p)
  front k g _ p _ _ a := a.of_fixed (a.1.modFront k g) (modFront_fEnd i k g p) (modFront_head k g p)
  preds h y g p front runup a := by
    refine ⟨(fixed_takes j).preds h y g p front runup a.1, ?_, a.2.2⟩
    rw [mapPreds_island]
    show (p.island i).fEnd.map (followedBy h g .cutOrEnd) = e
    rw [a.2.1]
    cases e with
    | none => rfl
    | some r =>
      have other : r.head ≠ h := fun same => by
        have locked := a.2.2 r rfl
        rw [same, runup] at locked
        cases locked
      rw [Option.map_some, followedBy, if_neg other]
  start h y p front rest a := by
    refine ⟨(fixed_takes j).start h y p front rest a.1, by rw [startDrive_island]; exact a.2.1, fun r is => ?_⟩
    have locked := a.2.2 r is
    have other : r.head ≠ h := fun same => by
      rw [same] at locked
      rw [locked] at rest
      cases rest
    rw [startDrive_head_ne other]
    exact locked
  commit o l p a := a.of_fixed ((fixed_takes j).commit o l p a.1) (commitTake_fEnd i j o l p) (commitTake_head j o l p)
  mark g _ p _ _ _ _ a := a.of_fixed (a.1.modFront j g) (modFront_fEnd i j g p) (modFront_head j g p)
  ends o r _ p _ _ a := by
    refine a.of_fixed (endFront_fixed a.1 j o r) ?_ fun h =>
      ((endFront_frame j o r p) (.head h) (by simp [Block.taking, Block.posting])).symm
    unfold endFront
    split
    · rfl
    · rw [post_island]
      by_cases same : i = j
      · subst same
        rw [modIsland_island]
      · rw [modIsland_island_ne same]

/-! ### The commit a take that is left may make -/

/-- Island `i` awaits no move, its mirror as given and its station polled at the routine interval, none of it lost. -/
structure Calm (i : IslandId) (m : MirrorState) (n : Nat) (p : Part) : Prop where
  mirror : (p.island i).mirror = m
  confirm : (p.island i).confirm = none
  fast : (p.link.stations.get i).fast = false
  countdown : (p.link.stations.get i).countdown = n

/-- The active take of island `i` has committed, and its move awaits. -/
def OwnCommit (i : IslandId) (p : Part) : Prop :=
  ∃ t, (p.island i).active = some t ∧ t.state = .committed ∧
    ∃ d, (p.island i).confirm = some d ∧ d.owner = .take ∧ d.target = t.incoming ∧ (p.island i).mirror = .moving d.port

theorem Calm.of_same {i : IslandId} {m : MirrorState} {n : Nat} {p q : Part} (a : Calm i m n p)
    (mirror : (q.island i).mirror = (p.island i).mirror) (confirm : (q.island i).confirm = (p.island i).confirm)
    (link : q.link = p.link) : Calm i m n q :=
  ⟨mirror.trans a.mirror, confirm.trans a.confirm, by rw [link]; exact a.fast, by rw [link]; exact a.countdown⟩

theorem OwnCommit.of_same {i : IslandId} {p q : Part} (a : OwnCommit i p) (island : q.island i = p.island i) : OwnCommit i q := by
  rwa [OwnCommit, island]

theorem modFront_mirror (i j : IslandId) (f : Take → Take) (p : Part) : ((p.modFront j f).island i).mirror = (p.island i).mirror ∧
    ((p.modFront j f).island i).confirm = (p.island i).confirm := by
  by_cases same : i = j
  · subst same
    rw [modFront_island]
    unfold Island.modFront
    split <;> exact ⟨rfl, rfl⟩
  · rw [modFront_island_ne same]
    exact ⟨rfl, rfl⟩

theorem modFront_link (i : IslandId) (f : Take → Take) (p : Part) : (p.modFront i f).link = p.link :=
  ((front_taking i f p) .link (by simp [Block.taking, Block.posting])).symm

theorem startDrive_link (h : HeadId) (c : Cause) (p : Part) : (startDrive h c p).link = p.link :=
  ((startDrive_frame h c p) .link (by simp [Block.driving, Block.alarming, Block.posting])).symm

/-- Until an island's own take commits, it stays calm. -/
theorem calm_takes (i : IslandId) (m : MirrorState) (n : Nat) : TakesHold i fun p => Calm i m n p ∨ OwnCommit i p where
  post s e p a := a.imp
    (fun c => c.of_same (by rw [post_island]) (by rw [post_island])
      ((post_frame s e p) .link (by simp [Block.posting])).symm) fun c => c.of_same (post_island s e p i)
  front k f t p active follows a := a.imp
    (fun c => c.of_same (modFront_mirror i k f p).1 (modFront_mirror i k f p).2 (modFront_link k f p)) fun c => by
      by_cases same : i = k
      · subst same
        obtain ⟨u, is, committed, d, confirm, owner, target, mirror⟩ := c
        cases active.symm.trans is
        refine ⟨f t, modFront_active active follows.past, follows.committed committed, d, (modFront_mirror i i f p).2.trans confirm, owner,
          target.trans follows.incoming.symm, (modFront_mirror i i f p).1.trans mirror⟩
      · exact c.of_same (modFront_island_ne same f p)
  preds h x f p _ _ a := a.imp
    (fun c => c.of_same (by rw [mapPreds_island]; rfl) (by rw [mapPreds_island]; rfl) rfl) fun c => by
      obtain ⟨u, is, committed, d, confirm, owner, target, mirror⟩ := c
      have mapped := (leads_of_active is).mapPreds h f
      exact ⟨_, mapped.active, committed, d, by rw [mapped.island]; exact confirm, owner, target, by rw [mapped.island]; exact mirror⟩
  start h x p _ _ a := a.imp
    (fun c => c.of_same (by rw [startDrive_island]) (by rw [startDrive_island]) (startDrive_link h .scheduler p))
    fun c => c.of_same (startDrive_island h .scheduler p i)
  commit o l p a := by
    cases active : (p.island i).active with
    | none =>
      have same : commitTake i o l p = p := by simp only [commitTake, active]
      rwa [same]
    | some t =>
      have done := (leads_of_active active).commitTake o l rfl
      exact .inr ⟨_, done.active, rfl, _, by rw [done.island]; rfl, rfl, rfl, by rw [done.island]; rfl⟩
  mark f t p front open_ _ _ a := by
    refine .inl (Calm.of_same (p := p) ?_ (modFront_mirror i i f p).1 (modFront_mirror i i f p).2 (modFront_link i f p))
    refine a.resolve_right fun ⟨u, is, committed, _⟩ => ?_
    cases front.symm.trans (Island.active_eq_some.1 is).1
    exact open_ committed
  ends o r t p front open_ a := by
    have calm : Calm i m n p := by
      refine a.resolve_right fun ⟨u, is, committed, _⟩ => ?_
      cases front.symm.trans (Island.active_eq_some.1 is).1
      exact open_ committed
    obtain ⟨rest, takes⟩ := List.head?_eq_some_iff.1 front
    have ended := endFront_island takes o r
    exact .inl (calm.of_same (by rw [ended]) (by rw [ended]) (endFront_link i o r p))

/-! ### The move as it ends -/

/-- The island once the wait for a move has ended and the source on air is known, before the take that owned the move is dropped
(R102, R103). -/
def airMove (i : IslandId) (m : MirrorState) (new : Source) (cause : OnAirCause) (port : Option Port) (cut : Option Stamp) (p : Part) : Part :=
  setOnAir i new cause port cut (endConfirmation i (p.modIsland i fun x => { x with mirror := m }))

/-- The end of a move, or of the wait for it, before the takes that are left: the mirror, the source on air, and the take that owned
the move (R102, R103). -/
def endMove (i : IslandId) (owner : Owner) (m : MirrorState) (new : Source) (cause : OnAirCause) (port : Option Port) (cut : Option Stamp)
    (out : Take → TakeOutcome) (r : Reason) (p : Part) : Part :=
  match owner, ((airMove i m new cause port cut p).island i).active with
  | .take, some t => endFront i (out t) r (airMove i m new cause port cut p)
  | _, _ => airMove i m new cause port cut p

theorem failMove_eq (i : IslandId) (c : Confirmation) (p : Part) : failMove i c p =
    let q := raiseAlarm (.island i) .mirrorFault (word c.port.num) 0 (meetCommit i (reformOrActivate i
      (endMove i c.owner .unknown .unknown .failed none none (fun _ => .failed) .mirror p)))
    if c.target = .standby then raiseAlarm (.island i) .noSafeSource 0 0 q else q := by
  cases owner : c.owner with
  | island => simp only [failMove, endMove, airMove, owner]
  | take =>
    cases active : ((airMove i .unknown .unknown .failed none none p).island i).active <;>
      · rw [airMove] at active
        simp only [failMove, endMove, airMove, owner, active]

theorem confirmMove_eq (i : IslandId) (c : Confirmation) (p : Part) : confirmMove i c p =
    meetGuardKnown i (meetCommit i (reformOrActivate i (examine i
      (endMove i c.owner (.atPort c.port) c.target .confirmed (some c.port) (some c.cut) (·.outcome) .none p)))) := by
  cases owner : c.owner with
  | island => simp only [confirmMove, endMove, airMove, owner]
  | take =>
    cases active : ((airMove i (.atPort c.port) c.target .confirmed (some c.port) (some c.cut) p).island i).active <;>
      · rw [airMove] at active
        simp only [confirmMove, endMove, airMove, owner, active]

end Sys2Proof.Machine
end

section
/-! PROOFS. What the end of a move leaves of the island, of the link and of the queue (R102, R103, R126). -/

namespace Sys2Proof.Machine

/-! ### The source on air -/

/-- The F_end record a source on air is formed with (R75). -/
def Part.ending (p : Part) (n : Source) : Option Pred := (p.endFrame n).map fun f => formPred p .cutOrEnd f.1 f.2

theorem endFrame_congr {p q : Part} (heads : ∀ h, q.head h = p.head h) (n : Source) : q.endFrame n = p.endFrame n := by
  cases n with
  | head h => simp only [Part.endFrame, heads]
  | standby => rfl
  | unknown => rfl

theorem ending_congr {p q : Part} (heads : ∀ h, q.head h = p.head h) (ref : q.ref = p.ref) (n : Source) : q.ending n = p.ending n := by
  simp only [Part.ending, endFrame_congr heads, formPred, Pred.ahead, heads, ref]

theorem followEnd_air (i : IslandId) (p : Part) : ∃ e, (followEnd i p).island i = { p.island i with fEnd := e } ∧
    ((p.island i).fEnd = none ∨ p.endFrame (p.island i).onAir = none → e = p.ending (p.island i).onAir) := by
  rw [followEnd, modIsland_island]
  cases frame : p.endFrame (p.island i).onAir with
  | none => exact ⟨_, rfl, fun _ => by rw [Part.ending, frame]; rfl⟩
  | some f =>
    cases held : (p.island i).fEnd with
    | none => exact ⟨_, rfl, fun _ => by rw [Part.ending, frame]; rfl⟩
    | some r =>
      dsimp only
      split
      · exact ⟨(p.island i).fEnd, rfl, fun c => by simp at c⟩
      · exact ⟨_, rfl, fun c => by simp at c⟩

/-- The source on air becomes another: the island's F_end record is that of the new source (R75, R89). -/
theorem setOnAir_air (i : IslandId) (n : Source) (c : OnAirCause) (o : Option Port) (f : Option Stamp) (p : Part) :
    ∃ e, (setOnAir i n c o f p).island i = { p.island i with onAir := n, fEnd := e } ∧
      ((p.island i).onAir ≠ n ∨ p.endFrame n = none → e = p.ending n) := by
  let q := post (.island i) (.onAir c n (p.island i).onAir o f) (p.modIsland i fun x =>
    { x with onAir := n, fEnd := if (p.island i).onAir = n then x.fEnd else none })
  have told : ChangesOnly Block.alarming q (if (p.island i).onAir = n then q else tellMonitors (p.island i).onAir n q) :=
    .ite (.refl _ q) (tellMonitors_frame _ _ _)
  obtain ⟨e, island, is⟩ := followEnd_air i (if (p.island i).onAir = n then q else tellMonitors (p.island i).onAir n q)
  rw [show (if (p.island i).onAir = n then q else tellMonitors (p.island i).onAir n q).island i = q.island i from
    (told (.island i) (by cases i <;> decide)).symm] at island is
  have set : q.island i = { p.island i with onAir := n, fEnd := if (p.island i).onAir = n then (p.island i).fEnd else none } := by
    rw [post_island, modIsland_island]
  rw [set] at island is
  have heads : ∀ h, (if (p.island i).onAir = n then q else tellMonitors (p.island i).onAir n q).head h = p.head h := fun h => by
    rw [told.head (by cases h <;> decide), post_head]
    simp
  have ref : (if (p.island i).onAir = n then q else tellMonitors (p.island i).onAir n q).ref = p.ref :=
    (told .ref (by decide)).symm.trans (post_frame _ _ _ .ref (by decide)).symm
  rw [ending_congr heads ref, endFrame_congr heads] at is
  refine ⟨e, island, fun other => is (other.imp (fun other => ?_) id)⟩
  dsimp only
  rw [if_neg other]

theorem setOnAir_ref (i : IslandId) (n : Source) (c : OnAirCause) (o : Option Port) (f : Option Stamp) (p : Part) :
    (setOnAir i n c o f p).ref = p.ref :=
  ((setOnAir_sched i n c o f p).frame .ref (by decide)).symm

theorem setOnAir_link (i : IslandId) (n : Source) (c : OnAirCause) (o : Option Port) (f : Option Stamp) (p : Part) :
    (setOnAir i n c o f p).link = p.link := by
  let q := post (.island i) (.onAir c n (p.island i).onAir o f) (p.modIsland i fun x =>
    { x with onAir := n, fEnd := if (p.island i).onAir = n then x.fEnd else none })
  have told : ChangesOnly Block.alarming q (if (p.island i).onAir = n then q else tellMonitors (p.island i).onAir n q) :=
    .ite (.refl _ q) (tellMonitors_frame _ _ _)
  exact (told .link (by decide)).symm.trans ((post_frame _ _ _ .link (by decide)).symm)

/-- The change of source is told at once (R112). -/
theorem setOnAir_awaits {k : Nat} {es : List Event} {p : Part} (a : Awaits k es p) (free : k < Config.maxEvents) (i : IslandId) (n : Source)
    (c : OnAirCause) (o : Option Port) (f : Option Stamp) :
    Awaits (k + 4) (es ++ [⟨.island i, p.ref.count, .onAir c n (p.island i).onAir o f⟩]) (setOnAir i n c o f p) := by
  have told : ∀ (old new : Source) {k : Nat} {es : List Event} {p : Part}, Awaits k es p → Awaits (k + 3) es (tellMonitors old new p) := by
    intro old new k es p a
    have cleared : ∀ h, Awaits (k + 1) es (if p.onAir h then p else clearAlarm (.head h) .lockLoss 0 0 p) := fun h =>
      (a.mono (Nat.le_succ _)).ite (a.clear _ _ _ _)
    have raised : ∀ {q : Part} (h : HeadId), Awaits (k + 1) es q →
        Awaits (k + 3) es (if (q.head h).drive = .unlocked then raiseAlarm (.head h) .lockLoss 0 0 q else q) := fun h b =>
      (b.raise _ _ _ _).ite (b.mono (Nat.le_add_right _ 2))
    unfold tellMonitors
    cases old <;> cases new <;>
      first
      | exact raised _ (cleared _)
      | exact raised _ (a.mono (Nat.le_succ _))
      | exact (cleared _).mono (Nat.le_add_right _ 2)
      | exact a.mono (Nat.le_add_right _ 3)
  have posted := Awaits.post (p := p.modIsland i fun x => { x with onAir := n, fEnd := if (p.island i).onAir = n then x.fEnd else none })
    (a.of_evt rfl) (.island i) (.onAir c n (p.island i).onAir o f) free
  exact Awaits.of_evt ((posted.mono (Nat.le_add_right _ 3)).ite (told _ _ posted)) rfl

/-! ### The end of the wait for a move -/

theorem endFast_station (i : IslandId) (p : Part) : ((endFast i p).link.stations.get i).fast = false ∧
    ((endFast i p).link.stations.get i).countdown = p.link.settings.interval := by
  unfold endFast
  dsimp only
  split
  · rw [pumpLink_fast, pumpLink_countdown, Part.modStation_link, Two.get_set_same]
    exact ⟨rfl, rfl⟩
  · rw [Part.modStation_link, Two.get_set_same]
    exact ⟨rfl, rfl⟩

theorem endFast_awaits {k : Nat} {es : List Event} {p : Part} (a : Awaits k es p) (i : IslandId) : Awaits (k + 1) es (endFast i p) := by
  have set : Awaits k es (p.modStation i fun s =>
      { s.met p.link.settings.interval with fast := false, countdown := p.link.settings.interval }) := a.of_evt rfl
  exact (pumpLink_awaits set).ite (set.mono (Nat.le_succ _))

/-! ### The end of a move -/

/-- The takes of an island once a move has ended: without the take that owned it. -/
def Island.leftBy (x : Island) (owner : Owner) : List Take := if owner = .take ∧ x.active.isSome = true then x.takes.tail else x.takes

section
variable (i : IslandId) (owner : Owner) (m : MirrorState) (new : Source) (cause : OnAirCause) (port : Option Port) (cut : Option Stamp)
  (out : Take → TakeOutcome) (r : Reason) (p : Part)

theorem endMove_cases : (owner = .take ∧ ∃ t, ((airMove i m new cause port cut p).island i).active = some t ∧
      endMove i owner m new cause port cut out r p = endFront i (out t) r (airMove i m new cause port cut p)) ∨
    (¬ (owner = .take ∧ ((airMove i m new cause port cut p).island i).active.isSome = true) ∧
      endMove i owner m new cause port cut out r p = airMove i m new cause port cut p) := by
  cases owner with
  | island => exact .inr ⟨nofun, rfl⟩
  | take =>
    cases active : ((airMove i m new cause port cut p).island i).active with
    | none => exact .inr ⟨nofun, by simp only [endMove, active]⟩
    | some t => exact .inl ⟨rfl, t, rfl, by simp only [endMove, active]⟩

theorem airMove_island : ∃ e, (airMove i m new cause port cut p).island i =
      { p.island i with mirror := m, confirm := none, onAir := new, fEnd := e } ∧
    ((p.island i).onAir ≠ new ∨ p.endFrame new = none → e = p.ending new) := by
  let q := endConfirmation i (p.modIsland i fun x => { x with mirror := m })
  have set : q.island i = { p.island i with mirror := m, confirm := none } := by
    rw [show q = endConfirmation i (p.modIsland i fun x => { x with mirror := m }) from rfl, endConfirmation,
      ← (endFast_frame i _) (.island i) (by cases i <;> decide), modIsland_island, modIsland_island]
  have heads : ∀ h, q.head h = p.head h := fun h => (endFast_frame i _).head (by cases h <;> decide)
  have ref : q.ref = p.ref := ((endFast_frame i _) .ref (by decide)).symm
  obtain ⟨e, island, is⟩ := setOnAir_air i new cause port cut q
  rw [set] at island is
  exact ⟨e, island, by rw [← ending_congr heads ref, ← endFrame_congr heads]; exact is⟩

theorem airMove_active : ((airMove i m new cause port cut p).island i).active = (p.island i).active := by
  obtain ⟨e, island, -⟩ := airMove_island i m new cause port cut p
  rw [island]
  rfl

theorem endMove_island : ∃ e, (endMove i owner m new cause port cut out r p).island i =
      { p.island i with mirror := m, confirm := none, onAir := new, fEnd := e, takes := (p.island i).leftBy owner } ∧
    ((p.island i).onAir ≠ new ∨ p.endFrame new = none → e = p.ending new) := by
  obtain ⟨e, island, is⟩ := airMove_island i m new cause port cut p
  refine ⟨e, ?_, is⟩
  have same := airMove_active i m new cause port cut p
  obtain ⟨own, t, active, ends⟩ | ⟨none, ends⟩ := endMove_cases i owner m new cause port cut out r p
  · obtain ⟨front, -⟩ := Island.active_eq_some.1 active
    obtain ⟨rest, takes⟩ := List.head?_eq_some_iff.1 front
    have takes' : (p.island i).takes = t :: rest := by rw [← takes, island]
    rw [ends, endFront_island takes, island, Island.leftBy, if_pos ⟨own, by rw [← same, active]; rfl⟩, takes', List.tail_cons]
  · rw [same] at none
    rw [ends, island, Island.leftBy, if_neg none]

theorem endMove_heads (h : HeadId) : (endMove i owner m new cause port cut out r p).head h = p.head h := by
  have aired : (airMove i m new cause port cut p).head h = p.head h := by
    obtain ⟨-, -, -, -, heads⟩ := setOnAir_island i new cause port cut (endConfirmation i (p.modIsland i fun x => { x with mirror := m }))
    exact (heads h).trans ((endFast_frame i _).head (by cases h <;> decide))
  obtain ⟨-, t, -, ends⟩ | ⟨-, ends⟩ := endMove_cases i owner m new cause port cut out r p
  · rw [ends, (endFront_frame i _ r _).head (by cases i <;> cases h <;> decide), aired]
  · rw [ends, aired]

theorem airMove_sched : ChangesOnly Block.scheduling p (airMove i m new cause port cut p) :=
  (((modIsland_sched i _ p).trans (endConfirmation_sched i _)).trans (setOnAir_sched i new cause port cut _)).frame

theorem endMove_ref : (endMove i owner m new cause port cut out r p).ref = p.ref := by
  have aired : (airMove i m new cause port cut p).ref = p.ref := ((airMove_sched i m new cause port cut p) .ref (by decide)).symm
  obtain ⟨-, t, -, ends⟩ | ⟨-, ends⟩ := endMove_cases i owner m new cause port cut out r p
  · rw [ends, ← (endFront_frame i _ r _) .ref (by cases i <;> decide), aired]
  · rw [ends, aired]

theorem endMove_station : ((endMove i owner m new cause port cut out r p).link.stations.get i).fast = false ∧
    ((endMove i owner m new cause port cut out r p).link.stations.get i).countdown = p.link.settings.interval := by
  have aired : (airMove i m new cause port cut p).link = (endConfirmation i (p.modIsland i fun x => { x with mirror := m })).link :=
    setOnAir_link i new cause port cut _
  have ended := endFast_station i ((p.modIsland i fun x => { x with mirror := m }).modIsland i fun x => { x with confirm := none })
  have link : (endMove i owner m new cause port cut out r p).link = (airMove i m new cause port cut p).link := by
    obtain ⟨-, t, -, ends⟩ | ⟨-, ends⟩ := endMove_cases i owner m new cause port cut out r p
    · rw [ends, endFront_link]
    · rw [ends]
  rw [link, aired]
  exact ended

/-- The end of a move is told by ON_AIR, and then by the TAKE_END of the take that owned it (R112). -/
theorem airMove_awaits {k : Nat} {es : List Event} (a : Awaits k es p) (free : k + 1 < Config.maxEvents) :
    Awaits (k + 5) (es ++ [⟨.island i, p.ref.count, .onAir cause new (p.island i).onAir port cut⟩]) (airMove i m new cause port cut p) := by
  have waits : Awaits k es ((p.modIsland i fun x => { x with mirror := m }).modIsland i fun x => { x with confirm := none }) := a.of_evt rfl
  have ended : Awaits (k + 1) es (endConfirmation i (p.modIsland i fun x => { x with mirror := m })) := endFast_awaits waits i
  have told := setOnAir_awaits ended free i new cause port cut
  rw [endConfirmation, ← (endFast_frame i _) .ref (by decide), ← (endFast_frame i _) (.island i) (by cases i <;> decide), modIsland_island,
    modIsland_island] at told
  exact told

/-- What the end of a move posts of its island: ON_AIR, and the TAKE_END of the take that owned it (R112). -/
def Island.endItems (x : Island) (owner : Owner) (new : Source) (cause : OnAirCause) (port : Option Port) (cut : Option Stamp)
    (out : Take → TakeOutcome) (r : Reason) : List EventItem :=
  .onAir cause new x.onAir port cut :: if owner = .take then x.active.toList.map fun t => t.endItem (out t) r else []

theorem endMove_awaits {k : Nat} {es : List Event} (a : Awaits k es p) (free : k + 5 < Config.maxEvents) :
    Awaits (k + 6) (es ++ ((p.island i).endItems owner new cause port cut out r).map fun e => ⟨.island i, p.ref.count, e⟩)
      (endMove i owner m new cause port cut out r p) := by
  have aired := airMove_awaits i m new cause port cut p a (by omega)
  have same := airMove_active i m new cause port cut p
  obtain ⟨own, t, active, ends⟩ | ⟨none, ends⟩ := endMove_cases i owner m new cause port cut out r p
  · have told := endFront_awaits aired active free (out t) r
    rw [← (airMove_sched i m new cause port cut p) .ref (by decide), List.append_assoc] at told
    rw [ends, Island.endItems, if_pos own, ← same, active]
    exact told
  · rw [same] at none
    have unowned : (if owner = .take then (p.island i).active.toList.map fun t => t.endItem (out t) r else []) = [] := by
      split
      · rename_i own
        rw [Option.not_isSome_iff_eq_none.1 fun h => none ⟨own, h⟩]
        rfl
      · rfl
    rw [ends, Island.endItems, unowned]
    exact aired.mono (by omega)

end

/-! ### Alarms that stand -/

/-- The table shows an alarm of a pair by an active entry, or by its overflow record: no other raise takes that away unless the kind
is a WARNING (R145). -/
def AlarmTable.stands (t : AlarmTable) (s : AlarmSource) (k : AlarmKind) : Prop :=
  t.overflow = true ∨ ∃ e ∈ t.entries, e.source = s ∧ e.kind = k ∧ e.state ≠ .clearedNew

theorem AlarmTable.stands.shows {t : AlarmTable} {s : AlarmSource} {k : AlarmKind} (a : t.stands s k) : t.shows s k = true := by
  rw [AlarmTable.shows, Bool.or_eq_true]
  refine a.imp id fun ⟨e, mem, source, kind, _⟩ => ?_
  simp only [AlarmTable.find?, List.find?_isSome]
  exact ⟨e, mem, by simp [source, kind]⟩

theorem AlarmTable.setState_mem {t : AlarmTable} {e : AlarmEntry} (mem : e ∈ t.entries) (s : AlarmSource) (k : AlarmKind) (x : EntryState) :
    ∃ d ∈ (t.setState s k x).entries, d.source = e.source ∧ d.kind = e.kind ∧
      d.state = if e.source = s ∧ e.kind = k then x else e.state := by
  refine ⟨_, List.mem_map_of_mem mem, ?_⟩
  split <;> exact ⟨rfl, rfl, rfl⟩

/-- A raise of a kind that lasts makes it stand (R142). -/
theorem raiseAlarm_stands (s : AlarmSource) {k : AlarmKind} (lasts : k.momentary = false) (a b : Word) (p : Part) :
    (raiseAlarm s k a b p).alarms.stands s k := by
  have judged : ∀ q : Part, q.alarms.stands s k → (judgeHorn q).alarms.stands s k := fun _ h => h
  have enters : ∀ q : Part, (enterAlarm s k k.entered a b q).alarms.stands s k := fun q => by
    refine .inr ⟨{ source := s, kind := k, state := k.entered, stamp := q.ref.count }, ?_, rfl, rfl, ?_⟩
    · rw [enterAlarm, post_alarms]
      exact List.mem_append_right _ (List.mem_singleton_self _)
    · simp [AlarmKind.entered, lasts]
  cases found : p.alarms.find? s k with
  | none =>
    rw [raiseAlarm_new found]
    refine judged _ ?_
    unfold addAlarm
    split
    · exact enters _
    · split
      · exact enters _
      · exact .inl (by rw [post_alarms])
  | some e =>
    obtain ⟨mem, source, kind⟩ := AlarmTable.find?_mem found
    unfold raiseAlarm
    refine judged _ ?_
    rw [lasts, found]
    dsimp only
    split
    · obtain ⟨d, d_mem, source', kind', state⟩ := AlarmTable.setState_mem mem s k .activeNew
      rw [post_alarms]
      exact .inr ⟨d, d_mem, source'.trans source, kind'.trans kind, by rw [state, if_pos ⟨source, kind⟩]; exact nofun⟩
    · rename_i active
      exact .inr ⟨e, mem, source, kind, by rw [active]; exact nofun⟩
    · rename_i active
      exact .inr ⟨e, mem, source, kind, by rw [active]; exact nofun⟩

theorem AlarmTable.evictable_cases {t : AlarmTable} {e : AlarmEntry} (f : t.evictable = some e) :
    e.state = .clearedNew ∨ e.kind.severity = .warning := by
  unfold AlarmTable.evictable at f
  split at f
  · rename_i found
    cases f
    exact .inl (by simpa using List.find?_some found)
  · have acknowledged := List.find?_some f
    simp only [Bool.decide_and, Bool.and_eq_true, decide_eq_true_eq] at acknowledged
    exact .inr acknowledged.2

/-- Another raise leaves an alarm that stands, and is no WARNING, standing (R145). -/
theorem AlarmTable.stands.raise {p : Part} {s : AlarmSource} {k : AlarmKind} (h : p.alarms.stands s k) (severe : k.severity ≠ .warning)
    (sound : p.alarms.sound = true) (s' : AlarmSource) (k' : AlarmKind) (a b : Word) : (raiseAlarm s' k' a b p).alarms.stands s k := by
  have judged : ∀ q : Part, q.alarms.stands s k → (judgeHorn q).alarms.stands s k := fun _ h => h
  have posted : ∀ (q : Part) x e, q.alarms.stands s k → (post x e q).alarms.stands s k := fun q x e h => by rwa [post_alarms]
  have enters : ∀ (q : Part) x, q.alarms.stands s k → (enterAlarm s' k' x a b q).alarms.stands s k := fun q x h =>
    posted _ _ _ (h.imp id fun ⟨e, mem, pair⟩ => ⟨e, List.mem_append_left _ mem, pair⟩)
  have removes : ∀ d, p.alarms.evictable = some d → (p.alarms.remove d.source d.kind).stands s k := fun d evicted => by
    refine h.imp id fun ⟨e, mem, source, kind, state⟩ => ⟨e, List.mem_filter.2 ⟨mem, ?_⟩, source, kind, state⟩
    rw [decide_eq_true_eq]
    intro pair
    cases AlarmTable.sound_pair sound mem (AlarmTable.evictable_mem evicted) (AlarmEntry.matches_iff.2 ⟨pair.1.symm, pair.2.symm⟩)
    rw [← kind] at severe
    exact (AlarmTable.evictable_cases evicted).elim state severe
  have adds : ∀ x, (addAlarm s' k' x a b p).alarms.stands s k := fun x => by
    unfold addAlarm
    split
    · exact enters _ _ h
    · split
      · rename_i d evicted
        exact enters _ _ (posted _ _ _ (removes d evicted))
      · exact posted _ _ _ (.inl rfl)
  unfold raiseAlarm
  refine judged _ ?_
  split
  · exact adds _
  · exact posted _ _ _ h
  · exact adds _
  · split
    · refine posted _ _ _ (h.imp id fun ⟨e, mem, source, kind, state⟩ => ?_)
      obtain ⟨d, d_mem, source', kind', state'⟩ := AlarmTable.setState_mem mem s' k' .activeNew
      refine ⟨d, d_mem, source'.trans source, kind'.trans kind, ?_⟩
      rw [state']
      split
      · exact nofun
      · exact state
    · exact h
    · exact h

theorem entriesSound_drive : DriveKeeps EntriesSound where
  post s e _ a := a.post s e
  raise s k x y _ a := (raiseAlarm_table s k x y a).1
  clear s k x y _ a := (clearAlarm_table s k x y a).1
  head h f p _ := entriesSound_depends.keeps (modHead_frame h f p) (by cases h <;> decide)
  analog _ _ a := a

/-- The scheduler keeps the entries of the table sound. -/
theorem entriesSound_scheduler : SchedulerKeeps EntriesSound where
  post s e _ a := a.post s e
  raise s k x y _ a := (raiseAlarm_table s k x y a).1
  clear s k x y _ a := (clearAlarm_table s k x y a).1
  islands _ _ a := a
  move i q f p := entriesSound_depends.keeps (submitMove_frame i q f p) (by decide)
  fast i p := entriesSound_depends.keeps (endFast_frame i p) (by decide)
  start h _ _ a := startDrive_keeps entriesSound_drive h _ a

end Sys2Proof.Machine
end

section
/-! PROOFS. O40. A move unconfirmed at its deadline (R103). -/

namespace Sys2Proof.Machine

theorem raiseAlarm_closes (i : IslandId) (s : AlarmSource) (k : AlarmKind) (a b : Word) (p : Part) : Closes i p (raiseAlarm s k a b p) where
  island := raiseAlarm_island ..
  heads h := raiseAlarm_head s k a b p h
  ref := ((raiseAlarm_frame s k a b p) .ref (by decide)).symm
  told _ a := (a.awaits.raise _ _ _ _).holds

theorem Closes.trans {i : IslandId} {p q r : Part} (a : Closes i p q) (b : Closes i q r) : Closes i p r :=
  ⟨b.island.trans a.island, fun h => (b.heads h).trans (a.heads h), b.ref.trans a.ref, fun es h => b.told es (a.told es h)⟩

/-- What a step of the scheduler behind the end of a move keeps. -/
theorem follow_keeps {I : Part → Prop} (K : SchedulerKeeps I) (i : IslandId) {p : Part} (a : I p) :
    I (meetCommit i (reformOrActivate i p)) :=
  meetCommit_keeps K i (reformOrActivate_keeps K i a)

/-- With no take left nothing follows the end of a move. -/
theorem follow_idle {i : IslandId} {p : Part} (empty : (p.island i).takes = []) : meetCommit i (reformOrActivate i p) = p := by
  have idle : (p.island i).active = none := by simp only [Island.active, empty]
  rw [reformOrActivate, idle, if_neg nofun, activateFront, activate_empty empty, meetCommit_undue (commitDue_of_idle idle)]

section
variable (i : IslandId) (c : Confirmation) (p : Part)

/-- The part as the move of island `i` has failed, before the takes that are left. -/
def failedMove : Part := endMove i c.owner .unknown .unknown .failed none none (fun _ => .failed) .mirror p

theorem failedMove_island : (failedMove i c p).island i =
    { p.island i with mirror := .unknown, confirm := none, onAir := .unknown, fEnd := none, takes := (p.island i).leftBy c.owner } := by
  obtain ⟨e, island, is⟩ := endMove_island i c.owner .unknown .unknown .failed none none (fun _ => .failed) .mirror p
  rw [failedMove, island, is (.inr rfl)]
  rfl

/-- What follows a failed move, once its takes are settled: the alarms. -/
theorem failMove_closes : Closes i (meetCommit i (reformOrActivate i (failedMove i c p))) (failMove i c p) := by
  rw [failMove_eq]
  dsimp only
  have told := raiseAlarm_closes i (.island i) .mirrorFault (word c.port.num) 0 (meetCommit i (reformOrActivate i (failedMove i c p)))
  split
  · exact told.trans (raiseAlarm_closes ..)
  · exact told

/-- No source is on air once a move has failed, and no film is followed (R103). -/
theorem failMove_unknown : let x := (failMove i c p).island i
    x.onAir = .unknown ∧ x.fEnd = none ∧ x.settings = (p.island i).settings ∧ x.authority = (p.island i).authority := by
  have failed : Airs i ((p.island i).settings, (p.island i).authority, .unknown, (p.island i).preset) none (failedMove i c p) := by
    refine ⟨?_, ?_, nofun⟩
    · rw [Fixed, failedMove_island]
      rfl
    · rw [failedMove_island]
  obtain ⟨fixed, fEnd, -⟩ := follow_holds (airs_takes i i _ none) failed
  rw [← (failMove_closes i c p).island] at fEnd
  rw [Fixed, ← (failMove_closes i c p).island] at fixed
  simp only [Island.fixed, Prod.mk.injEq] at fixed
  obtain ⟨settings, authority, onAir, -⟩ := fixed
  exact ⟨onAir, fEnd, settings, authority⟩

theorem failMove_shows (sound : EntriesSound p) : (failMove i c p).alarms.shows (.island i) .mirrorFault = true := by
  have aired : EntriesSound (airMove i .unknown .unknown .failed none none p) :=
    setOnAir_keeps entriesSound_scheduler i _ _ _ _ (endConfirmation_keeps entriesSound_scheduler i sound)
  have failed : EntriesSound (failedMove i c p) := by
    obtain ⟨-, t, -, ends⟩ | ⟨-, ends⟩ := endMove_cases i c.owner .unknown .unknown .failed none none (fun _ => .failed) .mirror p
    · rw [failedMove, ends]
      exact endFront_keeps entriesSound_scheduler i _ _ aired
    · rw [failedMove, ends]
      exact aired
  have told := raiseAlarm_table (.island i) .mirrorFault (word c.port.num) 0 (follow_keeps entriesSound_scheduler i failed)
  have stands := raiseAlarm_stands (.island i) (k := .mirrorFault) rfl (word c.port.num) 0 (meetCommit i (reformOrActivate i (failedMove i c p)))
  rw [failMove_eq]
  dsimp only
  split
  · exact (stands.raise (by decide) told.1.2 (.island i) .noSafeSource 0 0).shows
  · exact stands.shows

theorem failMove_noSafe (standby : c.target = .standby) : (failMove i c p).alarms.shows (.island i) .noSafeSource = true := by
  rw [failMove_eq]
  dsimp only
  rw [if_pos standby]
  exact raiseAlarm_alarms ..

theorem failMove_link : (failMove i c p).link = (meetCommit i (reformOrActivate i (failedMove i c p))).link := by
  have raised : ∀ s k a b (q : Part), (raiseAlarm s k a b q).link = q.link := fun s k a b q => ((raiseAlarm_frame s k a b q) .link (by decide)).symm
  rw [failMove_eq]
  dsimp only
  split
  · rw [raised, raised]
    rfl
  · rw [raised]
    rfl

theorem failedMove_calm : Calm i .unknown p.link.settings.interval (failedMove i c p) where
  mirror := by rw [failedMove_island]
  confirm := by rw [failedMove_island]
  fast := (endMove_station ..).1
  countdown := (endMove_station ..).2

/-- A failed move leaves the island calm, unless a take that is left makes its own commit. -/
theorem failMove_calm : Calm i .unknown p.link.settings.interval (failMove i c p) ∨ OwnCommit i (failMove i c p) :=
  (follow_holds (calm_takes i .unknown _) (.inl (failedMove_calm i c p))).imp
    (fun calm => calm.of_same (by rw [(failMove_closes i c p).island]) (by rw [(failMove_closes i c p).island]) (failMove_link i c p))
    fun own => own.of_same (failMove_closes i c p).island

/-- With no take left the island of a failed move stays calm. -/
theorem failMove_none (empty : (p.island i).leftBy c.owner = []) :
    ((failMove i c p).island i).takes = [] ∧ Calm i .unknown p.link.settings.interval (failMove i c p) := by
  have takes : ((failedMove i c p).island i).takes = [] := by rw [failedMove_island]; exact empty
  have island := (failMove_closes i c p).island
  have link := failMove_link i c p
  rw [follow_idle takes] at island link
  exact ⟨by rw [island]; exact takes, (failedMove_calm i c p).of_same (by rw [island]) (by rw [island]) link⟩

/-- What a failed move tells of its island (R112). -/
theorem failMove_holds {k : Nat} {es : List Event} (a : Awaits k es p) (free : k + 5 < Config.maxEvents) :
    Holds (es ++ ((p.island i).endItems c.owner .unknown .failed none none (fun _ => .failed) .mirror).map fun e =>
      ⟨.island i, p.ref.count, e⟩) (failMove i c p) :=
  (failMove_closes i c p).told _
    (follow_keeps (holds_scheduler _) i (endMove_awaits i c.owner .unknown .unknown .failed none none _ .mirror p a free).holds)

/-- The takes that a failed move leaves (R92, R96). -/
theorem failMove_follow {v : Part} (view : Views i v p)
    (heard : v.hears i → ∃ k es, Awaits k es (failedMove i c p) ∧ k + ((p.island i).leftBy c.owner).length < Config.maxEvents) :
    TakesFollow i .unknown v (failMove i c p) ((p.island i).leftBy c.owner) := by
  have island := failedMove_island i c p
  have view' : Views i v (failedMove i c p) :=
    ⟨fun h => (endMove_heads ..).trans (view.heads h), (endMove_ref ..).trans view.ref, by rw [island]; exact view.settings⟩
  have follows := takes_follow view' (list := (p.island i).leftBy c.owner) (by rw [island]) (by rw [island]) heard (.inr rfl) (failMove_closes i c p)
  rwa [island] at follows

end

theorem Island.leftBy_eq_nil {x : Island} {owner : Owner} :
    x.leftBy owner = [] ↔ ¬ (x.takes ≠ [] ∧ (owner = .take → x.active.isSome = true → x.takes.length ≠ 1)) := by
  unfold Island.leftBy
  split
  · rename_i own
    cases x.takes with
    | nil => simp
    | cons t rest => simp [own, List.length_eq_zero_iff]
  · rename_i own
    rw [not_and] at own
    cases x.takes with
    | nil => simp
    | cons t rest => simp_all

theorem Island.leftBy_length (x : Island) (owner : Owner) : (x.leftBy owner).length ≤ x.takes.length := by
  unfold Island.leftBy
  split
  · rw [List.length_tail]
    omega
  · exact le_rfl

/-- Settles O40: the island as the move has failed (`failedMove_island`), the takes that follow (`failMove_follow`), and what they
keep (`airs_takes`, `calm_takes`). -/
theorem moveDeadlineFails : Obligations.MoveDeadlineFails := by
  intro s i running x c confirm due
  have fails : takeDeadline i s.part = failMove i c s.part := by
    rw [takeDeadline, confirm]
  refine .of_field (due := deadlineDue i) (f := takeDeadline i) rfl running ?_ ?_
  · rw [deadlineDue, confirm]
    exact decide_eq_true due
  rw [fails]
  have sched := fails ▸ takeDeadline_sched i s.part
  obtain ⟨onAir, fEnd, settings, authority⟩ := failMove_unknown i c s.part
  have told : s.part.listens → _ := fun l => failMove_holds i c s.part l.awaits (by decide)
  have count : (failMove i c s.part).ref = s.part.ref := (sched.frame .ref (by decide)).symm
  refine ⟨onAir, fEnd, settings, authority, fun sound => failMove_shows i c s.part ⟨running, sound⟩, failMove_noSafe i c s.part,
    fun l => ?_, fun t active owner l => ?_, fun gone => ?_, ?_,
    fun _ => (failMove_calm i c s.part).imp (fun a => ⟨a.mirror, a.confirm, a.fast, a.countdown⟩) id, sched.heads, sched.frame⟩
  · have first := (told l).2
    rw [List.nil_append, Island.endItems, List.map_cons, ← count] at first
    exact (List.singleton_sublist.2 List.mem_cons_self).trans first
  · refine (told l).tells ?_
    rw [Island.endItems, if_pos owner, active, count]
    rfl
  · obtain ⟨empty, calm⟩ := failMove_none i c s.part (Island.leftBy_eq_nil.2 gone)
    exact ⟨empty, calm.mirror, calm.confirm, calm.fast, calm.countdown⟩
  · refine failMove_follow i c s.part ⟨fun _ => rfl, rfl, rfl⟩ fun hears => ⟨6, _,
      endMove_awaits i c.owner .unknown .unknown .failed none none _ .mirror s.part hears.1.awaits (by decide), ?_⟩
    have most := hears.2
    have fewer := (s.part.island i).leftBy_length c.owner
    simp only [Config.maxTakes, Config.maxEvents] at most ⊢
    omega

end Sys2Proof.Machine
end

section
/-! PROOFS. The panel's keys: what a press changes, and the end of a dwell (R146, R152 to R156). -/

namespace Sys2Proof.Machine

/-! ### What a press changes -/

section
variable {t : List Block} {p₀ : Part} (sub : Block.scheduling ⊆ t)
include sub

theorem changes_drive : DriveKeeps (ChangesOnly t p₀) where
  post s e p a := a.trans ((post_sched s e p).frame.mono sub)
  raise s k x y p a := a.trans ((raiseAlarm_sched s k x y p).frame.mono sub)
  clear s k x y p a := a.trans ((clearAlarm_sched s k x y p).frame.mono sub)
  head h f p _ a := a.trans (((modHead_frame h f p).mono (t := Block.scheduling) (by cases h <;> decide)).mono sub)
  analog x p a := a.trans (((setAnalog_frame x p).mono (t := Block.scheduling) (by decide)).mono sub)

theorem changes_scheduler : SchedulerKeeps (ChangesOnly t p₀) where
  post := (changes_drive sub).post
  raise := (changes_drive sub).raise
  clear := (changes_drive sub).clear
  islands x p a := a.trans ((setIslands_sched x p).frame.mono sub)
  move i q f p a := a.trans (((submitMove_frame i q f p).mono (t := Block.scheduling) (by decide)).mono sub)
  fast i p a := a.trans (((endFast_frame i p).mono (t := Block.scheduling) (by decide)).mono sub)
  start h p rest a := a.trans ((startDrive_sched h .scheduler p rest).frame.mono sub)

theorem joinTake_changes (i : IslandId) (u : Take) {p : Part} (a : ChangesOnly t p₀ p) : ChangesOnly t p₀ (joinTake i u p) :=
  (changes_scheduler sub).islands _ p a

theorem pressTake_changes (i : IslandId) {p : Part} (a : ChangesOnly t p₀ p) : ChangesOnly t p₀ (pressTake i p).1 := by
  unfold pressTake
  dsimp only
  split
  · exact a
  · have joined : ChangesOnly t p₀ (requestTake i (.new 0 (p.island i).preset .now 0 none none none .auto) false p).1 := by
      unfold requestTake
      split
      · exact a
      · split
        · exact a
        · split
          · exact a
          · split
            · exact a
            · exact joinTake_changes sub i _ a
    exact ite_keeps (activateFront_keeps (changes_scheduler sub) i joined) joined

/-- A press stays with the heads, the cue tables and the scheduler (R156 to R159). -/
theorem press_changes (k : Key) (l : Bool) {p : Part} (a : ChangesOnly t p₀ p) : ChangesOnly t p₀ (press k l p).1 := by
  have S := changes_scheduler (p₀ := p₀) sub
  have H := (S.reports (changes_drive sub)).heads
  cases k with
  | authority i => exact S.islands _ p a
  | standby i => exact standbyRequest_keeps S i a
  | ack => exact a.trans ((acknowledge_frame none p).mono (fun _ m => sub (alarming_scheduling m)))
  | start h => exact ite_press_keeps (H.startHead h _ p a) a
  | stop h => exact ite_press_keeps (H.requestStop h _ p a) a
  | cue h =>
    refine ite_press_keeps ?_ a
    unfold pressCue
    split
    · exact H.cueToId h _ _ p a
    · exact a
  | preset i => exact ite_press_keeps (S.islands _ p a) a
  | take i => exact ite_press_keeps (pressTake_changes sub i a) a

theorem handlePress_changes (r : Fin 8) (n : Nat) {p : Part} (a : ChangesOnly t p₀ p) : ChangesOnly t p₀ (handlePress r n p) := by
  unfold handlePress
  split
  · exact a
  · exact (changes_drive sub).post _ _ _ (press_changes sub _ _ a)

end

/-! ### The end of a dwell -/

/-- The part with the active row's keys sampled (R154). -/
def Part.sampled (levels : BitVec 4) (p : Part) : Part :=
  { p with panel := { p.panel with keys := p.panel.keys.set p.panel.row (p.panel.keys[p.panel.row].sample levels) } }

/-- The presses a sample of the active row completes (R155). -/
def Part.presses (levels : BitVec 4) (p : Part) : List Nat := p.panel.keys[p.panel.row].pressed (p.panel.keys[p.panel.row].sample levels)

theorem sampled_frame (levels : BitVec 4) (p : Part) : ChangesOnly [.panel] p (p.sampled levels) := by
  intro b hb
  cases b <;> simp at hb <;> simp [Block.same, Part.sampled]

/-- The presses of a row handled (R155, R163). -/
def Part.worked (levels : BitVec 4) (p : Part) : Part :=
  if p.mode = .running then (p.presses levels).foldl (fun q n => handlePress p.panel.row n q) (p.sampled levels) else p.sampled levels

theorem takeDwellEnd_eq (levels : BitVec 4) (p : Part) :
    takeDwellEnd levels p = beginRow (p.panel.row + 1) (p.panel.begun + p.panel.dwellTicks) (p.worked levels) := rfl

theorem worked_quiet {levels : BitVec 4} {p : Part} (quiet : p.presses levels = [] ∨ p.mode = .transparent) :
    p.worked levels = p.sampled levels := by
  unfold Part.worked
  obtain none | transparent := quiet
  · rw [none]
    exact ite_self _
  · rw [transparent]
    exact if_neg nofun

theorem worked_one {levels : BitVec 4} {p : Part} (running : p.mode = .running) {n : Nat} (one : p.presses levels = [n]) :
    p.worked levels = handlePress p.panel.row n (p.sampled levels) := by
  rw [Part.worked, if_pos running, one]
  rfl

/-- The presses leave the panel to its scan. -/
theorem worked_changes (levels : BitVec 4) (p : Part) : ChangesOnly Block.scheduling (p.sampled levels) (p.worked levels) := by
  unfold Part.worked
  refine .ite (foldl_keeps (fun q n => handlePress_changes (List.Subset.refl _) _ n) _ (.refl _ _)) (.refl _ _)

theorem worked_panel (levels : BitVec 4) (p : Part) : (p.worked levels).panel = (p.sampled levels).panel :=
  ((worked_changes levels p) .panel (by decide)).symm

theorem beginRow_panel (r : Fin 8) (t : Nat) (p : Part) : ∃ shown image,
    (beginRow r t p).panel = { p.panel with row := r, begun := t, dwellNow := p.panel.dwell, shown := shown, image := image } := by
  unfold beginRow
  dsimp only
  split
  · split <;> exact ⟨_, _, rfl⟩
  · exact ⟨_, _, rfl⟩

/-- What the end of a dwell leaves of the panel (R152, R154). -/
theorem takeDwellEnd_panel (levels : BitVec 4) (p : Part) : let q := takeDwellEnd levels p
    q.panel.keys = p.panel.keys.set p.panel.row (p.panel.keys[p.panel.row].sample levels) ∧ q.panel.row = p.panel.row + 1 ∧
    q.panel.begun = p.panel.begun + p.panel.dwellTicks ∧ q.panel.dwellNow = p.panel.dwell ∧ q.panel.dwell = p.panel.dwell ∧
    q.panel.mode = p.panel.mode := by
  intro q
  obtain ⟨shown, image, panel⟩ := beginRow_panel (p.panel.row + 1) (p.panel.begun + p.panel.dwellTicks) (p.worked levels)
  rw [worked_panel] at panel
  rw [show q.panel = _ from panel]
  exact ⟨rfl, rfl, rfl, rfl, rfl, rfl⟩

/-- What a press changes, the end of the dwell changes, and the panel. -/
theorem takeDwellEnd_changes {t : List Block} {levels : BitVec 4} {p : Part} (a : ChangesOnly t (p.sampled levels) (p.worked levels))
    (panel : .panel ∈ t) : ChangesOnly t p (takeDwellEnd levels p) := by
  have one : [Block.panel] ⊆ t := List.cons_subset.2 ⟨panel, List.nil_subset t⟩
  exact (((sampled_frame levels p).mono one).trans a).trans ((beginRow_frame _ _ _).mono one)

/-- DWELL_END with the dwell in progress over (R152, R163). -/
theorem Completes.of_dwellEnd {s : State} {dt : Nat} {levels : BitVec 4} {P : Part → Prop} (scanned : s.part.mode ≠ .loading)
    (ends : s.part.panel.begun + (s.part.panel.dwellNow + 1) * 32 ≤ s.part.time.now + dt)
    (a : ∀ t, t.now = s.part.time.now + dt → P (takeDwellEnd levels { s.part with time := t })) : Completes (.dwellEnd dt levels) s P := by
  have isOver : dwellOver (elapse dt s.part) = true := by
    simp only [dwellOver, elapse_mode, elapse_panel, elapse_now, Bool.and_eq_true, ne_eq, decide_eq_true_eq]
    exact ⟨scanned, ends⟩
  have e : dwellEnd dt levels s.part = takeDwellEnd levels (elapse dt s.part) := if_pos isOver
  rw [elapse_eq] at e
  exact ⟨_, rfl, e ▸ a _ (elapse_now dt s.part)⟩

theorem timed_changes {t : List Block} (p : Part) (x : Timebase) (time : .time ∈ t) : ChangesOnly t p { p with time := x } := by
  have alone : ChangesOnly [.time] p { p with time := x } := by
    intro b hb
    cases b <;> simp at hb <;> simp [Block.same]
  exact alone.mono (List.cons_subset.2 ⟨time, List.nil_subset t⟩)

theorem tells_congr {p q : Part} (evt : q.evt = p.evt) (ref : q.ref = p.ref) (s : AlarmSource) (l : List EventItem) :
    q.tells s l ↔ p.tells s l := by
  rw [Part.tells, Part.tells, evt, ref]

section
variable (levels : BitVec 4) (p : Part)

theorem takeDwellEnd_head (h : HeadId) : (takeDwellEnd levels p).head h = (p.worked levels).head h :=
  (beginRow_frame _ _ _).head (by simp)

theorem takeDwellEnd_island (i : IslandId) : (takeDwellEnd levels p).island i = (p.worked levels).island i :=
  ((beginRow_frame _ _ _) (.island i) (by simp)).symm

theorem takeDwellEnd_alarms : (takeDwellEnd levels p).alarms = (p.worked levels).alarms :=
  ((beginRow_frame _ _ _) .alarms (by simp)).symm

theorem takeDwellEnd_tells (s : AlarmSource) (l : List EventItem) : (takeDwellEnd levels p).tells s l ↔ (p.worked levels).tells s l :=
  tells_congr ((beginRow_frame _ _ _) .events (by simp)).symm ((beginRow_frame _ _ _) .ref (by simp)).symm s l

end

/-! ### The keys of a row -/

/-- A key position after a sample, as R154 counts it. -/
theorem KeyPos.sample_eq (down : Bool) (k : KeyPos) : k.sample down =
    if down = k.down then ⟨k.down, 0⟩ else if 2 ≤ k.agree then ⟨down, 0⟩ else ⟨k.down, k.agree + 1⟩ := by
  unfold KeyPos.sample
  by_cases agrees : 2 ≤ k.agree
  · rw [if_pos agrees, if_pos (Nat.succ_le_succ agrees)]
  · rw [if_neg agrees, if_neg fun h => agrees (Nat.le_of_succ_le_succ h)]

theorem RowKeys.pressed_eq (old new : RowKeys) : old.pressed new =
    (if old.r1.down = false ∧ new.r1.down = true then [1] else []) ++ (if old.r2.down = false ∧ new.r2.down = true then [2] else []) ++
    (if old.r3.down = false ∧ new.r3.down = true then [3] else []) ++ (if old.r4.down = false ∧ new.r4.down = true then [4] else []) := by
  simp only [RowKeys.pressed, Bool.and_eq_true, Bool.not_eq_true']

theorem RowKeys.mem_pressed {old new : RowKeys} {n : Nat} (m : n ∈ old.pressed new) : n = 1 ∨ n = 2 ∨ n = 3 ∨ n = 4 := by
  have one : ∀ (c : Bool) (k : Nat), n ∈ (if c then [k] else []) → n = k := fun c k m => by
    cases c with
    | true => exact List.mem_singleton.1 m
    | false => cases m
  simp only [RowKeys.pressed, List.mem_append] at m
  obtain ((m | m) | m) | m := m
  · exact .inl (one _ _ m)
  · exact .inr (.inl (one _ _ m))
  · exact .inr (.inr (.inl (one _ _ m)))
  · exact .inr (.inr (.inr (one _ _ m)))

/-- The authority a press finds: that of its key's island (R155). -/
def Part.keyAuthority (p : Part) (k : Key) : Option Authority := (p.keyIsland k).map fun i => (p.island i).authority

/-- A press: its request, then KEY (R155). -/
theorem handlePress_eq {r : Fin 8} {n : Nat} {k : Key} (is : keyAt r n = some k) {p q : Part} {st : Option Status}
    (pressed : press k (decide (p.keyAuthority k = some .panel)) p = (q, st)) : handlePress r n p =
      post k.source (.key (outcomeOf st) (p.keyAuthority k) (r.val + 1) n (refusalOf st)) q := by
  have e : handlePress r n p = post k.source (.key (outcomeOf (press k (decide (p.keyAuthority k = some .panel)) p).2) (p.keyAuthority k)
      (r.val + 1) n (refusalOf (press k (decide (p.keyAuthority k = some .panel)) p).2))
      (press k (decide (p.keyAuthority k = some .panel)) p).1 := by
    simp only [handlePress, is] <;> rfl
  rw [e, pressed]

theorem handlePress_awaits {r : Fin 8} {n : Nat} {k : Key} (is : keyAt r n = some k) {p q : Part} {st : Option Status}
    (pressed : press k (decide (p.keyAuthority k = some .panel)) p = (q, st)) {m : Nat} {es : List Event} (a : Awaits m es q)
    (free : m < Config.maxEvents) : Awaits (m + 1)
      (es ++ [⟨k.source, q.ref.count, .key (outcomeOf st) (p.keyAuthority k) (r.val + 1) n (refusalOf st)⟩]) (handlePress r n p) := by
  rw [handlePress_eq is pressed]
  exact a.post _ _ free

theorem keyAt_head {r : Fin 8} {h : HeadId} (row : r.val + 2 = 2 * h.num) {n : Nat} (few : n = 1 ∨ n = 2 ∨ n = 3) :
    keyAt r n = some (if n = 1 then .start h else if n = 2 then .stop h else .cue h) := by
  have only : ∀ m : Fin 8, m.val + 2 = 2 * h.num → r = m := fun m is => Fin.ext (by omega)
  cases h with
  | h1 => obtain rfl := only 0 rfl; obtain rfl | rfl | rfl := few <;> rfl
  | h2 => obtain rfl := only 2 rfl; obtain rfl | rfl | rfl := few <;> rfl
  | h3 => obtain rfl := only 4 rfl; obtain rfl | rfl | rfl := few <;> rfl
  | h4 => obtain rfl := only 6 rfl; obtain rfl | rfl | rfl := few <;> rfl

theorem keyAt_island {r : Fin 8} {i : IslandId} (row : r.val = if i = .i1 then 1 else 3) {n : Nat}
    (few : n = 1 ∨ n = 2 ∨ n = 3 ∨ n = 4) :
    keyAt r n = some (if n = 1 then .preset i else if n = 2 then .take i else if n = 3 then .standby i else .authority i) := by
  obtain ⟨r, small⟩ := r
  cases i <;> simp only [reduceCtorEq, if_true, if_false] at row <;> subst row <;> obtain rfl | rfl | rfl | rfl := few <;> rfl

/-- A press outside LOCAL of a key that acts in LOCAL alone tells of itself and does nothing (R155, R157). -/
theorem press_idle {k : Key} (needs : (∀ i, k ≠ .authority i) ∧ (∀ i, k ≠ .standby i) ∧ k ≠ .ack) (p : Part) :
    press k false p = (p, none) := by
  obtain ⟨authority, standby, ack⟩ := needs
  cases k with
  | authority i => exact absurd rfl (authority i)
  | standby i => exact absurd rfl (standby i)
  | ack => exact absurd rfl ack
  | start h => rfl
  | stop h => rfl
  | cue h => rfl
  | preset i => rfl
  | take i => rfl

/-! ### ACK -/

theorem acknowledgeEntry_awaits {k : Nat} {es : List Event} {p : Part} (a : Awaits k es p) (e : AlarmEntry) :
    Awaits (k + 1) es (acknowledgeEntry e p) := by
  unfold acknowledgeEntry
  split
  · exact (a.alarms _).other _ _
  · exact (a.alarms _).other _ _
  · exact a.mono (Nat.le_succ _)

/-- An acknowledgement posts at most an event for each entry. -/
theorem acknowledge_awaits {k : Nat} {es : List Event} {p : Part} (a : Awaits k es p) :
    Awaits (k + p.alarms.entries.length) es (acknowledge none p) := by
  have walk : ∀ (l : List AlarmEntry) {k : Nat} {q : Part}, Awaits k es q →
      Awaits (k + l.length) es (l.foldl (fun q e => acknowledgeEntry e q) q) := by
    intro l
    induction l with
    | nil => exact id
    | cons e l ih =>
      intro k q b
      rw [List.length_cons, Nat.add_comm l.length, ← Nat.add_assoc]
      exact ih (acknowledgeEntry_awaits b e)
  have walked := (walk (p.alarms.entries.filter fun e => (none : Option AlarmSource) = none ∨ none = some e.source) a).mono
    (Nat.add_le_add_left (List.length_filter_le ..) k)
  exact (walked.alarms _).judge

theorem acknowledge_acked {p : Part} (sound : p.alarms.sound = true) :
    (∀ e ∈ (acknowledge none p).alarms.entries, e.state = .activeAck) ∧ (acknowledge none p).alarms.horn = false := by
  have acked : ∀ e ∈ (acknowledge none p).alarms.entries, e.state = .activeAck := fun e mem => by
    rw [acknowledge_entries none sound] at mem
    obtain ⟨d, -, is⟩ := List.mem_filterMap.1 mem
    rw [if_pos (.inl rfl)] at is
    unfold AlarmEntry.acknowledged at is
    split at is
    · cases is
      rfl
    · rename_i known
      cases is
      exact known
    · cases is
  refine ⟨acked, ?_⟩
  have horn : (acknowledge none p).alarms.horn = (acknowledge none p).alarms.entries.any fun e => e.unacknowledged && e.kind.severity.sounds :=
    rfl
  rw [horn, List.any_eq_false]
  intro e mem
  simp [AlarmEntry.unacknowledged, acked e mem]

/-! ### O47 -/

/-- A key of a head that is not in LOCAL does nothing (R155, R157). -/
theorem press_remote {h : HeadId} {k : Key} (named : k = .start h ∨ k = .stop h ∨ k = .cue h) {p : Part} (remote : p.headLocal h = false) :
    press k (decide (p.keyAuthority k = some .panel)) p = (p, none) ∧ k.source = .head h ∧
      p.keyAuthority k = (p.head h).assigned.map fun b => (p.island b.island).authority := by
  have found : ∀ l : Key, p.keyIsland l = (p.head h).assigned.map (·.island) →
      p.keyAuthority l = (p.head h).assigned.map fun b => (p.island b.island).authority := fun l is => by
    rw [Part.keyAuthority, is, Option.map_map]
    rfl
  have outside : ((p.head h).assigned.map fun b => (p.island b.island).authority) ≠ some .panel := fun panel => by
    obtain ⟨b, is, authority⟩ := Option.map_eq_some_iff.1 panel
    rw [Part.headLocal, is] at remote
    exact absurd authority (of_decide_eq_false remote)
  obtain rfl | rfl | rfl := named <;>
    refine ⟨?_, rfl, found _ rfl⟩ <;> rw [found _ rfl, decide_eq_false outside] <;> rfl

/-- An island with its authority turned over (R156). -/
def Island.turned (x : Island) : Island := { x with authority := if x.authority = .panel then .remote else .panel }

/-- Settles O47. -/
theorem dwellEndSamplesTheRow : Obligations.DwellEndSamplesTheRow := by
  intro s dt levels scanned x old one new fresh presses length ends
  have sampled : old.sample levels = new := by
    simp only [RowKeys.sample, KeyPos.sample_eq]
    rfl
  refine .of_dwellEnd scanned ends fun t _ => ?_
  generalize before : ({ s.part with time := t } : Part) = p
  have pressed : p.presses levels = presses := by
    have is := RowKeys.pressed_eq old (old.sample levels)
    rw [sampled] at is
    rw [← before, Part.presses]
    exact (congrArg old.pressed sampled).trans is
  have whole : ∀ {b : List Block}, .time ∈ b → .panel ∈ b → ChangesOnly b (p.sampled levels) (p.worked levels) →
      ChangesOnly b s.part (takeDwellEnd levels p) := fun time panel a =>
    (before ▸ timed_changes s.part t time).trans (takeDwellEnd_changes a panel)
  obtain ⟨keys, next, begun, dwellNow, dwell, display⟩ := takeDwellEnd_panel levels p
  have mode : p.mode = s.part.mode := before ▸ rfl
  have row : p.panel.row = x.row := before ▸ rfl
  have same : ChangesOnly [.time, .panel] s.part (p.sampled levels) :=
    (before ▸ timed_changes s.part t (by simp)).trans ((sampled_frame levels p).mono (by simp))
  have island : ∀ i, (p.sampled levels).island i = s.part.island i := fun i => (same (.island i) (by simp)).symm
  have head : ∀ h, (p.sampled levels).head h = s.part.head h := fun h => same.head (by simp)
  have count : (p.sampled levels).ref = s.part.ref := (same .ref (by simp)).symm
  have evt : (p.sampled levels).evt = s.part.evt := (same .events (by simp)).symm
  have awaits : s.part.listens → Awaits 0 [] (p.sampled levels) := fun l => l.awaits.of_evt evt
  have worked : ∀ n, s.part.mode = .running → presses = [n] → p.worked levels = handlePress x.row n (p.sampled levels) :=
    fun n running is => row ▸ worked_one (mode.trans running) (pressed.trans is)
  refine ⟨?_, before ▸ next, before ▸ begun, before ▸ dwellNow, before ▸ dwell, before ▸ display, fun quiet => ?_, fun i running one_ at_ => ?_, fun h n running one_ few at_ remote => ?_,
    fun running one_ at_ sound => ?_, ?_⟩
  · subst before
    rw [← sampled]
    exact keys
  · rw [worked_quiet (quiet.imp (pressed.trans ·) (mode.trans ·))] at whole
    exact whole (by simp) (by simp) (.refl _ _)
  · have is := worked 4 running one_
    have key := keyAt_island at_ (n := 4) (.inr (.inr (.inr rfl)))
    have does : press (.authority i) (decide ((p.sampled levels).keyAuthority (.authority i) = some .panel)) (p.sampled levels) =
      ((p.sampled levels).modIsland i Island.turned, some .ok) := rfl
    have posts := handlePress_eq key does
    have turned : (takeDwellEnd levels p).island i = (s.part.island i).turned := by
      rw [takeDwellEnd_island, is, posts, post_island, modIsland_island, island]
    refine ⟨?_, by rw [turned]; rfl, fun l => ?_, ?_⟩
    · rw [turned]
      show (if (s.part.island i).authority = .panel then Authority.remote else Authority.panel) ≠ _
      split
      · rename_i panel
        rw [panel]
        exact nofun
      · exact Ne.symm ‹_›
    · have told := (handlePress_awaits key does (Awaits.of_evt (awaits l) rfl) (by decide)).holds
      rw [takeDwellEnd_tells, is]
      refine told.tells ?_
      rw [posts, post_count]
      show [_] = [_]
      simp only [Part.keyAuthority, Part.keyIsland, island]
      rfl
    · refine whole (by simp) (by simp) ?_
      rw [is, posts]
      exact ((modIsland_frame i Island.turned _).mono (by simp)).trans ((post_frame _ _ _).mono (fun _ m => by simp [m]))
  · have is := worked n running one_
    have some_ : n = 1 ∨ n = 2 ∨ n = 3 := by
      have m : n ∈ p.presses levels := by rw [pressed, one_]; exact List.mem_singleton_self n
      have := RowKeys.mem_pressed m
      omega
    have key := keyAt_head at_ some_
    generalize found : (if n = 1 then Key.start h else if n = 2 then .stop h else .cue h) = k at key
    have named : k = .start h ∨ k = .stop h ∨ k = .cue h := by
      rw [← found]
      split
      · exact .inl rfl
      · split
        · exact .inr (.inl rfl)
        · exact .inr (.inr rfl)
    have remote' : (p.sampled levels).headLocal h = false := by
      rw [← remote, Part.headLocal, Part.headLocal, head]
      exact congrArg (Option.any · _) (funext fun b => congrArg (fun x : Island => decide (x.authority = .panel)) (island b.island))
    obtain ⟨does, source, authority⟩ := press_remote named remote'
    have posts := handlePress_eq key does
    refine ⟨fun l => ?_, ?_⟩
    · have told := (handlePress_awaits key does (awaits l) (by decide)).holds
      rw [takeDwellEnd_tells, is]
      refine told.tells ?_
      rw [posts, post_count, source, authority, head]
      simp only [island]
      rfl
    · refine whole (by simp) (by simp) ?_
      rw [is, posts]
      exact (post_frame _ _ _).mono (fun _ m => by simp [m])
  · have is := worked 1 running one_
    have key : keyAt x.row 1 = some .ack := by
      rw [show x.row = 5 from Fin.ext at_]
      rfl
    have does : press .ack (decide ((p.sampled levels).keyAuthority .ack = some .panel)) (p.sampled levels) =
      (acknowledge none (p.sampled levels), some .ok) := rfl
    have posts := handlePress_eq key does
    have alarms : (p.sampled levels).alarms = s.part.alarms := (same .alarms (by simp)).symm
    have acked := acknowledge_acked (alarms ▸ sound : (p.sampled levels).alarms.sound = true)
    have table : (takeDwellEnd levels p).alarms = (acknowledge none (p.sampled levels)).alarms := by
      rw [takeDwellEnd_alarms, is, posts, post_alarms]
    refine ⟨table ▸ acked.1, table ▸ acked.2, fun l few => ?_, ?_⟩
    · have room := acknowledge_awaits (awaits l)
      rw [alarms, Nat.zero_add] at room
      have told := (handlePress_awaits key does room (by simp only [Config.maxEvents]; omega)).holds
      rw [takeDwellEnd_tells, is]
      refine told.tells ?_
      rw [posts, post_count, at_]
      rfl
    · refine whole (by simp) (by simp) ?_
      rw [is, posts]
      exact ((acknowledge_frame _ _).mono (fun _ m => by simp [m])).trans ((post_frame _ _ _).mono (fun _ m => by simp [Block.alarming, m]))
  · exact whole (by simp) (by simp) ((worked_changes levels _).mono (by simp))

end Sys2Proof.Machine
end

section
/-! PROOFS. O48. What a row of the panel shows (R152, R153, R160, R161, R163). -/

namespace Sys2Proof.Machine

/-! ### Points -/

theorem digitSegments_lt (n : Nat) : digitSegments n < 2 ^ 7 := by
  unfold digitSegments
  split <;> decide

theorem Shown.digit_lt (v : Shown) (k : Nat) : v.digit k < 2 ^ 7 := by
  unfold Shown.digit
  split
  · decide
  · split
    · decide
    · exact digitSegments_lt _

theorem Shown.sign_lt (v : Shown) : v.sign < 2 ^ 7 := by
  unfold Shown.sign
  split <;> decide

theorem shownDigit_lt {f : Shown → Nat} (small : ∀ v, f v < 2 ^ 7) (h : HeadId) (p : Part) : shownDigit h f p < 2 ^ 7 := by
  unfold shownDigit
  cases p.panel.shown.get h with
  | none => exact Nat.two_pow_pos 7
  | some v => exact small v

/-- The lamps of a row, from the lowest point. -/
theorem lampBits_testBit (count : Stamp) (ls : List LampShow) (n : Nat) :
    (lampBits count ls).testBit n = ls[n]?.any (·.driven count) := by
  induction ls generalizing n with
  | nil => simp [lampBits]
  | cons l rest ih =>
    have whole : lampBits count (l :: rest) = Nat.bit (l.driven count) (lampBits count rest) := by
      rw [lampBits, Nat.bit_val, Nat.add_comm]
      cases l.driven count <;> rfl
    rw [whole]
    cases n with
    | zero => rw [Nat.testBit_bit_zero]; rfl
    | succ n => rw [Nat.testBit_bit_succ, ih]; rfl

/-- A digit of a row's points: seven of them, from a multiple of 7. -/
theorem points_digit (n k : Nat) (few : k < 3) : ((BitVec.ofNat 24 n).extractLsb' (7 * k) 7).toNat = n / 2 ^ (7 * k) % 2 ^ 7 := by
  rw [BitVec.extractLsb'_toNat, BitVec.toNat_ofNat, Nat.shiftRight_eq_div_pow]
  obtain rfl | rfl | rfl : k = 0 ∨ k = 1 ∨ k = 2 := by omega
  all_goals omega

/-- A lamp of a row's points, past its digits. -/
theorem points_lamp {low n m : Nat} (digits : low < 2 ^ m) (lamps k : Nat) (is : n = low + 2 ^ m * lamps) (few : m + k < 24) :
    (BitVec.ofNat 24 n).getLsbD (m + k) = lamps.testBit k := by
  rw [BitVec.getLsbD_ofNat, is, Nat.add_comm low, Nat.testBit_two_pow_mul_add _ digits, if_neg (by omega), Nat.add_sub_cancel_left,
    decide_eq_true few, Bool.true_and]

/-- The three digits of a head's first row. -/
theorem three_digits {a b c n : Nat} (l : Nat) (ha : a < 2 ^ 7) (hb : b < 2 ^ 7) (hc : c < 2 ^ 7)
    (is : n = a + 2 ^ 7 * b + 2 ^ 14 * c + 2 ^ 21 * l) :
    n / 2 ^ (7 * 0) % 2 ^ 7 = a ∧ n / 2 ^ (7 * 1) % 2 ^ 7 = b ∧ n / 2 ^ (7 * 2) % 2 ^ 7 = c := by
  omega

/-! ### A row as its dwell begins -/

section
variable (r : Fin 8) (t : Nat) (p : Part)

/-- The part with row `r` active, the value of a head latched at its first row (R153, R161). -/
def Part.latched : Part :=
  { p with panel := { p.panel with
    row := r, begun := t, dwellNow := p.panel.dwell
    shown := if p.mode = .running ∧ r.val % 2 = 0 then
        p.panel.shown.set (rowHead r) (some ((p.head (rowHead r)).shown p.panel.mode))
      else p.panel.shown } }

/-- The points a row is driven with (R152, R163). -/
def Part.points : Nat := if p.mode = .running then rowPoints r (p.latched r t) else transparentPoints r

theorem beginRow_eq : beginRow r t p = { p.latched r t with panel :=
    { (p.latched r t).panel with image := p.panel.image.set r (BitVec.ofNat 24 (p.points r t)) } } := by
  unfold beginRow Part.points Part.latched
  by_cases running : p.mode = .running
  · by_cases even : r.val % 2 = 0
    · simp [running, even]
    · simp [running, even]
  · simp [running]

theorem beginRow_image : (beginRow r t p).panel.image[r] = BitVec.ofNat 24 (p.points r t) ∧
    ∀ k : Fin 8, k ≠ r → (beginRow r t p).panel.image[k] = p.panel.image[k] := by
  rw [beginRow_eq]
  refine ⟨Vector.getElem_set_self r.isLt, fun k other => ?_⟩
  exact Vector.getElem_set_ne r.isLt k.isLt fun same => other (Fin.ext same.symm)

end

/-! ### The points of a row that runs -/

theorem Shown.sign_shape (v : Shown) : v.sign = if v.negative then 0x40 else 0 := rfl

/-- The shape of a digit (R161). -/
theorem Shown.digit_shape (v : Shown) (k : Nat) : v.digit k =
    if (if v.negative then 999 else 9999) < v.magnitude then 0x40
    else if k ≠ 0 ∧ v.magnitude < 10 ^ k then 0 else digitSegments (v.magnitude / 10 ^ k % 10) := by
  have fits : (¬ v.fits = true) ↔ (if v.negative then 999 else 9999) < v.magnitude := by
    unfold Shown.fits
    cases v.negative <;> simp
  unfold Shown.digit
  by_cases wide : (if v.negative then 999 else 9999) < v.magnitude
  · rw [if_pos wide, if_pos (fits.2 wide)]
    rfl
  · rw [if_neg wide, if_neg (mt fits.1 wide)]

theorem unseen_eq (a : AlarmTable) (x : AlarmSource) :
    a.unseen x = a.entries.any fun e => decide (e.source = x) && decide (e.state ≠ .activeAck) := rfl

section
variable {r : Fin 8} {h : HeadId} {p : Part} (head : rowHead r = h)
include head

/-- A head's first row: the sign, thousands and hundreds, and READY, RUN and FAULT (R152, R160). -/
theorem rowPoints_first {v : Shown} (even : r.val % 2 = 0) (shown : p.panel.shown.get h = some v) :
    let b := BitVec.ofNat 24 (rowPoints r p)
    (b.extractLsb' (7 * 0) 7).toNat = v.sign ∧ (b.extractLsb' (7 * 1) 7).toNat = v.digit 3 ∧
      (b.extractLsb' (7 * 2) 7).toNat = v.digit 2 ∧ ∀ k < 3, b.getLsbD (21 + k) = (headLamps h p)[k]?.any (·.driven p.ref.count) := by
  have digits : ∀ f, shownDigit h f p = f v := fun f => by rw [shownDigit, shown]; rfl
  have is : rowPoints r p = v.sign + 2 ^ 7 * v.digit 3 + 2 ^ 14 * v.digit 2 + 2 ^ 21 * lampBits p.ref.count (headLamps h p) := by
    simp only [rowPoints, if_pos even, head, digits]
  obtain ⟨d0, d1, d2⟩ := three_digits _ v.sign_lt (v.digit_lt 3) (v.digit_lt 2) is
  have low : v.sign + 2 ^ 7 * v.digit 3 + 2 ^ 14 * v.digit 2 < 2 ^ 21 := by
    have := v.sign_lt
    have := v.digit_lt 3
    have := v.digit_lt 2
    omega
  refine ⟨(points_digit _ 0 (by decide)).trans d0, (points_digit _ 1 (by decide)).trans d1, (points_digit _ 2 (by decide)).trans d2,
    fun k few => ?_⟩
  rw [points_lamp low _ k is (by omega), lampBits_testBit]

/-- A head's second row: tens and units (R152). -/
theorem rowPoints_second {v : Shown} (odd : r.val % 2 = 1) (shown : p.panel.shown.get h = some v) :
    let b := BitVec.ofNat 24 (rowPoints r p)
    (b.extractLsb' (7 * 0) 7).toNat = v.digit 1 ∧ (b.extractLsb' (7 * 1) 7).toNat = v.digit 0 := by
  have digits : ∀ f, shownDigit h f p = f v := fun f => by rw [shownDigit, shown]; rfl
  have is : rowPoints r p = v.digit 1 + 2 ^ 7 * v.digit 0 + 2 ^ 14 * 0 + 2 ^ 14 * lampBits p.ref.count (airLamps h p ++ extraLamps r p) := by
    simp only [rowPoints, if_neg (show ¬ r.val % 2 = 0 by omega), head, digits, Nat.mul_zero, Nat.add_zero]
  have first := v.digit_lt 1
  have second := v.digit_lt 0
  exact ⟨(points_digit _ 0 (by decide)).trans (by omega), (points_digit _ 1 (by decide)).trans (by omega)⟩

/-- ON AIR and NEXT of a head, and the lamps of the islands and of the device (R152, R160). -/
theorem rowPoints_lamps (odd : r.val % 2 = 1) {k : Nat} (few : k < 5) :
    (BitVec.ofNat 24 (rowPoints r p)).getLsbD (14 + k) = (airLamps h p ++ extraLamps r p)[k]?.any (·.driven p.ref.count) := by
  have is : rowPoints r p = shownDigit h (Shown.digit · 1) p + 2 ^ 7 * shownDigit h (Shown.digit · 0) p +
      2 ^ 14 * lampBits p.ref.count (airLamps h p ++ extraLamps r p) := by
    simp only [rowPoints, if_neg (show ¬ r.val % 2 = 0 by omega), head]
  have first := shownDigit_lt (fun v => v.digit_lt 1) h p
  have second := shownDigit_lt (fun v => v.digit_lt 0) h p
  rw [points_lamp (by omega) _ k is (by omega), lampBits_testBit]

end

/-! ### O48 -/

theorem rowHead_first {r : Fin 8} {h : HeadId} (row : r.val + 2 = 2 * h.num) : rowHead r = h ∧ r.val % 2 = 0 := by
  refine ⟨?_, by omega⟩
  have half : r.val / 2 = h.num - 1 := by omega
  unfold rowHead
  rw [half]
  cases h <;> rfl

theorem rowHead_second {r : Fin 8} {h : HeadId} (row : r.val + 1 = 2 * h.num) : rowHead r = h ∧ r.val % 2 = 1 := by
  have least : 1 ≤ h.num := by cases h <;> decide
  refine ⟨?_, by omega⟩
  have half : r.val / 2 = h.num - 1 := by omega
  unfold rowHead
  rw [half]
  cases h <;> rfl

theorem lampIf_driven (count : Stamp) (b : Bool) : (lampIf b).driven count = b := by
  cases b <;> rfl

theorem isPreset_eq_true {p : Part} {h : HeadId} : p.isPreset h = true ↔ ∃ i, (p.island i).preset = .head h := by
  rw [Part.isPreset, Bool.or_eq_true, decide_eq_true_eq, decide_eq_true_eq]
  exact ⟨fun e => e.elim (⟨.i1, ·⟩) (⟨.i2, ·⟩), fun ⟨i, e⟩ => by
    cases i with
    | i1 => exact .inl e
    | i2 => exact .inr e⟩

theorem shown_eq (m : DisplayMode) (y : Head) : y.shown m = { negative := decide (y.pos.frame < 0), magnitude := y.pos.frame.natAbs /
    (if m = .frames then 1 else if y.settings.gauge = .g35 then 16 else 40) } := by
  unfold Head.shown
  cases m with
  | frames => simp
  | feet => cases y.settings.gauge <;> rfl

theorem latched_first {r : Fin 8} {t : Nat} {p : Part} (running : p.mode = .running) (even : r.val % 2 = 0) :
    (p.latched r t).panel.shown = p.panel.shown.set (rowHead r) (some ((p.head (rowHead r)).shown p.panel.mode)) :=
  if_pos ⟨running, even⟩

theorem latched_second {r : Fin 8} {t : Nat} {p : Part} (odd : r.val % 2 = 1) : (p.latched r t).panel.shown = p.panel.shown :=
  if_neg fun both => by omega

/-- Settles O48. -/
theorem panelShowsThePart : Obligations.PanelShowsThePart := by
  intro s dt levels scanned x p r ends quiet
  refine .of_dwellEnd scanned ends fun t _ => ?_
  generalize before : ({ s.part with time := t } : Part) = w
  have mode : w.mode = p.mode := before ▸ rfl
  have presses : w.presses levels = [] ∨ w.mode = .transparent := by
    cases running : s.part.mode with
    | loading => exact absurd running scanned
    | transparent => exact .inr (mode.trans running)
    | running =>
      refine .inl ?_
      subst before
      exact quiet running
  have same : ChangesOnly [.time, .panel] s.part (w.sampled levels) :=
    (before ▸ timed_changes s.part t (by simp)).trans ((sampled_frame levels w).mono (by simp))
  have whole : ChangesOnly [.time, .panel] s.part (beginRow (w.panel.row + 1) (w.panel.begun + w.panel.dwellTicks) (w.sampled levels)) :=
    same.trans ((beginRow_frame _ _ _).mono (by simp))
  have image : (w.sampled levels).panel.image = x.image := before ▸ rfl
  have shown : (w.sampled levels).panel.shown = x.shown := before ▸ rfl
  have display : (w.sampled levels).panel.mode = x.mode := before ▸ rfl
  have row : w.panel.row + 1 = r := before ▸ rfl
  rw [takeDwellEnd_eq, worked_quiet presses]
  rw [row] at whole ⊢
  generalize w.panel.begun + w.panel.dwellTicks = t' at whole ⊢
  generalize w.sampled levels = z at same whole image shown display ⊢
  have mode' : z.mode = p.mode := (same .mode (by simp)).symm
  have alarms : z.alarms = p.alarms := (same .alarms (by simp)).symm
  have ref : z.ref = p.ref := (same .ref (by simp)).symm
  have head : ∀ h, z.head h = p.head h := fun h => same.head (by simp)
  have island : ∀ i, z.island i = p.island i := fun i => (same (.island i) (by simp)).symm
  obtain ⟨driven, others⟩ := beginRow_image r t' z
  have latch : (beginRow r t' z).panel.shown = (z.latched r t').panel.shown := by rw [beginRow_eq]
  intro lit digit flash shape unseen
  have points : p.mode = .running → (beginRow r t' z).panel.image[r] = BitVec.ofNat 24 (rowPoints r (z.latched r t')) := fun running => by
    rw [driven, Part.points, if_pos (mode'.trans running)]
  refine ⟨fun k other => image ▸ others k other, fun transparent => ?_, fun h running at_ => ?_, fun h running at_ => ?_, fun i running at_ => ?_,
    fun running at_ => ?_, whole⟩
  · have stopped : ¬ z.mode = .running := by rw [mode', transparent]; exact nofun
    rw [driven, Part.points, if_neg stopped, latch, ← shown]
    refine ⟨?_, if_neg fun both => stopped both.1⟩
    unfold transparentPoints
    split <;> rfl
  · obtain ⟨isHead, even⟩ := rowHead_first at_
    have latched := latched_first (t := t') (mode'.trans running) even
    rw [isHead, shown, display, head, shown_eq] at latched
    obtain ⟨d0, d1, d2, lamps⟩ := rowPoints_first (p := z.latched r t') isHead even (by rw [latched, Four.get_set_same])
    rw [← points running] at d0 d1 d2 lamps
    have lamp : ∀ k < 3, lit (21 + k) = (headLamps h (z.latched r t'))[k]?.any (·.driven p.ref.count) := fun k few =>
      (lamps k few).trans (by rw [show (z.latched r t').ref = p.ref from ref])
    have drive : (z.latched r t').head h = p.head h := head h
    have table : (z.latched r t').alarms = p.alarms := alarms
    refine ⟨latch.trans latched, d0, d1.trans (Shown.digit_shape _ _), d2.trans (Shown.digit_shape _ _), ?_, ?_, ?_⟩
    · refine (lamp 0 (by decide)).trans ?_
      simp only [headLamps, drive, List.getElem?_cons_zero, Option.any_some, lampIf_driven, Bool.decide_or]
    · refine (lamp 1 (by decide)).trans ?_
      simp only [headLamps, drive, List.getElem?_cons_succ, List.getElem?_cons_zero, Option.any_some, lampIf_driven]
      cases (p.head h).drive <;> rfl
    · refine (lamp 2 (by decide)).trans ?_
      simp only [headLamps, drive, table, List.getElem?_cons_succ, List.getElem?_cons_zero, Option.any_some]
      show (if unseen (.head h) = true then LampShow.flash else lampIf _).driven p.ref.count = _
      split
      · rfl
      · exact lampIf_driven _ _
  · obtain ⟨isHead, odd⟩ := rowHead_second at_
    have latched := latched_second (t := t') (p := z) odd
    rw [shown] at latched
    have lamp : ∀ k < 5, lit (14 + k) = (airLamps h (z.latched r t') ++ extraLamps r (z.latched r t'))[k]?.any (·.driven p.ref.count) :=
      fun k few => by
        have is := rowPoints_lamps (p := z.latched r t') isHead odd few
        rw [← points running] at is
        exact is.trans (by rw [show (z.latched r t').ref = p.ref from ref])
    refine ⟨latch.trans latched, fun v held => ?_, ?_, ?_⟩
    · obtain ⟨d0, d1⟩ := rowPoints_second (p := z.latched r t') isHead odd (by rw [latched]; exact held)
      rw [← points running] at d0 d1
      exact ⟨d0.trans (Shown.digit_shape _ _), d1.trans (Shown.digit_shape _ _)⟩
    · rw [lamp 0 (by decide)]
      simp only [airLamps, List.cons_append, List.getElem?_cons_zero, Option.any_some, lampIf_driven]
      rw [onAir_iff]
      exact exists_congr fun i => by rw [show (z.latched r t').island i = p.island i from island i]
    · rw [lamp 1 (by decide)]
      simp only [airLamps, List.cons_append, List.getElem?_cons_succ, List.getElem?_cons_zero, Option.any_some, lampIf_driven]
      rw [isPreset_eq_true]
      exact exists_congr fun i => by rw [show (z.latched r t').island i = p.island i from island i]
  · have odd : r.val % 2 = 1 := by
      split at at_ <;> omega
    have own : (z.latched r t').island i = p.island i := island i
    have extra : extraLamps r (z.latched r t') = islandLamps i (z.latched r t') := by
      cases i <;> simp only [reduceCtorEq, if_true, if_false] at at_ <;> simp only [extraLamps, at_]
    have lamp : ∀ k < 5, lit (14 + k) = (airLamps (rowHead r) (z.latched r t') ++ islandLamps i (z.latched r t'))[k]?.any (·.driven p.ref.count) :=
      fun k few => by
        have is := rowPoints_lamps (p := z.latched r t') (r := r) rfl odd few
        rw [← points running, extra] at is
        exact is.trans (by rw [show (z.latched r t').ref = p.ref from ref])
    refine ⟨?_, ?_, ?_⟩
    · refine (lamp 2 (by decide)).trans ?_
      simp only [airLamps, islandLamps, List.cons_append, List.nil_append, List.getElem?_cons_succ, List.getElem?_cons_zero, Option.any_some, lampIf_driven, Part.inLocal,
        own]
    · refine (lamp 3 (by decide)).trans ?_
      simp only [airLamps, islandLamps, List.cons_append, List.nil_append, List.getElem?_cons_succ, List.getElem?_cons_zero, Option.any_some, lampIf_driven, own]
    · exact lamp 4 (by decide)
  · have isRow : r = 5 := Fin.ext at_
    have lamp : ∀ k < 5, lit (14 + k) = (airLamps (rowHead r) (z.latched r t') ++ deviceLamps (z.latched r t'))[k]?.any (·.driven p.ref.count) :=
      fun k few => by
        have is := rowPoints_lamps (p := z.latched r t') (r := r) rfl (by rw [isRow]; rfl) few
        rw [← points running, show extraLamps r (z.latched r t') = deviceLamps (z.latched r t') by rw [isRow]; rfl] at is
        exact is.trans (by rw [show (z.latched r t').ref = p.ref from ref])
    have table : (z.latched r t').alarms = p.alarms := alarms
    refine ⟨?_, ?_, ?_⟩
    · refine (lamp 2 (by decide)).trans ?_
      simp only [airLamps, deviceLamps, List.cons_append, List.nil_append, List.getElem?_cons_succ, List.getElem?_cons_zero, Option.any_some, table]
      show (if (p.alarms.entries.any AlarmEntry.unacknowledged || p.alarms.overflow) = true then LampShow.flash
        else lampIf (!p.alarms.entries.isEmpty)).driven p.ref.count = _
      rw [Bool.or_comm]
      by_cases unacked : (p.alarms.overflow || p.alarms.entries.any AlarmEntry.unacknowledged) = true
      · rw [if_pos unacked]
        exact (if_pos unacked).symm
      · rw [if_neg unacked, lampIf_driven]
        refine Eq.trans ?_ (if_neg unacked).symm
        cases p.alarms.entries <;> rfl
    · refine (lamp 3 (by decide)).trans ?_
      simp only [airLamps, deviceLamps, List.cons_append, List.nil_append, List.getElem?_cons_succ, List.getElem?_cons_zero, Option.any_some, lampIf_driven,
        show (z.latched r t').mode = .running from mode'.trans running, reduceCtorEq, decide_false]
    · refine (lamp 4 (by decide)).trans ?_
      simp only [airLamps, deviceLamps, List.cons_append, List.nil_append, List.getElem?_cons_succ, List.getElem?_cons_zero, Option.any_some,
        show (z.latched r t').ref = p.ref from ref]
      cases state : p.ref.state <;> rfl

end Sys2Proof.Machine
end

section
/-! PROOFS. O5. The end of a load (R15, R37, R113, R131, R140, R150, R163, R165, R173, R174, R189). -/

namespace Sys2Proof.Machine

/-! ### The blocks at the end of a load -/

theorem submit_now (j : Job) (p : Part) : (submit j p).time = p.time := ((submit_frame j p) .time (by decide)).symm

/-- A job that finds the agent idle is its only one. -/
theorem submit_first (j : Job) {p : Part} (idle : p.agent.jobs = []) : (submit j p).agent.jobs = [j] := by
  rw [submit_jobs, idle, List.nil_append]

/-! ### Reading an image -/

/-- Window entry `k` of an image, its kind taken as GUARD beyond the codes (R165, R189). -/
def windowAt (m : List Byte) (k : Nat) : Window :=
  { base := wordAt m (176 + 8 * k) + 65536 * wordAt m (178 + 8 * k), log2 := byteAt m (180 + 8 * k), ring := wordAt m (182 + 8 * k)
    kind := if byteAt m (181 + 8 * k) = 0 then .command else if byteAt m (181 + 8 * k) = 1 then .event
      else if byteAt m (181 + 8 * k) = 2 then .live else .guard }

theorem windowEntry_eq (m : List Byte) (k : Nat) :
    windowEntry m k = if byteAt m (181 + 8 * k) ≤ 3 then some (windowAt m k) else none := by
  have places : 176 + 8 * k + 2 = 178 + 8 * k ∧ 176 + 8 * k + 4 = 180 + 8 * k ∧ 176 + 8 * k + 5 = 181 + 8 * k ∧
      176 + 8 * k + 6 = 182 + 8 * k := by omega
  obtain ⟨high, log2, kind, ring⟩ := places
  simp only [windowEntry, longAt, high, log2, kind, ring, windowAt]
  match byteAt m (181 + 8 * k) with
  | 0 => rfl
  | 1 => rfl
  | 2 => rfl
  | 3 => rfl
  | n + 4 => simp [kindOfNat]

theorem allSome_eq_some {α : Type} {l : List (Option α)} {xs : List α} : allSome l = some xs ↔ l = xs.map some := by
  induction l generalizing xs with
  | nil => cases xs <;> simp [allSome]
  | cons o rest ih =>
    cases o with
    | none => cases xs <;> simp [allSome]
    | some x =>
      cases xs with
      | nil => simp [allSome]
      | cons y ys => simp [allSome, ih, and_comm]

theorem windowsAt_eq (m : List Byte) : windowsAt m =
    if ∀ k < byteAt m 4, byteAt m (181 + 8 * k) ≤ 3 then some ((List.range (byteAt m 4)).map (windowAt m)) else none := by
  unfold windowsAt
  split
  · rename_i known
    rw [allSome_eq_some, List.map_map]
    refine List.map_congr_left fun k mem => ?_
    rw [windowEntry_eq, if_pos (known k (List.mem_range.1 mem))]
    rfl
  · rename_i unknown
    rw [Option.eq_none_iff_forall_ne_some]
    intro xs is
    refine unknown fun k less => ?_
    by_contra beyond
    have mem : windowEntry m k ∈ (List.range (byteAt m 4)).map (windowEntry m) := List.mem_map_of_mem (List.mem_range.2 less)
    rw [allSome_eq_some.1 is, windowEntry_eq, if_neg beyond] at mem
    obtain ⟨x, -, no⟩ := List.mem_map.1 mem
    cases no

/-! ### The window table (R165) -/

theorem windowAt_kind {m : List Byte} {k n : Nat} (is : byteAt m (181 + 8 * k) = n) : (windowAt m k).kind =
    if n = 0 then .command else if n = 1 then .event else if n = 2 then .live else .guard := by
  rw [windowAt, is]

/-- The bytes a ring of a kind takes (R165). -/
def WindowKind.bytes : WindowKind → Nat → Nat
  | .command, ring => 16 + 32 * ring
  | .event, ring => 16 + 16 * ring
  | .live, _ => 0
  | .guard, _ => 0

theorem Window.ringBytes_eq (w : Window) : w.ringBytes = w.kind.bytes w.ring := by
  obtain ⟨base, log2, kind, ring⟩ := w
  cases kind <;> rfl

/-- An entry of the table by itself. -/
theorem windowAt_sound {m : List Byte} {k : Nat} (known : byteAt m (181 + 8 * k) ≤ 3) :
    let size := 2 ^ byteAt m (180 + 8 * k)
    let base := wordAt m (176 + 8 * k) + 65536 * wordAt m (178 + 8 * k)
    let ring := wordAt m (182 + 8 * k)
    let kind := byteAt m (181 + 8 * k)
    (windowAt m k).sound = true ↔ 8 ≤ byteAt m (180 + 8 * k) ∧ byteAt m (180 + 8 * k) ≤ 16 ∧ base % size = 0 ∧ base < 2 ^ 20 ∧
      (kind = 0 ∧ ring ∈ [8, 16, 32, 64] ∧ 16 + 32 * ring ≤ size ∨ kind = 1 ∧ ring ∈ [16, 32, 64, 128] ∧ 16 + 16 * ring ≤ size ∨
        kind = 2 ∧ ring = 0 ∧ 2048 ≤ size ∨ kind = 3 ∧ ring = 0) := by
  intro size base ring kind
  have wide : 11 ≤ byteAt m (180 + 8 * k) ↔ 2048 ≤ size := by
    rw [show 2048 = 2 ^ 11 from rfl]
    exact (Nat.pow_le_pow_iff_right (by decide)).symm
  have of : ∀ x : WindowKind, (windowAt m k).kind = x → ((windowAt m k).sound = true ↔
      8 ≤ byteAt m (180 + 8 * k) ∧ byteAt m (180 + 8 * k) ≤ 16 ∧ base % size = 0 ∧ base < 2 ^ 20 ∧ ring ∈ x.rings ∧
        x.bytes ring ≤ size ∧
        (x ≠ .live ∨ 2048 ≤ size)) := fun x is => by
    rw [← wide]
    simp only [Window.sound, Window.ringBytes_eq, is, Bool.and_eq_true, Bool.or_eq_true, decide_eq_true_eq, List.contains_eq_mem, and_assoc]
    rfl
  have cases_ : kind = 0 ∨ kind = 1 ∨ kind = 2 ∨ kind = 3 := by
    have : kind ≤ 3 := known
    omega
  obtain is | is | is | is := cases_
  · rw [of .command (windowAt_kind is), is]
    simp [WindowKind.rings, WindowKind.bytes]
  · rw [of .event (windowAt_kind is), is]
    simp [WindowKind.rings, WindowKind.bytes]
  · rw [of .live (windowAt_kind is), is]
    simp [WindowKind.rings, WindowKind.bytes]
  · rw [of .guard (windowAt_kind is), is]
    simp [WindowKind.rings, WindowKind.bytes]

theorem allApart_map (f : Nat → Window) (n : Nat) :
    allApart ((List.range n).map f) = true ↔ ∀ k < n, ∀ j < k, (f j).apart (f k) = true := by
  have pairs : ∀ l : List Window, allApart l = true ↔ l.Pairwise fun a b => a.apart b = true := fun l => by
    induction l with
    | nil => simp [allApart]
    | cons w rest ih => simp [allApart, ih]
  rw [pairs, List.pairwise_map, List.pairwise_iff_getElem]
  simp only [List.length_range, List.getElem_range]
  exact ⟨fun a k less j before => a j k (before.trans less) less before, fun a j k _ less before => a k less j before⟩

theorem kindCount_map (x : WindowKind) (m : List Byte) (n : Nat) (c : Nat)
    (is : ∀ k < n, (windowAt m k).kind = x ↔ byteAt m (181 + 8 * k) = c) :
    kindCount x ((List.range n).map (windowAt m)) = ((List.range n).filter fun k => byteAt m (181 + 8 * k) = c).length := by
  rw [kindCount, List.filter_map, List.length_map]
  refine congrArg _ (List.filter_congr fun k mem => ?_)
  exact decide_eq_decide.2 (is k (List.mem_range.1 mem))

/-- The window table as an image lays it out (R165, R189). -/
def TableRight (m : List Byte) : Prop :=
  let n := byteAt m 4
  let base (k : Nat) : Nat := wordAt m (176 + 8 * k) + 65536 * wordAt m (178 + 8 * k)
  let size (k : Nat) : Nat := 2 ^ byteAt m (180 + 8 * k)
  let kind (k : Nat) : Nat := byteAt m (181 + 8 * k)
  let ring (k : Nat) : Nat := wordAt m (182 + 8 * k)
  let count (j : Nat) : Nat := ((List.range n).filter fun k => kind k = j).length
  (∀ k < n, 8 ≤ byteAt m (180 + 8 * k) ∧ byteAt m (180 + 8 * k) ≤ 16 ∧ base k % size k = 0 ∧ base k < 2 ^ 20 ∧
    (kind k = 0 ∧ ring k ∈ [8, 16, 32, 64] ∧ 16 + 32 * ring k ≤ size k ∨
      kind k = 1 ∧ ring k ∈ [16, 32, 64, 128] ∧ 16 + 16 * ring k ≤ size k ∨
      kind k = 2 ∧ ring k = 0 ∧ 2048 ≤ size k ∨ kind k = 3 ∧ ring k = 0) ∧
    ∀ j < k, base j + size j ≤ base k ∨ base k + size k ≤ base j) ∧
  count 0 = 1 ∧ count 1 = 1 ∧ count 2 = 1 ∧ count 3 ≤ 3

theorem TableRight.known {m : List Byte} (a : TableRight m) : ∀ k < byteAt m 4, byteAt m (181 + 8 * k) ≤ 3 := fun k less => by
  obtain ⟨-, -, -, -, kinds, -⟩ := a.1 k less
  obtain ⟨is, -⟩ | ⟨is, -⟩ | ⟨is, -⟩ | ⟨is, -⟩ := kinds <;> exact is.le.trans (by decide)

theorem soundTable_iff {m : List Byte} (known : ∀ k < byteAt m 4, byteAt m (181 + 8 * k) ≤ 3) :
    soundTable ((List.range (byteAt m 4)).map (windowAt m)) = true ↔ TableRight m := by
  have count : ∀ x c, (∀ k < byteAt m 4, (windowAt m k).kind = x ↔ byteAt m (181 + 8 * k) = c) → _ :=
    fun x c is => kindCount_map x m (byteAt m 4) c is
  have kinds : ∀ k < byteAt m 4, ((windowAt m k).kind = .command ↔ byteAt m (181 + 8 * k) = 0) ∧
      ((windowAt m k).kind = .event ↔ byteAt m (181 + 8 * k) = 1) ∧ ((windowAt m k).kind = .live ↔ byteAt m (181 + 8 * k) = 2) ∧
      ((windowAt m k).kind = .guard ↔ byteAt m (181 + 8 * k) = 3) := fun k less => by
    have few := known k less
    have some_ : byteAt m (181 + 8 * k) = 0 ∨ byteAt m (181 + 8 * k) = 1 ∨ byteAt m (181 + 8 * k) = 2 ∨ byteAt m (181 + 8 * k) = 3 := by
      omega
    obtain is | is | is | is := some_ <;> rw [windowAt_kind is, is] <;> decide
  have apart : ∀ j k, (windowAt m j).apart (windowAt m k) = true ↔
      (windowAt m j).base + 2 ^ (windowAt m j).log2 ≤ (windowAt m k).base ∨
        (windowAt m k).base + 2 ^ (windowAt m k).log2 ≤ (windowAt m j).base := fun j k => by
    simp only [Window.apart, Bool.or_eq_true, decide_eq_true_eq]
  simp only [soundTable, Bool.and_eq_true, decide_eq_true_eq, allApart_map, List.all_map, List.all_eq_true, List.mem_range,
    Function.comp_apply, count .command 0 fun k l => (kinds k l).1, count .event 1 fun k l => (kinds k l).2.1,
    count .live 2 fun k l => (kinds k l).2.2.1, count .guard 3 fun k l => (kinds k l).2.2.2]
  constructor
  · rintro ⟨⟨⟨⟨⟨alone, pairs⟩, c0⟩, c1⟩, c2⟩, c3⟩
    refine ⟨fun k less => ?_, c0, c1, c2, c3⟩
    obtain ⟨least, most, aligned, low, kind⟩ := (windowAt_sound (known k less)).1 (alone k less)
    exact ⟨least, most, aligned, low, kind, fun j before => (apart j k).1 (pairs k less j before)⟩
  · rintro ⟨table, c0, c1, c2, c3⟩
    refine ⟨⟨⟨⟨⟨fun k less => ?_, fun k less j before => ?_⟩, c0⟩, c1⟩, c2⟩, c3⟩
    · obtain ⟨least, most, aligned, low, kind, -⟩ := table k less
      exact (windowAt_sound (known k less)).2 ⟨least, most, aligned, low, kind⟩
    · obtain ⟨-, -, -, -, -, pairs⟩ := table k less
      exact (apart j k).2 (pairs j before)

/-! ### The image (R173) -/

/-- What an image gives, its parts read. -/
def imageOf (m : List Byte) (windows : List Window) (standard : Standard) (rate : LineRate) (display : DisplayMode)
    (heads : Four HeadSettings) (islands : Two IslandSettings) : Image :=
  { defaults := defaultsAt m heads islands
    standard := standard
    line := { rate := rate, gap := byteAt m 9, timeout := clamp 2 100 (byteAt m 10), interval := clamp 1 50 (byteAt m 11) }
    starve := clamp 8 255 (byteAt m 12)
    dwell := clamp 0 127 (byteAt m 13)
    display := display
    period := clamp 5 100 (byteAt m 15)
    windows := windows }

theorem readImage_eq_some {m : List Byte} {x : Image} : readImage m = some x ↔ headerRight m = true ∧
    ∃ windows standard rate display heads islands, windowsAt m = some windows ∧ standardOfNat (byteAt m 5) = some standard ∧
      rateOfNat (byteAt m 8) = some rate ∧ displayModeOfNat (byteAt m 14) = some display ∧ headsAt m = some heads ∧
      islandsAt m = some islands ∧ soundTable windows = true ∧ islandsRight m islands = true ∧
      x = imageOf m windows standard rate display heads islands := by
  constructor
  · intro read
    unfold readImage at read
    split at read
    · cases read
    · rename_i header
      split at read
      · rename_i windows standard rate display heads islands isWindows isStandard isRate isDisplay isHeads isIslands
        split at read
        · rename_i right
          rw [Bool.and_eq_true] at right
          cases read
          exact ⟨not_not.1 header, windows, standard, rate, display, heads, islands, isWindows, isStandard, isRate, isDisplay, isHeads,
            isIslands, right.1, right.2, rfl⟩
        · cases read
      · cases read
  · rintro ⟨header, windows, standard, rate, display, heads, islands, isWindows, isStandard, isRate, isDisplay, isHeads, isIslands, table,
      right, rfl⟩
    rw [readImage, if_neg (not_not.2 header), isWindows, isStandard, isRate, isDisplay, isHeads, isIslands]
    exact if_pos (by rw [table, right]; rfl)

/-! ### Codes and settings -/

theorem faultPolicyOfNat_eq (n : Nat) : faultPolicyOfNat n = if n ≤ 1 then some (if n = 0 then .fallback else .hold) else none := by
  match n with
  | 0 => rfl
  | 1 => rfl
  | n + 2 => simp [faultPolicyOfNat]

/-- The settings of a head in an image, as clamped, its codes known (R35, R189). -/
def headSettingsAt (m : List Byte) (o : Nat) : HeadSettings :=
  { gauge := if byteAt m o = 0 then .g35 else .g16, lockCount := clamp 2 15 (byteAt m (o + 1))
    runupLead := clamp 10 1000 (wordAt m (o + 2)), runupDistance := clamp 0 240 (byteAt m (o + 4))
    runupLimit := clamp 20 2000 (wordAt m (o + 5)), startResponse := clamp 100 5000 (wordAt m (o + 7))
    lossTimeout := clamp 20 1000 (wordAt m (o + 9)), approach := clamp 4 480 (wordAt m (o + 11))
    parkTolerance := clamp 0 8 (byteAt m (o + 13)), settleTime := clamp 50 1000 (wordAt m (o + 14))
    sensorOffset := clamp 0 63 (byteAt m (o + 16)), lampPolicy := if byteAt m (o + 17) = 0 then .auto else .manual
    lampSettle := clamp 100 2000 (wordAt m (o + 18)) }

theorem headAt_eq (m : List Byte) (o : Nat) : (headAt m o).map HeadSettings.clamped =
    if byteAt m o ≤ 1 ∧ byteAt m (o + 17) ≤ 1 then some (headSettingsAt m o) else none := by
  unfold headAt
  rw [gaugeOfNat_eq, policyOfNat_eq]
  by_cases gauge : 1 < byteAt m o
  · have unknown : ¬ (byteAt m o ≤ 1 ∧ byteAt m (o + 17) ≤ 1) := fun both => not_le.2 gauge both.1
    rw [if_pos gauge, if_neg unknown]
    rfl
  · by_cases policy : 1 < byteAt m (o + 17)
    · have unknown : ¬ (byteAt m o ≤ 1 ∧ byteAt m (o + 17) ≤ 1) := fun both => not_le.2 policy both.2
      rw [if_pos policy, if_neg unknown, if_neg gauge]
      rfl
    · have known : byteAt m o ≤ 1 ∧ byteAt m (o + 17) ≤ 1 := ⟨not_lt.1 gauge, not_lt.1 policy⟩
      rw [if_neg gauge, if_neg policy, if_pos known]
      rfl

/-- The settings of an island in an image, its fault policy known (R90, R189). -/
def islandSettingsAt (m : List Byte) (o : Nat) : IslandSettings :=
  { address := clamp 1 15 (byteAt m o), standbyPort := clampPort (byteAt m (o + 1)), lead := clamp 1 15 (byteAt m (o + 2))
    tolerance := clamp 0 8 (byteAt m (o + 3)), policy := if byteAt m (o + 4) = 0 then .fallback else .hold
    grace := clamp 1 30 (byteAt m (o + 5)) }

theorem islandAt_eq (m : List Byte) (o : Nat) : islandAt m o =
    if byteAt m (o + 4) ≤ 1 then some (islandSettingsAt m o) else none := by
  unfold islandAt readIslandSettings
  rw [faultPolicyOfNat_eq]
  split <;> rfl

/-- The settings of the heads in an image. -/
theorem headsAt_eq_some {m : List Byte} {x : Four HeadSettings} : headsAt m = some x ↔
    (∀ h < 4, byteAt m (16 + 20 * h) ≤ 1 ∧ byteAt m (33 + 20 * h) ≤ 1) ∧
      x = ⟨headSettingsAt m 16, headSettingsAt m 36, headSettingsAt m 56, headSettingsAt m 76⟩ := by
  have known : (∀ h < 4, byteAt m (16 + 20 * h) ≤ 1 ∧ byteAt m (33 + 20 * h) ≤ 1) ↔
      (byteAt m 16 ≤ 1 ∧ byteAt m (16 + 17) ≤ 1) ∧ (byteAt m 36 ≤ 1 ∧ byteAt m (36 + 17) ≤ 1) ∧
        (byteAt m 56 ≤ 1 ∧ byteAt m (56 + 17) ≤ 1) ∧ (byteAt m 76 ≤ 1 ∧ byteAt m (76 + 17) ≤ 1) :=
    ⟨fun a => ⟨a 0 (by decide), a 1 (by decide), a 2 (by decide), a 3 (by decide)⟩, fun ⟨a, b, c, d⟩ h less => by
      match h, less with
      | 0, _ => exact a
      | 1, _ => exact b
      | 2, _ => exact c
      | 3, _ => exact d⟩
  have one : ∀ o c, (headAt m o).map HeadSettings.clamped = some c ↔ (byteAt m o ≤ 1 ∧ byteAt m (o + 17) ≤ 1) ∧ c = headSettingsAt m o :=
    fun o c => by
      rw [headAt_eq]
      split
      · rename_i both
        rw [Option.some_inj]
        exact ⟨fun e => ⟨both, e.symm⟩, fun e => e.2.symm⟩
      · rename_i unknown
        exact ⟨nofun, fun e => absurd e.1 unknown⟩
  have whole : headsAt m = some x ↔ (headAt m 16).map HeadSettings.clamped = some x.h1 ∧ (headAt m 36).map HeadSettings.clamped = some x.h2 ∧
      (headAt m 56).map HeadSettings.clamped = some x.h3 ∧ (headAt m 76).map HeadSettings.clamped = some x.h4 := by
    obtain ⟨a, b, c, d⟩ := x
    unfold headsAt
    cases headAt m 16 <;> cases headAt m 36 <;> cases headAt m 56 <;> cases headAt m 76 <;> simp
  obtain ⟨a, b, c, d⟩ := x
  rw [whole, one, one, one, one, known, Four.mk.injEq]
  exact ⟨fun ⟨⟨a, e1⟩, ⟨b, e2⟩, ⟨c, e3⟩, ⟨d, e4⟩⟩ => ⟨⟨a, b, c, d⟩, e1, e2, e3, e4⟩,
    fun ⟨⟨a, b, c, d⟩, e1, e2, e3, e4⟩ => ⟨⟨a, e1⟩, ⟨b, e2⟩, ⟨c, e3⟩, ⟨d, e4⟩⟩⟩

theorem islandsAt_eq_some {m : List Byte} {x : Two IslandSettings} : islandsAt m = some x ↔
    (byteAt m 100 ≤ 1 ∧ byteAt m 112 ≤ 1) ∧ x = ⟨islandSettingsAt m 96, islandSettingsAt m 108⟩ := by
  unfold islandsAt
  rw [islandAt_eq, islandAt_eq]
  by_cases first : byteAt m 100 ≤ 1
  · by_cases second : byteAt m 112 ≤ 1
    · rw [if_pos first, if_pos second]
      exact ⟨fun e => ⟨⟨first, second⟩, (Option.some_inj.1 e).symm⟩, fun e => congrArg some e.2.symm⟩
    · rw [if_neg second, if_pos first]
      exact ⟨nofun, fun e => absurd e.1.2 second⟩
  · rw [if_neg first]
    exact ⟨nofun, fun e => absurd e.1.1 first⟩

/-! ### The islands of an image (R173) -/

theorem Port.num_injective {q r : Port} (same : q.num = r.num) : q = r := by
  cases q <;> cases r <;> first | rfl | cases same

theorem clampPort_num (n : Nat) : (clampPort n).num = max 1 (min 4 n) := by
  unfold clampPort
  by_cases one : n ≤ 1
  · rw [if_pos one]
    show 1 = _
    omega
  · rw [if_neg one]
    by_cases two : n = 2
    · rw [if_pos two, two]
      rfl
    · rw [if_neg two]
      by_cases three : n = 3
      · rw [if_pos three, three]
        rfl
      · rw [if_neg three]
        show 4 = _
        omega

/-- The port number of a head in an island's defaults, 0 for none (R173, R189). -/
def portAt (m : List Byte) (o h : Nat) : Nat := min 4 (byteAt m (o + 6 + h))

theorem headPortAt_eq (m : List Byte) (o : Nat) (h : HeadId) :
    (headPortAt m o h).map Port.num = if portAt m o (HeadId.index h) = 0 then none else some (portAt m o (HeadId.index h)) := by
  have zero : portAt m o (HeadId.index h) = 0 ↔ byteAt m (o + 6 + (HeadId.index h)) = 0 := by
    unfold portAt
    omega
  unfold headPortAt
  by_cases none_ : byteAt m (o + 6 + (HeadId.index h)) = 0
  · rw [if_pos (zero.2 none_)]
    dsimp only
    rw [if_pos none_]
    rfl
  · rw [if_neg (mt zero.1 none_)]
    dsimp only
    rw [if_neg none_, Option.map_some, clampPort_num, portAt]
    refine congrArg some ?_
    omega

/-- No two sources of an island have one port: in the ports the heads are given, and by their numbers. -/
theorem ports_free {f : HeadId → Option Port} {g : Nat → Nat}
    (is : ∀ h, (f h).map Port.num = if g (HeadId.index h) = 0 then none else some (g (HeadId.index h))) (s : Port) :
    ((HeadId.list.filterMap f).Nodup ∧ s ∉ HeadId.list.filterMap f) ↔
      ∀ h < 4, g h ≠ 0 → g h ≠ s.num ∧ ∀ j < h, g j ≠ g h := by
  have cases_ : ∀ h, (f h = none ∧ g (HeadId.index h) = 0) ∨ ∃ q, f h = some q ∧ g (HeadId.index h) = q.num ∧ g (HeadId.index h) ≠ 0 := fun h => by
    have same := is h
    cases port : f h with
    | none =>
      refine .inl ⟨rfl, ?_⟩
      rw [port] at same
      by_contra given
      rw [if_neg given] at same
      cases same
    | some q =>
      rw [port] at same
      by_cases none_ : g (HeadId.index h) = 0
      · rw [if_pos none_] at same
        cases same
      · rw [if_neg none_] at same
        exact .inr ⟨q, rfl, (Option.some_inj.1 same).symm, none_⟩
  have pair : ∀ h k, (∀ q, f h = some q → ∀ r, f k = some r → q ≠ r) ↔ (g (HeadId.index k) ≠ 0 → g (HeadId.index h) ≠ g (HeadId.index k)) := fun h k => by
    obtain ⟨fh, gh⟩ | ⟨q, fh, gh, nh⟩ := cases_ h <;> obtain ⟨fk, gk⟩ | ⟨r, fk, gk, nk⟩ := cases_ k
    · simp [fh, gk]
    · simp [fh, gh, nk, Ne.symm nk]
    · simp [fk, gk]
    · refine ⟨fun a _ same => a q fh r fk (Port.num_injective (gh.symm.trans (same.trans gk))), fun a q' e r' e' same => ?_⟩
      cases fh.symm.trans e
      cases fk.symm.trans e'
      exact a nk (gh.trans ((congrArg Port.num same).trans gk.symm))
  have own : ∀ h, f h ≠ some s ↔ (g (HeadId.index h) ≠ 0 → g (HeadId.index h) ≠ s.num) := fun h => by
    obtain ⟨fh, gh⟩ | ⟨q, fh, gh, nh⟩ := cases_ h
    · simp [fh, gh]
    · rw [fh, gh]
      exact ⟨fun a _ same => a (congrArg some (Port.num_injective same)), fun a same => a (gh ▸ nh) (congrArg Port.num (Option.some_inj.1 same))⟩
  have nodup : (HeadId.list.filterMap f).Nodup ↔ HeadId.list.Pairwise fun h k => g (HeadId.index k) ≠ 0 → g (HeadId.index h) ≠ g (HeadId.index k) := by
    rw [List.Nodup, List.pairwise_filterMap]
    exact ⟨fun a => a.imp fun b => (pair _ _).1 b, fun a => a.imp fun b => (pair _ _).2 b⟩
  have member : s ∉ HeadId.list.filterMap f ↔ ∀ h, g (HeadId.index h) ≠ 0 → g (HeadId.index h) ≠ s.num := by
    rw [List.mem_filterMap, not_exists]
    exact ⟨fun a h => (own h).1 fun e => a h ⟨HeadId.mem_list h, e⟩, fun a h e => (own h).2 (a h) e.2⟩
  rw [nodup, member]
  have order : (HeadId.list.Pairwise fun h k => g (HeadId.index k) ≠ 0 → g (HeadId.index h) ≠ g (HeadId.index k)) ↔
      (g 1 ≠ 0 → g 0 ≠ g 1) ∧ (g 2 ≠ 0 → g 0 ≠ g 2 ∧ g 1 ≠ g 2) ∧ (g 3 ≠ 0 → g 0 ≠ g 3 ∧ g 1 ≠ g 3 ∧ g 2 ≠ g 3) := by
    simp only [HeadId.list, List.pairwise_cons, List.mem_cons, List.not_mem_nil, or_false, forall_eq_or_imp, forall_eq, IsEmpty.forall_iff,
      implies_true, List.Pairwise.nil, and_true, HeadId.index, HeadId.num, Nat.reduceSub]
    tauto
  rw [order]
  constructor
  · rintro ⟨⟨p1, p2, p3⟩, away⟩ h less given
    match h, less with
    | 0, _ => exact ⟨away .h1 given, fun j before => absurd before (Nat.not_lt_zero j)⟩
    | 1, _ =>
      refine ⟨away .h2 given, fun j before => ?_⟩
      obtain rfl : j = 0 := by omega
      exact p1 given
    | 2, _ =>
      refine ⟨away .h3 given, fun j before => ?_⟩
      obtain rfl | rfl : j = 0 ∨ j = 1 := by omega
      · exact (p2 given).1
      · exact (p2 given).2
    | 3, _ =>
      refine ⟨away .h4 given, fun j before => ?_⟩
      obtain ⟨a, b, c⟩ := p3 given
      obtain rfl | rfl | rfl : j = 0 ∨ j = 1 ∨ j = 2 := by omega
      · exact a
      · exact b
      · exact c
  · intro a
    refine ⟨⟨fun given => (a 1 (by decide) given).2 0 (by decide),
      fun given => ⟨(a 2 (by decide) given).2 0 (by decide), (a 2 (by decide) given).2 1 (by decide)⟩,
      fun given => ⟨(a 3 (by decide) given).2 0 (by decide), (a 3 (by decide) given).2 1 (by decide),
        (a 3 (by decide) given).2 2 (by decide)⟩⟩, fun h given => ?_⟩
    cases h with
    | h1 => exact (a 0 (by decide) given).1
    | h2 => exact (a 1 (by decide) given).1
    | h3 => exact (a 2 (by decide) given).1
    | h4 => exact (a 3 (by decide) given).1

/-- The islands' defaults as an image must give them (R173). -/
def IslandsRight (m : List Byte) : Prop :=
  (∀ h < 4, portAt m 96 h = 0 ∨ portAt m 108 h = 0) ∧ clamp 1 15 (byteAt m 96) ≠ clamp 1 15 (byteAt m 108) ∧
    ∀ o ∈ [96, 108], ∀ h < 4, portAt m o h ≠ 0 →
      portAt m o h ≠ clamp 1 4 (byteAt m (o + 1)) ∧ ∀ j < h, portAt m o j ≠ portAt m o h

theorem headPortAt_isNone (m : List Byte) (o : Nat) (h : HeadId) :
    (headPortAt m o h).isNone = true ↔ portAt m o (HeadId.index h) = 0 := by
  have same := headPortAt_eq m o h
  rw [Option.isNone_iff_eq_none, ← Option.map_eq_none_iff (f := Port.num), same]
  split
  · rename_i none_
    exact ⟨fun _ => none_, fun _ => rfl⟩
  · rename_i given
    exact ⟨nofun, fun e => absurd e given⟩

theorem islandsRight_iff (m : List Byte) :
    islandsRight m ⟨islandSettingsAt m 96, islandSettingsAt m 108⟩ = true ↔ IslandsRight m := by
  have apart : (HeadId.list.all fun h => (headPortAt m 96 h).isNone || (headPortAt m 108 h).isNone) = true ↔
      ∀ h < 4, portAt m 96 h = 0 ∨ portAt m 108 h = 0 := by
    simp only [List.all_eq_true, Bool.or_eq_true, headPortAt_isNone]
    refine ⟨fun a h less => ?_, fun a h _ => a (HeadId.index h) (by cases h <;> decide)⟩
    match h, less with
    | 0, _ => exact a .h1 (HeadId.mem_list _)
    | 1, _ => exact a .h2 (HeadId.mem_list _)
    | 2, _ => exact a .h3 (HeadId.mem_list _)
    | 3, _ => exact a .h4 (HeadId.mem_list _)
  have free : ∀ o, ((decide (HeadId.list.filterMap (headPortAt m o)).Nodup &&
      !(HeadId.list.filterMap (headPortAt m o)).contains (islandSettingsAt m o).standbyPort) = true) ↔
      ∀ h < 4, portAt m o h ≠ 0 → portAt m o h ≠ clamp 1 4 (byteAt m (o + 1)) ∧ ∀ j < h, portAt m o j ≠ portAt m o h := fun o => by
    rw [Bool.and_eq_true, decide_eq_true_eq, Bool.not_eq_true', List.contains_eq_mem, decide_eq_false_iff_not,
      ports_free (headPortAt_eq m o)]
    rw [show (islandSettingsAt m o).standbyPort = clampPort (byteAt m (o + 1)) from rfl, clampPort_num]
    rfl
  have split : ∀ P : Nat → Prop, (∀ o ∈ [96, 108], P o) ↔ P 96 ∧ P 108 := fun P => by simp
  have both := and_congr (free 96) (free 108)
  rw [IslandsRight, ← apart, split, ← both]
  unfold islandsRight
  simp only [Bool.and_eq_true, decide_eq_true_eq]
  exact ⟨fun ⟨⟨⟨a, b⟩, c⟩, d⟩ => ⟨a, d, b, c⟩, fun ⟨a, d, b, c⟩ => ⟨⟨⟨a, b⟩, c⟩, d⟩⟩

/-- The codes an image must hold (R173, R189). -/
def CodesRight (m : List Byte) : Prop :=
  (byteAt m 5 = 50 ∨ byteAt m 5 = 60) ∧ byteAt m 8 ≤ 2 ∧ byteAt m 14 ≤ 1 ∧ byteAt m 100 ≤ 1 ∧ byteAt m 112 ≤ 1 ∧
    ∀ h < 4, byteAt m (16 + 20 * h) ≤ 1 ∧ byteAt m (33 + 20 * h) ≤ 1

/-- What a valid image gives. -/
def imageAt (m : List Byte) : Image :=
  imageOf m ((List.range (byteAt m 4)).map (windowAt m)) (if byteAt m 5 = 50 then .f50 else .f60)
    (if byteAt m 8 = 0 then .b9600 else if byteAt m 8 = 1 then .b19200 else .b38400) (if byteAt m 14 = 0 then .feet else .frames)
    ⟨headSettingsAt m 16, headSettingsAt m 36, headSettingsAt m 56, headSettingsAt m 76⟩ ⟨islandSettingsAt m 96, islandSettingsAt m 108⟩

theorem standardOfNat_eq_some {n : Nat} {x : Standard} : standardOfNat n = some x ↔ (n = 50 ∨ n = 60) ∧ x = if n = 50 then .f50 else .f60 := by
  by_cases f50 : n = 50
  · subst f50
    exact ⟨fun e => ⟨.inl rfl, (Option.some_inj.1 e).symm⟩, fun e => congrArg some e.2.symm⟩
  · by_cases f60 : n = 60
    · subst f60
      exact ⟨fun e => ⟨.inr rfl, (Option.some_inj.1 e).symm⟩, fun e => congrArg some e.2.symm⟩
    · refine ⟨fun e => ?_, fun e => absurd e.1 (not_or.2 ⟨f50, f60⟩)⟩
      have isNone : standardOfNat n = none := by
        unfold standardOfNat
        split <;> first | contradiction | rfl
      cases isNone.symm.trans e

theorem rateOfNat_eq_some {n : Nat} {x : LineRate} : rateOfNat n = some x ↔
    n ≤ 2 ∧ x = if n = 0 then .b9600 else if n = 1 then .b19200 else .b38400 := by
  match n with
  | 0 => exact ⟨fun e => ⟨by decide, (Option.some_inj.1 e).symm⟩, fun e => congrArg some e.2.symm⟩
  | 1 => exact ⟨fun e => ⟨by decide, (Option.some_inj.1 e).symm⟩, fun e => congrArg some e.2.symm⟩
  | 2 => exact ⟨fun e => ⟨by decide, (Option.some_inj.1 e).symm⟩, fun e => congrArg some e.2.symm⟩
  | n + 3 => exact ⟨nofun, fun e => absurd e.1 (by omega)⟩

theorem displayModeOfNat_eq_some {n : Nat} {x : DisplayMode} : displayModeOfNat n = some x ↔ n ≤ 1 ∧ x = if n = 0 then .feet else .frames := by
  match n with
  | 0 => exact ⟨fun e => ⟨by decide, (Option.some_inj.1 e).symm⟩, fun e => congrArg some e.2.symm⟩
  | 1 => exact ⟨fun e => ⟨by decide, (Option.some_inj.1 e).symm⟩, fun e => congrArg some e.2.symm⟩
  | n + 2 => exact ⟨nofun, fun e => absurd e.1 (by omega)⟩

theorem windowsAt_eq_some {m : List Byte} {x : List Window} : windowsAt m = some x ↔
    (∀ k < byteAt m 4, byteAt m (181 + 8 * k) ≤ 3) ∧ x = (List.range (byteAt m 4)).map (windowAt m) := by
  rw [windowsAt_eq]
  split
  · rename_i known
    exact ⟨fun e => ⟨known, (Option.some_inj.1 e).symm⟩, fun e => congrArg some e.2.symm⟩
  · rename_i unknown
    exact ⟨nofun, fun e => absurd e.1 unknown⟩

/-- Which images are valid, and what they give (R173, R189). -/
theorem readImage_iff {m : List Byte} {x : Image} :
    readImage m = some x ↔ headerRight m = true ∧ CodesRight m ∧ TableRight m ∧ IslandsRight m ∧ x = imageAt m := by
  rw [readImage_eq_some]
  simp only [windowsAt_eq_some, standardOfNat_eq_some, rateOfNat_eq_some, displayModeOfNat_eq_some, headsAt_eq_some, islandsAt_eq_some]
  constructor
  · rintro ⟨header, _, _, _, _, _, _, ⟨known, rfl⟩, ⟨standard, rfl⟩, ⟨rate, rfl⟩, ⟨display, rfl⟩, ⟨heads, rfl⟩, ⟨islands, rfl⟩, table, right, rfl⟩
    exact ⟨header, ⟨standard, rate, display, islands.1, islands.2, heads⟩, (soundTable_iff known).1 table, (islandsRight_iff m).1 right, rfl⟩
  · rintro ⟨header, ⟨standard, rate, display, first, second, heads⟩, table, islands, rfl⟩
    exact ⟨header, _, _, _, _, _, _, ⟨table.known, rfl⟩, ⟨standard, rfl⟩, ⟨rate, rfl⟩, ⟨display, rfl⟩, ⟨heads, rfl⟩, ⟨⟨first, second⟩, rfl⟩,
      (soundTable_iff table.known).2 table, (islandsRight_iff m).2 islands, rfl⟩

/-! ### O5 -/

theorem portAt_assignment (m : List Byte) (h : HeadId) :
    (assignmentAt m h).map (fun a => (a.island.num, a.port.num)) =
      (if portAt m 96 (h.num - 1) ≠ 0 then some (1, portAt m 96 (h.num - 1))
       else if portAt m 108 (h.num - 1) ≠ 0 then some (2, portAt m 108 (h.num - 1)) else none) := by
  have first := headPortAt_eq m 96 h
  have second := headPortAt_eq m 108 h
  have index : HeadId.index h = h.num - 1 := rfl
  rw [index] at first second
  unfold assignmentAt
  cases a : headPortAt m 96 h with
  | some q =>
    rw [a] at first
    by_cases given : portAt m 96 (h.num - 1) = 0
    · rw [if_pos given] at first
      cases first
    · rw [if_neg given] at first
      rw [if_pos given, ← Option.some_inj.1 first]
      rfl
  | none =>
    rw [a] at first
    by_cases given : portAt m 96 (h.num - 1) = 0
    · rw [if_neg (not_not.2 given)]
      cases b : headPortAt m 108 h with
      | some q =>
        rw [b] at second
        by_cases other : portAt m 108 (h.num - 1) = 0
        · rw [if_pos other] at second
          cases second
        · rw [if_neg other] at second
          rw [if_pos other, ← Option.some_inj.1 second]
          rfl
      | none =>
        rw [b] at second
        by_cases other : portAt m 108 (h.num - 1) = 0
        · rw [if_neg (not_not.2 other)]
          rfl
        · rw [if_neg other] at second
          cases second
    · rw [if_neg given] at first
      cases first

/-- A valid load: past the blocks' start values the panel's first row begins and the first start-up read is with the agent (R163,
R173, R174). -/
theorem completeLoad_started (m : Image) (p : Part) : let w := startBlocks m p
    let q := completeLoad m p
    ChangesOnly [.panel, .agent, .port, .init] w q ∧ q.init = .readCommand ∧
      (q.panel.mode = m.display ∧ q.panel.dwell = m.dwell ∧ q.panel.row = 0) ∧ q.agent.limit = m.starve ∧
      q.agent.jobs = [{ kind := .startupCommand, addr := BitVec.ofNat 20 (q.bus.base .command), reads := 1, data := [] }] := by
  intro w q
  have row := beginRow_frame 0 p.time.now w
  obtain ⟨shown, points, panel⟩ := beginRow_panel 0 p.time.now w
  have agent : (beginRow 0 p.time.now w).agent = .reset m.starve := (row .agent (by decide)).symm
  have windows : (beginRow 0 p.time.now w).bus.windows = m.windows := (row .decoder (by decide)).1.symm
  let b : Part := { beginRow 0 p.time.now w with init := .readCommand }
  have begun : ChangesOnly [.panel, .init] w b := (row.mono (by simp)).trans fun x n => by
    cases x <;> simp at n <;> simp [Block.same, b]
  have handed : ChangesOnly [.agent, .port] b q := submit_frame _ _
  refine ⟨(begun.mono (by simp)).trans (handed.mono (by simp)), (handed .init (by decide)).symm, ?_, ?_, ?_⟩
  · rw [← handed .panel (by decide), show b.panel = _ from panel]
    exact ⟨rfl, rfl, rfl⟩
  · exact (submit_limit _ _).trans (congrArg Agent.limit agent)
  · have only : q.agent.jobs = [_] := submit_first _ (congrArg Agent.jobs agent)
    have table : q.bus.windows = m.windows := (handed .decoder (by decide)).1.symm.trans windows
    have base : q.bus.base .command = b.bus.base .command := by
      simp only [Bus.base, Bus.window?, table]
      exact congrArg (fun l : List Window => ((l.find? fun w => w.kind = .command).map (·.base)).getD 0) windows.symm
    rw [only, base]
    rfl

/-- A failed load (R150, R163, R173). -/
theorem failLoad_transparent (p : Part) : ChangesOnly [.mode, .alarms, .panel] p (failLoad p) ∧ (failLoad p).mode = .transparent ∧
    (failLoad p).alarms = { p.alarms with horn := true } ∧
    (failLoad p).panel.dwell = 31 ∧ (failLoad p).panel.mode = .feet ∧ (failLoad p).panel.row = 0 := by
  let w : Part := { p with mode := .transparent, alarms := { p.alarms with horn := true }, panel := .reset .feet 31 }
  have row := beginRow_frame 0 p.time.now w
  obtain ⟨shown, points, panel⟩ := beginRow_panel 0 p.time.now w
  have set : ChangesOnly [.mode, .alarms, .panel] p w := fun x n => by
    cases x <;> simp at n <;> simp [Block.same, w]
  refine ⟨set.trans (row.mono (by simp)), (row .mode (by decide)).symm, (row .alarms (by decide)).symm, ?_⟩
  rw [show (failLoad p).panel = _ from panel]
  exact ⟨rfl, rfl, rfl⟩

theorem cmd_same {a b : CommandUnit} (consumer : a.consumer = b.consumer) (producer : a.producer = b.producer) (fetch : a.fetch = b.fetch)
    (status : a.status = b.status) : a = b := by
  cases a
  cases b
  exact CommandUnit.mk.injEq .. ▸ ⟨consumer, producer, fetch, status⟩

theorem byteAt_le (m : List Byte) (n : Nat) : byteAt m n ≤ 255 := Nat.le_of_lt_succ (BitVec.isLt _)

theorem clamp_zero (hi n : Nat) : clamp 0 hi n = min hi n := Nat.zero_max _

/-- The settings of a head's table of twenty bytes (R189). -/
theorem headSettingsAt_eq (m : List Byte) (o : Nat) : headSettingsAt m o =
    { gauge := if byteAt m o = 0 then .g35 else .g16, lockCount := max 2 (min 15 (byteAt m (o + 1)))
      runupLead := max 10 (min 1000 (wordAt m (o + 2))), runupDistance := min 240 (byteAt m (o + 4))
      runupLimit := max 20 (min 2000 (wordAt m (o + 5))), startResponse := max 100 (min 5000 (wordAt m (o + 7)))
      lossTimeout := max 20 (min 1000 (wordAt m (o + 9))), approach := max 4 (min 480 (wordAt m (o + 11)))
      parkTolerance := min 8 (byteAt m (o + 13)), settleTime := max 50 (min 1000 (wordAt m (o + 14)))
      sensorOffset := min 63 (byteAt m (o + 16)), lampPolicy := if byteAt m (o + 17) = 0 then .auto else .manual
      lampSettle := max 100 (min 2000 (wordAt m (o + 18))) } := by
  simp only [headSettingsAt, clamp, Nat.zero_max]

/-- The limits of a channel (R140, R189). -/
theorem limitsAt_eq (m : List Byte) (k : Nat) (row : Limits) : limitsAt m k row =
    let o := 120 + 6 * k
    if min 1023 (wordAt m (o + 2)) < min 1023 (wordAt m o) then row
    else ⟨min 1023 (wordAt m o), min 1023 (wordAt m (o + 2)), max 1 (min 15 (byteAt m (o + 4)))⟩ := by
  simp only [limitsAt, Limits.clamped, clamp, Nat.zero_max]

/-- Settles O5. -/
theorem configLoadEndStartsThePart : Obligations.ConfigLoadEndStartsThePart := by
  intro s dt image loading
  have ends : ∃ t : Timebase, t.now = s.part.time.now + dt ∧
      exec (.configLoadEnd dt image) s = .next { s with part := endLoad (image.take 512) { s.part with time := t } } := by
    refine ⟨(elapse dt s.part).time, elapse_now dt s.part, ?_⟩
    rw [← elapse_eq]
    have e : loadEnd dt image s.part = endLoad (image.take 512) (elapse dt s.part) := if_pos ((elapse_mode dt s.part).trans loading)
    exact congrArg (fun p : Part => Host.Outcome.next { s with part := p }) e
  obtain ⟨t, now, run⟩ := ends
  refine ⟨fun m read => ⟨_, run, ?_⟩, fun bad => ⟨_, run, ?_⟩, ?_, ?_⟩
  · rw [show endLoad (image.take 512) { s.part with time := t } = completeLoad m { s.part with time := t } by rw [endLoad, read]]
    obtain ⟨frame, init, ⟨display, dwell, row⟩, limit, jobs⟩ := completeLoad_started m { s.part with time := t }
    generalize completeLoad m { s.part with time := t } = q at frame init display dwell row limit jobs
    have time : q.time = t := (frame .time (by decide)).symm
    have analog : q.analog = Analog.started m.defaults m.period t.now := (frame .analog (by decide)).symm
    refine ⟨(frame .mode (by decide)).symm, by rw [time, now], ?_, fun h => ?_, fun i => ?_, (frame .link (by decide)).symm,
      (frame .defaults (by decide)).symm, by rw [analog]; rfl, fun h => ?_, by rw [analog]; rfl, by rw [analog, time]; rfl,
      by rw [analog]; rfl, display, dwell, row, (frame .decoder (by decide)).1.symm, limit, init, fun _ => jobs,
      (frame .alarms (by decide)).symm, (frame .events (by decide)).symm, ?_⟩
    · rw [← frame .ref (by decide), time]
      show RefUnit.started m.standard m.defaults.trim t.now = _
      cases standard : m.standard <;> rfl
    · rw [← frame (.head h) (by simp)]
      cases h <;> rfl
    · rw [← frame (.island i) (by simp)]
      cases i <;> rfl
    · rw [analog]
      cases h <;> exact ⟨rfl, rfl⟩
    · obtain ⟨consumer, producer, fetch⟩ := frame .rings (by decide)
      have status := frame .status (by decide)
      exact cmd_same consumer.symm producer.symm fetch.symm status.symm
  · rw [show endLoad (image.take 512) { s.part with time := t } = failLoad { s.part with time := t } by rw [endLoad, bad]]
    obtain ⟨frame, mode, alarms, dwell, display, row⟩ := failLoad_transparent { s.part with time := t }
    exact ⟨mode, by rw [← frame .time (by decide)]; exact now, alarms, dwell, display, row,
      (timed_changes s.part t (by simp)).trans (frame.mono (by simp))⟩
  · have header : headerRight (image.take 512) = true ↔ byteAt (image.take 512) 0 = 0x6E ∧ byteAt (image.take 512) 1 = 0x91 ∧
        wordAt (image.take 512) 2 ≤ 512 ∧ wordAt (image.take 512) 2 = 176 + 8 * byteAt (image.take 512) 4 := by
      simp only [headerRight, Bool.and_eq_true, decide_eq_true_eq, and_assoc]
      rfl
    rw [Option.isSome_iff_exists]
    simp only [readImage_iff, header]
    exact ⟨fun ⟨_, ⟨a, b, c, d⟩, codes, table, islands, _⟩ => ⟨a, b, c, d, codes, table, islands⟩,
      fun ⟨a, b, c, d, codes, table, islands⟩ => ⟨_, ⟨a, b, c, d⟩, codes, table, islands, rfl⟩⟩
  · intro m read
    obtain ⟨-, -, -, -, rfl⟩ := readImage_iff.1 read
    refine ⟨rfl, ?_, rfl, ?_, ?_, rfl, rfl, fun h => ⟨?_, ?_⟩, fun i => ?_, ⟨limitsAt_eq _ 0 _, fun h => ?_⟩, ?_, fun k less => ?_⟩
    · rfl
    · have most := byteAt_le (image.take 512) 12
      show clamp 8 255 _ = _
      unfold clamp
      rw [Nat.min_eq_right most]
      rfl
    · exact clamp_zero _ _
    · cases h <;> exact headSettingsAt_eq _ _
    · cases h <;> exact portAt_assignment _ _
    · cases i <;> exact ⟨rfl, clampPort_num _, rfl, clamp_zero _ _, rfl, rfl⟩
    · cases h <;> exact ⟨limitsAt_eq _ _ _, limitsAt_eq _ _ _⟩
    · exact (List.length_map _).trans List.length_range
    · show (((List.range (byteAt (image.take 512) 4)).map (windowAt (image.take 512)))[k]?).map _ = _
      rw [List.getElem?_map, List.getElem?_range (show k < byteAt (image.take 512) 4 from less)]
      rfl

end Sys2Proof.Machine
end

section
/-! PROOFS. The initialisation of the rings (R172, R174): the last word of an agent's job, the start-up reads, and the index writes. -/

namespace Sys2Proof.Machine

/-! ### What posted events leave of the rings -/

/-- The rings of `q` are those of `p` but for events that wait or are written: the agent may have more jobs. -/
structure Posted (p q : Part) : Prop where
  init : q.init = p.init
  cmd : q.cmd = p.cmd
  windows : q.bus.windows = p.bus.windows
  attention : q.evt.attention = p.evt.attention
  producer : q.evt.producer = p.evt.producer
  consumer : q.evt.consumer = p.evt.consumer
  jobs : p.agent.jobs ⊆ q.agent.jobs

theorem Posted.refl (p : Part) : Posted p p := ⟨rfl, rfl, rfl, rfl, rfl, rfl, fun _ m => m⟩

theorem Posted.trans {p q r : Part} (a : Posted p q) (b : Posted q r) : Posted p r :=
  ⟨b.init.trans a.init, b.cmd.trans a.cmd, b.windows.trans a.windows, b.attention.trans a.attention,
    b.producer.trans a.producer, b.consumer.trans a.consumer, fun _ m => b.jobs (a.jobs m)⟩

theorem SameUnits.posted {p q : Part} (a : SameUnits p q) (jobs : p.agent.jobs ⊆ q.agent.jobs) : Posted p q :=
  ⟨a.init, a.cmd, a.windows, by rw [a.evt], by rw [a.evt], by rw [a.evt], jobs⟩

theorem arbitrate_posted (p : Part) : Posted p (arbitrate p) :=
  (arbitrate_leaves p).1.posted (by rw [(arbitrate_leaves p).2]; exact fun _ m => m)

theorem submit_posted (j : Job) (p : Part) : Posted p (submit j p) :=
  (submit_leaves j p).1.posted (by rw [(submit_leaves j p).2]; exact List.subset_append_left _ _)

theorem pumpEvents_posted (p : Part) : Posted p (pumpEvents p) := by
  unfold pumpEvents
  split
  · exact .refl p
  · split
    · obtain ⟨init, cmd, windows, attention, producer, consumer, jobs⟩ := submit_posted _ _
      exact ⟨init, cmd, windows, attention, producer, consumer, jobs⟩
    · exact .refl p

theorem post_posted (s : AlarmSource) (e : EventItem) (p : Part) : Posted p (post s e p) := by
  unfold Machine.post
  split
  · obtain ⟨init, cmd, windows, attention, producer, consumer, jobs⟩ := pumpEvents_posted _
    exact ⟨init, cmd, windows, attention, producer, consumer, jobs⟩
  · exact ⟨rfl, rfl, rfl, rfl, rfl, rfl, fun _ m => m⟩

theorem posted_posts (p : Part) : PostsKeep (Posted p) where
  post s e q a := a.trans (post_posted s e q)
  same q r same a := by
    obtain ⟨-, init, bus, agent, cmd, evt⟩ := same
    exact a.trans ⟨init, cmd, by rw [bus], by rw [evt], by rw [evt], by rw [evt], by rw [agent]; exact fun _ m => m⟩

/-- Before the rings are initialised a posted event waits: the decoder, the port, the agent and the units are as they were (R181). -/
def StillRings (p q : Part) : Prop := q.init = p.init ∧ q.bus = p.bus ∧ q.agent = p.agent ∧ q.cmd = p.cmd

theorem stillRings_posts {p : Part} (early : p.init ≠ .done) : PostsKeep (StillRings p) where
  post s e q a := by
    have stays : ∀ r : Part, r.init ≠ .done → pumpEvents r = r := fun r n => by
      unfold pumpEvents
      split
      · rfl
      · exact if_neg fun h => n h.1
    unfold Machine.post
    split
    · rw [stays _ (by rw [show (_ : Part).init = p.init from a.1]; exact early)]
      exact a
    · exact a
  same q r same a := by
    obtain ⟨-, init, bus, agent, cmd, -⟩ := same
    obtain ⟨init', bus', agent', cmd'⟩ := a
    exact ⟨init.trans init', bus.trans bus', agent.trans agent', cmd.trans cmd'⟩

theorem raiseAlarm_still {p : Part} (early : p.init ≠ .done) (s : AlarmSource) (k : AlarmKind) (a b : Word) :
    StillRings p (raiseAlarm s k a b p) := raiseAlarm_posts (stillRings_posts early) s k a b ⟨rfl, rfl, rfl, rfl⟩

/-! ### The last word of a job -/

/-- The acknowledge of a job's last word reports it to its unit (R170, R171). -/
theorem finishWord_last {p : Part} {j : Job} {rest : List Job} (jobs : p.agent.jobs = j :: rest) (last : j.words ≤ p.agent.done + 1)
    (d : Word) : finishWord d p =
      arbitrate (report j.kind (some (if j.data.isEmpty then p.agent.got ++ [d] else p.agent.got)) (dropJob p)) := by
  unfold finishWord
  rw [jobs]
  exact if_neg (Nat.not_lt.2 last)

theorem failWord_eq {p : Part} {j : Job} {rest : List Job} (jobs : p.agent.jobs = j :: rest) : failWord p =
    arbitrate (raiseMemoryFault (j.wordAddr p.agent.done) j.kind (report j.kind none (dropJob p))) := by
  unfold failWord
  rw [jobs]

/-- The front job that is reported, when it is of one word: what the two ends of its word do. -/
theorem endWord_single {p : Part} {j : Job} {rest : List Job} (jobs : p.agent.jobs = j :: rest) (first : p.agent.done = 0)
    (one : j.words = 1) (data : Word) :
    (∃ l, (j.data = [] → p.agent.got = [] → l = [data]) ∧
      endWord (.ack data) p = arbitrate (report j.kind (some l) (dropJob p))) ∧
    endWord .error p = arbitrate (raiseMemoryFault (j.wordAddr 0) j.kind (report j.kind none (dropJob p))) := by
  refine ⟨⟨_, fun read got => ?_, finishWord_last jobs (by rw [one]; exact Nat.le_add_left 1 _) data⟩, ?_⟩
  · rw [read, got]
    rfl
  · rw [← first]
    exact failWord_eq jobs

theorem dropJob_frame (p : Part) : ChangesOnly [.agent, .port] p (dropJob p) := by
  intro b m
  cases b <;> simp_all [Block.same, dropJob, Part.head, Part.island]

theorem dropJob_jobs {p : Part} {j : Job} {rest : List Job} (jobs : p.agent.jobs = j :: rest) : (dropJob p).agent.jobs = rest := by
  rw [dropJob, jobs]
  rfl

theorem Bus.ringSize_windows {a b : Bus} (same : a.windows = b.windows) (k : WindowKind) : a.ringSize k = b.ringSize k := by
  rw [Bus.ringSize, Bus.ringSize, Bus.window?, Bus.window?, same]

theorem Bus.base_windows {a b : Bus} (same : a.windows = b.windows) (k : WindowKind) : a.base k = b.base k := by
  rw [Bus.base, Bus.base, Bus.window?, Bus.window?, same]

theorem indexWord_windows {a b : Bus} (same : a.windows = b.windows) (k : WindowKind) (n : Nat) : indexWord a k n = indexWord b k n := by
  rw [indexWord, indexWord, Bus.base_windows same]

/-! ### The start-up reads -/

/-- What the value of a start-up read leaves of the violation record and the Alarm Table (R174 step 1). -/
structure StartRead (k : WindowKind) (addr : Addr) (v : Nat) (p q : Part) : Prop where
  good : v < p.bus.ringSize k → q.bus.violation = p.bus.violation ∧ q.alarms = p.alarms
  bad : p.bus.ringSize k ≤ v → p.bus.violation = none →
    q.bus.violation = some ⟨addr, k, .badIndex, false⟩ ∧ q.alarms.shows .device .windowViolation = true

theorem violate_frame (addr : Addr) (k : WindowKind) (v : ViolationCause) (p : Part) :
    ChangesOnly (.decoder :: Block.alarming) p (violate addr k v p) := by
  have set : ∀ x : Option Violation, ChangesOnly (.decoder :: Block.alarming) p { p with bus := { p.bus with violation := x } } :=
    fun x b m => by cases b <;> simp_all [Block.same, Part.head, Part.island]
  unfold violate
  split
  · exact set _
  · exact (set _).trans ((raiseAlarm_frame _ _ _ _ _).mono (List.subset_cons_self ..))

/-- A violation before the rings are initialised. -/
theorem violate_still {p : Part} (early : p.init ≠ .done) (addr : Addr) (k : WindowKind) (v : ViolationCause) :
    (violate addr k v p).init = p.init ∧ (violate addr k v p).agent = p.agent ∧ (violate addr k v p).cmd = p.cmd ∧
    (p.bus.violation = none → (violate addr k v p).bus.violation = some ⟨addr, k, v, false⟩ ∧
      (violate addr k v p).alarms.shows .device .windowViolation = true) := by
  unfold violate
  split
  · rename_i x there
    exact ⟨rfl, rfl, rfl, fun none => nomatch there.symm.trans none⟩
  · obtain ⟨init, bus, agent, cmd⟩ := raiseAlarm_still
      (p := { p with bus := { p.bus with violation := some { addr := addr, kind := k, cause := v, more := false } } }) early
      .device .windowViolation (addr.extractLsb' 0 16) ((addr.extractLsb' 16 4).setWidth 16)
    exact ⟨init, agent, cmd, fun _ => ⟨by rw [bus], raiseAlarm_alarms ..⟩⟩

/-- The value a start-up read gives, and what it leaves (R174 step 1). -/
theorem startValue_read {p : Part} (early : p.init ≠ .done) (k : WindowKind) (addr : Addr) (data : Word) :
    (startValue k addr (some [data]) p).1 = (if data.toNat < p.bus.ringSize k then data.toNat else 0) ∧
    ∃ q, (startValue k addr (some [data]) p).2 = q ∧ q.init = p.init ∧ q.agent = p.agent ∧ q.cmd = p.cmd ∧
      q.bus.windows = p.bus.windows ∧ StartRead k addr data.toNat p q ∧
      ChangesOnly (.decoder :: Block.alarming) p q := by
  unfold startValue
  simp only [List.getD_cons_zero]
  by_cases less : data.toNat < p.bus.ringSize k
  · rw [if_pos less, if_pos less]
    exact ⟨rfl, p, rfl, rfl, rfl, rfl, rfl, ⟨fun _ => ⟨rfl, rfl⟩, fun le => absurd less (Nat.not_lt.2 le)⟩, .refl _ p⟩
  · rw [if_neg less, if_neg less]
    obtain ⟨init, agent, cmd, told⟩ := violate_still early addr k .badIndex
    exact ⟨rfl, _, rfl, init, agent, cmd, violate_windows .., ⟨fun l => absurd l less, fun _ => told⟩, violate_frame _ _ _ _⟩

/-- The next stage of a start-up read: the units' records, and the job that follows. -/
def ReadsOn (p : Part) (v : Nat) (q : Part) : Prop :=
  q.cmd = { p.cmd with consumer := v, producer := v } ∧ q.init = .readEvent ∧
  q.agent.jobs = [{ kind := .startupEvent, addr := indexWord p.bus .event 1, reads := 1, data := [] }]

def WritesOn (p : Part) (v : Nat) (q : Part) : Prop :=
  q.evt.producer = v ∧ q.evt.consumer = v ∧ q.cmd = p.cmd ∧ q.init = .writing false false ∧
  q.agent.jobs =
    [{ kind := .consumerWrite, addr := indexWord p.bus .command 1, reads := 0, data := [BitVec.ofNat 16 p.cmd.consumer] },
     { kind := .producerWrite, addr := indexWord p.bus .event 0, reads := 0, data := [BitVec.ofNat 16 v] }]

section
variable {p : Part} {w : Option (List Word)} {v : Nat} {r : Part}

/-- The first start-up read reported (R174 step 1). -/
theorem endStartCommand_reads (is : startValue .command (indexWord p.bus .command 0) w p = (v, r)) (agent : r.agent = p.agent)
    (cmd : r.cmd = p.cmd) (windows : r.bus.windows = p.bus.windows) (empty : p.agent.jobs = []) :
    ReadsOn p v (endStartCommand w p) ∧ ChangesOnly [.rings, .init, .agent, .port] r (endStartCommand w p) := by
  unfold endStartCommand
  rw [is]
  obtain ⟨same, jobs⟩ := submit_leaves (readJob .startupEvent (indexWord r.bus .event 1) 1)
    { r with cmd := { r.cmd with consumer := v, producer := v }, init := .readEvent }
  refine ⟨⟨by rw [same.cmd, cmd], same.init, ?_⟩, ?_⟩
  · rw [jobs, show (_ : Part).agent.jobs = [] from (congrArg Agent.jobs agent).trans empty, indexWord_windows windows]
    rfl
  · refine .trans (q := { r with cmd := { r.cmd with consumer := v, producer := v }, init := .readEvent }) ?_
      ((submit_frame _ _).mono (by simp))
    intro b m
    cases b <;> simp_all [Block.same, Part.head, Part.island]

theorem word_of_le {n : Nat} (small : n ≤ 65535) : word n = BitVec.ofNat 16 n := by
  rw [word, limit, Nat.min_eq_left (by simpa using small)]

/-- The second start-up read reported (R174 steps 1 and 2). -/
theorem endStartEvent_writes (is : startValue .event (indexWord p.bus .event 1) w p = (v, r)) (agent : r.agent = p.agent)
    (cmd : r.cmd = p.cmd) (windows : r.bus.windows = p.bus.windows) (empty : p.agent.jobs = []) (small : p.cmd.consumer ≤ 65535)
    (small' : v ≤ 65535) : WritesOn p v (endStartEvent w p) ∧ ChangesOnly [.events, .init, .agent, .port] r (endStartEvent w p) := by
  unfold endStartEvent
  rw [is]
  obtain ⟨same, jobs⟩ := submit_leaves (writeJob .consumerWrite (indexWord r.bus .command 1) (word r.cmd.consumer))
    { r with evt := { r.evt with producer := v, consumer := v }, init := .writing false false }
  change WritesOn p v (writeProducer (submit _ _)) ∧ ChangesOnly _ r (writeProducer (submit _ _))
  generalize frame : submit (writeJob .consumerWrite (indexWord r.bus .command 1) (word r.cmd.consumer))
    { r with evt := { r.evt with producer := v, consumer := v }, init := .writing false false } = q at same jobs
  obtain ⟨same', jobs'⟩ := submit_leaves (writeJob .producerWrite (indexWord q.bus .event 0) (word q.evt.producer)) q
  refine ⟨⟨by rw [writeProducer, same'.evt, same.evt], by rw [writeProducer, same'.evt, same.evt],
    by rw [writeProducer, same'.cmd, same.cmd, cmd], same'.init.trans same.init, ?_⟩, ?_⟩
  · rw [writeProducer, jobs', jobs, show (_ : Part).agent.jobs = [] from (congrArg Agent.jobs agent).trans empty,
      indexWord_windows windows, indexWord_windows (same.windows.trans windows), same.evt, cmd, word_of_le small, word_of_le (n := v) small']
    rfl
  · refine .trans ?_ ((submit_frame _ _).mono (by simp))
    rw [← frame]
    refine .trans (q := { r with evt := { r.evt with producer := v, consumer := v }, init := .writing false false }) ?_
      ((submit_frame _ _).mono (by simp))
    intro b m
    cases b <;> simp_all [Block.same, Part.head, Part.island]

end

/-! ### The end of a word -/

/-- A word of the agent ends after a lapse of ticks. -/
theorem Completes.of_wordEnd {s : State} {dt : Nat} {reply : MemReply} {P : Part → Prop} (running : s.part.mode = .running)
    (onPort : s.part.agent.onPort = true) (a : ∀ t, P (endWord reply { s.part with time := t })) :
    Completes (.agentWordEnd dt reply) s P := by
  refine .of_timed (f := endWord reply) rfl running ?_ ?_
  · show (elapse dt s.part).agent.onPort = true
    rw [elapse_agent]
    exact onPort
  · rw [elapse_eq]
    exact a _

/-- The start-up reads at the end of their word, by an acknowledge and by a memory error (R172, R174). -/
theorem startCommand_ends {p : Part} {j : Job} (jobs : p.agent.jobs = [j]) (first : p.agent.done = 0) (got : p.agent.got = [])
    (kind : j.kind = .startupCommand) (one : j.words = 1) (read : j.data = []) (init : p.init = .readCommand) (data : Word) :
    (∃ q, endWord (.ack data) p = q ∧ ReadsOn p (if data.toNat < p.bus.ringSize .command then data.toNat else 0) q ∧
      StartRead .command (indexWord p.bus .command 0) data.toNat p q ∧ ChangesOnly ([.rings, .init, .decoder] ++ Block.alarming) p q) ∧
    ∃ q, endWord .error p = q ∧ ReadsOn p 0 q ∧ q.alarms.shows .device .memoryFault = true ∧
      ChangesOnly ([.rings, .init] ++ Block.alarming) p q := by
  have empty := dropJob_jobs jobs
  have dropped := dropJob_frame p
  have early : (dropJob p).init ≠ .done := by
    rw [show (dropJob p).init = p.init from rfl, init]
    exact nofun
  obtain ⟨⟨l, is, acked⟩, failed⟩ := endWord_single jobs first one data
  rw [is read got, kind] at acked
  rw [kind] at failed
  refine ⟨⟨_, acked, ?_⟩, ⟨_, failed, ?_⟩⟩
  · obtain ⟨value, r, is, -, agent, cmd, windows, judged, frame⟩ := startValue_read early .command (indexWord p.bus .command 0) data
    obtain ⟨reads, rest⟩ := endStartCommand_reads (Prod.ext value is) agent cmd windows empty
    obtain ⟨same, jobs⟩ := arbitrate_leaves (endStartCommand (some [data]) (dropJob p))
    have onward := rest.trans ((arbitrate_frame _).mono (by simp))
    refine ⟨⟨same.cmd.trans reads.1, same.init.trans reads.2.1, jobs.trans reads.2.2⟩, ?_, ?_⟩
    · have violation := (onward .decoder (by simp)).2.1
      have alarms : r.alarms = _ := onward .alarms (by simp)
      exact ⟨fun good => violation ▸ alarms ▸ judged.good good, fun bad none => violation ▸ alarms ▸ judged.bad bad none⟩
    · exact (dropped.mono (by simp [Block.alarming, Block.posting])).trans ((frame.mono (by simp)).trans
        (onward.mono (by simp [Block.alarming, Block.posting])))
  · obtain ⟨reads, rest⟩ := endStartCommand_reads (p := dropJob p) (w := none) (v := 0) (r := dropJob p) rfl rfl rfl rfl empty
    have late : (endStartCommand none (dropJob p)).init ≠ .done := by
      rw [reads.2.1]
      exact nofun
    obtain ⟨init', -, agent, cmd⟩ := raiseAlarm_still late .device .memoryFault ((j.wordAddr 0).extractLsb' 0 16)
      (pair ((j.wordAddr 0).extractLsb' 16 4).toNat JobKind.startupCommand.code)
    obtain ⟨same, jobs⟩ := arbitrate_leaves (raiseMemoryFault (j.wordAddr 0) .startupCommand (endStartCommand none (dropJob p)))
    refine ⟨⟨same.cmd.trans (cmd.trans reads.1), same.init.trans (init'.trans reads.2.1),
      jobs.trans ((congrArg Agent.jobs agent).trans reads.2.2)⟩, ?_, ?_⟩
    · rw [← (arbitrate_frame _ .alarms (by simp) : _ = (arbitrate _).alarms)]
      exact raiseAlarm_alarms ..
    · exact (dropped.mono (by simp [Block.alarming, Block.posting])).trans ((rest.mono (by simp [Block.alarming, Block.posting])).trans
        (((raiseAlarm_frame _ _ _ _ _).mono (by simp)).trans ((arbitrate_frame _).mono (by simp [Block.alarming, Block.posting]))))

theorem startEvent_ends {p : Part} {j : Job} (jobs : p.agent.jobs = [j]) (first : p.agent.done = 0) (got : p.agent.got = [])
    (kind : j.kind = .startupEvent) (one : j.words = 1) (read : j.data = []) (init : p.init = .readEvent)
    (small : p.cmd.consumer ≤ 65535) (size : p.bus.ringSize .event ≤ 65535) (data : Word) :
    (∃ q, endWord (.ack data) p = q ∧ WritesOn p (if data.toNat < p.bus.ringSize .event then data.toNat else 0) q ∧
      StartRead .event (indexWord p.bus .event 1) data.toNat p q ∧ ChangesOnly ([.init, .decoder] ++ Block.alarming) p q) ∧
    ∃ q, endWord .error p = q ∧ WritesOn p 0 q ∧ q.alarms.shows .device .memoryFault = true ∧
      ChangesOnly (.init :: Block.alarming) p q := by
  have empty := dropJob_jobs jobs
  have dropped := dropJob_frame p
  have early : (dropJob p).init ≠ .done := by
    rw [show (dropJob p).init = p.init from rfl, init]
    exact nofun
  obtain ⟨⟨l, is, acked⟩, failed⟩ := endWord_single jobs first one data
  rw [is read got, kind] at acked
  rw [kind] at failed
  refine ⟨⟨_, acked, ?_⟩, ⟨_, failed, ?_⟩⟩
  · obtain ⟨value, r, is, -, agent, cmd, windows, judged, frame⟩ := startValue_read early .event (indexWord p.bus .event 1) data
    have low : (if data.toNat < p.bus.ringSize .event then data.toNat else 0) ≤ 65535 := by
      split
      · rename_i less
        exact Nat.le_trans (Nat.le_of_lt less) size
      · exact Nat.zero_le _
    obtain ⟨writes, rest⟩ := endStartEvent_writes (Prod.ext value is) agent cmd windows empty small low
    obtain ⟨same, jobs⟩ := arbitrate_leaves (endStartEvent (some [data]) (dropJob p))
    obtain ⟨producer, consumer, cmd', init', jobs'⟩ := writes
    have onward := rest.trans ((arbitrate_frame _).mono (by simp))
    refine ⟨⟨by rw [← producer, ← same.evt]; rfl, by rw [← consumer, ← same.evt]; rfl, same.cmd.trans cmd', same.init.trans init', jobs.trans jobs'⟩, ?_, ?_⟩
    · have violation := (onward .decoder (by simp)).2.1
      have alarms : r.alarms = _ := onward .alarms (by simp)
      exact ⟨fun good => violation ▸ alarms ▸ judged.good good, fun bad none => violation ▸ alarms ▸ judged.bad bad none⟩
    · exact (dropped.mono (by simp [Block.alarming, Block.posting])).trans ((frame.mono (by simp)).trans
        (onward.mono (by simp [Block.alarming, Block.posting])))
  · obtain ⟨⟨producer, consumer, cmd', init', jobs'⟩, rest⟩ :=
      endStartEvent_writes (p := dropJob p) (w := none) (v := 0) (r := dropJob p) rfl rfl rfl rfl empty small (Nat.zero_le _)
    have late : (endStartEvent none (dropJob p)).init ≠ .done := by
      rw [init']
      exact nofun
    have told : Posted _ _ := raiseAlarm_posts (posted_posts (endStartEvent none (dropJob p))) .device .memoryFault
      ((j.wordAddr 0).extractLsb' 0 16) (pair ((j.wordAddr 0).extractLsb' 16 4).toNat JobKind.startupEvent.code) (.refl _)
    obtain ⟨-, -, agent, -⟩ := raiseAlarm_still late .device .memoryFault ((j.wordAddr 0).extractLsb' 0 16)
      (pair ((j.wordAddr 0).extractLsb' 16 4).toNat JobKind.startupEvent.code)
    obtain ⟨same, jobs⟩ := arbitrate_leaves (raiseMemoryFault (j.wordAddr 0) .startupEvent (endStartEvent none (dropJob p)))
    have all := told.trans (arbitrate_posted _)
    refine ⟨⟨all.producer.trans producer, all.consumer.trans consumer, all.cmd.trans cmd', all.init.trans init',
      jobs.trans ((congrArg Agent.jobs agent).trans jobs')⟩, ?_, ?_⟩
    · rw [← (arbitrate_frame _ .alarms (by simp) : _ = (arbitrate _).alarms)]
      exact raiseAlarm_alarms ..
    · exact (dropped.mono (by simp [Block.alarming, Block.posting])).trans ((rest.mono (by simp [Block.alarming, Block.posting])).trans
        (((raiseAlarm_frame _ _ _ _ _).mono (by simp)).trans ((arbitrate_frame _).mono (by simp [Block.alarming, Block.posting]))))

end Sys2Proof.Machine
end

section
/-! PROOFS. The work of the rings begins (R131, R172, R174, R183): STARTED, the standby commits, and the settling of RingsAreInitialised. -/

namespace Sys2Proof.Machine

/-! ### Events that wait -/

/-- The Event Unit writes no event now, and `es` wait in their order. -/
structure Pending (es : List Event) (p : Part) : Prop where
  still : p.evt.writing = true ∨ p.evt.room (p.bus.ringSize .event) = false
  told : es.Sublist p.evt.queue

theorem pumpEvents_of_still {p : Part} (still : p.evt.writing = true ∨ p.evt.room (p.bus.ringSize .event) = false) : pumpEvents p = p := by
  unfold pumpEvents
  split
  · rfl
  · refine if_neg fun ⟨_, idle, room⟩ => ?_
    obtain writing | full := still
    · exact idle writing
    · rw [full] at room
      cases room

theorem post_of_still {p : Part} (still : p.evt.writing = true ∨ p.evt.room (p.bus.ringSize .event) = false)
    (room : p.evt.queue.length < Config.maxEvents) (s : AlarmSource) (e : EventItem) : post s e p =
      { p with evt := { p.evt with queue := p.evt.queue ++ [⟨s, p.ref.count, e⟩] } } := by
  unfold Machine.post
  rw [if_pos room]
  exact pumpEvents_of_still still

theorem pending_posts (es : List Event) : PostsKeep (Pending es) where
  post s e p a := by
    by_cases room : p.evt.queue.length < Config.maxEvents
    · rw [post_of_still a.still room]
      exact ⟨a.still, a.told.trans (List.sublist_append_left _ _)⟩
    · unfold Machine.post
      rw [if_neg room]
      exact ⟨a.still, a.told⟩
  same p q same a := by
    obtain ⟨-, -, bus, -, -, evt⟩ := same
    exact ⟨by rw [evt, bus]; exact a.still, by rw [evt]; exact a.told⟩

theorem Pending.units {es : List Event} {p q : Part} (a : Pending es p) (same : SameUnits p q) : Pending es q :=
  ⟨by rw [same.evt, Bus.ringSize_windows same.windows]; exact a.still, by rw [same.evt]; exact a.told⟩

/-! ### MOVEs of another island -/

/-- No MOVE of the island waits. -/
def LinkUnit.lacksMove (k : LinkUnit) (j : IslandId) : Prop := ∀ e ∈ k.queue, e.isMoveOf j = false

section
variable {j : IslandId} {p : Part}

theorem joinPoll_lacks (i : IslandId) (a : p.link.lacksMove j) : (joinPoll i p).link.lacksMove j := by
  unfold joinPoll
  split
  · intro e m
    obtain old | new := List.mem_append.1 m
    · exact a e old
    · rw [List.mem_singleton.1 new]
      simp [Entry.isMoveOf, Entry.isMove]
  · exact a

theorem joinPolls_lacks (a : p.link.lacksMove j) : (joinPolls p).link.lacksMove j :=
  ite_keeps (I := fun q : Part => q.link.lacksMove j) (joinPoll_lacks .i1 a) (joinPoll_lacks .i2 (joinPoll_lacks .i1 a))

theorem selectEntry_lacks (a : p.link.lacksMove j) : (selectEntry p).link.lacksMove j := by
  unfold selectEntry
  split
  · rename_i front rest _ _ queue
    intro e m
    rw [beginTransaction_link] at m
    exact a e (queue ▸ List.mem_cons_of_mem _ m)
  · exact a

theorem dropPoll_lacks (a : p.link.lacksMove j) : (dropPoll p).link.lacksMove j := by
  unfold dropPoll
  split
  · exact a
  · split
    · exact fun e m => a e (List.mem_of_mem_dropLast m)
    · exact a

theorem replaceMove_lacks {i : IslandId} (other : j ≠ i) {r : Request} {n : Nat} {l : List Entry} (a : ∀ e ∈ l, e.isMoveOf j = false) :
    ∀ e ∈ replaceMove i r n l, e.isMoveOf j = false := by
  induction l generalizing n with
  | nil => exact fun e m => nomatch m
  | cons d l ih =>
    have behind : ∀ n, ∀ e ∈ replaceMove i r n l, e.isMoveOf j = false := fun n => ih (n := n) fun e m => a e (List.mem_cons_of_mem _ m)
    have front := a d (List.mem_cons_self ..)
    unfold replaceMove
    split
    · rename_i mine
      have island : d.island = i := by simp [Entry.isMoveOf] at mine; exact mine.1
      split
      · refine List.forall_mem_cons.2 ⟨?_, fun e m => a e (List.mem_cons_of_mem _ m)⟩
        simp [Entry.isMoveOf, island, Ne.symm other]
      · exact List.forall_mem_cons.2 ⟨front, behind _⟩
    · exact List.forall_mem_cons.2 ⟨front, behind _⟩

theorem joinMove_lacks {i : IslandId} (other : j ≠ i) (port : Port) (asked : Stamp) {l : List Entry} (a : ∀ e ∈ l, e.isMoveOf j = false) :
    ∀ e ∈ joinMove i port asked l, e.isMoveOf j = false := by
  unfold joinMove
  dsimp only
  split
  · exact a
  · split
    · exact replaceMove_lacks other a
    · intro e m
      obtain (old | new) | old := List.mem_append.1 m |>.imp_left List.mem_append.1
      · exact a e (List.mem_of_mem_filter old)
      · rw [List.mem_singleton.1 new]
        simp [Entry.isMoveOf, Ne.symm other]
      · exact a e (List.mem_of_mem_filter old)

theorem submitMove_lacks {i : IslandId} (other : j ≠ i) (port : Port) (asked : Stamp) (a : p.link.lacksMove j) :
    (submitMove i port asked p).link.lacksMove j := by
  have dropped : (dropPoll { p with link := { p.link with queue := joinMove i port asked p.link.queue } }).link.lacksMove j :=
    dropPoll_lacks (joinMove_lacks other port asked a)
  exact joinPolls_lacks (selectEntry_lacks (joinPolls_lacks (p := Part.modStation _ i _) dropped))

end

/-- The MOVE of a commit stands at the link as it was asked, where none of its island waited. -/
theorem submitMove_joins {i : IslandId} {port : Port} {asked : Stamp} {p : Part} (sound : p.link.sound = true) (lacks : p.link.lacksMove i) :
    ⟨i, .move port asked⟩ ∈ (submitMove i port asked p).link.hand := by
  have rules := (joinMove_rules (LinkUnit.ready_of_sound sound).1 i port asked).1
  have mine : p.link.queue.filter (Entry.isMoveOf i) = [] := List.filter_eq_nil_iff.2 fun e m => by simp [lacks e m]
  have there : (⟨i, .move port asked⟩ : Entry) ∈ joinMove i port asked p.link.queue := by
    unfold joinMove
    rw [mine]
    simp
  exact pumpLink_hand (p := Part.modStation _ i _) (LinkUnit.mem_hand.2 (.inl
    (dropPoll_move (p := { p with link := { p.link with queue := joinMove i port asked p.link.queue } }) rules there rfl)))

/-- A MOVE of the other island stays with the link. -/
theorem submitMove_keepsMove {i : IslandId} (port : Port) (asked : Stamp) {p : Part} (sound : p.link.sound = true) {e : Entry}
    (m : e ∈ p.link.hand) (move : e.isMove = true) (other : e.island ≠ i) : e ∈ (submitMove i port asked p).link.hand := by
  obtain waits | ⟨f, flies, is⟩ := LinkUnit.mem_hand.1 m
  · exact (submitMove_hand sound).2 e waits move other
  · refine pumpLink_hand (p := Part.modStation _ i _) (LinkUnit.mem_hand.2 (.inr ⟨f, ?_, is⟩))
    exact (dropPoll_flight { p with link := { p.link with queue := joinMove i port asked p.link.queue } }).trans flies

theorem submitMove_fast_ne {i j : IslandId} (other : j ≠ i) (port : Port) (asked : Stamp) {p : Part}
    (fast : (p.link.stations.get j).fast = true) : ((submitMove i port asked p).link.stations.get j).fast = true := by
  unfold submitMove
  rw [pumpLink_fast, Part.modStation_link, Two.get_set_ne _ _ other]
  unfold dropPoll
  split
  · exact fast
  · split
    · rename_i d _
      rw [Part.modStation_link]
      by_cases same : j = d.island
      · rw [same, Two.get_set_same]
        exact same ▸ fast
      · rw [Two.get_set_ne _ _ same]
        exact fast
    · exact fast

/-! ### MOVEs at an empty link -/

theorem joinPolls_of_none {p : Part} (none : ∀ i, (p.link.stations.get i).due = false) : joinPolls p = p := by
  have stays : ∀ i, joinPoll i p = p := fun i => if_neg fun h => by
    rw [none i] at h
    cases h.1
  unfold joinPolls
  dsimp only
  rw [stays, stays, ite_self]

/-- The link with a MOVE alone in its queue, fast polling on (R118, R126). -/
def Part.asking (i : IslandId) (port : Port) (asked : Stamp) (p : Part) : Part :=
  Part.modStation { p with link := { p.link with queue := [⟨i, .move port asked⟩] } } i fun s => { s with fast := true }

theorem Part.asking_due {i j : IslandId} {port : Port} {asked : Stamp} {p : Part} (none : ∀ i, (p.link.stations.get i).due = false) :
    ((p.asking i port asked).link.stations.get j).due = false := by
  rw [asking, Part.modStation_link]
  by_cases same : j = i
  · rw [same, Two.get_set_same]
    exact none i
  · rw [Two.get_set_ne _ _ same]
    exact none j

/-- A MOVE that joins an empty queue, with no poll due (R118, R119). -/
theorem submitMove_alone {i : IslandId} {port : Port} {asked : Stamp} {p : Part} (queue : p.link.queue = [])
    (none : ∀ i, (p.link.stations.get i).due = false) : submitMove i port asked p = selectEntry (p.asking i port asked) := by
  have joins : submitMove i port asked p = pumpLink (p.asking i port asked) := by
    have join : joinMove i port asked p.link.queue = [⟨i, .move port asked⟩] := by
      rw [queue]
      rfl
    unfold submitMove
    rw [join]
    rfl
  have still : joinPolls (p.asking i port asked) = p.asking i port asked := joinPolls_of_none fun _ => Part.asking_due none
  rw [joins, pumpLink, still]
  refine joinPolls_of_none fun j => ?_
  have stations : (selectEntry (p.asking i port asked)).link.stations = (p.asking i port asked).link.stations := by
    unfold selectEntry
    split
    · rw [beginTransaction_link]
    · rfl
  rw [stations]
  exact Part.asking_due none

theorem selectEntry_first {p : Part} {e : Entry} {rest : List Entry} (line : p.link.line = .idle) (flight : p.link.flight = none)
    (queue : p.link.queue = e :: rest) : selectEntry p =
      beginTransaction { entry := e, tries := 0, sentTo := 0, orphan := false } { p with link := { p.link with queue := rest } } := by
  unfold selectEntry
  rw [line, flight, queue]

/-- The link in the first transaction of a MOVE that stood alone (R115, R119). -/
def Part.sends (i : IslandId) (port : Port) (asked : Stamp) (p : Part) : LinkUnit :=
  { (p.asking i port asked).link with
    queue := []
    flight := some { entry := ⟨i, .move port asked⟩, tries := 1, sentTo := (p.island i).settings.address, orphan := false }
    line := .sending, transmit := true
    sending := messageChars (requestBytes (p.island i).settings.address (.move port asked)), since := p.time.crystal, assembling := [] }

/-- On an idle line its first transaction begins (R119, R125). -/
theorem submitMove_idle {i : IslandId} {port : Port} {asked : Stamp} {p : Part} (line : p.link.line = .idle) (flight : p.link.flight = none)
    (queue : p.link.queue = []) (none : ∀ i, (p.link.stations.get i).due = false) : submitMove i port asked p =
      reportLate ⟨i, .move port asked⟩ (p.island i).settings.address { p with link := p.sends i port asked } := by
  have line' : (p.asking i port asked).link.line = .idle := line
  have flight' : (p.asking i port asked).link.flight = .none := flight
  have queue' : (p.asking i port asked).link.queue = [⟨i, .move port asked⟩] := rfl
  rw [submitMove_alone queue none, selectEntry_first line' flight' queue']
  unfold beginTransaction
  exact if_pos rfl

/-- On a busy line it waits (R119). -/
theorem submitMove_busy {i : IslandId} {port : Port} {asked : Stamp} {p : Part} (line : p.link.line = .sending)
    (queue : p.link.queue = []) (none : ∀ i, (p.link.stations.get i).due = false) :
    submitMove i port asked p = p.asking i port asked := by
  rw [submitMove_alone queue none]
  unfold selectEntry
  split
  · rename_i idle _ _
    exact nomatch line.symm.trans idle
  · rfl

/-! ### The work begins -/

/-- The initialisation is done, the attention line judged (R174 step 3, R183). -/
def Part.begun (p : Part) : Part := { p with init := .done, evt := p.evt.judged }

/-- STARTED is posted (R174 step 4). -/
def Part.told (p : Part) : Part := post .device (.started p.cmd.consumer p.evt.producer) (pumpEvents p.begun)

/-- The two standby commits are made (R174 step 4). -/
def Part.standsBy (p : Part) : Part := standbyAtStart .i2 (standbyAtStart .i1 p.told)

theorem endInit_eq (p : Part) :
    endInit p = if p.standsBy.cmd.consumer = p.standsBy.cmd.producer then p.standsBy else fetchEntry p.standsBy := by
  unfold endInit Part.standsBy Part.told Part.begun
  rfl

theorem fetchEntry_does (p : Part) : (fetchEntry p).cmd = { p.cmd with fetch := .fetching } ∧
    (fetchEntry p).agent.jobs = p.agent.jobs ++ [{ kind := .commandFetch, reads := 15, data := []
                                                   addr := commandEntry p.bus p.cmd.consumer }] ∧
    SameUnits { p with cmd := { p.cmd with fetch := .fetching } } (fetchEntry p) ∧
    ChangesOnly [.rings, .agent, .port] p (fetchEntry p) := by
  obtain ⟨same, jobs⟩ := submit_leaves (readJob .commandFetch (commandEntry p.bus p.cmd.consumer) 15)
    { p with cmd := { p.cmd with fetch := .fetching } }
  refine ⟨same.cmd, jobs, same, .trans (q := { p with cmd := { p.cmd with fetch := .fetching } }) ?_ ((submit_frame _ _).mono (by simp))⟩
  intro b m
  cases b <;> simp_all [Block.same, Part.head, Part.island]

theorem standbyAtStart_posted (i : IslandId) (p : Part) : Posted p (standbyAtStart i p) :=
  commitAsked_keeps (posted_posts p).scheduler 0 i .standby _ .island (.refl p)

theorem standbyAtStart_pending {es : List Event} {p : Part} (i : IslandId) (a : Pending es p) : Pending es (standbyAtStart i p) :=
  commitAsked_keeps (pending_posts es).scheduler 0 i .standby _ .island a

theorem told_posted (p : Part) : Posted p.begun p.told := (pumpEvents_posted _).trans (post_posted ..)

theorem begun_frame (p : Part) : ChangesOnly [.init, .events] p p.begun := by
  intro b m
  cases b <;> simp_all [Block.same, Part.head, Part.island, Part.begun]

theorem told_frame (p : Part) : ChangesOnly (.init :: Block.posting) p p.told :=
  ((begun_frame p).mono (by simp [Block.posting])).trans (((pumpEvents_frame _).mono (by simp)).trans ((post_frame _ _ _).mono (by simp)))

/-- With room in the ring the front event is written (R182). -/
theorem pumpEvents_writes {p : Part} {e : Event} {rest : List Event} (queue : p.evt.queue = e :: rest) (done : p.init = .done)
    (idle : p.evt.writing = false) (room : p.evt.room (p.bus.ringSize .event) = true) : pumpEvents p =
      submit { kind := .eventWrite, addr := eventEntry p.bus p.evt.producer, reads := 0, data := e.words }
        { p with evt := { p.evt with queue := rest, writing := true } } := by
  unfold pumpEvents
  rw [queue]
  exact if_pos ⟨done, by simp [idle], room⟩

/-- With no event waiting, STARTED is written where the ring has room, and waits otherwise (R174, R181, R182). -/
theorem told_of_empty {p : Part} (queue : p.evt.queue = []) (idle : p.evt.writing = false) :
    Pending [] p.told ∧ p.told.evt.queue.length ≤ 1 ∧
    (p.evt.room (p.bus.ringSize .event) = true →
      { kind := .eventWrite, addr := eventEntry p.bus p.evt.producer, reads := 0
        data := (⟨.device, p.ref.count, .started p.cmd.consumer p.evt.producer⟩ : Event).words } ∈ p.told.agent.jobs) := by
  have none : p.begun.evt.queue = [] := queue
  have pumped : pumpEvents p.begun = p.begun := by
    unfold pumpEvents
    rw [none]
  generalize waits : ({ p.begun with evt := { p.begun.evt with
      queue := [⟨.device, p.ref.count, .started p.cmd.consumer p.evt.producer⟩] } } : Part) = q
  have posted : p.told = pumpEvents q := by
    unfold Part.told Machine.post
    rw [pumped, none, if_pos (by decide), ← waits]
    rfl
  have one : q.evt.queue = [⟨.device, p.ref.count, .started p.cmd.consumer p.evt.producer⟩] := waits ▸ rfl
  have still : q.evt.writing = false := waits ▸ idle
  have entry : eventEntry q.bus q.evt.producer = eventEntry p.bus p.evt.producer := waits ▸ rfl
  have same : q.evt.room (q.bus.ringSize .event) = p.evt.room (p.bus.ringSize .event) := waits ▸ rfl
  rw [posted]
  by_cases room : p.evt.room (p.bus.ringSize .event) = true
  · rw [pumpEvents_writes one (waits ▸ rfl) still (same.trans room), entry]
    obtain ⟨same, jobs⟩ := submit_leaves
      { kind := .eventWrite, addr := eventEntry p.bus p.evt.producer, reads := 0
        data := (⟨.device, p.ref.count, .started p.cmd.consumer p.evt.producer⟩ : Event).words }
      { q with evt := { q.evt with queue := [], writing := true } }
    refine ⟨⟨.inl (by rw [same.evt]), List.nil_sublist _⟩, by rw [same.evt]; exact Nat.zero_le _, fun _ => ?_⟩
    rw [jobs]
    exact List.mem_append_right _ (List.mem_singleton_self _)
  · have full : q.evt.writing = true ∨ q.evt.room (q.bus.ringSize .event) = false := .inr (by rw [same]; simpa using room)
    rw [pumpEvents_of_still full, one]
    exact ⟨⟨full, List.nil_sublist _⟩, Nat.le_refl 1, fun h => absurd h room⟩

/-- The move of an initial standby commit, with asked field 0 (R131). -/
def Part.firstMove (p : Part) (i : IslandId) : Entry := ⟨i, .move (p.island i).settings.standbyPort 0⟩

/-- The units at work after the initialisation (R174 steps 3 and 4). -/
structure UnitsStart (p q : Part) : Prop where
  init : q.init = .done
  attention : q.evt.attention = decide (p.evt.producer ≠ p.evt.consumer)
  consumer : q.cmd.consumer = p.cmd.consumer
  told : p.evt.queue = [] → p.evt.room (p.bus.ringSize .event) = true →
    { kind := .eventWrite, addr := eventEntry p.bus p.evt.producer, reads := 0
      data := (⟨.device, p.ref.count, .started p.cmd.consumer p.evt.producer⟩ : Event).words } ∈ q.agent.jobs
  rests : p.cmd.consumer = p.cmd.producer → q.cmd = p.cmd
  fetches : p.cmd.consumer ≠ p.cmd.producer → q.cmd.fetch = .fetching ∧
    { kind := .commandFetch, reads := 15, data := [], addr := commandEntry p.bus p.cmd.consumer } ∈ q.agent.jobs

theorem UnitsStart.posted {p q r : Part} (a : UnitsStart p q) (b : Posted q r) : UnitsStart p r :=
  ⟨b.init.trans a.init, b.attention.trans a.attention, (by rw [b.cmd, a.consumer]), fun none room => b.jobs (a.told none room),
    fun same => b.cmd.trans (a.rests same), fun differ => ⟨b.cmd ▸ (a.fetches differ).1, b.jobs (a.fetches differ).2⟩⟩

theorem standsBy_posted (p : Part) : Posted p.told p.standsBy := (standbyAtStart_posted .i1 _).trans (standbyAtStart_posted .i2 _)

theorem endInit_units {p : Part} (idle : p.evt.writing = false) : UnitsStart p (endInit p) := by
  have whole : Posted p.begun p.standsBy := (told_posted p).trans (standsBy_posted p)
  have cmd : p.standsBy.cmd = p.cmd := whole.cmd
  have told : p.evt.queue = [] → p.evt.room (p.bus.ringSize .event) = true → _ := fun queue room =>
    (standsBy_posted p).jobs ((told_of_empty queue idle).2.2 room)
  rw [endInit_eq, cmd]
  generalize p.standsBy = b at whole cmd told
  have windows : b.bus.windows = p.bus.windows := whole.windows
  by_cases same : p.cmd.consumer = p.cmd.producer
  · rw [if_pos same]
    exact ⟨whole.init, whole.attention, by rw [cmd], told, fun _ => cmd, fun n => absurd same n⟩
  · rw [if_neg same]
    obtain ⟨cmd', jobs, units, -⟩ := fetchEntry_does b
    refine ⟨units.init.trans whole.init, ?_, by rw [cmd', cmd], fun queue room => ?_, fun e => absurd e same, fun _ => ⟨by rw [cmd'], ?_⟩⟩
    · rw [units.evt]
      exact whole.attention
    · rw [jobs]
      exact List.mem_append_left _ (told queue room)
    · rw [jobs, cmd, commandEntry, commandEntry, Bus.base_windows windows]
      exact List.mem_append_right _ (List.mem_singleton_self _)

/-- The islands and the link after the initial standby commits (R131). -/
structure StandbysStart (p q : Part) : Prop where
  islands : ∀ i, q.island i = { p.island i with
    mirror := .moving (p.island i).settings.standbyPort
    confirm := some { target := .standby, port := (p.island i).settings.standbyPort, cut := p.leadField i, owner := .island
                      deadline := Stamp.plus (p.leadField i) (p.island i).settings.grace } }
  fast : ∀ i, (q.link.stations.get i).fast = true
  moves : p.link.sound = true → ∀ i, p.link.lacksMove i → p.firstMove i ∈ q.link.hand
  sends : p.link.line = .idle → p.link.queue = [] → p.link.flight = none → (∀ i, (p.link.stations.get i).due = false) →
    q.link.line = .sending ∧ q.link.flight.map (·.entry) = some (p.firstMove .i1) ∧ q.link.queue = [p.firstMove .i2]

theorem StandbysStart.mono {p q r : Part} (a : StandbysStart p q) (link : r.link = q.link) (island : ∀ i, r.island i = q.island i) :
    StandbysStart p r :=
  ⟨fun i => (island i).trans (a.islands i), fun i => link ▸ a.fast i, fun sound i l => link ▸ a.moves sound i l,
    fun line queue flight due => link ▸ a.sends line queue flight due⟩

/-- The island marked by the commit of the initialisation, its MOVE still to be submitted. -/
theorem standbyAtStart_eq (i : IslandId) (p : Part) :
    ∃ f, standbyAtStart i p = submitMove i (p.island i).settings.standbyPort 0 (p.modIsland i f) := ⟨_, rfl⟩

theorem twoStandbys {p : Part} : StandbysStart p (standbyAtStart .i2 (standbyAtStart .i1 p)) := by
  obtain ⟨f, first⟩ := standbyAtStart_eq .i1 p
  have one := commitAsked_island 0 .i1 .standby (p.leadField .i1) .island p
  have two := commitAsked_island_ne (i := .i1) (j := .i2) (by decide) 0 .standby (p.leadField .i1) .island p
  have ref : (standbyAtStart .i1 p).ref = p.ref :=
    (standbyAtStart_frame .i1 p .ref (by simp [Block.committing, Block.linking, Block.posting])).symm
  change (standbyAtStart .i1 p).island .i1 = _ at one
  change (standbyAtStart .i1 p).island .i2 = _ at two
  generalize standbyAtStart .i1 p = b at first one two ref
  obtain ⟨g, second⟩ := standbyAtStart_eq .i2 b
  have one' := commitAsked_island_ne (i := .i2) (j := .i1) (by decide) 0 .standby (b.leadField .i2) .island b
  have two' := commitAsked_island 0 .i2 .standby (b.leadField .i2) .island b
  change (standbyAtStart .i2 b).island .i1 = _ at one'
  change (standbyAtStart .i2 b).island .i2 = _ at two'
  generalize standbyAtStart .i2 b = c at second one' two'
  rw [two] at second
  have links : (p.modIsland .i1 f).link = p.link ∧ (b.modIsland .i2 g).link = b.link := ⟨rfl, rfl⟩
  generalize mark : p.modIsland .i1 f = p' at first links
  generalize b.modIsland .i2 g = b' at second links
  obtain ⟨link, link'⟩ := links
  refine ⟨fun i => ?_, fun i => ?_, fun sound i lacks => ?_, fun line queue flight due => ?_⟩
  · cases i with
    | i1 => exact one'.trans one
    | i2 =>
      rw [two', two, Part.leadField, Part.leadField, ref, two]
      simp only [Part.portOf, two]
  · cases i with
    | i1 =>
      rw [second]
      refine submitMove_fast_ne (by decide) _ _ ?_
      rw [link', first]
      exact submitMove_fast ..
    | i2 =>
      rw [second]
      exact submitMove_fast ..
  · rw [← link] at sound lacks
    have sound' : b'.link.sound = true := by
      rw [link', first]
      exact submitMove_sound .i1 _ _ sound
    rw [second]
    cases i with
    | i1 =>
      refine submitMove_keepsMove _ _ sound' ?_ rfl nofun
      rw [link', first]
      exact submitMove_joins sound lacks
    | i2 =>
      refine submitMove_joins sound' ?_
      rw [link', first]
      exact submitMove_lacks (by decide) _ _ lacks
  · rw [← link] at line queue flight due
    have begun : b'.link = p'.sends .i1 (p.island .i1).settings.standbyPort 0 := by
      rw [link', first, submitMove_idle line flight queue due, reportLate_link]
    have waits := submitMove_busy (i := .i2) (port := (p.island .i2).settings.standbyPort) (asked := 0) (p := b')
      (by rw [begun]; rfl) (by rw [begun]; rfl) (fun j => by rw [begun]; exact Part.asking_due due)
    rw [second, waits]
    show b'.link.line = _ ∧ b'.link.flight.map (·.entry) = _ ∧ _ = [p.firstMove .i2]
    rw [begun]
    exact ⟨rfl, rfl, rfl⟩

/-- The first standby commit begins late where the field count has passed 0 (R125). -/
theorem standbyAtStart_late {p : Part} (pending : Pending [] p) (room : p.evt.queue.length < Config.maxEvents) (line : p.link.line = .idle)
    (queue : p.link.queue = []) (flight : p.link.flight = none) (due : ∀ i, (p.link.stations.get i).due = false)
    (passed : Stamp.after p.ref.count 0 = true) : Pending [⟨.island .i1, p.ref.count, .moveLate (p.island .i1).settings.address
      (p.island .i1).settings.standbyPort 0 p.ref.count (Stamp.diff p.ref.count 0)⟩] (standbyAtStart .i1 p) := by
  obtain ⟨f, is, kept⟩ : ∃ f, standbyAtStart .i1 p = submitMove .i1 (p.island .i1).settings.standbyPort 0 (p.modIsland .i1 f) ∧
      ∀ x, (f x).settings = x.settings := ⟨_, rfl, fun _ => rfl⟩
  have address : ((p.modIsland .i1 f).island .i1).settings = (p.island .i1).settings := by rw [modIsland_island, kept]
  have same : (p.modIsland .i1 f).link = p.link ∧ (p.modIsland .i1 f).ref = p.ref ∧ (p.modIsland .i1 f).evt = p.evt ∧
    (p.modIsland .i1 f).bus = p.bus := ⟨rfl, rfl, rfl, rfl⟩
  generalize p.modIsland .i1 f = b at is same address
  obtain ⟨link, ref, evt, bus⟩ := same
  rw [← link] at line queue flight due
  rw [is, submitMove_idle line flight queue due, address]
  have late : reportLate ⟨.i1, .move (p.island .i1).settings.standbyPort 0⟩ (p.island .i1).settings.address
      { b with link := b.sends .i1 (p.island .i1).settings.standbyPort 0 } = _ := if_pos (by rw [ref]; exact passed)
  rw [late, post_of_still (by rw [evt, bus]; exact pending.still) (by rw [evt]; exact room)]
  exact ⟨by rw [evt, bus]; exact pending.still, by rw [ref]; exact List.sublist_append_right _ _⟩

theorem standsBy_frame (p : Part) : ChangesOnly (.init :: .island .i2 :: Block.committing .i1) p p.standsBy :=
  ((told_frame p).mono (by simp [Block.committing, Block.linking, Block.posting])).trans
    (((standbyAtStart_frame .i1 _).mono fun _ m => by simp [m]).trans
      ((standbyAtStart_frame .i2 _).mono (by simp [Block.committing, Block.linking, Block.posting])))

theorem endInit_frame (p : Part) : ChangesOnly (.init :: .rings :: .island .i2 :: Block.committing .i1) p (endInit p) := by
  have frame := (standsBy_frame p).mono (t := .init :: .rings :: .island .i2 :: Block.committing .i1) (by simp)
  rw [endInit_eq]
  exact .ite frame (frame.trans ((fetchEntry_does _).2.2.2.mono (by simp [Block.committing, Block.linking, Block.posting])))

theorem endInit_standbys (p : Part) : StandbysStart p (endInit p) := by
  have same := told_frame p
  have link : p.told.link = p.link := (same .link (by simp [Block.posting])).symm
  have island : ∀ i, p.told.island i = p.island i := fun i => (same (.island i) (by simp [Block.posting])).symm
  have ref : p.told.ref = p.ref := (same .ref (by simp [Block.posting])).symm
  obtain ⟨islands, fast, moves, sends⟩ : StandbysStart p.told p.standsBy := twoStandbys
  have standbys : StandbysStart p p.standsBy := by
    refine ⟨fun i => ?_, fast, fun sound i lacks => ?_, fun line queue flight due => ?_⟩
    · rw [islands, Part.leadField, Part.leadField, ref, island]
    · rw [Part.firstMove, ← island]
      exact moves (link ▸ sound) i (link ▸ lacks)
    · rw [Part.firstMove, Part.firstMove, ← island, ← island]
      exact sends (link ▸ line) (link ▸ queue) (link ▸ flight) (link ▸ due)
  rw [endInit_eq]
  split
  · exact standbys
  · have frame := (fetchEntry_does p.standsBy).2.2.2
    exact standbys.mono (frame .link (by simp)).symm fun i => (frame (.island i) (by simp)).symm

/-- MOVE_LATE of the first standby commit waits behind STARTED, or behind the event that is written (R125, R131). -/
theorem endInit_late {p : Part} (idle : p.evt.writing = false) (none : p.evt.queue = []) (line : p.link.line = .idle)
    (queue : p.link.queue = []) (flight : p.link.flight = .none) (due : ∀ i, (p.link.stations.get i).due = false)
    (passed : Stamp.after p.ref.count 0 = true) : Pending [⟨.island .i1, p.ref.count, .moveLate (p.island .i1).settings.address
      (p.island .i1).settings.standbyPort 0 p.ref.count (Stamp.diff p.ref.count 0)⟩] (endInit p) := by
  obtain ⟨pending, few, -⟩ := told_of_empty none idle
  have same := told_frame p
  have link : p.told.link = p.link := (same .link (by simp [Block.posting])).symm
  have island : p.told.island .i1 = p.island .i1 := (same (.island .i1) (by simp [Block.posting])).symm
  have ref : p.told.ref = p.ref := (same .ref (by simp [Block.posting])).symm
  have late := standbyAtStart_late pending (Nat.lt_of_le_of_lt few (by decide)) (link ▸ line) (link ▸ queue) (link ▸ flight)
    (link ▸ due) (ref ▸ passed)
  rw [ref, island] at late
  have both : Pending _ p.standsBy := standbyAtStart_pending .i2 late
  rw [endInit_eq]
  generalize p.standsBy = b at both
  have units := (fetchEntry_does b).2.2.1
  split
  · exact both
  · exact Pending.units (p := { b with cmd := { b.cmd with fetch := .fetching } }) ⟨both.still, both.told⟩ units

theorem passed_zero {c : Stamp} (positive : 0 < c.toNat) (below : c.toNat < 2 ^ 31) :
    Stamp.after c 0 = true ∧ Stamp.diff c 0 = c.toNat := by
  have same : c - 0 = c := BitVec.sub_zero c
  rw [Stamp.after, Stamp.diff, same]
  refine ⟨by simpa using ⟨positive, below⟩, ?_⟩
  rw [BitVec.toInt_eq_toNat_of_lt (by omega)]

/-- Every clause of what has begun, whatever alarm is raised and whatever the port does afterwards. -/
structure Starts (p q : Part) : Prop where
  units : UnitsStart p q
  standbys : StandbysStart p q
  late : p.link.line = .idle → p.link.queue = [] → p.link.flight = none → (∀ i, (p.link.stations.get i).due = false) →
    p.evt.queue = [] → 0 < p.ref.count.toNat → p.ref.count.toNat < 2 ^ 31 → q.tells (.island .i1)
      [.moveLate (p.island .i1).settings.address (p.island .i1).settings.standbyPort 0 p.ref.count p.ref.count.toNat]

theorem starts_of {p q : Part} (idle : p.evt.writing = false) (posted : Posted (endInit p) q)
    (frame : ChangesOnly Block.alarming (endInit p) q) (pending : ∀ es, Pending es (endInit p) → Pending es q) : Starts p q := by
  refine ⟨(endInit_units idle).posted posted, (endInit_standbys p).mono (frame .link (by decide)).symm
    fun i => (frame (.island i) (by simp [Block.alarming, Block.posting])).symm, fun line queue flight due none positive below => ?_⟩
  obtain ⟨passed, is⟩ := passed_zero positive below
  have late := pending _ (endInit_late idle none line queue flight due passed)
  have ref : q.ref = p.ref := ((frame .ref (by decide)).symm.trans (endInit_frame p .ref (by simp [Block.committing, Block.linking, Block.posting])).symm)
  rw [is] at late
  have told := late.told
  rw [← ref] at told
  rw [← ref]
  exact told

/-- The second index write of the initialisation ends, by an acknowledge or by a memory error (R172, R174). -/
theorem secondWrite_ends {p : Part} {j : Job} (jobs : p.agent.jobs = [j]) (first : p.agent.done = 0) (kind : j.kind = .producerWrite)
    (one : j.words = 1) (init : p.init = .writing true false) (idle : p.evt.writing = false) (data : Word) :
    (∃ q, endWord (.ack data) p = q ∧ Starts (dropJob p) q ∧
      ChangesOnly (.init :: .rings :: .island .i2 :: Block.committing .i1) p q) ∧
    ∃ q, endWord .error p = q ∧ Starts (dropJob p) q ∧ q.alarms.shows .device .memoryFault = true ∧
      ChangesOnly (.init :: .rings :: .island .i2 :: Block.guarding .i1) p q := by
  obtain ⟨⟨l, -, acked⟩, failed⟩ := endWord_single jobs first one data
  have at_ : (dropJob p).init = .writing true false := init
  rw [kind, report_producer_early at_, endInitWrite_both] at acked failed
  have ends := ((dropJob_frame p).mono (t := .init :: .rings :: .island .i2 :: Block.committing .i1)
    (by simp [Block.committing, Block.linking, Block.posting])).trans (endInit_frame (dropJob p))
  have arbitrated : ∀ r, ChangesOnly Block.alarming r (arbitrate r) := fun r =>
    (arbitrate_frame r).mono (by simp [Block.alarming, Block.posting])
  refine ⟨⟨_, acked, ?_, ?_⟩, ⟨_, failed, ?_, ?_, ?_⟩⟩
  · exact starts_of idle (arbitrate_posted _) (arbitrated _) fun es a => a.units (arbitrate_leaves _).1
  · exact ends.trans ((arbitrate_frame _).mono (by simp [Block.committing, Block.linking, Block.posting]))
  · exact starts_of idle ((raiseAlarm_posts (posted_posts _) _ _ _ _ (.refl _)).trans (arbitrate_posted _))
      ((raiseAlarm_frame _ _ _ _ _).trans (arbitrated _))
      fun es a => (raiseAlarm_posts (pending_posts es) _ _ _ _ a).units (arbitrate_leaves _).1
  · rw [← (arbitrate_frame _ .alarms (by simp) : _ = (arbitrate _).alarms)]
    exact raiseAlarm_alarms ..
  · exact (ends.mono fun _ m => by simp only [Block.guarding, List.mem_cons] at m ⊢; tauto).trans (((raiseAlarm_frame _ _ _ _ _).mono
      fun _ m => by simp only [Block.guarding, Block.alarming, Block.committing, Block.linking, List.mem_cons] at m ⊢; tauto).trans
      ((arbitrate_frame _).mono (by simp [Block.guarding, Block.committing, Block.linking, Block.posting])))

theorem firstWrite_ends {p : Part} {j : Job} {rest : List Job} (jobs : p.agent.jobs = j :: rest) (first : p.agent.done = 0)
    (kind : j.kind = .consumerWrite) (one : j.words = 1) (init : p.init = .writing false false) (data : Word) :
    (∃ q, endWord (.ack data) p = q ∧ q.init = .writing true false ∧ q.agent.jobs = rest ∧
      ChangesOnly [.init, .agent, .port] p q) ∧
    ∃ q, endWord .error p = q ∧ q.alarms.shows .device .memoryFault = true ∧ q.init = .writing true false ∧ q.agent.jobs = rest ∧
      ChangesOnly (.init :: Block.alarming) p q := by
  obtain ⟨⟨l, -, acked⟩, failed⟩ := endWord_single jobs first one data
  have at_ : (dropJob p).init = .writing false false := init
  rw [kind, report_consumer_early at_, endInitWrite_first] at acked failed
  have left := dropJob_jobs jobs
  have ends : ChangesOnly [.init, .agent, .port] p { dropJob p with init := .writing true false } := by
    refine ((dropJob_frame p).mono (by simp)).trans ?_
    intro b m
    cases b <;> simp_all [Block.same, Part.head, Part.island]
  refine ⟨⟨_, acked, ?_, ?_, ?_⟩, ⟨_, failed, ?_, ?_, ?_, ?_⟩⟩
  · exact (arbitrate_leaves _).1.init
  · exact (arbitrate_leaves _).2.trans left
  · exact ends.trans ((arbitrate_frame _).mono (by simp))
  · rw [← (arbitrate_frame _ .alarms (by simp) : _ = (arbitrate _).alarms)]
    exact raiseAlarm_alarms ..
  · exact (arbitrate_leaves _).1.init.trans (raiseAlarm_still (by exact nofun) _ _ _ _).1
  · exact (arbitrate_leaves _).2.trans ((congrArg Agent.jobs (raiseAlarm_still (by exact nofun) _ _ _ _).2.2.1).trans left)
  · exact (ends.mono (by simp [Block.alarming, Block.posting])).trans (((raiseAlarm_frame _ _ _ _ _).mono (by simp)).trans
      ((arbitrate_frame _).mono (by simp [Block.alarming, Block.posting])))

/-- The rings before their initialisation is done. -/
theorem rings_early {p : Part} (sound : p.ringsSound = true) {n : Init} (init : p.init = n) (early : n ≠ .done) :
    p.agent.jobs.map (·.kind) = n.kinds ∧ p.evt.writing = false ∧
    (n ≠ .waiting → p.cmd.consumer ≤ 65535 ∧ p.bus.ringSize .event ≤ 65535) := by
  obtain ⟨m, busy, a, -⟩ := ringsRules_iff.2 sound
  obtain rfl : m = n := a.init.symm.trans init
  obtain ⟨kinds, writing, -⟩ := a.early early
  refine ⟨kinds, writing, fun waits => ?_⟩
  obtain ⟨command, event, consumer, -⟩ := a.sizes waits
  exact ⟨Nat.le_trans (Nat.le_of_lt consumer) command, event⟩

theorem Job.words_read {j : Job} (a : j.reads = 1 ∧ j.data = []) : j.words = 1 := by
  rw [Job.words, a.2]
  exact a.1

theorem Job.words_write {j : Job} (a : j.data.length = 1) : j.words = 1 := by
  rw [Job.words]
  cases data : j.data with
  | nil => rw [data] at a; cases a
  | cons d l => rwa [data] at a

theorem jobs_single {l : List Job} {k : JobKind} (kinds : l.map (·.kind) = [k]) : ∃ j, l = [j] ∧ j.kind = k := by
  obtain ⟨j, is, kind⟩ := List.map_eq_singleton_iff.1 kinds
  exact ⟨j, is, kind⟩

/-- Settles O53: the jobs at each stage of the initialisation, and what the report of each does. -/
theorem ringsAreInitialised : Obligations.RingsAreInitialised := by
  intro s dt data running sound a b cmd error value judged readsOn writesOn starts onPort first got
  have lapse : ∀ {t : List Block} {q : Part} (x : Timebase), ChangesOnly t { s.part with time := x } q → ChangesOnly (.time :: t) s.part q :=
    fun x c => (timed_changes s.part x (by simp)).trans (c.mono (List.subset_cons_self ..))
  refine ⟨fun init reads => ?_, fun init reads => ?_, fun init writes => ?_, fun init writes => ?_⟩
  · obtain ⟨kinds, -, -⟩ := rings_early sound init (by exact nofun)
    obtain ⟨j, jobs, kind⟩ := jobs_single kinds
    have read := reads j (show j ∈ s.part.agent.jobs by rw [jobs]; exact List.mem_singleton_self j)
    have ends := fun x => startCommand_ends (p := { s.part with time := x }) jobs first got kind (Job.words_read read) read.2 init data
    refine ⟨.of_wordEnd running onPort fun x => ?_, .of_wordEnd running onPort fun x => ?_⟩
    · obtain ⟨⟨q, is, on, judged, frame⟩, -⟩ := ends x
      rw [is]
      exact ⟨on, ⟨judged.good, judged.bad⟩, lapse x frame⟩
    · obtain ⟨-, q, is, on, shows, frame⟩ := ends x
      rw [is]
      exact ⟨shows, on, lapse x frame⟩
  · obtain ⟨kinds, -, small⟩ := rings_early sound init (by exact nofun)
    obtain ⟨consumer, size⟩ := small (by exact nofun)
    obtain ⟨j, jobs, kind⟩ := jobs_single kinds
    have read := reads j (show j ∈ s.part.agent.jobs by rw [jobs]; exact List.mem_singleton_self j)
    have ends := fun x => startEvent_ends (p := { s.part with time := x }) jobs first got kind (Job.words_read read) read.2 init
      consumer size data
    refine ⟨.of_wordEnd running onPort fun x => ?_, .of_wordEnd running onPort fun x => ?_⟩
    · obtain ⟨⟨q, is, on, judged, frame⟩, -⟩ := ends x
      rw [is]
      exact ⟨on, ⟨judged.good, judged.bad⟩, lapse x frame⟩
    · obtain ⟨-, q, is, on, shows, frame⟩ := ends x
      rw [is]
      exact ⟨shows, on, lapse x frame⟩
  · obtain ⟨kinds, -, -⟩ := rings_early sound init (by exact nofun)
    obtain ⟨j, rest, jobs, kind, -⟩ := List.map_eq_cons_iff.1 kinds
    have write := writes j (show j ∈ s.part.agent.jobs by rw [jobs]; exact List.mem_cons_self ..)
    have left : a.jobs.tail = rest := by
      show s.part.agent.jobs.tail = rest
      rw [jobs]
      rfl
    have ends := fun x => firstWrite_ends (p := { s.part with time := x }) jobs first kind (Job.words_write write) init data
    refine ⟨.of_wordEnd running onPort fun x => ?_, .of_wordEnd running onPort fun x => ?_⟩
    · obtain ⟨⟨q, is, next, jobs', frame⟩, -⟩ := ends x
      rw [is]
      exact ⟨next, jobs'.trans left.symm, lapse x frame⟩
    · obtain ⟨-, q, is, shows, next, jobs', frame⟩ := ends x
      rw [is]
      exact ⟨shows, next, jobs'.trans left.symm, lapse x frame⟩
  · obtain ⟨kinds, idle, -⟩ := rings_early sound init (by exact nofun)
    obtain ⟨j, jobs, kind⟩ := jobs_single kinds
    have write := writes j (show j ∈ s.part.agent.jobs by rw [jobs]; exact List.mem_singleton_self j)
    have ends := fun x => secondWrite_ends (p := { s.part with time := x }) jobs first kind (Job.words_write write) init idle data
    have begun : ∀ x q, Starts (dropJob { s.part with time := x }) q → starts q := by
      rintro x q ⟨units, standbys, late⟩
      refine ⟨units.init, units.attention, units.consumer, fun none room => ⟨_, units.told none (decide_eq_true room), rfl⟩,
        units.rests, fun differ => ⟨(units.fetches differ).1, _, (units.fetches differ).2, rfl⟩, standbys.islands, standbys.fast,
        standbys.moves, fun line queue flight due => ?_⟩
      obtain ⟨sending, flies, waits⟩ := standbys.sends line queue flight due
      exact ⟨sending, flies, waits, late line queue flight due⟩
    refine ⟨.of_wordEnd running onPort fun x => ?_, .of_wordEnd running onPort fun x => ?_⟩
    · obtain ⟨⟨q, is, begun', frame⟩, -⟩ := ends x
      rw [is]
      exact ⟨begun x q begun', lapse x frame⟩
    · obtain ⟨-, q, is, begun', shows, frame⟩ := ends x
      rw [is]
      exact ⟨shows, begun x q begun', lapse x frame⟩

end Sys2Proof.Machine
end

section
/-! PROOFS. Processor cycles and index writes (R164, R166, R171): which window an address lies in, what becomes of a cycle at a port, and a whole index write. -/

namespace Sys2Proof.Machine

/-! ### Windows -/

theorem Window.covers_iff {w : Window} {a : Addr} : w.covers a = true ↔ w.base ≤ a.toNat ∧ a.toNat < w.base + 2 ^ w.log2 := by
  simp [covers]

theorem treat_outside {p : Part} {a : Addr} (write : Bool)
    (out : p.mode ≠ .running ∨ ∀ v ∈ p.bus.windows, ¬ (v.base ≤ a.toNat ∧ a.toNat < v.base + 2 ^ v.log2)) : p.treat a write = .pass := by
  have none : p.windowAt a = none := by
    unfold Part.windowAt Part.running
    obtain still | apart := out
    · rw [if_neg (by simpa using still)]
    · split
      · exact List.find?_eq_none.2 fun v m c => apart v m (Window.covers_iff.1 c)
      · rfl
  rw [Part.treat, none]

theorem treat_inside {p : Part} {a : Addr} {v : Window} (running : p.mode = .running) (m : v ∈ p.bus.windows) (covers : v.covers a = true)
    (alone : ∀ u ∈ p.bus.windows, u.covers a = true → u = v) (write : Bool) : p.treat a write = v.treat a write := by
  have found : p.windowAt a = some v := by
    rw [Part.windowAt, Part.running, if_pos (by simpa using running)]
    cases f : p.bus.windows.find? fun w => w.covers a with
    | none => exact absurd covers (by simpa using List.find?_eq_none.1 f v m)
    | some u =>
      rw [alone u (List.mem_of_find?_eq_some f) (by simpa using List.find?_some f)]
  rw [Part.treat, found]

/-- The word of a window an address lies in, by its even offset. -/
theorem Window.wordAt_iff (v : Window) (a : Addr) (n : Nat) : v.wordAt a = n ↔ (a.toNat - v.base) / 2 * 2 = 2 * n := by
  unfold wordAt
  omega

/-! ### The port handed on -/

section
variable {p : Part} {c : BusCycle}

theorem arbitrate_held (held : p.bus.holder ≠ .free) : arbitrate p = p := by
  unfold arbitrate
  split
  · rename_i free
    exact absurd free held
  · rfl
  · rfl

theorem arbitrate_rests (idle : p.agent.word = .idle) (none : p.bus.waiting = none) : arbitrate p = p := by
  unfold arbitrate
  split
  · rw [idle, none]
  · rfl
  · rfl

/-- The waiting cycle takes a free port, unless the agent's word is starved. -/
theorem arbitrate_cycle (free : p.bus.holder = .free) (waits : p.bus.waiting = some c)
    (mild : p.agent.starved = false ∨ p.agent.word = .idle) (off : p.agent.onPort = false) :
    arbitrate p = { p with bus := { p.bus with holder := .processor c, waiting := none } } := by
  unfold arbitrate
  rw [free, waits]
  cases word : p.agent.word with
  | idle => rfl
  | ready t => rw [mild.resolve_right (by simp [word])]
  | active t => simp [Agent.onPort, word] at off

theorem arbitrate_starved {t : Nat} (free : p.bus.holder = .free) (ready : p.agent.word = .ready t) (starved : p.agent.starved = true) :
    arbitrate p = { p with bus := { p.bus with holder := .agent }, agent := { p.agent with word := .active p.time.now } } := by
  unfold arbitrate
  rw [free, ready, starved]

theorem arbitrate_word {t : Nat} (free : p.bus.holder = .free) (ready : p.agent.word = .ready t) (none : p.bus.waiting = none) :
    arbitrate p = { p with bus := { p.bus with holder := .agent }, agent := { p.agent with word := .active p.time.now } } := by
  unfold arbitrate
  rw [free, ready, none]
  cases p.agent.starved <;> rfl

end

theorem portSound_iff {p : Part} : p.portSound = true ↔ PortAt true p := by
  unfold Part.portSound
  simp only [Bool.and_eq_true, Bool.or_eq_true, decide_eq_true_eq, Option.isNone_iff_eq_none]
  exact ⟨fun ⟨⟨port, word⟩, free⟩ => ⟨port, word, fun _ is => free.resolve_left fun n => n is⟩,
    fun a => ⟨⟨a.port, a.word⟩, (em (p.bus.holder = .free)).symm.imp id (a.handed rfl)⟩⟩

/-! ### Cycles at the port -/

theorem Completes.of_begins {s : State} {dt : Nat} {c : BusCycle} {P : Part → Prop}
    (a : ∀ t, P (beginCycle c { s.part with time := t })) : Completes (.processorCycle dt (.begins c)) s P := by
  refine ⟨_, rfl, ?_⟩
  show P (beginCycle c (elapse dt s.part))
  rw [elapse_eq]
  exact a _

theorem Completes.of_ends {s : State} {dt : Nat} {ack : Bool} {P : Part → Prop}
    (a : ∀ t, t.now = s.part.time.now + dt → P (endCycle ack { s.part with time := t })) : Completes (.processorCycle dt (.ends ack)) s P := by
  refine ⟨_, rfl, ?_⟩
  show P (endCycle ack (elapse dt s.part))
  rw [elapse_eq]
  exact a _ (elapse_now dt s.part)

theorem beginCycle_pass {p : Part} {c : BusCycle} (pass : p.treat c.addr c.write = .pass) : beginCycle c p = wantPort c p := by
  rw [beginCycle, pass]

theorem wantPort_free {p : Part} {c : BusCycle} (sound : PortAt true p) (none : p.bus.waiting = none) (free : p.bus.holder = .free) :
    wantPort c p = { p with bus := { p.bus with holder := .processor c } } := by
  obtain ⟨idle, -⟩ := sound.handed rfl free
  have takes := arbitrate_cycle (p := { p with bus := { p.bus with waiting := some c } }) (c := c) free rfl (.inr idle)
    (by simp [Agent.onPort, idle])
  rw [wantPort, none, if_neg (by simp), takes, ← none]

theorem wantPort_held {p : Part} {c : BusCycle} (none : p.bus.waiting = none) (held : p.bus.holder ≠ .free) :
    wantPort c p = { p with bus := { p.bus with waiting := some c } } := by
  rw [wantPort, none, if_neg (by simp)]
  exact arbitrate_held (p := { p with bus := { p.bus with waiting := some c } }) held

theorem snoop_pass {p : Part} {c : BusCycle} (ack : Bool) (pass : p.treat c.addr c.write = .pass) : snoop c ack p = p := by
  rw [snoop, pass]

/-- A cycle that passes ends: the port is free, and is handed on. -/
theorem endCycle_pass {p : Part} {c : BusCycle} (ack : Bool) (held : p.bus.holder = .processor c) (pass : p.treat c.addr c.write = .pass) :
    endCycle ack p = arbitrate { p with bus := { p.bus with holder := .free } } := by
  rw [endCycle, held]
  exact congrArg arbitrate (snoop_pass (p := { p with bus := { p.bus with holder := .free } }) ack pass)

theorem bus_port {p : Part} {h : Holder} {w : Option BusCycle} : ChangesOnly [.port] p { p with bus := { p.bus with holder := h, waiting := w } } := by
  intro b m
  cases b <;> simp_all [Block.same, Part.head, Part.island]

theorem bus_agent {p : Part} {h : Holder} {a : Agent} :
    ChangesOnly [.port, .agent] p { p with bus := { p.bus with holder := h }, agent := a } := by
  intro b m
  cases b <;> simp_all [Block.same, Part.head, Part.island]

/-! ### A whole index write -/

/-- A snooped write that finds the port free is judged as it ends (R166). -/
theorem wholeCycle_snooped {p : Part} {c : BusCycle} {k : WindowKind} (sound : PortAt true p) (free : p.bus.holder = .free)
    (snooped : p.treat c.addr c.write = .snooped k) (ack : Bool) : wholeCycle c ack p = arbitrate (snoop c ack p) := by
  obtain ⟨-, none⟩ := sound.handed rfl free
  have begins : beginCycle c p = { p with bus := { p.bus with holder := .processor c } } := by
    rw [beginCycle, snooped]
    exact wantPort_free sound none free
  have back : ({ p with bus := { p.bus with holder := .free } } : Part) = p := by
    rw [← free]
  rw [wholeCycle, none, free]
  show endCycle ack (beginCycle c p) = _
  rw [begins, endCycle]
  show arbitrate (snoop c ack { p with bus := { p.bus with holder := .free } }) = _
  rw [back]

section
variable {p : Part} {c : BusCycle} {k : WindowKind} (snooped : p.treat c.addr c.write = .snooped k)
include snooped

theorem snoop_error : snoop c false p = p := by
  rw [snoop, snooped]
  rfl

theorem snoop_good (good : c.low = true ∧ c.high = true ∧ c.data.toNat < p.bus.ringSize k) :
    snoop c true p = handOn k c.data.toNat p := by
  rw [snoop, snooped]
  simp [good.1, good.2.1, good.2.2]

theorem snoop_bad (bad : ¬ (c.low = true ∧ c.high = true ∧ c.data.toNat < p.bus.ringSize k)) :
    snoop c true p = violate c.addr k .badIndex p := by
  rw [snoop, snooped]
  simp only [not_true_eq_false, if_false]
  exact if_neg fun h => bad (by simpa [and_assoc] using h)

end

theorem pumpEvents_lost (p : Part) : (pumpEvents p).evt.lost = p.evt.lost := by
  unfold pumpEvents
  split
  · rfl
  · split
    · rw [(submit_leaves _ _).1.evt]
    · rfl

/-- A whole index write, taken at once (log entry 13). -/
theorem Completes.of_indexWrite {s : State} {dt : Nat} {c : Instr} {k : WindowKind} {n : Nat} {data : Word} {low high ack : Bool} {P : Part → Prop}
    (is : exec c s = onPart (event dt fun p => wholeCycle (indexWrite p.bus k n data low high) ack p) s) (running : s.part.mode = .running)
    (sound : PortAt true s.part) (free : s.part.bus.holder = .free) (snooped : s.part.treat (indexWord s.part.bus k n) true = .snooped k)
    (a : ∀ t, P (arbitrate (snoop (indexWrite s.part.bus k n data low high) ack { s.part with time := t }))) : Completes c s P := by
  refine .of_event is running ?_
  have bus : (elapse dt s.part).bus = s.part.bus := elapse_bus ..
  rw [bus, elapse_eq]
  have ends := wholeCycle_snooped (p := { s.part with time := (elapse dt s.part).time }) (c := indexWrite s.part.bus k n data low high) (k := k)
    ⟨sound.port, sound.word, sound.handed⟩ free snooped ack
  rw [ends]
  exact a _

theorem cmd_rings (p : Part) (n : Nat) : ChangesOnly [.rings] p { p with cmd := { p.cmd with producer := n } } := by
  intro b m
  cases b <;> simp_all [Block.same, Part.head, Part.island]

/-- A producer value handed on (R166, R176). -/
theorem takeProducer_does {p : Part} (v : Nat) (sound : PortAt true p) (free : p.bus.holder = .free) :
    let q := arbitrate (takeProducer v p)
    let wakes := p.init = .done ∧ p.cmd.fetch = .idle ∧ v ≠ p.cmd.consumer
    q.cmd.producer = v ∧ q.cmd.consumer = p.cmd.consumer ∧ q.cmd.status = p.cmd.status ∧
    (wakes → q.cmd.fetch = .fetching ∧ q.agent.jobs = p.agent.jobs ++
      [{ kind := .commandFetch, reads := 15, data := [], addr := commandEntry p.bus p.cmd.consumer }]) ∧
    (¬ wakes → q.cmd.fetch = p.cmd.fetch ∧ ChangesOnly [.rings] p q) ∧ ChangesOnly [.rings, .agent, .port] p q := by
  intro q wakes
  obtain ⟨idle, none⟩ := sound.handed rfl free
  have seen := cmd_rings p v
  generalize is : ({ p with cmd := { p.cmd with producer := v } } : Part) = r at seen
  have does : takeProducer v p = if wakes then fetchEntry r else r := by
    rw [takeProducer, is, ← is]
  have cmd : r.cmd = { p.cmd with producer := v } := is ▸ rfl
  by_cases w : wakes
  · obtain ⟨cmd', jobs, -, frame⟩ := fetchEntry_does r
    have units := (arbitrate_leaves (fetchEntry r)).1
    have jobs' := (arbitrate_leaves (fetchEntry r)).2
    have q_is : q = arbitrate (fetchEntry r) := by rw [← if_pos w (t := fetchEntry r) (e := r), ← does]
    rw [q_is]
    refine ⟨?_, ?_, ?_, fun _ => ⟨?_, ?_⟩, fun n => absurd w n, ?_⟩
    · rw [units.cmd, cmd', cmd]
    · rw [units.cmd, cmd', cmd]
    · rw [units.cmd, cmd', cmd]
    · rw [units.cmd, cmd']
    · rw [jobs', jobs, cmd]
      rw [← is]
    · exact (seen.mono (by simp)).trans (frame.trans ((arbitrate_frame _).mono (by simp)))
  · have q_is : q = r := by
      have rests : arbitrate r = r := arbitrate_rests (is ▸ idle) (is ▸ none)
      show arbitrate (takeProducer v p) = r
      rw [does, if_neg w, rests]
    rw [q_is, cmd]
    exact ⟨rfl, rfl, rfl, fun h => absurd h w, fun _ => ⟨rfl, seen⟩, seen.mono (by simp)⟩

/-- A consumer value handed on (R182, R183). -/
theorem takeConsumer_does (v : Nat) (p : Part) :
    let q := arbitrate (takeConsumer v p)
    q.evt.consumer = v ∧ q.evt.producer = p.evt.producer ∧ q.evt.lost = p.evt.lost ∧
    (p.init = .done → q.evt.attention = decide (p.evt.producer ≠ v)) ∧ ChangesOnly Block.posting p q := by
  intro q
  generalize set : (if p.init = .done then ({ p.evt with consumer := v } : EventUnit).judged else { p.evt with consumer := v }) = e
  have does : q = arbitrate (pumpEvents { p with evt := e }) := by rw [← set]; rfl
  have posted := (pumpEvents_posted { p with evt := e }).trans (arbitrate_posted _)
  have lost := pumpEvents_lost { p with evt := e }
  have same := (arbitrate_leaves (pumpEvents { p with evt := e })).1
  rw [does]
  refine ⟨posted.consumer.trans ?_, posted.producer.trans ?_, (congrArg EventUnit.lost same.evt).trans (lost.trans ?_), fun done => posted.attention.trans ?_, ?_⟩
  · show e.consumer = v
    rw [← set]
    split <;> rfl
  · show e.producer = p.evt.producer
    rw [← set]
    split <;> rfl
  · show e.lost = p.evt.lost
    rw [← set]
    split <;> rfl
  · show e.attention = _
    rw [← set, if_pos done]
    rfl
  · exact ((setEvents_frame e p).mono (by simp [Block.posting])).trans ((pumpEvents_frame _).trans ((arbitrate_frame _).mono (by simp [Block.posting])))

/-- A violation as the port is handed on (R167). -/
theorem violate_does {p : Part} (addr : Addr) (k : WindowKind) (v : ViolationCause) (sound : PortAt true p) (free : p.bus.holder = .free) :
    let q := arbitrate (violate addr k v p)
    (p.bus.violation = none → q.bus.violation = some ⟨addr, k, v, false⟩ ∧ q.alarms.shows .device .windowViolation = true) ∧
    (∀ x, p.bus.violation = some x → q.bus = { p.bus with violation := some { x with more := true } } ∧ ChangesOnly [.decoder] p q) ∧
    ChangesOnly (.decoder :: Block.alarming) p q := by
  intro q
  obtain ⟨idle, waits⟩ := sound.handed rfl free
  refine ⟨fun none => ?_, fun x there => ?_, (violate_frame _ _ _ _).trans ((arbitrate_frame _).mono (by simp [Block.alarming, Block.posting]))⟩
  · have raises : violate addr k v p = raiseAlarm .device .windowViolation (addr.extractLsb' 0 16) ((addr.extractLsb' 16 4).setWidth 16)
        { p with bus := { p.bus with violation := some { addr := addr, kind := k, cause := v, more := false } } } := by
      rw [violate, none]
    have frame := arbitrate_frame (violate addr k v p)
    have violation : (arbitrate (violate addr k v p)).bus.violation = (violate addr k v p).bus.violation := (frame .decoder (by simp)).2.1.symm
    have alarms : (arbitrate (violate addr k v p)).alarms = (violate addr k v p).alarms := (frame .alarms (by simp)).symm
    show (arbitrate _).bus.violation = _ ∧ (arbitrate _).alarms.shows _ _ = true
    rw [violation, alarms, raises]
    exact ⟨(raiseAlarm_frame _ _ _ _ _ .decoder (by simp [Block.alarming, Block.posting])).2.1.symm, raiseAlarm_alarms ..⟩
  · have more : violate addr k v p = { p with bus := { p.bus with violation := some { x with more := true } } } := by
      rw [violate, there]
    have is : q = { p with bus := { p.bus with violation := some { x with more := true } } } := by
      show arbitrate _ = _
      rw [more]
      exact arbitrate_rests idle waits
    rw [is]
    refine ⟨rfl, fun b m => ?_⟩
    cases b <;> simp_all [Block.same, Part.head, Part.island]

/-- Settles O50: the cases of `Part.treat`, what `arbitrate` does with the port, and a snooped write as it ends. -/
theorem cyclesAndIndexWrites : Obligations.CyclesAndIndexWrites := by
  intro s dt c data low high ack sound b
  have port := portSound_iff.1 sound
  have lapsed : ∀ x : Timebase, PortAt true { s.part with time := x } := fun x => ⟨port.port, port.word, port.handed⟩
  have lapse : ∀ {t : List Block} {q : Part} (x : Timebase), ChangesOnly t { s.part with time := x } q → ChangesOnly (.time :: t) s.part q :=
    fun x d => (timed_changes s.part x (by simp)).trans (d.mono (List.subset_cons_self ..))
  have ended : s.part.treat c.addr c.write = .pass → b.holder = .processor c → ∀ t : Timebase,
      endCycle ack { s.part with time := t } = arbitrate { s.part with time := t, bus := { s.part.bus with holder := .free } } :=
    fun pass held t => endCycle_pass (p := { s.part with time := t }) ack held pass
  have off : ∀ {x}, b.holder = .processor x → s.part.agent.onPort = false := fun held => by
    rw [port.port, show s.part.bus.holder = _ from held]
    rfl
  refine ⟨fun a write => ⟨fun out => treat_outside write out, fun v m running inside alone => ?_⟩, fun k kinds v found => ?_,
    fun pass none => ⟨fun free => .of_begins fun t => ?_, fun held => .of_begins fun t => ?_⟩,
    fun held pass d waits => ⟨fun mild => .of_ends fun t _ => ?_, fun starved since ready => .of_ends fun t now => ?_⟩,
    fun held pass idle none => .of_ends fun t _ => ?_, fun since held pass ready none => .of_ends fun t now => ?_,
    fun running free snooped => ?_, fun running free snooped => ?_⟩
  · rw [treat_inside running m (Window.covers_iff.2 inside) fun u mu cu => alone u mu (Window.covers_iff.1 cu)]
    have zero := Window.wordAt_iff v a 0
    have one := Window.wordAt_iff v a 1
    unfold Window.treat
    cases v.kind <;> cases write <;> simp [zero, one]
  · have window : b.window? k = some v := found
    have base : b.base k = v.base := by rw [Bus.base, window]; rfl
    refine ⟨?_, ?_, ?_⟩
    · rw [indexWord, base]
      rfl
    · rw [indexWord, base]
    · rw [Bus.ringSize, window]
      rfl
  · have begins := (beginCycle_pass (p := { s.part with time := t }) pass).trans (wantPort_free (lapsed t) none free)
    rw [begins]
    exact ⟨rfl, lapse t bus_port⟩
  · have begins := (beginCycle_pass (p := { s.part with time := t }) pass).trans (wantPort_held none held)
    rw [begins]
    exact ⟨rfl, lapse t bus_port⟩
  · rw [ended pass held t, arbitrate_cycle (p := { s.part with time := t, bus := { s.part.bus with holder := .free } }) (c := d) rfl waits mild (off held)]
    exact ⟨rfl, lapse t bus_port⟩
  · rw [ended pass held t, arbitrate_starved (p := { s.part with time := t, bus := { s.part.bus with holder := .free } }) rfl ready starved]
    exact ⟨rfl, by rw [← now], (lapse t bus_agent).mono (by simp)⟩
  · rw [ended pass held t, arbitrate_rests (p := { s.part with time := t, bus := { s.part.bus with holder := .free } }) idle none]
    exact ⟨rfl, lapse t bus_port⟩
  · rw [ended pass held t, arbitrate_word (p := { s.part with time := t, bus := { s.part.bus with holder := .free } }) rfl ready none]
    exact ⟨rfl, by rw [← now], (lapse t bus_agent).mono (by simp)⟩
  · intro cmd good wakes
    obtain ⟨idle, none⟩ := port.handed rfl free
    refine ⟨fun error => ?_, fun acked isGood => ?_, fun acked bad => ?_⟩
    · subst error
      refine .of_indexWrite rfl running port free snooped fun t => ?_
      rw [snoop_error (p := { s.part with time := t }) (c := indexWrite b .command 0 data low high) snooped, arbitrate_rests (p := { s.part with time := t }) idle none]
      exact timed_changes s.part t (by simp)
    · subst acked
      refine .of_indexWrite rfl running port free snooped fun t => ?_
      rw [snoop_good (p := { s.part with time := t }) (c := indexWrite b .command 0 data low high) snooped isGood]
      obtain ⟨producer, consumer, status, woken, still, frame⟩ := takeProducer_does data.toNat (lapsed t) free
      exact ⟨producer, consumer, status, woken, fun n => ⟨(still n).1, lapse t (still n).2⟩, lapse t frame⟩
    · subst acked
      refine .of_indexWrite rfl running port free snooped fun t => ?_
      rw [snoop_bad (p := { s.part with time := t }) (c := indexWrite b .command 0 data low high) snooped bad]
      obtain ⟨first, -, frame⟩ := violate_does (indexWord b .command 0) .command .badIndex (lapsed t) free
      exact ⟨first, lapse t frame⟩
  · intro cmd good
    obtain ⟨idle, none⟩ := port.handed rfl free
    refine ⟨fun error => ?_, fun acked isGood => ?_, fun acked bad => ?_⟩
    · subst error
      refine .of_indexWrite rfl running port free snooped fun t => ?_
      rw [snoop_error (p := { s.part with time := t }) (c := indexWrite b .event 1 data low high) snooped, arbitrate_rests (p := { s.part with time := t }) idle none]
      exact timed_changes s.part t (by simp)
    · subst acked
      refine .of_indexWrite rfl running port free snooped fun t => ?_
      rw [snoop_good (p := { s.part with time := t }) (c := indexWrite b .event 1 data low high) snooped isGood]
      obtain ⟨consumer, producer, lost, attention, frame⟩ := takeConsumer_does data.toNat { s.part with time := t }
      exact ⟨consumer, producer, lost, attention, lapse t frame⟩
    · subst acked
      refine .of_indexWrite rfl running port free snooped fun t => ?_
      rw [snoop_bad (p := { s.part with time := t }) (c := indexWrite b .event 1 data low high) snooped bad]
      obtain ⟨first, later, frame⟩ := violate_does (indexWord b .event 1) .event .badIndex (lapsed t) free
      exact ⟨first, fun x there => ⟨(later x there).1, lapse t (later x there).2⟩, lapse t frame⟩

end Sys2Proof.Machine
end

section
/-! PROOFS. The live layout as packed fields (R168, R188): the bits of a section, of a field in it, and the section each offset lies in. -/

namespace Sys2Proof.Machine

/-! ### Packed fields -/

/-- The bits a list of fields takes. -/
def fieldBits : List Field → Nat
  | [] => 0
  | f :: l => f.1 + fieldBits l

/-- `w` bits of packed fields from bit `b`. -/
def pick (l : List Field) (b w : Nat) : Nat := pack l / 2 ^ b % 2 ^ w

theorem limit_lt (w n : Nat) : limit w n < 2 ^ w := by
  have positive : 0 < 2 ^ w := Nat.two_pow_pos w
  rw [limit]
  omega

theorem limit_of_lt {w n : Nat} (less : n < 2 ^ w) : limit w n = n := by
  rw [limit]
  omega

theorem limit_limit (w n : Nat) : limit w (limit w n) = limit w n := limit_of_lt (limit_lt w n)

theorem fieldBits_append (a b : List Field) : fieldBits (a ++ b) = fieldBits a + fieldBits b := by
  induction a with
  | nil => simp [fieldBits]
  | cons f a ih => simp [fieldBits, ih, Nat.add_assoc]

theorem pack_append (a b : List Field) : pack (a ++ b) = pack a + 2 ^ fieldBits a * pack b := by
  induction a with
  | nil => simp [pack, fieldBits]
  | cons f a ih => rw [List.cons_append, pack, pack, fieldBits, ih, Nat.pow_add, Nat.mul_add, Nat.add_assoc, Nat.mul_assoc]

theorem pack_lt (l : List Field) : pack l < 2 ^ fieldBits l := by
  induction l with
  | nil => simp [pack, fieldBits]
  | cons f l ih =>
    have least := limit_lt f.1 f.2
    rw [pack, fieldBits, Nat.pow_add]
    calc limit f.1 f.2 + 2 ^ f.1 * pack l < 2 ^ f.1 + 2 ^ f.1 * pack l := by omega
      _ = 2 ^ f.1 * (pack l + 1) := by rw [Nat.mul_add, Nat.mul_one, Nat.add_comm]
      _ ≤ 2 ^ f.1 * 2 ^ fieldBits l := Nat.mul_le_mul_left _ ih

/-- The bits behind a list of fields. -/
theorem pick_skip (a c : List Field) (b w : Nat) : pick (a ++ c) (fieldBits a + b) w = pick c b w := by
  have whole : (pack a + 2 ^ fieldBits a * pack c) / 2 ^ fieldBits a = pack c := by
    rw [Nat.add_mul_div_left _ _ (Nat.two_pow_pos _), Nat.div_eq_of_lt (pack_lt a), Nat.zero_add]
  rw [pick, pack_append, Nat.pow_add, ← Nat.div_div_eq_div_mul, whole]
  rfl

/-- The bits inside a list of fields. -/
theorem pick_left (a c : List Field) {b w : Nat} (inside : b + w ≤ fieldBits a) : pick (a ++ c) b w = pick a b w := by
  obtain ⟨r, bits⟩ := Nat.exists_eq_add_of_le inside
  have rest : 2 ^ fieldBits a * pack c = 2 ^ b * (2 ^ w * (2 ^ r * pack c)) := by rw [bits, Nat.pow_add, Nat.pow_add]; ring
  rw [pick, pack_append, rest, Nat.add_mul_div_left _ _ (Nat.two_pow_pos _), Nat.add_mul_mod_self_left]
  rfl

theorem pick_whole {l : List Field} {w : Nat} (bits : fieldBits l = w) : pick l 0 w = pack l := by
  rw [pick, pow_zero, Nat.div_one, ← bits, Nat.mod_eq_of_lt (pack_lt l)]

theorem pick_here (f : Field) (l : List Field) : pick (f :: l) 0 f.1 = limit f.1 f.2 := by
  rw [pick, pack, pow_zero, Nat.div_one, Nat.add_mul_mod_self_left, Nat.mod_eq_of_lt (limit_lt ..)]

/-- The field that begins at a bit. -/
def fieldAt : List Field → Nat → Option Field
  | [], _ => none
  | f :: l, b => if b = 0 then some f else if f.1 ≤ b then fieldAt l (b - f.1) else none

theorem pick_field {l : List Field} {b : Nat} {f : Field} (at_ : fieldAt l b = some f) : pick l b f.1 = limit f.1 f.2 := by
  induction l generalizing b with
  | nil => cases at_
  | cons g l ih =>
    rw [fieldAt] at at_
    by_cases zero : b = 0
    · rw [if_pos zero] at at_
      cases at_
      rw [zero]
      exact pick_here ..
    · rw [if_neg zero] at at_
      by_cases behind : g.1 ≤ b
      · rw [if_pos behind] at at_
        have skip := pick_skip [g] l (b - g.1) f.1
        rw [show fieldBits [g] + (b - g.1) = b by simp only [fieldBits]; omega] at skip
        exact skip.trans (ih at_)
      · rw [if_neg behind] at at_
        cases at_

/-- The fields from a bit. -/
def fieldsFrom : List Field → Nat → Option (List Field)
  | [], _ => none
  | f :: l, b => if b = 0 then some (f :: l) else if f.1 ≤ b then fieldsFrom l (b - f.1) else none

/-- The fields from a bit show as they are packed. -/
theorem pick_fields {l : List Field} {b : Nat} {c r : List Field} (from_ : fieldsFrom l b = some (c ++ r)) :
    pick l b (fieldBits c) = pack c := by
  induction l generalizing b with
  | nil => cases from_
  | cons g l ih =>
    rw [fieldsFrom] at from_
    by_cases zero : b = 0
    · rw [if_pos zero] at from_
      rw [zero, Option.some.inj from_, pick_left _ _ (Nat.le_of_eq (Nat.zero_add _)), pick_whole rfl]
    · rw [if_neg zero] at from_
      by_cases behind : g.1 ≤ b
      · rw [if_pos behind] at from_
        have skip := pick_skip [g] l (b - g.1) (fieldBits c)
        rw [show fieldBits [g] + (b - g.1) = b by simp only [fieldBits]; omega] at skip
        exact skip.trans (ih from_)
      · rw [if_neg behind] at from_
        cases from_

theorem pick_take {l c : List Field} {b n : Nat} (from_ : (fieldsFrom l b).map (List.take n) = some c) : pick l b (fieldBits c) = pack c := by
  obtain ⟨d, is, rfl⟩ := Option.map_eq_some_iff.1 from_
  exact pick_fields (r := d.drop n) (by rw [is, List.take_append_drop])

/-- A list of fields that lies before a bit is skipped. -/
theorem fieldAt_skip {a : List Field} (positive : ∀ f ∈ a, 0 < f.1) (l : List Field) {b : Nat} (behind : fieldBits a ≤ b) :
    fieldAt (a ++ l) b = fieldAt l (b - fieldBits a) := by
  induction a generalizing b with
  | nil => rfl
  | cons f a ih =>
    have some_ := positive f (List.mem_cons_self ..)
    rw [fieldBits] at behind
    rw [List.cons_append, fieldAt, if_neg (by omega), if_pos (by omega), ih (fun g m => positive g (List.mem_cons_of_mem _ m)) (by omega),
      fieldBits, Nat.sub_sub]

theorem fieldsFrom_skip {a : List Field} (positive : ∀ f ∈ a, 0 < f.1) (l : List Field) {b : Nat} (behind : fieldBits a ≤ b) :
    fieldsFrom (a ++ l) b = fieldsFrom l (b - fieldBits a) := by
  induction a generalizing b with
  | nil => rfl
  | cons f a ih =>
    have some_ := positive f (List.mem_cons_self ..)
    rw [fieldBits] at behind
    rw [List.cons_append, fieldsFrom, if_neg (by omega), if_pos (by omega), ih (fun g m => positive g (List.mem_cons_of_mem _ m)) (by omega),
      fieldBits, Nat.sub_sub]

/-! ### Words of a section -/

theorem bits_congr {x y N a w : Nat} (same : x % 2 ^ N = y % 2 ^ N) (fits : a + w ≤ N) : x / 2 ^ a % 2 ^ w = y / 2 ^ a % 2 ^ w := by
  have low : x % 2 ^ (a + w) = y % 2 ^ (a + w) := by
    obtain ⟨r, rfl⟩ := Nat.exists_eq_add_of_le fits
    rw [← Nat.mod_mul_right_mod x _ (2 ^ r), ← Nat.mod_mul_right_mod y _ (2 ^ r), ← Nat.pow_add, same]
  rw [← Nat.mod_mul_right_div_self, ← Nat.mod_mul_right_div_self, ← Nat.pow_add, low]

/-- A section of the layout: the packed fields that the words of its bytes show. -/
def Part.shows (p : Part) (base size : Nat) (fields : List Field) : Prop :=
  base % 2 = 0 ∧ size % 2 = 0 ∧ ∀ o, base ≤ o → o < base + size → liveWord p o = wordOf fields ((o - base) / 2)

/-- Bits of the live layout that lie in one section. -/
theorem liveBits_section {p : Part} {base size : Nat} {fields : List Field} (shown : p.shows base size fields) {n k w : Nat} (from_ : base ≤ n)
    (inside : 8 * (n - base) + k + w ≤ 8 * size) (short : 8 * (n % 2) + k + w ≤ 64) (some_ : 0 < w) :
    p.liveBits n k w = pick fields (8 * (n - base) + k) w := by
  obtain ⟨even, even', shown⟩ := shown
  generalize count : (8 * (n % 2) + k + w + 15) / 16 = c
  have words : ∀ j < c, (liveWord p (n / 2 * 2 + 2 * j)).toNat = pack fields / 2 ^ (16 * ((n / 2 * 2 - base) / 2)) / 2 ^ (16 * j) % 2 ^ 16 := by
    intro j less
    rw [shown _ (by omega) (by omega), wordOf, BitVec.toNat_ofNat, Nat.div_div_eq_div_mul, ← Nat.pow_add]
    congr 3
    omega
  have at_ : 8 * (n - base) + k = 16 * ((n / 2 * 2 - base) / 2) + (8 * (n % 2) + k) := by omega
  unfold Part.liveBits
  dsimp only
  have split : pack fields / 2 ^ (8 * (n - base) + k) =
      pack fields / 2 ^ (16 * ((n / 2 * 2 - base) / 2)) / 2 ^ (8 * (n % 2) + k) := by
    rw [at_, Nat.pow_add, Nat.div_div_eq_div_mul]
  rw [pick, split]
  generalize pack fields / 2 ^ (16 * ((n / 2 * 2 - base) / 2)) = Q at words
  refine bits_congr (N := 16 * c) ?_ (by omega)
  have few : c = 1 ∨ c = 2 ∨ c = 3 ∨ c = 4 := by omega
  obtain rfl | rfl | rfl | rfl := few
  · have w0 := words 0 (by omega)
    simp only [Nat.mul_zero, Nat.add_zero, Nat.pow_zero, Nat.div_one] at w0 ⊢
    rw [w0]
    omega
  · have w0 := words 0 (by omega)
    have w1 := words 1 (by omega)
    simp only [Nat.mul_zero, Nat.add_zero, Nat.pow_zero, Nat.div_one] at w0 ⊢
    rw [w0, w1]
    omega
  · have w0 := words 0 (by omega)
    have w1 := words 1 (by omega)
    have w2 := words 2 (by omega)
    simp only [Nat.mul_zero, Nat.add_zero, Nat.pow_zero, Nat.div_one] at w0 ⊢
    rw [w0, w1, w2]
    omega
  · have w0 := words 0 (by omega)
    have w1 := words 1 (by omega)
    have w2 := words 2 (by omega)
    have w3 := words 3 (by omega)
    simp only [Nat.mul_zero, Nat.add_zero, Nat.pow_zero, Nat.div_one] at w0 ⊢
    rw [w0, w1, w2, w3]
    omega

/-- A section shows the field that begins at a bit of it. -/
theorem publishes_field {p : Part} {base size : Nat} {fields : List Field} (shown : p.shows base size fields) {n k w v : Nat} (from_ : base ≤ n)
    (at_ : fieldAt fields (8 * (n - base) + k) = some (w, v)) (inside : 8 * (n - base) + k + w ≤ 8 * size)
    (short : 8 * (n % 2) + k + w ≤ 64) (some_ : 0 < w) : p.publishes n k w v :=
  (liveBits_section shown from_ inside short some_).trans (pick_field at_)

theorem publishes_bits {p : Part} {base size : Nat} {fields : List Field} (shown : p.shows base size fields) {n k w v : Nat} (from_ : base ≤ n)
    (at_ : pick fields (8 * (n - base) + k) w = limit w v) (inside : 8 * (n - base) + k + w ≤ 8 * size)
    (short : 8 * (n % 2) + k + w ≤ 64) (some_ : 0 < w) : p.publishes n k w v :=
  (liveBits_section shown from_ inside short some_).trans at_

/-! ### The sections -/

theorem device_shown (p : Part) : p.shows 0 64 (deviceFields p) := by
  refine ⟨rfl, rfl, fun o _ less => ?_⟩
  unfold liveWord
  rw [if_pos (by omega), Nat.sub_zero]

theorem head_shown (p : Part) (h : HeadId) : p.shows (64 * h.num) 64 (headFields h p) := by
  refine ⟨by omega, rfl, fun o from_ less => ?_⟩
  have section_ : (o - 64) / 64 = h.num - 1 := by cases h <;> simp only [HeadId.num] at from_ less ⊢ <;> omega
  have offset : (o - 64) % 64 = o - 64 * h.num := by cases h <;> simp only [HeadId.num] at from_ less ⊢ <;> omega
  have named : headOfIndex (h.num - 1) = h := by cases h <;> rfl
  have few : 1 ≤ h.num ∧ h.num ≤ 4 := by cases h <;> decide
  unfold liveWord
  rw [if_neg (by omega), if_pos (by omega), section_, offset, named]

theorem cue_shown (p : Part) (h : HeadId) {j : Nat} (slot : j < 32) : p.shows (64 + 256 * h.num + 8 * j) 8 (cueFields (p.head h) j) := by
  refine ⟨by omega, rfl, fun o from_ less => ?_⟩
  have section_ : (o - 320) / 256 = h.num - 1 := by cases h <;> simp only [HeadId.num] at from_ less ⊢ <;> omega
  have offset : (o - 320) % 256 / 8 = j := by cases h <;> simp only [HeadId.num] at from_ less ⊢ <;> omega
  have bytes : (o - 320) % 8 = o - (64 + 256 * h.num + 8 * j) := by cases h <;> simp only [HeadId.num] at from_ less ⊢ <;> omega
  have named : headOfIndex (h.num - 1) = h := by cases h <;> rfl
  have few : 1 ≤ h.num ∧ h.num ≤ 4 := by cases h <;> decide
  unfold liveWord
  rw [if_neg (by omega), if_neg (by omega), if_pos (by omega), section_, offset, bytes, named]

theorem island_shown (p : Part) (i : IslandId) : p.shows (1280 + 64 * i.num) 64 (islandFields i p) := by
  refine ⟨by omega, rfl, fun o from_ less => ?_⟩
  have offset : (o - 1344) % 64 = o - (1280 + 64 * i.num) := by cases i <;> simp only [IslandId.num] at from_ less ⊢ <;> omega
  have named : (if o < 1408 then IslandId.i1 else .i2) = i := by
    cases i <;> simp only [IslandId.num] at from_ less
    · exact if_pos (by omega)
    · exact if_neg (by omega)
  have few : 1 ≤ i.num ∧ i.num ≤ 2 := by cases i <;> decide
  unfold liveWord
  rw [if_neg (by omega), if_neg (by omega), if_neg (by omega), if_pos (by omega), offset, named]

theorem alarm_shown (p : Part) {j : Nat} (slot : j < 24) : p.shows (1472 + 8 * j) 8 (alarmFields p.alarms.entries[j]?) := by
  refine ⟨by omega, rfl, fun o from_ less => ?_⟩
  have index : (o - 1472) / 8 = j := by omega
  have bytes : (o - 1472) % 8 = o - (1472 + 8 * j) := by omega
  unfold liveWord
  rw [if_neg (by omega), if_neg (by omega), if_neg (by omega), if_neg (by omega), if_pos (by simp only [Config.liveSize]; omega), index, bytes]

end Sys2Proof.Machine
end

section
/-! PROOFS. What the Window Decoder answers (R167 to R169, R188): withheld writes, the latch, and the quantities of each section. -/

namespace Sys2Proof.Machine

/-! ### Heads -/

theorem signedOr_eq (w : Nat) (f : Config.AbsentField) (x : Option Int) : signedOr w f x = (w, (signedOr w f x).2) := by
  cases x <;> rfl

/-- A field of a head's section. -/
theorem head_publishes (p : Part) (h : HeadId) (d : Nat) {k w v : Nat} (at_ : fieldAt (headFields h p) (8 * d + k) = some (w, v))
    (inside : 8 * d + k + w ≤ 512) (short : 8 * (d % 2) + k + w ≤ 64) (some_ : 0 < w) : p.publishes (64 * h.num + d) k w v :=
  publishes_field (head_shown p h) (Nat.le_add_right ..) (by rw [Nat.add_sub_cancel_left]; exact at_) (by omega) (by omega) some_


theorem DriveState.idxOf_code (d : DriveState) :
    [DriveState.stopped, .parked, .cueFast, .cueInch, .settling, .runup, .locked, .unlocked, .stopping, .fault].idxOf d = d.code := by
  cases d <;> rfl

theorem signedOr_fst (w : Nat) (f : Config.AbsentField) (x : Option Int) : (signedOr w f x).1 = w := by rw [signedOr_eq]

/-- The thirteen settings in image order (R189). -/
theorem settings_published (p : Part) (h : HeadId) :
    let c := (p.head h).settings
    let n := 64 * h.num
    p.publishes (n + 8) 0 8 c.gauge.code ∧ p.publishes (n + 9) 0 8 c.lockCount ∧
    p.publishes (n + 10) 0 16 c.runupLead ∧ p.publishes (n + 12) 0 8 c.runupDistance ∧
    p.publishes (n + 13) 0 16 c.runupLimit ∧ p.publishes (n + 15) 0 16 c.startResponse ∧
    p.publishes (n + 17) 0 16 c.lossTimeout ∧ p.publishes (n + 19) 0 16 c.approach ∧
    p.publishes (n + 21) 0 8 c.parkTolerance ∧ p.publishes (n + 22) 0 16 c.settleTime ∧
    p.publishes (n + 24) 0 8 c.sensorOffset ∧ p.publishes (n + 25) 0 8 c.lampPolicy.code ∧
    p.publishes (n + 26) 0 16 c.lampSettle := by
  intro c n
  have shows : ∀ d {w v}, fieldAt (headFields h p) (8 * d + 0) = some (w, v) → w = 8 ∨ w = 16 → d < 32 → p.publishes (n + d) 0 w v :=
    fun d w v at_ width less => head_publishes p h d at_ (by omega) (by omega) (by omega)
  refine ⟨shows 8 ?_ ?_ ?_, shows 9 ?_ ?_ ?_, shows 10 ?_ ?_ ?_, shows 12 ?_ ?_ ?_, shows 13 ?_ ?_ ?_, shows 15 ?_ ?_ ?_, shows 17 ?_ ?_ ?_,
    shows 19 ?_ ?_ ?_, shows 21 ?_ ?_ ?_, shows 22 ?_ ?_ ?_, shows 24 ?_ ?_ ?_, shows 25 ?_ ?_ ?_, shows 26 ?_ ?_ ?_⟩ <;>
    simp [c, headFields, settingFields, fieldAt, flagField, spare, signedField]

/-- The figures of the Cadence Monitor (R42 to R52). -/
theorem cadence_published (p : Part) (h : HeadId) :
    let x := (p.head h).cadence
    let n := 64 * h.num
    p.publishes (n + 28) 0 16 x.speed ∧ (∀ v, x.boundary = some v → p.publishes (n + 30) 0 32 v.toNat) ∧
    (∀ v, x.lastLength = some v → p.publishes (n + 34) 0 16 v) ∧ p.publishes (n + 36) 0 8 x.run ∧
    p.publishes (n + 37) 0 5 ((if x.boundary.isSome then 1 else 0) + (if x.lastLength.isSome then 2 else 0) +
      (if x.unlockStamp.isSome then 4 else 0) + (if x.lastTime.isSome then 8 else 0) + (if x.lastRunup.isSome then 16 else 0)) ∧
    (∀ v, x.lastRunup = some v →
      (0 ≤ v.fields → p.publishes (n + 38) 0 16 v.fields.toNat) ∧ (0 ≤ v.frames → p.publishes (n + 40) 0 16 v.frames.toNat)) ∧
    p.publishes (n + 62) 0 16 x.fields := by
  intro x n
  have shows : ∀ d {w v}, fieldAt (headFields h p) (8 * d + 0) = some (w, v) → (w = 8 ∨ w = 16 ∨ w = 32) ∧ (d + w / 8 ≤ 64 ∧ d % 2 + w / 8 ≤ 8) →
      p.publishes (n + d) 0 w v :=
    fun d w v at_ ⟨width, less⟩ => head_publishes p h d at_ (by omega) (by omega) (by omega)
  have count : ∀ y : Int, limit 16 (count16 y).toNat = limit 16 y.toNat := fun y => by
    rw [count16, word, BitVec.toNat_ofNat, Nat.mod_eq_of_lt (limit_lt ..), limit_limit]
  refine ⟨shows 28 ?_ (by decide), fun v is => shows 30 ?_ (by decide), fun v is => shows 34 ?_ (by decide), shows 36 ?_ (by decide), ?_,
    fun v is => ⟨fun _ => ?_, fun _ => ?_⟩, shows 62 ?_ (by decide)⟩
  · simp [x, headFields, settingFields, cadenceFields, fieldAt, flagField, spare, signedField]
  · simp [show (p.head h).cadence.boundary = some v from is, headFields, settingFields, cadenceFields, fieldAt, flagField, spare, signedField, orAbsent, -Part.head_eq]
  · simp [show (p.head h).cadence.lastLength = some v from is, headFields, settingFields, cadenceFields, fieldAt, flagField, spare, signedField, orAbsent, -Part.head_eq]
  · simp [x, headFields, settingFields, cadenceFields, fieldAt, flagField, spare, signedField]
  · refine publishes_bits (head_shown p h) (Nat.le_add_right ..) ?_ (by omega) (by omega) (by decide)
    rw [Nat.add_sub_cancel_left]
    refine (pick_fields (c := [flagField x.boundary.isSome, flagField x.lastLength.isSome, flagField x.unlockStamp.isSome,
      flagField x.lastTime.isSome, flagField x.lastRunup.isSome]) (r := (headFields h p).drop 40) ?_).trans ?_
    · simp [x, headFields, settingFields, cadenceFields, fieldsFrom, flagField, spare, signedField]
    · cases x.boundary.isSome <;> cases x.lastLength.isSome <;> cases x.unlockStamp.isSome <;> cases x.lastTime.isSome <;>
        cases x.lastRunup.isSome <;> rfl
  · refine (show p.publishes (n + 38) 0 16 (count16 v.fields).toNat from shows 38 ?_ (by decide)).trans (count _)
    simp [show (p.head h).cadence.lastRunup = some v from is, headFields, settingFields, cadenceFields, fieldAt, flagField, spare, signedField, orAbsent, -Part.head_eq]
  · refine (show p.publishes (n + 40) 0 16 (count16 v.frames).toNat from shows 40 ?_ (by decide)).trans (count _)
    simp [show (p.head h).cadence.lastRunup = some v from is, headFields, settingFields, cadenceFields, fieldAt, flagField, spare, signedField, orAbsent, -Part.head_eq]
  · simp [x, headFields, settingFields, cadenceFields, fieldAt, flagField, spare, signedField, signedOr_fst, channelFields]

theorem channel_bits (c : Channel) : fieldBits (channelFields c) = 48 := rfl

/-- Six bytes of a section that hold a channel's record (R133, R188). -/
theorem publishesChannel_of {p : Part} {base size : Nat} {fields : List Field} (shown : p.shows base size fields) {d : Nat} {c : Channel}
    (from_ : (fieldsFrom fields (8 * d)).map (List.take 10) = some (channelFields c)) (even : d % 2 = 0) (inside : d + 6 ≤ size) :
    p.publishesChannel (base + d) c := by
  have bits : ∀ k w, k + w ≤ 48 → 0 < w → p.liveBits (base + d) k w = pick (channelFields c) k w := fun k w fits some_ => by
    have base_even := shown.1
    rw [liveBits_section shown (Nat.le_add_right ..) (by omega) (by omega) some_, Nat.add_sub_cancel_left]
    have whole : pick fields (8 * d) 48 = pack (channelFields c) := pick_take from_
    have cut : 2 ^ 48 = 2 ^ (k + w) * 2 ^ (48 - (k + w)) := by rw [← Nat.pow_add, Nat.add_sub_cancel' fits]
    rw [pick, pick, Nat.pow_add, ← Nat.div_div_eq_div_mul, ← whole, pick]
    refine bits_congr (N := 48) ?_ fits
    rw [Nat.mod_mod]
  have field : ∀ {k w v}, fieldAt (channelFields c) k = some (w, v) → k + w ≤ 48 → 0 < w → p.publishes (base + d) k w v :=
    fun at_ fits some_ => (bits _ _ fits some_).trans (pick_field at_)
  refine ⟨field rfl (by decide) (by decide), field rfl (by decide) (by decide), field rfl (by decide) (by decide),
    field rfl (by decide) (by decide), field rfl (by decide) (by decide), field rfl (by decide) (by decide),
    fun none => field (v := conditionCode c.condition) rfl (by decide) (by decide) |>.trans (by rw [none]; rfl), ?_⟩
  refine (field (v := c.outSide.code) rfl (by decide) (by decide)).trans ?_
  cases c.outSide <;> rfl

/-- The rest of a head's section, and the number of its cues. -/
theorem head_published (p : Part) (h : HeadId) :
    let x := p.head h
    let n := 64 * h.num
    p.publishes n 0 8 x.drive.code ∧ p.publishes (n + 4) 0 32 (BitVec.ofInt 32 x.pos.frame).toNat ∧
    (∀ v, x.park = some v → p.publishes (n + 42) 0 32 (BitVec.ofInt 32 v.target).toNat) ∧
    p.publishesChannel (n + 50) (p.analog.lamp.get h) ∧ p.publishesChannel (n + 56) (p.analog.tension.get h) := by
  intro x n
  refine ⟨head_publishes p h 0 rfl (by decide) (by decide) (by decide), head_publishes p h 4 ?_ (by decide) (by decide) (by decide),
    fun v is => head_publishes p h 42 ?_ (by decide) (by decide) (by decide), ?_, ?_⟩
  · simp [x, headFields, fieldAt, flagField, spare, signedField]
  · simp [show (p.head h).park = some v from is, headFields, settingFields, cadenceFields, fieldAt, flagField, spare, signedField, signedOr,
      -Part.head_eq]
  · refine publishesChannel_of (head_shown p h) ?_ (by decide) (by decide)
    simp [headFields, settingFields, cadenceFields, fieldsFrom, flagField, spare, signedField, signedOr_fst, channelFields]
  · refine publishesChannel_of (head_shown p h) ?_ (by decide) (by decide)
    simp [headFields, settingFields, cadenceFields, fieldsFrom, flagField, spare, signedField, signedOr_fst, channelFields]

/-- A slot of a head's cue table (R53, R188). -/
theorem cues_published (p : Part) (h : HeadId) :
    let x := p.head h
    p.publishes (64 + 256 * h.num + 3) 0 8 x.cues.length ∧
    ∀ (j : Fin 32), ∀ v, x.cues[j.val]? = some v →
      let m := 64 + 256 * h.num + 8 * j.val
      p.publishes m 0 8 v.id ∧ p.publishes (m + 2) 0 8 (v.window.getD 0) ∧ p.publishes (m + 4) 0 32 (BitVec.ofInt 32 v.frame).toNat := by
  intro x
  refine ⟨?_, fun j v is => ⟨?_, ?_, ?_⟩⟩
  · refine publishes_field (cue_shown p h (j := 0) (by decide)) (by omega) ?_ (by omega) (by omega) (by decide)
    rw [show 8 * (64 + 256 * h.num + 3 - (64 + 256 * h.num + 8 * 0)) + 0 = 24 by omega]
    unfold cueFields
    cases x.cues[0]? <;> simp [x, fieldAt, flagField, spare, emptyField]
  · refine publishes_field (cue_shown p h j.isLt) (Nat.le_refl _) ?_ (by omega) (by omega) (by decide)
    rw [Nat.sub_self, cueFields, show (p.head h).cues[j.val]? = some v from is]
    rfl
  · refine publishes_field (cue_shown p h j.isLt) (Nat.le_add_right ..) ?_ (by omega) (by omega) (by decide)
    rw [Nat.add_sub_cancel_left, cueFields, show (p.head h).cues[j.val]? = some v from is]
    simp [fieldAt, flagField, spare]
  · refine publishes_field (cue_shown p h j.isLt) (Nat.le_add_right ..) ?_ (by omega) (by omega) (by decide)
    rw [Nat.add_sub_cancel_left, cueFields, show (p.head h).cues[j.val]? = some v from is]
    by_cases first : j.val = 0 <;> simp [first, fieldAt, flagField, spare, signedField]

theorem AlarmSource.idxOf_code (s : AlarmSource) :
    [AlarmSource.device, .head .h1, .head .h2, .head .h3, .head .h4, .island .i1, .island .i2, .reference, .analog].idxOf s = s.code := by
  cases s with
  | device => rfl
  | head h => cases h <;> rfl
  | island i => cases i <;> rfl
  | reference => rfl
  | analog => rfl

theorem AlarmKind.idxOf_code (k : AlarmKind) :
    [AlarmKind.tachLoss, .filmBreak, .jam, .lampFail, .lampStuck, .slowStart, .lockLoss, .cueFault, .countLimit, .lateStart, .runout,
      .mirrorFault, .noSafeSource, .stationOffline, .refLoss, .analogRef, .memoryFault, .windowViolation, .config].idxOf k = k.code := by
  cases k <;> rfl

/-- An alarm slot (R188). -/
theorem alarms_published (p : Part) (j : Fin 24) :
    let n := 1472 + 8 * j.val
    (∀ v, p.alarms.entries[j.val]? = some v →
      p.publishes n 0 8 v.source.code ∧ p.publishes (n + 1) 0 8 v.kind.code ∧ p.publishes (n + 3) 0 8 1 ∧
      p.publishes (n + 4) 0 32 v.stamp.toNat) ∧
    (p.alarms.entries[j.val]? = none → p.publishes (n + 3) 0 8 0) := by
  intro n
  have shows : ∀ d {w v}, fieldAt (alarmFields p.alarms.entries[j.val]?) (8 * d + 0) = some (w, v) → (w = 8 ∨ w = 32) ∧ d + w / 8 ≤ 8 →
      p.publishes (n + d) 0 w v := fun d w v at_ ⟨width, less⟩ =>
    publishes_field (alarm_shown p j.isLt) (Nat.le_add_right ..) (by rw [Nat.add_sub_cancel_left]; exact at_) (by omega) (by omega) (by omega)
  refine ⟨fun v is => ⟨shows 0 ?_ (by decide), shows 1 ?_ (by decide), shows 3 ?_ (by decide), shows 4 ?_ (by decide)⟩,
    fun none => shows 3 ?_ (by decide)⟩
  · rw [is]
    rfl
  · rw [is]
    simp [alarmFields, fieldAt]
  · rw [is]
    simp [alarmFields, fieldAt, spare]
  · rw [is]
    simp [alarmFields, fieldAt, spare]
  · rw [none]
    simp [alarmFields, fieldAt, emptyField]

/-! ### Islands -/

theorem mirror_bits (m : MirrorState) : fieldBits (mirrorFields m) = 5 := by
  cases m <;> rfl

theorem take_bits (t : Option Take) : fieldBits (takeFields t) = 24 := by
  cases t <;> rfl

theorem cutField_fst (t : Option Take) : (cutField t).1 = 3 := by
  cases t with
  | none => rfl
  | some t =>
    unfold cutField
    dsimp only
    split <;> rfl

theorem errorField_fst (e : Option Int) : (errorField e).1 = 8 := by
  cases e <;> rfl

theorem fieldAt_mirror (m : MirrorState) (l : List Field) {b : Nat} (behind : 5 ≤ b) : fieldAt (mirrorFields m ++ l) b = fieldAt l (b - 5) := by
  rw [fieldAt_skip (by cases m <;> simp [mirrorFields]) l (by rwa [mirror_bits]), mirror_bits]

theorem fieldAt_take (t : Option Take) (l : List Field) {b : Nat} (behind : 24 ≤ b) : fieldAt (takeFields t ++ l) b = fieldAt l (b - 24) := by
  rw [fieldAt_skip (by cases t <;> simp [takeFields, emptyField]) l (by rwa [take_bits]), take_bits]

/-- A field of an island's section. -/
theorem island_publishes (p : Part) (i : IslandId) (d : Nat) {k w v : Nat} (at_ : fieldAt (islandFields i p) (8 * d + k) = some (w, v))
    (inside : 8 * d + k + w ≤ 512) (short : 8 * (d % 2) + k + w ≤ 64) (some_ : 0 < w) : p.publishes (1280 + 64 * i.num + d) k w v :=
  publishes_field (island_shown p i) (Nat.le_add_right ..) (by rw [Nat.add_sub_cancel_left]; exact at_) (by omega) (by omega) some_

/-- The confirmation, the settings and the poll countdown of an island (R188). -/
theorem island_settings_published (p : Part) (i : IslandId) :
    let x := p.island i
    let z := x.settings
    let n := 1280 + 64 * i.num
    (∀ c, x.confirm = some c → p.publishes (n + 4) 0 32 c.cut.toNat) ∧
    p.publishes (n + 8) 0 8 z.address ∧ p.publishes (n + 9) 0 8 z.standbyPort.num ∧ p.publishes (n + 10) 0 8 z.lead ∧
    p.publishes (n + 11) 0 8 z.tolerance ∧ p.publishes (n + 12) 0 8 z.policy.code ∧
    p.publishes (n + 13) 0 8 z.grace ∧ p.publishes (n + 15) 0 8 (p.link.stations.get i).countdown := by
  intro x z n
  have shows : ∀ d {w v}, fieldAt (islandFields i p) (8 * d + 0) = some (w, v) → (w = 8 ∨ w = 32) ∧ (d + w / 8 ≤ 64 ∧ d % 2 + w / 8 ≤ 8) →
      p.publishes (n + d) 0 w v :=
    fun d w v at_ ⟨width, less⟩ => island_publishes p i d at_ (by omega) (by omega) (by omega)
  refine ⟨fun c is => shows 4 ?_ (by decide), shows 8 ?_ (by decide), shows 9 ?_ (by decide), shows 10 ?_ (by decide), shows 11 ?_ (by decide),
    shows 12 ?_ (by decide), shows 13 ?_ (by decide), shows 15 ?_ (by decide)⟩
  · simp [show (p.island i).confirm = some c from is, islandFields, fieldAt, fieldAt_mirror, flagField, spare, cutField_fst, orAbsent, -Part.island_eq]
  all_goals simp [z, x, islandFields, fieldAt, fieldAt_mirror, flagField, spare, cutField_fst, basisField]

/-- The takes, the predictions and the station record of an island (R86, R188). -/
theorem island_figures_published (p : Part) (i : IslandId) :
    let x := p.island i
    let t := x.active
    let n := 1280 + 64 * i.num
    let stamp (v : Option Stamp) : Nat := (v.map BitVec.toNat).getD 0
    (∀ (j : Fin 6), ∀ v, x.takes[j.val]? = some v → p.publishes (n + 16 + 3 * j.val) 0 16 v.tag.toNat) ∧
    p.publishes (n + 34) 0 32 (stamp (t.bind (·.fCut))) ∧ p.publishes (n + 38) 0 32 (stamp (t.bind (·.fStart))) ∧
    p.publishes (n + 42) 0 32 (stamp ((t.bind (·.sop)).bind (·.value))) ∧
    p.publishes (n + 46) 0 32 (stamp (x.fEnd.bind (·.value))) ∧
    (∀ e, t.bind (·.error) = some e → p.publishes (n + 50) 0 8 (BitVec.ofInt 8 (max (-128) (min 127 e))).toNat) ∧
    p.publishes (n + 51) 0 8 (p.link.stations.get i).misses ∧
    (∀ v, (p.link.stations.get i).refusal = some v → p.publishes (n + 54) 0 8 v.reason.toNat) ∧
    p.publishes (n + 55) 0 8 0 ∧
    (∀ v, (t.bind (·.cut)).map (·.frame) = some v → p.publishes (n + 56) 0 21 (BitVec.ofInt 21 v).toNat) ∧
    (∀ v, (t.bind (·.sop)).map (·.frame) = some v → p.publishes (n + 56) 21 21 (BitVec.ofInt 21 v).toNat) ∧
    (∀ v, x.fEnd.map (·.frame) = some v → p.publishes (n + 56) 42 21 (BitVec.ofInt 21 v).toNat) := by
  intro x t n stamp
  have shows : ∀ d {k w v} (f : Field), fieldAt (islandFields i p) (8 * d + k) = some f → f = (w, v) →
      8 * d + k + w ≤ 512 ∧ 8 * (d % 2) + k + w ≤ 64 ∧ 0 < w → p.publishes (n + d) k w v :=
    fun d k w v f at_ is ⟨inside, short, some_⟩ => island_publishes p i d (is ▸ at_) inside short some_
  refine ⟨fun j v is => ?_, shows 34 _ ?_ rfl (by decide), shows 38 _ ?_ rfl (by decide), shows 42 _ ?_ rfl (by decide), shows 46 _ ?_ rfl (by decide),
    fun e is => shows 50 (errorField (t.bind (·.error))) ?_ (by rw [is]; rfl) (by decide), shows 51 _ ?_ rfl (by decide),
    fun v is => shows 54 (8, orAbsent .refusedReason ((p.link.stations.get i).refusal.map (·.reason.toNat))) ?_ (by rw [is]; rfl) (by decide),
    shows 55 _ ?_ rfl (by decide),
    fun v is => shows 56 (signedOr 21 .followedFrame ((t.bind (·.cut)).map (·.frame))) ?_ (by rw [is]; rfl) (by decide),
    fun v is => shows 56 (signedOr 21 .followedFrame ((t.bind (·.sop)).map (·.frame))) ?_ (by rw [is]; rfl) (by decide),
    fun v is => shows 56 (signedOr 21 .followedFrame (x.fEnd.map (·.frame))) ?_ (by rw [is]; rfl) (by decide)⟩
  · obtain ⟨j, less⟩ := j
    refine Nat.add_assoc n 16 (3 * j) ▸ shows (16 + 3 * j) _ ?_ rfl ⟨by omega, by omega, by decide⟩
    have first : ∀ l, fieldAt (takeFields (p.island i).takes[j]? ++ l) 0 = some (16, v.tag.toNat) := fun l => by
      rw [show (p.island i).takes[j]? = some v from is]
      rfl
    clear is
    interval_cases j <;> simp [islandFields, fieldAt, fieldAt_mirror, fieldAt_take, flagField, spare, cutField_fst, basisField, List.range_succ,
      first, -Part.island_eq]
  all_goals simp [t, x, stamp, islandFields, fieldAt, fieldAt_mirror, fieldAt_take, flagField, spare, cutField_fst, basisField, List.range_succ,
    stampField, errorField_fst, stationFields, signedOr_fst]

/-! ### The device -/

theorem toList_eight {α : Type} (v : Vector α 8) : v.toList = [v[0], v[1], v[2], v[3], v[4], v[5], v[6], v[7]] := by
  refine List.ext_getElem (by simp) fun n h _ => ?_
  have less : n < 8 := by simpa using h
  interval_cases n <;> simp

theorem window_bits (w : Option Window) : fieldBits (windowFields w) = 20 := by
  cases w <;> rfl

theorem window_positive (w : Option Window) : ∀ f ∈ windowFields w, 0 < f.1 := by
  cases w <;> simp [windowFields, emptyField]

theorem fieldAt_window (w : Option Window) (l : List Field) {b : Nat} (behind : 20 ≤ b) : fieldAt (windowFields w ++ l) b = fieldAt l (b - 20) := by
  rw [fieldAt_skip (window_positive w) l (by rwa [window_bits]), window_bits]

theorem fieldsFrom_window (w : Option Window) (l : List Field) {b : Nat} (behind : 20 ≤ b) :
    fieldsFrom (windowFields w ++ l) b = fieldsFrom l (b - 20) := by
  rw [fieldsFrom_skip (window_positive w) l (by rwa [window_bits]), window_bits]

theorem violation_bits (v : Option Violation) : fieldBits (violationFields v) = 24 := by
  cases v <;> rfl

theorem fieldsFrom_violation (v : Option Violation) (l : List Field) {b : Nat} (behind : 24 ≤ b) :
    fieldsFrom (violationFields v ++ l) b = fieldsFrom l (b - 24) := by
  rw [fieldsFrom_skip (by cases v <;> simp [violationFields, emptyField, flagField]) l (by rwa [violation_bits]), violation_bits]

/-- A field of the device section. -/
theorem device_publishes (p : Part) (n : Nat) {k w v : Nat} (at_ : fieldAt (deviceFields p) (8 * n + k) = some (w, v))
    (fits : 8 * n + k + w ≤ 512 ∧ 8 * (n % 2) + k + w ≤ 64 ∧ 0 < w) : p.publishes n k w v :=
  publishes_field (device_shown p) (Nat.zero_le n) at_ fits.1 fits.2.1 fits.2.2

theorem keys_pack (k : RowKeys) : pack (keyFields k) = limit 4 ((if k.r1.down then 1 else 0) + (if k.r2.down then 2 else 0) +
    (if k.r3.down then 4 else 0) + (if k.r4.down then 8 else 0)) := by
  unfold keyFields flagField
  cases k.r1.down <;> cases k.r2.down <;> cases k.r3.down <;> cases k.r4.down <;> rfl

/-- The field count, the field period and the panel (R188). -/
theorem panel_published (p : Part) :
    p.publishes 0 0 32 p.ref.count.toNat ∧ p.publishes 4 0 32 p.ref.period ∧
    ∀ r : Fin 8, p.publishes (8 + 3 * r.val) 0 24 p.panel.image[r].toNat ∧
      p.publishes 32 (4 * r.val) 4 ((if p.panel.keys[r].r1.down then 1 else 0) + (if p.panel.keys[r].r2.down then 2 else 0) +
        (if p.panel.keys[r].r3.down then 4 else 0) + (if p.panel.keys[r].r4.down then 8 else 0)) := by
  refine ⟨device_publishes p 0 rfl (by decide), device_publishes p 4 ?_ (by decide), fun r => ⟨device_publishes p _ ?_ ?_, ?_⟩⟩
  · simp [deviceFields, fieldAt]
  · fin_cases r <;> simp [deviceFields, toList_eight, fieldAt]
  · have less := r.isLt
    omega
  · have less := r.isLt
    refine publishes_bits (device_shown p) (Nat.zero_le _) ?_ (by omega) (by omega) (by decide)
    refine (pick_take (c := keyFields p.panel.keys[r]) (n := 4) ?_).trans ?_
    · fin_cases r <;> simp [deviceFields, toList_eight, fieldsFrom, keyFields, flagField]
    · exact keys_pack _

/-- The window table in the device section: twenty bits each. -/
theorem device_window {p : Part} {e d : Nat} {f : Field} (less : e < 6) (first : ∀ l, fieldAt (windowFields p.bus.windows[e]? ++ l) d = some f)
    (at_ : d = 0 ∨ d = 12 ∨ d = 16 ∨ d = 18) : fieldAt (deviceFields p) (288 + 20 * e + d) = some f := by
  obtain rfl | rfl | rfl | rfl := at_
  all_goals interval_cases e <;> simp [deviceFields, toList_eight, fieldAt, keyFields, flagField, List.range_succ, fieldAt_window, first]

/-- An entry of the window table (R165, R188). -/
theorem windows_published (p : Part) (e : Fin 6) :
    let n := 36 + 20 * e.val / 8
    let k := 20 * e.val % 8
    (∀ v, p.bus.windows[e.val]? = some v →
      p.publishes n k 12 (v.base / 256) ∧ p.publishes n (k + 12) 4 (v.log2 - 7) ∧ p.publishes n (k + 16) 2 v.kind.code ∧
      p.publishes n (k + 18) 2 v.ringCode) ∧
    (p.bus.windows[e.val]? = none → p.publishes n (k + 12) 4 0) := by
  intro n k
  obtain ⟨e, less⟩ := e
  have shows : ∀ d {w v}, fieldAt (deviceFields p) (288 + 20 * e + d) = some (w, v) → d + w ≤ 20 → 0 < w → p.publishes n (k + d) w v :=
    fun d w v at_ fits some_ => device_publishes p n (by rw [← at_]; congr 1; simp only [n, k]; omega) (by simp only [n, k]; omega)
  refine ⟨fun v is => ?_, fun none => shows 12 (device_window less (fun l => ?_) (by decide)) (by decide) (by decide)⟩
  · have at_ : p.bus.windows[e]? = some v := is
    refine ⟨shows 0 (device_window less (fun l => ?_) (by decide)) (by decide) (by decide), shows 12 (device_window less (fun l => ?_) (by decide)) (by decide) (by decide),
      shows 16 (device_window less (fun l => ?_) (by decide)) (by decide) (by decide), shows 18 (device_window less (fun l => ?_) (by decide)) (by decide) (by decide)⟩ <;>
      rw [at_] <;> simp [windowFields, fieldAt]
  · rw [show p.bus.windows[e]? = Option.none from none]
    simp [windowFields, fieldAt, emptyField]

/-- The violation record and the analog reference (R167, R188). -/
theorem violation_published (p : Part) :
    (∀ v, p.bus.violation = some v → p.publishes 51 0 20 v.addr.toNat ∧ p.publishes 51 23 1 (flag v.more) ∧ p.publishes 51 20 3 v.code) ∧
    (p.bus.violation = none → p.publishes 51 20 3 0) ∧ p.publishesChannel 54 p.analog.reference := by
  have field : ∀ {d f}, (∀ l, fieldAt (violationFields p.bus.violation ++ l) d = some f) → d = 0 ∨ d = 20 ∨ d = 23 →
      fieldAt (deviceFields p) (8 * 51 + d) = some f := by
    rintro d f first (rfl | rfl | rfl)
    all_goals simp [deviceFields, toList_eight, fieldAt, keyFields, flagField, List.range_succ, fieldAt_window, first]
  refine ⟨fun v is => ⟨device_publishes p 51 (field (fun l => ?_) (by decide)) (by decide), device_publishes p 51 (field (fun l => ?_) (by decide)) (by decide),
    device_publishes p 51 (field (fun l => ?_) (by decide)) (by decide)⟩,
    fun none => device_publishes p 51 (field (fun l => ?_) (by decide)) (by decide), ?_⟩
  · rw [is]
    rfl
  · rw [is]
    simp [violationFields, fieldAt, flagField]
  · rw [is]
    simp [violationFields, fieldAt]
  · rw [none]
    simp [violationFields, fieldAt, emptyField]
  · refine publishesChannel_of (d := 54) (device_shown p) ?_ (by decide) (by decide)
    simp [deviceFields, toList_eight, fieldsFrom, keyFields, flagField, List.range_succ, fieldsFrom_window, fieldsFrom_violation, channelFields]

end Sys2Proof.Machine
end

section
/-! PROOFS. Withheld writes and live reads (R167 to R169), and the settling of DecoderAnswers. -/

namespace Sys2Proof.Machine

theorem liveWord_beyond (p : Part) {n : Nat} (far : 1664 ≤ n) : liveWord p n = 0 := by
  unfold liveWord
  rw [if_neg (by omega), if_neg (by omega), if_neg (by omega), if_neg (by omega), if_neg (by simp only [Config.liveSize]; omega)]

/-- The low words of 32-bit quantities (R169). -/
theorem latchedLow_iff (n : Nat) : latchedLow n = true ↔ n = 0 ∨ n = 4 ∨ (∃ h : HeadId, n = 64 * h.num + 30) ∨
    (∃ i : IslandId, n ∈ [4, 34, 38, 42, 46].map fun k => 1280 + 64 * i.num + k) ∨ ∃ j : Fin 24, n = 1472 + 8 * j.val + 4 := by
  have heads : (∃ h : HeadId, n = 64 * h.num + 30) ↔ 64 ≤ n ∧ n < 320 ∧ (n - 64) % 64 = 30 := by
    constructor
    · rintro ⟨h, is⟩
      cases h <;> simp only [HeadId.num] at is <;> omega
    · rintro ⟨least, most, at_⟩
      have some_ : n = 64 * 1 + 30 ∨ n = 64 * 2 + 30 ∨ n = 64 * 3 + 30 ∨ n = 64 * 4 + 30 := by omega
      obtain is | is | is | is := some_
      · exact ⟨.h1, is⟩
      · exact ⟨.h2, is⟩
      · exact ⟨.h3, is⟩
      · exact ⟨.h4, is⟩
  have islands : (∃ i : IslandId, n ∈ [4, 34, 38, 42, 46].map fun k => 1280 + 64 * i.num + k) ↔
      1344 ≤ n ∧ n < 1472 ∧ (n - 1344) % 64 ∈ [4, 34, 38, 42, 46] := by
    simp only [List.map_cons, List.map_nil, List.mem_cons, List.not_mem_nil, or_false]
    constructor
    · rintro ⟨i, is⟩
      cases i <;> simp only [IslandId.num] at is <;> omega
    · rintro ⟨least, most, at_⟩
      by_cases first : n < 1408
      · refine ⟨.i1, ?_⟩
        simp only [IslandId.num]
        omega
      · refine ⟨.i2, ?_⟩
        simp only [IslandId.num]
        omega
  have alarms : (∃ j : Fin 24, n = 1472 + 8 * j.val + 4) ↔ 1472 ≤ n ∧ n < 1664 ∧ (n - 1472) % 8 = 4 := by
    constructor
    · rintro ⟨j, is⟩
      have := j.isLt
      omega
    · rintro ⟨least, most, at_⟩
      exact ⟨⟨(n - 1472) / 8, by omega⟩, by simp only; omega⟩
  rw [heads, islands, alarms]
  unfold latchedLow
  split
  · simp only [Bool.or_eq_true, decide_eq_true_eq]
    omega
  · split
    · simp only [decide_eq_true_eq]
      omega
    · split
      · simp only [Bool.false_eq_true, false_iff]
        omega
      · split
        · rw [List.contains_iff_mem]
          simp only [List.mem_cons, List.not_mem_nil, or_false]
          omega
        · have size : Config.liveSize = 1664 := rfl
          split
          · rw [decide_eq_true_eq]
            omega
          · simp only [Bool.false_eq_true, false_iff]
            omega

theorem windowAt_none {p : Part} {a : Addr} (out : ∀ v ∈ p.bus.windows, ¬ (v.base ≤ a.toNat ∧ a.toNat < v.base + 2 ^ v.log2)) :
    p.windowAt a = none := by
  unfold Part.windowAt
  split
  · exact List.find?_eq_none.2 fun v m c => out v m (Window.covers_iff.1 c)
  · rfl

/-! ### Live reads -/

theorem append_low (hi lo : Byte) : (hi ++ lo : Word).extractLsb' 0 8 = lo := by
  refine BitVec.eq_of_getLsbD_eq fun i less => ?_
  rw [BitVec.getLsbD_extractLsb', BitVec.getLsbD_append, Nat.zero_add, if_pos less]
  simp [less]

theorem append_high (hi lo : Byte) : (hi ++ lo : Word).extractLsb' 8 8 = hi := by
  refine BitVec.eq_of_getLsbD_eq fun i less => ?_
  rw [BitVec.getLsbD_extractLsb', BitVec.getLsbD_append, if_neg (by omega), Nat.add_sub_cancel_left]
  simp [less]

theorem lanes_low (high : Bool) (n : Nat) (w : Word) : (lanes true high n w).extractLsb' 0 8 = w.extractLsb' 0 8 := append_low _ _

theorem lanes_high (low : Bool) (n : Nat) (w : Word) : (lanes low true n w).extractLsb' 8 8 = w.extractLsb' 8 8 := append_high _ _

/-- The word and the latch a live read gives (R169). -/
theorem readLatched_cases (b : Bus) (p : Part) (o : Nat) :
    (latchedLow o = true → b.readLatched p o = (liveWord p o, some ⟨o + 2, liveWord p (o + 2)⟩)) ∧
    (latchedLow o = false → ∀ l, b.latch = some l →
      (l.offset = o → b.readLatched p o = (l.value, none)) ∧ (l.offset ≠ o → b.readLatched p o = (liveWord p o, b.latch))) ∧
    (latchedLow o = false → b.latch = none → b.readLatched p o = (liveWord p o, none)) := by
  unfold Bus.readLatched
  refine ⟨fun low => if_pos low, fun other l held => ⟨fun same => ?_, fun differ => ?_⟩, fun other none => ?_⟩
  · rw [if_neg (by simp [other]), held]
    exact if_pos same
  · rw [if_neg (by simp [other]), held]
    exact if_neg differ
  · rw [if_neg (by simp [other]), none]

theorem bus_decoder {p : Part} {l : Option Latch} {w : Option Word} {v : Option Violation} :
    ChangesOnly [.decoder] p { p with bus := { p.bus with violation := v, latch := l, answer := w } } := by
  intro b m
  cases b <;> simp_all [Block.same, Part.head, Part.island]

/-- The bytes asked for of a word are answered (R168). -/
def Part.answers (q : Part) (low high : Bool) (w : Word) : Prop := ∃ v, q.bus.answer = some v ∧
  (low = true → v.extractLsb' 0 8 = w.extractLsb' 0 8) ∧ (high = true → v.extractLsb' 8 8 = w.extractLsb' 8 8)

theorem readLive_eq {p : Part} {o : Nat} {w : Word} {l : Option Latch} (gave : p.bus.readLatched p (o / 2 * 2) = (w, l)) (low high : Bool) :
    readLive o low high p = { p with bus := { p.bus with latch := l, answer := some (lanes low high p.time.crystal w) } } := by
  unfold readLive
  rw [gave]

theorem readLive_answers {p : Part} {o : Nat} {w : Word} {l : Option Latch} (gave : p.bus.readLatched p (o / 2 * 2) = (w, l)) (low high : Bool) :
    (readLive o low high p).answers low high w ∧ (readLive o low high p).bus.latch = l := by
  rw [readLive_eq gave]
  exact ⟨⟨_, rfl, fun asked => asked ▸ lanes_low .., fun asked => asked ▸ lanes_high ..⟩, rfl⟩

/-- Settles O51: what a violation records, what a live read answers, and what each section of the layout shows. -/
theorem decoderAnswers : Obligations.DecoderAnswers := by
  intro s dt addr data low high running b
  have lapse : ∀ {t : List Block} {q : Part} (x : Timebase), ChangesOnly t { s.part with time := x } q → ChangesOnly (.time :: t) s.part q :=
    fun x d => (timed_changes s.part x (by simp)).trans (d.mono (List.subset_cons_self ..))
  refine ⟨fun k _ held => ⟨fun none => .of_event rfl running ?_, fun v there => .of_event rfl running ?_⟩, fun n far => liveWord_beyond _ far,
    latchedLow_iff, ⟨windowAt_none, fun v m inside alone => ?_⟩, fun w at_ live => .of_event rfl running ?_, ?_⟩
  · rw [elapse_eq]
    generalize (elapse dt s.part).time = t
    have is : withhold addr { s.part with time := t } = raiseAlarm .device .windowViolation (addr.extractLsb' 0 16) ((addr.extractLsb' 16 4).setWidth 16)
        { s.part with time := t, bus := { s.part.bus with violation := some { addr := addr, kind := k, cause := .withheld, more := false } } } := by
      rw [withhold, show Part.treat { s.part with time := t } addr true = .withheld k from held]
      show violate _ _ _ _ = _
      rw [violate, show (_ : Part).bus.violation = Option.none from none]
    rw [is]
    have frame := raiseAlarm_frame .device .windowViolation (addr.extractLsb' 0 16) ((addr.extractLsb' 16 4).setWidth 16)
      { s.part with time := t, bus := { s.part.bus with violation := some { addr := addr, kind := k, cause := .withheld, more := false } } }
    obtain ⟨-, violation, latch, answer⟩ := frame .decoder (by decide)
    exact ⟨violation.symm, raiseAlarm_alarms .., latch.symm, answer.symm,
      lapse t ((bus_decoder (p := { s.part with time := t }).mono (by simp)).trans (frame.mono (by simp)))⟩
  · rw [elapse_eq]
    generalize (elapse dt s.part).time = t
    have is : withhold addr { s.part with time := t } =
        { s.part with time := t, bus := { s.part.bus with violation := some { v with more := true } } } := by
      rw [withhold, show Part.treat { s.part with time := t } addr true = .withheld k from held]
      show violate _ _ _ _ = _
      rw [violate, show (_ : Part).bus.violation = some v from there]
    rw [is]
    exact ⟨rfl, lapse t (bus_decoder (p := { s.part with time := t }))⟩
  · have covers := Window.covers_iff.2 inside
    have found : s.part.bus.windows.find? (fun w => w.covers addr) = some v := by
      cases f : s.part.bus.windows.find? fun w => w.covers addr with
      | none => exact absurd covers (by simpa using List.find?_eq_none.1 f v m)
      | some u => rw [alone u (List.mem_of_find?_eq_some f) (Window.covers_iff.1 (by simpa using List.find?_some f))]
    rw [Part.windowAt, Part.running, if_pos (by simpa using running), found]
  · rw [elapse_eq]
    generalize (elapse dt s.part).time = t
    have read : answerRead addr low high { s.part with time := t } = readLive (addr.toNat - w.base) low high { s.part with time := t } := by
      rw [answerRead, show Part.windowAt { s.part with time := t } addr = some w from at_]
      exact if_pos live
    rw [read]
    obtain ⟨lowWord, other, empty⟩ := readLatched_cases b { s.part with time := t } ((addr.toNat - w.base) / 2 * 2)
    have given := fun v l gave => readLive_answers (p := { s.part with time := t }) (o := addr.toNat - w.base) (w := v) (l := l) gave low high
    have whole := readLive_eq (p := { s.part with time := t }) (o := addr.toNat - w.base) rfl low high
    refine ⟨by rw [whole], fun latched => given _ _ (lowWord latched), fun plain l held => ⟨fun same => given _ _ ((other plain l held).1 same),
      fun differ => given _ _ ((other plain l held).2 differ)⟩, fun plain none => given _ _ (empty plain none), ?_⟩
    rw [whole]
    exact lapse t (bus_decoder (p := { s.part with time := t }))
  · intro p drives sources kinds
    obtain ⟨count, period, rows⟩ := panel_published p
    obtain ⟨violated, unviolated, reference⟩ := violation_published p
    refine ⟨count, period, rows, fun e => ?_, fun v there => ?_, unviolated, reference, fun h => ?_, fun i => ?_, fun j => ?_⟩
    · obtain ⟨shown, none⟩ := windows_published p e
      refine ⟨fun v there => ?_, none⟩
      obtain ⟨base, size, kind, ring⟩ := shown v there
      refine ⟨base, size, by revert kind; cases v.kind <;> exact id, fun c => ⟨fun is count => ?_, fun is count => ?_⟩⟩
      · have code : v.ringCode = c.val := by
          rw [Window.ringCode, is, count]
          fin_cases c <;> rfl
        exact code ▸ ring
      · have code : v.ringCode = c.val := by
          rw [Window.ringCode, is, count]
          fin_cases c <;> rfl
        exact code ▸ ring
    · obtain ⟨address, more, code⟩ := violated v there
      refine ⟨address, more, fun cause => ?_, fun cause kind => ?_, fun cause kind => ?_⟩
      · rw [Violation.code, cause] at code
        cases kind : v.kind <;> rw [kind] at code <;> exact code
      · rw [Violation.code, cause, kind] at code
        exact code
      · rw [Violation.code, cause, kind] at code
        exact code
    · obtain ⟨drive, frame, park, lamp, tension⟩ := head_published p h
      obtain ⟨gauge, lock, lead, distance, limit, response, loss, approach, tolerance, settle, offset, policy, lampSettle⟩ := settings_published p h
      obtain ⟨speed, boundary, length, run, flags, runup, fields⟩ := cadence_published p h
      obtain ⟨cues, slots⟩ := cues_published p h
      intro x c n
      have gauge' : (if c.gauge = .g35 then 0 else 1) = c.gauge.code := by cases c.gauge <;> rfl
      have policy' : (if c.lampPolicy = .auto then 0 else 1) = c.lampPolicy.code := by cases c.lampPolicy <;> rfl
      exact ⟨(DriveState.idxOf_code x.drive).symm ▸ drive, frame, gauge' ▸ gauge, lock, lead, distance, limit, response, loss, approach, tolerance,
        settle, offset, policy' ▸ policy, lampSettle, speed, boundary, length, run, flags, runup, park, lamp, tension, fields, cues, slots⟩
    · obtain ⟨cut, address, port, lead, tolerance, policy, grace, countdown⟩ := island_settings_published p i
      have policy' : (if (p.island i).settings.policy = .fallback then 0 else 1) = (p.island i).settings.policy.code := by
        cases (p.island i).settings.policy <;> rfl
      exact ⟨cut, address, port, lead, tolerance, policy' ▸ policy, grace, countdown, island_figures_published p i⟩
    · obtain ⟨shown, none⟩ := alarms_published p j
      refine ⟨fun v there => ?_, none⟩
      obtain ⟨source, kind, used, stamp⟩ := shown v there
      exact ⟨(AlarmSource.idxOf_code v.source).symm ▸ source, (AlarmKind.idxOf_code v.kind).symm ▸ kind, used, stamp⟩

end Sys2Proof.Machine
end

section
/-! PROOFS. What the scheduler's work on one island keeps of what does not turn on that island's takes (R92 to R107). -/

namespace Sys2Proof.Machine

/-- A property that events, the alarms of an end guard, any change of the front take of island `j`, the recomputed figures of both islands, a start request,
a commit while no move awaits, and an end of island `j`'s front take keep. -/
structure Toils (j : IslandId) (I : Part → Prop) : Prop where
  post : ∀ s e p, I p → I (post s e p)
  raise : ∀ i k a b p, k = .runout ∨ k = .lateStart → I p → I (raiseAlarm (.island i) k a b p)
  front : ∀ f p, I p → I (p.modFront j f)
  refresh : ∀ i p, I p → I (refreshTake i p)
  start : ∀ h p, (p.head h).drive.atRest = true → I p → I (startRequest h p)
  commit : ∀ s c o p, (p.island j).confirm = none → I p → I (commit j s c o p)
  ends : ∀ o r p, I p → I (endFront j o r p)

theorem awaits_eq_false {i : IslandId} {p : Part} : p.awaits i = false ↔ (p.island i).confirm = none := by
  simp [Part.awaits]

theorem free_of_not_awaits {i : IslandId} {p : Part} (free : ¬ p.awaits i = true) : (p.island i).confirm = none :=
  awaits_eq_false.1 (Bool.eq_false_iff.2 free)

theorem commitDue_free {i : IslandId} {p : Part} (due : commitDue i p = true) : (p.island i).confirm = none :=
  free_of_not_awaits fun awaits => by simp [commitDue_of_awaits awaits] at due

theorem guardDue_of_awaits {i : IslandId} {p : Part} (awaits : p.awaits i = true) : guardDue i p = false := by
  simp [guardDue, awaits]

theorem guardDue_free {i : IslandId} {p : Part} (due : guardDue i p = true) : (p.island i).confirm = none :=
  free_of_not_awaits fun awaits => by simp [guardDue_of_awaits awaits] at due

theorem Leads.free {i : IslandId} {v : Part} {x : Island} {t : Take} {p : Part} (a : Leads i v x t p) (free : x.confirm = none) :
    (p.island i).confirm = none := by
  rw [a.island]
  exact free

variable {I : Part → Prop}

section
variable {j : IslandId} (K : Toils j I)
include K

theorem commitTake_toils (o : TakeOutcome) (l : Option Int) {p : Part} (free : (p.island j).confirm = none) (a : I p) :
    I (commitTake j o l p) := by
  unfold commitTake
  split
  · exact a
  · exact K.post _ _ _ (K.front _ _ (K.commit _ _ _ _ free a))

theorem cutSoon_toils {p : Part} (a : I p) : I (cutSoon j p) := K.refresh _ _ (K.front _ _ a)

theorem convertNow_toils {p : Part} (a : I p) : I (convertNow j p) := by
  unfold convertNow
  split
  · exact a
  · split
    · exact a
    · split
      · exact ite_keeps (cutSoon_toils K (K.front _ _ a)) (K.refresh _ _ (K.front _ _ a))
      · exact a

theorem startRequest_toils (h : HeadId) {p : Part} (a : I p) : I (startRequest h p) := by
  by_cases rest : (p.head h).drive.atRest = true
  · exact K.start h p rest a
  · rw [startRequest, if_neg rest]
    exact a

theorem sendStart_toils {p : Part} (a : I p) : I (sendStart j p) := by
  unfold sendStart
  split
  · exact a
  · split
    · exact ite_keeps (startRequest_toils K _ a) a
    · exact a

theorem followRunning_toils {p : Part} (a : I p) : I (followRunning j p) := by
  unfold followRunning
  split
  · exact a
  · split
    · exact ite_keeps (K.front _ _ a) a
    · exact a

theorem becomeReady_toils {p : Part} (a : I p) : I (becomeReady j p) := by
  have ready : I (p.modFront j fun t => { t with state := .ready }) := K.front _ _ a
  unfold becomeReady
  dsimp only
  split
  · exact ready
  · rename_i u active
    have formed : I (if u.effective = .now then cutSoon j (p.modFront j fun t => { t with state := .ready })
        else refreshTake j (p.modFront j fun t => { t with state := .ready })) :=
      ite_keeps (cutSoon_toils K ready) (K.refresh _ _ ready)
    split
    · exact formed
    · exact K.post _ _ _ formed

theorem judgeReady_toils {p : Part} (a : I p) : I (judgeReady j p) := by
  unfold judgeReady
  split
  · exact a
  · exact ite_keeps (becomeReady_toils K a) (ite_keeps (K.front _ _ a) a)

theorem retarget_toils {p : Part} (a : I p) : I (retarget j p) := by
  unfold retarget
  split
  · exact a
  · rename_i t active
    split
    · exact a
    · split
      · exact K.front _ _ a
      · rename_i sop
        dsimp only
        split
        · have slipped := (leads_of_active active).modFront
            (f := Take.aimed (p.leadField j) p.ref.count) (Island.active_eq_some.1 active).2
          split
          · exact K.refresh _ _ (K.front _ _ a)
          · rename_i free
            exact commitTake_toils K _ _ (slipped.refresh.free (free_of_not_awaits free)) (K.refresh _ _ (K.front _ _ a))
        · exact K.refresh _ _ (K.front _ _ a)

theorem evalTake_toils {p : Part} (a : I p) : I (evalTake j p) :=
  retarget_toils K (judgeReady_toils K (followRunning_toils K (sendStart_toils K (convertNow_toils K a))))

theorem enterHeld_toils {p : Part} (a : I p) : I (enterHeld j p) := by
  unfold enterHeld
  split
  · exact a
  · dsimp only
    split
    · exact evalTake_toils K (ite_keeps (startRequest_toils K _ (K.front _ _ a)) (K.front _ _ a))
    · exact evalTake_toils K (K.front _ _ a)

theorem takeCommitField_toils {p : Part} (free : (p.island j).confirm = none) (a : I p) : I (takeCommitField j p) := by
  cases active : (p.island j).active with
  | none =>
    unfold takeCommitField
    rw [active]
    exact a
  | some t =>
    have late := (leads_of_active active).modFront (f := Take.late p (p.island j)) (Island.active_eq_some.1 active).2
    obtain ⟨q, kept, leads, is⟩ : ∃ q, I q ∧ Leads j p (p.island j) (t.recut p (p.island j)) q ∧
        takeCommitField j p = match (q.island j).active with
          | none => q
          | some t =>
            match t.decide (q.island j) with
            | .cut outcome lost => commitTake j outcome lost q
            | .hold => enterHeld j q := by
      by_cases prompt : t.commitAt = some p.ref.count
      · refine ⟨p, a, ?_, ?_⟩
        · rw [Take.recut, if_pos prompt]
          exact leads_of_active active
        · simp only [takeCommitField, active, prompt, if_true] <;> rfl
      · refine ⟨judgeReady j (refreshTake j (p.modFront j (Take.late p (p.island j)))),
          judgeReady_toils K (K.refresh _ _ (K.front _ _ a)), ?_, ?_⟩
        · rw [Take.recut, if_neg prompt]
          exact late.refresh.judgeReady
        · simp only [takeCommitField, active, prompt, if_false] <;> rfl
    rw [is, leads.active]
    dsimp only
    split
    · exact commitTake_toils K _ _ (leads.free free) kept
    · exact enterHeld_toils K kept

theorem takeStartField_toils {p : Part} (a : I p) : I (takeStartField j p) := by
  unfold takeStartField
  split
  · exact evalTake_toils K (startRequest_toils K _ (K.front _ _ a))
  · exact a

theorem meetStart_toils {p : Part} (a : I p) : I (meetStart j p) := ite_keeps (takeStartField_toils K a) a

theorem meetCommit_toils {p : Part} (a : I p) : I (meetCommit j p) := by
  unfold meetCommit
  split
  · rename_i due
    exact takeCommitField_toils K (commitDue_free due) a
  · exact a

theorem workTake_toils {p : Part} (a : I p) : I (workTake j p) := meetCommit_toils K (meetStart_toils K (evalTake_toils K a))

theorem enterTake_toils (out : Source) {p : Part} (a : I p) : I (enterTake j out p) := by
  unfold enterTake
  rw [formCut_eq]
  have formed : ∀ f, I (convertNow j (refreshTake j (Part.modFront j f (p.modFront j (Take.formed p j out false))))) := fun f =>
    convertNow_toils K (K.refresh _ _ (K.front _ _ (K.front _ _ a)))
  dsimp only
  split
  · exact formed _
  · exact workTake_toils K (K.post _ _ _ (formed _))

theorem activate_toils (n : Nat) : ∀ {p : Part}, I p → I (activate n j p) := by
  induction n with
  | zero => exact fun a => a
  | succ n ih =>
    intro p a
    unfold activate
    split
    · exact a
    · exact ite_keeps a (ite_keeps (ih (K.ends _ _ _ (K.front _ _ a)))
        (ite_keeps (ih (K.ends _ _ _ (K.front _ _ a))) (enterTake_toils K _ a)))

theorem endActive_toils (o : TakeOutcome) (r : Reason) {p : Part} (a : I p) : I (endActive j o r p) :=
  activate_toils K _ (K.ends _ _ _ a)

theorem incomingFailed_toils (h : HeadId) (r : Reason) {p : Part} (a : I p) : I (incomingFailed j h r p) := by
  unfold incomingFailed
  split
  · exact a
  · exact ite_keeps (endActive_toils K _ _ a) a

theorem onAirStop_toils {p : Part} (a : I p) : I (onAirStop j p) := by
  unfold onAirStop
  split
  · exact a
  · rename_i free
    exact K.commit _ _ _ _ (free_of_not_awaits free) a

theorem onAirFault_toils {p : Part} (a : I p) : I (onAirFault j p) := by
  unfold onAirFault
  split
  · exact a
  · rename_i acts
    have free := free_of_not_awaits (not_or.1 acts).2
    split
    · rename_i t active
      dsimp only
      split
      · have slipped := (leads_of_active active).modFront (f := fun t => { t with slip := t.slipTo (p.leadField j) })
          (Island.active_eq_some.1 active).2
        exact commitTake_toils K _ _ (slipped.cutSoon.free free) (cutSoon_toils K (K.front _ _ a))
      · exact K.commit _ _ _ _ free a
    · exact K.commit _ _ _ _ free a

theorem meetGuard_toils {p : Part} (a : I p) : I (meetGuard j p) := by
  unfold meetGuard
  split
  · rename_i due
    have free := guardDue_free due
    unfold takeGuard closeGuard raiseFallBack fallBack
    dsimp only
    split
    · exact a
    · exact K.raise _ _ _ _ _ (by split <;> simp) (ite_keeps (K.ends _ _ _ (K.commit _ _ _ _ free a)) (K.commit _ _ _ _ free a))
  · exact a

end

end Sys2Proof.Machine
end

section
/-! PROOFS. An active take whose fields are not reached waits on while the scheduler works: it neither commits nor ends (R97 to R100). -/

namespace Sys2Proof.Machine

/-- Field `n` fields before `f` is not reached. -/
def RefUnit.before (r : RefUnit) (n : Nat) (f : Stamp) : Prop := reached r.count (Stamp.minus f n) = false

/-- The commit field of a take is not reached. -/
def Take.Undue (v : Part) (u : Take) : Prop := ∀ c, u.commitAt = some c → reached v.ref.count c = false

/-- How the state of a take that waits may stand to the state it had (R97, R98). -/
def Take.StateWaits (v : Part) (t u : Take) : Prop :=
  (t.state = .held ∧ u.state = .held) ∨ (t.incoming = .standby ∧ t.state = .ready ∧ u.state = .ready) ∨
  ∃ k, t.incoming = .head k ∧
    ((t.state = .armed ∧ (u.state = .armed ∨ u.state = .starting) ∧ (v.head k).drive ≠ .locked) ∨
     (t.state = .starting ∧ u.state = .starting ∧ (v.head k).drive ≠ .locked) ∨
     ((t.state = .starting ∧ (v.head k).drive = .locked ∨ t.state = .ready) ∧
       (u.state = .ready ∨ u.state = .starting ∧ (u.effective ≠ .now ∨ (v.head k).drive ≠ .locked))))

/-- The active take `t`, as `u`, waits: its cut follows nothing but head `h`, which has left the running states, and no field of its
cut is reached. `n` is the switch-over lead M of its island. -/
structure Take.Waits (h : HeadId) (v : Part) (n : Nat) (t u : Take) : Prop where
  tag : u.tag = t.tag
  incoming : u.incoming = t.incoming
  cut : ∀ r, u.cut = some r → r.head = h ∧ r.value = none ∧ r.basis ≠ .reached
  fCut : ∀ f, u.fCut = some f → v.ref.before n f
  sop : u.state = .held → ∀ f, u.heldSop v = some f → v.ref.before n f
  state : t.StateWaits v u

section
variable {h : HeadId} {v : Part} {n : Nat} {t u : Take}

/-- A change that leaves the sources, the cut record and F_sop, and does not make the take HELD anew. -/
theorem Take.Waits.of_same (a : t.Waits h v n u) {w : Take} (tag : w.tag = u.tag) (incoming : w.incoming = u.incoming) (sop : w.sop = u.sop)
    (cut : w.cut = u.cut ∨ w.cut = none) (fCut : ∀ f, w.fCut = some f → v.ref.before n f) (held : w.state = .held → u.state = .held)
    (state : t.StateWaits v w) : t.Waits h v n w where
  tag := tag.trans a.tag
  incoming := incoming.trans a.incoming
  cut r is := cut.elim (fun same => a.cut r (same.symm.trans is)) fun none => nomatch none.symm.trans is
  fCut := fCut
  sop is f value := a.sop (held is) f (by rwa [Take.heldSop, Take.head?, incoming, sop] at value)
  state := state

theorem Take.StateWaits.of_same {w : Take} (a : t.StateWaits v u) (state : w.state = u.state) (effective : w.effective = u.effective) :
    t.StateWaits v w := by
  unfold Take.StateWaits
  rw [state, effective]
  exact a

theorem Take.Waits.refreshed_fCut (a : t.Waits h v n u) {f : Stamp} (is : (u.refreshed v n).fCut = some f) : v.ref.before n f := by
  rw [Take.refreshed_fCut, Take.figures] at is
  cases cut : u.cut with
  | none => exact a.fCut f (by simpa [cut] using is)
  | some r => simp [cut, (a.cut r cut).2.1] at is

theorem Take.Waits.refreshed (a : t.Waits h v n u) : t.Waits h v n (u.refreshed v n) :=
  a.of_same (Take.refreshed_tag v n u) (Take.refreshed_incoming v n u) (Take.refreshed_sop v n u) (.inl (Take.refreshed_cut v n u))
    (fun _ is => a.refreshed_fCut is) (fun is => (Take.refreshed_state v n u).symm.trans is)
    (a.state.of_same (Take.refreshed_state v n u) (Take.refreshed_effective v n u))

/-- The recomputed commit field of a take that is not HELD lies M before its F_cut. -/
theorem Take.Waits.undue (a : t.Waits h v n u) (unheld : u.state ≠ .held) : (u.refreshed v n).Undue v := by
  intro c is
  have pending : u.state = .armed ∨ u.state = .starting ∨ u.state = .ready := by
    obtain held | ready | ⟨k, -, armed | starting | judged⟩ := a.state
    · exact absurd held.2 unheld
    · exact .inr (.inr ready.2.2)
    · exact armed.2.1.imp_right .inl
    · exact .inr (.inl starting.2.1)
    · exact .inr (judged.2.symm.imp_left And.left)
  have field : (u.refreshed v n).commitAt = (u.refreshed v n).fCut.map fun c => Stamp.minus c n := by
    rw [Take.refreshed_commitAt, Take.refreshed_fCut]
    obtain state | state | state := pending <;> simp only [Take.figures, state]
  rw [field] at is
  obtain ⟨f, value, rfl⟩ := Option.map_eq_some_iff.1 is
  exact a.refreshed_fCut value

theorem Take.Undue.of_same {w : Take} (a : u.Undue v) (same : w.commitAt = u.commitAt) : w.Undue v := fun c is =>
  a c (same.symm.trans is)

/-- The judgement of a take that waits (R98): one that becomes READY is not NOW. -/
theorem Take.Waits.judged (a : t.Waits h v n u) {x : Island} (lead : x.settings.lead = n) :
    t.Waits h v n (u.judged v x) ∧ (u.state ≠ .held → u.Undue v → (u.judged v x).Undue v) := by
  unfold Take.judged
  split
  · rename_i is
    obtain ⟨starting, may⟩ := is
    obtain held | ready | ⟨k, incoming, armed | still | judged⟩ := a.state
    · exact absurd (starting.symm.trans held.2) nofun
    · exact absurd (starting.symm.trans ready.2.2) nofun
    · exact absurd may (by rw [mayReady_unlocked (a.incoming.trans incoming) armed.2.2]; exact nofun)
    · exact absurd may (by rw [mayReady_unlocked (a.incoming.trans incoming) still.2.2]; exact nofun)
    · have locked : (v.head k).drive = .locked := by
        by_contra unlocked
        rw [mayReady_unlocked (a.incoming.trans incoming) unlocked] at may
        exact nomatch may
      have later : u.effective ≠ .now := by
        obtain ready | ⟨-, later | unlocked⟩ := judged.2
        · exact absurd (starting.symm.trans ready) nofun
        · exact later
        · exact absurd locked unlocked
      rw [if_neg later, lead]
      have ready : t.Waits h v n { u with state := .ready } :=
        a.of_same rfl rfl rfl (.inl rfl) a.fCut nofun (.inr (.inr ⟨k, incoming, .inr (.inr ⟨judged.1, .inl rfl⟩)⟩))
      exact ⟨ready.refreshed, fun _ _ => ready.undue nofun⟩
  · split
    · rename_i is
      obtain ⟨ready, may⟩ := is
      refine ⟨a.of_same rfl rfl rfl (.inl rfl) a.fCut nofun ?_, fun _ undue => undue.of_same rfl⟩
      obtain held | standby | ⟨k, incoming, armed | still | judged⟩ := a.state
      · exact absurd (ready.symm.trans held.2) nofun
      · exact absurd (by rw [Take.staysReady, a.incoming, standby.1]) may
      · exact absurd armed.2.1 (by rw [ready]; exact nofun)
      · exact absurd (ready.symm.trans still.2.1) nofun
      · refine .inr (.inr ⟨k, incoming, .inr (.inr ⟨judged.1, .inr ⟨rfl, ?_⟩⟩)⟩)
        by_cases locked : (v.head k).drive = .locked
        · refine .inl fun now => may ?_
          rw [staysReady_head (a.incoming.trans incoming) locked, now]
          rfl
        · exact .inr locked
    · exact ⟨a, fun _ undue => undue⟩

end

/-! ### A start of another head -/

/-- What a start of head `k` leaves of the part's heads and field count. -/
structure SetsOff (k : HeadId) (v w : Part) : Prop where
  rest : (v.head k).drive.atRest = true
  runup : (w.head k).drive = .runup
  others : ∀ j, j ≠ k → w.head j = v.head j
  ref : w.ref = v.ref

/-- The record of an F_sop whose head enters RUNUP is not EXACT (R84). -/
theorem Pred.atStart_inexact {w : Part} {r : Pred} (runup : (w.head r.head).drive = .runup) :
    (Pred.atStart w .sop r).basis ≠ .exact := by
  unfold Pred.atStart
  split
  · rename_i reached
    rw [reached]
    exact nofun
  · split
    · exact nofun
    · unfold Pred.ahead
      dsimp only
      rw [runup]
      exact nofun

theorem SetsOff.locked {k j : HeadId} {v w : Part} (a : SetsOff k v w) (locked : (w.head j).drive = .locked) :
    j ≠ k ∧ (v.head j).drive = .locked := by
  have other : j ≠ k := fun same => by
    rw [same, a.runup] at locked
    exact nomatch locked
  exact ⟨other, a.others j other ▸ locked⟩

theorem SetsOff.moving {k j : HeadId} {v w : Part} (a : SetsOff k v w) (moving : (v.head j).drive.atRest = false) :
    j ≠ k ∧ w.head j = v.head j := by
  have other : j ≠ k := fun same => by
    rw [same, a.rest] at moving
    exact nomatch moving
  exact ⟨other, a.others j other⟩

theorem Leads.setsOff {i : IslandId} {v : Part} {x : Island} {t : Take} {p : Part} (a : Leads i v x t p) {k : HeadId}
    (rest : (v.head k).drive.atRest = true) : ∃ w, SetsOff k v w ∧ Leads i w (x.mapEnd k (Pred.atStart w))
      ((t.mapPreds k (Pred.atStart w)).refreshed w x.settings.lead) (Machine.startRequest k p) := by
  obtain ⟨head, others, ref, leads⟩ := a.startRequest rest
  exact ⟨_, ⟨rest, by rw [head]; rfl, others, ref⟩, leads⟩

section
variable {h k : HeadId} {v w : Part} {n : Nat} {t u : Take}

/-- The exact F_sop of a HELD take is untouched by a start. -/
theorem SetsOff.heldSop (s : SetsOff k v w) {f : Stamp} (is : (u.mapPreds k (Pred.atStart w)).heldSop w = some f) : u.heldSop v = some f := by
  unfold Take.heldSop at is ⊢
  rw [show (u.mapPreds k (Pred.atStart w)).head? = u.head? from rfl] at is
  cases head : u.head? with
  | none => simp [head] at is
  | some j =>
    cases sop : u.sop with
    | none => simp [head, sop, Take.mapPreds] at is
    | some r =>
      simp only [head, sop, Take.mapPreds, Option.map_some] at is ⊢
      split at is
      · rename_i exact_
        obtain ⟨locked, basis⟩ := exact_
        unfold followedBy at basis is
        by_cases its : r.head = k
        · rw [if_pos its] at basis
          exact absurd basis (Pred.atStart_inexact (by rw [its]; exact s.runup))
        · rw [if_neg its] at basis is
          rw [if_pos ⟨(s.locked locked).2, basis⟩]
          exact is
      · exact nomatch is

theorem SetsOff.stateWaits (s : SetsOff k v w) {u' : Take} (a : t.StateWaits v u) (state : u'.state = u.state)
    (effective : u'.effective = u.effective) : t.StateWaits w u' := by
  refine Take.StateWaits.of_same ?_ state effective
  refine a.imp_right (.imp_right fun ⟨j, incoming, cases⟩ => ⟨j, incoming, ?_⟩)
  have unlocked : (v.head j).drive ≠ .locked → (w.head j).drive ≠ .locked := fun u l => u (s.locked l).2
  have locked : (v.head j).drive = .locked → (w.head j).drive = .locked := fun l => by
    rw [(s.moving (by rw [l]; rfl)).2]
    exact l
  exact cases.imp (.imp_right (.imp_right unlocked)) (.imp (.imp_right (.imp_right unlocked))
    (.imp (.imp_left (.imp_right locked)) (.imp_right (.imp_right (.imp_right unlocked)))))

theorem Take.Waits.started (a : t.Waits h v n u) (moving : (v.head h).drive.atRest = false) (s : SetsOff k v w) :
    t.Waits h w n (u.mapPreds k (Pred.atStart w)) where
  tag := a.tag
  incoming := a.incoming
  cut r is := by
    obtain ⟨r', cut, rfl⟩ := Option.map_eq_some_iff.1 is
    obtain ⟨its, value, basis⟩ := a.cut r' cut
    rw [followedBy, if_neg fun same => (s.moving moving).1 (its.symm.trans same)]
    exact ⟨its, value, basis⟩
  fCut f is := by
    rw [s.ref]
    exact a.fCut f is
  sop held f is := by
    rw [s.ref]
    exact a.sop held f (s.heldSop is)
  state := s.stateWaits a.state rfl rfl

end

/-! ### The work of the island on a take that waits -/

/-- An F_end record follows head `h`, if any, and the field `n` fields before it is not reached (R105). -/
def EndRests (h : HeadId) (r : RefUnit) (n : Nat) (e : Option Pred) : Prop :=
  ∀ d, e = some d → d.head = h ∧ ∀ f, d.value = some f → r.before n f

/-- Island `i` stands as `x` with its active take `t`, as `u`, waiting; head `h`, which its cut follows, is not at rest. -/
structure Bides (i : IslandId) (h : HeadId) (x : Island) (t : Take) (v : Part) (u : Take) (p : Part) : Prop where
  leads : ∃ e, Leads i v { x with fEnd := e } u p ∧ EndRests h v.ref x.settings.lead e
  waits : t.Waits h v x.settings.lead u
  moving : (v.head h).drive.atRest = false

section
variable {i : IslandId} {h : HeadId} {x : Island} {t u : Take} {v p : Part} (a : Bides i h x t v u p)
include a

theorem Bides.active : (p.island i).active = some u := let ⟨_, leads, _⟩ := a.leads; leads.active

theorem Bides.heads (k : HeadId) : p.head k = v.head k := let ⟨_, leads, _⟩ := a.leads; leads.heads k

theorem Bides.frame {q : Part} {bs : List Block} (same : ChangesOnly bs p q) (island : .island i ∉ bs) (heads : ∀ h, .head h ∉ bs)
    (ref : Block.ref ∉ bs) : Bides i h x t v u q :=
  let ⟨e, leads, rests⟩ := a.leads
  ⟨⟨e, leads.frame same island heads ref, rests⟩, a.waits, a.moving⟩

theorem Bides.modFront {f : Take → Take} (past : (f u).state ≠ .queued) (waits : t.Waits h v x.settings.lead (f u)) :
    Bides i h x t v (f u) (p.modFront i f) :=
  let ⟨e, leads, rests⟩ := a.leads
  ⟨⟨e, leads.modFront past, rests⟩, waits, a.moving⟩

theorem Bides.refresh : Bides i h x t v (u.refreshed v x.settings.lead) (refreshTake i p) :=
  let ⟨e, leads, rests⟩ := a.leads
  ⟨⟨e, leads.refresh, rests⟩, a.waits.refreshed, a.moving⟩

theorem Bides.startRequest {k : HeadId} (rest : (v.head k).drive.atRest = true) :
    ∃ w w', SetsOff k v w ∧ w'.state = u.state ∧ (u.state ≠ .held → w'.Undue w) ∧ Bides i h x t w w' (Machine.startRequest k p) := by
  obtain ⟨e, leads, rests⟩ := a.leads
  obtain ⟨w, off, started⟩ := leads.setsOff rest
  have waits := a.waits.started a.moving off
  refine ⟨w, (u.mapPreds k (Pred.atStart w)).refreshed w x.settings.lead, off, Take.refreshed_state _ _ _,
    fun unheld => waits.undue unheld, ⟨_, started, ?_⟩, waits.refreshed, ?_⟩
  · intro d is
    obtain ⟨r, known, rfl⟩ := Option.map_eq_some_iff.1 is
    obtain ⟨its, before⟩ := rests r known
    rw [followedBy, if_neg fun same => (off.moving a.moving).1 (its.symm.trans same), off.ref]
    exact ⟨its, before⟩
  · rw [(off.moving a.moving).2]
    exact a.moving

theorem Bides.convertNow : convertNow i p = p := by
  obtain ⟨e, leads, -⟩ := a.leads
  exact leads.convertNow_stays fun _ r is reached => absurd reached (a.waits.cut r is).2.2

/-- The take as it stands, with its commit field, unless it is HELD, not reached. -/
def Bides.Ready (i : IslandId) (h : HeadId) (x : Island) (t : Take) (p : Part) : Prop :=
  ∃ v u, Bides i h x t v u p ∧ (u.state ≠ .held → u.Undue v)

theorem Bides.sendStart (undue : u.state ≠ .held → u.Undue v) : Bides.Ready i h x t (sendStart i p) := by
  unfold Machine.sendStart
  rw [a.active]
  dsimp only
  split
  · rename_i k is
    split
    · rename_i starts
      obtain ⟨w, w', -, state, undue, bides⟩ := a.startRequest (k := k) (by rw [← a.heads]; exact starts.2.2.2)
      exact ⟨w, w', bides, fun unheld => undue fun held => unheld (state.trans held)⟩
    · exact ⟨v, u, a, undue⟩
  · exact ⟨v, u, a, undue⟩

theorem Bides.followRunning (undue : u.state ≠ .held → u.Undue v) : Bides.Ready i h x t (followRunning i p) := by
  unfold Machine.followRunning
  rw [a.active]
  dsimp only
  split
  · rename_i k is
    split
    · rename_i armed
      refine ⟨v, _, a.modFront (f := fun t => { t with state := .starting }) nofun
        (a.waits.of_same rfl rfl rfl (.inl rfl) a.waits.fCut nofun ?_), fun _ => (undue (by rw [armed.1]; exact nofun)).of_same rfl⟩
      obtain held | ready | ⟨k, incoming, waits | still | judged⟩ := a.waits.state
      · exact absurd (armed.1.symm.trans held.2) nofun
      · exact absurd (armed.1.symm.trans ready.2.2) nofun
      · exact .inr (.inr ⟨k, incoming, .inl ⟨waits.1, .inr rfl, waits.2.2⟩⟩)
      · exact absurd (armed.1.symm.trans still.2.1) nofun
      · exact absurd judged.2 (by rw [armed.1]; simp)
    · exact ⟨v, u, a, undue⟩
  · exact ⟨v, u, a, undue⟩

theorem Bides.judgeReady (undue : u.state ≠ .held → u.Undue v) : Bides.Ready i h x t (judgeReady i p) := by
  obtain ⟨e, leads, rests⟩ := a.leads
  obtain ⟨waits, later⟩ := a.waits.judged (x := { x with fEnd := e }) rfl
  refine ⟨v, _, ⟨⟨e, leads.judgeReady, rests⟩, waits, a.moving⟩, fun unheld => later ?_ (undue ?_)⟩ <;>
    exact fun held => unheld (by rw [Take.judged_state, held]; rfl)

theorem Bides.retarget (undue : u.state ≠ .held → u.Undue v) : ∃ w, Bides i h x t v w (retarget i p) ∧ w.Undue v := by
  obtain ⟨e, leads, rests⟩ := a.leads
  by_cases held : u.state = .held
  · cases is : u.heldSop v with
    | none =>
      exact ⟨_, ⟨⟨e, leads.retarget_waits held is, rests⟩, a.waits.of_same rfl rfl rfl (.inl rfl) a.waits.fCut id
        (a.waits.state.of_same rfl rfl), a.moving⟩, nofun⟩
    | some sop =>
      have before := a.waits.sop held sop is
      have aimed : t.Waits h v x.settings.lead (u.aimed sop (Stamp.minus sop x.settings.lead)) :=
        a.waits.of_same rfl rfl rfl (.inl rfl) (fun f is => by cases is; exact before) id (a.waits.state.of_same rfl rfl)
      refine ⟨_, ⟨⟨e, leads.retarget_follows held is before, rests⟩, aimed.refreshed, a.moving⟩, fun c is => ?_⟩
      rw [Take.refreshed_commitAt, Take.figures, show (u.aimed sop (Stamp.minus sop x.settings.lead)).state = .held from held] at is
      cases is
      exact before
  · rw [leads.retarget_stays held]
    exact ⟨u, a, undue held⟩

theorem Bides.evalTake (undue : u.state ≠ .held → u.Undue v) : ∃ w w', Bides i h x t w w' (evalTake i p) ∧ w'.Undue w := by
  unfold Machine.evalTake
  rw [a.convertNow]
  obtain ⟨v1, u1, sent, undue1⟩ := a.sendStart undue
  obtain ⟨v2, u2, followed, undue2⟩ := sent.followRunning undue1
  obtain ⟨v3, u3, judged, undue3⟩ := followed.judgeReady undue2
  obtain ⟨w, aimed, undue4⟩ := judged.retarget undue3
  exact ⟨v3, w, aimed, undue4⟩

theorem Bides.meetStart (undue : u.Undue v) : ∃ w w', Bides i h x t w w' (meetStart i p) ∧ w'.Undue w := by
  unfold Machine.meetStart
  split
  · rename_i due
    have planned : (u.planned p).isSome = true := by
      unfold startDue at due
      rw [a.active] at due
      exact (Bool.and_eq_true_iff.1 due).1
    unfold takeStartField Take.planned at *
    rw [a.active]
    dsimp only [Option.bind_some]
    cases head : u.head? with
    | none => simp [head] at planned
    | some k =>
      dsimp only
      simp only [head] at planned
      split at planned
      · rename_i armed
        have starting : t.Waits h v x.settings.lead { u with state := .starting } := by
          refine a.waits.of_same rfl rfl rfl (.inl rfl) a.waits.fCut nofun ?_
          obtain held | ready | ⟨k, incoming, waits | still | judged⟩ := a.waits.state
          · exact absurd (armed.1.symm.trans held.2) nofun
          · exact absurd (armed.1.symm.trans ready.2.2) nofun
          · exact .inr (.inr ⟨k, incoming, .inl ⟨waits.1, .inr rfl, waits.2.2⟩⟩)
          · exact absurd (armed.1.symm.trans still.2.1) nofun
          · exact absurd judged.2 (by rw [armed.1]; simp)
        obtain ⟨w, w', -, state, undue, bides⟩ :=
          (a.modFront (f := fun t => { t with state := .starting }) nofun starting).startRequest (k := k)
            (by rw [← a.heads]; exact armed.2.2.2)
        exact bides.evalTake fun unheld => undue fun held => unheld (state.trans held)
      · exact nomatch planned
  · exact ⟨v, u, a, undue⟩

theorem Bides.workTake (undue : u.state ≠ .held → u.Undue v) : ∃ w w', Bides i h x t w w' (workTake i p) := by
  obtain ⟨v1, u1, evaluated, undue1⟩ := a.evalTake undue
  obtain ⟨v2, u2, met, undue2⟩ := evaluated.meetStart undue1
  obtain ⟨e, leads, -⟩ := met.leads
  exact ⟨v2, u2, by rw [Machine.workTake, meetCommit_undue (leads.undue undue2)]; exact met⟩

end

end Sys2Proof.Machine
end

section
/-! PROOFS. How many events a step of the scheduler can post: no more than the takes still have to tell of (R81, R97, R98, R101, R181). -/

namespace Sys2Proof.Machine

/-- At most `k` events wait. -/
structure Few (k : Nat) (p : Part) : Prop where
  few : p.evt.queue.length ≤ k

section
variable {k n : Nat} {p q : Part}

theorem Few.mono (a : Few k p) (le : k ≤ n) : Few n p := ⟨Nat.le_trans a.few le⟩

theorem Few.of_evt (a : Few k p) (same : q.evt = p.evt) : Few k q := ⟨same ▸ a.few⟩

theorem Few.post (a : Few k p) (s : AlarmSource) (e : EventItem) : Few (k + 1) (post s e p) := by
  unfold Machine.post
  split
  · have joined : Few (k + 1) { p with evt := { p.evt with queue := p.evt.queue ++ [⟨s, p.ref.count, e⟩] } } :=
      ⟨by simpa using a.few⟩
    unfold pumpEvents
    split
    · exact joined
    · rename_i rest waits
      split
      · have le := joined.few
        rw [waits] at le
        exact ⟨by rw [(submit_leaves _ _).1.evt]; exact Nat.le_of_succ_le le⟩
      · exact joined
  · exact ⟨Nat.le_succ_of_le a.few⟩

theorem Few.ite {c : Prop} [Decidable c] (x : Few k p) (y : Few k q) : Few k (if c then p else q) := ite_keeps x y

theorem Few.judge (a : Few k p) : Few k (judgeHorn p) := ⟨a.few⟩

theorem Few.alarms (a : Few k p) (t : AlarmTable) : Few k { p with alarms := t } := ⟨a.few⟩

theorem enterAlarm_few (a : Few k p) (s : AlarmSource) (n : AlarmKind) (x : EntryState) (d1 d2 : Word) :
    Few (k + 1) (enterAlarm s n x d1 d2 p) := (a.alarms _).post s _

theorem addAlarm_few (a : Few k p) (s : AlarmSource) (n : AlarmKind) (x : EntryState) (d1 d2 : Word) :
    Few (k + 2) (addAlarm s n x d1 d2 p) := by
  unfold addAlarm
  split
  · exact (enterAlarm_few a s n x d1 d2).mono (Nat.le_succ _)
  · split
    · exact enterAlarm_few ((a.alarms _).post _ _) s n x d1 d2
    · exact ((a.alarms _).post _ _).mono (Nat.le_succ _)

theorem Few.raise (a : Few k p) (s : AlarmSource) (n : AlarmKind) (d1 d2 : Word) : Few (k + 2) (raiseAlarm s n d1 d2 p) := by
  unfold raiseAlarm
  refine Few.judge ?_
  split
  · exact addAlarm_few a s n _ d1 d2
  · exact (a.post _ _).mono (Nat.le_succ _)
  · exact addAlarm_few a s n _ d1 d2
  · split
    · exact ((a.alarms _).post _ _).mono (Nat.le_succ _)
    · exact a.mono (Nat.le_add_right _ _)
    · exact a.mono (Nat.le_add_right _ _)

theorem Few.clear (a : Few k p) (s : AlarmSource) (n : AlarmKind) (d1 d2 : Word) : Few (k + 1) (clearAlarm s n d1 d2 p) := by
  unfold clearAlarm
  refine Few.judge ?_
  split
  · exact a.mono (Nat.le_succ _)
  · split
    · exact (a.alarms _).post _ _
    · exact (a.alarms _).post _ _
    · exact a.mono (Nat.le_succ _)

theorem lampChanged_few (h : HeadId) (a : Few k p) : Few (k + 1) (lampChanged h p) := by
  unfold lampChanged
  split
  · exact a.mono (Nat.le_succ _)
  · dsimp only
    split
    · exact Few.clear (a.of_evt (by exact rfl)) _ _ _ _
    · exact Few.mono (a.of_evt (by exact rfl)) (Nat.le_succ _)

/-- A START tells of the drive state, and may end a lamp alarm. -/
theorem startDrive_few {h : HeadId} (rest : (p.head h).drive.atRest = true) (a : Few k p) (c : Cause) : Few (k + 2) (startDrive h c p) := by
  have noted : Few k (p.modCadence h fun c => c.started p.ref.count (p.head h).pos.frame) := a.of_evt rfl
  have still : ((p.modCadence h fun c => c.started p.ref.count (p.head h).pos.frame).head h).drive = (p.head h).drive := by
    rw [modCadence_head]
  unfold startDrive enterDrive
  dsimp only
  simp only [still, atRest_running rest, atRest_driven rest, Bool.false_and, Bool.false_eq_true, if_false]
  exact Few.ite (Few.mono (Few.post (noted.of_evt (by exact rfl)) _ _) (Nat.le_succ _))
    (lampChanged_few h (Few.post (noted.of_evt (by exact rfl)) _ _))

theorem reportLate_few (e : Entry) (n : Nat) (a : Few k p) : Few (k + 1) (reportLate e n p) := by
  unfold reportLate
  split
  · exact .ite (a.post _ _) (a.mono (Nat.le_succ _))
  · exact a.mono (Nat.le_succ _)

theorem pumpLink_few (a : Few k p) : Few (k + 1) (pumpLink p) := by
  have joined := a.of_evt (joinPolls_evt p)
  refine Few.of_evt ?_ (joinPolls_evt _)
  unfold selectEntry
  split
  · unfold beginTransaction
    exact .ite (reportLate_few _ _ (joined.of_evt rfl)) (Few.mono (joined.of_evt rfl) (Nat.le_succ _))
  · exact joined.mono (Nat.le_succ _)

theorem submitMove_few (a : Few k p) (i : IslandId) (q : Port) (f : Stamp) : Few (k + 1) (submitMove i q f p) := by
  have dropped : ∀ q : Part, Few k q → Few k (dropPoll q) := by
    intro q b
    unfold dropPoll
    split
    · exact b
    · split
      · exact b.of_evt rfl
      · exact b
  have joined : Few k { p with link := { p.link with queue := joinMove i q f p.link.queue } } := a.of_evt rfl
  exact pumpLink_few ((dropped _ joined).of_evt rfl)

theorem commit_few (a : Few k p) (i : IslandId) (s : Source) (c : Stamp) (o : Owner) : Few (k + 1) (commit i s c o p) :=
  submitMove_few (a.of_evt (by exact rfl)) _ _ _

/-- A commit of the take tells TAKE_COMMIT, and the link may tell MOVE_LATE. -/
theorem commitTake_few (a : Few k p) (i : IslandId) (o : TakeOutcome) (l : Option Int) : Few (k + 2) (commitTake i o l p) := by
  unfold commitTake
  split
  · exact a.mono (Nat.le_add_right _ _)
  · exact Few.post ((commit_few a i _ _ _).of_evt (by exact rfl)) _ _

end

/-! ### What the takes still have to tell of -/

/-- The SHORT_LEADER that an active take may still tell of: its head at rest, its leader short, and not told yet (R81). -/
def Take.shorts (p : Part) (t : Take) : Nat :=
  match t.head? with
  | some h =>
    if (p.head h).drive.atRest ∧ (t.leader (p.head h)).map (shortLeader (p.head h)) = some true ∧ t.short ≠ some true then 1 else 0
  | none => 0

/-- The start of its head and the commit that an active take may still tell of (R97, R101). -/
def Take.owes (p : Part) (t : Take) : Nat :=
  (match t.head? with
    | some h => if (p.head h).drive.atRest then 2 else 0
    | none => 0) + if t.state = .committed then 0 else 2

/-- What the active take of an island may still tell of, and nothing where there is none. -/
def Part.due (p : Part) (f : Part → Take → Nat) (i : IslandId) : Nat := ((p.island i).active.map (f p)).getD 0

/-- The events that wait, with those the takes may still tell of as island `j` works, number at most `k`. -/
structure Owing (j : IslandId) (k : Nat) (p : Part) : Prop where
  few : p.evt.queue.length + p.due Take.shorts .i1 + p.due Take.shorts .i2 + p.due Take.owes j ≤ k

theorem Take.shorts_le (p : Part) (t : Take) : t.shorts p ≤ 1 := by
  unfold Take.shorts
  split
  · split <;> decide
  · exact Nat.zero_le 1

theorem Take.owes_le (p : Part) (t : Take) : t.owes p ≤ 4 := by
  unfold Take.owes
  split <;> split <;> (try split) <;> decide

theorem Part.due_le {f : Part → Take → Nat} {n : Nat} (le : ∀ p t, f p t ≤ n) (p : Part) (i : IslandId) : p.due f i ≤ n := by
  unfold Part.due
  cases (p.island i).active with
  | none => exact Nat.zero_le n
  | some t => exact le p t

theorem Part.due_active {p : Part} {i : IslandId} {t : Take} (active : (p.island i).active = some t) (f : Part → Take → Nat) :
    p.due f i = f p t := by
  rw [Part.due, active]
  rfl

section
variable {i j : IslandId} {k : Nat} {p q : Part}

theorem Owing.mono {n : Nat} (a : Owing j k p) (le : k ≤ n) : Owing j n p := ⟨Nat.le_trans a.few le⟩

theorem Owing.queued (a : Owing j k p) : Few k p := ⟨by have := a.few; omega⟩

theorem Part.due_same {f : Part → Take → Nat} {f' : Take → Take} {t : Take} (active : (p.island i).active = some t)
    (past : (f' t).state ≠ .queued) : (p.modFront i f').due f i = f (p.modFront i f') (f' t) :=
  Part.due_active (modFront_active active past) f

theorem Part.due_other {f : Part → Take → Nat} (n : i ≠ j) (f' : Take → Take) (same : ∀ t, f (p.modFront j f') t = f p t) :
    (p.modFront j f').due f i = p.due f i := by
  unfold Part.due
  rw [modFront_island_ne n, show f (p.modFront j f') = f p from funext same]

theorem Take.shorts_of_heads {p q : Part} (same : ∀ h, q.head h = p.head h) (t : Take) : t.shorts q = t.shorts p := by
  unfold Take.shorts
  split <;> simp only [same]

theorem Take.owes_of_heads {p q : Part} (same : ∀ h, q.head h = p.head h) (t : Take) : t.owes q = t.owes p := by
  unfold Take.owes
  split <;> simp only [same]

theorem Part.due_congr {f : Part → Take → Nat} (same : ∀ t, f q t = f p t) (active : (q.island i).active = (p.island i).active) :
    q.due f i = p.due f i := by
  unfold Part.due
  rw [active, show f q = f p from funext same]

/-- What a change of the front take leaves owing. -/
theorem Part.due_front {f : Part → Take → Nat} {g : Take → Take} {t : Take} (active : (p.island j).active = some t)
    (past : (g t).state ≠ .queued) (same : ∀ t, f (p.modFront j g) t = f p t) (le : f p (g t) ≤ f p t) (i : IslandId) :
    (p.modFront j g).due f i ≤ p.due f i := by
  by_cases n : i = j
  · subst n
    rw [Part.due_same active past, Part.due_active active, same]
    exact le
  · exact Nat.le_of_eq (Part.due_other n g same)

/-- A change of the front take that keeps its source, its SOP cue and its short-leader mark, and does not reopen its commit. -/
theorem Owing.modFront (a : Owing j k p) {g : Take → Take} {t : Take} (active : (p.island i).active = some t)
    (past : (g t).state ≠ .queued) (incoming : (g t).incoming = t.incoming) (sopCue : (g t).sopCue = t.sopCue)
    (short : (g t).short = t.short) (committed : t.state = .committed → (g t).state = .committed) : Owing j k (p.modFront i g) := by
  have heads := modFront_head i g p
  have head : (g t).head? = t.head? := by rw [Take.head?, incoming]; rfl
  have shorts : (g t).shorts p ≤ t.shorts p := by
    unfold Take.shorts Take.leader
    rw [head, sopCue, short]
  have owes : (g t).owes p ≤ t.owes p := by
    unfold Take.owes
    rw [head]
    refine Nat.add_le_add_left ?_ _
    split
    · exact Nat.zero_le _
    · rename_i open_
      rw [if_neg fun is => open_ (committed is)]
  have le1 := Part.due_front (f := Take.shorts) active past (Take.shorts_of_heads heads) shorts .i1
  have le2 := Part.due_front (f := Take.shorts) active past (Take.shorts_of_heads heads) shorts .i2
  have le3 := Part.due_front (f := Take.owes) active past (Take.owes_of_heads heads) owes j
  have evt : (p.modFront i g).evt = p.evt := rfl
  exact ⟨by have := a.few; rw [evt]; omega⟩

theorem Take.planned_rest {t : Take} {h : HeadId} (planned : t.planned p = some h) : t.head? = some h ∧ (p.head h).drive.atRest = true := by
  unfold Take.planned at planned
  split at planned
  · split at planned
    · rename_i is
      cases planned
      exact ⟨‹_›, is.2.2.2⟩
    · exact nomatch planned
  · exact nomatch planned

/-- A take with its start field and its short-leader mark as they are recomputed (R81). -/
def Take.plannedAt (f : Stamp) (d : Option Bool) (u : Take) : Take :=
  { u with fStart := some f, short := if d.isSome then d else u.short }

/-- A post is paid by what the front take no longer owes. -/
theorem Owing.pays (a : Owing j k p) {t : Take} {g : Take → Take} (active : (p.island i).active = some t) (past : (g t).state ≠ .queued)
    (now : t.shorts p = 1) (told : (g t).shorts p = 0) (owes : (g t).owes p ≤ t.owes p) (s : AlarmSource) (e : EventItem) :
    Owing j k (post s e (p.modFront i g)) := by
  have heads := modFront_head i g p
  have shorts := fun i' => Part.due_front active past (Take.shorts_of_heads heads) (by rw [told]; exact Nat.zero_le _) i'
  have work := Part.due_front active past (Take.owes_of_heads heads) owes j
  have paid : (p.modFront i g).due Take.shorts i = 0 ∧ p.due Take.shorts i = 1 :=
    ⟨by rw [Part.due_same active past, Take.shorts_of_heads heads, told], by rw [Part.due_active active, now]⟩
  have posted : Few (p.evt.queue.length + 1) (post s e (p.modFront i g)) :=
    Few.post (p := p.modFront i g) ⟨Nat.le_refl _⟩ s e
  generalize p.modFront i g = b at shorts work paid posted
  have due : ∀ f : Part → Take → Nat, (∀ t, f (post s e b) t = f b t) → ∀ i', (post s e b).due f i' = b.due f i' := fun f same i' =>
    Part.due_congr same (by rw [post_island])
  refine ⟨?_⟩
  rw [due _ (Take.shorts_of_heads (post_head s e b)), due _ (Take.shorts_of_heads (post_head s e b)),
    due _ (Take.owes_of_heads (post_head s e b))]
  have := a.few
  have := posted.few
  have := shorts .i1
  have := shorts .i2
  obtain ⟨paid1, paid2⟩ := paid
  cases i <;> omega

/-- The recomputed start field tells SHORT_LEADER at most once (R81). -/
theorem Owing.refreshStart (a : Owing j k p) (i : IslandId) : Owing j k (refreshStart i p) := by
  unfold Machine.refreshStart
  split
  · exact a
  · rename_i t active
    have past := (Island.active_eq_some.1 active).2
    split
    · rename_i h cut planned is
      obtain ⟨head, rest⟩ := Take.planned_rest planned
      dsimp only
      generalize leader : (t.leader (p.head h)).map (shortLeader (p.head h)) = d
      generalize startField p.ref.standard (p.head h) (t.leader (p.head h)) cut = f
      split
      · rename_i enters
        obtain ⟨rfl, untold⟩ := enters
        refine a.pays (g := Take.plannedAt f (some true)) active past ?_ ?_ (Nat.le_refl _) _ _
        · rw [Take.shorts, head]
          exact if_pos ⟨rest, leader, untold⟩
        · rw [Take.shorts, show (t.plannedAt f (some true)).head? = t.head? from rfl, head]
          exact if_neg fun is => is.2.2 rfl
      · rename_i stays
        have le : (t.plannedAt f d).shorts p ≤ t.shorts p := by
          unfold Take.shorts
          rw [show (t.plannedAt f d).head? = t.head? from rfl, head]
          dsimp only
          rw [show (t.plannedAt f d).leader (p.head h) = t.leader (p.head h) from rfl, leader]
          split
          · rename_i is
            obtain ⟨-, rfl, untold⟩ := is
            exact absurd rfl untold
          · exact Nat.zero_le _
        have heads := modFront_head i (Take.plannedAt f d) p
        have shorts := Part.due_front (g := Take.plannedAt f d) active past (Take.shorts_of_heads heads) le
        have owes := Part.due_front (f := Take.owes) (g := Take.plannedAt f d) active past (Take.owes_of_heads heads) (Nat.le_refl _) j
        refine ⟨?_⟩
        have := a.few
        have := shorts .i1
        have := shorts .i2
        have evt : (p.modFront i (Take.plannedAt f d)).evt = p.evt := rfl
        change (p.modFront i (Take.plannedAt f d)).evt.queue.length + (p.modFront i (Take.plannedAt f d)).due Take.shorts .i1 +
          (p.modFront i (Take.plannedAt f d)).due Take.shorts .i2 + (p.modFront i (Take.plannedAt f d)).due Take.owes j ≤ k
        rw [evt]
        omega
    · exact ite_keeps (a.modFront active past rfl rfl rfl id) a

theorem Owing.refresh (a : Owing j k p) (i : IslandId) : Owing j k (refreshTake i p) := by
  unfold refreshTake
  split
  · exact a
  · rename_i t active
    have past := (Island.active_eq_some.1 active).2
    exact Owing.refreshStart (a.modFront active past rfl rfl rfl id) i

end

/-! ### The work of an island, event by event -/

/-- Every head of `q` is as in `p` or no longer at rest. -/
def Leaves (p q : Part) : Prop := ∀ h, q.head h = p.head h ∨ (q.head h).drive.atRest = false

theorem Take.shorts_leaves {p q : Part} (a : Leaves p q) (t : Take) : t.shorts q ≤ t.shorts p := by
  unfold Take.shorts
  split
  · rename_i h _
    obtain same | left := a h
    · rw [same]
    · rw [if_neg fun is => by rw [left] at is; exact nomatch is.1]
      exact Nat.zero_le _
  · exact Nat.le_refl _

theorem Take.owes_leaves {p q : Part} (a : Leaves p q) (t : Take) : t.owes q ≤ t.owes p := by
  unfold Take.owes
  refine Nat.add_le_add_right ?_ _
  split
  · rename_i h _
    obtain same | left := a h
    · rw [same]
    · rw [left]
      exact Nat.zero_le _
  · exact Nat.le_refl _

theorem Part.due_mono {f : Part → Take → Nat} {p q : Part} {i : IslandId} (le : ∀ t, f q t ≤ f p t)
    (active : (q.island i).active = (p.island i).active) : q.due f i ≤ p.due f i := by
  unfold Part.due
  rw [active]
  cases (p.island i).active with
  | none => exact Nat.le_refl _
  | some t => exact le t

section
variable {i j : IslandId} {k : Nat} {p q : Part} {t : Take}

theorem startDrive_leaves {h : HeadId} (rest : (p.head h).drive.atRest = true) (c : Cause) : Leaves p (startDrive h c p) := by
  intro k
  by_cases its : k = h
  · subst its
    right
    rw [startDrive_started c rest]
    rfl
  · exact .inl (startDrive_head_ne its c p)

theorem Owing.mapPreds (a : Owing j k p) (h : HeadId) (f : PredKind → Pred → Pred) : Owing j k (mapPreds h f p) := by
  have active : ∀ i, ((Machine.mapPreds h f p).island i).active = ((p.island i).active).map (Take.mapPreds h f) := fun i => by
    cases is : (p.island i).active with
    | none =>
      have front := mapPreds_front h f p i
      rw [Part.front, Part.front, is] at front
      simpa using front
    | some t => exact ((leads_of_active is).mapPreds h f).active
  have due : ∀ (g : Part → Take → Nat), (∀ t, g (Machine.mapPreds h f p) (t.mapPreds h f) = g p t) → ∀ i,
      (Machine.mapPreds h f p).due g i = p.due g i := fun g same i => by
    rw [Part.due, active, Option.map_map, Part.due, show g (Machine.mapPreds h f p) ∘ Take.mapPreds h f = g p from funext same]
  exact ⟨by rw [due _ fun _ => rfl, due _ fun _ => rfl, due _ fun _ => rfl]; exact a.few⟩

/-- The start of the incoming head is paid by what its take owed. -/
theorem Owing.startRequest (a : Owing j k p) (active : (p.island j).active = some t) {h : HeadId} (is : t.head? = some h) :
    Owing j k (startRequest h p) := by
  by_cases rest : (p.head h).drive.atRest = true
  · rw [startRequest_rest rest]
    have few := startDrive_few (k := p.evt.queue.length) rest ⟨Nat.le_refl _⟩ .scheduler
    have leaves := startDrive_leaves rest .scheduler
    have still := fun i => startDrive_island h .scheduler p i
    have off : ((startDrive h .scheduler p).head h).drive.atRest = false := by
      rw [startDrive_started .scheduler rest]
      rfl
    generalize startDrive h .scheduler p = q at few leaves still off
    refine Owing.refresh (Owing.refresh (Owing.mapPreds ⟨?_⟩ _ _) _) _
    have shorts := fun i => Part.due_mono (i := i) (Take.shorts_leaves leaves) (by rw [still])
    have paid : q.due Take.owes j + 2 ≤ p.due Take.owes j := by
      rw [Part.due_active active, Part.due_active (by rw [still]; exact active), Take.owes, Take.owes, is]
      dsimp only
      rw [off, rest]
      simp only [Bool.false_eq_true, if_false, if_true]
      omega
    have := a.few
    have := few.few
    have := shorts .i1
    have := shorts .i2
    omega
  · rw [Machine.startRequest, if_neg rest]
    exact a

/-- A commit is paid by what its take owed. -/
theorem Owing.commitTake (a : Owing j k p) (active : (p.island j).active = some t) (open_ : t.state ≠ .committed) (o : TakeOutcome)
    (l : Option Int) : Owing j k (commitTake j o l p) := by
  have few := commitTake_few (k := p.evt.queue.length) (p := p) ⟨Nat.le_refl _⟩ j o l
  have leads := (leads_of_active active).commitTake o l rfl
  have now := leads.active
  have heads := commitTake_head j o l p
  have other : ∀ i, i ≠ j → ((Machine.commitTake j o l p).island i).active = (p.island i).active := fun i n => by
    unfold Machine.commitTake
    rw [active]
    dsimp only
    rw [post_island, modFront_island_ne n, commit_island_ne n]
  generalize Machine.commitTake j o l p = q at few now heads other
  have shorts : ∀ i, q.due Take.shorts i ≤ p.due Take.shorts i := fun i => by
    by_cases n : i = j
    · subst n
      rw [Part.due_active active, Part.due_active now, Take.shorts_of_heads heads]
      exact Nat.le_refl _
    · exact Part.due_mono (fun t => Nat.le_of_eq (Take.shorts_of_heads heads t)) (other i n)
  have paid : q.due Take.owes j + 2 ≤ p.due Take.owes j := by
    rw [Part.due_active active, Part.due_active now, Take.owes_of_heads heads, Take.owes, Take.owes, if_neg open_]
    rfl
  refine ⟨?_⟩
  have := a.few
  have := few.few
  have := shorts .i1
  have := shorts .i2
  omega

theorem Owing.post (a : Owing j k p) (s : AlarmSource) (e : EventItem) : Owing j (k + 1) (post s e p) := by
  have few := Few.post (p := p) (k := p.evt.queue.length) ⟨Nat.le_refl _⟩ s e
  have heads := post_head s e p
  refine ⟨?_⟩
  rw [Part.due_congr (Take.shorts_of_heads heads) (by rw [post_island]), Part.due_congr (Take.shorts_of_heads heads) (by rw [post_island]),
    Part.due_congr (Take.owes_of_heads heads) (by rw [post_island])]
  have := a.few
  have := few.few
  omega

theorem Owing.cutSoon (a : Owing j k p) (active : (p.island j).active = some t) : Owing j k (cutSoon j p) :=
  Owing.refresh (a.modFront active (by exact (Island.active_eq_some.1 active).2) rfl rfl rfl id) j

theorem Owing.convertNow (a : Owing j k p) : Owing j k (convertNow j p) := by
  unfold Machine.convertNow
  split
  · exact a
  · rename_i t active
    have past := (Island.active_eq_some.1 active).2
    split
    · exact a
    · split
      · have turned := a.modFront (g := Take.turned) active past rfl rfl rfl id
        exact ite_keeps (turned.cutSoon (modFront_active active past)) (turned.refresh j)
      · exact a

theorem Owing.sendStart (a : Owing j k p) : Owing j k (sendStart j p) := by
  unfold Machine.sendStart
  split
  · exact a
  · rename_i t active
    split
    · exact ite_keeps (a.startRequest active ‹_›) a
    · exact a

theorem Owing.followRunning (a : Owing j k p) : Owing j k (followRunning j p) := by
  unfold Machine.followRunning
  split
  · exact a
  · rename_i t active
    split
    · split
      · rename_i armed
        exact a.modFront active nofun rfl rfl rfl (by rw [armed.1]; exact nofun)
      · exact a
    · exact a

theorem Owing.judgeReady (a : Owing j k p) : Owing j (k + 1) (judgeReady j p) := by
  unfold Machine.judgeReady
  split
  · exact a.mono (Nat.le_succ k)
  · rename_i t active
    split
    · rename_i is
      have ready := a.modFront (g := fun t => { t with state := .ready }) active nofun rfl rfl rfl (by rw [is.1]; exact nofun)
      have now : ((p.modFront j fun t => { t with state := .ready }).island j).active = _ := modFront_active active nofun
      unfold becomeReady
      dsimp only
      rw [now]
      dsimp only
      split
      · exact (ite_keeps (ready.cutSoon now) (ready.refresh j) : Owing j k _).mono (Nat.le_succ k)
      · exact Owing.post (ite_keeps (ready.cutSoon now) (ready.refresh j)) _ _
    · split
      · rename_i is
        exact (a.modFront (g := fun t => { t with state := .starting }) active nofun rfl rfl rfl
          (by rw [is.1]; exact nofun)).mono (Nat.le_succ k)
      · exact a.mono (Nat.le_succ k)

theorem Owing.retarget (a : Owing j k p) : Owing j k (retarget j p) := by
  unfold Machine.retarget
  split
  · exact a
  · rename_i t active
    have past := (Island.active_eq_some.1 active).2
    split
    · exact a
    · rename_i held
      split
      · exact a.modFront active past rfl rfl rfl id
      · rename_i sop _
        have formed : ∀ c f, Owing j k (refreshTake j (p.modFront j (Take.aimed c f))) ∧
            ∃ u, ((refreshTake j (p.modFront j (Take.aimed c f))).island j).active = some u ∧ u.state = t.state := fun c f =>
          have aimed := (leads_of_active active).modFront (f := Take.aimed c f) past
          ⟨Owing.refresh (a.modFront active past rfl rfl rfl id) j, _, aimed.refresh.active, Take.refreshed_state _ _ _⟩
        dsimp only
        split
        · split
          · exact (formed (p.leadField j) p.ref.count).1
          · obtain ⟨kept, u, now, state⟩ := formed (p.leadField j) p.ref.count
            exact kept.commitTake now (fun is => absurd ((not_not.1 held).symm.trans (state.symm.trans is)) nofun) _ _
        · exact (formed sop _).1

theorem Owing.evalTake (a : Owing j k p) : Owing j (k + 1) (evalTake j p) := a.convertNow.sendStart.followRunning.judgeReady.retarget

theorem evalTake_started {v : Part} {x : Island} {h : HeadId} (a : Leads j v x t p) (state : t.state = .starting) (is : t.head? = some h)
    (unlocked : (v.head h).drive ≠ .locked) : evalTake j p = Machine.convertNow j p := by
  have b := a.convertNow
  have same : (t.converted v x.settings.lead).state = .starting := (Take.converted_state ..).trans state
  have incoming : (t.converted v x.settings.lead).incoming = .head h :=
    (Take.converted_incoming ..).trans (Take.incoming_of_head? is)
  have judged : (t.converted v x.settings.lead).mayReady v x = false := mayReady_unlocked incoming unlocked
  unfold Machine.evalTake
  rw [b.sendStart_stays (fun _ _ armed => nomatch same.symm.trans armed.1),
    b.followRunning_stays (fun _ _ armed => nomatch same.symm.trans armed.1)]
  have kept : Machine.judgeReady j (Machine.convertNow j p) = Machine.convertNow j p := by
    unfold Machine.judgeReady
    rw [b.active]
    dsimp only
    rw [b.mayReady, judged, if_neg (by simp), if_neg (by rw [same]; exact nofun)]
  rw [kept, b.retarget_stays (by rw [same]; exact nofun)]

theorem Owing.meetStart (a : Owing j k p) : Owing j k (meetStart j p) := by
  unfold Machine.meetStart
  split
  · rename_i due
    unfold startDue at due
    split at due
    · exact nomatch due
    · rename_i t active
      obtain ⟨h, planned⟩ := Option.isSome_iff_exists.1 (Bool.and_eq_true_iff.1 due).1
      obtain ⟨is, rest⟩ := Take.planned_rest planned
      have armed : t.state = .armed := by
        by_contra no
        unfold Take.planned at planned
        rw [is] at planned
        dsimp only at planned
        rw [if_neg fun plan => no plan.1] at planned
        exact nomatch planned
      have entered := a.modFront (g := fun t => { t with state := .starting }) active nofun rfl rfl rfl (by rw [armed]; exact nofun)
      have leads := (leads_of_active active).modFront (f := fun t => { t with state := .starting }) nofun
      obtain ⟨w, off, started⟩ := leads.setsOff rest
      unfold takeStartField
      rw [active]
      dsimp only [Option.bind_some]
      rw [is]
      dsimp only
      rw [evalTake_started started (Take.refreshed_state ..) ((Take.refreshed_head? ..).trans is) (by rw [off.runup]; exact nofun)]
      exact (entered.startRequest leads.active is).convertNow
  · exact a

theorem Owing.enterHeld (a : Owing j k p) (open_ : ∀ t, (p.island j).active = some t → t.state ≠ .committed) :
    Owing j k (enterHeld j p) := by
  unfold Machine.enterHeld
  split
  · exact a
  · rename_i t active
    have held := a.modFront (g := Take.hold) active nofun rfl rfl rfl fun is => absurd is (open_ t active)
    have leads := (leads_of_active active).modFront (f := Take.hold) nofun
    dsimp only
    split
    · rename_i h is
      split
      · have started : ∃ w y u, Leads j w y u (Machine.startRequest h (p.modFront j Take.hold)) ∧ u.state = .held := by
          by_cases rest : (p.head h).drive.atRest = true
          · obtain ⟨w, off, b⟩ := leads.setsOff rest
            exact ⟨_, _, _, b, Take.refreshed_state ..⟩
          · rw [Machine.startRequest, if_neg (by rw [modFront_head]; exact rest)]
            exact ⟨_, _, _, leads, rfl⟩
        obtain ⟨w, y, u, b, state⟩ := started
        change Owing j k (Machine.evalTake j (Machine.startRequest h (p.modFront j Take.hold)))
        rw [b.evalTake_held state]
        exact (held.startRequest leads.active is).retarget
      · change Owing j k (Machine.evalTake j (p.modFront j Take.hold))
        rw [leads.evalTake_held rfl]
        exact held.retarget
    · change Owing j k (Machine.evalTake j (p.modFront j Take.hold))
      rw [leads.evalTake_held rfl]
      exact held.retarget

theorem Owing.takeCommitField (a : Owing j k p) (open_ : ∀ t, (p.island j).active = some t → t.state ≠ .committed) :
    Owing j (k + 1) (takeCommitField j p) := by
  unfold Machine.takeCommitField
  split
  · exact a.mono (Nat.le_succ k)
  · rename_i t active
    have past := (Island.active_eq_some.1 active).2
    have late := (leads_of_active active).modFront (f := Take.late p (p.island j)) past
    have judged : ∀ q, (q = p ∨ q = Machine.judgeReady j (refreshTake j (p.modFront j (Take.late p (p.island j))))) →
        Owing j (k + 1) q ∧ ∀ u, (q.island j).active = some u → u.state ≠ .committed := by
      rintro q (rfl | rfl)
      · exact ⟨a.mono (Nat.le_succ k), open_⟩
      · refine ⟨Owing.judgeReady (Owing.refresh (a.modFront active past rfl rfl rfl id) j), fun u now => ?_⟩
        rw [late.refresh.judgeReady.active] at now
        cases now
        rw [Take.judged_state, Take.refreshed_state]
        split
        · exact nofun
        · split
          · exact nofun
          · exact open_ t active
    dsimp only
    generalize chosen : (if t.commitAt = some p.ref.count then p else Machine.judgeReady j (refreshTake j (p.modFront j _))) = q
    obtain ⟨owing, unspent⟩ := judged q (by
      rw [← chosen]
      split
      · exact .inl rfl
      · exact .inr rfl)
    split
    · exact owing
    · rename_i u now
      split
      · exact owing.commitTake now (unspent u now) _ _
      · exact owing.enterHeld unspent

theorem Owing.meetCommit (a : Owing j k p) : Owing j (k + 1) (meetCommit j p) := by
  unfold Machine.meetCommit
  split
  · rename_i due
    refine a.takeCommitField fun t active is => ?_
    rw [commitDue, active] at due
    simp [is, TakeState.pending] at due
  · exact a.mono (Nat.le_succ k)

/-- The work of an island posts what its take owes, and two judgements at most. -/
theorem Owing.workTake (a : Owing j k p) : Owing j (k + 2) (workTake j p) := a.evalTake.meetStart.meetCommit

end

end Sys2Proof.Machine
end

section
/-! PROOFS. What of an island, of its takes and of its end guard the work on the other island leaves, and what its own awaited move leaves. -/

namespace Sys2Proof.Machine

/-! ### The gist of an island -/

/-- What of a take tells whether it waits, and how it has ended. -/
def Take.gist (t : Take) : Word × Source × TakeState × TakeOutcome := (t.tag, t.incoming, t.state, t.outcome)

/-- An island but for the figures of its front take, its records and its panel settings. -/
structure Island.Gist where
  settings : IslandSettings
  onAir : Source
  mirror : MirrorState
  confirm : Option Confirmation
  takes : List (Word × Source × TakeState × TakeOutcome)

def Island.gist (x : Island) : Island.Gist := ⟨x.settings, x.onAir, x.mirror, x.confirm, x.takes.map Take.gist⟩

theorem Island.gist_modFront (x : Island) {f : Take → Take} (same : ∀ t, (f t).gist = t.gist) : (x.modFront f).gist = x.gist := by
  unfold Island.modFront
  split
  · rfl
  · rename_i t rest takes
    simp [Island.gist, takes, same]

theorem Island.modFront_keeps (f : Take → Take) (x : Island) :
    ∃ l, l.length = x.takes.length ∧ x.modFront f = { x with takes := l } := by
  unfold Island.modFront
  split
  · exact ⟨_, rfl, rfl⟩
  · rename_i t rest takes
    exact ⟨f t :: rest, by rw [takes]; rfl, rfl⟩

theorem Take.refreshed_gist (v : Part) (n : Nat) (t : Take) : (t.refreshed v n).gist = t.gist := by
  rw [Take.refreshed_eq]
  rfl

theorem Island.led_gist (x : Island) {t u : Take} (active : x.active = some t) (same : u.gist = t.gist) : (x.led u).gist = x.gist := by
  have takes : x.takes = t :: x.takes.tail := by
    rw [← List.cons_head?_tail (Option.mem_def.2 (Island.active_eq_some.1 active).1)]
    rfl
  simp only [Island.gist, Island.led, List.map_cons, same]
  conv_rhs => rw [takes]
  rfl

theorem refreshTake_gist (j : IslandId) (p : Part) (i : IslandId) : ((refreshTake j p).island i).gist = (p.island i).gist := by
  cases active : (p.island j).active with
  | none =>
    rw [refreshTake, active]
  | some t =>
    by_cases n : i = j
    · subst n
      have leads := leads_of_active active
      rw [leads.refresh.island]
      exact Island.led_gist _ active (Take.refreshed_gist ..)
    · rw [← (refreshTake_frame j p (.island i) (by simp [Block.taking, Block.posting, n]) : p.island i = _)]

theorem mapPreds_gist (h : HeadId) (f : PredKind → Pred → Pred) (p : Part) (i : IslandId) :
    ((mapPreds h f p).island i).gist = (p.island i).gist := by
  rw [mapPreds_island]
  have takes := congrArg Island.Gist.takes (Island.gist_modFront (f := Take.mapPreds h f) (p.island i) fun _ => rfl)
  exact congrArg (Island.Gist.mk (p.island i).settings (p.island i).onAir (p.island i).mirror (p.island i).confirm) takes

theorem startRequest_gist (h : HeadId) (p : Part) (i : IslandId) : ((startRequest h p).island i).gist = (p.island i).gist := by
  unfold startRequest
  split
  · rw [refreshTake_gist, refreshTake_gist, mapPreds_gist, startDrive_island]
  · rfl

/-- The active take as the gist has it. -/
theorem Island.active_gist (x : Island) : x.active.map Take.gist = match x.gist.takes with
    | [] => none
    | g :: _ => if g.2.2.1 = .queued then none else some g := by
  cases takes : x.takes with
  | nil => simp [Island.active, Island.gist, takes]
  | cons t rest =>
    simp only [Island.active, Island.gist, takes, List.map_cons, Take.gist]
    split
    · rfl
    · rfl

theorem active_of_gist {x y : Island} (same : y.gist = x.gist) : y.active.map Take.gist = x.active.map Take.gist := by
  rw [Island.active_gist, Island.active_gist, same]

/-- The gist of the island is as `Q` says. -/
def Kept (i : IslandId) (Q : Island.Gist → Prop) (p : Part) : Prop := Q (p.island i).gist

theorem Kept.of_gist {i : IslandId} {Q : Island.Gist → Prop} {p q : Part} (a : Kept i Q p)
    (same : (q.island i).gist = (p.island i).gist) : Kept i Q q := by
  unfold Kept
  rw [same]
  exact a

section
variable {i j : IslandId}

theorem endFront_island_ne (n : i ≠ j) (o : TakeOutcome) (r : Reason) (p : Part) : (endFront j o r p).island i = p.island i := by
  unfold endFront
  split
  · rfl
  · rw [post_island, modIsland_island_ne n]

theorem kept_toils (n : i ≠ j) (Q : Island.Gist → Prop) : Toils j (Kept i Q) where
  post s e p a := a.of_gist (congrArg Island.gist (post_island s e p i))
  raise s k x y p _ a := a.of_gist (congrArg Island.gist (raiseAlarm_island (.island s) k x y p i))
  front f p a := a.of_gist (congrArg Island.gist (modFront_island_ne n f p))
  refresh k p a := a.of_gist (refreshTake_gist k p i)
  start h p _ a := a.of_gist (startRequest_gist h p i)
  commit s c o p _ a := a.of_gist (congrArg Island.gist (commit_island_ne n s c o p))
  ends o r p a := a.of_gist (congrArg Island.gist (endFront_island_ne n o r p))

/-! ### The mirror and the length of the list -/

/-- The source on air, the mirror and the confirmation of the island are these. -/
def Mirrored (i : IslandId) (c : Source × MirrorState × Option Confirmation) (p : Part) : Prop :=
  ((p.island i).onAir, (p.island i).mirror, (p.island i).confirm) = c

theorem Mirrored.of_gist {c : Source × MirrorState × Option Confirmation} {p q : Part} (a : Mirrored i c p)
    (same : (q.island i).gist = (p.island i).gist) : Mirrored i c q := by
  unfold Mirrored at *
  rw [show (q.island i).onAir = (p.island i).onAir from congrArg Island.Gist.onAir same,
    show (q.island i).mirror = (p.island i).mirror from congrArg Island.Gist.mirror same,
    show (q.island i).confirm = (p.island i).confirm from congrArg Island.Gist.confirm same]
  exact a

theorem Mirrored.of_island {c : Source × MirrorState × Option Confirmation} {p q : Part} (a : Mirrored i c p)
    (same : q.island i = p.island i) : Mirrored i c q := a.of_gist (congrArg Island.gist same)

/-- A move that awaits confirmation is left alone by both islands. -/
theorem mirrored_toils {c : Source × MirrorState × Option Confirmation} (awaits : c.2.2.isSome = true) (j : IslandId) :
    Toils j (Mirrored i c) where
  post s e p a := a.of_island (post_island s e p i)
  raise s k x y p _ a := a.of_island (raiseAlarm_island (.island s) k x y p i)
  front f p a := by
    by_cases n : i = j
    · subst n
      obtain ⟨l, -, is⟩ := Island.modFront_keeps f (p.island i)
      unfold Mirrored
      rw [modFront_island, is]
      exact a
    · exact a.of_island (modFront_island_ne n f p)
  refresh k p a := a.of_gist (refreshTake_gist k p i)
  start h p _ a := a.of_gist (startRequest_gist h p i)
  commit s c o p free a := by
    by_cases n : i = j
    · subst n
      subst a
      rw [free] at awaits
      exact nomatch awaits
    · exact a.of_island (commit_island_ne n s c o p)
  ends o r p a := by
    by_cases n : i = j
    · subst n
      cases takes : (p.island i).takes with
      | nil =>
        rw [endFront, takes]
        exact a
      | cons t rest =>
        unfold Mirrored
        rw [endFront_island takes]
        exact a
    · exact a.of_island (endFront_island_ne n o r p)

/-- The island has fewer than `k` takes. -/
def Fewer (i : IslandId) (k : Nat) (p : Part) : Prop := (p.island i).takes.length < k

theorem Fewer.of_gist {k : Nat} {p q : Part} (a : Fewer i k p) (same : (q.island i).gist = (p.island i).gist) : Fewer i k q := by
  have lengths := congrArg (fun g => List.length g.takes) same
  simp only [Island.gist, List.length_map] at lengths
  exact Nat.lt_of_le_of_lt (Nat.le_of_eq lengths) a

theorem fewer_toils (k : Nat) (j : IslandId) : Toils j (Fewer i k) where
  post s e p a := a.of_gist (congrArg Island.gist (post_island s e p i))
  raise s k x y p _ a := a.of_gist (congrArg Island.gist (raiseAlarm_island (.island s) k x y p i))
  front f p a := by
    by_cases n : i = j
    · subst n
      obtain ⟨l, length, is⟩ := Island.modFront_keeps f (p.island i)
      unfold Fewer
      rw [modFront_island, is]
      exact Nat.lt_of_le_of_lt (Nat.le_of_eq length) a
    · exact a.of_gist (congrArg Island.gist (modFront_island_ne n f p))
  refresh k p a := a.of_gist (refreshTake_gist k p i)
  start h p _ a := a.of_gist (startRequest_gist h p i)
  commit s c o p free a := by
    by_cases n : i = j
    · subst n
      unfold Fewer
      rw [commit_island]
      exact a
    · exact a.of_gist (congrArg Island.gist (commit_island_ne n s c o p))
  ends o r p a := by
    by_cases n : i = j
    · subst n
      cases takes : (p.island i).takes with
      | nil =>
        rw [endFront, takes]
        exact a
      | cons t rest =>
        unfold Fewer at a ⊢
        rw [endFront_island takes]
        rw [takes] at a
        exact Nat.lt_of_succ_lt a
    · exact a.of_gist (congrArg Island.gist (endFront_island_ne n o r p))

end

/-! ### The end guard -/

/-- Head `h` is not at rest, and the end guard of island `i` follows it or nothing, its field not reached. -/
structure Rested (i : IslandId) (h : HeadId) (p : Part) : Prop where
  moving : (p.head h).drive.atRest = false
  rests : EndRests h p.ref (p.island i).settings.lead (p.island i).fEnd

section
variable {i j : IslandId} {h : HeadId} {p q : Part}

theorem Rested.of_same (a : Rested i h p) (head : q.head h = p.head h) (ref : q.ref = p.ref)
    (settings : (q.island i).settings = (p.island i).settings) (fEnd : (q.island i).fEnd = (p.island i).fEnd) : Rested i h q :=
  ⟨by rw [head]; exact a.moving, by rw [ref, settings, fEnd]; exact a.rests⟩

theorem refreshTake_fEnd (j i : IslandId) (p : Part) : ((refreshTake j p).island i).fEnd = (p.island i).fEnd := by
  cases active : (p.island j).active with
  | none =>
    rw [refreshTake, active]
  | some t =>
    by_cases n : i = j
    · subst n
      rw [(leads_of_active active).refresh.island]
      rfl
    · rw [← (refreshTake_frame j p (.island i) (by simp [Block.taking, Block.posting, n]) : p.island i = _)]

theorem refreshTake_head (j : IslandId) (p : Part) (h : HeadId) : (refreshTake j p).head h = p.head h :=
  (refreshTake_frame j p (.head h) (by simp [Block.taking, Block.posting])).symm

theorem endFront_head (j : IslandId) (o : TakeOutcome) (r : Reason) (p : Part) (h : HeadId) : (endFront j o r p).head h = p.head h :=
  (endFront_frame j o r p (.head h) (by simp [Block.taking, Block.posting])).symm

theorem gist_settings {x y : Island} (same : y.gist = x.gist) : y.settings = x.settings := congrArg Island.Gist.settings same

/-- An end guard whose field is not reached is not due. -/
theorem Rested.undue (a : Rested i h p) : guardDue i p = false := by
  unfold guardDue
  dsimp only
  split
  · rename_i k f _ is
    obtain ⟨d, fEnd, value⟩ := Option.bind_eq_some_iff.1 is
    rw [show reached p.ref.count (Stamp.minus f (p.island i).settings.lead) = false from (a.rests d fEnd).2 f value, Bool.and_false]
  · exact Bool.and_false _

theorem Rested.startRequest (a : Rested i h p) {k : HeadId} (rest : (p.head k).drive.atRest = true) : Rested i h (startRequest k p) := by
  have other : h ≠ k := fun same => by
    have moving := a.moving
    rw [same, rest] at moving
    exact nomatch moving
  rw [startRequest_rest rest]
  have ref : (startDrive k .scheduler p).ref = p.ref :=
    (startDrive_frame k .scheduler p .ref (by simp [Block.driving, Block.alarming, Block.posting])).symm
  have started : Rested i h (startDrive k .scheduler p) :=
    a.of_same (startDrive_head_ne other _ _) ref (by rw [startDrive_island]) (by rw [startDrive_island])
  generalize startDrive k .scheduler p = b at started
  have mapped : Rested i h (mapPreds k (Pred.atStart b) b) := by
    refine ⟨by rw [mapPreds_head]; exact started.moving, fun d is => ?_⟩
    rw [mapPreds_island] at is ⊢
    obtain ⟨r, known, rfl⟩ := Option.map_eq_some_iff.1 is
    obtain ⟨its, before⟩ := started.rests r known
    rw [followedBy, if_neg fun same => other (its.symm.trans same)]
    exact ⟨its, before⟩
  have refreshed : ∀ j {q : Part}, Rested i h q → Rested i h (refreshTake j q) := fun j q c =>
    c.of_same (refreshTake_head j q h) (refreshTake_frame j q .ref (by simp [Block.taking, Block.posting])).symm
      (gist_settings (refreshTake_gist j q i)) (refreshTake_fEnd j i q)
  exact refreshed .i2 (refreshed .i1 mapped)

theorem rested_toils (j : IslandId) : Toils j (Rested i h) where
  post s e p a := a.of_same (post_head s e p h) (post_count s e p) (by rw [post_island]) (by rw [post_island])
  raise s k x y p _ a := a.of_same (raiseAlarm_head (.island s) k x y p h)
    (raiseAlarm_frame (.island s) k x y p .ref (by simp [Block.alarming, Block.posting])).symm (by rw [raiseAlarm_island]) (by rw [raiseAlarm_island])
  front f p a := by
    refine a.of_same (modFront_head j f p h) rfl ?_ ?_ <;> by_cases n : i = j
    · subst n
      obtain ⟨l, -, is⟩ := Island.modFront_keeps f (p.island i)
      rw [modFront_island, is]
    · rw [modFront_island_ne n]
    · subst n
      obtain ⟨l, -, is⟩ := Island.modFront_keeps f (p.island i)
      rw [modFront_island, is]
    · rw [modFront_island_ne n]
  refresh k p a := a.of_same (refreshTake_head k p h) (refreshTake_frame k p .ref (by simp [Block.taking, Block.posting])).symm
    (gist_settings (refreshTake_gist k p i)) (refreshTake_fEnd k i p)
  start k p rest a := a.startRequest rest
  commit s c o p _ a := by
    refine a.of_same (commit_head j s c o p h)
      (commit_frame j s c o p .ref (by simp [Block.committing, Block.linking, Block.posting])).symm ?_ ?_ <;> by_cases n : i = j
    · subst n
      rw [commit_island]
    · rw [commit_island_ne n]
    · subst n
      rw [commit_island]
    · rw [commit_island_ne n]
  ends o r p a := by
    have same : ((endFront j o r p).island i).settings = (p.island i).settings ∧ ((endFront j o r p).island i).fEnd = (p.island i).fEnd := by
      by_cases n : i = j
      · subst n
        cases takes : (p.island i).takes with
        | nil =>
          rw [endFront, takes]
          exact ⟨rfl, rfl⟩
        | cons t rest =>
          rw [endFront_island takes]
          exact ⟨rfl, rfl⟩
      · rw [endFront_island_ne n]
        exact ⟨rfl, rfl⟩
    exact a.of_same (endFront_head j o r p h)
      (endFront_frame j o r p .ref (by simp [Block.taking, Block.posting])).symm same.1 same.2

end

/-! ### A take that waits, beside the other island's work -/

section
variable {i j : IslandId} {h : HeadId} {x : Island} {t : Take}

/-- Island `i` stands as `x` with its take waiting, seen from some moment. -/
def Waiting (i : IslandId) (h : HeadId) (x : Island) (t : Take) (p : Part) : Prop := ∃ v u, Bides i h x t v u p

theorem waiting_toils (n : i ≠ j) : Toils j (Waiting i h x t) where
  post s e p := fun ⟨v, u, a⟩ => ⟨v, u, a.frame (post_frame s e p) (by simp [Block.posting]) (by simp [Block.posting]) (by simp [Block.posting])⟩
  raise s k y z p _ := fun ⟨v, u, a⟩ => ⟨v, u, a.frame (raiseAlarm_frame (.island s) k y z p) (by simp [Block.alarming, Block.posting])
    (by simp [Block.alarming, Block.posting]) (by simp [Block.alarming, Block.posting])⟩
  front f p := fun ⟨v, u, a⟩ =>
    have ⟨e, leads, rests⟩ := a.leads
    ⟨v, u, ⟨e, leads.modFront_other n f, rests⟩, a.waits, a.moving⟩
  refresh k p := fun ⟨v, u, a⟩ => by
    by_cases same : i = k
    · subst same
      exact ⟨v, _, a.refresh⟩
    · exact ⟨v, u, a.frame (refreshTake_frame k p) (by simp [Block.taking, Block.posting, same]) (by simp [Block.taking, Block.posting])
        (by simp [Block.taking, Block.posting])⟩
  start k p rest := fun ⟨v, u, a⟩ =>
    have ⟨w, w', _, _, _, b⟩ := a.startRequest (by rw [← a.heads]; exact rest)
    ⟨w, w', b⟩
  commit s c o p _ := fun ⟨v, u, a⟩ => ⟨v, u, a.frame (commit_frame j s c o p)
    (by simp [Block.committing, Block.linking, Block.posting, n]) (by simp [Block.committing, Block.linking, Block.posting])
    (by simp [Block.committing, Block.linking, Block.posting])⟩
  ends o r p := fun ⟨v, u, a⟩ => ⟨v, u, a.frame (endFront_frame j o r p) (by simp [Block.taking, Block.posting, n])
    (by simp [Block.taking, Block.posting]) (by simp [Block.taking, Block.posting])⟩

end

end Sys2Proof.Machine
end

section
/-! PROOFS. An active take whose incoming head has left the running states is not committed by its island's work (R98 to R101, R109). -/

namespace Sys2Proof.Machine

/-- Island `i` has its active take `t`, as `u`, uncommitted, and its incoming head `h` neither runs nor stands at rest. -/
structure Gone (i : IslandId) (h : HeadId) (x : Island) (t : Take) (v : Part) (u : Take) (p : Part) : Prop where
  leads : ∃ e, Leads i v { x with fEnd := e } u p
  tag : u.tag = t.tag
  incoming : u.incoming = .head h
  uncommitted : u.state ≠ .committed
  moving : (v.head h).drive.atRest = false
  still : (v.head h).drive.running = false

theorem unlocked_of_still {d : DriveState} (still : d.running = false) : d ≠ .locked := fun locked => by
  rw [locked] at still
  exact nomatch still

section
variable {i j : IslandId} {h : HeadId} {x : Island} {t u : Take} {v p : Part} (a : Gone i h x t v u p)
include a

theorem Gone.active : (p.island i).active = some u := let ⟨_, leads⟩ := a.leads; leads.active

theorem Gone.head? : u.head? = some h := by
  unfold Take.head?
  rw [a.incoming]

theorem Gone.unplanned {w : Take} (incoming : w.incoming = u.incoming) : w.planned v = none := by
  unfold Take.planned Take.head?
  rw [incoming, a.incoming]
  exact if_neg fun plan => Bool.false_ne_true (a.moving.symm.trans plan.2.2.2)

theorem Gone.frame {q : Part} {bs : List Block} (same : ChangesOnly bs p q) (island : .island i ∉ bs) (heads : ∀ h, .head h ∉ bs)
    (ref : Block.ref ∉ bs) : Gone i h x t v u q :=
  let ⟨e, leads⟩ := a.leads
  ⟨⟨e, leads.frame same island heads ref⟩, a.tag, a.incoming, a.uncommitted, a.moving, a.still⟩

theorem Gone.modFront {f : Take → Take} (past : (f u).state ≠ .queued) (tag : (f u).tag = u.tag) (incoming : (f u).incoming = u.incoming)
    (uncommitted : (f u).state ≠ .committed) : Gone i h x t v (f u) (p.modFront i f) :=
  let ⟨e, leads⟩ := a.leads
  ⟨⟨e, leads.modFront past⟩, tag.trans a.tag, incoming.trans a.incoming, uncommitted, a.moving, a.still⟩

/-- What a step leaves: the take as `w`, and the events as they were. -/
def Gone.Goes (i : IslandId) (h : HeadId) (x : Island) (t : Take) (v : Part) (p : Part) (P : Take → Prop) (q : Part) : Prop :=
  ∃ w, Gone i h x t v w q ∧ q.evt = p.evt ∧ P w

theorem Gone.refresh : Gone i h x t v (u.refreshed v x.settings.lead) (refreshTake i p) ∧ (refreshTake i p).evt = p.evt := by
  obtain ⟨e, leads⟩ := a.leads
  refine ⟨⟨⟨e, leads.refresh⟩, (Take.refreshed_tag ..).trans a.tag, (Take.refreshed_incoming ..).trans a.incoming,
    fun is => a.uncommitted ((Take.refreshed_state ..).symm.trans is), a.moving, a.still⟩, ?_⟩
  have figured := leads.modFront (f := Take.figures (p.island i).settings.lead) leads.past
  unfold refreshTake
  rw [a.active]
  dsimp only
  rw [figured.refreshStart_none (.inl (a.unplanned rfl))]
  split <;> rfl

theorem Gone.convertNow : Gone.Goes i h x t v p (fun w => w.state = u.state) (convertNow i p) := by
  obtain ⟨e, leads⟩ := a.leads
  by_cases lost : u.loses = true
  · have turned := a.modFront (f := Take.turned) (by exact leads.past) rfl rfl a.uncommitted
    rw [leads.convertNow_loses lost]
    split
    · have soon := turned.modFront (f := fun t => { t with cut := none, fCut := some ((p.modFront i Take.turned).leadField i) })
        (by exact leads.past) rfl rfl a.uncommitted
      exact ⟨_, soon.refresh.1, soon.refresh.2, Take.refreshed_state ..⟩
    · exact ⟨_, turned.refresh.1, turned.refresh.2, Take.refreshed_state ..⟩
  · rw [leads.convertNow_keeps (Bool.eq_false_iff.2 lost)]
    exact ⟨u, a, rfl, rfl⟩

theorem Gone.sendStart : sendStart i p = p :=
  let ⟨_, leads⟩ := a.leads
  leads.sendStart_stays fun k is send => by
    rw [a.head?] at is
    cases is
    exact absurd (a.moving.symm.trans send.2.2.2) nofun

theorem Gone.followRunning : followRunning i p = p :=
  let ⟨_, leads⟩ := a.leads
  leads.followRunning_stays fun k is runs => by
    rw [a.head?] at is
    cases is
    exact absurd (a.still.symm.trans runs.2) nofun

/-- One that was READY falls back to STARTING (R98). -/
theorem Gone.judgeReady : Gone.Goes i h x t v p (fun w => w.state ≠ .ready ∧ (u.state ≠ .ready → w = u)) (judgeReady i p) := by
  obtain ⟨e, leads⟩ := a.leads
  have unlocked := unlocked_of_still a.still
  unfold Machine.judgeReady
  rw [a.active]
  dsimp only
  rw [leads.mayReady, mayReady_unlocked a.incoming unlocked, if_neg (by simp)]
  split
  · rename_i ready
    exact ⟨_, a.modFront (f := fun t => { t with state := .starting }) nofun rfl rfl nofun, rfl, nofun, fun other => absurd ready.1 other⟩
  · rename_i no
    refine ⟨u, a, rfl, fun ready => no ⟨ready, ?_⟩, fun _ => rfl⟩
    unfold Take.staysReady
    rw [a.incoming]
    dsimp only
    rw [leads.heads, decide_eq_false unlocked]
    exact Bool.false_ne_true

/-- Without an exact F_sop a HELD take has no commit field (R100). -/
theorem Gone.retarget : Gone.Goes i h x t v p
    (fun w => w.state = u.state ∧ (w.state = .held → w.commitAt = none)) (retarget i p) := by
  obtain ⟨e, leads⟩ := a.leads
  by_cases held : u.state = .held
  · have lost : u.heldSop v = none := Take.heldSop_unlocked fun k is => by
      rw [a.head?] at is
      cases is
      exact unlocked_of_still a.still
    have is : Machine.retarget i p = p.modFront i Take.unaimed := by
      simp only [Machine.retarget, a.active, held, ne_eq, not_true_eq_false, if_false, leads.heldSop, lost] <;> rfl
    rw [is]
    exact ⟨_, a.modFront (f := Take.unaimed) (by exact leads.past) rfl rfl a.uncommitted, rfl, rfl, fun _ => rfl⟩
  · rw [leads.retarget_stays held]
    exact ⟨u, a, rfl, rfl, fun is => absurd is held⟩

theorem Gone.evalTake : Gone.Goes i h x t v p (fun w => w.state ≠ .ready ∧ (w.state = .held → w.commitAt = none)) (evalTake i p) := by
  obtain ⟨u1, converted, evt1, -⟩ := a.convertNow
  unfold Machine.evalTake
  rw [converted.sendStart, converted.followRunning]
  obtain ⟨u2, judged, evt2, unready, -⟩ := converted.judgeReady
  obtain ⟨u3, aimed, evt3, state, none⟩ := judged.retarget
  exact ⟨u3, aimed, evt3.trans (evt2.trans evt1), fun is => unready (state.symm.trans is), none⟩

theorem Gone.takeCommitField (pending : u.state = .armed ∨ u.state = .starting) :
    Gone.Goes i h x t v p (fun w => w.state ≠ .ready) (takeCommitField i p) := by
  obtain ⟨e, leads⟩ := a.leads
  have holds : ∀ {w : Take} {q : Part}, Gone i h x t v w q → w.state = .armed ∨ w.state = .starting →
      Gone.Goes i h x t v q (fun w => w.state ≠ .ready) (enterHeld i q) := fun {w q} b _ => by
    obtain ⟨e, leads⟩ := b.leads
    have held := b.modFront (f := Take.hold) nofun rfl rfl nofun
    have is : enterHeld i q = Machine.retarget i (q.modFront i Take.hold) := by
      have unstarted : startRequest h (q.modFront i Take.hold) = q.modFront i Take.hold := by
        rw [startRequest, modFront_head, leads.heads, b.moving]
        exact if_neg nofun
      obtain ⟨e, leads⟩ := held.leads
      rw [← leads.evalTake_held rfl]
      simp only [enterHeld, b.active, b.head?, show (q.modFront i fun t =>
        { t with state := .held, heldCut := t.fCut, cut := none, commitAt := none }) = q.modFront i Take.hold from rfl, unstarted, ite_self]
    rw [is]
    obtain ⟨w', aimed, evt, state, -⟩ := held.retarget
    exact ⟨w', aimed, evt, fun is => absurd (state.symm.trans is) nofun⟩
  unfold Machine.takeCommitField
  rw [a.active]
  dsimp only
  by_cases prompt : u.commitAt = some p.ref.count
  · rw [if_pos prompt, a.active]
    dsimp only
    rw [Take.decide_pending pending]
    exact holds a pending
  · rw [if_neg prompt]
    have late := a.modFront (f := Take.late v { x with fEnd := e }) (by exact leads.past) rfl rfl a.uncommitted
    rw [show (p.modFront i fun t => { t with cut := none, fCut := some (p.leadField i)
                                             slip := if t.state = .held then t.slipTo (p.leadField i) else t.slip }) =
      p.modFront i (Take.late v { x with fEnd := e }) by rw [leads.lead]; rfl]
    obtain ⟨judged, evt1⟩ := late.refresh
    obtain ⟨u2, kept, evt2, -, same⟩ := judged.judgeReady
    have state : u2.state = u.state := by
      rw [same (by rw [Take.refreshed_state]; exact fun is => by obtain s | s := pending <;> exact absurd (s.symm.trans is) nofun)]
      exact Take.refreshed_state ..
    rw [← state] at pending
    rw [kept.active]
    dsimp only
    rw [Take.decide_pending pending]
    obtain ⟨u3, held, evt3, unready⟩ := holds kept pending
    exact ⟨u3, held, evt3.trans (evt2.trans evt1), unready⟩

/-- The island's work leaves the take uncommitted, and tells of nothing. -/
theorem Gone.workTake : Gone.Goes i h x t v p (fun w => w.state ≠ .ready) (workTake i p) := by
  obtain ⟨u1, evaluated, evt1, unready, unaimed⟩ := a.evalTake
  obtain ⟨e, leads⟩ := evaluated.leads
  unfold Machine.workTake
  rw [meetStart_stays leads (evaluated.unplanned rfl)]
  unfold meetCommit
  split
  · rename_i due
    have pending : u1.state = .armed ∨ u1.state = .starting := by
      unfold commitDue at due
      rw [evaluated.active] at due
      obtain ⟨waits, reached⟩ := Bool.and_eq_true_iff.1 (Bool.and_eq_true_iff.1 due).2
      cases state : u1.state with
      | armed => exact .inl rfl
      | starting => exact .inr rfl
      | ready => exact absurd state unready
      | held => simp [unaimed state] at reached
      | queued => simp [state, TakeState.pending] at waits
      | committed => simp [state, TakeState.pending] at waits
    obtain ⟨u2, met, evt2, unready⟩ := evaluated.takeCommitField pending
    exact ⟨u2, met, evt2.trans evt1, unready⟩
  · exact ⟨u1, evaluated, evt1, unready⟩

end

/-! ### Beside the other island's work -/

/-- Island `i` stands as `x` with its take's incoming head gone, seen from some moment; `P` holds of the take. -/
def Stranded (i : IslandId) (h : HeadId) (x : Island) (t : Take) (P : TakeState → Prop) (p : Part) : Prop :=
  ∃ v u, Gone i h x t v u p ∧ P u.state

theorem stranded_toils {i j : IslandId} {h : HeadId} {x : Island} {t : Take} {P : TakeState → Prop} (n : i ≠ j) :
    Toils j (Stranded i h x t P) where
  post s e p := fun ⟨v, u, a, z⟩ => ⟨v, u, a.frame (post_frame s e p) (by simp [Block.posting]) (by simp [Block.posting])
    (by simp [Block.posting]), z⟩
  raise s k y z p _ := fun ⟨v, u, a, z⟩ => ⟨v, u, a.frame (raiseAlarm_frame (.island s) k y _ p) (by simp [Block.alarming, Block.posting])
    (by simp [Block.alarming, Block.posting]) (by simp [Block.alarming, Block.posting]), z⟩
  front f p := fun ⟨v, u, a, z⟩ =>
    have ⟨e, leads⟩ := a.leads
    ⟨v, u, ⟨⟨e, leads.modFront_other n f⟩, a.tag, a.incoming, a.uncommitted, a.moving, a.still⟩, z⟩
  refresh k p := fun ⟨v, u, a, z⟩ => by
    by_cases same : i = k
    · subst same
      exact ⟨v, _, a.refresh.1, by rw [Take.refreshed_state]; exact z⟩
    · exact ⟨v, u, a.frame (refreshTake_frame k p) (by simp [Block.taking, Block.posting, same]) (by simp [Block.taking, Block.posting])
        (by simp [Block.taking, Block.posting]), z⟩
  start k p rest := fun ⟨v, u, a, z⟩ => by
    obtain ⟨e, leads⟩ := a.leads
    obtain ⟨w, off, started⟩ := leads.setsOff (leads.heads k ▸ rest)
    have same := (off.moving a.moving).2
    refine ⟨w, (u.mapPreds k (Pred.atStart w)).refreshed w x.settings.lead, ⟨⟨_, started⟩, (Take.refreshed_tag ..).trans a.tag,
      (Take.refreshed_incoming ..).trans a.incoming, ?_, by rw [same]; exact a.moving, by rw [same]; exact a.still⟩, ?_⟩
    · rw [Take.refreshed_state]
      exact a.uncommitted
    · rw [Take.refreshed_state]
      exact z
  commit s c o p _ := fun ⟨v, u, a, z⟩ => ⟨v, u, a.frame (commit_frame j s c o p)
    (by simp [Block.committing, Block.linking, Block.posting, n]) (by simp [Block.committing, Block.linking, Block.posting])
    (by simp [Block.committing, Block.linking, Block.posting]), z⟩
  ends o r p := fun ⟨v, u, a, z⟩ => ⟨v, u, a.frame (endFront_frame j o r p) (by simp [Block.taking, Block.posting, n])
    (by simp [Block.taking, Block.posting]) (by simp [Block.taking, Block.posting]), z⟩

end Sys2Proof.Machine
end

section
/-! PROOFS. What a head that leaves the running states brings to both islands: the rules by which each clause about one island follows (R107 to R109). -/

namespace Sys2Proof.Machine

/-! ### The heads and the field count -/

theorem Toils.and {j : IslandId} {I J : Part → Prop} (a : Toils j I) (b : Toils j J) : Toils j fun p => I p ∧ J p where
  post s e p := .imp (a.post s e p) (b.post s e p)
  raise s k x y p kind := .imp (a.raise s k x y p kind) (b.raise s k x y p kind)
  front f p := .imp (a.front f p) (b.front f p)
  refresh k p := .imp (a.refresh k p) (b.refresh k p)
  start h p rest := .imp (a.start h p rest) (b.start h p rest)
  commit s c o p free := .imp (a.commit s c o p free) (b.commit s c o p free)
  ends o r p := .imp (a.ends o r p) (b.ends o r p)

/-- The field count, the assignments, and the heads that are not at rest, are those of `v`. -/
structure Seen (v p : Part) : Prop where
  ref : p.ref = v.ref
  assigned : ∀ k, (p.head k).assigned = (v.head k).assigned
  moving : ∀ k, (v.head k).drive.atRest = false → p.head k = v.head k
  locked : ∀ k, (p.head k).drive = .locked → (v.head k).drive = .locked

theorem Seen.refl (p : Part) : Seen p p := ⟨rfl, fun _ => rfl, fun _ _ => rfl, fun _ l => l⟩

theorem Seen.of_same {v p q : Part} (a : Seen v p) (ref : q.ref = p.ref) (heads : ∀ k, q.head k = p.head k) : Seen v q :=
  ⟨ref.trans a.ref, fun k => by rw [heads]; exact a.assigned k, fun k moving => (heads k).trans (a.moving k moving),
    fun k locked => a.locked k (heads k ▸ locked)⟩

theorem Seen.frame {v p q : Part} {bs : List Block} (a : Seen v p) (same : ChangesOnly bs p q) (ref : Block.ref ∉ bs)
    (heads : ∀ k, .head k ∉ bs) : Seen v q := a.of_same (same .ref ref).symm fun k => (same (.head k) (heads k)).symm

theorem Seen.startRequest {v p : Part} (a : Seen v p) {h : HeadId} (rest : (p.head h).drive.atRest = true) : Seen v (startRequest h p) := by
  rw [startRequest_rest rest]
  have refreshed : ∀ j {q : Part}, Seen v q → Seen v (refreshTake j q) := fun j q b =>
    b.frame (refreshTake_frame j q) (by simp [Block.taking, Block.posting]) (by simp [Block.taking, Block.posting])
  refine refreshed .i2 (refreshed .i1 (Seen.of_same (p := startDrive h .scheduler p) ?_ rfl fun k => mapPreds_head _ _ _ k))
  refine ⟨(startDrive_frame h .scheduler p .ref (by simp [Block.driving, Block.alarming, Block.posting])).symm.trans a.ref, fun k => ?_,
    fun k moving => ?_, fun k locked => ?_⟩
  · by_cases its : k = h
    · subst its
      rw [startDrive_started .scheduler rest]
      exact a.assigned k
    · rw [startDrive_head_ne its]
      exact a.assigned k
  · have its : k ≠ h := fun its => by
      subst its
      rw [a.moving k moving, moving] at rest
      exact nomatch rest
    rw [startDrive_head_ne its]
    exact a.moving k moving
  · by_cases its : k = h
    · subst its
      rw [startDrive_started .scheduler rest] at locked
      exact nomatch locked
    · rw [startDrive_head_ne its] at locked
      exact a.locked k locked

theorem seen_toils (v : Part) (j : IslandId) : Toils j (Seen v) where
  post s e p a := a.frame (post_frame s e p) (by simp [Block.posting]) (by simp [Block.posting])
  raise s k x y p _ a := a.frame (raiseAlarm_frame (.island s) k x y p) (by simp [Block.alarming, Block.posting]) (by simp [Block.alarming, Block.posting])
  front f p a := a.of_same rfl (modFront_head j f p)
  refresh k p a := a.frame (refreshTake_frame k p) (by simp [Block.taking, Block.posting]) (by simp [Block.taking, Block.posting])
  start h p rest a := a.startRequest rest
  commit s c o p _ a := a.frame (commit_frame j s c o p) (by simp [Block.committing, Block.linking, Block.posting])
    (by simp [Block.committing, Block.linking, Block.posting])
  ends o r p a := a.frame (endFront_frame j o r p) (by simp [Block.taking, Block.posting]) (by simp [Block.taking, Block.posting])

theorem Seen.portOf {v p : Part} {i : IslandId} (a : Seen v p) (settings : (p.island i).settings = (v.island i).settings) (s : Source) :
    p.portOf i s = v.portOf i s := by
  unfold Part.portOf
  split
  · rw [a.assigned, settings]
  · rw [settings]
  · rw [settings]

/-! ### Both islands in their order -/

/-- A step of an island that keeps whatever the work of that island keeps. -/
def Works (f : IslandId → Part → Part) : Prop := ∀ (I : Part → Prop) j, Toils j I → ∀ p, I p → I (f j p)

/-- Island 1, then Island 2. -/
def both (f : IslandId → Part → Part) (p : Part) : Part := f .i2 (f .i1 p)

theorem Works.both {f : IslandId → Part → Part} (F : Works f) {I : Part → Prop} (K : ∀ j, Toils j I) {p : Part} (a : I p) : I (both f p) :=
  F I .i2 (K .i2) _ (F I .i1 (K .i1) _ a)

/-- A step of island `i` between two properties that the other island's step keeps. -/
theorem Works.at {f : IslandId → Part → Part} (F : Works f) {i : IslandId} {A B : Part → Prop} (KA : ∀ j, i ≠ j → Toils j A)
    (KB : ∀ j, i ≠ j → Toils j B) (own : ∀ p, A p → B (f i p)) {p : Part} (a : A p) : B (Machine.both f p) := by
  cases i
  · exact F B .i2 (KB .i2 (by decide)) _ (own _ a)
  · exact own _ (F A .i1 (KA .i1 (by decide)) _ a)

/-- The takes of one island, settled. -/
def settleTake (i : IslandId) (p : Part) : Part := workTake i (refreshTake i p)

theorem settleTakes_both (p : Part) : settleTakes p = both settleTake p := by
  unfold settleTakes both settleTake
  rfl

theorem settleTake_works : Works settleTake := fun _ j K _ a => workTake_toils K (K.refresh j _ a)

theorem meetGuards_both (p : Part) : meetGuards p = both meetGuard p := rfl

theorem meetGuard_works : Works meetGuard := fun _ _ K _ a => meetGuard_toils K a

/-- What head `h` that has left the running states brings to island `i`: `act` where it is on air, and its take's end where it is the
take's incoming head (R107 to R109). -/
def tellOne (act : IslandId → Part → Part) (r : Reason) (h : HeadId) (i : IslandId) (p : Part) : Part :=
  incomingFailed i h r (if (p.island i).onAir = .head h then act i p else p)

theorem tellOne_works {act : IslandId → Part → Part} (A : Works act) (r : Reason) (h : HeadId) : Works (tellOne act r h) :=
  fun I j K p a => incomingFailed_toils K h r (ite_keeps (A I j K p a) a)

theorem onAirStop_works : Works onAirStop := fun _ _ K _ a => onAirStop_toils K a
theorem onAirFault_works : Works onAirFault := fun _ _ K _ a => onAirFault_toils K a

/-- The scheduler told that head `h` has left the running states, with the end guards met. -/
def tellLeft (act : IslandId → Part → Part) (r : Reason) (h : HeadId) (p : Part) : Part :=
  both meetGuard (both (tellOne act r h) (both settleTake (mapPreds h Pred.atLeave p)))

theorem tellStop_left (h : HeadId) (p : Part) : meetGuards (tellStop h p) = tellLeft onAirStop .incomingStopped h p := by
  unfold tellStop tellLeft both tellOne meetGuards settleTakes settleTake
  rfl
theorem tellFault_left (h : HeadId) (p : Part) : tellFault h p = tellLeft onAirFault .incomingFault h p := by
  unfold tellFault tellLeft both tellOne meetGuards settleTakes settleTake
  rfl

section
variable {act : IslandId → Part → Part} (A : Works act) {r : Reason} {h : HeadId} {p : Part}
include A

theorem tellLeft_keeps {I : Part → Prop} (K : ∀ j, Toils j I) (a : I (mapPreds h Pred.atLeave p)) : I (tellLeft act r h p) :=
  meetGuard_works.both K ((tellOne_works A r h).both K (settleTake_works.both K a))

/-- A clause about island `i`: what its takes settled, its report and its guard make of it, each kept by the other island. -/
theorem tellLeft_clause {i : IslandId} {I J L M : Part → Prop} (KI : ∀ j, i ≠ j → Toils j I) (KJ : ∀ j, i ≠ j → Toils j J)
    (KL : ∀ j, i ≠ j → Toils j L) (KM : ∀ j, i ≠ j → Toils j M) (settles : ∀ q, I q → J (settleTake i q))
    (told : ∀ q, J q → L (tellOne act r h i q)) (guarded : ∀ q, L q → M (meetGuard i q)) (a : I (mapPreds h Pred.atLeave p)) :
    M (tellLeft act r h p) :=
  meetGuard_works.at KL KM guarded ((tellOne_works A r h).at KJ KL told (settleTake_works.at KI KJ settles a))

end

theorem settleTake_idle {i : IslandId} {p : Part} (idle : (p.island i).active = none) : settleTake i p = p := by
  have same : refreshTake i p = p := by
    unfold refreshTake
    rw [idle]
  unfold settleTake workTake evalTake meetStart
  rw [same]
  have converted : convertNow i p = p := by
    unfold convertNow
    rw [idle]
  have sent : sendStart i p = p := by
    unfold sendStart
    rw [idle]
  have followed : followRunning i p = p := by
    unfold followRunning
    rw [idle]
  have judged : judgeReady i p = p := by
    unfold judgeReady
    rw [idle]
  have aimed : retarget i p = p := by
    unfold retarget
    rw [idle]
  have unstarted : startDue i p = false := by
    unfold startDue
    rw [idle]
  rw [converted, sent, followed, judged, aimed, unstarted, if_neg Bool.false_ne_true, meetCommit_undue (commitDue_of_idle idle)]

theorem incomingFailed_idle {i : IslandId} {p : Part} (idle : (p.island i).active = none) (h : HeadId) (r : Reason) :
    incomingFailed i h r p = p := by
  unfold incomingFailed
  rw [idle]

theorem incomingFailed_other {i : IslandId} {p : Part} {t : Take} {h : HeadId} (active : (p.island i).active = some t)
    (other : t.incoming ≠ .head h ∨ t.state = .committed) (r : Reason) : incomingFailed i h r p = p := by
  unfold incomingFailed
  rw [active]
  exact if_neg fun is => other.elim (fun n => n is.1) is.2

theorem meetGuard_awaits {i : IslandId} {p : Part} (awaits : (p.island i).confirm.isSome = true) : meetGuard i p = p := by
  rw [meetGuard, guardDue_of_awaits awaits]
  exact if_neg Bool.false_ne_true

end Sys2Proof.Machine
end

section
/-! PROOFS. The clauses of R107 to R109: what a fault or a stop of a head on air, or of an incoming head, brings to an island. -/

namespace Sys2Proof.Machine

/-- `q` is `p` but for head `h`, which has left the running states and rests nowhere, and what is told of it. -/
structure Left (h : HeadId) (p q : Part) : Prop where
  island : ∀ i, q.island i = p.island i
  ref : q.ref = p.ref
  others : ∀ k, k ≠ h → q.head k = p.head k
  assigned : (q.head h).assigned = (p.head h).assigned
  moving : (q.head h).drive.atRest = false
  still : (q.head h).drive.running = false

theorem before_of_ahead {p : Part} {i : IslandId} {f : Stamp} (a : p.ahead i f) : p.ref.before (p.island i).settings.lead f := by
  unfold RefUnit.before reached
  exact decide_eq_false (Nat.not_lt.2 a)

theorem Pred.atLeave_exact {k : PredKind} {r : Pred} : (Pred.atLeave k r).basis ≠ .exact := by
  unfold Pred.atLeave
  split
  · rename_i reached
    rw [reached]
    exact nofun
  · exact nofun

section
variable {i : IslandId} {h : HeadId} {p q : Part} (a : Left h p q)
include a

theorem Left.gist (i : IslandId) : ((mapPreds h Pred.atLeave q).island i).gist = (p.island i).gist := by
  rw [mapPreds_gist, a.island]

theorem Left.active (i : IslandId) {t : Take} (active : (p.island i).active = some t) : (q.island i).active = some t := by
  rw [a.island]
  exact active

theorem Left.head_eq {k : HeadId} (locked : (q.head k).drive = .locked) : q.head k = p.head k :=
  a.others k fun same => by
    have still := a.still
    rw [← same, locked] at still
    exact nomatch still

omit a in
theorem Left.seen : Seen q (mapPreds h Pred.atLeave q) := (Seen.refl q).of_same rfl (mapPreds_head h _ q)

/-- The end guard follows head `h` or nothing, its field not reached (R105). -/
theorem Left.endRests (rests : p.guardRests i h) :
    EndRests h q.ref (p.island i).settings.lead ((p.island i).fEnd.map (followedBy h Pred.atLeave .cutOrEnd)) := by
  intro d is
  obtain ⟨r, known, rfl⟩ := Option.map_eq_some_iff.1 is
  obtain ⟨its, ahead⟩ := rests r known
  rw [followedBy, if_pos its, Pred.atLeave]
  split
  · exact ⟨its, fun f value => a.ref ▸ before_of_ahead (ahead f value)⟩
  · exact ⟨its, nofun⟩

theorem Left.rested (rests : p.guardRests i h) : Rested i h (mapPreds h Pred.atLeave q) := by
  refine ⟨by rw [mapPreds_head]; exact a.moving, ?_⟩
  rw [mapPreds_island, a.island]
  exact a.endRests rests

/-- An active take whose cut follows nothing but head `h`, with no field reached, waits. -/
theorem Left.bides {t : Take} (active : (p.island i).active = some t) (guard : p.guardRests i h) (rests : p.cutRests i h t)
    (state : t.StateWaits q t) : Waiting i h (p.island i) t (mapPreds h Pred.atLeave q) := by
  obtain ⟨cuts, fCut, -, sops⟩ := rests
  have leads := (leads_of_active (a.active i active)).mapPreds h Pred.atLeave
  rw [a.island] at leads
  refine ⟨q, t.mapPreds h Pred.atLeave, ⟨_, leads, a.endRests guard⟩, ?_, a.moving⟩
  have before : ∀ f, p.ahead i f → q.ref.before (p.island i).settings.lead f := fun f ahead => a.ref ▸ before_of_ahead ahead
  constructor
  case tag => rfl
  case incoming => rfl
  case state => exact state.of_same rfl rfl
  case fCut => exact fun f is => before f (fCut f is)
  case cut =>
    intro r is
    obtain ⟨r', cut, rfl⟩ := Option.map_eq_some_iff.1 is
    obtain ⟨its, unreached⟩ := cuts r' cut
    rw [followedBy, if_pos its, Pred.atLeave, if_neg unreached]
    exact ⟨its, rfl, nofun⟩
  case sop =>
    intro held f is
    unfold Take.heldSop at is
    rw [show (t.mapPreds h Pred.atLeave).head? = t.head? from rfl] at is
    cases head : t.head? with
    | none => simp [head] at is
    | some k =>
      cases sop : t.sop with
      | none => simp [head, sop, Take.mapPreds] at is
      | some r =>
        simp only [head, sop, Take.mapPreds, Option.map_some] at is
        split at is
        · rename_i exact_
          unfold followedBy at exact_ is
          by_cases its : r.head = h
          · rw [if_pos its] at exact_
            exact absurd exact_.2 Pred.atLeave_exact
          · rw [if_neg its] at is
            exact before f (sops held r sop f is)
        · exact nomatch is

end

/-! ### The mirror left alone -/

theorem takes_of_gist {x : Island} (empty : x.gist.takes = []) : x.takes = [] := List.map_eq_nil_iff.1 empty

theorem idle_of_gist {x : Island} (empty : x.gist.takes = []) : x.active = none := by
  unfold Island.active
  rw [takes_of_gist empty]

section
variable {act : IslandId → Part → Part} (A : Works act) {r : Reason} {i : IslandId} {h : HeadId} {p q : Part} (a : Left h p q)
include A a

omit A a in
theorem MirrorKept.of_mirrored {q : Part} (m : Mirrored i ((p.island i).onAir, (p.island i).mirror, (p.island i).confirm) q) :
    MirrorKept i p q := by
  simp only [Mirrored, Prod.mk.injEq] at m
  exact m

theorem tellLeft_awaited (awaits : (p.island i).confirm.isSome = true) : MirrorKept i p (tellLeft act r h q) :=
  .of_mirrored (tellLeft_keeps A (mirrored_toils awaits) (Mirrored.of_gist rfl (a.gist i)))

/-- With no takes, and where the act is none, the mirror is left alone, unless the end guard is due (R105, R107). -/
theorem tellLeft_empty (empty : (p.island i).takes = []) (rests : p.guardRests i h)
    (stays : ∀ q, (q.island i).settings = (p.island i).settings → act i q = q) : MirrorKept i p (tellLeft act r h q) := by
  have K : ∀ j, i ≠ j → Toils j fun q => Kept i (· = (p.island i).gist) q ∧ Rested i h q :=
    fun j n => (kept_toils n _).and (rested_toils j)
  have idle : ∀ {q : Part}, Kept i (· = (p.island i).gist) q → (q.island i).active = none := fun {q} kept =>
    idle_of_gist (by rw [show (q.island i).gist = _ from kept, Island.gist, empty]; rfl)
  obtain ⟨kept, -⟩ := tellLeft_clause (r := r) A K K K K
    (fun q b => by rw [settleTake_idle (idle b.1)]; exact b)
    (fun q b => by
      rw [tellOne, stays q (gist_settings b.1), ite_self, incomingFailed_idle (idle b.1)]
      exact b)
    (fun q b => by
      rw [meetGuard, b.2.undue, if_neg Bool.false_ne_true]
      exact b)
    ⟨a.gist i, a.rested rests⟩
  exact .of_mirrored (Mirrored.of_gist rfl kept)

end

/-! ### The standby commit -/

/-- An island on which STANDBY has been committed M fields after field `n`, with takes as `P` says. -/
structure StandsAs (x : Island) (n : Stamp) (P : List (Word × Source × TakeState × TakeOutcome) → Prop) (g : Island.Gist) : Prop where
  onAir : g.onAir = x.onAir
  mirror : g.mirror = .moving x.settings.standbyPort
  confirm : g.confirm = some { target := .standby, port := x.settings.standbyPort, cut := Stamp.plus n x.settings.lead, owner := .island
                               deadline := Stamp.plus (Stamp.plus n x.settings.lead) x.settings.grace }
  takes : P g.takes

theorem standbyNow_stands {i : IslandId} {x : Island} {n : Stamp} {P : List (Word × Source × TakeState × TakeOutcome) → Prop} {q : Part}
    (settings : (q.island i).settings = x.settings) (onAir : (q.island i).onAir = x.onAir) (ref : q.ref.count = n)
    (takes : P (q.island i).gist.takes) : Kept i (StandsAs x n P) (standbyNow i q) := by
  unfold Kept
  rw [standbyNow_island, Part.leadField, settings, ref]
  exact ⟨onAir, rfl, rfl, takes⟩

theorem StandsAs.guarded {i : IslandId} {x : Island} {n : Stamp} {P : List (Word × Source × TakeState × TakeOutcome) → Prop} {q : Part}
    (a : Kept i (StandsAs x n P) q) : Kept i (StandsAs x n P) (meetGuard i q) := by
  rw [meetGuard_awaits (by
    have confirm := a.confirm
    rw [show (q.island i).confirm = _ from confirm]
    rfl)]
  exact a

theorem StandsAs.standsBy {i : IslandId} {p q : Part} {P : List (Word × Source × TakeState × TakeOutcome) → Prop}
    (a : Kept i (StandsAs (p.island i) p.ref.count P) q) : StandsBy i p q :=
  ⟨a.onAir, a.mirror, a.confirm⟩

section
variable {act : IslandId → Part → Part} (A : Works act) {r : Reason} {i : IslandId} {h : HeadId} {p q : Part} (a : Left h p q)
include A a

/-- With no takes, the source on air gone: STANDBY is committed (R107, R108). -/
theorem tellLeft_standsBy (empty : (p.island i).takes = []) (onAir : (p.island i).onAir = .head h)
    (acts : ∀ q, (q.island i).gist = (p.island i).gist → act i q = standbyNow i q) :
    StandsBy i p (tellLeft act r h q) ∧ ((tellLeft act r h q).island i).takes = [] := by
  have idle : ∀ {q : Part}, (q.island i).gist = (p.island i).gist → (q.island i).active = none := fun {q} kept =>
    idle_of_gist (by rw [kept, Island.gist, empty]; rfl)
  have K : ∀ j, i ≠ j → Toils j fun b => Kept i (· = (p.island i).gist) b ∧ Seen q b := fun j n => (kept_toils n _).and (seen_toils q j)
  have L : ∀ j, i ≠ j → Toils j (Kept i (StandsAs (p.island i) p.ref.count (· = []))) := fun j n => kept_toils n _
  have stands := tellLeft_clause (r := r) A K K L L
    (fun b kept => by rw [settleTake_idle (idle kept.1)]; exact kept)
    (fun b kept => by
      obtain ⟨gist, seen⟩ := kept
      have air : (b.island i).onAir = .head h := (congrArg Island.Gist.onAir gist).trans onAir
      have done := standbyNow_stands (n := p.ref.count) (P := (· = [])) (gist_settings gist)
        (congrArg Island.Gist.onAir gist) (by rw [seen.ref, a.ref])
        ((congrArg Island.Gist.takes gist).trans (by rw [Island.gist, empty]; rfl))
      rw [tellOne, if_pos air, acts b gist, incomingFailed_idle (idle_of_gist done.takes)]
      exact done)
    (fun b stands => StandsAs.guarded stands) ⟨a.gist i, Left.seen⟩
  exact ⟨StandsAs.standsBy stands, takes_of_gist stands.takes⟩

omit A a in
theorem Waiting.settleTake {x : Island} {t : Take} {b : Part} (waits : Waiting i h x t b) : Waiting i h x t (settleTake i b) := by
  obtain ⟨v, u, bides⟩ := waits
  obtain ⟨w, w', c⟩ := bides.refresh.workTake fun unheld => bides.waits.undue fun held => unheld ((Take.refreshed_state ..).trans held)
  exact ⟨w, w', c⟩

/-- How a take that waited may be told in the list. -/
def Take.Told (v : Part) (t : Take) (l : List (Word × Source × TakeState × TakeOutcome)) : Prop :=
  ∃ s o, l.head? = some (t.tag, t.incoming, s, o) ∧ s ≠ .queued ∧ (t.state = .held → s = .held) ∧
    (t.state = .armed → s = .armed ∨ s = .starting) ∧ (t.state = .starting ∨ t.state = .ready → s = .starting ∨ s = .ready) ∧
    ∀ k, t.incoming = .head k → (v.head k).drive ≠ .locked → t.state = .starting → s = .starting

omit A a in
theorem Take.StateWaits.told {v : Part} {t u : Take} (a : t.StateWaits v u) : (t.state = .held → u.state = .held) ∧
    (t.state = .armed → u.state = .armed ∨ u.state = .starting) ∧
    (t.state = .starting ∨ t.state = .ready → u.state = .starting ∨ u.state = .ready) ∧
    ∀ k, t.incoming = .head k → (v.head k).drive ≠ .locked → t.state = .starting → u.state = .starting := by
  obtain held | ready | ⟨k, incoming, armed | still | judged⟩ := a
  · rw [held.1, held.2]
    exact ⟨fun _ => rfl, nofun, by simp, fun _ _ _ => nofun⟩
  · rw [ready.2.1, ready.2.2]
    exact ⟨nofun, nofun, fun _ => .inr rfl, fun _ _ _ => nofun⟩
  · rw [armed.1]
    exact ⟨nofun, fun _ => armed.2.1, by simp, fun _ _ _ => nofun⟩
  · rw [still.1, still.2.1]
    exact ⟨nofun, nofun, fun _ => .inl rfl, fun _ _ _ _ => rfl⟩
  · have now : u.state = .starting ∨ u.state = .ready := judged.2.symm.imp_left And.left
    refine ⟨fun is => ?_, fun is => ?_, fun _ => now, fun j its unlocked is => ?_⟩
    · obtain ⟨s, -⟩ | s := judged.1 <;> exact absurd (s.symm.trans is) nofun
    · obtain ⟨s, -⟩ | s := judged.1 <;> exact absurd (s.symm.trans is) nofun
    · rw [incoming] at its
      cases its
      obtain ⟨-, locked⟩ | s := judged.1
      · exact absurd locked unlocked
      · exact absurd (s.symm.trans is) nofun

/-- A take that waits waits on past the standby commit (R107, R108). -/
theorem tellLeft_waits {t : Take} (active : (p.island i).active = some t) (onAir : (p.island i).onAir = .head h)
    (other : t.incoming ≠ .head h) (guard : p.guardRests i h) (rests : p.cutRests i h t) (state : t.StateWaits q t)
    (acts : ∀ b, Waiting i h (p.island i) t b → Seen q b → act i b = standbyNow i b) :
    StandsBy i p (tellLeft act r h q) ∧ ∃ u, ((tellLeft act r h q).island i).active = some u ∧ u.tag = t.tag ∧ u.incoming = t.incoming ∧
      (t.state = .held → u.state = .held) ∧ (t.state = .armed → u.state = .armed ∨ u.state = .starting) ∧
      (t.state = .starting ∨ t.state = .ready → u.state = .starting ∨ u.state = .ready) ∧
      ∀ k, t.incoming = .head k → (q.head k).drive ≠ .locked → t.state = .starting → u.state = .starting := by
  have K : ∀ j, i ≠ j → Toils j fun b => Waiting i h (p.island i) t b ∧ Seen q b := fun j n => (waiting_toils n).and (seen_toils q j)
  have L : ∀ j, i ≠ j → Toils j (Kept i (StandsAs (p.island i) p.ref.count (t.Told q))) := fun j n => kept_toils n _
  have stands := tellLeft_clause (r := r) A K K L L
    (fun b ⟨⟨v, u, bides⟩, seen⟩ => ⟨Waiting.settleTake ⟨v, u, bides⟩, settleTake_works _ i (seen_toils q i) b seen⟩)
    (fun b ⟨waiting, seen⟩ => by
      have same := acts b waiting seen
      obtain ⟨v, u, bides⟩ := waiting
      obtain ⟨e, leads, -⟩ := bides.leads
      have past := leads.past
      have air : (b.island i).onAir = .head h := by
        rw [leads.island]
        exact onAir
      have unlocked : ∀ k, (q.head k).drive ≠ .locked → (v.head k).drive ≠ .locked := fun k no is =>
        no (seen.locked k (by rw [leads.heads]; exact is))
      obtain ⟨held, armed, judged, still⟩ := bides.waits.state.told
      have done := standbyNow_stands (i := i) (x := p.island i) (n := p.ref.count) (P := t.Told q) (q := b) (by rw [leads.island]; rfl)
        (by rw [leads.island]; rfl) (by rw [seen.ref, a.ref])
        (by
          rw [leads.island]
          exact ⟨u.state, u.outcome, by rw [← bides.waits.tag, ← bides.waits.incoming]; rfl, past, held, armed, judged,
            fun k its no is => still k its (unlocked k no) is⟩)
      have now : ((standbyNow i b).island i).active = some u := by
        rw [standbyNow_island]
        exact leads.active
      rw [tellOne, if_pos air, same, incomingFailed_other now (.inl (by rw [bides.waits.incoming]; exact other))]
      exact done)
    (fun b stands => StandsAs.guarded stands) ⟨a.bides active guard rests state, Left.seen⟩
  refine ⟨StandsAs.standsBy stands, ?_⟩
  obtain ⟨s, o, front, past, rest⟩ := stands.takes
  have is := Island.active_gist ((tellLeft act r h q).island i)
  cases takes : ((tellLeft act r h q).island i).gist.takes with
  | nil =>
    rw [takes] at front
    exact nomatch front
  | cons g l =>
    rw [takes] at front is
    cases front
    dsimp only at is
    rw [if_neg past] at is
    obtain ⟨u, now, gist⟩ := Option.map_eq_some_iff.1 is
    simp only [Take.gist, Prod.mk.injEq] at gist
    obtain ⟨tag, incoming, state, -⟩ := gist
    exact ⟨u, now, tag, incoming, by rw [state]; exact rest⟩

end

/-! ### The emergency commit, and the take that has committed -/

/-- The list whose front take `t` has committed its own move in an emergency. -/
def Take.Cut (t : Take) (l : List (Word × Source × TakeState × TakeOutcome)) : Prop :=
  l.head? = some (t.tag, t.incoming, .committed, .emergency)

/-- An island whose take has committed `t` with a cut at field `c`, its MOVE to `port`. -/
structure CutsAs (x : Island) (t : Take) (port : Port) (c : Stamp) (g : Island.Gist) : Prop where
  onAir : g.onAir = x.onAir
  mirror : g.mirror = .moving port
  confirm : g.confirm = some { target := t.incoming, port := port, cut := c, owner := .take, deadline := Stamp.plus c x.settings.grace }
  takes : t.Cut g.takes

theorem front_of_gist {x : Island} {g : Word × Source × TakeState × TakeOutcome} (front : x.gist.takes.head? = some g)
    (past : g.2.2.1 ≠ .queued) : ∃ u, x.active = some u ∧ u.gist = g := by
  have is := Island.active_gist x
  cases takes : x.gist.takes with
  | nil =>
    rw [takes] at front
    exact nomatch front
  | cons d l =>
    rw [takes] at front is
    cases front
    dsimp only at is
    rw [if_neg past] at is
    exact Option.map_eq_some_iff.1 is

/-- An on-air fault under FALLBACK with a take that can cut: it commits its own source, M fields on (R107). -/
theorem onAirFault_cuts {i : IslandId} {v b : Part} {x : Island} {u : Take} (leads : Leads i v x u b) (fallback : x.settings.policy = .fallback)
    (free : x.confirm = none) (can : u.canCut b = true) :
    Kept i (CutsAs x u (b.portOf i u.incoming) (Stamp.plus v.ref.count x.settings.lead)) (onAirFault i b) := by
  have acts : ¬ ((b.island i).settings.policy = .hold ∨ b.awaits i = true) := by
    rw [leads.settings, fallback, leads.awaits, free]
    simp
  unfold onAirFault
  rw [if_neg acts, leads.active]
  dsimp only
  rw [if_pos can]
  have cut := (leads.modFront (f := fun t => { t with slip := t.slipTo (b.leadField i) }) leads.past).cutSoon
  have committed := cut.commitTake .emergency none (cut := Stamp.plus v.ref.count x.settings.lead)
    (by rw [Take.refreshed_fCut, Take.figures_fCut _ _ rfl]; rfl)
  have port : (cutSoon i (b.modFront i fun t => { t with slip := t.slipTo (b.leadField i) })).portOf i u.incoming = b.portOf i u.incoming := by
    unfold Part.portOf
    rw [cut.settings, leads.settings]
    split
    · rw [cut.heads, leads.heads]
    · rfl
    · rfl
  have incoming := Take.refreshed_incoming v x.settings.lead { ({ u with slip := u.slipTo (b.leadField i) } : Take) with
    cut := none, fCut := some (Stamp.plus v.ref.count x.settings.lead) }
  have tag := Take.refreshed_tag v x.settings.lead { ({ u with slip := u.slipTo (b.leadField i) } : Take) with
    cut := none, fCut := some (Stamp.plus v.ref.count x.settings.lead) }
  unfold Kept
  rw [committed.island, incoming, port]
  exact ⟨rfl, rfl, rfl, by simp only [Take.Cut, Island.gist, Island.led, List.map_cons, List.head?_cons, Take.gist, tag]⟩

section
variable {r : Reason} {i : IslandId} {h : HeadId} {p q : Part} (a : Left h p q)
include a

theorem tellLeft_cuts {t : Take} (active : (p.island i).active = some t) (onAir : (p.island i).onAir = .head h)
    (free : (p.island i).confirm = none) (fallback : (p.island i).settings.policy = .fallback)
    (guard : p.guardRests i h) (rests : p.cutRests i h t) (state : t.StateWaits q t)
    (can : ∀ u b, u.incoming = t.incoming → t.StateWaits b u → (∀ k, (q.head k).drive.atRest = false → b.head k = q.head k) →
      u.canCut b = true) :
    Kept i (CutsAs (p.island i) t (q.portOf i t.incoming) (Stamp.plus p.ref.count (p.island i).settings.lead))
      (tellLeft onAirFault r h q) := by
  have K : ∀ j, i ≠ j → Toils j fun b => Waiting i h (p.island i) t b ∧ Seen q b := fun j n => (waiting_toils n).and (seen_toils q j)
  have L : ∀ j, i ≠ j → Toils j (Kept i (CutsAs (p.island i) t (q.portOf i t.incoming) (Stamp.plus p.ref.count (p.island i).settings.lead))) :=
    fun j n => kept_toils n _
  refine tellLeft_clause (r := r) onAirFault_works K K L L
    (fun b ⟨waiting, seen⟩ => ⟨waiting.settleTake, settleTake_works _ i (seen_toils q i) b seen⟩)
    (fun b ⟨⟨v, u, bides⟩, seen⟩ => ?_)
    (fun b cuts => ?_) ⟨a.bides active guard rests state, Left.seen⟩
  · obtain ⟨e, leads, -⟩ := bides.leads
    have air : (b.island i).onAir = .head h := by
      rw [leads.island]
      exact onAir
    have seenLeads := leads.seen (w := b) (fun _ => rfl) rfl
    have waits : t.StateWaits b u := by
      unfold Take.StateWaits
      simp only [leads.heads]
      exact bides.waits.state
    have done := onAirFault_cuts seenLeads fallback free (can u b bides.waits.incoming waits seen.moving)
    have settings : (b.island i).settings = (q.island i).settings := by rw [leads.settings, a.island]
    rw [bides.waits.incoming, seen.portOf settings, seen.ref, a.ref] at done
    have told : Kept i (CutsAs (p.island i) t (q.portOf i t.incoming) (Stamp.plus p.ref.count (p.island i).settings.lead)) (onAirFault i b) :=
      ⟨done.onAir, done.mirror, by rw [done.confirm, bides.waits.incoming], by
        have takes := done.takes
        rw [Take.Cut, bides.waits.tag, bides.waits.incoming] at takes
        exact takes⟩
    obtain ⟨w, now, gist⟩ := front_of_gist told.takes nofun
    have state : w.state = .committed := congrArg (·.2.2.1) gist
    rw [tellOne, if_pos air, incomingFailed_other now (.inr state)]
    exact told
  · rw [meetGuard_awaits (by rw [show (b.island i).confirm = _ from cuts.confirm]; rfl)]
    exact cuts

end

end Sys2Proof.Machine
end

section
/-! PROOFS. What becomes of an active take whose incoming head has left the running states (R109). -/

namespace Sys2Proof.Machine

/-! ### The take list under an island's work -/

/-- What holds of the island's gist, if every change of the front take that only follows it keeps that. -/
theorem kept_takes {i j : IslandId} {Q : Island.Gist → Prop}
    (front : ∀ (x : Island) t u, x.active = some t → t.Follows u → Q x.gist → Q (x.led u).gist)
    (commit : ∀ (x : Island) t, x.active = some t → Q x.gist → ∀ m c (f : Take → Take), (f t).tag = t.tag → (f t).incoming = t.incoming →
      (f t).state = .committed → Q (({ x with mirror := m, confirm := c } : Island).led (f t)).gist) : TakesKeep j (Kept i Q) where
  post s e p a := a.of_gist (congrArg Island.gist (post_island s e p i))
  front k f t p active follows a := by
    by_cases n : i = k
    · subst n
      have leads := (leads_of_active active).modFront (f := f) follows.past
      unfold Kept
      rw [leads.island]
      exact front _ t (f t) active follows a
    · exact a.of_gist (congrArg Island.gist (modFront_island_ne n f p))
  preds h _ f p _ _ a := a.of_gist (mapPreds_gist h f p i)
  start h _ p _ _ a := a.of_gist (congrArg Island.gist (startDrive_island h .scheduler p i))
  commit o l p a := by
    cases active : (p.island j).active with
    | none =>
      rw [commitTake, active]
      exact a
    | some t =>
      by_cases n : i = j
      · subst n
        unfold Kept
        rw [((leads_of_active active).commitTake o l rfl).island]
        exact commit _ t active a _ _ (fun u => { u with state := .committed, cut := none, commitAt := none, outcome := o, lost := l })
          rfl rfl rfl
      · refine a.of_gist (congrArg Island.gist ?_)
        unfold commitTake
        rw [active]
        dsimp only
        rw [post_island, modFront_island_ne n, commit_island_ne n]

theorem gist_takes_of_active {x : Island} {t : Take} (active : x.active = some t) : x.gist.takes = t.gist :: x.takes.tail.map Take.gist := by
  have is := congrArg Island.gist (Island.led_of_active active)
  rw [is]
  rfl

/-- The front take has committed. -/
def Committed (tag : Word) (g : Island.Gist) : Prop := ∃ s o, g.takes.head? = some (tag, s, .committed, o)

/-- No take comes from head `h`. -/
def Aims (h : HeadId) (g : Island.Gist) : Prop := ∀ d ∈ g.takes, d.2.1 ≠ .head h

theorem committed_takes (i j : IslandId) (tag : Word) : TakesKeep j (Kept i (Committed tag)) := by
  have known : ∀ {x : Island} {t : Take}, x.active = some t → Committed tag x.gist → t.tag = tag ∧ t.state = .committed :=
    fun {x t} active ⟨s, o, front⟩ => by
      rw [gist_takes_of_active active] at front
      simp only [List.head?_cons, Option.some.injEq, Take.gist, Prod.mk.injEq] at front
      exact ⟨front.1, front.2.2.1⟩
  refine kept_takes (fun x t u active follows a => ?_) fun x t active a m c f same _ state => ?_
  · obtain ⟨tag, state⟩ := known active a
    exact ⟨u.incoming, u.outcome, by simp [Island.led, Island.gist, Take.gist, follows.tag, tag, follows.committed state]⟩
  · obtain ⟨tag, -⟩ := known active a
    exact ⟨(f t).incoming, (f t).outcome, by simp [Island.led, Island.gist, Take.gist, same, tag, state]⟩

theorem aims_led {h : HeadId} {x : Island} {t u : Take} (active : x.active = some t) (same : u.incoming = t.incoming)
    (a : Aims h x.gist) (m : MirrorState) (c : Option Confirmation) : Aims h (({ x with mirror := m, confirm := c } : Island).led u).gist := by
  intro d member
  rw [Aims, gist_takes_of_active active] at a
  simp only [Island.led, Island.gist, List.map_cons, List.mem_cons] at member a
  obtain rfl | rest := member
  · have first := a t.gist (.inl rfl)
    simpa [Take.gist, same] using first
  · exact a d (.inr rest)

theorem aims_takes (i j : IslandId) (h : HeadId) : TakesKeep j (Kept i (Aims h)) :=
  kept_takes (fun x _ _ active follows a => aims_led active follows.incoming a x.mirror x.confirm)
    fun _ _ active a m c _ _ same _ => aims_led active same a m c

theorem settleTake_takes {I : Part → Prop} {i : IslandId} (K : TakesKeep i I) {p : Part} (a : I p) : I (settleTake i p) :=
  workTake_takes K (refreshTake_takes K i a)

/-! ### The clauses of R109 -/

section
variable {act : IslandId → Part → Part} (A : Works act) {r : Reason} {i : IslandId} {h : HeadId} {p q : Part} (a : Left h p q)
include A a

/-- The move of a COMMITTED take proceeds. -/
theorem tellLeft_committed {t : Take} (active : (p.island i).active = some t) (committed : t.state = .committed)
    (awaits : (p.island i).confirm.isSome = true) (stays : ∀ b, b.awaits i = true → act i b = b) :
    MirrorKept i p (tellLeft act r h q) ∧
      ((tellLeft act r h q).island i).active.map (fun t => (t.tag, t.state)) = some (t.tag, .committed) := by
  have K : ∀ j, i ≠ j → Toils j fun b => Kept i (Committed t.tag) b ∧
      Mirrored i ((p.island i).onAir, (p.island i).mirror, (p.island i).confirm) b := fun j n =>
    (kept_toils n _).and (mirrored_toils awaits j)
  have confirm : ∀ {b : Part}, Mirrored i ((p.island i).onAir, (p.island i).mirror, (p.island i).confirm) b →
      (b.island i).confirm.isSome = true := fun {b} m => by
    simp only [Mirrored, Prod.mk.injEq] at m
    rw [m.2.2]
    exact awaits
  have front : ∀ {b : Part}, Kept i (Committed t.tag) b → ∃ u, (b.island i).active = some u ∧ u.tag = t.tag ∧ u.state = .committed :=
    fun {b} ⟨s, o, front⟩ => by
      obtain ⟨u, now, gist⟩ := front_of_gist front nofun
      simp only [Take.gist, Prod.mk.injEq] at gist
      exact ⟨u, now, gist.1, gist.2.2.1⟩
  have kept := tellLeft_clause (r := r) A K K K K
    (fun b ⟨c, m⟩ => ⟨settleTake_takes (committed_takes i i t.tag) c, settleTake_works _ i (mirrored_toils awaits i) b m⟩)
    (fun b ⟨c, m⟩ => by
      obtain ⟨u, now, -, state⟩ := front c
      rw [tellOne, stays b (confirm m), ite_self, incomingFailed_other now (.inr state)]
      exact ⟨c, m⟩)
    (fun b ⟨c, m⟩ => by
      rw [meetGuard_awaits (confirm m)]
      exact ⟨c, m⟩)
    ⟨by
      unfold Kept
      rw [a.gist, Committed, gist_takes_of_active active]
      exact ⟨t.incoming, t.outcome, by rw [List.head?_cons, Take.gist, committed]⟩, Mirrored.of_gist rfl (a.gist i)⟩
  obtain ⟨u, now, tag, state⟩ := front kept.1
  exact ⟨.of_mirrored kept.2, by rw [now, Option.map_some, tag, state]⟩

omit A in
theorem Left.gone {t : Take} (active : (p.island i).active = some t) (its : t.incoming = .head h) (open_ : t.state ≠ .committed) :
    Stranded i h (p.island i) t (fun _ => True) (mapPreds h Pred.atLeave q) := by
  have leads := (leads_of_active (a.active i active)).mapPreds h Pred.atLeave
  rw [a.island] at leads
  exact ⟨q, t.mapPreds h Pred.atLeave, ⟨⟨_, leads⟩, rfl, its, open_, a.moving, a.still⟩, trivial⟩

omit A a in
theorem Stranded.settleTake {x : Island} {t : Take} {b : Part} (s : Stranded i h x t (fun _ => True) b) :
    Stranded i h x t (· ≠ .ready) (settleTake i b) := by
  obtain ⟨v, u, gone, -⟩ := s
  obtain ⟨w, worked, -, state⟩ := gone.refresh.1.workTake
  exact ⟨v, w, worked, state⟩

omit A a in
theorem length_of_active {x : Island} {t : Take} (active : x.active = some t) : x.takes.length = x.takes.tail.length + 1 := by
  rw [Island.active_eq_some, List.head?_eq_some_iff] at active
  obtain ⟨⟨rest, takes⟩, -⟩ := active
  rw [takes]
  rfl

/-- The take ends, and the list is shorter. -/
theorem tellLeft_shorter {t : Take} (active : (p.island i).active = some t) (its : t.incoming = .head h) (open_ : t.state ≠ .committed)
    (acts : ∀ b, Stranded i h (p.island i) t (· ≠ .ready) b → act i b = b ∨ act i b = standbyNow i b) :
    ((tellLeft act r h q).island i).takes.length < (p.island i).takes.length := by
  have K : ∀ {P : TakeState → Prop} j, i ≠ j → Toils j (Stranded i h (p.island i) t P) := fun j n => stranded_toils n
  have L : ∀ j, Toils j (Fewer i (p.island i).takes.length) := fewer_toils _
  refine tellLeft_clause (r := r) A K K (fun j _ => L j) (fun j _ => L j) (fun b s => s.settleTake) (fun b s => ?_)
    (fun b f => meetGuard_works _ i (L i) b f) (a.gone active its open_)
  have done : ∃ u c, (c = if (b.island i).onAir = .head h then act i b else b) ∧ (c.island i).active = some u ∧ u.incoming = .head h ∧
      u.state ≠ .committed ∧ (c.island i).takes = u :: (p.island i).takes.tail := by
    obtain ⟨v, u, gone, -⟩ := id s
    obtain ⟨e, leads⟩ := gone.leads
    have takes : (b.island i).takes = u :: (p.island i).takes.tail := by rw [leads.island]; rfl
    refine ⟨u, _, rfl, ?_⟩
    split
    · obtain is | is := acts b s <;> rw [is]
      · exact ⟨leads.active, gone.incoming, gone.uncommitted, takes⟩
      · rw [standbyNow_island]
        exact ⟨leads.active, gone.incoming, gone.uncommitted, takes⟩
    · exact ⟨leads.active, gone.incoming, gone.uncommitted, takes⟩
  obtain ⟨u, c, is, now, incoming, uncommitted, takes⟩ := done
  rw [tellOne, ← is, incomingFailed, now]
  dsimp only
  rw [if_pos ⟨incoming, uncommitted⟩]
  refine activate_toils (L i) _ ?_
  unfold Fewer
  rw [endFront_island takes, length_of_active active]
  exact Nat.lt_succ_self _

end

/-! ### The TAKE_END of a take whose incoming head has left -/

/-- What the Event Unit is told now waits in its queue, and `es` among it: it writes, or it has no room, or the rings are not
initialised (R181, R182). -/
structure Pends (es : List Event) (p : Part) : Prop where
  still : p.init ≠ .done ∨ p.evt.writing = true ∨ p.evt.room (p.bus.ringSize .event) = false
  told : es.Sublist p.evt.queue

theorem Pends.pumps {es : List Event} {p : Part} (a : Pends es p) : pumpEvents p = p := by
  unfold pumpEvents
  split
  · rfl
  · refine if_neg fun ⟨done, idle, room⟩ => ?_
    obtain early | writing | full := a.still
    · exact early done
    · exact idle writing
    · rw [full] at room
      exact nomatch room

theorem Pends.joins {es : List Event} {p : Part} (a : Pends es p) (s : AlarmSource) (e : EventItem) (room : p.evt.queue.length < Config.maxEvents) :
    Pends (es ++ [⟨s, p.ref.count, e⟩]) (post s e p) := by
  have joined : Pends (es ++ [⟨s, p.ref.count, e⟩]) { p with evt := { p.evt with queue := p.evt.queue ++ [⟨s, p.ref.count, e⟩] } } :=
    ⟨a.still, List.Sublist.append a.told (List.Sublist.refl _)⟩
  rw [post, if_pos room, joined.pumps]
  exact joined

theorem pends_posts (es : List Event) : PostsKeep (Pends es) where
  post s e p a := by
    by_cases room : p.evt.queue.length < Config.maxEvents
    · obtain ⟨still, told⟩ := a.joins s e room
      exact ⟨still, (List.sublist_append_left _ _).trans told⟩
    · rw [Machine.post, if_neg room]
      exact ⟨a.still, a.told⟩
  same p q same a := by
    obtain ⟨-, init, bus, -, -, evt⟩ := same
    exact ⟨by rw [init, evt, bus]; exact a.still, by rw [evt]; exact a.told⟩

/-- An event posted on an empty queue is written at once, or waits. -/
theorem post_pends {p : Part} (empty : p.evt.queue = []) (s : AlarmSource) (e : EventItem) : Pends [] (post s e p) ∧ Few 1 (post s e p) := by
  refine ⟨⟨?_, List.nil_sublist _⟩, Few.post ⟨by rw [empty]; exact Nat.le_refl _⟩ s e⟩
  unfold Machine.post pumpEvents
  rw [empty, if_pos (by decide)]
  dsimp only [List.nil_append]
  split
  · refine .inr (.inl ?_)
    rw [(submit_leaves _ _).1.evt]
  · rename_i waits
    by_cases done : p.init = .done
    · by_cases writing : p.evt.writing = true
      · exact .inr (.inl writing)
      · exact .inr (.inr (Bool.eq_false_iff.2 fun room => waits ⟨done, writing, room⟩))
    · exact .inl done

theorem Pends.tellsEnd {p : Part} {i : IslandId} {t u : Take} {n : Stamp} {r : Reason} (a : Pends [⟨.island i, n, u.endItem .failed r⟩] p)
    (tag : u.tag = t.tag) (incoming : u.incoming = t.incoming) : p.tellsEnd i t .failed r = true := by
  have waits := List.singleton_sublist.1 a.told
  unfold Part.tellsEnd
  refine List.any_eq_true.2 ⟨_, waits, ?_⟩
  simp [Take.endItem, tag, incoming]

section
variable {r : Reason} {i j : IslandId} {h : HeadId} {p q b : Part} {x : Island} {t : Take} {k : Nat}

theorem Stranded.quiet {P : TakeState → Prop} (s : Stranded i h x t P b) : b.due Take.shorts i = 0 := by
  obtain ⟨v, u, gone, -⟩ := s
  obtain ⟨e, leads⟩ := gone.leads
  rw [Part.due_active gone.active, Take.shorts, gone.head?]
  refine if_neg fun is => ?_
  rw [leads.heads, gone.moving] at is
  exact nomatch is.1

/-- The other island's takes settled, while island `i` has nothing to tell of. -/
theorem Stranded.few_other {P : TakeState → Prop} (s : Stranded i h x t P b) (n : i ≠ j) (few : Few k b) : Few (k + 7) (Machine.settleTake j b) := by
  have shorts := Part.due_le Take.shorts_le b j
  have owes := Part.due_le Take.owes_le b j
  have none := s.quiet
  have sum : b.due Take.shorts .i1 + b.due Take.shorts .i2 = b.due Take.shorts i + b.due Take.shorts j := by
    cases i <;> cases j
    · exact absurd rfl n
    · rfl
    · exact Nat.add_comm _ _
    · exact absurd rfl n
  have owing : Owing j (k + 5) b := ⟨by
    have := few.few
    omega⟩
  exact ((owing.refresh j).workTake).queued

theorem Stranded.few_own (s : Stranded i h x t (fun _ => True) b) (few : Few k b) : Few k (Machine.settleTake i b) := by
  obtain ⟨v, u, gone, -⟩ := s
  obtain ⟨refreshed, evt⟩ := gone.refresh
  obtain ⟨w, -, same, -⟩ := refreshed.workTake
  exact few.of_evt (same.trans evt)

/-- The island's one take ends FAILED, its island otherwise as it was. -/
theorem Stranded.tellOne {act : IslandId → Part → Part} {P : TakeState → Prop} (s : Stranded i h x t P b) (off : (b.island i).onAir ≠ .head h)
    (one : x.takes.tail = []) : tellOne act r h i b = endFront i .failed r b ∧ ∃ u, u.tag = t.tag ∧ u.incoming = .head h ∧
      (b.island i).takes = [u] ∧ ∃ e, b.island i = ({ x with fEnd := e } : Island).led u := by
  obtain ⟨v, u, gone, -⟩ := s
  obtain ⟨e, leads⟩ := gone.leads
  have takes : (b.island i).takes = [u] := by
    rw [leads.island]
    exact congrArg (u :: ·) one
  refine ⟨?_, u, gone.tag, gone.incoming, takes, e, leads.island⟩
  rw [Machine.tellOne, if_neg off, incomingFailed, gone.active]
  dsimp only
  rw [if_pos ⟨gone.incoming, gone.uncommitted⟩, endActive, activateFront, endFront_island takes]
  rfl

theorem one_of_length {x : Island} (one : x.takes.length = 1) : x.takes.tail = [] :=
  List.eq_nil_of_length_eq_zero (by rw [List.length_tail, one])

theorem tellLeft_ends {act : IslandId → Part → Part} (A : Works act) (a : Left h p q) (active : (p.island i).active = some t)
    (its : t.incoming = .head h) (open_ : t.state ≠ .committed) (off : (p.island i).onAir ≠ .head h) (guard : p.guardRests i h)
    (one : (p.island i).takes.length = 1) : MirrorKept i p (tellLeft act r h q) := by
  have K : ∀ {P : TakeState → Prop} j, i ≠ j → Toils j fun b => Stranded i h (p.island i) t P b ∧ Rested i h b := fun j n =>
    (stranded_toils n).and (rested_toils j)
  have L : ∀ j, i ≠ j → Toils j fun b => Kept i (fun g => (g.onAir, g.mirror, g.confirm) =
      ((p.island i).onAir, (p.island i).mirror, (p.island i).confirm)) b ∧ Rested i h b := fun j n => (kept_toils n _).and (rested_toils j)
  refine .of_mirrored (tellLeft_clause (r := r) A K K L L
    (fun b ⟨s, rests⟩ => ⟨s.settleTake, settleTake_works _ i (rested_toils i) b rests⟩) (fun b ⟨s, rests⟩ => ?_) (fun b ⟨kept, rests⟩ => ?_)
    ⟨a.gone active its open_, a.rested guard⟩).1
  · have air : (b.island i).onAir ≠ .head h := by
      obtain ⟨v, u, gone, -⟩ := id s
      obtain ⟨e, leads⟩ := gone.leads
      rw [leads.island]
      exact off
    obtain ⟨ends, u, -, -, takes, e, island⟩ := s.tellOne (act := act) (r := r) air (one_of_length one)
    rw [ends]
    refine ⟨?_, (rested_toils i).ends _ _ _ rests⟩
    unfold Kept
    rw [endFront_island takes, island]
    rfl
  · rw [meetGuard, rests.undue, if_neg Bool.false_ne_true]
    exact ⟨kept, rests⟩

/-- What a head assigned to one island alone leaves of the other's takes (R91, R93). -/
theorem aims_of_sound (sound : p.islandsSound = true) (active : (p.island i).active = some t) (its : t.incoming = .head h) (n : i ≠ j) :
    Aims h (p.island j).gist := by
  have assigned : ∀ k, ∀ u ∈ (p.island k).takes, u.incoming = .head h → p.isAssigned k h = true := fun k u member incoming => by
    have both := Bool.and_eq_true_iff.1 sound
    have island : p.islandSound k = true := by
      cases k
      · exact both.1
      · exact both.2
    simp only [Part.islandSound, Bool.and_eq_true, List.all_eq_true] at island
    obtain ⟨⟨⟨⟨⟨-, all⟩, -⟩, -⟩, -⟩, -⟩ := island
    have source := (all u member).1
    rw [incoming] at source
    exact source
  intro d member is
  obtain ⟨u, inside, rfl⟩ := List.mem_map.1 member
  have there := assigned j u inside is
  have here := assigned i t (List.mem_of_mem_head? (Option.mem_def.2 (Island.active_eq_some.1 active).1)) its
  obtain ⟨x, known, xs⟩ := (Option.any_eq_true _ _).1 here
  obtain ⟨y, known', ys⟩ := (Option.any_eq_true _ _).1 there
  rw [known] at known'
  cases known'
  exact n ((of_decide_eq_true xs).symm.trans (of_decide_eq_true ys))

theorem incomingFailed_aims (aims : Kept i (Aims h) b) : incomingFailed i h r b = b := by
  cases active : (b.island i).active with
  | none => exact incomingFailed_idle active h r
  | some t =>
    refine incomingFailed_other active (.inl fun is => aims t.gist ?_ is) r
    rw [gist_takes_of_active active]
    exact List.mem_cons_self

theorem tellLeft_tellsEnd {act : IslandId → Part → Part} (A : Works act) (a : Left h p q) (active : (p.island i).active = some t)
    (its : t.incoming = .head h) (open_ : t.state ≠ .committed) (off : (p.island i).onAir ≠ .head h)
    (one : (p.island i).takes.length = 1) (sound : p.islandsSound = true) (pends : Pends [] q) (few : Few 6 q)
    (keeps : ∀ es j b, Pends es b → Pends es (act j b)) (actFew : ∀ k j b, Few k b → Few (k + 2) (act j b))
    (actAims : ∀ j b, Kept j (Aims h) b → Kept j (Aims h) (act j b)) : (tellLeft act r h q).tellsEnd i t .failed r = true := by
  have P := fun es => (pends_posts es).scheduler
  have settled : ∀ es j b, Pends es b → Pends es (settleTake j b) := fun es j b e =>
    workTake_keeps (P es) j (refreshTake_keeps (P es) j e)
  have guards : ∀ {es b}, Pends es b → Pends es (both meetGuard b) := fun e => meetGuard_keeps (P _) .i2 (meetGuard_keeps (P _) .i1 e)
  have gone := a.gone active its open_
  have came : Pends [] (mapPreds h Pred.atLeave q) ∧ Few 6 (mapPreds h Pred.atLeave q) :=
    ⟨(pends_posts []).same q _ ⟨rfl, rfl, rfl, rfl, rfl, rfl⟩ pends, few.of_evt rfl⟩
  have air : ∀ {P b}, Stranded i h (p.island i) t P b → (b.island i).onAir ≠ .head h := fun ⟨v, u, gone, _⟩ => by
    obtain ⟨e, leads⟩ := gone.leads
    rw [leads.island]
    exact off
  have ended : ∀ {P b}, Stranded i h (p.island i) t P b → Pends [] b → Few 15 b →
      ∃ (u : Take) (n : Stamp), u.tag = t.tag ∧ u.incoming = t.incoming ∧ Pends [⟨.island i, n, u.endItem .failed r⟩] (tellOne act r h i b) := fun {P b} s e f => by
    obtain ⟨ends, u, tag, incoming, takes, -⟩ := s.tellOne (act := act) (r := r) (air s) (one_of_length one)
    refine ⟨u, b.ref.count, tag, incoming.trans its.symm, ?_⟩
    rw [ends, endFront, takes]
    dsimp only
    have bare : Pends [] (b.modIsland i fun x => { x with takes := [] }) := (pends_posts []).same b _ ⟨rfl, rfl, rfl, rfl, rfl, rfl⟩ e
    exact bare.joins _ _ (Nat.lt_succ_of_le f.few)
  have told : ∀ es j b, Pends es b → Pends es (tellOne act r h j b) := fun es j b e =>
    incomingFailed_keeps (P es) j h r (ite_keeps (keeps es j b e) e)
  have aimed : ∀ j, i ≠ j → Kept j (Aims h) (mapPreds h Pred.atLeave q) := fun j n => by
    unfold Kept
    rw [a.gist]
    exact aims_of_sound sound active its n
  generalize is : mapPreds h Pred.atLeave q = m at gone came aimed
  obtain ⟨pends, few⟩ := came
  unfold tellLeft
  rw [is]
  cases i
  · have own : Stranded .i1 h (p.island .i1) t (· ≠ .ready) (settleTake .i1 m) := gone.settleTake
    have other := settleTake_works _ .i2 (stranded_toils (P := (· ≠ .ready)) (by decide)) _ own
    obtain ⟨u, n, tag, incoming, ends⟩ := ended other (settled [] .i2 _ (settled [] .i1 _ pends))
      ((own.few_other (by decide) (gone.few_own few)).mono (by decide))
    exact (guards (told _ .i2 _ ends)).tellsEnd tag incoming
  · have first := settleTake_works _ .i1 (stranded_toils (P := fun _ => True) (by decide)) _ gone
    have own : Stranded .i2 h (p.island .i2) t (· ≠ .ready) (settleTake .i2 (settleTake .i1 m)) := first.settleTake
    have fewer : Few 13 (settleTake .i2 (settleTake .i1 m)) := first.few_own (gone.few_other (by decide) few)
    have aims : Kept .i1 (Aims h) (settleTake .i2 (settleTake .i1 m)) :=
      settleTake_works _ .i2 (kept_toils (by decide) _) _ (settleTake_takes (aims_takes .i1 .i1 h) (aimed .i1 (by decide)))
    have settles := settled [] .i2 _ (settled [] .i1 _ pends)
    change (both meetGuard (tellOne act r h .i2 (tellOne act r h .i1 (settleTake .i2 (settleTake .i1 m))))).tellsEnd .i2 t .failed r = true
    generalize settleTake .i2 (settleTake .i1 m) = b at own fewer aims settles
    have acted : tellOne act r h .i1 b = if (b.island .i1).onAir = .head h then act .i1 b else b :=
      incomingFailed_aims (ite_keeps (actAims .i1 b aims) aims)
    obtain ⟨u, n, tag, incoming, ends⟩ := ended (tellOne_works A r h _ .i1 (stranded_toils (by decide)) b own) (told [] .i1 b settles)
      (by
        rw [acted]
        exact .ite (actFew 13 .i1 b fewer) (fewer.mono (by decide)))
    exact (guards ends).tellsEnd tag incoming

end

end Sys2Proof.Machine
end

section
/-! PROOFS. A stop and a fault of a head, told to both islands (R107 to R109). -/

namespace Sys2Proof.Machine

section
variable {i j : IslandId} {h : HeadId} {b : Part} {x : Island} {t : Take} {k : Nat}

/-! ### What the stop and the fault of a head on air do -/

theorem canCut_of_judged {u : Take} {k : HeadId} (its : u.incoming = .head k) (locked : (b.head k).drive = .locked)
    (state : u.state = .ready ∨ u.state = .starting ∨ u.state = .held) : u.canCut b = true := by
  have head : u.head? = some k := by rw [Take.head?, its]
  unfold Take.canCut
  obtain s | s | s := state <;> rw [s]
  · dsimp only
    rw [head, Option.any_some, locked]
    rfl
  · dsimp only
    rw [head, Option.any_some, locked]
    rfl

theorem cannotCut {u : Take} {k : HeadId} (its : u.incoming = .head k) (unlocked : (b.head k).drive ≠ .locked)
    (unready : u.state ≠ .ready) : u.canCut b = false := by
  have head : u.head? = some k := by rw [Take.head?, its]
  unfold Take.canCut
  cases state : u.state with
  | ready => exact absurd state unready
  | starting | held =>
    dsimp only
    rw [head, Option.any_some, decide_eq_false unlocked]
  | queued | armed | committed => rfl

theorem onAirStop_awaiting (awaits : b.awaits i = true) : onAirStop i b = b := if_pos awaits

theorem onAirStop_free (free : (b.island i).confirm = none) : onAirStop i b = standbyNow i b :=
  if_neg (by rw [awaits_eq_false.2 free]; exact Bool.false_ne_true)

theorem onAirStop_acts (b : Part) : onAirStop i b = b ∨ onAirStop i b = standbyNow i b := by
  unfold onAirStop
  split
  · exact .inl rfl
  · exact .inr rfl

theorem onAirFault_awaiting (awaits : b.awaits i = true) : onAirFault i b = b := if_pos (.inr awaits)

theorem onAirFault_hold (hold : (b.island i).settings.policy = .hold) : onAirFault i b = b := if_pos (.inl hold)

theorem onAirFault_standsBy (fallback : (b.island i).settings.policy = .fallback) (free : (b.island i).confirm = none)
    (cannot : ∀ t, (b.island i).active = some t → t.canCut b = false) : onAirFault i b = standbyNow i b := by
  have acts : ¬ ((b.island i).settings.policy = .hold ∨ b.awaits i = true) := by
    rw [fallback, awaits_eq_false.2 free]
    simp
  unfold onAirFault
  rw [if_neg acts]
  split
  · rename_i t active
    exact if_neg (by rw [cannot t active]; exact Bool.false_ne_true)
  · rfl

/-- A take whose head has left the running states cannot cut. -/
theorem onAirFault_acts (s : Stranded i h x t (· ≠ .ready) b) : onAirFault i b = b ∨ onAirFault i b = standbyNow i b := by
  obtain ⟨v, u, gone, unready⟩ := s
  obtain ⟨e, leads⟩ := gone.leads
  unfold onAirFault
  split
  · exact .inl rfl
  · right
    rw [gone.active]
    exact if_neg (by
      rw [cannotCut gone.incoming (by rw [leads.heads]; exact unlocked_of_still gone.still) unready]
      exact Bool.false_ne_true)

theorem standbyNow_few (a : Few k b) (i : IslandId) : Few (k + 1) (standbyNow i b) := commit_few a i _ _ _

theorem onAirStop_few (a : Few k b) (i : IslandId) : Few (k + 2) (onAirStop i b) :=
  ite_keeps (a.mono (Nat.le_add_right k 2)) ((standbyNow_few a i).mono (Nat.le_succ _))

/-- The cut of a take that can cut has no start field, so it tells of nothing but the commit. -/
theorem onAirFault_few (a : Few k b) (i : IslandId) : Few (k + 2) (onAirFault i b) := by
  have stands : Few (k + 2) (standbyNow i b) := (standbyNow_few a i).mono (Nat.le_succ _)
  unfold onAirFault
  split
  · exact a.mono (Nat.le_add_right k 2)
  · split
    · rename_i t active
      dsimp only
      split
      · rename_i can
        refine commitTake_few ?_ i _ _
        let cut : Take → Take := fun u => { u with slip := u.slipTo (b.leadField i), cut := none, fCut := some (b.leadField i) }
        have past := (Island.active_eq_some.1 active).2
        have set := (leads_of_active active).modFront (f := fun t => { t with slip := t.slipTo (b.leadField i) }) past
        have aimed := set.modFront (f := fun u => { u with cut := none, fCut := some ((b.modFront i fun t =>
          { t with slip := t.slipTo (b.leadField i) }).leadField i) }) past
        unfold cutSoon refreshTake
        rw [aimed.active]
        dsimp only
        have figured := aimed.modFront (f := Take.figures (b.island i).settings.lead) past
        rw [aimed.settings, figured.refreshStart_none (.inl ?_)]
        · split <;> exact a.of_evt rfl
        · unfold Take.planned
          split
          · refine if_neg fun plan => ?_
            have armed : t.state = .armed := plan.1
            rw [Take.canCut, armed] at can
            exact nomatch can
          · rfl
      · exact stands
    · exact stands

theorem standbyNow_aims (a : Kept i (Aims h) b) : Kept i (Aims h) (standbyNow i b) := by
  unfold Kept
  rw [standbyNow_island]
  exact a

theorem onAirStop_aims (a : Kept i (Aims h) b) : Kept i (Aims h) (onAirStop i b) := ite_keeps a (standbyNow_aims a)

theorem onAirFault_aims (a : Kept i (Aims h) b) : Kept i (Aims h) (onAirFault i b) := by
  unfold onAirFault
  split
  · exact a
  · split
    · rename_i t active
      dsimp only
      have past := (Island.active_eq_some.1 active).2
      have follows : t.Follows { t with slip := t.slipTo (b.leadField i) } :=
        .of_state past rfl rfl rfl rfl rfl rfl rfl rfl rfl (.inl rfl)
      have K := aims_takes i i h
      exact ite_keeps (K.commit _ _ _ (cutSoon_takes K (modFront_active active past) (K.front _ _ _ _ active follows a))) (standbyNow_aims a)
    · exact standbyNow_aims a

end

/-! ### The guards of R107 and R108 -/

section
variable {h : HeadId} {p q : Part} (a : Left h p q)
include a

theorem Left.stateWaits_of {t : Take} {k : HeadId} (its : t.incoming = .head k) (other : k ≠ h)
    (is : t.state = .held ∨ t.state = .armed ∧ (p.head k).drive ≠ .locked ∨ t.state = .ready ∨
      t.state = .starting ∧ (t.effective ≠ .now ∨ (p.head k).drive ≠ .locked)) : t.StateWaits q t := by
  rw [← a.others k other] at is
  obtain held | armed | ready | starting := is
  · exact .inl ⟨held, held⟩
  · exact .inr (.inr ⟨k, its, .inl ⟨armed.1, .inl armed.1, armed.2⟩⟩)
  · exact .inr (.inr ⟨k, its, .inr (.inr ⟨.inr ready, .inl ready⟩)⟩)
  · by_cases locked : (q.head k).drive = .locked
    · exact .inr (.inr ⟨k, its, .inr (.inr ⟨.inl ⟨starting.1, locked⟩, .inr starting⟩)⟩)
    · exact .inr (.inr ⟨k, its, .inr (.inl ⟨starting.1, starting.1, locked⟩)⟩)

/-- The stop of a head on air (R108). -/
theorem Left.stopGuarded : StopGuarded h p (tellLeft onAirStop .incomingStopped h q) := by
  intro i onAir
  refine ⟨fun awaits => tellLeft_awaited onAirStop_works a awaits, fun free empty => ?_, fun t active free guard cut kind => ?_⟩
  · exact tellLeft_standsBy onAirStop_works a empty onAir fun b same => onAirStop_free ((congrArg Island.Gist.confirm same).trans free)
  · have other : t.incoming ≠ .head h := by
      obtain ⟨-, standby⟩ | ⟨k, its, other, -⟩ := kind
      · rw [standby]
        exact nofun
      · rw [its]
        exact fun same => other (by cases same; rfl)
    have state : t.StateWaits q t := by
      obtain ⟨ready, standby⟩ | ⟨k, its, other, is⟩ := kind
      · exact .inr (.inl ⟨standby, ready, ready⟩)
      · refine a.stateWaits_of its other ?_
        obtain armed | held | ⟨starting | ready, later⟩ := is
        · exact .inr (.inl ⟨armed.1, unlocked_of_still armed.2⟩)
        · exact .inl held
        · exact .inr (.inr (.inr ⟨starting, later⟩))
        · exact .inr (.inr (.inl ready))
    obtain ⟨stands, u, now, tag, incoming, held, armed, judged, -⟩ := tellLeft_waits (r := .incomingStopped) onAirStop_works a active onAir
      other guard cut state fun b ⟨v, u, bides⟩ _ => by
        obtain ⟨e, leads, -⟩ := bides.leads
        exact onAirStop_free (leads.free free)
    exact ⟨stands, u, now, tag, incoming, held, armed, judged⟩

theorem Left.portOf {t : Take} {i : IslandId} (other : ∀ k, t.incoming = .head k → k ≠ h) : q.portOf i t.incoming = p.portOf i t.incoming := by
  unfold Part.portOf
  rw [a.island]
  split
  · rename_i k its
    rw [a.others k (other k its)]
  · rfl
  · rfl

/-- The fault of a head on air (R107). -/
theorem Left.faultGuarded : FaultGuarded h p (tellLeft onAirFault .incomingFault h q) := by
  intro i onAir
  refine ⟨fun awaits => tellLeft_awaited onAirFault_works a awaits, fun free hold empty guard => ?_, fun free fallback empty => ?_,
    fun t active free fallback guard cut => ⟨fun can => ?_, fun k its other armed still => ?_, fun k its other waits unlocked => ?_⟩⟩
  · exact tellLeft_empty onAirFault_works a empty guard fun b same => onAirFault_hold (by rw [same]; exact hold)
  · refine tellLeft_standsBy onAirFault_works a empty onAir fun b same =>
      onAirFault_standsBy (by rw [gist_settings same]; exact fallback) ((congrArg Island.Gist.confirm same).trans free) fun t active => ?_
    rw [idle_of_gist (by rw [same, Island.gist, empty]; rfl)] at active
    exact nomatch active
  · have others : ∀ k, t.incoming = .head k → k ≠ h := fun k its => by
      obtain ⟨-, standby⟩ | ⟨⟨j, its', other, -⟩, -⟩ := can
      · exact absurd (its.symm.trans standby) nofun
      · cases its.symm.trans its'
        exact other
    have state : t.StateWaits q t := by
      obtain ⟨ready, standby⟩ | ⟨⟨k, its, other, locked⟩, is⟩ := can
      · exact .inr (.inl ⟨standby, ready, ready⟩)
      · refine a.stateWaits_of its other ?_
        obtain ready | held | starting := is
        · exact .inr (.inr (.inl ready))
        · exact .inl held
        · exact .inr (.inr (.inr ⟨starting.1, .inl starting.2⟩))
    have cuts := tellLeft_cuts (r := .incomingFault) a active onAir free fallback guard cut state fun u b incoming waits moving => by
      obtain ⟨held, armed, judged, -⟩ := waits.told
      obtain ⟨ready, standby⟩ | ⟨⟨k, its, other, locked⟩, is⟩ := can
      · have now : u.state = .ready := by
          obtain is | is | ⟨k, is, -⟩ := waits
          · exact absurd (ready.symm.trans is.1) nofun
          · exact is.2.2
          · exact absurd (standby.symm.trans is) nofun
        rw [Take.canCut, now]
      · have same : b.head k = p.head k := by
          rw [moving k (by rw [a.others k other, locked]; rfl), a.others k other]
        refine canCut_of_judged (incoming.trans its) (by rw [same]; exact locked) ?_
        obtain ready | is | starting := is
        · exact (judged (.inr ready)).symm.imp_right .inl
        · exact .inr (.inr (held is))
        · exact (judged (.inl starting.1)).symm.imp_right .inl
    rw [a.portOf others] at cuts
    obtain ⟨u, now, gist⟩ := front_of_gist cuts.takes nofun
    simp only [Take.gist, Prod.mk.injEq] at gist
    obtain ⟨tag, -, committed, outcome⟩ := gist
    exact ⟨cuts.onAir, cuts.mirror, cuts.confirm, by rw [now, Option.map_some, tag, committed, outcome]⟩
  · have unlocked := unlocked_of_still still
    have foreign : t.incoming ≠ .head h := fun same => other (by cases its.symm.trans same; rfl)
    obtain ⟨stands, u, now, tag, incoming, held, started, judged, -⟩ := tellLeft_waits (r := .incomingFault) onAirFault_works a active onAir
      foreign guard cut (a.stateWaits_of its other (.inr (.inl ⟨armed, unlocked⟩))) fun b ⟨v, u, bides⟩ seen => by
        obtain ⟨e, leads, -⟩ := bides.leads
        refine onAirFault_standsBy (by rw [leads.settings]; exact fallback) (leads.free free) fun w now => ?_
        rw [leads.active] at now
        cases now
        refine cannotCut (bides.waits.incoming.trans its) (fun locked => unlocked ?_) fun ready => ?_
        · rw [← a.others k other]
          exact seen.locked k locked
        · have is := bides.waits.state.told.2.1 armed
          rw [ready] at is
          exact is.elim nofun nofun
    exact ⟨stands, u, now, tag, incoming, held, started, judged⟩
  · have foreign : t.incoming ≠ .head h := fun same => other (by cases its.symm.trans same; rfl)
    have waiting : t.state = .held ∨ t.state = .armed ∧ (p.head k).drive ≠ .locked ∨ t.state = .ready ∨
        t.state = .starting ∧ (t.effective ≠ .now ∨ (p.head k).drive ≠ .locked) :=
      waits.symm.imp_right fun starting => .inr (.inr ⟨starting, .inr unlocked⟩)
    have same : ∀ {s : TakeState}, (t.state = .held → s = .held) → (t.state = .starting → s = .starting) → s = t.state :=
      fun held starting => waits.elim (fun is => (starting is).trans is.symm) fun is => (held is).trans is.symm
    obtain ⟨stands, u, now, tag, incoming, held, -, -, still⟩ := tellLeft_waits (r := .incomingFault) onAirFault_works a active onAir
      foreign guard cut (a.stateWaits_of its other waiting) fun b ⟨v, u, bides⟩ seen => by
        obtain ⟨e, leads, -⟩ := bides.leads
        refine onAirFault_standsBy (by rw [leads.settings]; exact fallback) (leads.free free) fun w now => ?_
        rw [leads.active] at now
        cases now
        have locked : ∀ {b : Part}, (b.head k).drive = .locked → Seen q b → False := fun is seen => unlocked (by
          rw [← a.others k other]
          exact seen.locked k is)
        refine cannotCut (bides.waits.incoming.trans its) (fun is => locked is seen) fun ready => ?_
        obtain ⟨held, -, -, still⟩ := bides.waits.state.told
        have is := same held (still k its fun is => locked (by rw [leads.heads]; exact is) seen)
        rw [ready] at is
        rw [← is] at waits
        exact waits.elim nofun nofun
    refine ⟨stands, ?_⟩
    rw [now, Option.map_some, tag, same held (still k its (by rw [a.others k other]; exact unlocked))]

/-! ### The end of R109 -/

/-- The stop of an incoming head. -/
theorem Left.incomingStops (pends : p.evt.queue = [] → Pends [] q ∧ Few 6 q) :
    IncomingEnds h .incomingStopped p (tellLeft onAirStop .incomingStopped h q) := by
  intro i t active its
  refine ⟨fun committed awaits => ?_, fun open_ => ?_, fun open_ off guard one => ⟨?_, fun none sound => ?_⟩⟩
  · exact tellLeft_committed onAirStop_works a active committed awaits fun b awaits => onAirStop_awaiting awaits
  · exact tellLeft_shorter onAirStop_works a active its open_ fun b _ => onAirStop_acts b
  · exact tellLeft_ends onAirStop_works a active its open_ off guard one
  · obtain ⟨quiet, few⟩ := pends none
    exact tellLeft_tellsEnd onAirStop_works a active its open_ off one sound quiet few
      (fun es j b e => onAirStop_keeps (pends_posts es).scheduler j e) (fun k j b f => onAirStop_few f j) fun j b c => onAirStop_aims c

/-- The fault of an incoming head. -/
theorem Left.incomingFaults (pends : p.evt.queue = [] → Pends [] q ∧ Few 6 q) :
    IncomingEnds h .incomingFault p (tellLeft onAirFault .incomingFault h q) := by
  intro i t active its
  refine ⟨fun committed awaits => ?_, fun open_ => ?_, fun open_ off guard one => ⟨?_, fun none sound => ?_⟩⟩
  · exact tellLeft_committed onAirFault_works a active committed awaits fun b awaits => onAirFault_awaiting awaits
  · exact tellLeft_shorter onAirFault_works a active its open_ fun b s => onAirFault_acts s
  · exact tellLeft_ends onAirFault_works a active its open_ off guard one
  · obtain ⟨quiet, few⟩ := pends none
    exact tellLeft_tellsEnd onAirFault_works a active its open_ off one sound quiet few
      (fun es j b e => onAirFault_keeps (pends_posts es).scheduler j e) (fun k j b f => onAirFault_few f j) fun j b c => onAirFault_aims c

end

end Sys2Proof.Machine
end

section
/-! PROOFS. STOP (R25), and the tachometer gap at its limit (R27, R28, R30), with what they bring to the islands. -/

namespace Sys2Proof.Machine

/-- What the Event Unit is told waits, and at most `k` events do. -/
structure Tells (k : Nat) (p : Part) : Prop where
  pends : Pends [] p
  few : Few k p

section
variable {h : HeadId} {p : Part} {k : Nat}

theorem Tells.mono {n : Nat} (a : Tells k p) (le : k ≤ n) : Tells n p := ⟨a.pends, a.few.mono le⟩

theorem Tells.raise (a : Tells k p) (s : AlarmSource) (n : AlarmKind) (x y : Word) : Tells (k + 2) (raiseAlarm s n x y p) :=
  ⟨(pends_posts []).drive.raise s n x y p a.pends, a.few.raise s n x y⟩

theorem Tells.clear (a : Tells k p) (s : AlarmSource) (n : AlarmKind) (x y : Word) : Tells (k + 1) (clearAlarm s n x y p) :=
  ⟨(pends_posts []).drive.clear s n x y p a.pends, a.few.clear s n x y⟩

theorem Tells.lamp (a : Tells k p) (c : Prop) [Decidable c] : Tells (k + 1) (if c then p else lampChanged h p) :=
  ite_keeps (a.mono (Nat.le_succ k)) ⟨lampChanged_keeps (pends_posts []).drive h a.pends, lampChanged_few h a.few⟩

theorem Tells.idle (a : Tells k p) (c : Bool) : Tells k (if c then tensionIdle h p else p) :=
  ite_keeps ⟨tensionIdle_keeps (pends_posts []).drive h a.pends, a.few.of_evt (tensionIdle_evt h p)⟩ a

theorem Tells.stop (a : Tells k p) (c : Bool) : Tells (k + 2) (if c then stopMeasuring h p else p) := by
  have noted : Tells k (p.modCadence h Cadence.stopped) :=
    ⟨(pends_posts []).same p _ ⟨rfl, rfl, rfl, rfl, rfl, rfl⟩ a.pends, a.few.of_evt rfl⟩
  exact ite_keeps ((noted.clear _ _ _ _).clear _ _ _ _) (a.mono (Nat.le_add_right k 2))

/-- What a change of the drive state tells of waits where nothing waited (R36). -/
theorem enterDrive_tells (empty : p.evt.queue = []) (h : HeadId) (d : DriveState) (c : Cause) (fault : Option FaultKind) :
    Tells 6 (enterDrive h d c fault p) := by
  obtain ⟨pends, few⟩ := post_pends (p := p.modHead h fun x => x.enter d p.time.now) empty (.head h)
    (.headState d (p.head h).drive c (p.head h).pos.frame)
  have told : Tells 1 _ := ⟨pends, few⟩
  unfold enterDrive
  cases fault with
  | none => exact (((told.mono (Nat.le_add_right 1 2)).lamp _).idle _).stop _
  | some k => exact (((told.raise _ _ _ _).lamp _).idle _).stop _

end

section
variable {h : HeadId} {p q : Part} {x : Head} {k : Nat} {es : List Event}

/-- A head that has been driven out of the running states to a state in which it does not rest. -/
theorem Drives.left (a : Drives h x k es p q) (assigned : x.assigned = (p.head h).assigned) (moving : x.drive.atRest = false)
    (still : x.drive.running = false) : Left h p q :=
  ⟨a.island, a.ref, fun _ n => a.other n, by rw [a.head]; exact assigned, by rw [a.head]; exact moving, by rw [a.head]; exact still⟩

theorem Drives.reports (a : Drives h x k es p q) {r : Part} (s : Scheduled q r) (moving : x.drive.atRest = false)
    (told : Holds es q → Holds es r) : Acts h x es p r :=
  a.scheduled s (fun _ => by
    obtain same | ⟨rest, -⟩ := s.heads h
    · exact same
    · rw [a.head, moving] at rest
      exact nomatch rest) told

end

/-! ### STOP -/

/-- A head as STOP takes it to STOPPING (R25). -/
def Head.halting (x : Head) (now : Nat) : Head :=
  { x with drive := .stopping, outputs := ⟨false, false, false, false, x.outputs.lamp⟩, gapFrom := none
           settleFrom := if x.drive = .settling then x.settleFrom else some now, cueUp := none, park := none }

theorem Head.enter_stopping (x : Head) (now : Nat) : x.enter .stopping now = x.halting now := by
  obtain ⟨drive, ⟨_, _, _, _, lamp⟩, policy⟩ := x
  cases policy <;> cases lamp <;> cases drive <;> rfl

section
variable {h : HeadId} {p : Part} {x : Head} (head : p.head h = x) (c : Cause)
include head

theorem stopDrive_running (running : x.drive.running = true) : Drives h { x.halting p.time.now with cadence := x.cadence.stopped } 6
    [headStateEvent h p.ref.count x .stopping c] p (enterDrive h .stopping c none p) := by
  have drives := (Drives.refl h p).enter (by decide) .stopping c none
  rw [head, running, Head.enter_stopping] at drives
  exact drives

theorem stopDrive_idle (idle : x.drive.running = false) : Drives h (x.halting p.time.now) 6
    [headStateEvent h p.ref.count x .stopping c] p (enterDrive h .stopping c none p) := by
  have drives := (Drives.refl h p).enterIdle (by decide) (by rw [head]; exact idle) .stopping c none
  rw [head, Head.enter_stopping] at drives
  exact drives

theorem stopHead_running (running : x.drive.running = true) : stopHead h c p = tellStop h (enterDrive h .stopping c none p) := by
  unfold stopHead
  rw [head]
  cases drive : x.drive with
  | runup | locked | unlocked => rfl
  | stopping | stopped | parked | fault | cueFast | cueInch | settling => simp [drive, DriveState.running] at running

theorem stopHead_cueing (cueing : x.drive.cueing = true ∨ x.drive = .settling) :
    stopHead h c p = settleTakes (enterDrive h .stopping c none p) := by
  unfold stopHead
  rw [head]
  cases drive : x.drive with
  | cueFast | cueInch | settling => rfl
  | stopping | stopped | parked | fault | runup | locked | unlocked => simp [drive, DriveState.cueing] at cueing

/-- The stop of a running head, told to the islands. -/
theorem requestStop_running (running : x.drive.running = true) :
    requestStop h c p = tellLeft onAirStop .incomingStopped h (enterDrive h .stopping c none p) ∧
      Acts h { x.halting p.time.now with cadence := x.cadence.stopped } [headStateEvent h p.ref.count x .stopping c] p
        (requestStop h c p) := by
  have drives := stopDrive_running head c running
  have told := drives.reports (tellStop_sched h _) rfl (tellStop_keeps (holds_reports _) h)
  have moved : ((stopHead h c p).head h).drive ≠ (p.head h).drive := by
    rw [stopHead_running head c running, told.moving rfl, head]
    intro same
    rw [← same] at running
    exact nomatch running
  rw [requestStop, if_neg moved, stopHead_running head c running]
  exact ⟨tellStop_left h _, told.guards⟩

theorem requestStop_cueing (cueing : x.drive.cueing = true ∨ x.drive = .settling) :
    Acts h (x.halting p.time.now) [headStateEvent h p.ref.count x .stopping c] p (requestStop h c p) := by
  have idle : x.drive.running = false := by
    cases drive : x.drive with
    | cueFast | cueInch | settling => rfl
    | stopping | stopped | parked | fault | runup | locked | unlocked => simp [drive, DriveState.cueing] at cueing
  have told := (stopDrive_idle head c idle).settleTakes
  have moved : ((stopHead h c p).head h).drive ≠ (p.head h).drive := by
    rw [stopHead_cueing head c cueing, told.moving rfl, head]
    intro same
    rw [← same] at cueing
    exact cueing.elim nofun nofun
  rw [requestStop, if_neg moved, stopHead_cueing head c cueing]
  exact told.guards

omit head in
theorem requestStop_still (still : (stopHead h c p).head h = p.head h ∨ ((stopHead h c p).head h).drive = (p.head h).drive) :
    requestStop h c p = stopHead h c p :=
  if_pos (still.elim (congrArg Head.drive) id)

theorem requestStop_rest (rest : x.drive = .stopped ∨ x.drive = .parked ∨ x.drive = .fault) :
    requestStop h c p = if x.lampPolicy = .auto then switchLamp h false p else p := by
  have stops : stopHead h c p = if x.lampPolicy = .auto then switchLamp h false p else p := by
    unfold stopHead
    rw [head]
    obtain drive | drive | drive := rest <;> rw [drive]
  rw [← stops]
  refine requestStop_still c (.inr ?_)
  rw [stops]
  split
  · rw [switchLamp_head]
    rfl
  · rfl

end

/-- Settles O16, by the states a STOP finds the head in. -/
theorem stopCommand_settled : Obligations.StopCommand := by
  intro s w h running named remote x
  have does : stopCommand w s.part = (requestStop h .command s.part, .ok) := onHead_remote _ named remote
  refine ⟨fun at_ => ?running, fun at_ => ?cueing, fun at_ => ?stopping, fun at_ => ?rest⟩
  case running =>
    obtain ⟨is, acts⟩ := requestStop_running (h := h) (p := s.part) rfl .command at_
    have drives := stopDrive_running (h := h) (p := s.part) rfl .command at_
    have left := drives.left rfl rfl rfl
    have tells : s.part.evt.queue = [] → Pends [] (enterDrive h .stopping .command none s.part) ∧
        Few 6 (enterDrive h .stopping .command none s.part) := fun empty =>
      have told := enterDrive_tells empty h .stopping .command none
      ⟨told.pends, told.few⟩
    refine .of_commanded (f := stopCommand w) rfl running does ⟨?_, fun l => acts.tells l [_] rfl, ?_, ?_, acts.others, acts.frame.answered _⟩
    · refine (acts.moving rfl).trans ?_
      rw [Head.halting, if_neg fun settling => by
        rw [settling] at at_
        exact nomatch at_]
    · have guarded := left.stopGuarded
      rw [← is] at guarded
      exact guarded
    · have ends := left.incomingStops tells
      rw [← is] at ends
      exact ends
  case cueing =>
    have acts := requestStop_cueing (h := h) (p := s.part) rfl .command at_
    exact .of_commanded (f := stopCommand w) rfl running does
      ⟨acts.moving rfl, fun l => acts.tells l [_] rfl, acts.others, acts.frame.answered _⟩
  case stopping =>
    have stays : stopHead h .command s.part = s.part := by
      unfold stopHead
      rw [at_]
    exact .of_commanded (f := stopCommand w) rfl running (by rw [does, requestStop_still .command (.inl (by rw [stays])), stays])
  case rest =>
    refine .of_commanded (f := stopCommand w) rfl running does ?_
    rw [requestStop_rest (x := x) rfl .command at_]
    by_cases auto : x.lampPolicy = .auto
    · rw [if_pos auto, if_pos auto]
      refine ⟨(switchLamp_head h false s.part).trans rfl, ?_⟩
      exact driving_commands h ▸ ((switchLamp_frame h false s.part).mono fun _ m => m).answered _
    · rw [if_neg auto, if_neg auto]
      exact ⟨rfl, (ChangesOnly.refl _ s.part).answered _⟩

/-! ### The tachometer gap at its limit -/

/-- A head as a fault leaves it (R28). -/
def Head.faulted (x : Head) (k : FaultKind) : Head :=
  { x with drive := .fault, outputs := ⟨false, false, false, false, false⟩, gapFrom := none, settleFrom := none, cueUp := none
           park := none, fault := some k }

theorem Head.enter_fault (x : Head) (k : FaultKind) (now : Nat) : { x with fault := some k }.enter .fault now = x.faulted k := by
  obtain ⟨drive, ⟨_, _, _, _, lamp⟩, policy⟩ := x
  cases policy <;> cases lamp <;> cases drive <;> rfl

/-- The Cadence Monitor of a head that has left the running states (R38). -/
def Head.unmeasured (x y : Head) : Head := if x.drive.running then { y with cadence := x.cadence.stopped } else y

/-- A sound table shows an alarm of a pair that no raise evicts: it stands, and is no WARNING (R145). -/
structure Firm (s : AlarmSource) (k : AlarmKind) (p : Part) : Prop where
  stands : p.alarms.stands s k
  sound : EntriesSound p

section
variable {s s' : AlarmSource} {k k' : AlarmKind} {p q : Part}

theorem Firm.of_alarms (a : Firm s k p) (alarms : q.alarms = p.alarms) (mode : q.mode = p.mode) : Firm s k q :=
  ⟨alarms ▸ a.stands, entriesSound_depends p q (fun b m => by
    simp only [List.mem_cons, List.not_mem_nil, or_false] at m
    obtain rfl | rfl := m
    · exact mode.symm
    · exact alarms.symm) a.sound⟩

theorem Firm.frame {bs : List Block} (a : Firm s k p) (same : ChangesOnly bs p q) (alarms : .alarms ∉ bs) (mode : Block.mode ∉ bs) : Firm s k q :=
  a.of_alarms (same .alarms alarms).symm (same .mode mode).symm

theorem Firm.raise (a : Firm s k p) (severe : k.severity ≠ .warning) (x y : Word) : Firm s k (raiseAlarm s' k' x y p) :=
  ⟨a.stands.raise severe a.sound.2 s' k' x y, entriesSound_drive.raise s' k' x y p a.sound⟩

/-- A clear of another kind leaves an alarm standing. -/
theorem Firm.clear (a : Firm s k p) (other : k ≠ k') (x y : Word) : Firm s k (clearAlarm s' k' x y p) := by
  refine ⟨?_, entriesSound_drive.clear s' k' x y p a.sound⟩
  have judged : ∀ q : Part, q.alarms.stands s k → (judgeHorn q).alarms.stands s k := fun _ h => h
  unfold clearAlarm
  refine judged _ ?_
  split
  · exact a.stands
  · split
    · rw [post_alarms]
      refine a.stands.imp id fun ⟨e, mem, source, kind, state⟩ => ?_
      obtain ⟨d, d_mem, source', kind', state'⟩ := AlarmTable.setState_mem mem s' k' .clearedNew
      refine ⟨d, d_mem, source'.trans source, kind'.trans kind, ?_⟩
      rw [state', if_neg fun pair => other (kind.symm.trans pair.2)]
      exact state
    · rw [post_alarms]
      refine a.stands.imp id fun ⟨e, mem, source, kind, state⟩ => ⟨e, List.mem_filter.2 ⟨mem, ?_⟩, source, kind, state⟩
      rw [decide_eq_true_eq]
      exact fun pair => other (kind.symm.trans pair.2)
    · exact a.stands

variable (steady : k.ofDrive = false) (severe : k.severity ≠ .warning)
include steady

theorem Firm.lamp (a : Firm s k p) (h : HeadId) : Firm s k (lampChanged h p) := by
  unfold lampChanged
  split
  · exact a
  · dsimp only
    split
    · rename_i n ends
      refine Firm.clear (a.of_alarms (by exact rfl) (by exact rfl)) (fun same => ?_) 0 0
      rw [same, lampEnds_ofDrive ends] at steady
      exact nomatch steady
    · exact a.of_alarms rfl rfl

theorem Firm.stop (a : Firm s k p) (h : HeadId) : Firm s k (stopMeasuring h p) := by
  have noted : Firm s k (p.modCadence h Cadence.stopped) := a.of_alarms rfl rfl
  refine (noted.clear (fun same => ?_) 0 0).clear (fun same => ?_) 0 0 <;>
  · rw [same] at steady
    exact nomatch steady

include severe

/-- A change of the drive state after the alarm, or with it. -/
theorem enterDrive_firm (h : HeadId) (d : DriveState) (c : Cause) (fault : Option FaultKind)
    (a : Firm s k p ∨ EntriesSound p ∧ ∃ n, fault = some n ∧ s = .head h ∧ n.alarm = k) : Firm s k (enterDrive h d c fault p) := by
  have noted : ∀ e, EntriesSound p → EntriesSound (post (.head h) e (p.modHead h fun x => x.enter d p.time.now)) := fun e sound =>
    entriesSound_drive.post _ _ _ (entriesSound_drive.head h _ p (fun _ => rfl) sound)
  have rest : ∀ {b : Part} (l : Prop) [Decidable l] (t m : Bool), Firm s k b →
      Firm s k (if m then stopMeasuring h (if t then tensionIdle h (if l then b else lampChanged h b) else if l then b else lampChanged h b)
        else if t then tensionIdle h (if l then b else lampChanged h b) else if l then b else lampChanged h b) := fun {b} l _ t m f => by
    have lamp : Firm s k (if l then b else lampChanged h b) := ite_keeps f (f.lamp steady h)
    generalize (if l then b else lampChanged h b) = c at lamp
    have idle : Firm s k (if t then tensionIdle h c else c) :=
      ite_keeps (lamp.of_alarms (tensionIdle_alarms h c) ((tensionIdle_frame h c) .mode (by simp [Block.driving, Block.alarming, Block.posting])).symm) lamp
    exact ite_keeps (idle.stop steady h) idle
  have posted : ∀ e, Firm s k p → Firm s k (post (.head h) e (p.modHead h fun x => x.enter d p.time.now)) := fun e f =>
    ⟨by rw [post_alarms]; exact f.stands, noted e f.sound⟩
  unfold enterDrive
  cases fault with
  | none =>
    obtain f | ⟨-, n, is, -⟩ := a
    · exact rest _ _ _ (posted _ f)
    · exact nomatch is
  | some n =>
    refine rest _ _ _ ?_
    obtain f | ⟨sound, m, is, its, kind⟩ := a
    · exact (posted _ f).raise severe 0 0
    · cases is
      subst its kind
      exact ⟨raiseAlarm_stands _ (by cases n <;> rfl) 0 0 _, entriesSound_drive.raise _ _ 0 0 _ (noted _ sound)⟩

theorem firm_toils (j : IslandId) : Toils j (Firm s k) where
  post x e p a := ⟨by rw [post_alarms]; exact a.stands, entriesSound_drive.post x e p a.sound⟩
  raise x n y z p _ a := a.raise severe y z
  front f p a := a.of_alarms rfl rfl
  refresh i p a := a.frame (refreshTake_frame i p) (by simp [Block.taking, Block.posting]) (by simp [Block.taking, Block.posting])
  start h p rest a := by
    have refreshed : ∀ i {q : Part}, Firm s k q → Firm s k (refreshTake i q) := fun i q b =>
      b.frame (refreshTake_frame i q) (by simp [Block.taking, Block.posting]) (by simp [Block.taking, Block.posting])
    rw [startRequest_rest rest]
    have started : Firm s k (startDrive h .scheduler p) :=
      enterDrive_firm steady severe h .runup .scheduler none (.inl (Firm.of_alarms (p := p) a rfl rfl))
    exact refreshed .i2 (refreshed .i1 (started.of_alarms rfl rfl))
  commit x c o p _ a := a.of_alarms (commit_alarms j x c o p)
    (commit_frame j x c o p .mode (by simp [Block.committing, Block.linking, Block.posting])).symm
  ends o r p a := a.frame (endFront_frame j o r p) (by simp [Block.taking, Block.posting]) (by simp [Block.taking, Block.posting])

end

section
variable {h : HeadId} {p : Part} {x : Head} (head : p.head h = x) (k : FaultKind) (sane : x.drive ≠ .fault)
include head sane

/-- A fault of a head not in FAULT, told to the islands (R28 to R30). -/
theorem faultHead_tells : ∃ q, faultHead h k p = tellLeft onAirFault .incomingFault h q ∧ Left h p q ∧
    (p.evt.queue = [] → Pends [] q ∧ Few 6 q) ∧
    Acts h (x.unmeasured (x.faulted k)) [headStateEvent h p.ref.count x .fault k.cause] p (faultHead h k p) := by
  have drives := ((head ▸ Drives.refl h p : Drives h x 0 [] p p).modHead fun x => { x with fault := some k }).enter (by decide) .fault k.cause
    (some k)
  have is : faultHead h k p =
      tellFault h (enterDrive h .fault k.cause (some k) (p.modHead h fun x => { x with fault := some k })) :=
    if_neg (by rw [head]; exact sane)
  have now : (if x.drive.running && !DriveState.fault.running then
      { ({ x with fault := some k } : Head).enter .fault p.time.now with cadence := x.cadence.stopped }
      else ({ x with fault := some k } : Head).enter .fault p.time.now) = x.unmeasured (x.faulted k) := by
    rw [Head.enter_fault, Head.unmeasured]
    cases x.drive.running <;> rfl
  rw [show ({ x with fault := some k } : Head).drive = x.drive from rfl, show ({ x with fault := some k } : Head).cadence = x.cadence from rfl,
    now] at drives
  have state : (x.unmeasured (x.faulted k)).drive = .fault ∧ (x.unmeasured (x.faulted k)).assigned = x.assigned := by
    unfold Head.unmeasured
    split <;> exact ⟨rfl, rfl⟩
  refine ⟨_, is.trans (tellFault_left h _), drives.left (state.2.trans (by rw [head])) (by rw [state.1]; rfl) (by rw [state.1]; rfl),
    fun empty => ?_, ?_⟩
  · have told := enterDrive_tells (p := p.modHead h fun x => { x with fault := some k }) empty h .fault k.cause (some k)
    exact ⟨told.pends, told.few⟩
  · rw [is]
    exact drives.reports (tellFault_sched h _) (by rw [state.1]; rfl) (tellFault_keeps (holds_reports _) h)

/-- The alarm of the fault is shown in a sound table, whatever the scheduler raises after it: it is no warning (R145). -/
theorem faultHead_shows (sound : EntriesSound p) : (faultHead h k p).alarms.shows (.head h) k.alarm = true := by
  have steady : k.alarm.ofDrive = false := by cases k <;> rfl
  have severe : k.alarm.severity ≠ .warning := by cases k <;> exact nofun
  rw [faultHead, if_neg (by rw [head]; exact sane), tellFault_left]
  have raised : Firm (.head h) k.alarm (enterDrive h .fault k.cause (some k) (p.modHead h fun x => { x with fault := some k })) :=
    enterDrive_firm steady severe h .fault k.cause (some k)
      (.inr ⟨entriesSound_drive.head h _ p (fun _ => rfl) sound, k, rfl, rfl, rfl⟩)
  exact (tellLeft_keeps onAirFault_works (firm_toils steady severe) (raised.of_alarms (by exact rfl) rfl)).stands.shows

end

theorem Head.gapLimit_eq (x : Head) : x.gapLimit =
    (if x.drive = .locked ∨ x.drive = .unlocked then x.settings.lossTimeout else x.settings.startResponse) * 1000 := by
  unfold Head.gapLimit
  cases x.drive <;> rfl

/-- Settles O13: the gap at its limit is the fault TACH_LOSS. -/
theorem tachGapExpiryEntersFault : Obligations.TachGapExpiryEntersFault := by
  intro s dt t h running x limit begun sane late
  have head : (elapse dt s.part).head h = x := elapse_head dt s.part h
  have due : gapExpired h (elapse dt s.part) = true := by
    unfold gapExpired
    rw [head, begun, Option.any_some, elapse_now, Head.gapLimit_eq]
    exact decide_eq_true late
  obtain ⟨q, is, left, tells, acts⟩ := faultHead_tells (h := h) (p := elapse dt s.part) (x := x) head .tachLoss sane
  have shows : s.part.alarms.sound = true → (faultHead h .tachLoss (elapse dt s.part)).alarms.shows (.head h) .tachLoss = true :=
    fun sound => faultHead_shows head .tachLoss sane ⟨(elapse_mode dt s.part).trans running, (elapse_alarms dt s.part).symm ▸ sound⟩
  have since : ∀ {r : Part}, FaultGuarded h (elapse dt s.part) r ∧ IncomingEnds h .incomingFault (elapse dt s.part) r →
      FaultGuarded h s.part r ∧ IncomingEnds h .incomingFault s.part r := fun {r} both => by
    rw [elapse_eq] at both
    exact both
  obtain ⟨guarded, ends⟩ := since ⟨left.faultGuarded, left.incomingFaults tells⟩
  rw [← is] at guarded ends
  refine .of_timed (f := takeGapExpiry h) rfl running due ?_
  unfold takeGapExpiry
  generalize faultHead h .tachLoss (elapse dt s.part) = r at acts shows guarded ends
  have head := acts.moving (by unfold Head.unmeasured; split <;> rfl)
  have fields : x.unmeasured (x.faulted .tachLoss) = { x.faulted .tachLoss with cadence := (x.unmeasured (x.faulted .tachLoss)).cadence } := by
    unfold Head.unmeasured
    split <;> rfl
  refine ⟨?_, ?_, ?_, ?_, ?_, ?_, ?_, fun runs => ?_, ?_, ?_, ?_, ?_, ?_, shows, fun l => acts.sinceTells l [_] (by rw [elapse_ref]; rfl), guarded, ends,
    acts.sinceOthers, acts.sinceFrame⟩ <;> rw [head]
  case refine_8 => rw [Head.unmeasured, if_pos runs]; rfl
  all_goals rw [fields]; rfl

end Sys2Proof.Machine
end

section
/-! PROOFS. The event queue holds sixteen events (R181): a crowded step in which the last event of an END cue is lost. -/

namespace Sys2Proof.Machine

/-- The part after one command. -/
def State.after (s : State) (c : Instr) : Part :=
  match exec c s with
  | .next t => t.part
  | .fault _ => s.part
  | .refused _ => s.part

theorem Completes.after {c : Instr} {s : State} {P : Part → Prop} (a : Completes c s P) : P (s.after c) := by
  obtain ⟨q, next, holds⟩ := a
  unfold State.after
  rw [next]
  exact holds

/-- A full Alarm Table: each head's LAMP_STUCK stands, and everything else in it may be evicted. -/
def crowdedAlarms : AlarmTable :=
  { Part.reset.alarms with
    entries := ([.h1, .h2, .h3, .h4] : List HeadId).flatMap fun h =>
      ([.tachLoss, .filmBreak, .jam, .lampFail, .cueFault, .lampStuck] : List AlarmKind).map fun k =>
        ⟨.head h, k, if k = .lampStuck then .activeNew else .clearedNew, 0⟩ }

/-- A part that runs, with an event in hand, with `crowdedAlarms` and every lamp stuck. -/
def crowded : Part :=
  { Part.reset with
    mode := .running, init := .done, alarms := crowdedAlarms, evt := { Part.reset.evt with writing := true }
    analog := { Part.reset.analog with lamp := Part.reset.analog.lamp.map fun c : Channel => { c with condition := some .lampStuck } } }

/-- An ARMED take of a head at rest, its start field reached, its leader found short by the next look at it. -/
def shortTake (h : HeadId) : Take :=
  { Take.new 7 (.head h) .atField 50 none none none .auto with
    state := .armed, outgoing := some .standby, effective := .atField, fCut := some 50, sopCue := some ⟨1, 0⟩ }

/-- A cue `n` frames on, whose window ends at the next frame. -/
def nextCue (n : Nat) (k : CueKind) : Cue :=
  { id := n, frame := 5 + n, kind := k, window := some (15 - n), correct := false, passed := false, confirm := .none }

/-- Head 1, on air at Island 1, LOCKED, a perf before an END cue at which it loses its lock, while each island's take starts its head:
UNLOCK, LOCK_LOSS and an eviction, two starts, and five missed marks make sixteen events before the TAKE_END. -/
def overtold : State :=
  let p := crowded.modHead .h1 fun x => { x with
    drive := .locked, pos := ⟨5, 3⟩, gapFrom := some 0, settings := { x.settings with sensorOffset := 15 }
    cadence := { Cadence.reset with measuring := true, boundary := some 0, fields := 4, run := 9, firstLock := true }
    cues := [nextCue 1 .ending, nextCue 2 .mark, nextCue 3 .mark, nextCue 4 .mark, nextCue 5 .mark] }
  let p := p.modIsland .i1 fun x => { x with onAir := .head .h1, takes := [shortTake .h2] }
  ⟨p.modIsland .i2 fun x => { x with onAir := .standby, takes := [shortTake .h4] }, []⟩

theorem overtold_loses : (overtold.after (.tachPulse 0 .h1 true)).tellsEnd .i1 (shortTake .h2) .fallback .runout = false := by decide +kernel

theorem overtold_standsBy :
    ((overtold.after (.tachPulse 0 .h1 true)).island .i1).confirm.map (·.owner) = some .island := by decide +kernel

/-- Refutes O30: the event queue may be full by the time the END cue's TAKE_END is posted, and the event is lost. -/
theorem not_stopAndEndCuesAct : ¬ Obligations.StopAndEndCuesAct := by
  intro holds
  obtain ⟨-, -, -, -, -, -, ending, -, -⟩ := (holds overtold 0 .h1 rfl rfl (by decide) (by decide) (by decide)
    (nextCue 1 .ending) rfl).after
  rcases (ending rfl .i1 (shortTake .h2) rfl rfl (by decide) (by decide) rfl).1 with ⟨-, -, -, -, tells⟩ | ⟨d, confirm, owner, -, -⟩
  · exact Bool.false_ne_true (overtold_loses.symm.trans (tells ⟨rfl, rfl⟩ (by decide)))
  · have other := overtold_standsBy
    rw [confirm] at other
    exact absurd (owner.symm.trans (Option.some.inj other)) (by decide)

end Sys2Proof.Machine
end

section
/-! PROOFS. A STOP key whose KEY event finds the event queue full (R155, R181). -/

namespace Sys2Proof.Machine

/-- `crowdedAlarms` with SLOW_START and LOCK_LOSS standing too. -/
def slowAlarms : AlarmTable :=
  { crowdedAlarms with
    entries := ([.h1, .h2, .h3, .h4] : List HeadId).flatMap fun h =>
      ([.tachLoss, .filmBreak, .jam, .slowStart, .lockLoss, .lampStuck] : List AlarmKind).map fun k =>
        ⟨.head h, k, if k = .lampStuck ∨ k = .slowStart ∨ k = .lockLoss then .activeNew else .clearedNew, 0⟩ }

/-- An island in LOCAL, its end guard due, whose take is about to start head `h`. -/
def Island.guarded (h : HeadId) (x : Island) : Island :=
  { x with authority := .panel, onAir := .head .h4, fEnd := some ⟨.h4, 9, some 0, .reached⟩, takes := [shortTake h] }

/-- Head 1 runs as its STOP key is pressed, while a take of each island starts its head, each end guard is due and a late MOVE waits: the
end of the two alarms, the two starts, MOVE_LATE and the two fallbacks leave no room for KEY. -/
def overpressed : State :=
  let p := { crowded with
    alarms := slowAlarms, panel := { crowded.panel with keys := crowded.panel.keys.set 0 ⟨.up, ⟨false, 2⟩, .up, .up⟩ }
    link := { crowded.link with queue := [⟨.i2, .move .p4 (-1)⟩] } }
  let p := p.modHead .h1 fun x => { x with
    drive := .runup, assigned := some ⟨.i1, .p1⟩, gapFrom := some 0
    cadence := { Cadence.reset with measuring := true, slowStart := true } }
  ⟨(p.modIsland .i1 (Island.guarded .h2)).modIsland .i2 (Island.guarded .h3), []⟩

theorem overpressed_loses :
    ((overpressed.after (.dwellEnd 4096 2)).evt.queue.any fun e => decide (e.item = .key .acted (some .panel) 1 2 none)) = false := by
  decide +kernel

/-- Refutes O49: the event queue may be full by the time KEY is posted, and the event is lost. -/
theorem not_panelKeysAct : ¬ Obligations.PanelKeysAct := by
  intro holds
  have few : overpressed.part.listens ∧ ∀ i, (overpressed.part.island i).takes.length ≤ 1 :=
    ⟨⟨rfl, rfl⟩, fun i => by cases i <;> decide⟩
  obtain ⟨-, heads⟩ := holds overpressed 4096 2 rfl (by decide)
  obtain ⟨-, -, -, -, -, stops, -⟩ := heads .h1 rfl (by decide)
  have told := (stops (by decide) (by decide)).after.1 few
  have lost := overpressed_loses
  rw [List.any_eq_false] at lost
  exact lost _ (told.subset (List.mem_cons_of_mem _ (List.mem_cons_self ..))) (by decide)

end Sys2Proof.Machine
end

section
/-! PROOFS. The Analog Scanner's view of a head: what a change of its LAMP output or of its drive state brings (R135 to R137), and what the
scheduler leaves of it. -/

namespace Sys2Proof.Machine

/-! ### The channels of a head -/

/-- A lamp channel as its LAMP output takes a new value: the counts at 0, a condition tied to the old value ended (R135). -/
def Channel.switched (on : Bool) (c : Channel) : Channel :=
  { c with outCount := 0, inCount := 0, condition := if (lampEnds on c.condition).isSome then none else c.condition }

def Analog.lampSwitched (h : HeadId) (on : Bool) (a : Analog) : Analog :=
  if a.suspended then a else { a with lamp := a.lamp.set h ((a.lamp.get h).switched on) }

/-- The tension channel of a head that is no longer driven: its out count at 0, but where it has a condition (R136). -/
def Analog.tensionIdled (h : HeadId) (a : Analog) : Analog :=
  if a.suspended || (a.tension.get h).condition.isSome then a
  else { a with tension := a.tension.set h { a.tension.get h with outCount := 0 } }

theorem raiseAlarm_analog (s : AlarmSource) (k : AlarmKind) (a b : Word) (p : Part) : (raiseAlarm s k a b p).analog = p.analog :=
  (raiseAlarm_frame s k a b p .analog (by decide)).symm

theorem clearAlarm_analog (s : AlarmSource) (k : AlarmKind) (a b : Word) (p : Part) : (clearAlarm s k a b p).analog = p.analog :=
  (clearAlarm_frame s k a b p .analog (by decide)).symm

theorem lampChanged_analog (h : HeadId) (p : Part) :
    (lampChanged h p).analog = p.analog.lampSwitched h (p.head h).outputs.lamp := by
  unfold lampChanged Analog.lampSwitched
  by_cases suspended : p.analog.suspended = true
  · rw [if_pos suspended, if_pos suspended]
  · rw [if_neg suspended, if_neg suspended]
    dsimp only
    split
    · rw [clearAlarm_analog]
      rfl
    · rfl

theorem tensionIdle_analog (h : HeadId) (p : Part) : (tensionIdle h p).analog = p.analog.tensionIdled h := by
  unfold tensionIdle Analog.tensionIdled
  dsimp only
  split <;> rfl

theorem stopMeasuring_analog (h : HeadId) (p : Part) : (stopMeasuring h p).analog = p.analog := by
  unfold stopMeasuring
  rw [clearAlarm_analog, clearAlarm_analog]
  rfl

/-- What entering a drive state does to the channels of the head (R135, R136). -/
def Analog.entered (h : HeadId) (x : Head) (d : DriveState) (lamp : Bool) (a : Analog) : Analog :=
  let a := if lamp = x.outputs.lamp then a else a.lampSwitched h lamp
  if x.drive.driven && !d.driven then a.tensionIdled h else a

theorem enterDrive_analog (h : HeadId) (d : DriveState) (c : Cause) (k : Option FaultKind) (p : Part) :
    (enterDrive h d c k p).analog = p.analog.entered h (p.head h) d ((p.head h).enter d p.time.now).outputs.lamp := by
  have head : ∀ {f : Head → Head} {s e}, (post s e (p.modHead h f)).head h = f (p.head h) := fun {f s e} =>
    (post_head s e _ h).trans (modHead_head h f p)
  have analog : ∀ {f : Head → Head} {s e}, (post s e (p.modHead h f)).analog = p.analog := fun {f s e} =>
    (post_frame s e _ .analog (by decide)).symm
  unfold enterDrive Analog.entered
  cases k <;>
    simp only [apply_ite Part.analog, stopMeasuring_analog, tensionIdle_analog, lampChanged_analog, raiseAlarm_analog, raiseAlarm_head, head,
      analog, ite_self, apply_ite (Analog.tensionIdled h)]

/-! ### What the scheduler leaves -/

/-- What the scheduler leaves of the scanner for a head: its two channels, the reference channel, and where the scan stands. -/
structure Analog.View where
  reference : Channel
  lamp : Channel
  tension : Channel
  next : Nat

def Analog.at (a : Analog) (h : HeadId) : Analog.View := ⟨a.reference, a.lamp.get h, a.tension.get h, a.next⟩

theorem Analog.lampSwitched_other {h k : HeadId} (n : h ≠ k) (on : Bool) (a : Analog) : (a.lampSwitched k on).at h = a.at h := by
  unfold Analog.lampSwitched
  split
  · rfl
  · unfold Analog.at
    rw [Four.get_set_ne _ _ n]

theorem Analog.tensionIdled_other {h k : HeadId} (n : h ≠ k) (a : Analog) : (a.tensionIdled k).at h = a.at h := by
  unfold Analog.tensionIdled
  split
  · rfl
  · unfold Analog.at
    rw [Four.get_set_ne _ _ n]

theorem Analog.entered_other {h k : HeadId} (n : h ≠ k) (x : Head) (d : DriveState) (lamp : Bool) (a : Analog) :
    (a.entered k x d lamp).at h = a.at h := by
  unfold Analog.entered
  dsimp only
  split <;> split <;> simp only [Analog.tensionIdled_other n, Analog.lampSwitched_other n]

/-- A head that is not at rest, and what the scanner holds of it. -/
structure Wired (h : HeadId) (x : Head) (e : Analog.View) (p : Part) : Prop where
  head : p.head h = x
  moving : x.drive.atRest = false
  view : p.analog.at h = e

theorem Wired.of_same {h : HeadId} {x : Head} {e : Analog.View} {p q : Part} (a : Wired h x e p) (head : q.head h = p.head h)
    (analog : q.analog = p.analog) : Wired h x e q := ⟨head.trans a.head, a.moving, by rw [analog]; exact a.view⟩

theorem Wired.frame {h : HeadId} {x : Head} {e : Analog.View} {p q : Part} {bs : List Block} (a : Wired h x e p) (same : ChangesOnly bs p q)
    (heads : ∀ k, .head k ∉ bs) (analog : Block.analog ∉ bs) : Wired h x e q :=
  a.of_same (same (.head h) (heads h)).symm (same .analog analog).symm

theorem Wired.start {h k : HeadId} {x : Head} {e : Analog.View} {p : Part} (a : Wired h x e p) (rest : (p.head k).drive.atRest = true) :
    Wired h x e (startRequest k p) := by
  have other : h ≠ k := fun same => by
    subst same
    rw [a.head, a.moving] at rest
    exact nomatch rest
  have refreshed : ∀ j {q : Part}, Wired h x e q → Wired h x e (refreshTake j q) := fun j q b =>
    b.frame (refreshTake_frame j q) (by simp [Block.taking, Block.posting]) (by simp [Block.taking, Block.posting])
  rw [startRequest_rest rest]
  refine refreshed .i2 (refreshed .i1 (Wired.of_same (p := startDrive k .scheduler p) ?_ (mapPreds_head _ _ _ h) rfl))
  refine ⟨(startDrive_head_ne other _ p).trans a.head, a.moving, ?_⟩
  unfold startDrive
  rw [enterDrive_analog]
  exact (Analog.entered_other other _ _ _ _).trans a.view

theorem wired_toils (h : HeadId) (x : Head) (e : Analog.View) (j : IslandId) : Toils j (Wired h x e) where
  post s v p a := a.frame (post_frame s v p) (by simp [Block.posting]) (by simp [Block.posting])
  raise i k y z p _ a := a.frame (raiseAlarm_frame (.island i) k y z p) (by simp [Block.alarming, Block.posting])
    (by simp [Block.alarming, Block.posting])
  front f p a := a.of_same (modFront_head j f p h) rfl
  refresh i p a := a.frame (refreshTake_frame i p) (by simp [Block.taking, Block.posting]) (by simp [Block.taking, Block.posting])
  start k p rest a := a.start rest
  commit s c o p _ a := a.frame (commit_frame j s c o p) (by simp [Block.committing, Block.linking, Block.posting])
    (by simp [Block.committing, Block.linking, Block.posting])
  ends o r p a := a.frame (endFront_frame j o r p) (by simp [Block.taking, Block.posting]) (by simp [Block.taking, Block.posting])

theorem settle_toils {I : Part → Prop} (K : ∀ j, Toils j I) {p : Part} (a : I p) : I (Machine.settle p) := by
  rw [Machine.settle, settleTakes_both, meetGuards_both]
  exact meetGuard_works.both K (settleTake_works.both K a)

/-! ### The condition of a lamp that ends with its output -/

section
variable {s : AlarmSource} {k : AlarmKind} {p : Part}

theorem rests_lampChanged (h : HeadId) (a : p.alarms.rests s k) : (lampChanged h p).alarms.rests s k := by
  unfold lampChanged
  split
  · exact a
  · dsimp only
    split
    · exact rests_clearAlarm (by exact a) 0 0
    · exact a

theorem rests_stopMeasuring (h : HeadId) (a : p.alarms.rests s k) : (stopMeasuring h p).alarms.rests s k :=
  rests_clearAlarm (rests_clearAlarm (by exact a) 0 0) 0 0

/-- The entry into a drive state ends the work on the lamp with what may end alarms but raises none. -/
theorem rests_settled {h : HeadId} {c d : Bool} (a : p.alarms.rests s k) :
    (if c then stopMeasuring h (if d then tensionIdle h p else p) else if d then tensionIdle h p else p).alarms.rests s k := by
  have idled : (if d then tensionIdle h p else p).alarms.rests s k := by
    split
    · exact rests_of_alarms a (tensionIdle_alarms h p)
    · exact a
  split
  · exact rests_stopMeasuring h idled
  · exact idled

theorem rests_enterDrive (h : HeadId) (d : DriveState) (c : Cause) (a : p.alarms.rests s k) : (enterDrive h d c none p).alarms.rests s k := by
  have posted : ∀ {f : Head → Head} {e}, (post (.head h) e (p.modHead h f)).alarms.rests s k := fun {f e} =>
    rests_of_alarms a (post_frame (.head h) e (p.modHead h f) .alarms (by decide)).symm
  unfold enterDrive
  dsimp only
  refine rests_settled ?_
  split
  · exact posted
  · exact rests_lampChanged h posted

theorem lampChanged_rests {h : HeadId} (judged : p.analog.reference.condition = none)
    (tied : lampEnds (p.head h).outputs.lamp (p.analog.lamp.get h).condition = some k) : (lampChanged h p).alarms.rests (.head h) k := by
  unfold lampChanged
  rw [if_neg (by unfold Analog.suspended; rw [judged]; nofun)]
  dsimp only
  rw [tied]
  exact clearAlarm_rests (.head h) k 0 0 _

end

/-- What rests goes on resting beside the scheduler's work, whose guards alone raise an alarm (R105). -/
theorem rests_toils {s : AlarmSource} {k : AlarmKind} (other : ∀ i n, n = .runout ∨ n = .lateStart → (s, k) ≠ (.island i, n)) (j : IslandId) :
    Toils j fun p => p.alarms.rests s k where
  post s e p a := rests_of_alarms a (post_frame s e p .alarms (by decide)).symm
  raise i n x y p kind a := rests_raiseAlarm a (other i n kind) x y
  front f p a := a
  refresh i p a := rests_of_alarms a (refreshTake_frame i p .alarms (by cases i <;> decide)).symm
  start l p rest a := by
    rw [startRequest_rest rest]
    have refreshed : ∀ i (q : Part), (refreshTake i q).alarms = q.alarms := fun i q => (refreshTake_frame i q .alarms (by cases i <;> decide)).symm
    refine rests_of_alarms (p := startDrive l .scheduler p) ?_ ((refreshed .i2 _).trans (refreshed .i1 _))
    exact rests_enterDrive l .runup .scheduler (p := p.modCadence l _) a
  commit s c o p _ a := rests_of_alarms a (commit_alarms j s c o p)
  ends o r p a := rests_of_alarms a (endFront_frame j o r p .alarms (by cases j <;> decide)).symm

/-- A condition tied to the old value of the LAMP output is no longer alarmed once a drive state has brought the new one (R135). -/
theorem enterDrive_rests {h : HeadId} {d : DriveState} {p : Part} {k : AlarmKind} (c : Cause) (fault : Option FaultKind)
    (judged : p.analog.reference.condition = none) (switches : ((p.head h).enter d p.time.now).outputs.lamp ≠ (p.head h).outputs.lamp)
    (tied : lampEnds ((p.head h).enter d p.time.now).outputs.lamp (p.analog.lamp.get h).condition = some k) :
    (enterDrive h d c fault p).alarms.rests (.head h) k := by
  have head : ∀ {e}, (post (.head h) e (p.modHead h fun x => x.enter d p.time.now)).head h = (p.head h).enter d p.time.now := fun {e} =>
    (post_head (.head h) e _ h).trans (modHead_head h _ p)
  have analog : ∀ {f : Head → Head} {e}, (post (.head h) e (p.modHead h f)).analog = p.analog := fun {f e} =>
    (post_frame (.head h) e (p.modHead h f) .analog (by decide)).symm
  unfold enterDrive
  cases fault with
  | none =>
    dsimp only
    refine rests_settled ?_
    rw [if_neg (by rw [head]; exact switches)]
    exact lampChanged_rests (by rw [analog]; exact judged) (by rw [head, analog]; exact tied)
  | some f =>
    dsimp only
    refine rests_settled ?_
    rw [if_neg (by rw [raiseAlarm_head, head]; exact switches)]
    exact lampChanged_rests (by rw [raiseAlarm_analog, analog]; exact judged) (by rw [raiseAlarm_head, head, raiseAlarm_analog, analog]; exact tied)

end Sys2Proof.Machine
end

section
/-! PROOFS. A lamp that fails on air (R107, R138). -/

namespace Sys2Proof.Machine

/-- What a lamp failure of head `h` does at one island. -/
def lampFaultAt (h : HeadId) (j : IslandId) (p : Part) : Part := if (p.island j).onAir = .head h then onAirFault j p else p

theorem lampFault_both (h : HeadId) (p : Part) : lampFault h p = both (lampFaultAt h) p := rfl

theorem lampFaultAt_frame (h : HeadId) (j : IslandId) (p : Part) : ChangesOnly (Block.committing j) p (lampFaultAt h j p) := by
  unfold lampFaultAt
  split
  · exact onAirFault_frame j p
  · exact .refl _ p

section
variable {h : HeadId} {i : IslandId} {b : Part}

/-- What a lamp failure does at an island its head is on air at, with the other island's work before or after it. -/
theorem lampFault_at (onAir : (b.island i).onAir = .head h) : ∃ p, p.island i = b.island i ∧ (∀ k, p.head k = b.head k) ∧ p.ref = b.ref ∧
    (lampFault h b).island i = (onAirFault i p).island i := by
  have acts : ∀ {p : Part}, p.island i = b.island i → lampFaultAt h i p = onAirFault i p := fun {p} same =>
    if_pos (by rw [same]; exact onAir)
  have same := lampFaultAt_frame h .i1 b
  rw [lampFault_both, both]
  cases i with
  | i1 => exact ⟨b, rfl, fun _ => rfl, rfl, by rw [← acts rfl]; exact (lampFaultAt_frame h .i2 _ (.island .i1) (by decide)).symm⟩
  | i2 => exact ⟨_, (same (.island .i2) (by decide)).symm, fun k => (same (.head k) (by cases k <;> decide)).symm, (same .ref (by decide)).symm,
      by rw [acts (same (.island .i2) (by decide)).symm]⟩

theorem standsBy_of_standbyNow {p q : Part} (island : p.island i = b.island i) (ref : p.ref = b.ref)
    (is : q.island i = (standbyNow i p).island i) : StandsBy i b q ∧ (q.island i).takes = (b.island i).takes := by
  rw [standbyNow_island, Part.leadField, island, ref] at is
  unfold StandsBy
  rw [is]
  exact ⟨⟨rfl, rfl, rfl⟩, rfl⟩

/-- The failure of the lamp of a head on air is an on-air fault, and its head runs on (R107, R138). -/
theorem lampFault_guarded : FaultGuarded h b (lampFault h b) := by
  intro i onAir
  obtain ⟨p, island, heads, ref, is⟩ := lampFault_at onAir
  have kept : onAirFault i p = p → MirrorKept i b (lampFault h b) := fun same => by
    unfold MirrorKept
    rw [is, same, island]
    exact ⟨rfl, rfl, rfl⟩
  have active : ∀ {t}, (b.island i).active = some t → (p.island i).active = some t := fun now => by rw [island]; exact now
  have stands : (b.island i).confirm = none → (b.island i).settings.policy = .fallback →
      (∀ t, (b.island i).active = some t → t.canCut p = false) →
      StandsBy i b (lampFault h b) ∧ ((lampFault h b).island i).takes = (b.island i).takes := fun free fallback cannot =>
    standsBy_of_standbyNow island ref (is.trans (congrArg (·.island i) (onAirFault_standsBy (by rw [island]; exact fallback)
      (by rw [island]; exact free) (by rw [island]; exact cannot))))
  have waits : ∀ {t k}, (b.island i).active = some t → (b.island i).confirm = none → (b.island i).settings.policy = .fallback →
      t.incoming = .head k → (b.head k).drive ≠ .locked → t.state ≠ .ready →
      StandsBy i b (lampFault h b) ∧ ((lampFault h b).island i).active = some t := fun {t k} now free fallback its unlocked unready => by
    obtain ⟨by_, takes⟩ := stands free fallback fun u also => by
      cases now.symm.trans also
      exact cannotCut its (by rw [heads]; exact unlocked) unready
    exact ⟨by_, by unfold Island.active; rw [takes]; exact now⟩
  refine ⟨fun awaits => kept (onAirFault_awaiting (by unfold Part.awaits; rw [island]; exact awaits)),
    fun _ hold _ _ => kept (onAirFault_hold (by rw [island]; exact hold)), fun free fallback empty => ?_,
    fun t now free fallback _ _ => ⟨fun can => ?_, fun k its _ armed still => ?_, fun k its _ state unlocked => ?_⟩⟩
  · obtain ⟨by_, takes⟩ := stands free fallback fun t now => by
      unfold Island.active at now
      rw [empty] at now
      exact nomatch now
    exact ⟨by_, takes.trans empty⟩
  · have cuts := onAirFault_cuts (leads_of_active (active now)) (by rw [island]; exact fallback) (by rw [island]; exact free) (by
      obtain ⟨ready, -⟩ | ⟨⟨k, its, -, locked⟩, state⟩ := can
      · rw [Take.canCut, ready]
      · refine canCut_of_judged its (by rw [heads]; exact locked) ?_
        obtain ready | held | starting := state
        · exact .inl ready
        · exact .inr (.inr held)
        · exact .inr (.inl starting.1))
    unfold Kept at cuts
    have port : p.portOf i t.incoming = b.portOf i t.incoming := by
      unfold Part.portOf
      rw [island]
      split
      · rw [heads]
      · rfl
      · rfl
    rw [island, ref, port, ← is] at cuts
    obtain ⟨u, now, gist⟩ := front_of_gist cuts.takes nofun
    simp only [Take.gist, Prod.mk.injEq] at gist
    obtain ⟨tag, -, committed, outcome⟩ := gist
    exact ⟨cuts.onAir, cuts.mirror, cuts.confirm, by rw [now, Option.map_some, tag, committed, outcome]⟩
  · obtain ⟨by_, now⟩ := waits now free fallback its (unlocked_of_still still) (by rw [armed]; nofun)
    exact ⟨by_, t, now, rfl, rfl, fun held => held, .inl, fun is => by
      rw [armed] at is
      exact is.elim nofun nofun⟩
  · obtain ⟨by_, now⟩ := waits now free fallback its unlocked (by obtain is | is := state <;> rw [is] <;> nofun)
    exact ⟨by_, by rw [now]; rfl⟩

end

end Sys2Proof.Machine
end

section
/-! PROOFS. How a conversion is judged, and what its delivery leaves (R132 to R138). -/

namespace Sys2Proof.Machine

/-! ### Where a reading falls -/

theorem Limits.fall_silent {l : Limits} {m : Option JudgingMode} (silent : m = some .warming ∨ m = some .idle) (r : Nat) :
    l.fall m r = .unjudged := by
  obtain rfl | rfl := silent <;> rfl

/-- A reading below its window, and one above it, as a mode takes them (R135 to R137). -/
def Limits.below (l : Limits) (m : Option JudgingMode) (r : Nat) : Bool := decide (r < l.low) && decide (m ≠ some .lampOff)

def Limits.above (l : Limits) (m : Option JudgingMode) (r : Nat) : Bool :=
  if m = some .lampOff then decide (l.low < r) else decide (l.high < r)

theorem Limits.fall_judged {l : Limits} {m : Option JudgingMode} (judged : ¬ (m = some .warming ∨ m = some .idle)) (r : Nat) :
    l.fall m r = if l.below m r then .out .low else if l.above m r then .out .high else .inside := by
  have window : ∀ {m : Option JudgingMode}, m ≠ some .lampOff →
      (match l.outside r with | some s => Fall.out s | none => .inside) =
        if l.below m r then .out .low else if l.above m r then .out .high else .inside := fun {m} lit => by
    unfold Limits.outside Limits.below Limits.above
    rw [if_neg lit]
    by_cases low : r < l.low
    · simp [low, lit]
    · by_cases high : l.high < r <;> simp [low, high, lit]
  match m, judged with
  | none, _ => exact window nofun
  | some .lampOn, _ => exact window nofun
  | some .driven, _ => exact window nofun
  | some .clearing, _ => exact window nofun
  | some .warming, judged => exact absurd (.inl rfl) judged
  | some .idle, judged => exact absurd (.inr rfl) judged
  | some .lampOff, _ =>
    unfold Limits.fall Limits.below Limits.above
    by_cases out : l.low < r
    · simp [out, Nat.not_le.2 out]
    · simp [out, Nat.not_lt.1 out]

/-! ### The first reading after a suspension (R137) -/

section
variable (m : Option JudgingMode) (c : Channel)

def Channel.otherMode : Bool := c.frozen && decide (m ≠ c.mode)

def Channel.tiedEnds : Bool :=
  c.otherMode m && (decide (c.condition = some .lampFail ∧ m = some .lampOff) || decide (c.condition = some .lampStuck ∧ m ≠ some .lampOff))

/-- What the first reading after a suspension finds of the counts and the condition. -/
def Channel.held : Channel :=
  if c.otherMode m then { c with outCount := 0, inCount := 0, condition := if c.tiedEnds m then none else c.condition } else c

theorem Channel.thaw_eq {j : JudgingMode} (is : m = some j) :
    (c.thaw m).1 = { c.held m with frozen := false } ∧ (c.tiedEnds m = false → (c.thaw m).2 = .nothing) := by
  subst is
  unfold Channel.thaw Channel.held Channel.tiedEnds Channel.otherMode
  by_cases frozen : c.frozen = true
  · by_cases same : some j = c.mode
    · simp [frozen, same]
    · rw [if_neg (not_not.2 frozen), if_neg same]
      cases condition : c.condition with
      | none => simp [frozen, same]
      | some x => cases x <;> cases j <;> simp [frozen, same, lampBelongs]
  · obtain ⟨_, _, _, _, _, _, _, _ | _⟩ := c
    · exact ⟨rfl, fun _ => rfl⟩
    · exact absurd rfl frozen

theorem Channel.held_limits : (c.held m).limits = c.limits ∧ (c.held m).last = c.last ∧ (c.held m).outSide = c.outSide := by
  unfold Channel.held
  split <;> exact ⟨rfl, rfl, rfl⟩

end

/-! ### The scanner's channels -/

theorem Analog.channel_set (a : Analog) (k : ChannelId) (c : Channel) : (a.setChannel k c).channel k = c := by
  cases k with
  | reference => rfl
  | lamp h => exact Four.get_set_same ..
  | tension h => exact Four.get_set_same ..

theorem Four.set_set {α : Type} (v : Four α) (h : HeadId) (x y : α) : (v.set h x).set h y = v.set h y := by cases h <;> rfl

theorem Analog.set_set (a : Analog) (k : ChannelId) (c d : Channel) : (a.setChannel k c).setChannel k d = a.setChannel k d := by
  cases k with
  | reference => rfl
  | lamp h => simp only [Analog.setChannel, Four.set_set]
  | tension h => simp only [Analog.setChannel, Four.set_set]

theorem Analog.setChannel_next (a : Analog) (k : ChannelId) (c : Channel) : (a.setChannel k c).next = a.next := by cases k <;> rfl

theorem Analog.setChannel_suspended {k : ChannelId} (a : Analog) (other : k ≠ .reference) (c : Channel) :
    (a.setChannel k c).suspended = a.suspended := by
  cases k with
  | reference => exact absurd rfl other
  | lamp h => rfl
  | tension h => rfl

theorem Part.channelMode_taken (p : Part) (k : ChannelId) (m : Option JudgingMode) (r : Nat) :
    (p.modChannel k (Channel.taken m r)).channelMode k = p.channelMode k := by
  cases k with
  | reference => rfl
  | lamp h => rfl
  | tension h =>
    unfold Part.channelMode Part.modChannel
    simp only [Analog.setChannel, Four.get_set_same]
    rfl

theorem takeConversion_of {p : Part} {k : ChannelId} (is : channelOfNat p.analog.next = some k) (r : Nat) :
    takeConversion r p = (if k = .reference then convertReference r else convertChannel k r)
      { p with analog := { p.analog with next := p.analog.next + 1 } } := by
  unfold takeConversion
  rw [is]
  cases k <;> rfl

/-! ### Delivery -/

theorem deliverCondition_nothing (k : ChannelId) (w : Word) (p : Part) : deliverCondition k .nothing w p = p := by cases k <;> rfl

/-- A condition that ends is told as the end of its alarm (R138). -/
theorem deliverCleared_frame (k : ChannelId) (c : Condition) (w : Word) (p : Part) : ChangesOnly Block.alarming p (deliverCondition k (.cleared c) w p) := by
  cases k with
  | reference => exact clearAlarm_frame _ _ _ _ p
  | lamp h => exact clearAlarm_frame _ _ _ _ p
  | tension h => exact .refl _ p

theorem Channel.thaw_never_raises (m : Option JudgingMode) (c : Channel) (x : Condition) : (c.thaw m).2 ≠ .raised x := by
  unfold Channel.thaw
  split
  · nofun
  · split
    · nofun
    · dsimp only
      split
      · split <;> nofun
      · nofun

theorem deliverThaw_frame (k : ChannelId) (m : Option JudgingMode) (c : Channel) (w : Word) (p : Part) :
    ChangesOnly Block.alarming p (deliverCondition k (c.thaw m).2 w p) := by
  have never := c.thaw_never_raises m
  cases is : (c.thaw m).2 with
  | nothing => rw [deliverCondition_nothing]; exact .refl _ p
  | raised x => exact absurd is (never x)
  | cleared x => exact deliverCleared_frame k x w p

section
variable {k : ChannelId} {r : Nat} {q : Part} (other : k ≠ .reference)
include other

theorem convertChannel_suspended (suspended : q.analog.suspended = true) :
    convertChannel k r q = q.modChannel k (Channel.taken (q.channelMode k) r) := by
  unfold convertChannel
  exact if_pos ((q.analog.setChannel_suspended other _).trans suspended)

/-- The judgement of a lamp or tension channel, and where its delivery begins (R134 to R138). -/
theorem convertChannel_judged (judged : q.analog.suspended = false) :
    let m := q.channelMode k
    let c := (q.analog.channel k).taken m r
    let t := c.thaw m
    let u := t.1.count k m (t.1.limits.fall m r)
    ∃ y, convertChannel k r q = deliverCondition k u.2 (word r) y ∧ y.analog = q.analog.setChannel k u.1 ∧
      ChangesOnly (.analog :: Block.alarming) q y ∧
      (t.2 = .nothing ∨ k.sided = true → y = { q with analog := q.analog.setChannel k u.1 }) := by
  intro m c t u
  have taken : (q.modChannel k (Channel.taken m r)).analog.channel k = c := Analog.channel_set ..
  set b := (q.modChannel k (Channel.taken m r)).modChannel k fun _ => t.1 with isB
  have analog : b.analog = q.analog.setChannel k t.1 := Analog.set_set ..
  have frame : ChangesOnly [.analog] q b := setAnalog_frame _ q
  have told := deliverThaw_frame k m c 0 b
  have same : (deliverCondition k t.2 0 b).analog = b.analog := (told .analog (by decide)).symm
  refine ⟨(deliverCondition k t.2 0 b).modChannel k fun _ => u.1, ?_, ?_, ?_, fun quiet => ?_⟩
  · unfold convertChannel
    dsimp only
    rw [if_neg (by rw [show (q.modChannel k (Channel.taken (q.channelMode k) r)).analog.suspended = q.analog.suspended from
      q.analog.setChannel_suspended other _, judged]; exact Bool.false_ne_true), q.channelMode_taken k, taken]
    show deliverCondition k (((deliverCondition k t.2 0 b).analog.channel k).count k m _).2 (word r) _ = _
    rw [same, analog, Analog.channel_set]
  · show (deliverCondition k t.2 0 b).analog.setChannel k u.1 = _
    rw [same, analog, Analog.set_set]
  · exact (frame.mono (by simp)).trans ((told.mono (by simp)).trans ((setAnalog_frame _ _).mono (by simp)))
  · have silent : deliverCondition k t.2 0 b = b := by
      obtain none | sided := quiet
      · rw [none, deliverCondition_nothing]
      · cases k with
        | reference => exact absurd rfl other
        | lamp h => exact nomatch sided
        | tension h =>
          have never := c.thaw_never_raises m
          cases is : t.2 with
          | nothing => rfl
          | raised x => exact absurd is (never x)
          | cleared x => rfl
    rw [silent]
    show ({ q with analog := (b.analog).setChannel k u.1 } : Part) = _
    rw [analog, Analog.set_set]

end

/-! ### The count -/

section
variable {k : ChannelId} {m : Option JudgingMode} {c : Channel}

theorem Channel.count_silent : c.count k m .unjudged = (c, .nothing) := by unfold Channel.count; rfl

theorem Channel.count_inside (free : c.condition = none) :
    c.count k m .inside = ({ c with outCount := 0, mode := m }, .nothing) := by
  unfold Channel.count
  rw [free]

theorem Channel.count_toward {x : Condition} (present : c.condition = some x) : c.count k m .inside =
    if c.limits.debounce ≤ c.inCount + 1 then ({ c with inCount := 0, condition := none, mode := m }, .cleared x)
    else ({ c with inCount := c.inCount + 1, mode := m }, .nothing) := by
  unfold Channel.count
  rw [present]

theorem Channel.count_out {x : Condition} (present : c.condition = some x) (side : Side) :
    c.count k m (.out side) = ({ c with inCount := 0, mode := m }, .nothing) := by
  unfold Channel.count
  rw [present]

/-- The out count a reading outside brings a channel to (R134). -/
def Channel.counted (k : ChannelId) (side : Side) (c : Channel) : Nat := if k.sided ∧ side ≠ c.outSide then 1 else c.outCount + 1

theorem Channel.count_away (free : c.condition = none) (side : Side) : c.count k m (.out side) =
    if c.limits.debounce ≤ c.counted k side then
      ({ c with outSide := if k.sided then side else c.outSide, mode := m, outCount := 0, condition := some (raisedBy k m side) },
        .raised (raisedBy k m side))
    else ({ c with outSide := if k.sided then side else c.outSide, mode := m, outCount := c.counted k side }, .nothing) := by
  unfold Channel.count
  rw [free]
  rfl

/-- The judgement of a reading leaves the last reading and the limits (R134). -/
theorem Channel.count_keeps (k : ChannelId) (m : Option JudgingMode) (f : Fall) (c : Channel) :
    (c.count k m f).1.last = c.last ∧ (c.count k m f).1.limits = c.limits := by
  cases f with
  | unjudged => exact ⟨rfl, rfl⟩
  | inside =>
    cases present : c.condition with
    | none => rw [count_inside present]; exact ⟨rfl, rfl⟩
    | some x => rw [count_toward present]; split <;> exact ⟨rfl, rfl⟩
  | out side =>
    cases present : c.condition with
    | none => rw [count_away present]; split <;> exact ⟨rfl, rfl⟩
    | some x => rw [count_out present]; exact ⟨rfl, rfl⟩

end

/-! ### What a delivery leaves of its channel -/

theorem lampFault_frame (h : HeadId) (p : Part) : ChangesOnly Block.scheduling p (lampFault h p) := by
  rw [lampFault_both]
  exact ((lampFaultAt_frame h .i1 p).mono (by decide)).trans ((lampFaultAt_frame h .i2 _).mono (by decide))

theorem lampFault_analog (h : HeadId) (p : Part) : (lampFault h p).analog = p.analog := by
  rw [lampFault_both]
  exact ((lampFaultAt_frame h .i2 _ .analog (by decide)).symm).trans (lampFaultAt_frame h .i1 p .analog (by decide)).symm

section
variable {h : HeadId} {p : Part} {x : Head} (head : p.head h = x) (f : FaultKind)
include head

/-- A head that is not in FAULT, and its channels, as a fault has gone through the scheduler. -/
theorem faultHead_wired (sane : x.drive ≠ .fault) : Wired h (x.unmeasured (x.faulted f))
    ((p.analog.entered h { x with fault := some f } .fault false).at h) (faultHead h f p) := by
  obtain ⟨q, -, -, -, acts⟩ := faultHead_tells head f sane
  have still : (x.unmeasured (x.faulted f)).drive.atRest = false := by unfold Head.unmeasured; split <;> rfl
  have lamp : (({ x with fault := some f } : Head).enter .fault p.time.now).outputs.lamp = false := by rw [Head.enter_fault]; rfl
  rw [faultHead, if_neg (by rw [head]; exact sane), tellFault_left] at acts ⊢
  have entered := enterDrive_analog h .fault f.cause (some f) (p.modHead h fun x => { x with fault := some f })
  rw [modHead_head, head, show (p.modHead h fun x => { x with fault := some f }).time = p.time from rfl, lamp] at entered
  have drives := (Drives.refl h p).modHead (fun x => { x with fault := some f })
  rw [head] at drives
  have now := (drives.enter (by decide) .fault f.cause (some f)).head
  rw [show ({ x with fault := some f } : Head).drive = x.drive from rfl, show ({ x with fault := some f } : Head).cadence = x.cadence from rfl,
    Head.enter_fault] at now
  refine tellLeft_keeps onAirFault_works (wired_toils h _ _) ⟨?_, still, ?_⟩
  · refine (mapPreds_head _ _ _ h).trans (now.trans ?_)
    rw [Head.unmeasured]
    cases x.drive.running <;> rfl
  · exact congrArg (Analog.at · h) entered

theorem faultHead_frame : ChangesOnly Block.scheduling p (faultHead h f p) := by
  unfold faultHead
  split
  · exact (raiseAlarm_frame _ _ _ _ p).mono (by decide)
  · exact (((modHead_frame h _ p).mono (by cases h <;> decide)).trans ((enterDrive_frame h _ _ _ _).mono (by cases h <;> decide))).trans
      (tellFault_sched h _).frame

omit head in
/-- A tension channel with a condition stands through the fault it brings (R136). -/
theorem Analog.entered_tension {a : Analog} {x : Head} {d : DriveState} {lamp : Bool} (present : (a.tension.get h).condition.isSome = true) :
    ((a.entered h x d lamp).at h).tension = a.tension.get h ∧ ((a.entered h x d lamp).at h).next = a.next := by
  have switched : ∀ b : Analog, b = (if lamp = x.outputs.lamp then a else a.lampSwitched h lamp) → b.tension = a.tension ∧ b.next = a.next := by
    rintro b rfl
    split
    · exact ⟨rfl, rfl⟩
    · unfold Analog.lampSwitched
      split <;> exact ⟨rfl, rfl⟩
  unfold Analog.entered
  dsimp only
  obtain ⟨tension, next⟩ := switched _ rfl
  generalize (if lamp = x.outputs.lamp then a else a.lampSwitched h lamp) = b at tension next
  split
  · unfold Analog.tensionIdled
    rw [tension, present, Bool.or_true, if_pos rfl]
    exact ⟨congrArg (·.get h) tension, next⟩
  · exact ⟨congrArg (·.get h) tension, next⟩

theorem faultHead_tension (present : (p.analog.tension.get h).condition.isSome = true) :
    (faultHead h f p).analog.tension.get h = p.analog.tension.get h ∧ (faultHead h f p).analog.next = p.analog.next := by
  by_cases sane : x.drive = .fault
  · rw [faultHead, if_pos (by rw [head]; exact sane), raiseAlarm_analog]
    exact ⟨rfl, rfl⟩
  · have wired := (faultHead_wired head f sane).view
    obtain ⟨tension, next⟩ := Analog.entered_tension (x := { x with fault := some f }) (d := .fault) (lamp := false) present
    rw [← wired] at tension next
    exact ⟨tension, next⟩

end

end Sys2Proof.Machine
end

section
/-! PROOFS. A conversion (R132 to R138), as a lamp or tension channel and as the reference channel take it. -/

namespace Sys2Proof.Machine

theorem FaultGuarded.of_same {h : HeadId} {v p q : Part} (a : FaultGuarded h p q) (heads : ∀ k, p.head k = v.head k)
    (islands : ∀ i, p.island i = v.island i) (ref : p.ref = v.ref) : FaultGuarded h v q := by
  have is : p = { p with heads := v.heads, islands := v.islands, ref := v.ref } := by
    rw [← Four.ext_get (v := p.heads) (w := v.heads) heads, ← Two.ext_get (v := p.islands) (w := v.islands) islands, ← ref]
  rw [is] at a
  exact a

section
variable {r : Nat} {p : Part} {k : ChannelId} (is : channelOfNat p.analog.next = some k)
include is

/-- The channel of the next conversion, with the reading taken (R133). -/
def Part.takes (p : Part) (k : ChannelId) (r : Nat) : Channel := (p.analog.channel k).taken (p.channelMode k) r

def Part.counting (p : Part) : Part := { p with analog := { p.analog with next := p.analog.next + 1 } }

omit is in
theorem Part.counting_channel (p : Part) (k : ChannelId) :
    p.counting.analog.channel k = p.analog.channel k ∧ p.counting.channelMode k = p.channelMode k := by cases k <;> exact ⟨rfl, rfl⟩

omit is in
theorem Analog.setChannel_counted (a : Analog) (k : ChannelId) (c : Channel) (n : Nat) :
    ({ a with next := n } : Analog).setChannel k c = { a.setChannel k c with next := n } := by cases k <;> rfl

theorem takeConversion_suspended (other : k ≠ .reference) (suspended : p.analog.suspended = true) :
    takeConversion r p = { p with analog := { p.analog.setChannel k (p.takes k r) with next := p.analog.next + 1 } } := by
  rw [takeConversion_of is, if_neg other]
  refine (convertChannel_suspended (q := p.counting) other suspended).trans ?_
  unfold Part.modChannel Part.takes
  rw [(p.counting_channel k).1, (p.counting_channel k).2]
  exact congrArg (fun a => ({ p with analog := a } : Part)) (Analog.setChannel_counted ..)

/-- What the judgement of a lamp or tension channel makes of it (R134 to R137). -/
def Part.judgement (p : Part) (k : ChannelId) (r : Nat) : Channel × Delivery :=
  let m := p.channelMode k
  let t : Channel := { (p.takes k r).held m with frozen := false }
  t.count k m (t.limits.fall m r)

/-- The part as the delivery of a judgement begins (R138). -/
def Part.counted (p : Part) (k : ChannelId) (r : Nat) : Part :=
  { p with analog := { p.analog.setChannel k (p.judgement k r).1 with next := p.analog.next + 1 } }

theorem takeConversion_judged (other : k ≠ .reference) (judged : p.analog.suspended = false) :
    ∃ y, takeConversion r p = deliverCondition k (p.judgement k r).2 (word r) y ∧ y.analog = (p.counted k r).analog ∧
      ChangesOnly (.analog :: Block.alarming) p y ∧
      ((p.takes k r).tiedEnds (p.channelMode k) = false ∨ k.sided = true → y = p.counted k r) := by
  obtain ⟨m, mode⟩ : ∃ m, p.channelMode k = some m := by
    cases k with
    | reference => exact absurd rfl other
    | lamp h => exact ⟨_, rfl⟩
    | tension h => exact ⟨_, rfl⟩
  obtain ⟨y, gives, analog, frame, quiet⟩ := convertChannel_judged (k := k) (r := r) (q := p.counting) other judged
  rw [(p.counting_channel k).1, (p.counting_channel k).2] at gives analog quiet
  have thawed : (Channel.thaw (p.channelMode k) (Channel.taken (p.channelMode k) r (p.analog.channel k))).1 =
      { (p.takes k r).held (p.channelMode k) with frozen := false } := ((p.takes k r).thaw_eq (p.channelMode k) mode).1
  rw [thawed] at gives analog quiet
  refine ⟨y, ?_, analog.trans (Analog.setChannel_counted ..), (show ChangesOnly (.analog :: Block.alarming) p p.counting from
    (setAnalog_frame _ p).mono (by simp)).trans frame, fun none => ?_⟩
  · rw [takeConversion_of is, if_neg other]
    exact gives
  · refine (quiet (none.imp_left ((p.takes k r).thaw_eq (p.channelMode k) mode).2)).trans ?_
    exact congrArg (fun a => ({ p with analog := a } : Part)) (Analog.setChannel_counted ..)

/-- A reading that is not judged (R135, R136). -/
theorem takeConversion_silent (other : k ≠ .reference) (judged : p.analog.suspended = false)
    (silent : p.channelMode k = some .warming ∨ p.channelMode k = some .idle) :
    (takeConversion r p).analog = { p.analog.setChannel k { (p.takes k r).held (p.channelMode k) with frozen := false } with
      next := p.analog.next + 1 } ∧
    ((p.takes k r).tiedEnds (p.channelMode k) = false → ChangesOnly [.analog] p (takeConversion r p)) ∧
    ChangesOnly (.analog :: Block.alarming) p (takeConversion r p) := by
  obtain ⟨y, gives, analog, frame, quiet⟩ := takeConversion_judged (r := r) is other judged
  have none : p.judgement k r = ({ (p.takes k r).held (p.channelMode k) with frozen := false }, .nothing) := by
    unfold Part.judgement
    dsimp only
    rw [Limits.fall_silent silent]
    rfl
  rw [none, deliverCondition_nothing] at gives
  rw [Part.counted, none] at analog quiet
  rw [gives]
  refine ⟨analog, fun stays => ?_, frame⟩
  rw [quiet (.inl stays)]
  exact setAnalog_frame _ p

end

/-! ### What a delivery brings -/

theorem Channel.count_raises {k : ChannelId} {m : Option JudgingMode} {f : Fall} {c : Channel} {x : Condition}
    (raises : (c.count k m f).2 = .raised x) : (c.count k m f).1.condition = some x := by
  cases f with
  | unjudged => exact nomatch raises
  | inside =>
    cases present : c.condition with
    | none => rw [count_inside present] at raises; exact nomatch raises
    | some y =>
      rw [count_toward present] at raises
      split at raises <;> exact nomatch raises
  | out side =>
    cases present : c.condition with
    | none =>
      rw [count_away present] at raises ⊢
      split at raises
      · next enough =>
        rw [if_pos enough]
        exact congrArg some (Delivery.raised.inj raises)
      · exact nomatch raises
    | some y => rw [count_out present] at raises; exact nomatch raises

theorem deliverCondition_frame (k : ChannelId) (d : Delivery) (w : Word) (p : Part) : ChangesOnly Block.scheduling p (deliverCondition k d w p) := by
  cases d with
  | nothing => rw [deliverCondition_nothing]; exact .refl _ p
  | cleared c => exact (deliverCleared_frame k c w p).mono (by decide)
  | raised c =>
    cases k with
    | reference => exact (raiseAlarm_frame _ _ _ _ p).mono (by decide)
    | lamp h =>
      have raised := (raiseAlarm_frame (.head h) c.alarm w 0 p).mono (t := Block.scheduling) (by decide)
      unfold deliverCondition
      dsimp only
      split
      · exact raised.trans (lampFault_frame h _)
      · exact raised
    | tension h => exact faultHead_frame rfl _

/-- The delivery of a judgement leaves the channel that was judged (R138). -/
theorem deliverCondition_channel {k : ChannelId} {d : Delivery} (w : Word) {p : Part}
    (present : ∀ x, d = .raised x → (p.analog.channel k).condition = some x) :
    (deliverCondition k d w p).analog.channel k = p.analog.channel k ∧ (deliverCondition k d w p).analog.next = p.analog.next := by
  have same : ∀ {q : Part}, q.analog = p.analog → q.analog.channel k = p.analog.channel k ∧ q.analog.next = p.analog.next :=
    fun {q} a => by rw [a]; exact ⟨rfl, rfl⟩
  cases d with
  | nothing => rw [deliverCondition_nothing]; exact ⟨rfl, rfl⟩
  | cleared c => exact same (deliverCleared_frame k c w p .analog (by decide)).symm
  | raised c =>
    cases k with
    | reference => exact same (raiseAlarm_analog ..)
    | lamp h =>
      unfold deliverCondition
      dsimp only
      split
      · exact same ((lampFault_analog h _).trans (raiseAlarm_analog ..))
      · exact same (raiseAlarm_analog ..)
    | tension h =>
      refine faultHead_tension (p := p) rfl _ ?_
      rw [show p.analog.tension.get h = p.analog.channel (.tension h) from rfl, present c rfl]
      rfl

section
variable {r : Nat} {p : Part} {k : ChannelId} (is : channelOfNat p.analog.next = some k)
include is

theorem takeConversion_channel (other : k ≠ .reference) (judged : p.analog.suspended = false) :
    (takeConversion r p).analog.channel k = (p.judgement k r).1 ∧ (takeConversion r p).analog.next = p.analog.next + 1 ∧
      ChangesOnly Block.scheduling p (takeConversion r p) := by
  obtain ⟨y, gives, analog, frame, -⟩ := takeConversion_judged (r := r) is other judged
  have counted : y.analog.channel k = (p.judgement k r).1 ∧ y.analog.next = p.analog.next + 1 := by
    rw [analog]
    refine ⟨?_, rfl⟩
    rw [Part.counted, ← Analog.setChannel_counted, Analog.channel_set]
  obtain ⟨channel, next⟩ := deliverCondition_channel (k := k) (d := (p.judgement k r).2) (word r) (p := y) fun x raises => by
    rw [counted.1]
    exact Channel.count_raises raises
  rw [gives]
  exact ⟨channel.trans counted.1, next.trans counted.2, (frame.mono (by decide)).trans (deliverCondition_frame k _ _ y)⟩

end

section
variable {r : Nat} {p : Part} {h : HeadId}

/-- A lamp that fails is an on-air fault of its head (R107, R138). -/
theorem takeConversion_lampFails (is : channelOfNat p.analog.next = some (.lamp h)) (judged : p.analog.suspended = false)
    (raises : (p.judgement (.lamp h) r).2 = .raised .lampFail) : FaultGuarded h p (takeConversion r p) := by
  obtain ⟨y, gives, -, frame, -⟩ := takeConversion_judged (r := r) is nofun judged
  rw [gives, raises]
  have raised := (frame.mono (t := .analog :: Block.alarming) (fun _ m => m)).trans
    ((raiseAlarm_frame (.head h) Condition.lampFail.alarm (word r) 0 y).mono (by decide))
  exact (lampFault_guarded (h := h)).of_same (fun k => (raised (.head k) (by cases k <;> decide)).symm)
    (fun i => (raised (.island i) (by cases i <;> decide)).symm) (raised .ref (by decide)).symm

theorem takeConversion_lampSticks (is : channelOfNat p.analog.next = some (.lamp h)) (judged : p.analog.suspended = false)
    (raises : (p.judgement (.lamp h) r).2 = .raised .lampStuck) : ChangesOnly (.analog :: Block.alarming) p (takeConversion r p) := by
  obtain ⟨y, gives, -, frame, -⟩ := takeConversion_judged (r := r) is nofun judged
  rw [gives, raises]
  exact frame.trans ((raiseAlarm_frame (.head h) Condition.lampStuck.alarm (word r) 0 y).mono (by decide))

/-- A break or a jam of a driven head (R28, R29, R107, R109). -/
theorem takeConversion_breaks (is : channelOfNat p.analog.next = some (.tension h)) (judged : p.analog.suspended = false)
    (driven : (p.head h).drive.driven = true) {c : Condition} (raises : (p.judgement (.tension h) r).2 = .raised c) :
    let q := takeConversion r p
    (q.head h).drive = .fault ∧ (q.head h).outputs = .off ∧ FaultGuarded h p q ∧ IncomingEnds h .incomingFault p q := by
  obtain ⟨y, gives, -, -, quiet⟩ := takeConversion_judged (r := r) is nofun judged
  rw [quiet (.inr rfl), raises] at gives
  intro q
  rw [show q = faultHead h (if c = .jam then .jam else .filmBreak) (p.counted (.tension h) r) from gives]
  have sane : (p.head h).drive ≠ .fault := fun fault => by rw [fault] at driven; exact nomatch driven
  obtain ⟨u, gone, left, tells, acts⟩ := faultHead_tells (h := h) (p := p.counted (.tension h) r) (x := p.head h) rfl
    (if c = .jam then .jam else .filmBreak) sane
  have head := acts.moving (by unfold Head.unmeasured; split <;> rfl)
  refine ⟨?_, ?_, ?_, ?_⟩
  · rw [head]
    unfold Head.unmeasured
    split <;> rfl
  · rw [head]
    unfold Head.unmeasured
    split <;> rfl
  · rw [gone]
    exact left.faultGuarded
  · rw [gone]
    exact left.incomingFaults tells

end

/-! ### The reference channel (R137) -/

section
variable {r : Nat} {p : Part} (is : channelOfNat p.analog.next = some .reference)
include is

def Part.referenceJudgement (p : Part) (r : Nat) : Channel × Delivery :=
  ({ p.analog.reference with last := r } : Channel).count .reference none (p.analog.reference.limits.fall none r)

theorem takeConversion_reference : let q := takeConversion r p
    q.analog.reference = (p.referenceJudgement r).1 ∧ q.analog.next = p.analog.next + 1 ∧
      ChangesOnly (.analog :: Block.alarming) p q ∧
      ((p.referenceJudgement r).2 = .raised .analogRef → q.alarms.shows .analog .analogRef = true) := by
  rw [takeConversion_of is, if_pos rfl]
  rcases judges : p.referenceJudgement r with ⟨c, d⟩
  unfold Part.referenceJudgement at judges
  dsimp only at judges
  unfold convertReference
  dsimp only
  rw [judges]
  have set : ∀ a : Analog, ChangesOnly (.analog :: Block.alarming) p { p with analog := a } := fun a => (setAnalog_frame a p).mono (by simp)
  cases d with
  | nothing => exact ⟨rfl, rfl, set _, nofun⟩
  | cleared x =>
    have told := deliverCleared_frame .reference x (word r) { p.counting with analog := { p.counting.analog with reference := c } }
    have analog := (told .analog (by decide)).symm
    exact ⟨congrArg Analog.reference analog, congrArg Analog.next analog, (set _).trans (told.mono (by simp)), nofun⟩
  | raised x =>
    have analog := raiseAlarm_analog .analog x.alarm (word r) 0
      { p.counting with analog := freeze { p.counting.analog with reference := c } }
    refine ⟨congrArg Analog.reference analog, congrArg Analog.next analog,
      (set (freeze { p.counting.analog with reference := c })).trans ((raiseAlarm_frame _ _ _ _ _).mono (by simp)), fun raises => ?_⟩
    cases raises
    exact raiseAlarm_alarms ..

end

/-! ### What the count makes of a reading (R134) -/

/-- The fall of a judged reading. -/
def Fall.of (low high : Bool) : Fall := if low then .out .low else if high then .out .high else .inside

theorem Fall.of_out {low high : Bool} (out : low = true ∨ high = true) : Fall.of low high = .out (if low then .low else .high) := by
  unfold Fall.of
  cases low with
  | true => rfl
  | false => rw [if_neg Bool.false_ne_true, if_pos (out.resolve_left Bool.false_ne_true)]; rfl

theorem Channel.count_fall (k : ChannelId) (m : Option JudgingMode) (t : Channel) (low high : Bool) :
    let u := (t.count k m (Fall.of low high)).1
    (low = false → high = false → t.condition = none → u.outCount = 0 ∧ u.condition = none) ∧
    (low = false → high = false → ∀ x, t.condition = some x →
      (t.inCount + 1 < t.limits.debounce → u.inCount = t.inCount + 1 ∧ u.condition = some x) ∧
      (t.limits.debounce ≤ t.inCount + 1 → u.inCount = 0 ∧ u.condition = none)) ∧
    (low = true ∨ high = true → t.condition.isSome = true → u.inCount = 0 ∧ u.condition = t.condition) ∧
    (low = true ∨ high = true → t.condition = none →
      let n := t.counted k (if low then .low else .high)
      let x := raisedBy k m (if low then .low else .high)
      (n < t.limits.debounce → u.outCount = n ∧ u.condition = none) ∧
      (t.limits.debounce ≤ n → u.outCount = 0 ∧ u.condition = some x ∧ (t.count k m (Fall.of low high)).2 = .raised x)) := by
  intro u
  refine ⟨fun l g free => ?_, fun l g x present => ⟨fun few => ?_, fun enough => ?_⟩, fun out present => ?_, fun out free => ⟨fun few => ?_,
    fun enough => ?_⟩⟩
  · subst l g
    rw [show u = (t.count k m .inside).1 from rfl, count_inside free]
    exact ⟨rfl, free⟩
  · subst l g
    rw [show u = (t.count k m .inside).1 from rfl, count_toward present, if_neg (Nat.not_le.2 few)]
    exact ⟨rfl, present⟩
  · subst l g
    rw [show u = (t.count k m .inside).1 from rfl, count_toward present, if_pos enough]
    exact ⟨rfl, rfl⟩
  · obtain ⟨x, present⟩ := Option.isSome_iff_exists.1 present
    rw [show u = (t.count k m (Fall.of low high)).1 from rfl, Fall.of_out out, count_out present]
    exact ⟨rfl, rfl⟩
  · rw [show u = (t.count k m (Fall.of low high)).1 from rfl, Fall.of_out out, count_away free, if_neg (Nat.not_le.2 few)]
    exact ⟨rfl, free⟩
  · rw [show u = (t.count k m (Fall.of low high)).1 from rfl, Fall.of_out out, count_away free, if_pos enough]
    exact ⟨rfl, rfl, rfl⟩

end Sys2Proof.Machine
end

section
/-! PROOFS. What a change of the LAMP output brings to its channel (R135), and the obligation about the Analog Scanner. -/

namespace Sys2Proof.Machine

/-! ### The LAMP output -/

theorem Analog.lampSwitched_get (h : HeadId) (on : Bool) (a : Analog) :
    (a.lampSwitched h on).lamp.get h = if a.suspended then a.lamp.get h else (a.lamp.get h).switched on := by
  unfold Analog.lampSwitched
  split
  · rfl
  · exact Four.get_set_same ..

theorem Analog.tensionIdled_lamp (h : HeadId) (a : Analog) : (a.tensionIdled h).lamp = a.lamp := by
  unfold Analog.tensionIdled
  split <;> rfl

theorem Analog.entered_lamp {h : HeadId} {x : Head} {d : DriveState} {on : Bool} {a : Analog} (switches : on ≠ x.outputs.lamp) :
    ((a.entered h x d on).at h).lamp = if a.suspended then a.lamp.get h else (a.lamp.get h).switched on := by
  rw [← Analog.lampSwitched_get]
  unfold Analog.entered
  rw [if_neg switches]
  split
  · exact congrArg (·.get h) (Analog.tensionIdled_lamp h _)
  · rfl

theorem Analog.entered_idle {h : HeadId} {x : Head} {d : DriveState} {on : Bool} {a : Analog} (same : on = x.outputs.lamp)
    (leaves : (x.drive.driven && !d.driven) = true) :
    ((a.entered h x d on).at h).tension = if a.suspended || (a.tension.get h).condition.isSome then a.tension.get h
      else { a.tension.get h with outCount := 0 } := by
  unfold Analog.entered
  rw [if_pos same, if_pos leaves]
  unfold Analog.at Analog.tensionIdled
  split
  · rfl
  · exact Four.get_set_same ..

/-- The alarm kind of a lamp condition tied to the old value of the LAMP output. -/
theorem lampEnds_eq (on : Bool) (c : Option Condition) : lampEnds on c =
    if c = some .lampFail ∧ on = false then some .lampFail else if c = some .lampStuck ∧ on = true then some .lampStuck else none := by
  match c with
  | none => rfl
  | some x => cases x <;> cases on <;> rfl

/-- What a change of the LAMP output of head `h` brings (R135). -/
structure Switches (h : HeadId) (p : Part) (on : Bool) (q : Part) : Prop where
  lamp : (q.head h).outputs.lamp = on
  channel : q.analog.lamp.get h = if p.analog.suspended then p.analog.lamp.get h else (p.analog.lamp.get h).switched on
  rests : p.analog.reference.condition = none → ∀ k, lampEnds on (p.analog.lamp.get h).condition = some k → q.alarms.rests (.head h) k

section
variable {h : HeadId} {p : Part}

theorem switchLamp_switches {on : Bool} (other : (p.head h).outputs.lamp ≠ on) : Switches h p on (switchLamp h on p) := by
  unfold switchLamp
  rw [if_neg other]
  set q := p.modHead h fun x => { x with outputs := { x.outputs with lamp := on }, lampOnAt := if on then some p.time.now else x.lampOnAt }
  have head : q.head h = _ := modHead_head h _ p
  have lamp : (q.head h).outputs.lamp = on := by rw [head]
  refine ⟨?_, ?_, fun judged k tied => ?_⟩
  · rw [lampChanged_head, lamp]
  · rw [lampChanged_analog, lamp, Analog.lampSwitched_get]
    rfl
  · exact lampChanged_rests judged (by rw [lamp]; exact tied)

theorem enterDrive_switches {d : DriveState} {c : Cause} {k : Option FaultKind}
    (other : ((p.head h).enter d p.time.now).outputs.lamp ≠ (p.head h).outputs.lamp) :
    Switches h p ((p.head h).enter d p.time.now).outputs.lamp (enterDrive h d c k p) := by
  refine ⟨?_, ?_, fun judged n tied => enterDrive_rests c k judged other tied⟩
  · rw [enterDrive_entered]
    unfold Head.entered
    split <;> rfl
  · rw [enterDrive_analog]
    exact Analog.entered_lamp other

/-- The scheduler's work leaves what a change of the LAMP output has brought to a head that is not at rest. -/
theorem Switches.through {on : Bool} {q r : Part} (a : Switches h p on q) (moving : (q.head h).drive.atRest = false)
    (works : ∀ I, (∀ j, Toils j I) → I q → I r) : Switches h p on r := by
  have wired := works _ (wired_toils h (q.head h) (q.analog.at h)) ⟨rfl, moving, rfl⟩
  exact ⟨by rw [wired.head]; exact a.lamp, (congrArg Analog.View.lamp wired.view).trans a.channel,
    fun judged k tied => works _ (rests_toils fun _ _ _ => by simp) (a.rests judged k tied)⟩

theorem Switches.mapPreds {on : Bool} {q : Part} (a : Switches h p on q) (f : PredKind → Pred → Pred) :
    Switches h p on (mapPreds h f q) := ⟨a.lamp, a.channel, a.rests⟩

/-- A START under AUTO (R17, R24). -/
theorem startHead_switches {c : Cause} (rest : (p.head h).drive.atRest = true) (dark : (p.head h).outputs.lamp = false)
    (auto : (p.head h).lampPolicy = .auto) : Switches h p true (tellStart h (startDrive h c p)) := by
  set v := p.modCadence h fun c => c.started p.ref.count (p.head h).pos.frame with is
  have head : v.head h = { p.head h with cadence := (p.head h).cadence.started p.ref.count (p.head h).pos.frame } := modHead_head h _ p
  have lamp : ((v.head h).enter .runup v.time.now).outputs.lamp = true := by
    rw [head, Head.enter]
    dsimp only
    rw [auto]
    rfl
  have entered := enterDrive_switches (p := v) (d := .runup) (c := c) (k := none) (h := h) (by rw [lamp, head, dark]; nofun)
  rw [lamp] at entered
  have started : Switches h p true (startDrive h c p) := ⟨entered.lamp, entered.channel, entered.rests⟩
  have moving : ((startDrive h c p).head h).drive.atRest = false := by
    rw [startDrive_started c rest]
    rfl
  exact (started.mapPreds _).through moving fun I K a => settle_toils K a

/-- The fault of a head whose lamp is on (R17, R28). -/
theorem faultHead_switches {x : Head} {f : FaultKind} (head : p.head h = x) (sane : x.drive ≠ .fault) (lit : x.outputs.lamp = true) :
    Switches h p false (faultHead h f p) := by
  set v := p.modHead h fun x => { x with fault := some f } with is
  have faulted : v.head h = { x with fault := some f } := (modHead_head h _ p).trans (by rw [head])
  have lamp : ((v.head h).enter .fault v.time.now).outputs.lamp = false := by rw [faulted, Head.enter_fault]; rfl
  have entered := enterDrive_switches (p := v) (d := .fault) (c := f.cause) (k := some f) (h := h) (by rw [lamp, faulted, lit]; nofun)
  rw [lamp] at entered
  have stopped : Switches h p false (enterDrive h .fault f.cause (some f) v) := ⟨entered.lamp, entered.channel, entered.rests⟩
  have moving : ((enterDrive h .fault f.cause (some f) v).head h).drive.atRest = false := by
    rw [enterDrive_entered]
    unfold Head.entered
    split <;> rfl
  rw [faultHead, if_neg (by rw [head]; exact sane), tellFault_left]
  exact (stopped.mapPreds _).through moving fun I K a => tellLeft_keeps onAirFault_works K a

/-- The tension channel of a head that STOP takes out of the running states (R136). -/
theorem requestStop_tension {x : Head} {c : Cause} (head : p.head h = x) (running : x.drive.running = true) :
    (requestStop h c p).analog.tension.get h =
      if p.analog.suspended || (p.analog.tension.get h).condition.isSome then p.analog.tension.get h
      else { p.analog.tension.get h with outCount := 0 } := by
  have drives := stopDrive_running head c running
  have wired : Wired h (({ x.halting p.time.now with cadence := x.cadence.stopped } : Head))
      ((enterDrive h .stopping c none p).analog.at h) (requestStop h c p) := by
    rw [(requestStop_running head c running).1]
    exact tellLeft_keeps onAirStop_works (wired_toils h _ _) ⟨(mapPreds_head _ _ _ h).trans drives.head, rfl, rfl⟩
  have dark : ((p.head h).enter .stopping p.time.now).outputs.lamp = (p.head h).outputs.lamp := by rw [Head.enter_stopping]; rfl
  refine (congrArg Analog.View.tension wired.view).trans ?_
  rw [enterDrive_analog, dark]
  refine Analog.entered_idle rfl ?_
  rw [head]
  unfold DriveState.driven
  rw [running]
  rfl

end

/-! ### The obligation -/

theorem conversion_mode (p : Part) (k : ChannelId) : (match k with
    | .reference => none
    | .lamp h =>
      let x := p.head h
      some (if x.outputs.lamp = false then JudgingMode.lampOff
        else if x.lampOnAt.all (fun lit => decide (lit + x.settings.lampSettle * 1000 ≤ p.time.now)) then .lampOn else .warming)
    | .tension h =>
      some (if (p.head h).drive ∈ [DriveState.runup, .locked, .unlocked, .cueFast, .cueInch] then .driven
        else if (p.analog.tension.get h).condition.isSome then .clearing else .idle)) = p.channelMode k := by
  cases k with
  | reference => rfl
  | lamp h =>
    unfold Part.channelMode Head.lampMode
    dsimp only
    cases (p.head h).outputs.lamp <;> rfl
  | tension h =>
    unfold Part.channelMode tensionMode
    dsimp only
    cases (p.head h).drive <;> rfl

theorem Part.takes_reference (p : Part) (r : Nat) : p.takes .reference r = { p.analog.reference with last := r } := by
  unfold Part.takes Channel.taken
  exact congrArg (fun m => ({ p.analog.reference with last := r, mode := m } : Channel)) (Option.or_none)

/-- A judged reading of channel `k`, whichever it is: `t` the channel as the count finds it, `c` what the count makes of it (R134). -/
structure Counts (p : Part) (k : ChannelId) (r : Nat) (t : Channel) (c : Channel × Delivery) (q : Part) : Prop where
  limits : t.limits = (p.takes k r).limits
  last : t.last = r
  side : t.outSide = (p.takes k r).outSide
  held : let held := if k = .reference then p.takes k r else (p.takes k r).held (p.channelMode k)
    t.condition = held.condition ∧ t.outCount = held.outCount ∧ t.inCount = held.inCount
  count : c = t.count k (p.channelMode k) (Fall.of (t.limits.below (p.channelMode k) r) (t.limits.above (p.channelMode k) r))
  channel : q.analog.channel k = c.1
  next : q.analog.next = p.analog.next + 1
  frame : ChangesOnly Block.scheduling p q
  reference : k = .reference → c = p.referenceJudgement r
  other : k ≠ .reference → p.analog.suspended = false ∧ c = p.judgement k r

theorem takeConversion_counts {r : Nat} {p : Part} {k : ChannelId} (is : channelOfNat p.analog.next = some k)
    (judges : k = .reference ∨ p.analog.reference.condition = none)
    (judged : ¬ (p.channelMode k = some .warming ∨ p.channelMode k = some .idle)) : ∃ t c, Counts p k r t c (takeConversion r p) := by
  by_cases ref : k = .reference
  · subst ref
    obtain ⟨channel, next, frame, -⟩ := takeConversion_reference (r := r) is
    refine ⟨p.takes .reference r, p.referenceJudgement r, rfl, rfl, rfl, ⟨rfl, rfl, rfl⟩, ?_, channel, next, frame.mono (by decide),
      fun _ => rfl, fun other => absurd rfl other⟩
    rw [Part.takes_reference]
    unfold Fall.of
    rw [← Limits.fall_judged judged]
    rfl
  · have clear : p.analog.suspended = false := by
      unfold Analog.suspended
      rw [judges.resolve_left ref]
      rfl
    obtain ⟨channel, next, frame⟩ := takeConversion_channel (r := r) is ref clear
    obtain ⟨limits, last, side⟩ := (p.takes k r).held_limits (p.channelMode k)
    refine ⟨{ (p.takes k r).held (p.channelMode k) with frozen := false }, p.judgement k r, limits, last, side, ?_, ?_,
      channel, next, frame, fun is => absurd is ref, fun _ => ⟨clear, rfl⟩⟩
    · dsimp only
      rw [if_neg ref]
      exact ⟨rfl, rfl, rfl⟩
    · unfold Part.judgement Fall.of
      dsimp only
      rw [Limits.fall_judged judged]

/-- Settles O43: each clause is read off the judgement of one channel and off what its delivery, or a change of the LAMP output,
leaves of it. -/
theorem conversionsAreJudged : Obligations.ConversionsAreJudged := by
  intro s dt r running a t
  have conv : ∀ {P : Part → Prop}, a.begun + 100 * (a.next + 1) ≤ t → P (takeConversion r.toNat (elapse dt s.part)) →
      Completes (.conversionComplete dt r) s P := fun {P} due holds =>
    .of_timed (f := takeConversion r.toNat) rfl running (by
      unfold conversionDue
      rw [elapse_now, show (elapse dt s.part).analog = a from (elapse_frame dt s.part .analog (by decide)).symm]
      exact decide_eq_true due) holds
  refine ⟨fun due => ?scan, fun due k is => ?conversion, fun w h named => ?lamp⟩
  case scan =>
    refine .of_timed (f := takeScan) rfl running ?_ ⟨?_, ?_⟩
    · unfold scanDue
      rw [elapse_now, show (elapse dt s.part).analog = a from (elapse_frame dt s.part .analog (by decide)).symm]
      exact decide_eq_true due
    · rw [elapse_eq]
      rfl
    · exact ((setAnalog_frame _ _).mono (by simp)).elapsed (by simp)
  case conversion =>
    obtain ⟨p, isP, now⟩ : ∃ p, elapse dt s.part = p ∧ p.time.now = t := ⟨_, rfl, elapse_now dt s.part⟩
    have same : p = { s.part with time := p.time } := by rw [← isP]; exact elapse_eq dt s.part
    have analog : p.analog = a := by rw [same]
    have heads : ∀ h, p.head h = s.part.head h := fun h => by rw [same]; rfl
    rw [isP] at conv
    have isK : channelOfNat p.analog.next = some k := by rw [analog]; exact is
    intro mode c silent other ends held low high kept n cmd
    have isMode : mode = p.channelMode k := by
      rw [← conversion_mode p k, now, analog]
      simp only [heads]
      exact rfl
    have isC : c = p.takes k r.toNat := by
      unfold Part.takes
      rw [← isMode, analog]
      rfl
    have isOther : k ≠ .reference → other = c.otherMode mode := fun notRef => by
      show (decide (k ≠ .reference) && c.frozen && decide (mode ≠ c.mode)) = _
      rw [decide_eq_true notRef, Bool.true_and]
      rfl
    have isEnds : k ≠ .reference → ends = c.tiedEnds mode := fun notRef => congrArg (· && _) (isOther notRef)
    have isHeld : held = if k = .reference then c else c.held mode := by
      show (if other then ({ c with outCount := 0, inCount := 0, condition := if ends then none else c.condition } : Channel) else c) = _
      by_cases ref : k = .reference
      · rw [if_pos ref, if_neg]
        show ¬ (decide (k ≠ .reference) && c.frozen && decide (mode ≠ c.mode)) = true
        rw [decide_eq_false (not_not.2 ref)]
        nofun
      · rw [if_neg ref, isOther ref, isEnds ref]
        rfl
    have since : ∀ {bs : List Block} {q : Part}, ChangesOnly bs p q → Block.time ∈ bs → ChangesOnly bs s.part q := fun x time =>
      x.since isP.symm time
    refine ⟨fun notRef suspended => conv due ?_, fun judges => ⟨fun quiet => conv due ?_, fun judged => conv due ?_⟩⟩
    · rw [takeConversion_suspended isK notRef (by rw [analog]; exact suspended), ← isC]
      exact ⟨by rw [analog], since ((setAnalog_frame _ p).mono (by simp)) (by simp)⟩
    · have notRef : k ≠ .reference := fun ref => by
        subst ref
        exact quiet.elim nofun nofun
      obtain ⟨sets, stays, frame⟩ := takeConversion_silent (r := r.toNat) isK notRef
        (by rw [analog]; exact congrArg Option.isSome (judges.resolve_left notRef)) (by rw [← isMode]; exact quiet)
      rw [← isC, ← isMode] at sets stays
      rw [← isEnds notRef] at stays
      rw [isHeld, if_neg notRef]
      exact ⟨by rw [sets, analog], fun none => since ((stays none).mono (by simp)) (by simp), since (frame.mono (by simp)) (by simp)⟩
    · obtain ⟨u, v, counts⟩ := takeConversion_counts (r := r.toNat) isK (by rw [analog]; exact judges) (by rw [← isMode]; exact judged)
      have side := counts.side
      have limits := counts.limits
      have found := counts.held
      rw [← isC] at side limits
      rw [← isC, ← isMode, ← isHeld] at found
      obtain ⟨condition, outCount, inCount⟩ := found
      have isLow : u.limits.below mode r.toNat = low := by rw [limits]; rfl
      have isHigh : u.limits.above mode r.toNat = high := by rw [limits]; rfl
      have isV := counts.count
      rw [← isMode, isLow, isHigh] at isV
      have isN : n = u.counted k (if low then .low else .high) := by
        unfold Channel.counted
        rw [side, outCount]
        exact if_congr (and_congr_right fun _ => ne_comm) rfl rfl
      obtain ⟨inside, toward, present, away⟩ := u.count_fall k mode low high
      obtain ⟨last, keeps⟩ := u.count_keeps k mode (Fall.of low high)
      rw [← isV] at inside toward present away last keeps
      rw [← isN] at away
      have toPart : ∀ {h q}, FaultGuarded h p q → FaultGuarded h s.part q := fun {h q} g => g.of_same heads (fun i => by rw [same]; rfl)
        (by rw [same])
      rw [counts.channel]
      refine ⟨last.trans counts.last, keeps.trans limits, counts.next.trans (by rw [analog]), fun l g free => inside l g (condition.trans free),
        fun l g x is => ?_, fun out is => ?_, fun out free => ⟨fun few => ?_, fun enough => ?_⟩, since (counts.frame.mono (by simp)) (by simp)⟩
      · obtain ⟨few, enough⟩ := toward l g x (condition.trans is)
        rw [inCount, limits] at few enough
        exact ⟨few, enough⟩
      · obtain ⟨none, stays⟩ := present out (by rw [condition]; exact is)
        exact ⟨none, stays.trans condition⟩
      · exact (away out (condition.trans free)).1 (by rw [limits]; exact few)
      · obtain ⟨none, now, raises⟩ := (away out (condition.trans free)).2 (by rw [limits]; exact enough)
        refine ⟨none, fun ref => ?_, fun h lamp => ?_, fun h tension => ?_⟩
        · subst ref
          rw [counts.reference rfl] at raises now ⊢
          exact ⟨now, (takeConversion_reference (r := r.toNat) isK).2.2.2 raises⟩
        · subst lamp
          obtain ⟨clear, judges⟩ := counts.other nofun
          rw [judges] at raises now ⊢
          refine ⟨now, fun lit => toPart (takeConversion_lampFails isK clear (raises.trans ?_)), fun dark =>
            since ((takeConversion_lampSticks isK clear (raises.trans ?_)).mono (by simp)) (by simp)⟩
          · exact congrArg Delivery.raised (if_neg lit)
          · exact congrArg Delivery.raised (if_pos dark)
        · subst tension
          obtain ⟨clear, judges⟩ := counts.other nofun
          rw [judges] at raises now ⊢
          refine ⟨now.trans ?_, fun driven => ?_⟩
          · cases low <;> rfl
          · have is : (p.head h).drive.driven = true := by
              rw [isMode] at driven
              unfold Part.channelMode tensionMode at driven
              dsimp only at driven
              by_contra idle
              rw [if_neg idle] at driven
              split at driven <;> exact nomatch driven
            obtain ⟨fault, off, guarded, ends⟩ := takeConversion_breaks isK clear is raises
            rw [off]
            refine ⟨fault, rfl, rfl, toPart guarded, ?_⟩
            generalize takeConversion r.toNat p = q at ends
            rw [same] at ends
            exact ends
  case lamp =>
    intro x c' tied switches
    have brings : ∀ {p q : Part} {on}, p.analog = a → Switches h p on q → switches on q := fun {p q on} analog brought => by
      have channel := brought.channel
      have rests := brought.rests
      rw [analog] at channel rests
      refine ⟨brought.lamp, fun suspended => channel.trans (if_pos suspended), fun judged => ⟨?_, fun k ends _ => ?_⟩⟩
      · rw [channel, if_neg (by unfold Analog.suspended; rw [judged]; nofun), Channel.switched, lampEnds_eq]
      · exact rests judged k ((lampEnds_eq on _).trans ends)
    refine ⟨fun on b flag clear => ?_, fun rest dark auto remote => ?_, fun lit begun sane on late => ?_, fun runs remote => ?_⟩
    · refine .of_commanded (f := lampCommand w on) (q := switchLamp h b (s.part.modHead h fun x => { x with lampPolicy := .manual }))
        rfl running ?_ ⟨fun other => ?_, fun same => ?_⟩
      · rw [lampCommand_of named, flag]
        exact if_neg clear
      · exact brings (p := s.part.modHead h _) rfl ⟨(switchLamp_switches (by rw [modHead_head]; exact other)).lamp,
          (switchLamp_switches (by rw [modHead_head]; exact other)).channel, (switchLamp_switches (by rw [modHead_head]; exact other)).rests⟩
      · show (switchLamp h b _).analog = a
        unfold switchLamp
        rw [if_pos (by rw [modHead_head]; exact same)]
        rfl
    · have brought := startHead_switches (p := s.part) (h := h) (c := .command) rest dark auto
      exact .of_commanded (f := startCommand w) rfl running ((onHead_remote _ named remote).trans (startHead_rest _ rest))
        (brings (p := s.part) rfl ⟨brought.lamp, brought.channel, brought.rests⟩)
    · have head : (elapse dt s.part).head h = x := elapse_head dt s.part h
      refine .of_timed (f := takeGapExpiry h) rfl running ?_ ?_
      · unfold gapExpired
        rw [head, begun, Option.any_some, elapse_now, Head.gapLimit_eq]
        exact decide_eq_true late
      · exact brings (p := elapse dt s.part) (elapse_frame dt s.part .analog (by decide)).symm (faultHead_switches head sane on)
    · have tension := requestStop_tension (p := s.part) (h := h) (c := .command) rfl runs
      refine .of_commanded (f := stopCommand w) rfl running (onHead_remote _ named remote) ⟨fun judged clear => tension.trans (if_neg ?_),
        fun is => tension.trans (if_pos ?_)⟩
      · unfold Analog.suspended
        rw [show s.part.analog.reference.condition = none from judged, show (s.part.analog.tension.get h).condition = none from clear]
        nofun
      · exact Bool.or_eq_true _ _ ▸ is

end Sys2Proof.Machine
end

section
/-! PROOFS. The timers of the Mirror Link (R115, R116, R118 to R120, R123 to R127): the bits on the pair, joining POLLs, selecting an entry, counting a miss; and the settling of LinkTimers. -/

namespace Sys2Proof.Machine

/-! ### The bits of a message (R115, R116) -/

theorem LinkChar.bits_length (c : LinkChar) : (LinkChar.bits c).length = 11 := by simp [LinkChar.bits]

theorem LinkChar.bits_getElem? (c : LinkChar) {m : Nat} (m11 : m < 11) : (LinkChar.bits c)[m]? =
    some (if m = 0 then false else if m ≤ 8 then c.data.getLsbD (m - 1) else if m = 9 then c.address else !c.framing) := by
  have eq : (LinkChar.bits c) = [false, c.data.getLsbD 0, c.data.getLsbD 1, c.data.getLsbD 2, c.data.getLsbD 3, c.data.getLsbD 4,
    c.data.getLsbD 5, c.data.getLsbD 6, c.data.getLsbD 7, c.address, !c.framing] := rfl
  rw [eq]
  match m, m11 with
  | 0, _ | 1, _ | 2, _ | 3, _ | 4, _ | 5, _ | 6, _ | 7, _ | 8, _ | 9, _ | 10, _ => rfl

/-- Bit `n` of a message is bit `n % 11` of its character `n / 11`. -/
theorem flatMap_bits_getElem? {l : List LinkChar} {n : Nat} {c : LinkChar} (is : l[n / 11]? = some c) :
    (l.flatMap LinkChar.bits)[n]? = (LinkChar.bits c)[n % 11]? := by
  induction l generalizing n with
  | nil => nomatch is
  | cons d rest ih =>
    rw [List.flatMap_cons]
    rcases Nat.lt_or_ge n 11 with small | large
    · rw [Nat.div_eq_of_lt small, List.getElem?_cons_zero, Option.some.injEq] at is
      rw [List.getElem?_append_left (by rw [LinkChar.bits_length]; exact small), Nat.mod_eq_of_lt small, is]
    · rw [List.getElem?_append_right (by rw [LinkChar.bits_length]; exact large), LinkChar.bits_length]
      have quotient : n / 11 = (n - 11) / 11 + 1 := by omega
      rw [quotient, List.getElem?_cons_succ] at is
      rw [ih is]
      congr 1
      omega

theorem LinkUnit.level_of_char {k : LinkUnit} {t : Timebase} {c : LinkChar} (on : k.transmit = true)
    (is : k.sending[(t.crystal - k.since) * k.settings.rate.baud / 4000000 / 11]? = some c) :
    k.level t = (LinkChar.bits c)[(t.crystal - k.since) * k.settings.rate.baud / 4000000 % 11]? := by
  unfold LinkUnit.level
  rw [if_pos on]
  exact flatMap_bits_getElem? is

theorem LinkUnit.level_of_off {k : LinkUnit} (t : Timebase) (off : k.transmit = false) : k.level t = none := by
  unfold LinkUnit.level
  rw [off, if_neg Bool.false_ne_true]

/-- The four characters of a request (R116, R190). -/
theorem messageChars_request (address : Nat) (r : Request) : messageChars (requestBytes address r) =
    let a : Byte := BitVec.ofNat 8 (address % 16)
    let c : Byte := match r with
      | .move _ _ => 1
      | .poll => 2
    let g : Byte := match r with
      | .move port _ => BitVec.ofNat 8 port.num
      | .poll => 0
    [⟨a, true, false⟩, ⟨c, false, false⟩, ⟨g, false, false⟩, ⟨0 - (a + c + g), false, false⟩] := by
  cases r <;> rfl

/-! ### Joining and selecting (R118, R119) -/

/-- Joining POLLs changes the queue and the stations of the link alone. -/
structure JoinsOnly (p q : Part) : Prop where
  same : q = { p with link := { p.link with queue := q.link.queue, stations := q.link.stations } }
  front : ∀ e, p.link.queue.head? = some e → q.link.queue.head? = some e

namespace JoinsOnly

theorem refl (p : Part) : JoinsOnly p p := ⟨rfl, fun _ a => a⟩

theorem trans {p q r : Part} (a : JoinsOnly p q) (b : JoinsOnly q r) : JoinsOnly p r :=
  ⟨by rw [b.same, a.same], fun e is => b.front e (a.front e is)⟩

variable {p q : Part} (a : JoinsOnly p q)
include a

theorem line : q.link.line = p.link.line := by rw [a.same]
theorem flight : q.link.flight = p.link.flight := by rw [a.same]
theorem evt : q.evt = p.evt := by rw [a.same]
theorem transmit : q.link.transmit = p.link.transmit := by rw [a.same]
theorem sending : q.link.sending = p.link.sending := by rw [a.same]
theorem since : q.link.since = p.link.since := by rw [a.same]

theorem frame : ChangesOnly [.link] p q := by
  rw [a.same]
  exact setLink_frame _ p

end JoinsOnly

theorem joinPoll_joins (i : IslandId) (p : Part) : JoinsOnly p (joinPoll i p) := by
  unfold joinPoll
  split
  · refine ⟨rfl, fun e is => ?_⟩
    obtain ⟨rest, eq⟩ := List.head?_eq_some_iff.mp is
    show (p.link.queue ++ _).head? = _
    rw [eq]; rfl
  · exact .refl p

theorem joinPolls_joins (p : Part) : JoinsOnly p (joinPolls p) := by
  unfold joinPolls
  dsimp only
  split
  · exact joinPoll_joins .i1 p
  · exact (joinPoll_joins .i1 p).trans (joinPoll_joins .i2 _)

/-- The POLL of island `i` has joined the back of the queue. -/
def Part.polling (i : IslandId) (p : Part) : Part :=
  Part.modStation { p with link := { p.link with queue := p.link.queue ++ [⟨i, .poll⟩] } } i fun s => { s with due := false }

theorem Part.polling_queue (i : IslandId) (p : Part) : (p.polling i).link.queue = p.link.queue ++ [⟨i, .poll⟩] := rfl

theorem Part.polling_due (i j : IslandId) (p : Part) :
    ((p.polling i).link.stations.get j).due = (decide (j ≠ i) && (p.link.stations.get j).due) := by
  cases i <;> cases j <;> rfl

theorem joinPoll_of_due {i : IslandId} {p : Part} (due : (p.link.stations.get i).due = true)
    (waits : p.link.queue.any (Entry.isPollOf i) = false) (flight : p.link.flight = none) (room : p.link.queue.length < 4) :
    joinPoll i p = p.polling i := by
  unfold joinPoll
  rw [if_pos ⟨due, by rw [waits]; exact Bool.false_ne_true, by rw [flight]; exact Bool.false_ne_true, room⟩]
  rfl

theorem joinPoll_of_not_due {i : IslandId} {p : Part} (due : (p.link.stations.get i).due = false) : joinPoll i p = p := by
  unfold joinPoll
  rw [if_neg fun a => Bool.false_ne_true (due.symm.trans a.1)]

theorem selectEntry_of_busy {p : Part} (line : p.link.line ≠ .idle) : selectEntry p = p := by
  unfold selectEntry
  split
  · exact absurd ‹p.link.line = _› line
  · rfl

theorem selectEntry_of_empty {p : Part} (queue : p.link.queue = []) : selectEntry p = p := by
  unfold selectEntry
  split
  · rename_i e rest front
    exact absurd (front.symm.trans queue) (List.cons_ne_nil _ _)
  · rfl

/-- While the line is not IDLE the link adds due POLLs and no more. -/
theorem pumpLink_of_busy {p : Part} (line : p.link.line ≠ .idle) : JoinsOnly p (pumpLink p) := by
  have first := joinPolls_joins p
  unfold pumpLink
  rw [selectEntry_of_busy (by rw [first.line]; exact line)]
  exact first.trans (joinPolls_joins _)

/-! ### A transaction begins (R115, R120, R125) -/

/-- The MOVE_LATE of an entry whose transaction begins at field `count` (R125). -/
def Entry.lateness (e : Entry) (address : Nat) (count : Stamp) : List Event :=
  match e.request with
  | .move port asked =>
    let fields := (count - asked).toNat
    if 1 ≤ fields ∧ fields < 2 ^ 31 then
      [{ source := .island e.island, stamp := count, item := .moveLate address port asked count fields }]
    else []
  | .poll => []

theorem Stamp.after_iff {a b : Stamp} : Stamp.after b a = true ↔ 1 ≤ (b - a).toNat ∧ (b - a).toNat < 2 ^ 31 := by
  simp only [Stamp.after, Bool.and_eq_true, decide_eq_true_eq]

theorem Stamp.diff_of_after {a b : Stamp} (after : Stamp.after b a = true) : Stamp.diff b a = (b - a).toNat := by
  have near := (Stamp.after_iff.mp after).2
  unfold Stamp.diff
  rw [BitVec.toInt_eq_toNat_cond, if_pos (by omega)]

theorem reportLate_evt {p : Part} (e : Entry) (address : Nat) (writing : p.evt.writing = true) (room : p.evt.queue.length ≤ 15) :
    (reportLate e address p).evt = { p.evt with queue := p.evt.queue ++ e.lateness address p.ref.count } := by
  obtain ⟨island, request⟩ := e
  cases request with
  | poll => exact congrArg (fun l => { p.evt with queue := l }) (List.append_nil _).symm
  | move port asked =>
    dsimp only [reportLate, Entry.lateness]
    rcases Bool.eq_false_or_eq_true (Stamp.after p.ref.count asked) with after | after
    · rw [if_pos after, if_pos (Stamp.after_iff.mp after), post_of_still (.inl writing) (Nat.lt_succ_of_le room),
        Stamp.diff_of_after after]
    · rw [after, if_neg Bool.false_ne_true, if_neg fun a => Bool.false_ne_true (after.symm.trans (Stamp.after_iff.mpr a)),
        List.append_nil]

/-- A transaction of the entry in flight `f` begins. -/
structure Begins (f : Flight) (p q : Part) : Prop where
  line : q.link.line = .sending
  since : q.link.since = p.time.crystal
  flight : q.link.flight = some { f with tries := f.tries + 1, sentTo := (p.island f.entry.island).settings.address }
  transmit : q.link.transmit = true
  sending : q.link.sending = messageChars (requestBytes (p.island f.entry.island).settings.address f.entry.request)
  again : f.tries ≠ 0 → q.evt = p.evt
  late : f.tries = 0 → p.evt.writing = true → p.evt.queue.length ≤ 15 → q.evt = { p.evt with
    queue := p.evt.queue ++ f.entry.lateness (p.island f.entry.island).settings.address p.ref.count }

theorem beginTransaction_begins (f : Flight) (p : Part) : Begins f p (beginTransaction f p) := by
  have link := beginTransaction_link f p
  refine ⟨by rw [link], by rw [link], by rw [link], by rw [link], by rw [link], fun again => ?_, fun first writing room => ?_⟩
  · unfold beginTransaction
    dsimp only
    rw [if_neg again]
  · unfold beginTransaction
    dsimp only
    rw [if_pos first]
    exact reportLate_evt f.entry _ writing room

theorem Begins.joined {f : Flight} {p q r : Part} (a : Begins f p q) (b : JoinsOnly q r) : Begins f p r :=
  ⟨b.line.trans a.line, b.since.trans a.since, b.flight.trans a.flight, b.transmit.trans a.transmit, b.sending.trans a.sending,
    fun again => b.evt.trans (a.again again), fun first writing room => b.evt.trans (a.late first writing room)⟩

/-- What begins for an entry selected on an IDLE line. -/
def Entry.flown (e : Entry) : Flight := { entry := e, tries := 0, sentTo := 0, orphan := false }

/-- The link with the front entry to be selected: it and its first transaction. -/
theorem pumpLink_begins {p : Part} {e : Entry} (line : p.link.line = .idle) (flight : p.link.flight = none)
    (front : (joinPolls p).link.queue.head? = some e) : Begins e.flown p (pumpLink p) := by
  have joined := joinPolls_joins p
  obtain ⟨rest, queue⟩ := List.head?_eq_some_iff.mp front
  have begins := beginTransaction_begins e.flown { joinPolls p with link := { (joinPolls p).link with queue := rest } }
  unfold pumpLink
  rw [selectEntry_first (joined.line.trans line) (joined.flight.trans flight) queue]
  refine Begins.joined ?_ (joinPolls_joins _)
  rw [joined.same] at begins ⊢
  exact ⟨begins.line, begins.since, begins.flight, begins.transmit, begins.sending, begins.again, begins.late⟩

/-! ### Misses (R123, R124, R127) -/

/-- A station record after a miss. -/
def Station.missed (old : Station) : Station :=
  let misses := min 255 (old.misses + 1)
  { old with misses := misses, online := if 3 ≤ misses then .offline else old.online }

theorem countMiss_eq (i : IslandId) (address : Nat) (p : Part) : countMiss i address p =
    let old := p.link.stations.get i
    let q := p.modStation i fun _ => old.missed
    if 3 ≤ min 255 (old.misses + 1) then
      let r := raiseAlarm (.island i) .stationOffline (word address) 0
        (if old.online = .offline then q else postStation i .offline address none q)
      if old.online = .offline then r else stationOffline i r
    else q := by
  unfold countMiss Station.missed
  rfl

theorem countMiss_link_eq (i : IslandId) (address : Nat) (p : Part) :
    (countMiss i address p).link = (p.modStation i fun _ => (p.link.stations.get i).missed).link := by
  have told (q : Part) : (postStation i .offline address none q).link = q.link := post_link _ _ _
  rw [countMiss_eq]
  dsimp only
  split
  · split
    · exact raiseAlarm_link _ _ _ _ _
    · exact (raiseAlarm_link _ _ _ _ _).trans (told _)
  · rfl

theorem countMiss_frame (i : IslandId) (address : Nat) (p : Part) :
    ChangesOnly ([.link, .island i] ++ Block.alarming) p (countMiss i address p) := by
  rw [countMiss_eq]
  have station (f : Station → Station) (q : Part) : ChangesOnly ([.link, .island i] ++ Block.alarming) q (q.modStation i f) :=
    (modStation_frame i f q).mono (by simp)
  have told (q : Part) : ChangesOnly ([.link, .island i] ++ Block.alarming) q (postStation i .offline address none q) :=
    (post_frame _ _ q).mono fun b m => .tail _ (.tail _ (.tail _ m))
  have raised (q : Part) : ChangesOnly ([.link, .island i] ++ Block.alarming) q (raiseAlarm (.island i) .stationOffline (word address) 0 q) :=
    (raiseAlarm_frame _ _ _ _ q).mono (by simp)
  have unknown (q : Part) : ChangesOnly ([.link, .island i] ++ Block.alarming) q (stationOffline i q) :=
    (modIsland_frame i _ q).mono (by simp)
  dsimp only
  split
  · refine .ite ?_ ?_
    · exact ((station _ p).trans (.ite (.refl _ _) (told _))).trans (raised _)
    · exact (((station _ p).trans (.ite (.refl _ _) (told _))).trans (raised _)).trans (unknown _)
  · exact station _ p

/-- The third miss in a row: the station is OFFLINE (R127). -/
structure GoesOffline (i : IslandId) (address : Nat) (p q : Part) : Prop where
  shown : q.alarms.shows (.island i) .stationOffline = true
  mirror : (p.link.stations.get i).online ≠ .offline → q.island i = { p.island i with mirror := .unknown }
  island : (p.link.stations.get i).online = .offline → q.island i = p.island i
  told : (p.link.stations.get i).online ≠ .offline → p.listens → let old := p.link.stations.get i
    q.tells (.island i) [.station .offline address .offline old.port old.moving old.fault (min 255 (old.misses + 1)) none]

theorem countMiss_silent {i : IslandId} (address : Nat) {p : Part} (few : min 255 ((p.link.stations.get i).misses + 1) < 3) :
    countMiss i address p = p.modStation i fun _ => (p.link.stations.get i).missed := by
  rw [countMiss_eq]
  dsimp only
  rw [if_neg (by omega)]

theorem postStation_missed {i : IslandId} (address : Nat) {p : Part} (many : 3 ≤ min 255 ((p.link.stations.get i).misses + 1)) :
    postStation i .offline address none (p.modStation i fun _ => (p.link.stations.get i).missed) =
      post (.island i) (.station .offline address .offline (p.link.stations.get i).port (p.link.stations.get i).moving
        (p.link.stations.get i).fault (min 255 ((p.link.stations.get i).misses + 1)) none)
        (p.modStation i fun _ => (p.link.stations.get i).missed) := by
  have missed : (p.link.stations.get i).missed.online = .offline := if_pos many
  have station : (p.modStation i fun _ => (p.link.stations.get i).missed).link.stations.get i = (p.link.stations.get i).missed :=
    Two.get_set_same _ _ _
  unfold postStation
  rw [station]
  dsimp only
  rw [missed]
  rfl

theorem countMiss_goesOffline {i : IslandId} (address : Nat) {p : Part} (many : 3 ≤ min 255 ((p.link.stations.get i).misses + 1)) :
    GoesOffline i address p (countMiss i address p) := by
  have ref := countMiss_frame i address p .ref (by simp [Block.alarming, Block.posting])
  rw [countMiss_eq] at ref ⊢
  dsimp only at ref ⊢
  rw [if_pos many, postStation_missed address many] at ref ⊢
  by_cases was : (p.link.stations.get i).online = .offline
  · rw [if_pos was, if_pos was] at ref ⊢
    exact ⟨raiseAlarm_alarms _ _ _ _ _, fun n => absurd was n, fun _ => raiseAlarm_island _ _ _ _ _ i, fun n => absurd was n⟩
  · rw [if_neg was, if_neg was] at ref ⊢
    refine ⟨raiseAlarm_alarms _ _ _ _ _, fun _ => ?_, fun a => absurd a was, fun _ listens => ?_⟩
    · unfold stationOffline
      rw [modIsland_island, raiseAlarm_island]
      exact congrArg (fun x : Island => { x with mirror := .unknown }) (post_island _ _ _ i)
    · have posted := (Awaits.of_evt (q := p.modStation i fun _ => (p.link.stations.get i).missed) listens.awaits rfl).post (.island i)
        (.station .offline address .offline (p.link.stations.get i).port (p.link.stations.get i).moving
          (p.link.stations.get i).fault (min 255 ((p.link.stations.get i).misses + 1)) none) (by decide)
      have raised := (posted.raise (.island i) .stationOffline (word address) 0).holds
      have count := congrArg RefUnit.count ref
      exact Holds.tells (es := [_]) raised (by rw [← count]; rfl)

/-- The part as the reply timer has run out, before its entry in flight ends or goes on. -/
def Part.judgedMiss (f : Flight) (p : Part) : Part := if f.orphan then enterGap p else countMiss f.entry.island f.sentTo (enterGap p)

theorem takeTimeout_of_flight {f : Flight} {p : Part} (flight : p.link.flight = some f) :
    takeTimeout p = if f.again then p.judgedMiss f else endEntry (p.judgedMiss f) := by
  unfold takeTimeout
  rw [flight]
  rfl

theorem Part.judgedMiss_link (f : Flight) (p : Part) : (p.judgedMiss f).link.line = .gap ∧ (p.judgedMiss f).link.since = p.time.crystal ∧
    (p.judgedMiss f).link.flight = p.link.flight ∧ (p.judgedMiss f).link.stations.get f.entry.island =
      if f.orphan then p.link.stations.get f.entry.island else (p.link.stations.get f.entry.island).missed := by
  unfold Part.judgedMiss
  split
  · exact ⟨rfl, rfl, rfl, rfl⟩
  · rw [countMiss_link_eq]
    exact ⟨rfl, rfl, rfl, Two.get_set_same _ _ _⟩

theorem endEntry_ends {p : Part} (line : p.link.line = .gap) :
    JoinsOnly { p with link := { p.link with flight := none } } (endEntry p) :=
  pumpLink_of_busy (p := { p with link := { p.link with flight := none } }) (by rw [line]; nofun)

/-- How the timeout leaves the link, and what of the rest it leaves as counting the miss did. -/
structure TimesOut (f : Flight) (p q : Part) : Prop where
  line : q.link.line = .gap
  since : q.link.since = p.time.crystal
  flight : q.link.flight = if f.again then some f else none
  misses : (q.link.stations.get f.entry.island).misses = ((p.judgedMiss f).link.stations.get f.entry.island).misses
  online : (q.link.stations.get f.entry.island).online = ((p.judgedMiss f).link.stations.get f.entry.island).online
  rest : ChangesOnly [.link] (p.judgedMiss f) q

theorem takeTimeout_times {f : Flight} {p : Part} (flight : p.link.flight = some f) : TimesOut f p (takeTimeout p) := by
  obtain ⟨line, since, same, _⟩ := p.judgedMiss_link f
  rw [takeTimeout_of_flight flight]
  cases f.again.eq_false_or_eq_true with
  | inl again =>
    rw [again, if_pos rfl]
    exact ⟨line, since, by rw [again, same, flight]; rfl, rfl, rfl, .refl _ _⟩
  | inr again =>
    rw [again, if_neg Bool.false_ne_true]
    have ends := endEntry_ends line
    exact ⟨ends.line.trans line, ends.since.trans since, by rw [ends.flight, again]; rfl,
      pumpLink_station Station.misses (fun _ => rfl) _ _, pumpLink_station Station.online (fun _ => rfl) _ _,
      (setLink_frame _ _).trans ends.frame⟩

theorem Flight.again_iff {f : Flight} : f.again = true ↔ f.entry.isMove = true ∧ f.orphan = false ∧ f.tries < 3 := by
  unfold Flight.again
  simp only [Bool.and_eq_true, Bool.not_eq_true', decide_eq_true_eq, and_assoc]
  rfl

/-! ### Polls that are due (R118, R126) -/

theorem takePollExpiry_countdown (i : IslandId) (p : Part) :
    ((takePollExpiry i p).link.stations.get i).countdown = p.link.settings.interval := by
  unfold takePollExpiry
  rw [pumpLink_countdown]
  exact congrArg Station.countdown (Two.get_set_same _ _ _)

/-- The POLL of island `i` is due, or waits, or is in flight. -/
def LinkUnit.asks (i : IslandId) (k : LinkUnit) : Prop := (k.stations.get i).due = true ∨ (⟨i, .poll⟩ : Entry) ∈ k.hand

theorem joinPoll_asks (i j : IslandId) {p : Part} (a : p.link.asks j) : (joinPoll i p).link.asks j := by
  rcases a with due | waits
  · by_cases same : j = i
    · subst same
      unfold joinPoll
      split
      · exact .inr (LinkUnit.mem_hand.mpr (.inl (List.mem_append_right _ (List.mem_singleton_self _))))
      · exact .inl due
    · refine .inl ?_
      unfold joinPoll
      split
      · exact (congrArg Station.due (Two.get_set_ne _ _ same)).trans due
      · exact due
  · exact .inr (joinPoll_hand i waits)

theorem joinPolls_asks (j : IslandId) {p : Part} (a : p.link.asks j) : (joinPolls p).link.asks j := by
  unfold joinPolls
  dsimp only
  split
  · exact joinPoll_asks _ j a
  · exact joinPoll_asks _ j (joinPoll_asks _ j a)

theorem selectEntry_stations (p : Part) : (selectEntry p).link.stations = p.link.stations := by
  unfold selectEntry
  split
  · rw [beginTransaction_link]
  · rfl

theorem pumpLink_asks (j : IslandId) {p : Part} (a : p.link.asks j) : (pumpLink p).link.asks j := by
  unfold pumpLink
  refine joinPolls_asks j ?_
  rcases joinPolls_asks j a with due | waits
  · exact .inl ((congrArg (fun s : Two Station => (s.get j).due) (selectEntry_stations _)).trans due)
  · exact .inr (selectEntry_hand waits)

/-- A countdown at 0 on a link at rest. -/
structure Resting (p : Part) : Prop where
  line : p.link.line = .idle
  queue : p.link.queue = []
  flight : p.link.flight = none

/-- The station of island `i` as its countdown has expired, the link yet to take it up. -/
def Part.pollFallen (i : IslandId) (p : Part) : Part := p.modStation i (Station.expire p.link.settings.interval)

theorem Part.pollFallen_station (i : IslandId) (p : Part) :
    (p.pollFallen i).link.stations.get i = (p.link.stations.get i).expire p.link.settings.interval := Two.get_set_same _ _ _

theorem Part.pollFallen_other (i : IslandId) (p : Part) : (p.pollFallen i).link.stations.get i.other = p.link.stations.get i.other := by
  cases i <;> rfl

theorem pollFallen_joins {i : IslandId} {p : Part} (rest : Resting p) : joinPoll i (p.pollFallen i) = (p.pollFallen i).polling i := by
  have queue : (p.pollFallen i).link.queue = [] := rest.queue
  exact joinPoll_of_due (by rw [Part.pollFallen_station]; rfl) (by rw [queue]; rfl) rest.flight (by rw [queue]; decide)

/-- The first POLL to join an empty queue is all of it. -/
theorem pollFallen_queue {i : IslandId} {p : Part} (rest : Resting p) : ((p.pollFallen i).polling i).link.queue = [⟨i, .poll⟩] :=
  congrArg (· ++ [(⟨i, .poll⟩ : Entry)]) rest.queue

theorem Part.Begins.of_expired {i : IslandId} {f : Flight} {p q : Part} (a : Begins f (p.pollFallen i) q) : Begins f p q :=
  ⟨a.line, a.since, a.flight, a.transmit, a.sending, a.again, a.late⟩

theorem takePollExpiry_begins {i : IslandId} {p : Part} (rest : Resting p)
    (first : i = .i1 ∨ (p.link.stations.get i.other).due = false ∧ (p.link.stations.get i.other).countdown ≠ 0) :
    Begins (Entry.flown ⟨i, .poll⟩) p (takePollExpiry i p) := by
  refine Part.Begins.of_expired (pumpLink_begins (p := p.pollFallen i) rest.line rest.flight ?_)
  have joined : (joinPoll i (p.pollFallen i)).link.queue.head? = some ⟨i, .poll⟩ := by
    rw [pollFallen_joins rest, pollFallen_queue rest]
    rfl
  cases i with
  | i1 =>
    unfold joinPolls
    dsimp only
    split
    · exact joined
    · exact (joinPoll_joins .i2 _).front _ joined
  | i2 =>
    obtain ⟨due, runs⟩ := first.resolve_left nofun
    have passes : joinPoll .i1 (p.pollFallen .i2) = p.pollFallen .i2 := joinPoll_of_not_due due
    unfold joinPolls
    dsimp only
    rw [passes, if_neg (by unfold pollExpired; exact fun a => runs (decide_eq_true_eq.mp a))]
    exact joined

/-- Of two POLLs due at once Island 1's begins and Island 2's waits. -/
theorem takePollExpiry_both {p : Part} (rest : Resting p) (due : (p.link.stations.get .i2).due = true)
    (runs : p.link.settings.interval ≠ 0) : (takePollExpiry .i1 p).link.queue = [⟨.i2, .poll⟩] := by
  have first := pollFallen_joins (i := .i1) rest
  have queue := pollFallen_queue (i := .i1) rest
  have second : joinPolls (p.pollFallen .i1) = ((p.pollFallen .i1).polling .i1).polling .i2 := by
    unfold joinPolls
    dsimp only
    rw [first, if_neg (by unfold pollExpired; exact fun a => runs (decide_eq_true_eq.mp a))]
    exact joinPoll_of_due due (by rw [queue]; rfl) rest.flight (by rw [queue]; decide)
  have both : (((p.pollFallen .i1).polling .i1).polling .i2).link.queue = [⟨.i1, .poll⟩, ⟨.i2, .poll⟩] := by
    rw [Part.polling_queue, queue]
    rfl
  have line : (((p.pollFallen .i1).polling .i1).polling .i2).link.line = .idle := rest.line
  have flight : (((p.pollFallen .i1).polling .i1).polling .i2).link.flight = none := rest.flight
  show (joinPolls (selectEntry (joinPolls (p.pollFallen .i1)))).link.queue = _
  rw [second, selectEntry_first line flight both, joinPolls_of_none fun i => by
    rw [beginTransaction_link]
    cases i <;> rfl]
  rw [beginTransaction_link]

/-- Island 2's POLL waits for Island 1's expiry of the same field (log entry 51). -/
theorem takePollExpiry_waits {p : Part} (rest : Resting p) (due : (p.link.stations.get .i1).due = false)
    (met : (p.link.stations.get .i1).countdown = 0) : takePollExpiry .i2 p = p.pollFallen .i2 := by
  have passes : joinPolls (p.pollFallen .i2) = p.pollFallen .i2 := by
    have first : joinPoll .i1 (p.pollFallen .i2) = p.pollFallen .i2 := joinPoll_of_not_due due
    unfold joinPolls
    dsimp only
    rw [first, if_pos (by unfold pollExpired; exact decide_eq_true met)]
  show joinPolls (selectEntry (joinPolls (p.pollFallen .i2))) = _
  rw [passes, selectEntry_of_empty (p := p.pollFallen .i2) rest.queue, passes]

/-! ### The gap (R119, R124, R130) -/

/-- The line as the gap is over and no entry goes on: IDLE with none in flight. -/
def Part.vacant (p : Part) : Part := { p with link := { p.link with line := .idle, flight := none } }

theorem takeGapEnd_of_flight {f : Flight} {p : Part} (flight : p.link.flight = some f) (stays : f.orphan = false) :
    takeGapEnd p = beginTransaction f p := by
  unfold takeGapEnd
  rw [flight]
  dsimp only
  rw [stays, if_neg Bool.false_ne_true]

theorem takeGapEnd_of_vacant {p : Part} (ends : p.link.flight = none ∨ p.link.flight.any (·.orphan) = true) :
    takeGapEnd p = pumpLink p.vacant := by
  unfold takeGapEnd Part.vacant
  rcases flight : p.link.flight with _ | f
  · dsimp only
    rw [← flight]
  · rw [flight] at ends
    have orphan : f.orphan = true := ends.resolve_left nofun
    dsimp only
    rw [orphan, if_pos rfl]

theorem takeGapEnd_frame (p : Part) : ChangesOnly Block.linking p (takeGapEnd p) := by
  unfold takeGapEnd
  split
  · exact .ite ((link_linking _ p).trans (pumpLink_frame _)) (beginTransaction_frame _ p)
  · exact (link_linking _ p).trans (pumpLink_frame _)

theorem vacant_begins {p : Part} {e : Entry} (front : p.link.queue.head? = some e) : Begins e.flown p (pumpLink p.vacant) := by
  have begins := pumpLink_begins (p := p.vacant) rfl rfl ((joinPolls_joins p.vacant).front e front)
  exact ⟨begins.line, begins.since, begins.flight, begins.transmit, begins.sending, begins.again, begins.late⟩

theorem vacant_rests {p : Part} (queue : p.link.queue = []) (due : ∀ i, (p.link.stations.get i).due = false) :
    pumpLink p.vacant = p.vacant := by
  have passes : joinPolls p.vacant = p.vacant := joinPolls_of_none due
  unfold pumpLink
  rw [passes, selectEntry_of_empty (p := p.vacant) queue, passes]

theorem takeTimeout_frame {f : Flight} {p : Part} (flight : p.link.flight = some f) :
    ChangesOnly ([.link, .island f.entry.island] ++ Block.alarming) p (takeTimeout p) := by
  refine .trans ?_ ((takeTimeout_times flight).rest.mono (by simp))
  unfold Part.judgedMiss
  exact .ite ((setLink_frame _ p).mono (by simp)) (((setLink_frame _ p).mono (by simp)).trans (countMiss_frame _ _ _))

/-- Settles O41. -/
theorem linkTimers : Obligations.LinkTimers := by
  intro s dt running k t request sends late n
  have begins {f : Flight} {p q : Part} (same : p.islands = s.part.islands) (a : Begins f p q) : sends f.entry.island f.entry.request q :=
    ⟨a.transmit, (congrArg (fun v : Two Island => messageChars (requestBytes (v.get f.entry.island).settings.address f.entry.request))
      same ▸ a.sending).trans (messageChars_request _ _)⟩
  have elapsed : elapse dt s.part = { s.part with time := t } := elapse_eq dt s.part
  have timed {due : Part → Bool} {act : Part → Part} {c : Instr} {P : Part → Prop} (e : exec c s = onPart (timed dt due act) s)
      (d : due { s.part with time := t } = true) (a : P (act { s.part with time := t })) : Completes c s P :=
    .of_timed e running (by rw [elapsed]; exact d) (by rw [elapsed]; exact a)
  have time : ChangesOnly [.time] s.part { s.part with time := t } := elapsed ▸ elapse_frame dt s.part
  refine ⟨LinkUnit.level_of_off t, fun c is on => ?_, fun line sent => ?_, fun f flight line out => ?_, fun line passed => ?_,
    fun i fallen => ?_⟩
  · rw [LinkUnit.level_of_char on is]
    exact LinkChar.bits_getElem? c (Nat.mod_lt _ (by decide))
  · exact timed rfl (Bool.and_eq_true_iff.mpr ⟨decide_eq_true line, decide_eq_true sent⟩) ⟨rfl, (time.mono (by simp)).trans
      ((setLink_frame _ _).mono (by simp))⟩
  · refine timed (due := fun p => p.link.timedOut p.time) rfl (Bool.and_eq_true_iff.mpr ⟨decide_eq_true line, decide_eq_true out⟩) ?_
    have times := takeTimeout_times (p := { s.part with time := t }) flight
    have frame := takeTimeout_frame (p := { s.part with time := t }) flight
    obtain ⟨_, _, _, station⟩ := Part.judgedMiss_link f { s.part with time := t }
    refine ⟨times.line, times.since, fun move orphan tries => ?_, fun ends => ?_, fun orphan => ?_, fun orphan => ⟨?_, fun few => ⟨?_, ?_⟩,
      fun many => ?_⟩, (time.mono (by simp)).trans (frame.mono (by simp))⟩
    · rw [times.flight, if_pos (Flight.again_iff.mpr ⟨move, orphan, tries⟩)]
    · rw [times.flight, if_neg]
      intro again
      obtain ⟨move, orphan, tries⟩ := Flight.again_iff.mp again
      exact ends.elim (fun a => Bool.false_ne_true (a.symm.trans move)) fun a =>
        a.elim (fun b => Bool.false_ne_true (orphan.symm.trans b)) fun b => Nat.not_lt.mpr b tries
    · rw [times.misses, times.online, station, if_pos orphan]
      exact ⟨rfl, rfl⟩
    · rw [times.misses, station, orphan, if_neg Bool.false_ne_true]
      rfl
    · rw [times.online, station, orphan, if_neg Bool.false_ne_true]
      exact if_neg (Nat.not_le.mpr few)
    · have silent : ChangesOnly [.link] { s.part with time := t } (Part.judgedMiss f { s.part with time := t }) := by
        unfold Part.judgedMiss
        rw [orphan, if_neg Bool.false_ne_true, countMiss_silent (p := enterGap { s.part with time := t }) f.sentTo few]
        exact (setLink_frame _ _).trans (modStation_frame _ _ _)
      exact (time.mono (by simp)).trans ((silent.trans times.rest).mono (by simp))
    · have goes : GoesOffline f.entry.island f.sentTo (enterGap { s.part with time := t }) (Part.judgedMiss f { s.part with time := t }) := by
        unfold Part.judgedMiss
        rw [orphan, if_neg Bool.false_ne_true]
        exact countMiss_goesOffline f.sentTo many
      have island := times.rest (.island f.entry.island) (by simp)
      have alarms := times.rest .alarms (by simp)
      have events := times.rest .events (by simp)
      have ref := times.rest .ref (by simp)
      refine ⟨?_, alarms ▸ goes.shown, fun on => island ▸ goes.mirror on, fun off => island ▸ goes.island off, fun on listens => ?_⟩
      · rw [times.online, station, orphan, if_neg Bool.false_ne_true]
        exact if_pos many
      · have told := goes.told on listens
        unfold Part.tells at told ⊢
        rw [← ref, ← events]
        exact told
  · refine timed (due := fun p => p.link.gapOver p.time) rfl (Bool.and_eq_true_iff.mpr ⟨decide_eq_true line, decide_eq_true passed⟩) ?_
    refine ⟨fun f flight stays => ?_, fun e front ends => ?_, fun queue ends due => ?_,
      (time.mono (by simp)).trans ((takeGapEnd_frame _).mono (by simp))⟩
    · rw [takeGapEnd_of_flight (p := { s.part with time := t }) flight stays]
      have a := beginTransaction_begins f { s.part with time := t }
      exact ⟨a.line, a.since, a.flight, begins (p := { s.part with time := t }) rfl a, a.again⟩
    · rw [takeGapEnd_of_vacant (p := { s.part with time := t }) ends]
      have a := vacant_begins (p := { s.part with time := t }) front
      exact ⟨a.line, a.since, a.flight, begins (f := e.flown) (p := { s.part with time := t }) rfl a, a.late rfl⟩
    · rw [takeGapEnd_of_vacant (p := { s.part with time := t }) ends, vacant_rests (p := { s.part with time := t }) queue due]
      rfl
  · refine .of_field rfl running (decide_eq_true fallen) ⟨takePollExpiry_countdown i s.part, ?_, fun line queue flight => ?_,
      takePollExpiry_frame i s.part⟩
    · have asks := pumpLink_asks i (p := s.part.pollFallen i) (.inl (by rw [Part.pollFallen_station]; rfl))
      exact asks.imp id fun waits => ⟨_, waits, rfl⟩
    · have rest : Resting s.part := ⟨line, queue, flight⟩
      have first (a : Begins (Entry.flown ⟨i, .poll⟩) s.part (takePollExpiry i s.part)) :=
        show _ ∧ _ ∧ _ from ⟨a.line, congrArg (Option.map Flight.entry) a.flight, begins (f := Entry.flown ⟨i, .poll⟩) rfl a⟩
      refine ⟨fun due alone => ?_, ?_, ?_⟩
      · exact first (takePollExpiry_begins rest (alone.imp id fun runs => ⟨due, runs⟩))
      · rintro rfl due runs
        exact ⟨first (takePollExpiry_begins rest (.inl rfl)), takePollExpiry_both rest due runs⟩
      · rintro rfl due met
        rw [takePollExpiry_waits rest due met]
        exact ⟨line, queue, rfl⟩

end Sys2Proof.Machine
end

section
/-! PROOFS. CLEAR at the alarms, the scanner and the heads (R37, R140, R151): once the Alarm Table is empty and no channel has a condition, a head is stopped with one HEAD_STATE and no alarm. -/

namespace Sys2Proof.Machine

/-! ### What has been emptied -/

/-- The Alarm Table is empty with the horn off, and no channel has a condition or a count. -/
structure Cleaned (p : Part) : Prop where
  alarms : p.alarms = ⟨[], false, false, false⟩
  blank : ∀ k, (p.analog.channel k).condition = none ∧ (p.analog.channel k).outCount = 0 ∧ (p.analog.channel k).inCount = 0

theorem Cleaned.of_same {p q : Part} (a : Cleaned p) (alarms : q.alarms = p.alarms) (analog : q.analog = p.analog) : Cleaned q :=
  ⟨alarms.trans a.alarms, fun k => analog ▸ a.blank k⟩

theorem Cleaned.frame {t : List Block} {p q : Part} (a : Cleaned p) (c : ChangesOnly t p q) (n : .alarms ∉ t ∧ .analog ∉ t) : Cleaned q :=
  a.of_same (c .alarms n.1).symm (c .analog n.2).symm

theorem Channel.blank_eq {c : Channel} (condition : c.condition = none) (outs : c.outCount = 0) (ins : c.inCount = 0) :
    ({ c with outCount := 0, inCount := 0, condition := none } : Channel) = c := by
  cases c
  subst condition outs ins
  rfl

theorem Channel.outless_eq {c : Channel} (outs : c.outCount = 0) : ({ c with outCount := 0 } : Channel) = c := by
  cases c
  subst outs
  rfl

section
variable {p : Part} (a : Cleaned p)
include a

theorem Cleaned.judge : judgeHorn p = p := by
  unfold judgeHorn
  rw [a.alarms, show AlarmTable.sounds ⟨[], false, false, false⟩ = false from rfl, ← a.alarms]

theorem Cleaned.clearAlarm (s : AlarmSource) (k : AlarmKind) (b c : Word) : Machine.clearAlarm s k b c p = p := by
  unfold Machine.clearAlarm
  rw [show p.alarms.find? s k = none by rw [a.alarms]; rfl]
  exact a.judge

theorem Cleaned.suspended : p.analog.suspended = false := by
  unfold Analog.suspended
  rw [show p.analog.reference.condition = none from (a.blank .reference).1]
  rfl

theorem Cleaned.lampChanged (h : HeadId) : Machine.lampChanged h p = p := by
  obtain ⟨condition, outs, ins⟩ := a.blank (.lamp h)
  have kept : ({ p.analog.lamp.get h with outCount := 0, inCount := 0, condition := none } : Channel) = p.analog.lamp.get h :=
    Channel.blank_eq condition outs ins
  unfold Machine.lampChanged
  rw [a.suspended, if_neg Bool.false_ne_true]
  dsimp only
  rw [show (p.analog.lamp.get h).condition = none from condition, show lampEnds (p.head h).outputs.lamp none = none from rfl]
  dsimp only [Option.isSome_none]
  rw [ite_self, kept, Four.set_get]

theorem Cleaned.tensionIdle (h : HeadId) : Machine.tensionIdle h p = p := by
  obtain ⟨condition, outs, ins⟩ := a.blank (.tension h)
  have kept : ({ p.analog.tension.get h with outCount := 0 } : Channel) = p.analog.tension.get h := Channel.outless_eq outs
  unfold Machine.tensionIdle
  dsimp only
  rw [a.suspended, show (p.analog.tension.get h).condition.isSome = false from congrArg Option.isSome condition, if_neg (by decide)]
  exact congrArg (fun c => { p with analog := { p.analog with tension := c } })
    ((congrArg (p.analog.tension.set h) kept).trans (Four.set_get _ _))

theorem Cleaned.stopMeasuring (h : HeadId) : Machine.stopMeasuring h p = p.modCadence h Cadence.stopped := by
  have b : Cleaned (p.modCadence h Cadence.stopped) := a.frame (modCadence_frame h _ p) (by simp)
  unfold Machine.stopMeasuring
  rw [b.clearAlarm, b.clearAlarm]

theorem Cleaned.endLimit (h : HeadId) : Machine.endLimit h p = p.modHead h fun x => { x with countLimit := none } :=
  (a.frame (modHead_frame h _ p) (by simp)).clearAlarm _ _ _ _

theorem Cleaned.switchLamp (h : HeadId) (on : Bool) : ∃ f, Machine.switchLamp h on p = p.modHead h f := by
  unfold Machine.switchLamp
  dsimp only
  split
  · exact ⟨id, (by unfold Part.modHead; exact congrArg (fun v => { p with heads := v }) (Four.set_get p.heads h).symm)⟩
  · exact ⟨_, (a.frame (modHead_frame h _ p) (by simp)).lampChanged h⟩

end

/-! ### Room for MOVE_LATE -/

/-- As `Awaits`, with room kept for the MOVE_LATE of the one transaction that may begin: a link that is IDLE has it before it,
any other line takes none up. -/
structure Spares (k : Nat) (es : List Event) (p : Part) : Prop where
  writing : p.evt.writing = true
  room : p.evt.queue.length + (if p.link.line = .idle then 1 else 0) ≤ k
  told : es.Sublist p.evt.queue

section
variable {k : Nat} {es : List Event} {p q : Part} (a : Spares k es p)
include a

theorem Spares.holds : Holds es p := ⟨a.writing, a.told⟩

theorem Spares.of_same (evt : q.evt = p.evt) (line : q.link.line = p.link.line) : Spares k es q :=
  ⟨evt ▸ a.writing, evt ▸ line ▸ a.room, evt ▸ a.told⟩

theorem Spares.frame {t : List Block} (c : ChangesOnly t p q) (n : .events ∉ t ∧ .link ∉ t) : Spares k es q :=
  a.of_same (c .events n.1).symm (congrArg LinkUnit.line (c .link n.2).symm)

theorem Spares.mono {n : Nat} (le : k ≤ n) : Spares n es p := ⟨a.writing, a.room.trans le, a.told⟩

theorem Spares.post (s : AlarmSource) (e : EventItem) (free : k < Config.maxEvents) :
    Spares (k + 1) (es ++ [⟨s, p.ref.count, e⟩]) (Machine.post s e p) := by
  have queue := post_queue a.writing s e
  have room := a.room
  rw [if_pos (by omega)] at queue
  refine ⟨post_writing a.writing s e, ?_, ?_⟩
  · rw [queue, post_link, List.length_append, List.length_singleton]
    omega
  · rw [queue]
    exact a.told.append (.refl _)

theorem Spares.joined (b : JoinsOnly p q) : Spares k es q := a.of_same b.evt b.line

theorem Spares.select : Spares k es (selectEntry p) := by
  by_cases idle : p.link.line = .idle
  · have room := a.room
    rw [if_pos idle] at room
    have silent : Awaits (k - 1) es p := ⟨a.writing, by omega, a.told⟩
    unfold selectEntry
    split
    · rename_i e rest _ _ _
      have began := beginTransaction_awaits (silent.link { p.link with queue := rest }) e.flown
      have line := (beginTransaction_begins e.flown { p with link := { p.link with queue := rest } }).line
      refine ⟨began.writing, ?_, began.told⟩
      have room := began.room
      show (beginTransaction e.flown _).evt.queue.length + (if (beginTransaction e.flown _).link.line = .idle then 1 else 0) ≤ k
      rw [line, if_neg nofun]
      omega
    · exact a
  · rw [selectEntry_of_busy idle]
    exact a

theorem Spares.pump : Spares k es (pumpLink p) := ((a.joined (joinPolls_joins p)).select).joined (joinPolls_joins _)

theorem Spares.submit (i : IslandId) (port : Port) (asked : Stamp) : Spares k es (submitMove i port asked p) := by
  unfold submitMove
  refine Spares.pump ?_
  refine Spares.of_same (p := dropPoll _) ?_ rfl rfl
  unfold dropPoll
  split
  · exact a.of_same rfl rfl
  · split
    · exact a.of_same rfl rfl
    · exact a.of_same rfl rfl

theorem Spares.standbyNow (i : IslandId) : Spares k es (Machine.standbyNow i p) := by
  obtain ⟨f, eq⟩ := commit_eq i .standby (p.leadField i) .island p
  show Spares k es (commit _ _ _ _ _)
  rw [eq]
  exact (a.frame (modIsland_frame i f p) (by simp)).submit i _ _

end

/-! ### A head at CLEAR (R37) -/

/-- A head as it enters STOPPED, its monitor no longer measuring. -/
def Head.stopped (now : Nat) (y : Head) : Head :=
  let z := y.enter .stopped now
  if y.drive.running then { z with cadence := z.cadence.stopped } else z

/-- A head as CLEAR stops it: a head STOPPED already loses its lamp under AUTO. -/
def Head.stoppedByClear (now : Nat) (y : Head) : Head :=
  if y.drive = .stopped then (if y.lampPolicy = .auto then y.lit false now else y) else y.stopped now

/-- A head without the COUNT_LIMIT of a limit at which it does not stand. -/
def Head.leftLimit (y : Head) : Head := if y.countLimit.isSome = true ∧ y.limited = false then y.unlimited else y

/-- A head as CLEAR leaves it. -/
def Head.clearedTo (c : HeadSettings) (a : Option Assignment) (now : Nat) (x : Head) : Head :=
  ((x.cleared c a).stoppedByClear now).leftLimit.followed

/-- The HEAD_STATE of a head that CLEAR stops. -/
def Head.clearEvents (h : HeadId) (count : Stamp) (x : Head) : List Event :=
  if x.drive = .stopped then [] else [headStateEvent h count x .stopped .clear]

/-- `q` is `p` with head `h` at `y` and the events `es` posted. -/
structure Sets (h : HeadId) (y : Head) (es : List Event) (p q : Part) : Prop where
  head : q.head h = y
  rest : ChangesOnly (.head h :: Block.posting) p q
  told : ∀ k l, Spares k l p → k + es.length ≤ Config.maxEvents → Spares (k + es.length) (l ++ es) q

section
variable {h : HeadId} {y : Head} {es : List Event} {p q : Part}

theorem Sets.refl (h : HeadId) (p : Part) : Sets h (p.head h) [] p p :=
  ⟨rfl, .refl _ p, fun k l a _ => by rw [List.append_nil]; exact a⟩

theorem Sets.cleaned (a : Sets h y es p q) (c : Cleaned p) : Cleaned q := c.frame a.rest (by simp [Block.posting])

theorem Sets.modHead (a : Sets h y es p q) (f : Head → Head) : Sets h (f y) es p (q.modHead h f) where
  head := by rw [modHead_head, a.head]
  rest := a.rest.trans ((modHead_frame h f q).mono (by simp))
  told k l s room := (a.told k l s room).frame (modHead_frame h f q) (by simp)

theorem Sets.post (a : Sets h y es p q) (e : EventItem) : Sets h y (es ++ [⟨.head h, p.ref.count, e⟩]) p (Machine.post (.head h) e q) where
  head := (post_head _ _ _ _).trans a.head
  rest := a.rest.trans ((post_frame _ _ q).mono (by simp))
  told k l s room := by
    rw [List.length_append, List.length_singleton] at room ⊢
    have posted := (a.told k l s (by omega)).post (.head h) e (by omega)
    rw [← a.rest .ref (by simp [Block.posting]), List.append_assoc] at posted
    exact posted

theorem Sets.lamp (a : Sets h y es p q) (c : Cleaned p) (on : Bool) : Sets h (y.lit on p.time.now) es p (Machine.switchLamp h on q) := by
  obtain ⟨f, eq⟩ := (a.cleaned c).switchLamp h on
  have head := switchLamp_head h on q
  have time := a.rest .time (by simp [Block.posting])
  rw [a.head, ← time] at head
  exact ⟨head, eq ▸ (a.modHead f).rest, eq ▸ (a.modHead f).told⟩

end

/-- Once all is cleaned a head enters a drive state with its HEAD_STATE and no alarm. -/
theorem Cleaned.enterDrive {p : Part} (a : Cleaned p) (h : HeadId) (d : DriveState) (c : Cause) : Machine.enterDrive h d c none p =
    let q := Machine.post (.head h) (.headState d (p.head h).drive c (p.head h).pos.frame) (p.modHead h fun x => x.enter d p.time.now)
    if (p.head h).drive.running && !d.running then q.modCadence h Cadence.stopped else q := by
  have posted : Cleaned (Machine.post (.head h) (.headState d (p.head h).drive c (p.head h).pos.frame)
      (p.modHead h fun x => x.enter d p.time.now)) :=
    (a.frame (modHead_frame h _ p) (by simp)).frame (post_frame _ _ _) (by simp [Block.posting])
  unfold Machine.enterDrive
  dsimp only
  rw [posted.lampChanged, ite_self, posted.tensionIdle, ite_self, posted.stopMeasuring]

section
variable {h : HeadId} {y : Head} {es : List Event} {p q : Part}

theorem Sets.stop (a : Sets h y es p q) (c : Cleaned p) (cause : Cause) : Sets h (y.stopped p.time.now)
    (es ++ [headStateEvent h p.ref.count y .stopped cause]) p (Machine.enterDrive h .stopped cause none q) := by
  have posted := (a.modHead fun x => x.enter .stopped p.time.now).post (.headState .stopped y.drive cause y.pos.frame)
  rw [(a.cleaned c).enterDrive, a.head, ← (a.rest .time (by simp [Block.posting]) : p.time = q.time)]
  unfold Head.stopped
  dsimp only
  rw [show (DriveState.stopped.running) = false from rfl, Bool.not_false, Bool.and_true]
  split
  · exact posted.modHead fun x => { x with cadence := x.cadence.stopped }
  · exact posted

theorem Sets.stoppedByClear (a : Sets h y es p q) (c : Cleaned p) : Sets h (y.stoppedByClear p.time.now)
    (es ++ y.clearEvents h p.ref.count) p
    (if (q.head h).drive = .stopped then (if (q.head h).lampPolicy = .auto then Machine.switchLamp h false q else q)
      else Machine.enterDrive h .stopped .clear none q) := by
  rw [a.head]
  unfold Head.stoppedByClear Head.clearEvents
  split
  · rw [List.append_nil]
    split
    · exact a.lamp c false
    · exact a
  · exact a.stop c .clear

theorem Sets.leaveLimit (a : Sets h y es p q) (c : Cleaned p) : Sets h y.leftLimit es p (Machine.leaveLimit h q) := by
  rw [leaveLimit_eq, a.head, (a.cleaned c).endLimit]
  unfold Head.leftLimit
  split
  · exact a.modHead Head.unlimited
  · exact a

end

theorem setIslands_frame (v : Two Island) (p : Part) : ChangesOnly [.island .i1, .island .i2] p { p with islands := v } := by
  intro b n
  cases b with
  | island i => cases i <;> simp at n
  | _ => first | rfl | exact ⟨rfl, rfl, rfl, rfl⟩ | exact ⟨rfl, rfl, rfl⟩ | exact ⟨rfl, rfl⟩

/-- A head cleared and its records absent: what `clearHead` does. -/
structure ClearsHead (h : HeadId) (p q : Part) : Prop where
  head : q.head h = (p.head h).clearedTo (p.defaults.heads.get h) (p.defaults.assignments.get h) p.time.now
  islands : ∀ i, q.island i = (p.island i).mapPreds h Pred.atLeave
  rest : ChangesOnly (.head h :: .island .i1 :: .island .i2 :: Block.posting) p q
  told : ∀ k l, Spares k l p → k + 1 ≤ Config.maxEvents → Spares (k + 1) (l ++ (p.head h).clearEvents h p.ref.count) q

theorem Head.clearEvents_length (h : HeadId) (count : Stamp) (x : Head) : (x.clearEvents h count).length ≤ 1 := by
  unfold Head.clearEvents
  split
  · exact Nat.zero_le _
  · exact Nat.le_refl _

theorem Sets.clears {h : HeadId} {p q : Part}
    (a : Sets h ((p.head h).clearedTo (p.defaults.heads.get h) (p.defaults.assignments.get h) p.time.now)
      ((p.head h).clearEvents h p.ref.count) p q) : ClearsHead h p (mapPreds h Pred.atLeave q) := by
  have islands := setIslands_frame (q.islands.map (Island.mapPreds h Pred.atLeave)) q
  refine ⟨a.head, fun i => ?_, (a.rest.mono (by simp [Block.posting])).trans (islands.mono (by simp)),
    fun k l spares room => ?_⟩
  · rw [mapPreds_island, ← a.rest (.island i) (by simp [Block.posting])]
  · have short := Head.clearEvents_length h p.ref.count (p.head h)
    exact ((a.told k l spares (by omega)).frame islands (by simp)).mono (by omega)

theorem clearHead_clears (h : HeadId) {p : Part} (c : Cleaned p) : ClearsHead h p (clearHead h p) := by
  have set := ((((Sets.refl h p).modHead
    (Head.cleared (p.defaults.heads.get h) (p.defaults.assignments.get h))).stoppedByClear c).leaveLimit c).modHead Head.followed
  have frame : ((p.head h).cleared (p.defaults.heads.get h) (p.defaults.assignments.get h)).pos.frame = (p.head h).pos.frame := by
    unfold Head.cleared
    dsimp only
    split <;> rfl
  have events : ((p.head h).cleared (p.defaults.heads.get h) (p.defaults.assignments.get h)).clearEvents h p.ref.count =
      (p.head h).clearEvents h p.ref.count := by
    unfold Head.clearEvents headStateEvent
    rw [frame]
    rfl
  rw [List.nil_append, events] at set
  exact set.clears

/-! ### What a cleared head is -/

section
variable (c : HeadSettings) (a : Option Assignment) (now : Nat) (x : Head)

/-- What stopping a head leaves as it was. -/
theorem Head.stoppedByClear_keeps (y : Head) : (y.stoppedByClear now).fault = y.fault ∧ (y.stoppedByClear now).settings = y.settings ∧
    (y.stoppedByClear now).lampPolicy = y.lampPolicy ∧ (y.stoppedByClear now).assigned = y.assigned ∧
    (y.stoppedByClear now).pos = y.pos ∧ (y.stoppedByClear now).cues = y.cues ∧
    (y.stoppedByClear now).cadence.firstLock = y.cadence.firstLock ∧
    (y.stoppedByClear now).cadence.lastRunup = y.cadence.lastRunup ∧ (y.stoppedByClear now).drive = .stopped := by
  unfold Head.stoppedByClear Head.stopped
  split
  · rename_i stopped
    split
    · exact ⟨rfl, rfl, rfl, rfl, rfl, rfl, rfl, rfl, stopped⟩
    · exact ⟨rfl, rfl, rfl, rfl, rfl, rfl, rfl, rfl, stopped⟩
  · dsimp only
    split <;> exact ⟨rfl, rfl, rfl, rfl, rfl, rfl, rfl, rfl, rfl⟩

/-- Stopping a sound head leaves its outputs off, its lamp by its policy, and its monitor at rest. -/
theorem Head.stoppedByClear_sound {x y : Head} (sound : x.Sound) (outputs : y.outputs = x.outputs) (drive : y.drive = x.drive)
    (measuring : y.cadence.measuring = x.cadence.measuring) : (y.stoppedByClear now).cadence.measuring = false ∧
    (y.stoppedByClear now).outputs = ⟨false, false, false, false, if y.lampPolicy = .auto then false else x.outputs.lamp⟩ := by
  have idle := measuring.trans sound.measuring
  unfold Head.stoppedByClear Head.stopped
  rw [drive]
  split
  · rename_i stopped
    have off := outputs.trans sound.outputs
    rw [stopped] at idle off
    split
    · exact ⟨idle, by unfold Head.lit; dsimp only; rw [off]; rfl⟩
    · exact ⟨idle, off⟩
  · have lamp : lampOn y.lampPolicy .stopped y.outputs.lamp = if y.lampPolicy = .auto then false else x.outputs.lamp := by
      rw [outputs]
      cases y.lampPolicy <;> rfl
    dsimp only
    split
    · exact ⟨rfl, congrArg (Outputs.mk false false false false) lamp⟩
    · rename_i rests
      exact ⟨idle.trans (Bool.not_eq_true _ ▸ rests), congrArg (Outputs.mk false false false false) lamp⟩

theorem Head.leftLimit_eq (y : Head) : ∃ l, y.leftLimit = { y with countLimit := l } := by
  unfold Head.leftLimit
  split
  · exact ⟨none, rfl⟩
  · exact ⟨y.countLimit, rfl⟩

/-- What CLEAR makes of a head (R37, R48, R52). -/
structure Head.IsCleared (c : HeadSettings) (a : Option Assignment) (x y : Head) : Prop where
  drive : y.drive = .stopped
  fault : y.fault = none
  settings : y.settings = c
  policy : y.lampPolicy = c.lampPolicy
  firstLock : y.cadence.firstLock = false
  lastRunup : y.cadence.lastRunup = none
  measuring : x.sound = true → y.cadence.measuring = false
  assigned : y.assigned = a
  frame : y.pos.frame = x.pos.frame
  phase : y.pos.phase = if x.settings.gauge = c.gauge then x.pos.phase else 0
  ids : y.cues.map (·.id) = x.cues.map (·.id)
  passed : ∀ k ∈ y.cues, k.passed = decide (k.frame ≤ y.pos.frame)
  outputs : x.sound = true → y.outputs = ⟨false, false, false, false, if c.lampPolicy = .auto then false else x.outputs.lamp⟩

theorem Head.clearedTo_isCleared : Head.IsCleared c a x (x.clearedTo c a now) := by
  obtain ⟨l, eq⟩ := ((x.cleared c a).stoppedByClear now).leftLimit_eq
  obtain ⟨fault, settings, policy, assigned, pos, cues, first, last, drive⟩ := (x.cleared c a).stoppedByClear_keeps now
  have rests (s : x.sound = true) := Head.stoppedByClear_sound (y := x.cleared c a) now (Head.sound_iff.mp s) rfl rfl rfl
  have place : (x.cleared c a).pos = if x.settings.gauge = c.gauge then x.pos else ⟨x.pos.frame, 0⟩ := rfl
  unfold Head.clearedTo
  rw [eq]
  refine ⟨drive, fault, settings, policy, first, last, fun s => (rests s).1, assigned, ?_, ?_, ?_, ?_, fun s => (rests s).2⟩
  · exact (congrArg Position.frame (pos.trans place)).trans (by split <;> rfl)
  · exact (congrArg Position.phase (pos.trans place)).trans (by split <;> rfl)
  · exact (Head.followed_ids _).trans (congrArg (List.map (·.id)) cues)
  · exact Head.followed_passed

end

/-! ### The four heads -/

/-- The heads of `l` cleared, in order. -/
structure ClearsHeads (l : List HeadId) (p q : Part) : Prop where
  head : ∀ h, q.head h = if h ∈ l then (p.head h).clearedTo (p.defaults.heads.get h) (p.defaults.assignments.get h) p.time.now
    else p.head h
  islands : ∀ i, q.island i = l.foldl (fun x h => x.mapPreds h Pred.atLeave) (p.island i)
  rest : ChangesOnly (HeadId.list.map .head ++ .island .i1 :: .island .i2 :: Block.posting) p q
  told : ∀ k es, Spares k es p → k + l.length ≤ Config.maxEvents →
    Spares (k + l.length) (es ++ l.flatMap fun h => (p.head h).clearEvents h p.ref.count) q

theorem clearHeads_clears {l : List HeadId} (once : l.Nodup) {p : Part} (c : Cleaned p) :
    ClearsHeads l p (l.foldl (fun q h => clearHead h q) p) := by
  induction l generalizing p with
  | nil =>
    exact ⟨fun h => (if_neg List.not_mem_nil).symm, fun _ => rfl, .refl _ p, fun k es a _ => by
      rw [List.flatMap_nil, List.append_nil]; exact a⟩
  | cons h l ih =>
    obtain ⟨fresh, once⟩ := List.nodup_cons.mp once
    have first := clearHead_clears h c
    have others : ∀ k, k ≠ h → (clearHead h p).head k = p.head k := fun k n =>
      (first.rest (.head k) (by simp [n, Block.posting])).symm
    have defaults := first.rest .defaults (by simp [Block.posting])
    have time := first.rest .time (by simp [Block.posting])
    have ref := first.rest .ref (by simp [Block.posting])
    have rest := ih once (p := clearHead h p) (c.frame first.rest (by simp [Block.posting]))
    refine ⟨fun k => ?_, fun i => ?_, ?_, fun n es a room => ?_⟩
    · rw [List.foldl_cons, rest.head, ← defaults, ← time]
      by_cases same : k = h
      · subst same
        rw [if_neg fresh, if_pos (List.mem_cons_self ..), first.head]
      · rw [others k same]
        simp only [List.mem_cons, same, false_or]
    · rw [List.foldl_cons, rest.islands, first.islands]
      rfl
    · exact (first.rest.mono (by cases h <;> simp [HeadId.list, Block.posting])).trans rest.rest
    · rw [List.length_cons] at room ⊢
      have told := rest.told _ _ (first.told n es a (by omega)) (by omega)
      have same : (l.flatMap fun k => ((clearHead h p).head k).clearEvents k (clearHead h p).ref.count) =
          l.flatMap fun k => (p.head k).clearEvents k p.ref.count := by
        rw [← ref]
        exact List.flatMap_congr fun k m => by rw [others k fun e => fresh (e ▸ m)]
      rw [same] at told
      rw [List.flatMap_cons, ← List.append_assoc]
      exact told.mono (by omega)

/-- A record that has passed all four heads is absent, unless it was reached (R84). -/
theorem foldl_followedBy_atLeave (k : PredKind) (r : Pred) :
    HeadId.list.foldl (fun r h => followedBy h Pred.atLeave k r) r = r.atLeave k := by
  obtain ⟨head, frame, value, basis⟩ := r
  cases head <;> cases basis <;> rfl

/-- The F_end record of an island without takes as its heads are cleared. -/
theorem foldl_mapPreds_fEnd {x : Island} (takes : x.takes = []) :
    HeadId.list.foldl (fun x h => x.mapPreds h Pred.atLeave) x = { x with fEnd := x.fEnd.map (Pred.atLeave .cutOrEnd) } := by
  obtain ⟨onAir, mirror, confirm, authority, preset, settings, list, fEnd⟩ := x
  subst takes
  cases fEnd with
  | none => rfl
  | some r =>
    exact congrArg (fun e => Island.mk onAir mirror confirm authority preset settings [] (some e))
      (foldl_followedBy_atLeave .cutOrEnd r)

end Sys2Proof.Machine
end

section
/-! PROOFS. CLEAR at the Mirror Link (R118, R130, R131): what the POLLs taken out, a changed address and the standby MOVEs leave of the stations, the line and the waiting entries. -/

namespace Sys2Proof.Machine

/-! ### Stations and the line -/

/-- A station record but for what the link's polling changes in it. -/
def Station.core (s : Station) : Station := { s with due := false, fast := false }

/-- The record of a station whose address has changed (R130). -/
def Station.readdressed (s : Station) : Station :=
  { s with online := .unknown, misses := 0, port := none, moving := false, fault := false, refusal := none, due := true }

/-- The entry in flight as the addresses of the islands `moved` have changed (R130). -/
def Flight.left (moved : IslandId → Bool) (f : Flight) : Flight := { f with orphan := f.orphan || moved f.entry.island }

/-- What CLEAR may do to the link where the addresses of the islands `moved` change. -/
structure LinkClears (moved : IslandId → Bool) (k l : LinkUnit) : Prop where
  core : ∀ i, (l.stations.get i).core = if moved i then (k.stations.get i).readdressed.core else (k.stations.get i).core
  asks : ∀ i, k.asks i ∨ moved i = true → l.asks i
  busy : k.line ≠ .idle → l.line = k.line ∧ l.transmit = k.transmit ∧ l.sending = k.sending ∧ l.since = k.since ∧
    l.timer = k.timer ∧ l.flight = k.flight.map (Flight.left moved)
  sound : k.sound = true → l.sound = true

theorem Flight.left_none (f : Flight) : f.left (fun _ => false) = f := by
  unfold Flight.left
  rw [Bool.or_false]

theorem Option.map_left_none (f : Option Flight) : f.map (Flight.left fun _ => false) = f := by
  rw [show Flight.left (fun _ => false) = id from funext Flight.left_none, Option.map_id]
  rfl

theorem LinkClears.refl (k : LinkUnit) : LinkClears (fun _ => false) k k :=
  ⟨fun _ => rfl, fun _ a => a.resolve_right Bool.false_ne_true, fun _ => ⟨rfl, rfl, rfl, rfl, rfl, (Option.map_left_none _).symm⟩, id⟩

theorem LinkClears.trans {m n : IslandId → Bool} {k l o : LinkUnit} (a : LinkClears m k l) (b : LinkClears n l o) :
    LinkClears (fun i => m i || n i) k o where
  core i := by
    have again : (l.stations.get i).readdressed.core = (k.stations.get i).readdressed.core := by
      have same := congrArg Station.readdressed (a.core i)
      have known : ∀ s : Station, s.core.readdressed.core = s.readdressed.core := fun _ => rfl
      rw [← known, same]
      split
      · rfl
      · rfl
    rw [b.core, a.core, again]
    cases m i <;> cases n i <;> rfl
  asks i x := b.asks i (by
    rcases x with x | x
    · exact .inl (a.asks i (.inl x))
    · exact ((Bool.or_eq_true _ _).mp x).imp (fun y => a.asks i (.inr y)) id)
  busy on := by
    obtain ⟨line, transmit, sending, since, timer, flight⟩ := a.busy on
    obtain ⟨line', transmit', sending', since', timer', flight'⟩ := b.busy (line ▸ on)
    refine ⟨line'.trans line, transmit'.trans transmit, sending'.trans sending, since'.trans since, timer'.trans timer, ?_⟩
    rw [flight', flight, Option.map_map]
    refine congrArg (fun g => Option.map g k.flight) (funext fun f => ?_)
    show ({ f with orphan := (f.orphan || m f.entry.island) || n f.entry.island } : Flight) = _
    rw [Bool.or_assoc]
    rfl
  sound s := b.sound (a.sound s)

/-- What changes the queue, the stations and POLLs that are due alone. -/
theorem LinkClears.still {k l : LinkUnit} (core : ∀ i, (l.stations.get i).core = (k.stations.get i).core) (asks : ∀ i, k.asks i → l.asks i)
    (line : k.line ≠ .idle → l = { k with queue := l.queue, stations := l.stations })
    (sound : k.sound = true → l.sound = true) : LinkClears (fun _ => false) k l :=
  ⟨core, fun i x => asks i (x.resolve_right Bool.false_ne_true), fun on => by
    rw [line on, Option.map_left_none]
    exact ⟨rfl, rfl, rfl, rfl, rfl, rfl⟩, sound⟩

theorem pumpLink_core (i : IslandId) (p : Part) : ((pumpLink p).link.stations.get i).core = (p.link.stations.get i).core :=
  pumpLink_station Station.core (fun _ => rfl) i p

theorem pumpLink_still {p : Part} (on : p.link.line ≠ .idle) : (pumpLink p).link =
    { p.link with queue := (pumpLink p).link.queue, stations := (pumpLink p).link.stations } :=
  congrArg Part.link (pumpLink_of_busy on).same

/-! ### The POLLs (R118, R131) -/

theorem Entry.poll_of_isPollOf {i : IslandId} {e : Entry} (is : e.isPollOf i = true) : e = ⟨i, .poll⟩ := by
  obtain ⟨island, request⟩ := e
  cases request with
  | poll =>
    unfold Entry.isPollOf at is
    simp only [Bool.and_eq_true, decide_eq_true_eq] at is
    rw [is.1]
  | move port asked =>
    unfold Entry.isPollOf Entry.isMove at is
    simp only [Bool.not_true, Bool.and_false, Bool.false_eq_true] at is

theorem clearPolls_station (i : IslandId) (p : Part) : (clearPolls p).link.stations.get i =
    if p.link.queue.any (Entry.isPollOf i) then { p.link.stations.get i with due := true } else p.link.stations.get i := by
  cases i <;> rfl

theorem clearPolls_clears (p : Part) : LinkClears (fun _ => false) p.link (clearPolls p).link := by
  refine .still (fun i => ?_) (fun i asks => ?_) (fun _ => rfl) clearPolls_sound
  · rw [clearPolls_station]
    split <;> rfl
  · unfold LinkUnit.asks
    rw [clearPolls_station]
    rcases asks with due | waits
    · left
      split
      · rfl
      · exact due
    · rcases LinkUnit.mem_hand.mp waits with queued | flies
      · left
        rw [if_pos (List.any_eq_true.mpr ⟨_, queued, by simp [Entry.isPollOf, Entry.isMove]⟩)]
      · exact .inr (LinkUnit.mem_hand.mpr (.inr flies))

/-- The part with the record of island `i` set afresh, the link yet to take it up. -/
def Part.readdressed (i : IslandId) (p : Part) : Part := { p with link := { p.link with
  stations := p.link.stations.set i (p.link.stations.get i).readdressed
  flight := p.link.flight.map (Flight.left fun j => decide (j = i)) } }

theorem readdress_eq (i : IslandId) (p : Part) :
    readdress i p = clearAlarm (.island i) .stationOffline 0 0 (pumpLink (p.readdressed i)) := by
  have flight : (p.link.flight.map fun f => if f.entry.island = i then { f with orphan := true } else f) =
      p.link.flight.map (Flight.left fun j => decide (j = i)) := by
    refine congrArg (fun g => Option.map g p.link.flight) (funext fun f => ?_)
    unfold Flight.left
    dsimp only
    by_cases same : f.entry.island = i
    · rw [if_pos same, decide_eq_true same, Bool.or_true]
    · rw [if_neg same, decide_eq_false same, Bool.or_false]
  unfold readdress Part.readdressed
  rw [← flight]
  rfl

theorem readdress_link (i : IslandId) (p : Part) : (readdress i p).link = (pumpLink (p.readdressed i)).link := by
  rw [readdress_eq, clearAlarm_link]

theorem readdress_clears (i : IslandId) (p : Part) : LinkClears (fun j => decide (j = i)) p.link (readdress i p).link := by
  refine ⟨fun j => ?_, fun j asks => ?_, fun on => ?_, readdress_sound i⟩
  · rw [readdress_link, pumpLink_core]
    by_cases same : j = i
    · subst same
      rw [decide_eq_true rfl, if_pos rfl]
      exact congrArg Station.core (Two.get_set_same _ _ _)
    · rw [decide_eq_false same, if_neg Bool.false_ne_true]
      exact congrArg Station.core (Two.get_set_ne _ _ same)
  · rw [readdress_link]
    refine pumpLink_asks j ?_
    by_cases same : j = i
    · subst same
      exact .inl (congrArg Station.due (Two.get_set_same _ _ _))
    · refine (asks.resolve_right fun x => same (decide_eq_true_eq.mp x)).imp (fun due => ?_) fun waits => ?_
      · exact (congrArg Station.due (Two.get_set_ne _ _ same)).trans due
      · refine LinkUnit.mem_hand.mpr ((LinkUnit.mem_hand.mp waits).imp id fun ⟨f, flies, is⟩ => ⟨_, congrArg (Option.map _) flies, is⟩)
  · rw [readdress_link, pumpLink_still (p := p.readdressed i) on]
    exact ⟨rfl, rfl, rfl, rfl, rfl, rfl⟩

theorem dropPoll_cases (p : Part) : dropPoll p = p ∨ ∃ e rest, p.link.queue = rest ++ [e] ∧
    dropPoll p = Part.modStation { p with link := { p.link with queue := rest } } e.island fun s => { s with due := true } := by
  unfold dropPoll
  split
  · exact .inl rfl
  · split
    · rename_i e last
      obtain ⟨rest, queue⟩ := List.getLast?_eq_some_iff.mp last
      exact .inr ⟨e, rest, queue, by rw [queue, List.dropLast_concat]⟩
    · exact .inl rfl

theorem joinMove_polls (i : IslandId) (port : Port) (asked : Stamp) {l : List Entry} {e : Entry} (m : e ∈ l) (poll : e.isMove = false) :
    e ∈ joinMove i port asked l := by
  unfold joinMove
  dsimp only
  split
  · exact m
  · split
    · exact mem_replaceMove (by simp [Entry.isMoveOf, poll]) m
    · exact List.mem_append_right _ (List.mem_filter.mpr ⟨m, by rw [poll]; rfl⟩)

/-- The part with a MOVE submitted, the link yet to take it up. -/
def Part.submitted (i : IslandId) (port : Port) (asked : Stamp) (p : Part) : Part :=
  (dropPoll { p with link := { p.link with queue := joinMove i port asked p.link.queue } }).modStation i fun s => { s with fast := true }

theorem submitted_station {α : Type} (g : Station → α) (due : ∀ s : Station, g { s with due := true } = g s)
    (fast : ∀ s : Station, g { s with fast := true } = g s) (i j : IslandId) (port : Port) (asked : Stamp) (p : Part) :
    g ((p.submitted i port asked).link.stations.get j) = g (p.link.stations.get j) := by
  have set : ∀ (k : IslandId) (f : Station → Station) (q : Part), (∀ s, g (f s) = g s) →
      g ((q.modStation k f).link.stations.get j) = g (q.link.stations.get j) := fun k f q keeps => by
    rw [Part.modStation_link]
    by_cases same : j = k
    · subst same
      rw [Two.get_set_same, keeps]
    · rw [Two.get_set_ne _ _ same]
  unfold Part.submitted
  rw [set i _ _ fast]
  rcases dropPoll_cases { p with link := { p.link with queue := joinMove i port asked p.link.queue } } with same | ⟨e, rest, -, drops⟩
  · rw [same]
  · rw [drops, set e.island _ _ due]

theorem submitted_still (i : IslandId) (port : Port) (asked : Stamp) (p : Part) : (p.submitted i port asked).link =
    { p.link with queue := (p.submitted i port asked).link.queue, stations := (p.submitted i port asked).link.stations } := by
  unfold Part.submitted
  rcases dropPoll_cases { p with link := { p.link with queue := joinMove i port asked p.link.queue } } with same | ⟨e, rest, -, drops⟩
  · rw [same]; rfl
  · rw [drops]; rfl

theorem submitted_asks {i j : IslandId} (port : Port) (asked : Stamp) {p : Part} (asks : p.link.asks j) :
    (p.submitted i port asked).link.asks j := by
  have fast : ∀ q : Part, q.link.asks j → (q.modStation i fun s => { s with fast := true }).link.asks j := fun q a => by
    refine a.imp (fun due => ?_) id
    rw [Part.modStation_link]
    by_cases same : j = i
    · subst same
      exact (congrArg Station.due (Two.get_set_same _ _ _)).trans due
    · exact (congrArg Station.due (Two.get_set_ne _ _ same)).trans due
  have joined : ({ p.link with queue := joinMove i port asked p.link.queue } : LinkUnit).asks j :=
    asks.imp id fun waits => LinkUnit.mem_hand.mpr ((LinkUnit.mem_hand.mp waits).imp (fun m => joinMove_polls i port asked m rfl) id)
  refine fast _ ?_
  rcases dropPoll_cases { p with link := { p.link with queue := joinMove i port asked p.link.queue } } with same | ⟨e, rest, queue, drops⟩
  · rw [same]
    exact joined
  · rw [drops]
    by_cases mine : e.island = j
    · subst mine
      exact .inl (congrArg Station.due (Two.get_set_same _ _ _))
    · refine joined.imp (fun due => ?_) fun waits => ?_
      · exact (congrArg Station.due (Two.get_set_ne _ _ (Ne.symm mine))).trans due
      · refine LinkUnit.mem_hand.mpr ((LinkUnit.mem_hand.mp waits).imp (fun m => ?_) id)
        have there : (⟨j, .poll⟩ : Entry) ∈ rest ++ [e] := queue ▸ m
        exact (List.mem_append.mp there).resolve_right fun last => mine (List.mem_singleton.mp last ▸ rfl)

theorem submitMove_clears (i : IslandId) (port : Port) (asked : Stamp) (p : Part) :
    LinkClears (fun _ => false) p.link (submitMove i port asked p).link := by
  have is : submitMove i port asked p = pumpLink (p.submitted i port asked) := rfl
  have still := submitted_still i port asked p
  refine .still (fun j => ?_) (fun j asks => ?_) (fun on => ?_) (submitMove_sound i port asked)
  · rw [is, pumpLink_core]
    exact submitted_station Station.core (fun _ => rfl) (fun _ => rfl) i j port asked p
  · exact pumpLink_asks j (submitted_asks port asked asks)
  · rw [is, pumpLink_still (p := p.submitted i port asked) (by rw [still]; exact on), still]

/-! ### The MOVEs (R118) -/

/-- The MOVEs of island `i` stay with the link, and no more of them wait. -/
structure MovesStay (i : IslandId) (k l : LinkUnit) : Prop where
  kept : ∀ e ∈ k.hand, e.isMoveOf i = true → e ∈ l.hand
  few : l.queue.countP (Entry.isMoveOf i) ≤ k.queue.countP (Entry.isMoveOf i)

theorem MovesStay.trans {i : IslandId} {k l o : LinkUnit} (a : MovesStay i k l) (b : MovesStay i l o) : MovesStay i k o :=
  ⟨fun e m is => b.kept e (a.kept e m is) is, b.few.trans a.few⟩

theorem joinPoll_moves (i j : IslandId) (p : Part) :
    (joinPoll i p).link.queue.countP (Entry.isMoveOf j) = p.link.queue.countP (Entry.isMoveOf j) := by
  unfold joinPoll
  split
  · show (p.link.queue ++ [(⟨i, .poll⟩ : Entry)]).countP _ = _
    rw [List.countP_append, List.countP_singleton, Entry.isMoveOf_poll, if_neg Bool.false_ne_true, Nat.add_zero]
  · rfl

theorem joinPolls_moves (j : IslandId) (p : Part) :
    (joinPolls p).link.queue.countP (Entry.isMoveOf j) = p.link.queue.countP (Entry.isMoveOf j) := by
  unfold joinPolls
  dsimp only
  split
  · exact joinPoll_moves _ j p
  · exact (joinPoll_moves _ j _).trans (joinPoll_moves _ j p)

theorem selectEntry_queue (p : Part) : (selectEntry p).link.queue.Sublist p.link.queue := by
  unfold selectEntry
  split
  · rename_i e rest _ _ queue
    rw [beginTransaction_link, queue]
    exact List.sublist_cons_self e rest
  · exact .refl _

theorem pumpLink_moves (i : IslandId) (p : Part) : MovesStay i p.link (pumpLink p).link :=
  ⟨fun _ m _ => pumpLink_hand m, by
    unfold pumpLink
    rw [joinPolls_moves]
    exact ((selectEntry_queue _).countP_le).trans (Nat.le_of_eq (joinPolls_moves i p))⟩

theorem clearPolls_moves (i : IslandId) (p : Part) : MovesStay i p.link (clearPolls p).link := by
  refine ⟨fun e m is => ?_, (List.filter_sublist (l := p.link.queue)).countP_le⟩
  have move : e.isMove = true := ((Bool.and_eq_true _ _).mp is).2
  exact LinkUnit.mem_hand.mpr ((LinkUnit.mem_hand.mp m).imp (fun q => List.mem_filter.mpr ⟨q, move⟩) id)

theorem readdress_moves (i j : IslandId) (p : Part) : MovesStay i p.link (readdress j p).link := by
  rw [readdress_link]
  refine MovesStay.trans (l := (p.readdressed j).link) ⟨fun e m _ => ?_, Nat.le_refl _⟩ (pumpLink_moves i (p.readdressed j))
  exact LinkUnit.mem_hand.mpr ((LinkUnit.mem_hand.mp m).imp id fun ⟨f, flies, is⟩ => ⟨_, congrArg (Option.map _) flies, is⟩)

theorem joinMove_moves {i j : IslandId} (other : i ≠ j) (port : Port) (asked : Stamp) (l : List Entry) :
    (joinMove j port asked l).countP (Entry.isMoveOf i) = l.countP (Entry.isMoveOf i) := by
  unfold joinMove
  dsimp only
  split
  · rfl
  · split
    · have shapes := congrArg (List.countP fun x : IslandId × Bool => x.1 = i && x.2) (replaceMove_shapes j port asked 1 l)
      rw [List.countP_map, List.countP_map] at shapes
      exact shapes
    · have perm : (l.filter Entry.isMove ++ [(⟨j, .move port asked⟩ : Entry)] ++ l.filter fun e => !e.isMove).Perm
          (⟨j, .move port asked⟩ :: l) := by
        rw [List.append_assoc]
        exact List.perm_middle.trans (.cons _ (List.filter_append_perm _ _))
      rw [perm.countP_eq, List.countP_cons_of_neg]
      simp [Entry.isMoveOf, Ne.symm other]

theorem submitted_queue (i : IslandId) (port : Port) (asked : Stamp) (p : Part) :
    (p.submitted i port asked).link.queue.Sublist (joinMove i port asked p.link.queue) := by
  unfold Part.submitted
  rcases dropPoll_cases { p with link := { p.link with queue := joinMove i port asked p.link.queue } } with same | ⟨e, rest, queue, drops⟩
  · rw [same]
    exact .refl _
  · rw [drops]
    have whole : joinMove i port asked p.link.queue = rest ++ [e] := queue
    rw [whole]
    exact List.sublist_append_left rest [e]

theorem submitMove_moves_ne {i j : IslandId} (other : i ≠ j) (port : Port) (asked : Stamp) {p : Part} (sound : p.link.sound = true) :
    MovesStay i p.link (submitMove j port asked p).link := by
  have is : submitMove j port asked p = pumpLink (p.submitted j port asked) := rfl
  refine ⟨fun e m mine => ?_, ?_⟩
  · obtain ⟨island, move⟩ := (Bool.and_eq_true _ _).mp mine
    exact submitMove_keepsMove port asked sound m move fun same => other ((decide_eq_true_eq.mp island).symm.trans same)
  · rw [is]
    exact (pumpLink_moves i _).few.trans ((submitted_queue j port asked p).countP_le.trans
      (Nat.le_of_eq (joinMove_moves other port asked p.link.queue)))

/-- Where at most one MOVE of the island waits, the MOVE of a commit takes none away. -/
theorem submitMove_moves_own {i : IslandId} (port : Port) (asked : Stamp) {p : Part} (sound : p.link.sound = true)
    (one : p.link.queue.countP (Entry.isMoveOf i) ≤ 1) {e : Entry} (m : e ∈ p.link.hand) (mine : e.isMoveOf i = true) :
    e ∈ (submitMove i port asked p).link.hand := by
  obtain ⟨-, move⟩ := (Bool.and_eq_true _ _).mp mine
  have rules := (joinMove_rules (LinkUnit.ready_of_sound sound).1 i port asked).1
  rcases LinkUnit.mem_hand.mp m with waits | ⟨f, flies, is⟩
  · have joined : e ∈ joinMove i port asked p.link.queue := by
      unfold joinMove
      dsimp only
      split
      · exact waits
      · rw [if_neg (by rw [← List.countP_eq_length_filter]; omega)]
        exact List.mem_append_left _ (List.mem_append_left _ (List.mem_filter.mpr ⟨waits, move⟩))
    exact pumpLink_hand (p := p.submitted i port asked) (LinkUnit.mem_hand.2 (.inl
      (dropPoll_move (p := { p with link := { p.link with queue := joinMove i port asked p.link.queue } }) rules joined move)))
  · refine pumpLink_hand (p := p.submitted i port asked) (LinkUnit.mem_hand.2 (.inr ⟨f, ?_, is⟩))
    exact (dropPoll_flight { p with link := { p.link with queue := joinMove i port asked p.link.queue } }).trans flies

end Sys2Proof.Machine
end

section
/-! PROOFS. CLEAR at the islands (R113, R112, R151), and the settling of ClearCommand. -/

namespace Sys2Proof.Machine

/-! ### The steps of CLEAR -/

/-- The tables, the trim and the channels at CLEAR. -/
def Part.wiped (p : Part) : Part := clearAnalog (emptyAlarms { p with ref := { p.ref with trim := p.defaults.trim } })

/-- Then the take lists. -/
def Part.listsCleared (p : Part) : Part := clearTakes .i2 (clearTakes .i1 p.wiped)

/-- Then the heads. -/
def Part.headsCleared (p : Part) : Part := HeadId.list.foldl (fun q h => clearHead h q) p.listsCleared

/-- Then the islands. -/
def Part.islandsCleared (p : Part) : Part :=
  clearIsland .i2 (p.heads.map (·.assigned)) (clearIsland .i1 (p.heads.map (·.assigned)) (clearPolls p.headsCleared))

/-- Then the standby commits. -/
def Part.stoodBy (p : Part) : Part := standbyNow .i2 (standbyNow .i1 p.islandsCleared)

/-- The attention line judged, once the rings are initialised. -/
def Part.lineJudged (p : Part) : Part := if p.init = .done then { p with evt := p.evt.judged } else p

theorem clearAll_eq (p : Part) : clearAll p = (followEnds p.stoodBy).lineJudged := rfl

theorem lineJudged_rest (p : Part) : ChangesOnly [.events] p p.lineJudged := .ite (setEvents_frame _ _) (.refl _ _)

theorem lineJudged_queue (p : Part) : p.lineJudged.evt.queue = p.evt.queue := by
  unfold Part.lineJudged
  split <;> rfl

theorem lineJudged_attention {p : Part} (done : p.init = .done) :
    p.lineJudged.evt.attention = decide (p.lineJudged.evt.producer ≠ p.lineJudged.evt.consumer) := by
  unfold Part.lineJudged
  rw [if_pos done]
  rfl

/-! ### The tables -/

theorem emptyAlarms_alarms (p : Part) : (emptyAlarms p).alarms = ⟨[], false, false, false⟩ := by
  unfold emptyAlarms judgeHorn
  rw [show ∀ q : Part, ({ q with alarms := { q.alarms with horn := q.alarms.sounds } } : Part).alarms =
    { q.alarms with horn := q.alarms.sounds } from fun _ => rfl,
    ← post_frame _ _ _ .alarms (by simp [Block.posting])]
  rfl

theorem clearAnalog_channel (k : ChannelId) (p : Part) : (clearAnalog p).analog.channel k = (p.analog.channel k).cleared
    (match k with
      | .reference => p.defaults.reference
      | .lamp h => p.defaults.lamp.get h
      | .tension h => p.defaults.tension.get h) := by
  cases k with
  | reference => rfl
  | lamp h => cases h <;> rfl
  | tension h => cases h <;> rfl

theorem wiped_frame (p : Part) : ChangesOnly (.ref :: .analog :: Block.alarming) p p.wiped :=
  (((setRef_frame _ p).mono (by simp)).trans ((emptyAlarms_frame _).mono (by simp [Block.alarming, Block.posting]))).trans
    ((clearAnalog_frame _).mono (by simp))

theorem wiped_channel (k : ChannelId) (p : Part) : p.wiped.analog.channel k = (p.analog.channel k).cleared
    (match k with
      | .reference => p.defaults.reference
      | .lamp h => p.defaults.lamp.get h
      | .tension h => p.defaults.tension.get h) := by
  have emptied := emptyAlarms_frame { p with ref := { p.ref with trim := p.defaults.trim } }
  unfold Part.wiped
  rw [clearAnalog_channel, ← emptied .analog (by simp [Block.alarming, Block.posting]),
    ← emptied .defaults (by simp [Block.alarming, Block.posting])]

theorem wiped_cleaned (p : Part) : Cleaned p.wiped where
  alarms := (clearAnalog_frame _ .alarms (by simp)).symm.trans (emptyAlarms_alarms _)
  blank k := by
    rw [wiped_channel]
    exact ⟨rfl, rfl, rfl⟩

theorem wiped_count (p : Part) : p.wiped.ref = { p.ref with trim := p.defaults.trim } := by
  have emptied := emptyAlarms_frame { p with ref := { p.ref with trim := p.defaults.trim } }
  exact ((clearAnalog_frame _ .ref (by simp)).symm.trans (emptied .ref (by simp [Block.alarming, Block.posting])).symm)

/-- EMPTIED, with the number of entries the Alarm Table had (R151). -/
def AlarmTable.emptiedEvent (t : AlarmTable) (count : Stamp) : Event :=
  ⟨.device, count, .alarm .emptied none none none false (word t.entries.length) 0⟩

theorem wiped_told {p : Part} (l : p.listens) : Spares 2 [p.alarms.emptiedEvent p.ref.count] p.wiped := by
  have silent : Spares 1 [] p := ⟨l.1, by rw [l.2]; split <;> exact Nat.le_of_ble_eq_true rfl, List.nil_sublist _⟩
  have posted := (silent.of_same (q := { ({ p with ref := { p.ref with trim := p.defaults.trim } } : Part) with
    alarms := { p.alarms with entries := [], overflow := false, overflowHorn := false } }) rfl rfl).post .device
    (.alarm .emptied none none none false (word p.alarms.entries.length) 0) (by decide)
  exact (posted.of_same (q := emptyAlarms _) rfl rfl).frame (clearAnalog_frame _) (by simp)

/-! ### The take lists -/

/-- The TAKE_ENDs of a list that CLEAR empties (R113 step 1). -/
def Take.clearItems (l : List Take) : List EventItem := l.map fun t => t.endItem t.clearOutcome .clear

theorem foldl_post_told {k : Nat} {es : List Event} {p : Part} (a : Spares k es p) (s : AlarmSource) (l : List Take)
    (room : k + l.length ≤ Config.maxEvents) : Spares (k + l.length) (es ++ (Take.clearItems l).map fun e => ⟨s, p.ref.count, e⟩)
      (l.foldl (fun q t => post s (t.endItem t.clearOutcome .clear) q) p) := by
  induction l generalizing k es p with
  | nil =>
    show Spares k (es ++ []) p
    rw [List.append_nil]
    exact a
  | cons t l ih =>
    rw [List.length_cons] at room
    have posted := ih (a.post s (t.endItem t.clearOutcome .clear) (by omega)) (by omega)
    rw [← post_frame s _ p .ref (by simp [Block.posting]), List.append_assoc] at posted
    exact posted.mono (by rw [List.length_cons]; omega)

theorem clearTakes_told {k : Nat} {es : List Event} {p : Part} (a : Spares k es p) (i : IslandId)
    (room : k + (p.island i).takes.length ≤ Config.maxEvents) : Spares (k + (p.island i).takes.length)
      (es ++ (Take.clearItems (p.island i).takes).map fun e => ⟨.island i, p.ref.count, e⟩) (clearTakes i p) :=
  foldl_post_told (a.frame (modIsland_frame i _ p) (by simp)) (.island i) _ room

theorem listsCleared_frame (p : Part) : ChangesOnly (.island .i1 :: .island .i2 :: Block.posting) p.wiped p.listsCleared :=
  ((clearTakes_frame .i1 _).mono (by simp [Block.taking])).trans ((clearTakes_frame .i2 _).mono (by simp [Block.taking]))

theorem listsCleared_island (i : IslandId) (p : Part) : p.listsCleared.island i = { p.island i with takes := [] } := by
  have wiped : ∀ j, p.wiped.island j = p.island j := fun j => (wiped_frame p (.island j) (by simp [Block.alarming, Block.posting])).symm
  unfold Part.listsCleared
  cases i with
  | i1 =>
    rw [← clearTakes_frame .i2 (clearTakes .i1 p.wiped) (.island .i1) (by simp [Block.taking, Block.posting]),
      (clearTakes_island _ _).1, wiped]
  | i2 =>
    rw [(clearTakes_island _ _).1, ← clearTakes_frame .i1 p.wiped (.island .i2) (by simp [Block.taking, Block.posting]), wiped]

/-! ### The heads -/

theorem headsCleared_clears (p : Part) : ClearsHeads HeadId.list p.listsCleared p.headsCleared :=
  clearHeads_clears (by decide) ((wiped_cleaned p).frame (listsCleared_frame p) (by simp [Block.posting]))

theorem listsCleared_head (h : HeadId) (p : Part) : p.listsCleared.head h = p.head h :=
  ((wiped_frame p (.head h) (by simp [Block.alarming, Block.posting])).trans
    (listsCleared_frame p (.head h) (by simp [Block.posting]))).symm

theorem listsCleared_defaults (p : Part) : p.listsCleared.defaults = p.defaults :=
  ((wiped_frame p .defaults (by simp [Block.alarming, Block.posting])).trans
    (listsCleared_frame p .defaults (by simp [Block.posting]))).symm

theorem headsCleared_head (h : HeadId) (p : Part) :
    Head.IsCleared (p.defaults.heads.get h) (p.defaults.assignments.get h) (p.head h) (p.headsCleared.head h) := by
  rw [(headsCleared_clears p).head, if_pos (by cases h <;> decide), listsCleared_head, listsCleared_defaults]
  exact Head.clearedTo_isCleared _ _ _ _

theorem headsCleared_island (i : IslandId) (p : Part) : p.headsCleared.island i =
    { p.island i with takes := [], fEnd := (p.island i).fEnd.map (Pred.atLeave .cutOrEnd) } := by
  rw [(headsCleared_clears p).islands, listsCleared_island, foldl_mapPreds_fEnd rfl]

/-! ### The islands -/

/-- The ON_AIR of a source lost at CLEAR (R113 step 3). -/
def Island.lostEvents (i : IslandId) (count : Stamp) (kept : Bool) (x : Island) : List Event :=
  if kept then [] else [⟨.island i, count, .onAir .clear .unknown x.onAir none none⟩]

/-- An island as CLEAR leaves it before its standby commit. -/
def Island.clearedTo (z : IslandSettings) (kept : Bool) (x : Island) : Island :=
  { x with settings := z, authority := .remote, preset := .standby
           onAir := if kept then x.onAir else .unknown
           fEnd := if kept then x.fEnd else none }

/-- What `clearIsland` does, `kept` saying whether the source on air is. -/
structure ClearsIsland (i : IslandId) (kept : Bool) (p q : Part) : Prop where
  island : q.island i = (p.island i).clearedTo (p.defaults.islands.get i) kept
  rest : ChangesOnly (.island i :: Block.linking) p q
  link : LinkClears (fun j => decide (j = i) && decide ((p.island i).settings.address ≠ (p.defaults.islands.get i).address)) p.link q.link
  moves : ∀ j, MovesStay j p.link q.link
  told : ∀ k es, Spares k es p → k < Config.maxEvents → Spares (k + 1) (es ++ (p.island i).lostEvents i p.ref.count kept) q

theorem MovesStay.refl (i : IslandId) (k : LinkUnit) : MovesStay i k k := ⟨fun _ m _ => m, Nat.le_refl _⟩

theorem LinkClears.of_eq {m n : IslandId → Bool} {k l : LinkUnit} (a : LinkClears m k l) (same : ∀ i, m i = n i) : LinkClears n k l :=
  (funext same : m = n) ▸ a

/-- A change of the address as CLEAR passes it to the link (R130, R131). -/
theorem readdress_cleaned {p : Part} (c : Cleaned p) (i : IslandId) : readdress i p = pumpLink (p.readdressed i) := by
  rw [readdress_eq]
  exact ((c.frame (setLink_frame _ p) (by simp)).frame (pumpLink_frame _) (by simp [Block.linking, Block.posting])).clearAlarm _ _ _ _

/-- The source on air becomes UNKNOWN with its ON_AIR and no alarm. -/
structure LosesAir (i : IslandId) (p q : Part) : Prop where
  island : q.island i = { p.island i with onAir := .unknown, fEnd := none }
  rest : ChangesOnly (.island i :: Block.posting) p q
  told : ∀ k es, Spares k es p → k < Config.maxEvents →
    Spares (k + 1) (es ++ [⟨.island i, p.ref.count, .onAir .clear .unknown (p.island i).onAir none none⟩]) q

theorem setOnAir_loses (i : IslandId) {p : Part} (c : Cleaned p) :
    LosesAir i p (setOnAir i .unknown .clear none none p) := by
  have marked := modIsland_frame i (fun x => { x with onAir := .unknown, fEnd := if (p.island i).onAir = .unknown then x.fEnd else none }) p
  have posted := post_frame (.island i) (.onAir .clear .unknown (p.island i).onAir none none)
    (p.modIsland i fun x => { x with onAir := .unknown, fEnd := if (p.island i).onAir = .unknown then x.fEnd else none })
  have told : ∀ q, Cleaned q → tellMonitors (p.island i).onAir .unknown q = q := fun q d => by
    unfold tellMonitors
    dsimp only
    cases (p.island i).onAir with
    | head h =>
      dsimp only
      rw [d.clearAlarm, ite_self]
    | standby => rfl
    | unknown => rfl
  have is : setOnAir i .unknown .clear none none p = followEnd i (Machine.post (.island i) (.onAir .clear .unknown (p.island i).onAir none none)
      (p.modIsland i fun x => { x with onAir := .unknown, fEnd := if (p.island i).onAir = .unknown then x.fEnd else none })) := by
    unfold setOnAir
    dsimp only
    rw [told _ ((c.frame marked (by simp)).frame posted (by simp [Block.posting])), ite_self]
  rw [is]
  refine ⟨?_, ((marked.mono (by simp)).trans (posted.mono (by simp))).trans ((modIsland_frame i _ _).mono (by simp)), fun k es a room => ?_⟩
  · unfold followEnd
    rw [modIsland_island, post_island, modIsland_island]
    dsimp only [Part.endFrame]
  · exact ((a.frame marked (by simp)).post (.island i) _ room).frame (modIsland_frame i _ _) (by simp)

theorem keepsAir_congr {i : IslandId} (old : Four (Option Assignment)) {p q : Part} (air : (q.island i).onAir = (p.island i).onAir)
    (heads : ∀ h, q.head h = p.head h) : keepsAir i old q = keepsAir i old p := by
  unfold keepsAir
  rw [air]
  cases (p.island i).onAir with
  | head h => simp only [Part.isAssigned, heads]
  | standby => rfl
  | unknown => rfl

/-- An island with the stored settings, REMOTE and STANDBY as its preset. -/
def Island.stored (z : IslandSettings) (x : Island) : Island := { x with settings := z, authority := .remote, preset := .standby }

/-- The first steps of CLEAR on an island: its settings, and its changed address at the link. -/
structure StoresIsland (i : IslandId) (p q : Part) : Prop where
  island : q.island i = (p.island i).stored (p.defaults.islands.get i)
  rest : ChangesOnly (.island i :: Block.linking) p q
  link : LinkClears (fun j => decide (j = i) && decide ((p.island i).settings.address ≠ (p.defaults.islands.get i).address)) p.link q.link
  moves : ∀ j, MovesStay j p.link q.link
  told : ∀ k es, Spares k es p → Spares k es q

/-- The part with the stored settings at island `i`, its address as it is now at the link. -/
def Part.stores (i : IslandId) (p : Part) : Part :=
  let q := p.modIsland i (Island.stored (p.defaults.islands.get i))
  if (q.island i).settings.address = (p.island i).settings.address then q else readdress i q

theorem stores_island (i : IslandId) {p : Part} (c : Cleaned p) : StoresIsland i p (p.stores i) := by
  have marked := modIsland_frame i (Island.stored (p.defaults.islands.get i)) p
  have island : (p.modIsland i (Island.stored (p.defaults.islands.get i))).island i = (p.island i).stored (p.defaults.islands.get i) :=
    modIsland_island i _ p
  have d := c.frame marked (by simp)
  unfold Part.stores
  dsimp only
  rw [island]
  show StoresIsland i p (if (p.defaults.islands.get i).address = (p.island i).settings.address then _ else _)
  by_cases same : (p.defaults.islands.get i).address = (p.island i).settings.address
  · rw [if_pos same]
    refine ⟨island, marked.mono (by simp), (LinkClears.refl p.link).of_eq fun j => ?_, fun j => .refl j _, fun k es a => a.frame marked (by simp)⟩
    rw [decide_eq_false (not_not.mpr same.symm), Bool.and_false]
  · rw [if_neg same]
    have frame : ChangesOnly Block.linking (p.modIsland i (Island.stored (p.defaults.islands.get i)))
        (pumpLink ((p.modIsland i (Island.stored (p.defaults.islands.get i))).readdressed i)) :=
      (link_linking _ _).trans (pumpLink_frame _)
    refine ⟨(readdress_island i i _).trans island, ?_, (readdress_clears i (p.modIsland i (Island.stored (p.defaults.islands.get i)))).of_eq fun j => ?_,
      fun j => readdress_moves j i (p.modIsland i _), fun k es a => ?_⟩
    · rw [readdress_cleaned d]
      exact (marked.mono (by simp)).trans (frame.mono (by simp))
    · rw [decide_eq_true (Ne.symm same), Bool.and_true]
    · rw [readdress_cleaned d]
      exact ((a.frame marked (by simp)).of_same (q := (p.modIsland i _).readdressed i) rfl rfl).pump

theorem clearIsland_cleaned (i : IslandId) (old : Four (Option Assignment)) {p : Part} (c : Cleaned p) :
    ClearsIsland i (keepsAir i old p) p (clearIsland i old p) := by
  have stores := stores_island i c
  have heads : ∀ h, (p.stores i).head h = p.head h := fun h => (stores.rest (.head h) (by simp [Block.linking, Block.posting])).symm
  have is : clearIsland i old p = if keepsAir i old p then p.stores i else setOnAir i .unknown .clear none none (p.stores i) := by
    rw [← keepsAir_congr (i := i) old (by rw [stores.island]; rfl) heads]
    rfl
  rw [is]
  cases keepsAir i old p with
  | true =>
    rw [if_pos rfl]
    exact ⟨stores.island, stores.rest, stores.link, stores.moves, fun k es a _ => by
      rw [show (p.island i).lostEvents i p.ref.count true = [] from rfl, List.append_nil]
      exact (stores.told k es a).mono (Nat.le_succ k)⟩
  | false =>
    rw [if_neg Bool.false_ne_true]
    have loses := setOnAir_loses i (c.frame stores.rest (by simp [Block.linking, Block.posting]))
    have link := loses.rest .link (by simp [Block.posting])
    have ref := stores.rest .ref (by simp [Block.linking, Block.posting])
    refine ⟨by rw [loses.island, stores.island]; rfl, stores.rest.trans (loses.rest.mono (by simp [Block.linking])), link ▸ stores.link,
      fun j => link ▸ stores.moves j, fun k es a room => ?_⟩
    have told := loses.told k es (stores.told k es a) room
    rw [stores.island, ← ref] at told
    exact told

/-! ### The islands and the link after all steps -/

/-- The addresses that CLEAR changes. -/
def Part.movesAddress (p : Part) (i : IslandId) : Bool := decide ((p.island i).settings.address ≠ (p.defaults.islands.get i).address)

/-- CLEAR keeps the source on air: STANDBY, UNKNOWN, or a head whose assignment the stored one repeats (R113 step 3). -/
def Part.keepsSource (p : Part) (i : IslandId) : Bool :=
  match (p.island i).onAir with
  | .standby => true
  | .unknown => true
  | .head h => decide ((p.head h).assigned = p.defaults.assignments.get h ∧ (p.defaults.assignments.get h).map (·.island) = some i)

/-- What the scheduler and the link have done before the standby commits. -/
structure IslandsCleared (p q : Part) : Prop where
  island : ∀ i, q.island i = (p.headsCleared.island i).clearedTo (p.defaults.islands.get i) (p.keepsSource i)
  rest : ChangesOnly (.island .i1 :: .island .i2 :: Block.linking) p.headsCleared q
  link : LinkClears p.movesAddress p.link q.link
  moves : ∀ i, MovesStay i p.link q.link
  told : ∀ k es, Spares k es p.headsCleared → k + 1 < Config.maxEvents → Spares (k + 2)
    (es ++ (p.island .i1).lostEvents .i1 p.ref.count (p.keepsSource .i1) ++ (p.island .i2).lostEvents .i2 p.ref.count (p.keepsSource .i2)) q

/-- What no step of CLEAR up to the heads changes. -/
theorem headsCleared_frame (p : Part) : ChangesOnly
    (.ref :: .analog :: (HeadId.list.map .head ++ .island .i1 :: .island .i2 :: Block.alarming)) p p.headsCleared :=
  (((wiped_frame p).mono (by simp [Block.alarming, Block.posting])).trans ((listsCleared_frame p).mono (by simp [Block.alarming, Block.posting]))).trans
    ((headsCleared_clears p).rest.mono (by simp [HeadId.list, Block.alarming, Block.posting]))

theorem headsCleared_cleaned (p : Part) : Cleaned p.headsCleared :=
  ((wiped_cleaned p).frame (listsCleared_frame p) (by simp [Block.posting])).frame (headsCleared_clears p).rest
    (by simp [HeadId.list, Block.posting])

theorem headsCleared_ref (p : Part) : p.headsCleared.ref = { p.ref with trim := p.defaults.trim } := by
  rw [← (headsCleared_clears p).rest .ref (by simp [HeadId.list, Block.posting]), ← listsCleared_frame p .ref (by simp [Block.posting]),
    wiped_count]

/-- The source on air is kept as the cleared heads have it. -/
theorem keepsAir_keeps (i : IslandId) {p q : Part} (air : (q.island i).onAir = (p.island i).onAir)
    (heads : ∀ h, (q.head h).assigned = p.defaults.assignments.get h) : keepsAir i (p.heads.map (·.assigned)) q = p.keepsSource i := by
  unfold keepsAir Part.keepsSource
  rw [air]
  cases (p.island i).onAir with
  | standby => rfl
  | unknown => rfl
  | head h =>
    dsimp only
    unfold Part.isAssigned
    rw [heads, Four.get_map]
    show (_ && decide ((p.head h).assigned = _)) = _
    rw [Bool.and_comm, Bool.decide_and]
    congr 1
    cases p.defaults.assignments.get h <;> simp

/-- What the clearing of the islands finds: the part with its heads cleared, its POLLs taken out. -/
structure ReadyForIslands (p q : Part) : Prop where
  island : ∀ i, q.island i = p.headsCleared.island i
  head : ∀ h, q.head h = p.headsCleared.head h
  defaults : q.defaults = p.defaults
  count : q.ref.count = p.ref.count
  rest : ChangesOnly Block.linking p.headsCleared q
  link : LinkClears (fun _ => false) p.link q.link
  moves : ∀ i, MovesStay i p.link q.link
  told : ∀ k es, Spares k es p.headsCleared → Spares k es q
  cleaned : Cleaned q

theorem clearPolls_told {k : Nat} {es : List Event} {p : Part} (a : Spares k es p) : Spares k es (clearPolls p) := a.of_same rfl rfl

theorem clearPolls_ready (p : Part) : ReadyForIslands p (clearPolls p.headsCleared) := by
  have polls : ChangesOnly Block.linking p.headsCleared (clearPolls p.headsCleared) := clearPolls_frame _
  have link : p.headsCleared.link = p.link := (headsCleared_frame p .link (by simp [HeadId.list, Block.alarming, Block.posting])).symm
  have defaults : p.headsCleared.defaults = p.defaults :=
    (headsCleared_frame p .defaults (by simp [HeadId.list, Block.alarming, Block.posting])).symm
  have count : p.headsCleared.ref.count = p.ref.count := by rw [headsCleared_ref]
  have cleaned := headsCleared_cleaned p
  have clears := clearPolls_clears p.headsCleared
  have moves := fun i => clearPolls_moves i p.headsCleared
  rw [link] at clears moves
  constructor
  case island => exact fun i => (polls (.island i) (by simp [Block.linking, Block.posting])).symm
  case head => exact fun h => (polls (.head h) (by simp [Block.linking, Block.posting])).symm
  case defaults => exact (polls .defaults (by simp [Block.linking, Block.posting])).symm.trans defaults
  case count => rw [← polls .ref (by simp [Block.linking, Block.posting]), count]
  case rest => exact polls
  case link => exact clears
  case moves => exact moves
  case told => exact fun k es a => clearPolls_told a
  case cleaned => exact cleaned.frame polls (by simp [Block.linking, Block.posting])

theorem IslandsCleared.of_steps {p q r u : Part} (ready : ReadyForIslands p q) (first : ClearsIsland .i1 (p.keepsSource .i1) q r)
    (second : ClearsIsland .i2 (p.keepsSource .i2) r u) : IslandsCleared p u := by
  have island1 : u.island .i1 = r.island .i1 := (second.rest (.island .i1) (by simp [Block.linking, Block.posting])).symm
  have island2 : r.island .i2 = q.island .i2 := (first.rest (.island .i2) (by simp [Block.linking, Block.posting])).symm
  have defaults : r.defaults = q.defaults := (first.rest .defaults (by simp [Block.linking, Block.posting])).symm
  have ref : r.ref = q.ref := (first.rest .ref (by simp [Block.linking, Block.posting])).symm
  have settings : ∀ i, (q.island i).settings = (p.island i).settings := fun i => by rw [ready.island, headsCleared_island]
  have lost : ∀ i n k, (q.island i).lostEvents i n k = (p.island i).lostEvents i n k := fun i n k => by
    rw [ready.island, headsCleared_island]
    rfl
  refine ⟨fun i => ?_, ?_, ?_, fun i => ((ready.moves i).trans (first.moves i)).trans (second.moves i), fun k es a room => ?_⟩
  · cases i with
    | i1 => rw [island1, first.island, ready.defaults, ready.island]
    | i2 => rw [second.island, island2, defaults, ready.defaults, ready.island]
  · exact ((ready.rest.mono (by simp)).trans (first.rest.mono (by simp))).trans (second.rest.mono (by simp))
  · refine ((ready.link.trans first.link).trans second.link).of_eq fun j => ?_
    rw [island2, defaults, ready.defaults, settings, settings]
    cases j <;> simp [Part.movesAddress]
  · have told := second.told _ _ (first.told k es (ready.told k es a) (by omega)) room
    rw [island2, ref, ready.count, lost, lost] at told
    exact told

theorem islandsCleared_clears (p : Part) : IslandsCleared p p.islandsCleared := by
  have ready := clearPolls_ready p
  have kept1 := keepsAir_keeps (p := p) .i1 (q := clearPolls p.headsCleared)
    (by rw [ready.island, headsCleared_island]) fun h => by rw [ready.head, (headsCleared_head h p).assigned]
  have first := clearIsland_cleaned .i1 (p.heads.map (·.assigned)) ready.cleaned
  rw [kept1] at first
  have kept2 := keepsAir_keeps (p := p) .i2 (q := clearIsland .i1 (p.heads.map (·.assigned)) (clearPolls p.headsCleared))
    (by rw [← first.rest (.island .i2) (by simp [Block.linking, Block.posting]), ready.island, headsCleared_island])
    fun h => by rw [← first.rest (.head h) (by simp [Block.linking, Block.posting]), ready.head, (headsCleared_head h p).assigned]
  have second := clearIsland_cleaned .i2 (p.heads.map (·.assigned)) (ready.cleaned.frame first.rest (by simp [Block.linking, Block.posting]))
  rw [kept2] at second
  exact .of_steps ready first second

/-! ### The standby commits -/

/-- A standby commit on an island: its confirmation, and its MOVE at the link. -/
structure StandCommits (i : IslandId) (p q : Part) : Prop where
  island : q.island i = { p.island i with
    mirror := .moving (p.island i).settings.standbyPort
    confirm := some { target := .standby, port := (p.island i).settings.standbyPort, cut := p.leadField i
                      deadline := Stamp.plus (p.leadField i) (p.island i).settings.grace, owner := .island } }
  rest : ChangesOnly (.island i :: Block.linking) p q
  link : LinkClears (fun _ => false) p.link q.link
  fast : (q.link.stations.get i).fast = true
  other : ∀ j, j ≠ i → (p.link.stations.get j).fast = true → (q.link.stations.get j).fast = true
  asked : p.link.sound = true → ∃ e ∈ q.link.hand, e.isMoveOf i = true ∧ e.request.port? = some (p.island i).settings.standbyPort
  moves : p.link.sound = true → ∀ j, j ≠ i → MovesStay j p.link q.link
  own : p.link.sound = true → p.link.queue.countP (Entry.isMoveOf i) ≤ 1 → ∀ e ∈ p.link.hand, e.isMoveOf i = true → e ∈ q.link.hand
  told : ∀ k es, Spares k es p → Spares k es q

theorem Entry.isMove_of_port {e : Entry} {port : Port} (is : e.request.port? = some port) : e.isMove = true := by
  obtain ⟨island, request⟩ := e
  cases request with
  | move => rfl
  | poll => nomatch is

theorem standbyNow_commits (i : IslandId) (p : Part) : StandCommits i p (standbyNow i p) := by
  obtain ⟨f, eq⟩ := commit_eq i .standby (p.leadField i) .island p
  have is : standbyNow i p = submitMove i (p.island i).settings.standbyPort p.ref.count (p.modIsland i f) := eq
  refine ⟨standbyNow_island i p, (standbyNow_frame i p).mono (by simp [Block.committing]), ?_, ?_, fun j n fast => ?_, fun sound => ?_,
    fun sound j n => ?_, fun sound one e m mine => ?_, fun k es a => a.standbyNow i⟩
  · rw [is]
    exact submitMove_clears i _ _ (p.modIsland i f)
  · rw [is]
    exact submitMove_fast _ _ _ _
  · rw [is]
    exact submitMove_fast_ne (p := p.modIsland i f) n _ _ fast
  · rw [is]
    obtain ⟨⟨e, m, island, port⟩, -⟩ := submitMove_hand (p := p.modIsland i f) (i := i) (port := (p.island i).settings.standbyPort)
      (asked := p.ref.count) sound
    exact ⟨e, m, (Bool.and_eq_true _ _).mpr ⟨decide_eq_true island, Entry.isMove_of_port port⟩, port⟩
  · rw [is]
    exact submitMove_moves_ne (p := p.modIsland i f) n _ _ sound
  · rw [is]
    exact submitMove_moves_own (p := p.modIsland i f) _ _ sound one m mine

/-- Both standby commits. -/
structure BothStand (p q : Part) : Prop where
  island : ∀ i, q.island i = { p.island i with
    mirror := .moving (p.island i).settings.standbyPort
    confirm := some { target := .standby, port := (p.island i).settings.standbyPort, cut := p.leadField i
                      deadline := Stamp.plus (p.leadField i) (p.island i).settings.grace, owner := .island } }
  rest : ChangesOnly (.island .i1 :: .island .i2 :: Block.linking) p q
  link : LinkClears (fun _ => false) p.link q.link
  fast : ∀ i, (q.link.stations.get i).fast = true
  asked : p.link.sound = true → ∀ i, ∃ e ∈ q.link.hand, e.isMoveOf i = true ∧ e.request.port? = some (p.island i).settings.standbyPort
  own : p.link.sound = true → ∀ i, p.link.queue.countP (Entry.isMoveOf i) ≤ 1 → ∀ e ∈ p.link.hand, e.isMoveOf i = true → e ∈ q.link.hand
  told : ∀ k es, Spares k es p → Spares k es q

theorem StandCommits.both {p q r : Part} (a : StandCommits .i1 p q) (b : StandCommits .i2 q r) : BothStand p r := by
  have island1 : r.island .i1 = q.island .i1 := (b.rest (.island .i1) (by simp [Block.linking, Block.posting])).symm
  have island2 : q.island .i2 = p.island .i2 := (a.rest (.island .i2) (by simp [Block.linking, Block.posting])).symm
  have ref : q.ref = p.ref := (a.rest .ref (by simp [Block.linking, Block.posting])).symm
  have lead : q.leadField .i2 = p.leadField .i2 := by
    unfold Part.leadField
    rw [island2, ref]
  refine ⟨fun i => ?_, (a.rest.mono (by simp)).trans (b.rest.mono (by simp)), a.link.trans b.link, fun i => ?_, fun sound i => ?_,
    fun sound i one e m mine => ?_, fun k es x => b.told k es (a.told k es x)⟩
  · cases i with
    | i1 => exact island1.trans a.island
    | i2 => rw [b.island, island2, lead]
  · cases i with
    | i1 => exact b.other .i1 nofun a.fast
    | i2 => exact b.fast
  · have sound' := a.link.sound sound
    cases i with
    | i1 =>
      obtain ⟨e, m, mine, port⟩ := a.asked sound
      exact ⟨e, (b.moves sound' .i1 nofun).kept e m mine, mine, port⟩
    | i2 =>
      obtain ⟨e, m, mine, port⟩ := b.asked sound'
      exact ⟨e, m, mine, port.trans (by rw [island2])⟩
  · have sound' := a.link.sound sound
    cases i with
    | i1 => exact (b.moves sound' .i1 nofun).kept e (a.own sound one e m mine) mine
    | i2 =>
      have stays := a.moves sound .i2 nofun
      exact b.own sound' (stays.few.trans one) e (stays.kept e m mine) mine

theorem stoodBy_stands (p : Part) : BothStand p.islandsCleared p.stoodBy :=
  (standbyNow_commits .i1 _).both (standbyNow_commits .i2 _)

/-! ### F_end after all (R75, R85) -/

theorem formPred_stopped {p : Part} {h : HeadId} {c : Int} (k : PredKind) (idle : (p.head h).drive = .stopped)
    (ahead : (p.head h).pos.frame < c) : formPred p k h c = ⟨h, c, none, .absent⟩ := by
  unfold formPred Pred.ahead
  rw [if_neg (Int.not_le.mpr ahead)]
  dsimp only
  rw [idle]
  rfl

theorem followEnds_frame (p : Part) : ChangesOnly [.island .i1, .island .i2] p (followEnds p) :=
  ((modIsland_frame .i1 _ p).mono (by simp)).trans ((modIsland_frame .i2 _ _).mono (by simp))

/-- What following an end makes of F_end, the source on air kept. -/
structure FollowsEnd (i : IslandId) (p q : Part) : Prop where
  rest : ∃ e, q.island i = { p.island i with fEnd := e }
  none : (∀ h, (p.island i).onAir ≠ .head h) → (q.island i).fEnd = none
  some : ∀ r, (q.island i).fEnd = some r → (p.island i).fEnd = some r ∨
    ∃ h c, p.endFrame (p.island i).onAir = some (h, c) ∧ r = formPred p .cutOrEnd h c

theorem followEnd_follows (i : IslandId) (p : Part) : FollowsEnd i p (followEnd i p) := by
  have is : (followEnd i p).island i = _ := modIsland_island i _ p
  refine ⟨(followEnd_air i p).imp fun _ a => a.1, fun silent => ?_, fun r formed => ?_⟩
  · rw [is]
    have ends : p.endFrame (p.island i).onAir = Option.none := by
      unfold Part.endFrame
      cases air : (p.island i).onAir with
      | head h => exact absurd air (silent h)
      | standby => rfl
      | unknown => rfl
    rw [ends]
  · rw [is] at formed
    cases ends : p.endFrame (p.island i).onAir with
    | none =>
      rw [ends] at formed
      exact absurd formed nofun
    | some f =>
      obtain ⟨h, c⟩ := f
      rw [ends] at formed
      dsimp only at formed
      split at formed
      · split at formed
        · exact .inl formed
        · exact .inr ⟨h, c, rfl, (Option.some.inj formed).symm⟩
      · exact .inr ⟨h, c, rfl, (Option.some.inj formed).symm⟩

theorem followEnds_follows (i : IslandId) (p : Part) : FollowsEnd i p (followEnds p) := by
  cases i with
  | i1 =>
    have a := followEnd_follows .i1 p
    have same : (followEnds p).island .i1 = (followEnd .i1 p).island .i1 := (modIsland_frame .i2 _ _ (.island .i1) (by simp)).symm
    exact ⟨same ▸ a.rest, same ▸ a.none, same ▸ a.some⟩
  | i2 =>
    have a := followEnd_follows .i2 (followEnd .i1 p)
    have same : (followEnd .i1 p).island .i2 = p.island .i2 := (modIsland_frame .i1 _ p (.island .i2) (by simp)).symm
    obtain ⟨rest, none, some⟩ := a
    rw [same] at rest none some
    exact ⟨rest, none, some⟩

/-! ### The rings (R185) -/

/-- The indices of the rings as they were, and the attention line as it was or as it is judged. -/
structure KeepsIndices (p q : Part) : Prop where
  init : q.init = p.init
  producer : q.evt.producer = p.evt.producer
  consumer : q.evt.consumer = p.evt.consumer
  attention : q.evt.attention = p.evt.attention ∨
    p.init = .done ∧ q.evt.attention = decide (p.evt.producer ≠ p.evt.consumer)

theorem keepsIndices_posts (p : Part) : PostsKeep (KeepsIndices p) where
  post s e q a := by
    have posted := post_posted s e q
    exact ⟨posted.init.trans a.init, posted.producer.trans a.producer, posted.consumer.trans a.consumer, by
      rw [posted.attention]; exact a.attention⟩
  same q r same a := by
    obtain ⟨-, init, -, -, -, evt⟩ := same
    exact ⟨init.trans a.init, by rw [evt]; exact a.producer, by rw [evt]; exact a.consumer, by rw [evt]; exact a.attention⟩

theorem clearAll_indices (p : Part) : KeepsIndices p (clearAll p) := by
  refine ((keepsIndices_posts p).commands (fun q a => ⟨a.init, a.producer, a.consumer, a.attention⟩) fun q done a => ?_).clearAll p
    ⟨rfl, rfl, rfl, .inl rfl⟩
  refine ⟨a.init, a.producer, a.consumer, .inr ⟨a.init.symm.trans done, ?_⟩⟩
  rw [← a.producer, ← a.consumer]
  rfl

/-! ### All of CLEAR -/

theorem clearAll_rest (p : Part) : ChangesOnly [.events] (followEnds p.stoodBy) (clearAll p) := lineJudged_rest _

/-- What CLEAR changes once the heads are cleared. -/
theorem clearAll_later (p : Part) : ChangesOnly (.island .i1 :: .island .i2 :: Block.linking) p.headsCleared (clearAll p) :=
  ((((islandsCleared_clears p).rest.trans (stoodBy_stands p).rest).trans ((followEnds_frame _).mono (by simp))).trans
    ((clearAll_rest p).mono (by simp [Block.linking, Block.posting])))

theorem clearAll_head (h : HeadId) (p : Part) : (clearAll p).head h = p.headsCleared.head h :=
  (clearAll_later p (.head h) (by simp [Block.linking, Block.posting])).symm

theorem clearAll_channel (k : ChannelId) (p : Part) : (clearAll p).analog.channel k = (p.analog.channel k).cleared
    (match k with
      | .reference => p.defaults.reference
      | .lamp h => p.defaults.lamp.get h
      | .tension h => p.defaults.tension.get h) := by
  rw [← clearAll_later p .analog (by simp [Block.linking, Block.posting]),
    ← (headsCleared_clears p).rest .analog (by simp [HeadId.list, Block.posting]),
    ← listsCleared_frame p .analog (by simp [Block.posting]), wiped_channel]

theorem clearAll_alarms (p : Part) : (clearAll p).alarms = ⟨[], false, false, false⟩ :=
  ((headsCleared_cleaned p).frame (clearAll_later p) (by simp [Block.linking, Block.posting])).alarms

theorem FollowsEnd.of_same {i : IslandId} {p q r : Part} (a : FollowsEnd i p q) (same : q.island i = r.island i) : FollowsEnd i p r :=
  ⟨same ▸ a.rest, same ▸ a.none, same ▸ a.some⟩

theorem clearAll_follows (i : IslandId) (p : Part) : FollowsEnd i p.stoodBy (clearAll p) :=
  (followEnds_follows i p.stoodBy).of_same (clearAll_rest p (.island i) (by simp))

/-- An island as CLEAR leaves it, but for its F_end. -/
def Island.cleared (z : IslandSettings) (kept : Bool) (count : Stamp) (x : Island) : Island :=
  { x.clearedTo z kept with
    takes := []
    mirror := .moving z.standbyPort
    confirm := some { target := .standby, port := z.standbyPort, cut := count + BitVec.ofNat 32 z.lead, owner := .island
                      deadline := count + BitVec.ofNat 32 z.lead + BitVec.ofNat 32 z.grace } }

theorem stoodBy_island (i : IslandId) (p : Part) : ∃ e, p.stoodBy.island i =
    { (p.island i).cleared (p.defaults.islands.get i) (p.keepsSource i) p.ref.count with fEnd := e } ∧
    (e = none ∨ e = (p.island i).fEnd.map (Pred.atLeave .cutOrEnd)) := by
  have cleared := (islandsCleared_clears p).island i
  have stands := (stoodBy_stands p).island i
  have ref := (islandsCleared_clears p).rest .ref (by simp [Block.linking, Block.posting])
  have lead : p.islandsCleared.leadField i = p.ref.count + BitVec.ofNat 32 (p.defaults.islands.get i).lead := by
    unfold Part.leadField Stamp.plus
    rw [cleared, ← ref, headsCleared_ref]
    rfl
  rw [lead, cleared, headsCleared_island] at stands
  refine ⟨_, stands, ?_⟩
  unfold Island.clearedTo
  dsimp only
  split
  · exact .inr rfl
  · exact .inl rfl

theorem stoodBy_head (h : HeadId) (p : Part) : p.stoodBy.head h = p.headsCleared.head h :=
  ((islandsCleared_clears p).rest (.head h) (by simp [Block.linking, Block.posting]) |>.trans
    ((stoodBy_stands p).rest (.head h) (by simp [Block.linking, Block.posting]))).symm

/-- An F_end that remains is ABSENT, unless it was REACHED. -/
theorem clearAll_fEnd {i : IslandId} {p : Part} {r : Pred} (is : ((clearAll p).island i).fEnd = some r)
    (ahead : ∀ e, (p.island i).fEnd = some e → e.basis ≠ .reached) : r.value = none ∧ r.basis = .absent := by
  obtain ⟨e, island, kept⟩ := stoodBy_island i p
  rcases (clearAll_follows i p).some r is with same | ⟨h, c, ends, formed⟩
  · rw [island] at same
    rcases kept with none | left
    · exact absurd (none.symm.trans same) nofun
    · obtain ⟨f, was, left⟩ := Option.map_eq_some_iff.mp (left.symm.trans same)
      unfold Pred.atLeave at left
      rw [if_neg (ahead f was)] at left
      rw [← left]
      exact ⟨rfl, rfl⟩
  · have cleared := headsCleared_head h p
    have air : ∀ s, p.stoodBy.endFrame s = some (h, c) → ∃ k ∈ (p.stoodBy.head h).cues, k.passed = false ∧ k.frame = c := fun s found => by
      unfold Part.endFrame at found
      split at found
      · obtain ⟨k, first, same⟩ := Option.map_eq_some_iff.mp found
        cases same
        have pending := List.find?_some first
        simp only [decide_eq_true_eq] at pending
        exact ⟨k, List.mem_of_find?_eq_some first, Bool.not_eq_true _ ▸ pending.2, rfl⟩
      · nomatch found
      · nomatch found
    obtain ⟨k, member, pending, frame⟩ := air _ ends
    rw [stoodBy_head] at member
    have passed := (cleared.passed k member).symm.trans pending
    rw [formed, formPred_stopped .cutOrEnd (by rw [stoodBy_head]; exact cleared.drive)
      (by rw [stoodBy_head]; exact Int.not_le.mp (frame ▸ of_decide_eq_false passed))]
    exact ⟨rfl, rfl⟩

/-- The link after CLEAR. -/
theorem clearAll_link (p : Part) : (clearAll p).link = p.stoodBy.link :=
  ((followEnds_frame p.stoodBy .link (by simp)).trans (clearAll_rest p .link (by simp))).symm

theorem clearAll_linkClears (p : Part) : LinkClears p.movesAddress p.link (clearAll p).link := by
  rw [clearAll_link]
  exact ((islandsCleared_clears p).link.trans (stoodBy_stands p).link).of_eq fun _ => Bool.or_false _

theorem clearAll_moves {p : Part} (sound : p.link.sound = true) (i : IslandId) :
    (∃ e ∈ (clearAll p).link.hand, e.island = i ∧ e.request.port? = some (p.defaults.islands.get i).standbyPort) ∧
    ((p.link.queue.filter (Entry.isMoveOf i)).length ≤ 1 → ∀ e ∈ p.link.queue, e.isMoveOf i = true → e ∈ (clearAll p).link.hand) := by
  have cleared := islandsCleared_clears p
  have stands := stoodBy_stands p
  have sound' := cleared.link.sound sound
  have port : (p.islandsCleared.island i).settings.standbyPort = (p.defaults.islands.get i).standbyPort := by
    rw [cleared.island]
    rfl
  rw [clearAll_link]
  refine ⟨?_, fun one e m mine => ?_⟩
  · obtain ⟨e, m, mine, asked⟩ := stands.asked sound' i
    exact ⟨e, m, decide_eq_true_eq.mp ((Bool.and_eq_true _ _).mp mine).1, asked.trans (congrArg some port)⟩
  · rw [← List.countP_eq_length_filter] at one
    exact stands.own sound' i ((cleared.moves i).few.trans one) e ((cleared.moves i).kept e (LinkUnit.mem_hand.mpr (.inl m)) mine) mine

/-! ### The events of CLEAR -/

/-- The TAKE_ENDs of an island. -/
def Part.clearEnds (p : Part) (i : IslandId) : List Event := (Take.clearItems (p.island i).takes).map fun e => ⟨.island i, p.ref.count, e⟩

/-- All that CLEAR tells, in order (R36, R112, R151). -/
def Part.clearTells (p : Part) : List Event :=
  [p.alarms.emptiedEvent p.ref.count] ++ p.clearEnds .i1 ++ p.clearEnds .i2 ++
    (HeadId.list.flatMap fun h => (p.head h).clearEvents h p.ref.count) ++
    (p.island .i1).lostEvents .i1 p.ref.count (p.keepsSource .i1) ++ (p.island .i2).lostEvents .i2 p.ref.count (p.keepsSource .i2)

theorem listsCleared_told {p : Part} (l : p.listens) (few : (p.island .i1).takes.length + (p.island .i2).takes.length ≤ 8) :
    Spares (2 + (p.island .i1).takes.length + (p.island .i2).takes.length)
      ([p.alarms.emptiedEvent p.ref.count] ++ p.clearEnds .i1 ++ p.clearEnds .i2) p.listsCleared := by
  have wiped : ∀ j, p.wiped.island j = p.island j := fun j => (wiped_frame p (.island j) (by simp [Block.alarming, Block.posting])).symm
  have count : p.wiped.ref.count = p.ref.count := by rw [wiped_count]
  have frame := clearTakes_frame .i1 p.wiped
  have one := clearTakes_told (wiped_told l) .i1 (by rw [wiped]; show _ ≤ 16; omega)
  rw [wiped, count] at one
  have second : (clearTakes .i1 p.wiped).island .i2 = p.island .i2 :=
    (frame (.island .i2) (by simp [Block.taking, Block.posting])).symm.trans (wiped .i2)
  have count2 : (clearTakes .i1 p.wiped).ref.count = p.ref.count := by rw [← frame .ref (by simp [Block.taking, Block.posting]), count]
  have two := clearTakes_told one .i2 (by rw [second]; show _ ≤ 16; omega)
  rw [second, count2] at two
  exact two

theorem clearAll_told {p : Part} (l : p.listens) (few : (p.island .i1).takes.length + (p.island .i2).takes.length ≤ 8) :
    p.clearTells.Sublist (clearAll p).evt.queue := by
  have heads := (headsCleared_clears p).told _ _ (listsCleared_told l few) (by show _ + 4 ≤ 16; omega)
  have count : p.listsCleared.ref.count = p.ref.count := by
    rw [← listsCleared_frame p .ref (by simp [Block.posting]), wiped_count]
  have same : (HeadId.list.flatMap fun h => (p.listsCleared.head h).clearEvents h p.listsCleared.ref.count) =
      HeadId.list.flatMap fun h => (p.head h).clearEvents h p.ref.count :=
    List.flatMap_congr fun h _ => by rw [listsCleared_head, count]
  rw [same] at heads
  have islands := (stoodBy_stands p).told _ _ ((islandsCleared_clears p).told _ _ heads (by show _ + 4 + 1 < 16; omega))
  have told := islands.told
  rw [clearAll_eq, lineJudged_queue, ← followEnds_frame p.stoodBy .events (by simp)]
  exact told

theorem Sublist.flatMap_of_mem {α β : Type} (f : α → List β) {l : List α} {a : α} (m : a ∈ l) : (f a).Sublist (l.flatMap f) := by
  obtain ⟨before, after, eq⟩ := List.append_of_mem m
  rw [eq, List.flatMap_append, List.flatMap_cons]
  exact (List.sublist_append_left _ _).trans (List.sublist_append_right _ _)

/-- What a part tells by its list of events. -/
theorem tells_of_sublist {p q : Part} {es : List Event} {s : AlarmSource} {items : List EventItem} (told : es.Sublist q.evt.queue)
    (count : q.ref.count = p.ref.count) (all : (items.map fun e => (⟨s, p.ref.count, e⟩ : Event)).Sublist es) : q.tells s items := by
  unfold Part.tells
  rw [count]
  exact all.trans told

theorem clearAll_tells {p : Part} (l : p.listens) (few : (p.island .i1).takes.length + (p.island .i2).takes.length ≤ 8) :
    (clearAll p).tells .device [.alarm .emptied none none none false (word p.alarms.entries.length) 0] ∧
    (∀ i, (clearAll p).tells (.island i) (Take.clearItems (p.island i).takes)) ∧
    (∀ h, (p.head h).drive ≠ .stopped →
      (clearAll p).tells (.head h) [.headState .stopped (p.head h).drive .clear (p.head h).pos.frame]) ∧
    (∀ i, p.keepsSource i = false → (clearAll p).tells (.island i) [.onAir .clear .unknown (p.island i).onAir none none]) := by
  have told := clearAll_told l few
  have count : (clearAll p).ref.count = p.ref.count := by rw [clearAll_ref]
  unfold Part.clearTells at told
  refine ⟨?_, fun i => ?_, fun h moving => ?_, fun i lost => ?_⟩
  · refine tells_of_sublist (p := p) told count ?_
    simp only [List.append_assoc]
    exact List.sublist_append_left _ _
  · refine tells_of_sublist (p := p) told count (es := _) ?_
    show (p.clearEnds i).Sublist _
    cases i with
    | i1 =>
      simp only [List.append_assoc]
      exact (List.sublist_append_left _ _).trans (List.sublist_append_right _ _)
    | i2 =>
      simp only [List.append_assoc]
      exact ((List.sublist_append_left _ _).trans (List.sublist_append_right _ _)).trans (List.sublist_append_right _ _)
  · have mine : ((p.head h).clearEvents h p.ref.count).Sublist (HeadId.list.flatMap fun h => (p.head h).clearEvents h p.ref.count) :=
      Sublist.flatMap_of_mem (fun h => (p.head h).clearEvents h p.ref.count) (by cases h <;> decide)
    have is : (p.head h).clearEvents h p.ref.count = [headStateEvent h p.ref.count (p.head h) .stopped .clear] := if_neg moving
    rw [is] at mine
    refine tells_of_sublist (p := p) told count (mine.trans ?_)
    exact ((List.sublist_append_right _ _).trans (List.sublist_append_left _ _)).trans (List.sublist_append_left _ _)
  · have is : (p.island i).lostEvents i p.ref.count (p.keepsSource i) =
        [⟨.island i, p.ref.count, .onAir .clear .unknown (p.island i).onAir none none⟩] := by rw [lost]; rfl
    refine tells_of_sublist (p := p) told count (?_ : List.Sublist [_] _)
    rw [← is]
    cases i with
    | i1 => exact (List.sublist_append_right _ _).trans (List.sublist_append_left _ _)
    | i2 => exact List.sublist_append_right _ _

/-- The island CLEAR leaves. -/
theorem clearAll_island (i : IslandId) (p : Part) : ∃ e, (clearAll p).island i =
    { (p.island i).cleared (p.defaults.islands.get i) (p.keepsSource i) p.ref.count with fEnd := e } := by
  obtain ⟨e, island⟩ := (clearAll_follows i p).rest
  obtain ⟨f, was, -⟩ := stoodBy_island i p
  exact ⟨e, island.trans (by rw [was])⟩

theorem keepsSource_air (i : IslandId) (p : Part) : (if p.keepsSource i then (p.island i).onAir else .unknown) =
    match (p.island i).onAir with
    | .standby => .standby
    | .unknown => .unknown
    | .head h =>
      if (p.head h).assigned = p.defaults.assignments.get h ∧ (p.defaults.assignments.get h).map (·.island) = some i then .head h
      else .unknown := by
  unfold Part.keepsSource
  cases (p.island i).onAir with
  | standby => rfl
  | unknown => rfl
  | head h => simp only [decide_eq_true_eq]

theorem clearAll_isCleared (h : HeadId) (p : Part) :
    Head.IsCleared (p.defaults.heads.get h) (p.defaults.assignments.get h) (p.head h) ((clearAll p).head h) := by
  rw [clearAll_head]
  exact headsCleared_head h p

theorem clearAll_line {p : Part} : (clearAll p).evt.attention =
    if p.init = .done then decide (p.evt.producer ≠ p.evt.consumer) else p.evt.attention := by
  have indices := clearAll_indices p
  split
  · rename_i done
    have same : (followEnds p.stoodBy).init = (clearAll p).init := clearAll_rest p .init (by simp)
    have init : (followEnds p.stoodBy).init = .done := same.trans (indices.init.trans done)
    rw [clearAll_eq, lineJudged_attention init, ← clearAll_eq, indices.producer, indices.consumer]
  · rename_i early
    exact indices.attention.resolve_right fun a => early a.1

theorem clearAll_noEnd {i : IslandId} {p : Part} (silent : ∀ h, ((clearAll p).island i).onAir ≠ .head h) :
    ((clearAll p).island i).fEnd = none := by
  have follows := clearAll_follows i p
  obtain ⟨e, is⟩ := follows.rest
  exact follows.none fun h air => silent h (by rw [is]; exact air)

theorem clearAll_fast (i : IslandId) (p : Part) : ((clearAll p).link.stations.get i).fast = true := by
  rw [clearAll_link]
  exact (stoodBy_stands p).fast i

/-- What the core of a station record says. -/
theorem Station.of_core {s t : Station} (same : s.core = t.core) : s.online = t.online ∧ s.port = t.port ∧ s.moving = t.moving ∧
    s.fault = t.fault ∧ s.misses = t.misses ∧ s.refusal = t.refusal ∧ s.countdown = t.countdown :=
  have field {α : Type} (g : Station → α) (keeps : ∀ s, g s.core = g s) : g s = g t := by rw [← keeps s, same, keeps]
  ⟨field (·.online) fun _ => rfl, field (·.port) fun _ => rfl, field (·.moving) fun _ => rfl, field (·.fault) fun _ => rfl,
    field (·.misses) fun _ => rfl, field (·.refusal) fun _ => rfl, field (·.countdown) fun _ => rfl⟩

/-- Settles O54. -/
theorem clearCommand_settled : Obligations.ClearCommand := by
  intro s running
  have ref := clearAll_ref s.part
  have heads := fun h => clearAll_isCleared h s.part
  have islands := fun i => clearAll_island i s.part
  have channels := fun k => clearAll_channel k s.part
  have noEnd := fun i => clearAll_noEnd (i := i) (p := s.part)
  have ends := fun i r => clearAll_fEnd (i := i) (p := s.part) (r := r)
  have link := clearAll_linkClears s.part
  have fast := fun i => clearAll_fast i s.part
  have moves := fun sound i => clearAll_moves (p := s.part) sound i
  have indices := clearAll_indices s.part
  have line := clearAll_line (p := s.part)
  have tells := clearAll_tells (p := s.part)
  have alarms := clearAll_alarms s.part
  have frame := clearAll_frame s.part
  have does : clearCommand s.part = (clearAll s.part, .ok) := rfl
  generalize clearAll s.part = q at *
  refine .of_commanded (f := clearCommand) rfl running does ⟨ref, fun h => ?_, fun i => ?_, fun k => ?_, fun i => ⟨noEnd i, ends i⟩,
    ⟨fun i => ?_, fun on => ?_⟩, ⟨indices.producer, indices.consumer, line⟩, fun l few => ?_, alarms, ?_⟩
  · obtain ⟨drive, fault, settings, policy, firstLock, lastRunup, measuring, assigned, frame, phase, ids, passed, outputs⟩ := heads h
    exact ⟨drive, fault, settings, policy, firstLock, lastRunup, measuring, assigned, frame, phase, ids, passed, outputs⟩
  · obtain ⟨e, island⟩ := islands i
    refine ⟨?_, ?_, ?_, ?_, ?_, ?_, ?_⟩
    all_goals rw [show ∀ u, (Part.island { q with cmd := u } i) = q.island i from fun _ => rfl, island]
    any_goals rfl
    exact keepsSource_air i s.part
  · show (q.analog.channel k).condition = none ∧ (q.analog.channel k).outCount = 0 ∧ (q.analog.channel k).inCount = 0 ∧
      (q.analog.channel k).last = (s.part.analog.channel k).last ∧ (q.analog.channel k).limits = _
    rw [channels]
    exact ⟨rfl, rfl, rfl, rfl, rfl⟩
  · show (q.link.stations.get i).fast = true ∧ (q.link.stations.get i).countdown = _ ∧ _
    have core := link.core i
    refine ⟨fast i, ?_, fun stays => ?_, fun moved => ?_, fun asked => ?_, fun sound => moves sound i⟩
    · have known : (q.link.stations.get i).core.countdown = _ := congrArg Station.countdown core
      rw [show (q.link.stations.get i).core.countdown = (q.link.stations.get i).countdown from rfl] at known
      rw [known]
      split <;> rfl
    · rw [show s.part.movesAddress i = false from stays, if_neg Bool.false_ne_true] at core
      obtain ⟨online, port, moving, fault, misses, refusal, -⟩ := Station.of_core core
      exact ⟨online, port, moving, fault, misses, refusal⟩
    · rw [show s.part.movesAddress i = true from moved, if_pos rfl] at core
      obtain ⟨online, port, moving, fault, misses, refusal, -⟩ := Station.of_core core
      exact ⟨online, port, moving, fault, misses, refusal⟩
    · refine link.asks i ?_
      rcases asked with waits | moved | due
      · exact .inl (.inr (LinkUnit.mem_hand.mpr (.inl waits)))
      · exact .inr moved
      · exact .inl (.inl due)
  · obtain ⟨line, transmit, sending, since, timer, flight⟩ := link.busy on
    refine ⟨line, transmit, sending, since, timer, fun f flies => ?_⟩
    exact flight.trans (by rw [flies]; rfl)
  · obtain ⟨emptied, ended, halted, lost⟩ := tells l few
    refine ⟨emptied, ended, halted, fun i changed => lost i ?_⟩
    obtain ⟨e, island⟩ := islands i
    cases kept : s.part.keepsSource i with
    | false => rfl
    | true =>
      refine absurd ?_ changed
      show (q.island i).onAir = _
      rw [island, kept]
      rfl
  · exact ((setRef_frame _ s.part).mono (by simp)).trans ((frame.mono (by simp)).trans (status_frame _ q |>.mono (by simp)))

end Sys2Proof.Machine
end

section
/-! PROOFS. A correction that looks at the END cue of another head (R75, R105): an end guard that nothing has set up yet is due as it is formed, and its alarm is told too. -/

namespace Sys2Proof.Machine

/-- A cue of kind `k` at frame `f`, a mark within two frames of whose place corrects. -/
def correcting (f : Int) (k : CueKind) : Cue :=
  { id := 1, frame := f, kind := k, window := some 2, correct := true, passed := false, confirm := .none }

/-- Head 1, in no plan, runs a frame past the mark of its cue; head 2 is on air at Island 1, its END cue a frame ahead, and F_end is
still to be formed. -/
def unguarded : State :=
  let p : Part := { Part.reset with mode := .running, init := .done, evt := { Part.reset.evt with writing := true } }
  let p := p.modHead .h1 fun x => { x with
    drive := .locked, pos := ⟨5, 0⟩, settings := { x.settings with sensorOffset := 3 }, cues := [correcting 7 .mark] }
  let p := p.modHead .h2 fun x => { x with drive := .unlocked, cues := [correcting 1 .ending] }
  ⟨p.modIsland .i1 fun x => { x with onAir := .head .h2 }, []⟩

theorem unguarded_tells : (unguarded.after (.cueMarkPulse 0 .h1)).evt.queue.length = 2 := by decide +kernel

/-- Refutes O29: a correction on a head in no plan has F_end formed for another head on air, and the end guard that is due by it posts
RUNOUT behind the CUE_CONFIRMED that is said to be alone. -/
theorem not_cueMarkPulse : ¬ Obligations.CueMarkPulse := by
  intro holds
  have alone : unguarded.part.uninvolved .h1 ∧ unguarded.part.listens ∧ (unguarded.part.head .h1).cues.length ≤ 5 :=
    ⟨fun i => by cases i <;> exact ⟨rfl, nofun, nofun⟩, ⟨rfl, rfl⟩, by decide⟩
  obtain ⟨-, -, matched, -⟩ := holds unguarded 0 .h1 rfl
  obtain ⟨-, -, -, -, -, back, -⟩ := ((matched (correcting 7 .mark, 1) rfl rfl rfl).2 rfl).after
  have told := (back (by decide) (by decide)).2.2 alone rfl fun i => by cases i <;> decide
  have two := unguarded_tells
  rw [told] at two
  exact absurd two (by decide)

end Sys2Proof.Machine
end

section
/-! PROOFS. A head started by another island's take (R82, R97): its END cue's estimate makes an end guard due in the step of a boundary, before the active take is looked at for good. -/

namespace Sys2Proof.Machine

/-- The take of head 1, in STARTING, from head 2 on air. -/
def startingTake : Take :=
  { Take.new 7 (.head .h1) .atField 50 none none none .auto with
    state := .starting, outgoing := some (.head .h2), effective := .atField, fCut := some 50, commitAt := some 48
    sopCue := some ⟨1, 100⟩, sop := some ⟨.h1, 100, none, .absent⟩ }

/-- Head 1 runs, unlocked, a perf before a boundary; head 2 rests on air at Island 1, a frame before its END cue, while the take of
Island 2 is about to start it. -/
def startled : State :=
  let p : Part := { Part.reset with mode := .running, init := .done, evt := { Part.reset.evt with writing := true } }
  let p := p.modHead .h1 fun x => { x with drive := .unlocked, pos := ⟨5, 3⟩, gapFrom := some 0 }
  let p := p.modHead .h2 fun x => { x with cues := [correcting 1 .ending] }
  let p := p.modIsland .i1 fun x => { x with
    onAir := .head .h2, fEnd := some ⟨.h2, 1, none, .absent⟩, takes := [startingTake] }
  ⟨p.modIsland .i2 fun x => { x with onAir := .standby, takes := [shortTake .h2] }, []⟩

theorem startled_stays : ((startled.after (.tachPulse 0 .h1 true)).head .h1).drive = .unlocked := by decide +kernel

theorem startled_ends : ((startled.after (.tachPulse 0 .h1 true)).island .i1).active = none := by decide +kernel

/-- Refutes O31: in the step of the boundary Island 2's take starts the head on air at Island 1, whose end guard is so met; the active
take ends FALLBACK, and is not there to follow the boundary's F_sop. -/
theorem not_predictionFollowsTheCadence : ¬ Obligations.PredictionFollowsTheCadence := by
  intro holds
  obtain ⟨-, -, -, -, -, -, parts⟩ := holds
  obtain ⟨-, -, -, active⟩ := parts startled 0 0 .h1 0 ⟨.h1, 100, none, .absent⟩ false
  obtain ⟨u, still, -⟩ := (active rfl .i1 startingTake rfl rfl rfl rfl (by decide) rfl (by decide) (by decide) (by decide) (by decide)
    (by decide) rfl (by decide)).after (.inr startled_stays)
  rw [startled_ends] at still
  exact absurd still nofun

end Sys2Proof.Machine
end

section
/-! PROOFS. A running head at a forward boundary (R40 to R48): the Cadence Monitor's judgement, and what the scheduler and the cue table do behind it, which leaves the head running. -/

namespace Sys2Proof.Machine

/-! ### A head that is not at rest -/

/-- From `p` to `q` head `h` has become `x`, every other head is as the scheduler leaves it, and `es` are among the events that wait. -/
structure Rolls (h : HeadId) (x : Head) (es : List Event) (p q : Part) : Prop where
  head : q.head h = x
  others : OthersSteered h p q
  frame : ChangesOnly Block.scheduling p q
  told : p.listens → Holds es q

section
variable {h : HeadId} {x : Head} {k : Nat} {es : List Event} {p q r : Part}

theorem Drives.rolls (a : Drives h x k es p q) : Rolls h x es p q where
  head := a.head
  others _ n := .inl (a.other n)
  frame := a.frame.mono (driving_scheduling h)
  told l := (a.told l).holds

theorem Rolls.scheduled (a : Rolls h x es p q) (moving : x.drive.atRest = false) (s : Scheduled q r) (told : Holds es q → Holds es r) :
    Rolls h x es p r where
  head := by
    obtain same | ⟨rest, -⟩ := s.heads h
    · exact same.trans a.head
    · rw [a.head, moving] at rest
      exact nomatch rest
  others j n := Head.steered_trans (a.others j n) (s.heads j)
  frame := a.frame.trans s.frame
  told l := told (a.told l)

theorem Rolls.modHead (a : Rolls h x es p q) (f : Head → Head) : Rolls h (f x) es p (q.modHead h f) where
  head := by rw [modHead_head, a.head]
  others j n := by rw [modHead_head_ne n]; exact a.others j n
  frame := a.frame.trans ((modHead_frame h f q).mono (by cases h <;> simp [Block.scheduling]))
  told l := a.told l

theorem Rolls.post (a : Rolls h x es p q) (moving : x.drive.atRest = false) (s : AlarmSource) (e : EventItem) :
    Rolls h x es p (post s e q) := a.scheduled moving (post_sched s e q) ((holds_drive es).post s e q)

theorem Rolls.clear (a : Rolls h x es p q) (moving : x.drive.atRest = false) (s : AlarmSource) (n : AlarmKind) (d e : Word) :
    Rolls h x es p (clearAlarm s n d e q) := a.scheduled moving (clearAlarm_sched s n d e q) ((holds_drive es).clear s n d e q)

theorem Rolls.tells (a : Rolls h x es p q) (l : p.listens) (items : List EventItem)
    (is : es = items.map fun item => ({ source := .head h, stamp := p.ref.count, item := item } : Event)) :
    q.tells (.head h) items :=
  (a.told l).tells (is.trans (by rw [a.frame .ref (by simp [Block.scheduling, Block.alarming, Block.posting])]))

/-! ### The cue table at a frame where nothing is pending -/

/-- Missed marks change confirm states alone, and are told (R70). -/
theorem Rolls.missedMarks (a : Rolls h x es p q) (moving : x.drive.atRest = false) (f : Int) :
    ∃ cs : List Cue, Rolls h { x with cues := cs } es p (missedMarkStep h f q) ∧
      ∀ d ∈ cs, ∃ c ∈ x.cues, d.frame = c.frame ∧ d.passed = c.passed := by
  have walk : ∀ (l : List Cue) (q : Part) (x : Head), Rolls h x es p q → x.drive.atRest = false →
      ∃ cs : List Cue, Rolls h { x with cues := cs } es p (l.foldl (fun q c => missMark h f c q) q) ∧
        ∀ d ∈ cs, ∃ c ∈ x.cues, d.frame = c.frame ∧ d.passed = c.passed := by
    intro l
    induction l with
    | nil => exact fun q x a _ => ⟨x.cues, a, fun d m => ⟨d, m, rfl, rfl⟩⟩
    | cons c l ih =>
      intro q x a moving
      obtain ⟨cs, rolls, from_⟩ := ih _ _ ((a.modHead fun x => { x with
        cues := updateCue c.id (fun c => { c with confirm := .unconfirmed }) x.cues }).post moving (.head h)
          (.markMissed c.id c.passed f c.frame)) moving
      refine ⟨cs, rolls, fun d m => ?_⟩
      obtain ⟨e, e_mem, frame, passed⟩ := from_ d m
      obtain ⟨b, b_mem, is⟩ := List.mem_map.1 e_mem
      refine ⟨b, b_mem, ?_⟩
      rw [frame, passed, ← is]
      split <;> exact ⟨rfl, rfl⟩
  exact walk _ q x a moving

/-- A frame where no cue is pending fires nothing (R58). -/
theorem Rolls.passes (a : Rolls h x es p q) (moving : x.drive.atRest = false) (b : Bool) (f : Int)
    (none : ∀ c ∈ x.cues, c.frame = f → c.passed = true) : passFrame h b f q = missedMarkStep h f q ∧
      ∃ cs : List Cue, Rolls h { x with cues := cs } es p (passFrame h b f q) := by
  obtain ⟨cs, rolls, from_⟩ := a.missedMarks moving f
  have quiet : ((missedMarkStep h f q).head h).cues.find? (fun c => c.frame = f ∧ ¬ c.passed) = Option.none := by
    rw [rolls.head]
    refine List.find?_eq_none.2 fun d m => ?_
    obtain ⟨c, c_mem, frame, passed⟩ := from_ d m
    simp only [decide_eq_true_eq, not_and, not_not]
    rw [frame, passed]
    exact none c c_mem
  have is : passFrame h b f q = missedMarkStep h f q := by
    unfold passFrame
    dsimp only
    rw [quiet]
  exact ⟨is, cs, is ▸ rolls⟩

/-- What follows the judgement of a boundary at a frame where no cue is pending leaves the head as judged, but for its confirm states
and the mark latch. -/
theorem Rolls.follows (a : Rolls h x es p q) (moving : x.drive.atRest = false) (unlocked : Bool) (f : Int)
    (none : ∀ c ∈ x.cues, c.frame = f → c.passed = true) :
    passFrame h false f ((tellBoundary h unlocked q).modHead h fun x => { x with mark := Option.none }) =
        missedMarkStep h f ((tellBoundary h unlocked q).modHead h fun x => { x with mark := Option.none }) ∧
      ∃ cs : List Cue, Rolls h { x with cues := cs, mark := Option.none } es p
        (settle (followEnds (passFrame h false f ((tellBoundary h unlocked q).modHead h fun x => { x with mark := Option.none })))) := by
  have told := a.scheduled moving (tellBoundary_sched h unlocked q) (tellBoundary_keeps (holds_reports es) h unlocked)
  obtain ⟨is, cs, passed⟩ := (told.modHead fun x => { x with mark := Option.none }).passes moving false f none
  exact ⟨is, cs, (passed.scheduled moving (followEnds_sched _) (reportEnds_keeps (holds_reports es))).scheduled moving (settle_sched _)
    (settle_keeps (holds_reports es))⟩

end

/-! ### The judgement -/

/-- The run of a head outside LOCKED has reached its lock count by a frame that conforms (R45). -/
def Head.locksAt (x : Head) (r : Cadence × Option Verdict) : Bool :=
  decide (r.2 = some .conforming ∨ r.2 = some .pair) && decide (x.settings.lockCount ≤ r.1.run) && decide (x.drive ≠ .locked)

/-- A frame of a head in LOCKED does not conform (R46). -/
def Head.unlocksAt (x : Head) (r : Cadence × Option Verdict) : Bool :=
  decide (x.drive = .locked) && (decide (r.2 = some (.nonconforming true)) || decide (r.2 = some (.nonconforming false)))

/-- The Cadence Monitor at a boundary: it judges, and then declares lock, loss of lock, or neither. -/
theorem cadenceBoundary_eq {h : HeadId} {p : Part} {x : Head} (head : p.head h = x) {r : Cadence × Option Verdict}
    (judged : x.cadence.boundaryAt p.ref.standard p.ref.count p.time.now = r) :
    cadenceBoundary h p =
      if x.locksAt r = true then declareLock h (p.modCadence h fun _ => r.1)
      else if x.unlocksAt r = true then
        declareUnlock h x.cadence.fields (x.cadence.expectedOf p.ref.standard) (decide (r.2 = some (.nonconforming true)))
          (p.modCadence h fun _ => r.1)
      else p.modCadence h fun _ => r.1 := by
  unfold cadenceBoundary Head.locksAt Head.unlocksAt
  rw [head]
  dsimp only
  rw [judged]
  obtain ⟨c, v⟩ := r
  dsimp only
  match v with
  | none => simp
  | some (.nonconforming true) => simp
  | some (.nonconforming false) => simp
  | some (.provisional d) => simp
  | some .conforming => simp
  | some .pair => simp

/-- A boundary keeps what the monitor holds of the start, the locks and the last run-up. -/
theorem boundaryAt_keeps (c : Cadence) (s : Standard) (count : Stamp) (t : Nat) :
    (c.boundaryAt s count t).1.firstLock = c.firstLock ∧ (c.boundaryAt s count t).1.startStamp = c.startStamp ∧
      (c.boundaryAt s count t).1.startFrame = c.startFrame ∧ (c.boundaryAt s count t).1.unlockStamp = c.unlockStamp ∧
      (c.boundaryAt s count t).1.lastRunup = c.lastRunup := by
  unfold Cadence.boundaryAt
  split <;> exact ⟨rfl, rfl, rfl, rfl, rfl⟩

section
variable {h : HeadId} {x : Head} {k : Nat} {es : List Event} {p q : Part}

/-- A running head enters another running state (R16, R36). -/
theorem Drives.enterRunning (a : Drives h x k es p q) (free : k < Config.maxEvents) {d : DriveState} (on : d.running = true) (c : Cause) :
    Drives h (x.enter d p.time.now) (k + 6) (es ++ [headStateEvent h p.ref.count x d c]) p (enterDrive h d c none q) := by
  have entered := a.enter free d c none
  rwa [if_neg (by simp [on])] at entered

/-- The run-up that the first lock of a run records (R47). -/
def Head.runupAt (x : Head) (count : Stamp) : Runup :=
  { fields := Stamp.diff count (x.cadence.startStamp.getD count), frames := x.pos.frame - x.cadence.startFrame.getD x.pos.frame }

/-- The first lock of a run (R47). -/
theorem declareLock_first (a : Drives h x 0 [] p q) (first : x.cadence.firstLock = false) :
    Drives h { x.enter .locked p.time.now with
        cadence := { x.cadence with firstLock := true, lastRunup := some (x.runupAt p.ref.count), slowStart := false } } 8
      [headStateEvent h p.ref.count x .locked .cadence,
        ⟨.head h, p.ref.count, .lock .first (some (x.runupAt p.ref.count).frames) (x.runupAt p.ref.count).fields x.pos.frame⟩] p
      (declareLock h q) := by
  have locked := (((a.enterRunning (by decide) (d := .locked) rfl .cadence).modHead fun y => { y with
    cadence := { y.cadence with firstLock := true, lastRunup := some (x.runupAt p.ref.count), slowStart := false } }).post (.head h)
      (.lock .first (some (x.runupAt p.ref.count).frames) (x.runupAt p.ref.count).fields x.pos.frame) (by decide)).clear
        (.head h) .slowStart 0 0
  unfold declareLock
  rw [a.head, a.ref]
  dsimp only
  rw [if_neg (by simp [first])]
  exact locked

/-- A relock tells the fields since the loss of lock (R48). -/
theorem declareLock_relock (a : Drives h x 0 [] p q) (first : x.cadence.firstLock = true) :
    Drives h (x.enter .locked p.time.now) 8
      [headStateEvent h p.ref.count x .locked .cadence,
        ⟨.head h, p.ref.count, .lock .relock none (Stamp.diff p.ref.count (x.cadence.unlockStamp.getD p.ref.count)) x.pos.frame⟩] p
      (declareLock h q) := by
  have locked := ((a.enterRunning (by decide) (d := .locked) rfl .cadence).post (.head h)
    (.lock .relock none (Stamp.diff p.ref.count (x.cadence.unlockStamp.getD p.ref.count)) x.pos.frame) (by decide)).clear
      (.head h) .lockLoss 0 0
  unfold declareLock
  rw [a.head, a.ref]
  dsimp only
  rw [if_pos first]
  exact locked

/-- A loss of lock (R46). -/
theorem declareUnlock_drives (a : Drives h x 0 [] p q) (m : Nat) (e : Option Nat) (u : Bool) :
    Drives h ({ x with cadence := { x.cadence with unlockStamp := some p.ref.count } }.enter .unlocked p.time.now) 9
      [headStateEvent h p.ref.count x .unlocked .cadence, ⟨.head h, p.ref.count, .unlock u m e x.pos.frame⟩] p
      (declareUnlock h m e u q) := by
  have unlocked := ((a.modHead fun y => { y with cadence := { y.cadence with unlockStamp := some p.ref.count } }).enterRunning (by decide)
    (d := .unlocked) rfl .cadence).post (.head h) (.unlock u m e x.pos.frame) (by decide)
  unfold declareUnlock
  rw [a.head, a.ref]
  dsimp only
  have either : ∀ r : Part, Drives h ({ x with cadence := { x.cadence with unlockStamp := some p.ref.count } }.enter .unlocked p.time.now) 7
      [headStateEvent h p.ref.count x .unlocked .cadence, ⟨.head h, p.ref.count, .unlock u m e x.pos.frame⟩] p r →
      Drives h ({ x with cadence := { x.cadence with unlockStamp := some p.ref.count } }.enter .unlocked p.time.now) 9
        [headStateEvent h p.ref.count x .unlocked .cadence, ⟨.head h, p.ref.count, .unlock u m e x.pos.frame⟩] p
        (if r.onAir h = true then raiseAlarm (.head h) .lockLoss 0 0 r else r) := fun r b => by
    split
    · exact b.raise _ _ _ _
    · exact ⟨b.head, b.frame, fun l => (b.told l).mono (Nat.le_add_right 7 2)⟩
  exact either _ unlocked

end

end Sys2Proof.Machine
end

section
/-! PROOFS. A loss of lock at a boundary (R46, R50): LOCK_LOSS is shown while the table has room, whatever the scheduler does behind it. -/

namespace Sys2Proof.Machine

/-! ### An alarm of a head that is not at rest -/

section
variable {s : AlarmSource} {k : AlarmKind} {r : Option AlarmEntry} {n : Nat} {p : Part}

theorem enterDrive_stands (steady : k.ofDrive = false) (h : HeadId) (d : DriveState) (c : Cause) (x : Stands s k r n p) :
    Stands s k r n (enterDrive h d c none p) := by
  unfold enterDrive
  extract_lets old entered posted alarmed lamped idled
  have before : Stands s k r n entered := x
  have alarms : Stands s k r n alarmed := before.post _ _
  have lampKept : Stands s k r n lamped := ite_keeps alarms (lampChanged_stands steady h alarms)
  have idleKept : Stands s k r n idled := ite_keeps (lampKept.of_alarms (tensionIdle_alarms h _)) lampKept
  exact ite_keeps (stopMeasuring_stands steady h idleKept) idleKept

/-- A raise while there is room leaves an entry of its pair. -/
theorem raiseAlarm_enters (room : p.alarms.entries.length ≤ n) (free : n < Config.maxAlarms) (d e : Word) :
    ∃ x, Stands s k (some x) (n + 1) (raiseAlarm s k d e p) := by
  have le : p.alarms.entries.length ≤ n + 1 := Nat.le_succ_of_le room
  have stands : ∀ {q : Part}, (q.alarms.find? s k).isSome = true → q.alarms.entries.length ≤ n + 1 → ∃ x, Stands s k (some x) (n + 1) q :=
    fun there few => (Option.isSome_iff_exists.1 there).imp fun _ is => ⟨is, few⟩
  have added : ∀ y, ∃ x, Stands s k (some x) (n + 1) (addAlarm s k y d e p) := fun y => by
    unfold addAlarm enterAlarm
    rw [if_pos (Nat.lt_of_le_of_lt room free)]
    dsimp only
    exact stands (by rw [post_alarms]; simp [AlarmTable.find?]) (by rw [post_alarms]; simpa using room)
  have held : ∀ x, p.alarms.find? s k = some x → ∃ x, Stands s k (some x) (n + 1) p := fun x there => ⟨x, there, le⟩
  have judged : ∀ {q : Part}, (∃ x, Stands s k (some x) (n + 1) q) → ∃ x, Stands s k (some x) (n + 1) (judgeHorn q) := fun there => there
  unfold raiseAlarm
  refine judged ?_
  split
  · exact added _
  · rename_i x _ there
    exact (held x there).imp fun _ y => y.post _ _
  · exact added _
  · rename_i x _ there
    obtain ⟨mem, source, kind⟩ := AlarmTable.find?_mem there
    split
    · refine stands ?_ (by rw [post_alarms]; simpa [AlarmTable.setState] using le)
      rw [post_alarms]
      simp only [AlarmTable.find?, AlarmTable.setState, List.find?_isSome, List.mem_map]
      exact ⟨_, ⟨x, mem, rfl⟩, by simp [source, kind]⟩
    · exact held x there
    · exact held x there

/-- A start of another head changes no alarm of this one. -/
theorem startDrive_stands_other {h j : HeadId} (other : j ≠ h) (c : Cause) (x : Stands (.head h) k r n p) :
    Stands (.head h) k r n (startDrive j c p) := by
  have pair : ∀ b, (AlarmSource.head h, k) ≠ (.head j, b) := fun b same => other (by simpa using (congrArg Prod.fst same).symm)
  have lamp : ∀ {q : Part}, Stands (.head h) k r n q → Stands (.head h) k r n (lampChanged j q) := fun {q} y => by
    have set : ∀ a, Stands (.head h) k r n { q with analog := a } := fun _ => y
    unfold lampChanged
    split
    · exact y
    · dsimp only
      split
      · exact (set _).clear (pair _) 0 0
      · exact set _
  have stop : ∀ {q : Part}, Stands (.head h) k r n q → Stands (.head h) k r n (stopMeasuring j q) := fun {q} y => by
    have noted : Stands (.head h) k r n (q.modCadence j Cadence.stopped) := y
    exact (noted.clear (pair _) 0 0).clear (pair _) 0 0
  unfold startDrive enterDrive
  extract_lets frame old entered posted alarmed lamped idled
  have before : Stands (.head h) k r n entered := x
  have alarms : Stands (.head h) k r n alarmed := before.post _ _
  have lampKept : Stands (.head h) k r n lamped := ite_keeps alarms (lamp alarms)
  have idleKept : Stands (.head h) k r n idled := ite_keeps (lampKept.of_alarms (tensionIdle_alarms j _)) lampKept
  exact ite_keeps (stop idleKept) idleKept

end

/-- The entry of an alarm of head `h`, which is not at rest. -/
structure Warned (h : HeadId) (k : AlarmKind) (r : Option AlarmEntry) (n : Nat) (p : Part) : Prop where
  moving : (p.head h).drive.atRest = false
  stands : Stands (.head h) k r n p

section
variable {h : HeadId} {k : AlarmKind} {r : Option AlarmEntry} {n : Nat} {p q : Part}

theorem Warned.of_same (a : Warned h k r n p) (head : (q.head h).drive = (p.head h).drive) (alarms : q.alarms = p.alarms) : Warned h k r n q :=
  ⟨by rw [head]; exact a.moving, a.stands.of_alarms alarms⟩

theorem warned_takes (i : IslandId) : TakesKeep i (Warned h k r n) where
  post s e p a := a.of_same (by rw [post_head]) (post_alarms s e p)
  front j f t p _ _ a := a.of_same (by rw [modFront_head]) rfl
  preds j _ f p _ _ a := a.of_same (by rw [mapPreds_head]) rfl
  start j _ p _ rest a := by
    have other : j ≠ h := fun same => by
      subst same
      rw [a.moving] at rest
      exact nomatch rest
    exact ⟨by rw [startDrive_head_ne other.symm]; exact a.moving, startDrive_stands_other other .scheduler a.stands⟩
  commit o l p a := a.of_same (by rw [commitTake_head])
    (commitTake_frame i o l p .alarms (by simp [Block.committing, Block.linking, Block.posting])).symm

theorem Warned.mapPreds (a : Warned h k r n p) (j : HeadId) (f : PredKind → Pred → Pred) : Warned h k r n (mapPreds j f p) :=
  a.of_same (by rw [mapPreds_head]) rfl

theorem Warned.modHead (a : Warned h k r n p) (f : Head → Head) (drive : ∀ x, (f x).drive = x.drive) : Warned h k r n (p.modHead h f) :=
  a.of_same (by rw [modHead_head, drive]) rfl

theorem Warned.settleTakes (a : Warned h k r n p) : Warned h k r n (settleTakes p) := settleTakes_takes warned_takes a

theorem Warned.missedMarks (a : Warned h k r n p) (f : Int) : Warned h k r n (missedMarkStep h f p) :=
  foldl_keeps (fun q (c : Cue) (b : Warned h k r n q) => by
    have noted := b.modHead (fun x => { x with cues := updateCue c.id (fun c => { c with confirm := .unconfirmed }) x.cues }) fun _ => rfl
    exact noted.of_same (by rw [missMark, post_head]) (post_alarms ..)) _ a

theorem Warned.followEnds (a : Warned h k r n p) : Warned h k r n (followEnds p) := a.of_same rfl rfl

/-- The alarm behind the boundary, and behind the end of COUNT_LIMIT. -/
theorem Warned.follows (a : Warned h k r n p) (free : n + 1 < Config.maxAlarms) (unlocked : Bool) (f : Int)
    (quiet : passFrame h false f ((tellBoundary h unlocked p).modHead h fun x => { x with mark := none }) =
      missedMarkStep h f ((tellBoundary h unlocked p).modHead h fun x => { x with mark := none })) :
    Stands (.head h) k r (n + 2)
      (settle (Machine.followEnds (passFrame h false f ((tellBoundary h unlocked p).modHead h fun x => { x with mark := none })))) := by
  have told : Warned h k r n (tellBoundary h unlocked p) := (a.mapPreds h (Pred.atBoundary p unlocked)).settleTakes
  have passed := (told.modHead (fun x => { x with mark := none }) fun _ => rfl).missedMarks f
  rw [← quiet] at passed
  exact meetGuards_stands passed.followEnds.settleTakes.stands free

end

end Sys2Proof.Machine
end

section
/-! PROOFS. A forward boundary of a running head (R18, R36, R40 to R51): the perf that makes it, and lock, loss of lock or neither. -/

namespace Sys2Proof.Machine

/-! ### A counted perf -/

/-- A head a perf on (R18, R26, R27). -/
def Head.counted (x : Head) (now : Nat) (forward : Bool) : Head :=
  { x with pos := x.pos.perf x.settings.gauge forward, gapFrom := x.gapFrom.map fun _ => now, settleFrom := x.settleFrom.map fun _ => now }

/-- COUNT_LIMIT of head `h`, which stood as `x` before the perf, ends if it was that of the other direction (R19). -/
def limitLeft (h : HeadId) (forward : Bool) (x : Head) (p : Part) : Part :=
  if x.countLimit = some (sideOf !forward) then endLimit h p else p

section
variable {h : HeadId} {p : Part} {x : Head} (head : p.head h = x) {forward : Bool}
include head

/-- A pulse that is counted: a boundary is reported, or a parked head that is lost; then the leg is followed (R18 to R21, R64). -/
theorem takeTach_counted (away : x.pos ≠ (sideOf forward).position x.settings.gauge) :
    ∃ q, Drives h (x.counted p.time.now forward) 0 [] p q ∧ ChangesOnly [.head h] p q ∧
      takeTach h forward p = limitLeft h forward x (followLeg h
        (if (x.pos.perf x.settings.gauge forward).frame ≠ x.pos.frame then reportBoundary h forward (loseParked h q)
          else if x.drive = .parked then settle (loseParked h q) else loseParked h q)) := by
  subst head
  have timed := ((Drives.refl h p).modHead fun x => { x with
    gapFrom := x.gapFrom.map fun _ => p.time.now, settleFrom := x.settleFrom.map fun _ => p.time.now })
  refine ⟨_, timed.modHead fun y => { y with pos := (p.head h).pos.perf (p.head h).settings.gauge forward },
    (modHead_frame h _ p).trans (modHead_frame h _ _), ?_⟩
  unfold takeTach
  dsimp only
  rw [timed.head]
  dsimp only
  rw [if_neg away]
  unfold countedPerf
  rw [timed.head]
  rfl

omit head

theorem followLeg_still (still : (p.head h).drive.cueing = false) : followLeg h p = p := by
  unfold followLeg
  dsimp only
  split
  · rfl
  · exact if_pos (by rw [still]; exact Bool.false_ne_true)

theorem loseParked_other (other : (p.head h).drive ≠ .parked) : loseParked h p = p := by
  unfold loseParked
  dsimp only
  split
  · exact absurd ‹_› other
  · exact absurd ‹_› other
  · rfl

theorem DriveState.running_moving {d : DriveState} (running : d.running = true) : d.atRest = false ∧ d.cueing = false ∧ d ≠ .parked := by
  cases d with
  | runup | locked | unlocked => exact ⟨rfl, rfl, nofun⟩
  | stopped | parked | cueFast | cueInch | settling | stopping | fault => simp [DriveState.running] at running

end

section
variable {h : HeadId} {x : Head} {es : List Event} {p q : Part}

theorem Rolls.limitLeft (a : Rolls h x es p q) (moving : x.drive.atRest = false) (forward : Bool) (y : Head) :
    Rolls h { x with countLimit := if y.countLimit = some (sideOf !forward) then none else x.countLimit } es p
      (limitLeft h forward y q) := by
  unfold Machine.limitLeft
  split
  · exact (a.modHead fun x => { x with countLimit := none }).clear moving (.head h) .countLimit 0 0
  · exact a

theorem limitLeft_stands {r : Option AlarmEntry} {n : Nat} {k : AlarmKind} (other : k ≠ .countLimit) (a : Stands (.head h) k r n q)
    (forward : Bool) (y : Head) : Stands (.head h) k r n (limitLeft h forward y q) := by
  unfold Machine.limitLeft
  split
  · have noted : Stands (.head h) k r n (q.modHead h fun x => { x with countLimit := none }) := a
    exact noted.clear (fun same => other (by simpa using same)) 0 0
  · exact a

end

/-! ### A boundary in a running state -/

section
variable {h : HeadId} {p : Part} {x : Head} (head : p.head h = x)
include head

/-- The perf of a forward boundary of a running head: the monitor's judgement, and what follows it. -/
theorem takeTach_boundary (running : x.drive.running = true) (full : x.settings.gauge.perfs ≤ x.pos.phase + 1) (below : x.pos.frame < 999999) :
    ∃ q, Drives h (x.counted p.time.now true) 0 [] p q ∧ q.alarms = p.alarms ∧ (x.counted p.time.now true).pos = ⟨x.pos.frame + 1, 0⟩ ∧
      takeTach h true p = limitLeft h true x (followLeg h (runningBoundary h q)) := by
  obtain ⟨moving, uncued, unparked⟩ := DriveState.running_moving running
  have next : x.pos.perf x.settings.gauge true = ⟨x.pos.frame + 1, 0⟩ := by rw [Position.perf, if_pos rfl, if_pos full]
  obtain ⟨q, drives, same, is⟩ := takeTach_counted head (forward := true) fun edge => by
    rw [edge] at below
    exact absurd below (Int.lt_irrefl 999999)
  refine ⟨q, drives, (same .alarms (by simp)).symm, next, ?_⟩
  rw [is, next, if_pos (show x.pos.frame + 1 ≠ x.pos.frame by omega), loseParked_other (by rw [drives.head]; exact unparked), reportBoundary,
    if_pos rfl, if_pos (by rw [drives.head]; exact running)]

end

section
variable {h : HeadId} {p q : Part} {x z : Head} {k : Nat} {es : List Event}

/-- What a boundary leaves at a frame where no cue is pending, once the monitor has judged it. -/
theorem boundary_follows (judged : Drives h z k es p (cadenceBoundary h q)) (running : z.drive.running = true) (f : Int)
    (quiet : ∀ c ∈ z.cues, c.frame = f → c.passed = true) (place : (q.head h).pos.frame = f) (y : Head) :
    ∃ cs m, Rolls h { z with cues := cs, mark := none, countLimit := m } es p (limitLeft h true y (followLeg h (runningBoundary h q))) ∧
      ∀ {a r n}, a ≠ .countLimit → n + 1 < Config.maxAlarms → Stands (.head h) a r n (cadenceBoundary h q) →
        Stands (.head h) a r (n + 2) (limitLeft h true y (followLeg h (runningBoundary h q))) := by
  obtain ⟨moving, uncued, -⟩ := DriveState.running_moving running
  have boundary : ∃ u, runningBoundary h q = settle (followEnds (passFrame h false f
      ((tellBoundary h u (cadenceBoundary h q)).modHead h fun x => { x with mark := none }))) := by
    unfold runningBoundary
    rw [place]
    exact ⟨_, rfl⟩
  obtain ⟨u, is⟩ := boundary
  obtain ⟨silent, cs, rolls⟩ := judged.rolls.follows moving u f quiet
  rw [← is] at rolls
  have leg : followLeg h (runningBoundary h q) = runningBoundary h q := followLeg_still (by rw [rolls.head]; exact uncued)
  rw [leg]
  refine ⟨cs, _, rolls.limitLeft moving true y, fun {a r n} other free stands => limitLeft_stands other ?_ true y⟩
  rw [is]
  exact Warned.follows ⟨by rw [judged.head]; exact moving, stands⟩ free u f silent

end

/-! ### The judgement of the boundary, and its alarm -/

/-- What the monitor's judgement `r` of a boundary leaves of a head that reached it as `y`: its drive state and its records, and what is
told of a lock or of a loss of lock (R45 to R48). -/
structure Head.Judged (h : HeadId) (n : Stamp) (e : Option Nat) (y : Head) (r : Cadence × Option Verdict) (z : Head) (es : List Event) : Prop where
  running : z.drive.running = true
  cues : z.cues = y.cues
  place : z.pos = y.pos ∧ z.settings = y.settings
  stamps : z.cadence.boundary = r.1.boundary ∧ z.cadence.fields = r.1.fields ∧ z.cadence.speed = r.1.speed ∧ z.cadence.lastTime = r.1.lastTime
  record : z.cadence.run = r.1.run ∧ z.cadence.phase = r.1.phase ∧ z.cadence.provisional = r.1.provisional
  locks : y.locksAt r = true → z.drive = .locked ∧ z.cadence.firstLock = true ∧
    (y.cadence.firstLock = false → z.cadence.lastRunup = some (y.runupAt n) ∧ es = [headStateEvent h n y .locked .cadence,
      ⟨.head h, n, .lock .first (some (y.runupAt n).frames) (y.runupAt n).fields y.pos.frame⟩]) ∧
    (y.cadence.firstLock = true → z.cadence.lastRunup = y.cadence.lastRunup ∧ es = [headStateEvent h n y .locked .cadence,
      ⟨.head h, n, .lock .relock none (Stamp.diff n (y.cadence.unlockStamp.getD n)) y.pos.frame⟩])
  unlocks : y.unlocksAt r = true → z.drive = .unlocked ∧ z.cadence.unlockStamp = some n ∧ es = [headStateEvent h n y .unlocked .cadence,
    ⟨.head h, n, .unlock (decide (r.2 = some (.nonconforming true))) y.cadence.fields e y.pos.frame⟩]
  stays : y.locksAt r = false → y.unlocksAt r = false → z.drive = y.drive ∧ z.cadence = r.1

theorem Head.unlocksAt_not_locks {y : Head} {r : Cadence × Option Verdict} (unlocks : y.unlocksAt r = true) : y.locksAt r = false := by
  simp only [Head.unlocksAt, Bool.and_eq_true, decide_eq_true_eq] at unlocks
  simp [Head.locksAt, unlocks.1]

theorem cadenceBoundary_judges {h : HeadId} {p q : Part} {y : Head} (a : Drives h y 0 [] p q) (running : y.drive.running = true)
    {r : Cadence × Option Verdict} (judged : y.cadence.boundaryAt p.ref.standard p.ref.count p.time.now = r) :
    ∃ z k es, Drives h z k es p (cadenceBoundary h q) ∧ Head.Judged h p.ref.count (y.cadence.expectedOf p.ref.standard) y r z es := by
  obtain ⟨first, start, frame, unlock, runup⟩ : r.1.firstLock = y.cadence.firstLock ∧ r.1.startStamp = y.cadence.startStamp ∧
      r.1.startFrame = y.cadence.startFrame ∧ r.1.unlockStamp = y.cadence.unlockStamp ∧ r.1.lastRunup = y.cadence.lastRunup := by
    rw [← judged]
    exact boundaryAt_keeps _ _ _ _
  have noted := a.modHead fun y => { y with cadence := r.1 }
  have is := cadenceBoundary_eq a.head (r := r) (by rw [a.ref, a.now]; exact judged)
  rw [a.ref] at is
  cases locks : y.locksAt r with
  | true =>
    have no : y.unlocksAt r = false := Bool.eq_false_iff.2 fun unlocks => by
      rw [Head.unlocksAt_not_locks unlocks] at locks
      exact nomatch locks
    rw [is, if_pos locks]
    have reached : ({ y with cadence := r.1 } : Head).runupAt p.ref.count = y.runupAt p.ref.count := by
      unfold Head.runupAt
      dsimp only
      rw [start, frame]
    cases fresh : y.cadence.firstLock with
    | false =>
      have locked := declareLock_first noted (first.trans fresh)
      rw [reached] at locked
      refine ⟨_, _, _, locked, rfl, rfl, ⟨rfl, rfl⟩, ⟨rfl, rfl, rfl, rfl⟩, ⟨rfl, rfl, rfl⟩, fun _ => ⟨rfl, rfl, fun _ => ⟨rfl, rfl⟩,
        fun yes => ?_⟩, fun yes => ?_, fun yes => ?_⟩
      · exact nomatch fresh.symm.trans yes
      · exact nomatch no.symm.trans yes
      · exact nomatch locks.symm.trans yes
    | true =>
      have locked := declareLock_relock noted (first.trans fresh)
      dsimp only at locked
      rw [unlock] at locked
      refine ⟨_, _, _, locked, rfl, rfl, ⟨rfl, rfl⟩, ⟨rfl, rfl, rfl, rfl⟩, ⟨rfl, rfl, rfl⟩, fun _ => ⟨rfl, first.trans fresh, fun yes => ?_,
        fun _ => ⟨runup, rfl⟩⟩, fun yes => ?_, fun yes => ?_⟩
      · exact nomatch fresh.symm.trans yes
      · exact nomatch no.symm.trans yes
      · exact nomatch locks.symm.trans yes
  | false =>
    rw [is, if_neg (by rw [locks]; exact Bool.false_ne_true)]
    cases unlocks : y.unlocksAt r with
    | true =>
      rw [if_pos rfl]
      exact ⟨_, _, _, declareUnlock_drives noted _ _ _, rfl, rfl, ⟨rfl, rfl⟩, ⟨rfl, rfl, rfl, rfl⟩, ⟨rfl, rfl, rfl⟩,
        fun yes => (nomatch locks.symm.trans yes), fun _ => ⟨rfl, rfl, rfl⟩, fun _ yes => (nomatch unlocks.symm.trans yes)⟩
    | false =>
      rw [if_neg Bool.false_ne_true]
      exact ⟨_, _, _, noted, running, rfl, ⟨rfl, rfl⟩, ⟨rfl, rfl, rfl, rfl⟩, ⟨rfl, rfl, rfl⟩,
        fun yes => (nomatch locks.symm.trans yes), fun yes => (nomatch unlocks.symm.trans yes), fun _ _ => ⟨rfl, rfl⟩⟩

/-- LOCK_LOSS of a head on air enters the table while that has room (R50). -/
theorem cadenceBoundary_warns {h : HeadId} {q : Part} {y : Head} (head : q.head h = y)
    (unlocks : y.unlocksAt (y.cadence.boundaryAt q.ref.standard q.ref.count q.time.now) = true) {i : IslandId}
    (air : (q.island i).onAir = .head h) (room : q.alarms.entries.length ≤ 20) :
    ∃ e, Stands (.head h) .lockLoss (some e) 21 (cadenceBoundary h q) := by
  rw [cadenceBoundary_eq head rfl, if_neg (by rw [Head.unlocksAt_not_locks unlocks]; exact Bool.false_ne_true), if_pos unlocks]
  generalize (y.cadence.boundaryAt q.ref.standard q.ref.count q.time.now) = r
  have noted : Stands (.head h) .countLimit (q.alarms.find? (.head h) .countLimit) 20
      ((q.modCadence h fun _ => r.1).modCadence h fun c => { c with unlockStamp := some (q.modCadence h fun _ => r.1).ref.count }) := ⟨rfl, room⟩
  have same := fun (p : Part) (e : EventItem) => (post_island (.head h) e (enterDrive h .unlocked .cadence none p) i).trans
    (enterDrive_frame h .unlocked .cadence none p (.island i) (by simp [Block.driving, Block.alarming, Block.posting])).symm
  have entered := fun e => (enterDrive_stands rfl h .unlocked .cadence noted).post (.head h) e
  have onAir : ∀ p : Part, p.island i = q.island i → p.onAir h = true := fun p is => by
    rw [← is] at air
    unfold Part.onAir
    cases i with
    | i1 => rw [decide_eq_true (show p.islands.i1.onAir = .head h from air), Bool.true_or]
    | i2 => rw [decide_eq_true (show p.islands.i2.onAir = .head h from air), Bool.or_true]
  unfold declareUnlock
  dsimp only
  rw [if_pos (onAir _ (by rw [same]; rfl))]
  exact raiseAlarm_enters (entered _).2 (by decide) 0 0

/-- Settles O26: the judgement of the boundary, and what the scheduler and the cue table, where nothing is pending, leave of it. -/
theorem boundaryLocksAndUnlocks : Obligations.BoundaryLocksAndUnlocks := by
  intro s dt h running x c t count r locks unlocks on full below quiet
  have head : (elapse dt s.part).head h = x := elapse_head dt s.part h
  obtain ⟨q, drives, alarms, place, is⟩ := takeTach_boundary head on full below
  obtain ⟨z, k, es, does, judged⟩ := cadenceBoundary_judges drives on (r := r) (by rw [elapse_ref, elapse_now]; rfl)
  obtain ⟨cs, m, rolls, warns⟩ := boundary_follows does judged.running (x.pos.frame + 1)
    (by rw [judged.cues]; exact fun d mem frame => quiet d mem frame) (by rw [drives.head, place]) x
  obtain ⟨boundary, fields, lastTime, speed⟩ := boundaryAt_stamps c s.part.ref.standard count t
  obtain ⟨zb, zf, zs, zl⟩ := judged.stamps
  obtain ⟨run, phase, provisional⟩ := judged.record
  rw [elapse_ref] at judged
  refine .of_event (f := takeTach h true) rfl running ?_
  rw [is]
  generalize limitLeft h true x (followLeg h (runningBoundary h q)) = b at rolls warns
  have tells : ∀ (l : s.part.listens) (items : List EventItem),
      es = (items.map fun item => ({ source := .head h, stamp := count, item := item } : Event)) → b.tells (.head h) items :=
    fun l items its => rolls.tells (elapse_listens l) items (by rw [its, elapse_ref])
  rw [rolls.head]
  refine ⟨judged.place.1.trans place, judged.place.2, zb.trans boundary, zf.trans fields, run, phase, provisional, zs, zl.trans lastTime,
    fun yes => ?locks, fun yes => ?unlocks, fun no neither => judged.stays no neither, fun j n => elapse_head dt s.part j ▸ rolls.others j n,
    (rolls.frame.mono (List.subset_cons_self _ _)).elapsed (List.mem_cons_self ..)⟩
  case locks =>
    obtain ⟨locked, set, first, relock⟩ := judged.locks yes
    refine ⟨locked, set, fun fresh b start f frame => ?_, fun again => ⟨(relock again).1, fun b since l => ?_⟩⟩
    · have runup : (x.counted (elapse dt s.part).time.now true).runupAt s.part.ref.count = ⟨(count - b).toInt, x.pos.frame + 1 - f⟩ := by
        unfold Head.runupAt
        rw [place, show (x.counted (elapse dt s.part).time.now true).cadence = c from rfl, start, frame]
        rfl
      obtain ⟨last, told⟩ := first fresh
      rw [runup] at last told
      refine ⟨last, fun l => tells l _ (told.trans ?_)⟩
      rw [headStateEvent, place]
      rfl
    · refine tells l _ ((relock again).2.trans ?_)
      rw [headStateEvent, place, show (x.counted (elapse dt s.part).time.now true).cadence = c from rfl, since]
      rfl
  case unlocks =>
    obtain ⟨unlocked, stamp, told⟩ := judged.unlocks yes
    have was : x.drive = .locked := by
      have both := (Bool.and_eq_true_iff.1 yes).1
      exact of_decide_eq_true both
    have expected : (x.counted (elapse dt s.part).time.now true).cadence.expectedOf s.part.ref.standard =
        if s.part.ref.standard = .f50 then some 2 else c.phase := by
      unfold Cadence.expectedOf
      cases s.part.ref.standard <;> rfl
    refine ⟨unlocked, stamp, fun l => tells l _ (told.trans ?_), fun room i air => ?_⟩
    · rw [headStateEvent, place, expected, show (x.counted (elapse dt s.part).time.now true).drive = .locked from was]
      rfl
    · obtain ⟨e, shown⟩ := cadenceBoundary_warns (q := q) (i := i) drives.head (by rw [drives.ref, drives.now, elapse_ref, elapse_now]; exact yes)
        (by rw [drives.island, elapse_island]; exact air) (by rw [alarms, elapse_alarms]; exact room)
      have stands := (warns (a := .lockLoss) nofun (by decide) shown).1
      rw [AlarmTable.shows, stands]
      exact Bool.or_true _

end Sys2Proof.Machine
end

section
/-! PROOFS. How many events two looks at both takes and then the end guards can post (R81, R97, R98, R101, R105, R181): each take starts its head or is judged, and each island commits once. -/

namespace Sys2Proof.Machine

/-! ### What an island may still tell of -/

/-- A take that is judged READY no more. -/
def Take.shut (t : Take) : Prop := t.state = .held ∨ t.state = .committed

/-- The start of its head that an active take may still tell of: HEAD_STATE and the end of a lamp alarm (R97). -/
def Take.starts (p : Part) (t : Take) : Nat :=
  match t.head? with
  | some h => if (p.head h).drive.atRest then 2 else 0
  | none => 0

/-- The judgements left to an active take that can be READY, `c` of them (R98). -/
def Take.verdicts (c : Nat) (p : Part) (t : Take) : Nat :=
  if t.state = .held ∨ t.state = .committed then 0
  else match t.head? with
    | some h => if (p.head h).drive = .locked then c else 0
    | none => c

def Take.toll (c : Nat) (p : Part) (t : Take) : Nat := t.shorts p + t.starts p + t.verdicts c p

/-- The one commit an island may still make in a step, by its take or by its end guard: TAKE_COMMIT or TAKE_END, an alarm that evicts
another, and MOVE_LATE (R101, R105, R125). -/
def Part.moves (p : Part) (i : IslandId) : Nat := if p.awaits i then 0 else 4

def Part.toll (c : IslandId → Nat) (p : Part) (i : IslandId) : Nat := p.due (Take.toll (c i)) i + p.moves i

/-- The events that wait, with those both islands may still tell of, number at most `k`. -/
structure Bears (c : IslandId → Nat) (k : Nat) (p : Part) : Prop where
  few : p.evt.queue.length + p.toll c .i1 + p.toll c .i2 ≤ k

/-- A judgement of island `j`'s take spent. -/
def spend (j : IslandId) (c : IslandId → Nat) (i : IslandId) : Nat := if i = j then c i - 1 else c i

theorem Take.toll_le (p : Part) (t : Take) : t.toll 3 p ≤ 3 := by
  unfold Take.toll Take.shorts Take.starts Take.verdicts
  cases t.head? with
  | none => dsimp only; split <;> decide
  | some h =>
    dsimp only
    by_cases rest : (p.head h).drive.atRest = true
    · have other : (p.head h).drive ≠ .locked := fun is => by
        rw [is] at rest
        exact nomatch rest
      rw [if_pos rest, if_neg other, ite_self]
      split <;> decide
    · rw [if_neg rest, if_neg fun is => rest is.1]
      split
      · decide
      · split <;> decide

theorem Take.verdicts_mono {b c : Nat} (le : b ≤ c) (p : Part) (t : Take) : t.verdicts b p ≤ t.verdicts c p := by
  unfold Take.verdicts
  split
  · exact Nat.le_refl 0
  · split
    · split
      · exact le
      · exact Nat.le_refl 0
    · exact le

theorem Take.verdicts_shut {c : Nat} {p : Part} {t : Take} (shut : t.shut) : t.verdicts c p = 0 := if_pos shut

theorem Take.toll_mono {b c : Nat} (le : b ≤ c) (p : Part) (t : Take) : t.toll b p ≤ t.toll c p :=
  Nat.add_le_add_left (t.verdicts_mono le p) _

theorem Take.toll_of_heads {c : Nat} {p q : Part} (same : ∀ h, q.head h = p.head h) (t : Take) : t.toll c q = t.toll c p := by
  unfold Take.toll Take.starts Take.verdicts
  rw [Take.shorts_of_heads same]
  simp only [same]

/-- A take that has kept its source, its SOP cue and its short-leader mark, and has not been opened again. -/
theorem Take.toll_kept {b c : Nat} (p : Part) {t u : Take} (incoming : u.incoming = t.incoming) (sopCue : u.sopCue = t.sopCue)
    (short : u.short = t.short) (left : u.shut ∨ b ≤ c ∧ (t.shut → u.shut)) : u.toll b p ≤ t.toll c p := by
  have head : u.head? = t.head? := by rw [Take.head?, incoming]; rfl
  have shorts : u.shorts p = t.shorts p := by
    unfold Take.shorts Take.leader
    rw [head, sopCue, short]
  have starts : u.starts p = t.starts p := by
    unfold Take.starts
    rw [head]
  have verdicts : u.verdicts b p ≤ t.verdicts c p := by
    by_cases shut : u.shut
    · rw [Take.verdicts_shut shut]
      exact Nat.zero_le _
    · obtain ⟨le, keeps⟩ := left.resolve_left shut
      have open_ : t.verdicts c p = u.verdicts c p := by
        unfold Take.verdicts
        rw [head, if_neg (show ¬ (t.state = .held ∨ t.state = .committed) from fun is => shut (keeps is)),
        if_neg (show ¬ (u.state = .held ∨ u.state = .committed) from shut)]
      rw [open_]
      exact u.verdicts_mono le p
  unfold Take.toll
  omega

section
variable {i j : IslandId} {b c : IslandId → Nat} {k : Nat} {p q : Part} {t : Take}

theorem Bears.queued (a : Bears c k p) : Few k p := ⟨by have := a.few; omega⟩

/-- What is posted is paid by what the islands no longer owe. -/
theorem Bears.pays (a : Bears c k p) (le1 : q.toll b .i1 ≤ p.toll c .i1) (le2 : q.toll b .i2 ≤ p.toll c .i2) {m : Nat}
    (told : q.evt.queue.length ≤ p.evt.queue.length + m) (paid : q.toll b j + m ≤ p.toll c j) : Bears b k q := by
  have := a.few
  refine ⟨?_⟩
  cases j <;> omega

theorem Bears.still (a : Bears c k p) (le : ∀ i, q.toll b i ≤ p.toll c i) (evt : q.evt = p.evt) : Bears b k q :=
  a.pays (j := .i1) (m := 0) (le .i1) (le .i2) (by rw [evt]; exact Nat.le_refl _) (le .i1)

theorem Part.moves_same (same : (q.island i).confirm = (p.island i).confirm) : q.moves i = p.moves i := by
  unfold Part.moves Part.awaits
  rw [same]

theorem Part.toll_le {n : Nat} (due : q.due (Take.toll (b i)) i + n ≤ p.due (Take.toll (c i)) i)
    (same : (q.island i).confirm = (p.island i).confirm) : q.toll b i + n ≤ p.toll c i := by
  unfold Part.toll
  rw [Part.moves_same same]
  omega

theorem Part.due_le_due {f g : Part → Take → Nat} (le : ∀ t, f q t ≤ g p t) (active : (q.island i).active = (p.island i).active) :
    q.due f i ≤ p.due g i := by
  unfold Part.due
  rw [active]
  cases (p.island i).active with
  | none => exact Nat.le_refl _
  | some t => exact le t

theorem Part.toll_mono (le : b i ≤ c i) (p : Part) : p.toll b i ≤ p.toll c i :=
  Nat.add_le_add_right (Part.due_le_due (fun t => t.toll_mono le p) rfl) _

theorem Bears.loosen (a : Bears b k p) (le : ∀ i, c i ≤ b i) : Bears c k p := a.still (fun i => Part.toll_mono (le i) p) rfl

theorem spend_le (j : IslandId) (c : IslandId → Nat) (i : IslandId) : spend j c i ≤ c i := by
  unfold spend
  split
  · exact Nat.sub_le _ _
  · exact Nat.le_refl _

theorem spend_own (j : IslandId) (c : IslandId → Nat) : spend j c j = c j - 1 := if_pos rfl

theorem spend_other {i j : IslandId} (n : i ≠ j) (c : IslandId → Nat) : spend j c i = c i := if_neg n

theorem Bears.spent (a : Bears c k p) (j : IslandId) : Bears (spend j c) k p := a.loosen (spend_le j c)

/-! ### The operations on a take -/

theorem modFront_confirm (j : IslandId) (g : Take → Take) (p : Part) (i : IslandId) :
    ((p.modFront j g).island i).confirm = (p.island i).confirm := by
  by_cases n : i = j
  · subst n
    rw [modFront_island]
    unfold Island.modFront
    split <;> rfl
  · rw [modFront_island_ne n]

/-- What the islands owe once the front take of one of them has changed. -/
theorem Part.toll_front {g : Take → Take} (active : (p.island j).active = some t) (past : (g t).state ≠ .queued) {n : Nat}
    (off : ∀ i, i ≠ j → b i ≤ c i) (le : (g t).toll (b j) p + n ≤ t.toll (c j) p) :
    (∀ i, (p.modFront j g).toll b i ≤ p.toll c i) ∧ (p.modFront j g).toll b j + n ≤ p.toll c j := by
  have heads := modFront_head j g p
  have own : (p.modFront j g).toll b j + n ≤ p.toll c j := by
    refine Part.toll_le ?_ (modFront_confirm j g p j)
    rw [Part.due_same active past, Part.due_active active, Take.toll_of_heads heads]
    exact le
  refine ⟨fun i => ?_, own⟩
  by_cases is : i = j
  · subst is
    omega
  · refine Part.toll_le (n := 0) ?_ (modFront_confirm j g p i)
    rw [Part.due_other is g (Take.toll_of_heads heads)]
    exact Part.due_le_due (fun t => t.toll_mono (off i is) p) rfl

theorem Bears.modFront (a : Bears c k p) {g : Take → Take} (active : (p.island j).active = some t) (past : (g t).state ≠ .queued)
    (off : ∀ i, i ≠ j → b i ≤ c i) (le : (g t).toll (b j) p ≤ t.toll (c j) p) : Bears b k (p.modFront j g) :=
  a.still (Part.toll_front active past (n := 0) off le).1 rfl

/-- A change of the front take that keeps its source, its SOP cue and its short-leader mark, and does not open it again. -/
theorem Bears.front (a : Bears c k p) {g : Take → Take} (active : (p.island j).active = some t) (past : (g t).state ≠ .queued)
    (incoming : (g t).incoming = t.incoming) (sopCue : (g t).sopCue = t.sopCue) (short : (g t).short = t.short)
    (shut : t.shut → (g t).shut) : Bears c k (p.modFront j g) :=
  a.modFront active past (fun _ _ => Nat.le_refl _) (Take.toll_kept p incoming sopCue short (.inr ⟨Nat.le_refl _, shut⟩))

theorem Part.toll_post (s : AlarmSource) (e : EventItem) (p : Part) (i : IslandId) : (post s e p).toll c i = p.toll c i := by
  unfold Part.toll
  rw [Part.due_congr (Take.toll_of_heads (post_head s e p)) (by rw [post_island]),
    Part.moves_same (q := post s e p) (p := p) (by rw [post_island])]

/-- One event is paid by what the front take no longer owes. -/
theorem Bears.tells (a : Bears c k p) {g : Take → Take} (active : (p.island j).active = some t) (past : (g t).state ≠ .queued)
    (off : ∀ i, i ≠ j → b i ≤ c i) (le : (g t).toll (b j) p + 1 ≤ t.toll (c j) p) (s : AlarmSource) (e : EventItem) :
    Bears b k (post s e (p.modFront j g)) := by
  obtain ⟨all, own⟩ := Part.toll_front active past off le
  have posted : Few (p.evt.queue.length + 1) (post s e (p.modFront j g)) := Few.post (p := p.modFront j g) ⟨Nat.le_refl _⟩ s e
  exact a.pays (by rw [Part.toll_post]; exact all .i1) (by rw [Part.toll_post]; exact all .i2) posted.few
    (by rw [Part.toll_post]; exact own)

/-- The recomputed start field tells SHORT_LEADER at most once (R81). -/
theorem Bears.refreshStart (a : Bears c k p) (j : IslandId) : Bears c k (refreshStart j p) := by
  unfold Machine.refreshStart
  split
  · exact a
  · rename_i t active
    have past := (Island.active_eq_some.1 active).2
    split
    · rename_i h cut planned is
      obtain ⟨head, rest⟩ := Take.planned_rest planned
      dsimp only
      generalize leader : (t.leader (p.head h)).map (shortLeader (p.head h)) = d
      generalize startField p.ref.standard (p.head h) (t.leader (p.head h)) cut = f
      have same : ∀ m, (t.plannedAt f m).starts p + (t.plannedAt f m).verdicts (c j) p = t.starts p + t.verdicts (c j) p := fun _ => rfl
      split
      · rename_i enters
        obtain ⟨rfl, untold⟩ := enters
        refine a.tells (g := Take.plannedAt f (some true)) active past (fun _ _ => Nat.le_refl _) ?_ _ _
        have now : t.shorts p = 1 := by
          rw [Take.shorts, head]
          exact if_pos ⟨rest, leader, untold⟩
        have told : (t.plannedAt f (some true)).shorts p = 0 := by
          rw [Take.shorts, show (t.plannedAt f (some true)).head? = t.head? from rfl, head]
          exact if_neg fun is => is.2.2 rfl
        have := same (some true)
        unfold Take.toll
        omega
      · rename_i stays
        refine a.modFront (g := Take.plannedAt f d) active past (fun _ _ => Nat.le_refl _) ?_
        have le : (t.plannedAt f d).shorts p ≤ t.shorts p := by
          unfold Take.shorts
          rw [show (t.plannedAt f d).head? = t.head? from rfl, head]
          dsimp only
          rw [show (t.plannedAt f d).leader (p.head h) = t.leader (p.head h) from rfl, leader]
          split
          · rename_i is
            obtain ⟨-, rfl, untold⟩ := is
            exact absurd rfl untold
          · exact Nat.zero_le _
        have := same d
        unfold Take.toll
        omega
    · exact ite_keeps (a.front active past rfl rfl rfl id) a

theorem Bears.refresh (a : Bears c k p) (j : IslandId) : Bears c k (refreshTake j p) := by
  unfold refreshTake
  split
  · exact a
  · rename_i t active
    exact Bears.refreshStart (a.front active (Island.active_eq_some.1 active).2 rfl rfl rfl id) j

theorem Bears.cutSoon (a : Bears c k p) (active : (p.island j).active = some t) : Bears c k (cutSoon j p) :=
  Bears.refresh (a.front active (by exact (Island.active_eq_some.1 active).2) rfl rfl rfl id) j

end

end Sys2Proof.Machine
end

section
/-! PROOFS. The work of both islands, with what it costs (R97 to R101, R105, R181): two looks at the takes and the end guards leave room for one more event. -/

namespace Sys2Proof.Machine

/-! ### The work of an island -/

/-- Every head of `q` is as in `p` or in RUNUP. -/
def SetsGoing (p q : Part) : Prop := ∀ h, q.head h = p.head h ∨ (q.head h).drive = .runup

section
variable {i j : IslandId} {b c : IslandId → Nat} {k : Nat} {p q : Part} {t : Take}

theorem Take.verdicts_going {n : Nat} (a : SetsGoing p q) (t : Take) : t.verdicts n q ≤ t.verdicts n p := by
  unfold Take.verdicts
  split
  · exact Nat.le_refl 0
  · split
    · rename_i h _
      obtain same | going := a h
      · rw [same]
      · rw [going]
        exact Nat.zero_le _
    · exact Nat.le_refl _

theorem Take.starts_going (a : SetsGoing p q) (t : Take) : t.starts q ≤ t.starts p := by
  unfold Take.starts
  split
  · rename_i h _
    obtain same | going := a h
    · rw [same]
    · rw [going]
      exact Nat.zero_le _
  · exact Nat.le_refl _

theorem SetsGoing.leaves (a : SetsGoing p q) : Leaves p q := fun h => (a h).imp id fun going => by rw [going]; rfl

theorem Take.toll_going {n : Nat} (a : SetsGoing p q) (t : Take) : t.toll n q ≤ t.toll n p :=
  Nat.add_le_add (Nat.add_le_add (Take.shorts_leaves a.leaves t) (t.starts_going a)) (t.verdicts_going a)

theorem Bears.mapPreds (a : Bears c k p) (h : HeadId) (f : PredKind → Pred → Pred) : Bears c k (mapPreds h f p) := by
  have active : ∀ i, ((Machine.mapPreds h f p).island i).active = ((p.island i).active).map (Take.mapPreds h f) := fun i => by
    cases is : (p.island i).active with
    | none =>
      have front := mapPreds_front h f p i
      rw [Part.front, Part.front, is] at front
      simpa using front
    | some t => exact ((leads_of_active is).mapPreds h f).active
  have due : ∀ i, (Machine.mapPreds h f p).due (Take.toll (c i)) i = p.due (Take.toll (c i)) i := fun i => by
    rw [Part.due, active, Option.map_map, Part.due,
      show Take.toll (c i) (Machine.mapPreds h f p) ∘ Take.mapPreds h f = Take.toll (c i) p from rfl]
  refine a.still (fun i => Nat.le_of_eq ?_) rfl
  unfold Part.toll
  rw [due, Part.moves_same (p := p) (by rw [mapPreds_island]; rfl)]

/-- The start of the incoming head is paid by what its take owed. -/
theorem Bears.startRequest (a : Bears c k p) (active : (p.island j).active = some t) {h : HeadId} (is : t.head? = some h) :
    Bears c k (startRequest h p) := by
  by_cases rest : (p.head h).drive.atRest = true
  · rw [startRequest_rest rest]
    have few := startDrive_few (k := p.evt.queue.length) rest ⟨Nat.le_refl _⟩ .scheduler
    have going : SetsGoing p (startDrive h .scheduler p) := fun n => by
      by_cases its : n = h
      · subst its
        right
        rw [startDrive_started .scheduler rest]
        rfl
      · exact .inl (startDrive_head_ne its .scheduler p)
    have still := fun i => startDrive_island h .scheduler p i
    have off : ((startDrive h .scheduler p).head h).drive = .runup := by
      rw [startDrive_started .scheduler rest]
      rfl
    generalize startDrive h .scheduler p = q at few going still off
    have all : ∀ i, q.toll c i ≤ p.toll c i := fun i =>
      Part.toll_le (n := 0) (Part.due_le_due (fun t => t.toll_going going) (by rw [still])) (by rw [still])
    refine Bears.refresh (Bears.refresh (Bears.mapPreds (a.pays (j := j) (all .i1) (all .i2) few.few ?_) _ _) _) _
    refine Part.toll_le ?_ (by rw [still])
    rw [Part.due_active active, Part.due_active (by rw [still]; exact active)]
    have starts : t.starts q = 0 ∧ t.starts p = 2 := by
      unfold Take.starts
      rw [is]
      dsimp only
      rw [off, if_pos rest]
      exact ⟨rfl, rfl⟩
    have shorts := Take.shorts_leaves going.leaves t
    have verdicts := t.verdicts_going (n := c j) going
    unfold Take.toll
    omega
  · rw [Machine.startRequest, if_neg rest]
    exact a

/-- A commit is the one its island may still make. -/
theorem commit_pays (free : (p.island j).confirm = none) (s : Source) (f : Stamp) (o : Owner) :
    (∀ i, (commit j s f o p).toll c i ≤ p.toll c i) ∧ (commit j s f o p).toll c j + 4 ≤ p.toll c j ∧
      (commit j s f o p).evt.queue.length ≤ p.evt.queue.length + 1 := by
  have due : ∀ i, (commit j s f o p).due (Take.toll (c i)) i = p.due (Take.toll (c i)) i := fun i => by
    refine Part.due_congr (Take.toll_of_heads (commit_head j s f o p)) ?_
    by_cases n : i = j
    · subst n
      rw [commit_island]
      rfl
    · rw [commit_island_ne n]
  have own : (commit j s f o p).moves j = 0 ∧ p.moves j = 4 := by
    unfold Part.moves Part.awaits
    rw [commit_island, free]
    exact ⟨rfl, rfl⟩
  refine ⟨fun i => ?_, ?_, (commit_few ⟨Nat.le_refl _⟩ j s f o).few⟩
  · unfold Part.toll
    rw [due]
    by_cases n : i = j
    · subst n
      omega
    · rw [Part.moves_same (q := commit j s f o p) (p := p) (by rw [commit_island_ne n])]
  · unfold Part.toll
    rw [due]
    omega

theorem Bears.commitTake (a : Bears c k p) (active : (p.island j).active = some t) (free : (p.island j).confirm = none)
    (off : ∀ i, i ≠ j → b i ≤ c i) (o : TakeOutcome) (l : Option Int) : Bears b k (commitTake j o l p) := by
  unfold Machine.commitTake
  rw [active]
  dsimp only
  obtain ⟨all, own, told⟩ := commit_pays (c := c) free t.incoming (t.fCut.getD (p.leadField j)) .take
  have now : ((commit j t.incoming (t.fCut.getD (p.leadField j)) .take p).island j).active = some t := by
    rw [commit_island]
    exact active
  generalize commit j t.incoming (t.fCut.getD (p.leadField j)) .take p = q at all own told now
  obtain ⟨rest, -⟩ := Part.toll_front (b := b) (g := fun t => { t with state := .committed, cut := none, commitAt := none, outcome := o, lost := l })
    now nofun (n := 0) off (Take.toll_kept (b := b j) q rfl rfl rfl (.inl (.inr rfl)))
  have posted := Few.post (p := q.modFront j fun t => { t with state := .committed, cut := none, commitAt := none, outcome := o, lost := l })
    (k := q.evt.queue.length) ⟨Nat.le_refl _⟩ (.island j) (.takeCommit t.tag (p.portOf j t.incoming) (some (t.fCut.getD (p.leadField j))) t.error o t.slip)
  have le := fun i => Nat.le_trans (Nat.le_of_eq (Part.toll_post (c := b) (.island j)
    (.takeCommit t.tag (p.portOf j t.incoming) (some (t.fCut.getD (p.leadField j))) t.error o t.slip) _ i)) (rest i)
  have := posted.few
  refine a.pays (j := j) (m := 2) (Nat.le_trans (le .i1) (all .i1)) (Nat.le_trans (le .i2) (all .i2)) (by omega) ?_
  have := le j
  omega

theorem Bears.convertNow (a : Bears c k p) : Bears c k (convertNow j p) := by
  unfold Machine.convertNow
  split
  · exact a
  · rename_i t active
    have past := (Island.active_eq_some.1 active).2
    split
    · exact a
    · split
      · have turned := a.front (g := Take.turned) active past rfl rfl rfl id
        exact ite_keeps (turned.cutSoon (modFront_active active past)) (turned.refresh j)
      · exact a

theorem Bears.sendStart (a : Bears c k p) : Bears c k (sendStart j p) := by
  unfold Machine.sendStart
  split
  · exact a
  · rename_i t active
    split
    · exact ite_keeps (a.startRequest active ‹_›) a
    · exact a

theorem Bears.followRunning (a : Bears c k p) : Bears c k (followRunning j p) := by
  unfold Machine.followRunning
  split
  · exact a
  · rename_i t active
    split
    · split
      · rename_i armed
        exact a.front active nofun rfl rfl rfl (by rw [Take.shut, armed.1]; exact nofun)
      · exact a
    · exact a

/-- A take that may be READY has a judgement to spend. -/
theorem Take.verdicts_of_mayReady {x : Island} (may : t.mayReady p x = true) (open_ : ¬ t.shut) (n : Nat) : t.verdicts n p = n := by
  unfold Take.mayReady at may
  unfold Take.verdicts
  rw [if_neg (show ¬ (t.state = .held ∨ t.state = .committed) from open_)]
  unfold Take.head?
  split at may
  · rename_i is
    rw [is]
  · exact nomatch may
  · rename_i h is
    rw [is]
    exact if_pos (of_decide_eq_true (Bool.and_eq_true_iff.1 may).1)

theorem Bears.judgeReady (a : Bears c k p) (left : 0 < c j) : Bears (spend j c) k (judgeReady j p) := by
  unfold Machine.judgeReady
  split
  · exact a.spent j
  · rename_i t active
    split
    · rename_i is
      have past : ({ t with state := .ready } : Take).state ≠ .queued := nofun
      have ready := (leads_of_active active).modFront (f := fun t => { t with state := .ready }) past
      have bears := a.front (g := fun t => { t with state := .ready }) active past rfl rfl rfl (by rw [Take.shut, is.1]; exact nofun)
      have posts : ∀ {q : Part} {u : Take}, Bears c k q → Leads j p (p.island j) u q → u.state = .ready → u.incoming = t.incoming →
          ∀ s e, Bears (spend j c) k (post s e q) := fun {q u} kept leads state incoming s e => by
        have open_ : ¬ u.shut := by
          rw [Take.shut, state]
          exact nofun
        have verdicts : ∀ n, u.verdicts n q = n := fun n => by
          have same : u.verdicts n q = t.verdicts n p := by
            unfold Take.verdicts
            rw [if_neg (show ¬ (u.state = .held ∨ u.state = .committed) from open_), is.1, if_neg (by exact nofun),
              show u.head? = t.head? by rw [Take.head?, incoming]; rfl]
            simp only [leads.heads]
          rw [same]
          exact Take.verdicts_of_mayReady is.2 (by rw [Take.shut, is.1]; exact nofun) n
        have own : u.toll (spend j c j) q + 1 ≤ u.toll (c j) q := by
          unfold Take.toll
          rw [verdicts, verdicts, spend_own]
          omega
        have posted := Few.post (p := q) (k := q.evt.queue.length) ⟨Nat.le_refl _⟩ s e
        have all : ∀ i, (post s e q).toll (spend j c) i ≤ q.toll c i := fun i => by
          rw [Part.toll_post]
          exact Part.toll_mono (spend_le j c i) q
        refine kept.pays (j := j) (all .i1) (all .i2) posted.few ?_
        rw [Part.toll_post]
        refine Part.toll_le ?_ rfl
        rw [Part.due_active leads.active, Part.due_active leads.active]
        exact own
      unfold becomeReady
      dsimp only
      rw [ready.active]
      dsimp only
      by_cases now : t.effective = .now
      · rw [if_pos now, ready.cutSoon.active]
        exact posts (bears.cutSoon ready.active) ready.cutSoon (Take.refreshed_state ..) (Take.refreshed_incoming ..) _ _
      · rw [if_neg now, ready.refresh.active]
        exact posts (bears.refresh j) ready.refresh (Take.refreshed_state ..) (Take.refreshed_incoming ..) _ _
    · split
      · rename_i is
        exact (a.front (g := fun t => { t with state := .starting }) active nofun rfl rfl rfl (by rw [Take.shut, is.1]; exact nofun)).spent j
      · exact a.spent j

theorem Bears.retarget (a : Bears c k p) : Bears c k (retarget j p) := by
  unfold Machine.retarget
  split
  · exact a
  · rename_i t active
    have past := (Island.active_eq_some.1 active).2
    split
    · exact a
    · rename_i held
      split
      · exact a.front active past rfl rfl rfl id
      · rename_i sop _
        have formed : ∀ f n, Bears c k (refreshTake j (p.modFront j (Take.aimed f n))) := fun f n =>
          Bears.refresh (a.front active past rfl rfl rfl id) j
        dsimp only
        split
        · split
          · exact formed (p.leadField j) p.ref.count
          · rename_i free
            have aimed := (leads_of_active active).modFront (f := Take.aimed (p.leadField j) p.ref.count) past
            exact (formed (p.leadField j) p.ref.count).commitTake aimed.refresh.active
              (aimed.refresh.free (free_of_not_awaits free)) (fun _ _ => Nat.le_refl _) _ _
        · exact formed sop _

theorem Bears.evalTake (a : Bears c k p) (left : 0 < c j) : Bears (spend j c) k (evalTake j p) :=
  (a.convertNow.sendStart.followRunning.judgeReady left).retarget

theorem Bears.meetStart (a : Bears c k p) : Bears c k (meetStart j p) := by
  unfold Machine.meetStart
  split
  · rename_i due
    unfold startDue at due
    split at due
    · exact nomatch due
    · rename_i t active
      obtain ⟨h, planned⟩ := Option.isSome_iff_exists.1 (Bool.and_eq_true_iff.1 due).1
      obtain ⟨is, rest⟩ := Take.planned_rest planned
      have armed : t.state = .armed := by
        by_contra no
        unfold Take.planned at planned
        rw [is] at planned
        dsimp only at planned
        rw [if_neg fun plan => no plan.1] at planned
        exact nomatch planned
      have entered := a.front (g := fun t => { t with state := .starting }) active nofun rfl rfl rfl
        (by rw [Take.shut, armed]; exact nofun)
      have leads := (leads_of_active active).modFront (f := fun t => { t with state := .starting }) nofun
      obtain ⟨w, off, started⟩ := leads.setsOff rest
      unfold takeStartField
      rw [active]
      dsimp only [Option.bind_some]
      rw [is]
      dsimp only
      rw [evalTake_started started (Take.refreshed_state ..) ((Take.refreshed_head? ..).trans is) (by rw [off.runup]; exact nofun)]
      exact (entered.startRequest leads.active is).convertNow
  · exact a

/-- A take that enters HELD is judged no more, and starts its head if it still stands. -/
theorem Bears.enterHeld (a : Bears c k p) (active : (p.island j).active = some t) (off : ∀ i, i ≠ j → b i ≤ c i) :
    Bears b k (enterHeld j p) := by
  have held := a.modFront (b := b) (g := Take.hold) active nofun off (Take.toll_kept p rfl rfl rfl (.inl (.inl rfl)))
  have leads := (leads_of_active active).modFront (f := Take.hold) nofun
  unfold Machine.enterHeld
  rw [active]
  dsimp only
  split
  · rename_i h is
    split
    · have started : ∃ w y u, Leads j w y u (Machine.startRequest h (p.modFront j Take.hold)) ∧ u.state = .held := by
        by_cases rest : (p.head h).drive.atRest = true
        · obtain ⟨w, off, b⟩ := leads.setsOff rest
          exact ⟨_, _, _, b, Take.refreshed_state ..⟩
        · rw [Machine.startRequest, if_neg (by rw [modFront_head]; exact rest)]
          exact ⟨_, _, _, leads, rfl⟩
      obtain ⟨w, y, u, bs, state⟩ := started
      change Bears b k (Machine.evalTake j (Machine.startRequest h (p.modFront j Take.hold)))
      rw [bs.evalTake_held state]
      exact (held.startRequest leads.active is).retarget
    · change Bears b k (Machine.evalTake j (p.modFront j Take.hold))
      rw [leads.evalTake_held rfl]
      exact held.retarget
  · change Bears b k (Machine.evalTake j (p.modFront j Take.hold))
    rw [leads.evalTake_held rfl]
    exact held.retarget

/-- The decision at the commit field judges the take at most once more, and shuts it. -/
theorem Bears.meetCommit (a : Bears c k p) (left : 0 < c j) : Bears c k (meetCommit j p) := by
  unfold Machine.meetCommit
  split
  · rename_i due
    have free := commitDue_free due
    cases active : (p.island j).active with
    | none =>
      unfold takeCommitField
      rw [active]
      exact a
    | some t =>
      have past := (Island.active_eq_some.1 active).2
      have late := (leads_of_active active).modFront (f := Take.late p (p.island j)) past
      obtain ⟨q, kept, leads, is⟩ : ∃ q, Bears (spend j c) k q ∧ Leads j p (p.island j) (t.recut p (p.island j)) q ∧
          takeCommitField j p = match (q.island j).active with
            | none => q
            | some t =>
              match t.decide (q.island j) with
              | .cut outcome lost => Machine.commitTake j outcome lost q
              | .hold => Machine.enterHeld j q := by
        by_cases prompt : t.commitAt = some p.ref.count
        · refine ⟨p, a.spent j, ?_, ?_⟩
          · rw [Take.recut, if_pos prompt]
            exact leads_of_active active
          · simp only [takeCommitField, active, prompt, if_true] <;> rfl
        · refine ⟨Machine.judgeReady j (refreshTake j (p.modFront j (Take.late p (p.island j)))),
            Bears.judgeReady (Bears.refresh (a.front active past rfl rfl rfl id) j) left, ?_, ?_⟩
          · rw [Take.recut, if_neg prompt]
            exact late.refresh.judgeReady
          · simp only [takeCommitField, active, prompt, if_false] <;> rfl
      rw [is, leads.active]
      dsimp only
      have off : ∀ i, i ≠ j → c i ≤ spend j c i := fun i n => Nat.le_of_eq (spend_other n c).symm
      split
      · exact kept.commitTake leads.active (leads.free free) off _ _
      · exact kept.enterHeld leads.active off
  · exact a

theorem Bears.settleTake (a : Bears c k p) (left : 1 < c j) : Bears (spend j c) k (settleTake j p) :=
  ((Bears.refresh a j).evalTake (Nat.lt_of_succ_lt left)).meetStart.meetCommit (by rw [spend_own]; omega)

theorem Bears.settleTakes (a : Bears c k p) (left : ∀ i, 1 < c i) : Bears (fun i => c i - 1) k (settleTakes p) := by
  rw [settleTakes_both]
  have both := (a.settleTake (left .i1)).settleTake (j := .i2) (by rw [spend_other (by decide)]; exact left .i2)
  exact both.loosen fun i => by cases i <;> exact Nat.le_refl _

end

/-! ### The end guards -/

/-- The events that wait, with those of the commits both islands may still make, number at most `k`. -/
structure Room (k : Nat) (p : Part) : Prop where
  few : p.evt.queue.length + p.moves .i1 + p.moves .i2 ≤ k

section
variable {j : IslandId} {c : IslandId → Nat} {k : Nat} {p : Part}

theorem Bears.room (a : Bears c k p) : Room k p := ⟨by have := a.few; unfold Part.toll at this; omega⟩

theorem endFront_confirm (i : IslandId) (o : TakeOutcome) (r : Reason) (p : Part) (j : IslandId) :
    ((endFront i o r p).island j).confirm = (p.island j).confirm := by
  unfold endFront
  split
  · rfl
  · rw [post_island]
    by_cases n : j = i
    · subst n
      rw [modIsland_island]
    · rw [modIsland_island_ne n]

theorem endFront_few (a : Few k p) (i : IslandId) (o : TakeOutcome) (r : Reason) : Few (k + 1) (endFront i o r p) := by
  unfold endFront
  split
  · exact a.mono (Nat.le_succ k)
  · rename_i t rest _
    exact Few.post (p := p.modIsland i fun x => { x with takes := rest }) (a.of_evt rfl) _ _

/-- An end guard that is met is the one commit of its island. -/
theorem Room.meetGuard (a : Room k p) : Room k (meetGuard j p) := by
  unfold Machine.meetGuard
  split
  · rename_i due
    have free := guardDue_free due
    unfold takeGuard closeGuard
    dsimp only
    split
    · exact a
    · rename_i f _
      generalize (if p.ref.count = Stamp.minus f (p.island j).settings.lead then f else p.leadField j) = cut
      have own : (commit j .standby cut .island p).moves j = 0 ∧ p.moves j = 4 := by
        unfold Part.moves Part.awaits
        rw [commit_island, free]
        exact ⟨rfl, rfl⟩
      have other : ∀ i, i ≠ j → (commit j .standby cut .island p).moves i = p.moves i := fun i n =>
        Part.moves_same (by rw [commit_island_ne n])
      have told := commit_few (k := p.evt.queue.length) (p := p) ⟨Nat.le_refl _⟩ j .standby cut .island
      generalize commit j .standby cut .island p = q at own other told
      have ended : Few (p.evt.queue.length + 2) (fallBack j (p.island j).guardReason q) ∧
          ∀ i, (fallBack j (p.island j).guardReason q).moves i = q.moves i := by
        unfold fallBack
        split
        · exact ⟨endFront_few told _ _ _, fun i => Part.moves_same (endFront_confirm j _ _ q i)⟩
        · exact ⟨told.mono (Nat.le_succ _), fun _ => rfl⟩
      have raised := ended.1.raise (.island j) (if (p.island j).guardReason = .lateStart then .lateStart else .runout) 0 0
      have still : ∀ i, (raiseFallBack j (p.island j).guardReason (fallBack j (p.island j).guardReason q)).moves i = q.moves i := fun i =>
        (Part.moves_same (by rw [raiseFallBack, raiseAlarm_island])).trans (ended.2 i)
      have alarmed : (raiseFallBack j (p.island j).guardReason (fallBack j (p.island j).guardReason q)).evt.queue.length ≤ _ := raised.few
      have := a.few
      refine ⟨?_⟩
      rw [id, still, still]
      cases j with
      | i1 => have := other .i2 nofun; omega
      | i2 => have := other .i1 nofun; omega
  · exact a

theorem Room.meetGuards (a : Room k p) : Room k (meetGuards p) := a.meetGuard.meetGuard

theorem Room.queued (a : Room k p) : Few k p := ⟨by have := a.few; omega⟩

/-! ### What a step of a head leaves room for -/

theorem bears_of_empty (empty : p.evt.queue = []) : Bears (fun _ => 3) 14 p := by
  have le : ∀ i, p.toll (fun _ => 3) i ≤ 7 := fun i => by
    have due : p.due (Take.toll ((fun _ => 3) i)) i ≤ 3 := Part.due_le (f := Take.toll 3) Take.toll_le p i
    have moves : p.moves i ≤ 4 := by
      unfold Part.moves
      split <;> decide
    unfold Part.toll
    omega
  have := le .i1
  have := le .i2
  exact ⟨by rw [empty, List.length_nil]; omega⟩

theorem Bears.followEnds (a : Bears c k p) : Bears c k (followEnds p) := by
  have one : ∀ {q : Part} i, Bears c k q → Bears c k (followEnd i q) := fun {q} i b => by
    have same : ∀ j, ((followEnd i q).island j).active = (q.island j).active ∧ ((followEnd i q).island j).confirm = (q.island j).confirm :=
      fun j => by
        unfold followEnd
        by_cases n : j = i
        · subst n
          rw [modIsland_island]
          split
          · exact ⟨rfl, rfl⟩
          · split
            · split <;> exact ⟨rfl, rfl⟩
            · exact ⟨rfl, rfl⟩
        · rw [modIsland_island_ne n]
          exact ⟨rfl, rfl⟩
    refine b.still (fun j => Nat.le_of_eq ?_) rfl
    unfold Part.toll
    rw [Part.due_congr (Take.toll_of_heads (q := followEnd i q) (p := q) fun _ => rfl) (same j).1,
      Part.moves_same (q := followEnd i q) (p := q) (same j).2]
  exact one .i2 (one .i1 a)

/-- A boundary of a head outside the running states leaves room for one more event. -/
theorem boundary_few (empty : p.evt.queue = []) (h : HeadId) (unlocked : Bool) : Few 14 (settle (followEnds (tellBoundary h unlocked p))) :=
  ((((bears_of_empty empty).mapPreds h _).settleTakes (fun _ => by decide)).followEnds.settleTakes (fun _ => by decide)).room.meetGuards.queued

theorem reverse_few (empty : p.evt.queue = []) (h : HeadId) : Few 14 (tellReverse h p) :=
  (((bears_of_empty empty).mapPreds h _).followEnds.settleTakes (fun _ => by decide)).room.meetGuards.queued

end

end Sys2Proof.Machine
end

section
/-! PROOFS. A tachometer pulse (R18 to R21, R59, R64): the place of the head, the loss of PARKED, the boundary outside the running states, and the leg. -/

namespace Sys2Proof.Machine

/-! ### What a counted perf leaves in every state -/

/-- From `p` to `q` head `h`, which stood as `x`, has its place at `next` and keeps its settings, its assignment and the cues of its
table; every other head is as the scheduler leaves it. -/
structure Placed (h : HeadId) (next : Position) (x : Head) (p q : Part) : Prop where
  pos : (q.head h).pos = next
  settings : (q.head h).settings = x.settings
  assigned : (q.head h).assigned = x.assigned
  cues : (q.head h).cues.map (·.id) = x.cues.map (·.id)
  others : OthersSteered h p q
  frame : ChangesOnly Block.scheduling p q

section
variable {h : HeadId} {next : Position} {x : Head} {p q r : Part}

theorem Placed.moves (a : Placed h next x p q) (m : (q.head h).Moves (r.head h)) (others : OthersSteered h q r)
    (frame : ChangesOnly Block.scheduling q r) : Placed h next x p r where
  pos := m.pos.trans a.pos
  settings := m.settings.trans a.settings
  assigned := m.assigned.trans a.assigned
  cues := by rw [m.cues]; exact a.cues
  others j n := Head.steered_trans (a.others j n) (others j n)
  frame := a.frame.trans frame

theorem Placed.scheduled (a : Placed h next x p q) (s : Scheduled q r) (same : r.head h = q.head h) : Placed h next x p r :=
  a.moves (by rw [same]; exact .refl _) (fun j _ => s.heads j) s.frame

theorem Placed.modHead (a : Placed h next x p q) {f : Head → Head} (place : (f (q.head h)).pos = (q.head h).pos)
    (settings : (f (q.head h)).settings = (q.head h).settings) (assigned : (f (q.head h)).assigned = (q.head h).assigned)
    (cues : (f (q.head h)).cues.map (·.id) = (q.head h).cues.map (·.id)) : Placed h next x p (q.modHead h f) where
  pos := by rw [modHead_head, place]; exact a.pos
  settings := by rw [modHead_head, settings]; exact a.settings
  assigned := by rw [modHead_head, assigned]; exact a.assigned
  cues := by rw [modHead_head, cues]; exact a.cues
  others j n := by rw [modHead_head_ne n]; exact a.others j n
  frame := a.frame.trans ((modHead_frame h f q).mono (by cases h <;> simp [Block.scheduling]))

theorem placed_work : HeadWork h (Placed h next x p) where
  post s e q a := a.scheduled (post_sched s e q) (post_head s e q h)
  raise s k d e q a := a.scheduled (raiseAlarm_sched s k d e q) (raiseAlarm_head s k d e q h)
  clear s k d e q a := a.scheduled (clearAlarm_sched s k d e q) (clearAlarm_head s k d e q h)
  islands y q a := a.scheduled (setIslands_sched y q) rfl
  move i m f q a := a.scheduled ((submitMove_frame i m f q).steady linking_steady) (submitMove_head i m f q h)
  fast i q a := a.scheduled ((endFast_frame i q).steady linking_steady) ((endFast_frame i q (.head h) (by simp [Block.linking, Block.posting])).symm)
  start k q rest a := by
    have sched := startDrive_sched k .scheduler q rest
    by_cases its : k = h
    · subst its
      exact a.moves (startDrive_moved .scheduler rest).head (fun j _ => sched.heads j) sched.frame
    · exact a.scheduled sched (startDrive_head_ne (Ne.symm its) .scheduler q)
  moved q r m a := a.moves m.head (fun j n => .inl (m.frame (.head j) (by simp [Block.driving, Block.alarming, Block.posting, n])).symm)
    (m.frame.mono (driving_scheduling h))

theorem updateCue_ids (id : Nat) {f : Cue → Cue} (same : ∀ c, (f c).id = c.id) (cs : List Cue) :
    (updateCue id f cs).map (·.id) = cs.map (·.id) := by
  unfold updateCue
  rw [List.map_map]
  refine List.map_congr_left fun c _ => ?_
  show (if c.id = id then f c else c).id = c.id
  split
  · exact same c
  · rfl

theorem passFrame_placed (b : Bool) (f : Int) (a : Placed h next x p q) : Placed h next x p (passFrame h b f q) := by
  have K := placed_work (h := h) (next := next) (x := x) (p := p)
  have missed : Placed h next x p (missedMarkStep h f q) :=
    foldl_keeps (fun q (c : Cue) b => K.post _ _ _ (b.modHead rfl rfl rfl (by refine updateCue_ids c.id (fun _ => ?_) _; rfl))) _ a
  unfold passFrame
  dsimp only
  split
  · rename_i c _
    exact cueAction_work K _ (K.post _ _ _ (missed.modHead rfl rfl rfl (by refine updateCue_ids c.id (fun _ => ?_) _; rfl)))
  · exact missed

theorem followCues_placed (a : Placed h next x p q) : Placed h next x p (followCues h q) := by
  refine a.modHead rfl rfl rfl ?_
  rw [List.map_map]
  refine List.map_congr_left fun c _ => ?_
  show (Cue.follow _ c).id = c.id
  unfold Cue.follow
  split
  · rfl
  · split <;> rfl

theorem reportBoundary_placed (forward : Bool) (a : Placed h next x p q) : Placed h next x p (reportBoundary h forward q) := by
  have K := placed_work (h := h) (next := next) (x := x) (p := p)
  have S := K.toSchedulerKeeps
  unfold reportBoundary
  split
  · split
    · rename_i running
      have judged := K.moved _ _ (cadenceBoundary_moved running) a
      have told := tellBoundary_work S h ((q.head h).drive = .locked && ((cadenceBoundary h q).head h).drive = .unlocked) judged
      exact settle_work S (followEnds_keeps S (passFrame_placed false _ (told.modHead (f := fun x => { x with mark := none }) rfl rfl rfl rfl)))
    · exact settle_work S (followEnds_keeps S (tellBoundary_work S h false (followCues_placed a)))
  · exact tellReverse_work S h (followCues_placed a)

end

/-- A perf counted in any state leaves the head at the next place (R18). -/
theorem takeTach_placed {h : HeadId} {p : Part} {x : Head} (head : p.head h = x) {forward : Bool}
    (away : x.pos ≠ (sideOf forward).position x.settings.gauge) :
    Placed h (x.pos.perf x.settings.gauge forward) x p (takeTach h forward p) := by
  obtain ⟨q, drives, -, is⟩ := takeTach_counted head away
  have K := placed_work (h := h) (next := x.pos.perf x.settings.gauge forward) (x := x) (p := p)
  have counted : Placed h (x.pos.perf x.settings.gauge forward) x p q :=
    ⟨by rw [drives.head]; rfl, by rw [drives.head]; rfl, by rw [drives.head]; rfl, by rw [drives.head]; rfl, drives.rolls.others,
      drives.rolls.frame⟩
  have lost := K.moved _ _ loseParked_moved counted
  rw [is]
  have followed := followLeg_work K (ite_keeps (reportBoundary_placed forward lost) (ite_keeps (settle_work K.toSchedulerKeeps lost) lost) :
    Placed h (x.pos.perf x.settings.gauge forward) x p (if (x.pos.perf x.settings.gauge forward).frame ≠ x.pos.frame
      then reportBoundary h forward (loseParked h q) else if x.drive = .parked then settle (loseParked h q) else loseParked h q))
  exact ite_keeps (K.moved _ _ endLimit_moved followed) followed

/-! ### A boundary outside the running states -/

/-- What the scheduler leaves of a head's place in the cue table. -/
theorem Head.steered_table {x y : Head} (a : x.steered y) : y.cues = x.cues ∧ y.mark = x.mark ∧ (y.drive = x.drive ∨ y.drive = .runup) := by
  obtain rfl | ⟨-, going, is⟩ := a
  · exact ⟨rfl, rfl, .inl rfl⟩
  · rw [is]
    exact ⟨rfl, rfl, .inr going⟩

section
variable {h : HeadId} {x y : Head} {k : Nat} {es : List Event} {p q : Part}

/-- A boundary of a head outside the running states has its cues follow, and tells the scheduler (R59, R67). -/
theorem Drives.idleBoundary (a : Drives h y k es p q) (idle : y.drive.running = false) (forward : Bool) :
    Acts h y.followed es p (reportBoundary h forward q) := by
  have R := holds_reports es
  have is : reportBoundary h forward q = if forward then Machine.settle (followEnds (tellBoundary h false (Machine.followCues h q)))
      else tellReverse h (Machine.followCues h q) := by
    unfold reportBoundary Machine.idleBoundary
    rw [a.head, idle, if_neg Bool.false_ne_true]
  have followed := a.followCues
  generalize Machine.followCues h q = r at is followed
  rw [is]
  cases forward with
  | true =>
    have sched := ((tellBoundary_sched h false r).trans (followEnds_sched _)).trans (settle_sched _)
    have alone : r.unplanned h → (Machine.settle (followEnds (tellBoundary h false r))).head h = r.head h := fun u => by
      obtain ⟨u, same⟩ := settleTakes_takes (unplanned_takes h _)
        (⟨mapPreds_unplanned h _ u, rfl⟩ : Unplanned h _ (mapPreds h (Pred.atBoundary r false) r))
      exact (settle_unplanned (followEnds_unplanned u)).trans (same.trans (mapPreds_head _ _ _ h))
    have told : Holds es r → Holds es (Machine.settle (followEnds (tellBoundary h false r))) := fun b =>
      settle_keeps R (reportEnds_keeps R (tellBoundary_keeps R h false b))
    generalize Machine.settle (followEnds (tellBoundary h false r)) = b at sched alone told
    exact followed.scheduled sched alone told
  | false =>
    have alone : r.unplanned h → (tellReverse h r).head h = r.head h := fun u =>
      (settle_unplanned (followEnds_unplanned (mapPreds_unplanned h (Pred.atReverse r) u))).trans (mapPreds_head h (Pred.atReverse r) r h)
    exact followed.scheduled (tellReverse_sched h r) alone (tellReverse_keeps R h)

/-- The boundary leaves room for one more event where nothing waited. -/
theorem idleBoundary_few (head : q.head h = y) (idle : y.drive.running = false) (forward : Bool) (empty : q.evt.queue = []) :
    Few 14 (reportBoundary h forward q) := by
  unfold reportBoundary idleBoundary
  rw [head, idle, if_neg Bool.false_ne_true]
  have still : (followCues h q).evt.queue = [] := empty
  generalize followCues h q = r at still
  exact Few.ite (boundary_few still h false) (reverse_few still h)

theorem Drives.unchanged (a : Drives h x k es p q) : Acts h x es p q := a.scheduled (.refl q) (fun _ => rfl) id

theorem Acts.limitLeft (a : Acts h x es p q) (forward : Bool) (y : Head) :
    Acts h (if y.countLimit = some (sideOf !forward) then x.unlimited else x) es p (limitLeft h forward y q) := by
  unfold Machine.limitLeft
  split
  · exact ⟨by rw [endLimit_head]; exact Head.steered_unlimited a.head, fun u => by rw [endLimit_head, a.alone u],
      fun j n => by rw [endLimit_head_ne n]; exact a.others j n,
      a.frame.trans ((endLimit_moved (h := h) (p := q)).frame.mono (driving_scheduling h)), fun l => endLimit_holds h (a.told l)⟩
  · exact a

theorem Acts.rolls (a : Acts h x es p q) (moving : x.drive.atRest = false) : Rolls h x es p q :=
  ⟨a.moving moving, a.others, a.frame, a.told⟩

/-! ### The leg of a cue-up -/

/-- A head that is not running enters another state behind what the scheduler did. -/
theorem Rolls.enterIdle (a : Rolls h x es p q) (few : p.listens → Few 15 q) (idle : x.drive.running = false) (d : DriveState) (c : Cause) :
    Rolls h (x.enter d p.time.now) (es ++ [headStateEvent h p.ref.count x d c]) p (enterDrive h d c none q) where
  head := by
    have now : q.time.now = p.time.now := congrArg Timebase.now (a.frame .time (by simp [Block.scheduling, Block.alarming, Block.posting])).symm
    rw [enterDrive_head, a.head, now, idle]
    rfl
  others j n := by
    rw [← enterDrive_frame h d c none q (.head j) (by simp [Block.driving, Block.alarming, Block.posting, n])]
    exact a.others j n
  frame := a.frame.trans ((enterDrive_frame h d c none q).mono (driving_scheduling h))
  told l := by
    have ref : q.ref = p.ref := (a.frame .ref (by simp [Block.scheduling, Block.alarming, Block.posting])).symm
    obtain ⟨writing, told⟩ := a.told l
    have entered := (enterDrive_awaits ⟨writing, (few l).few, told⟩ (by decide) h d c none).holds
    rwa [a.head, ref] at entered

/-- A head as its leg ends (R64). -/
def Head.settled (x : Head) (now : Nat) : Head :=
  { x with drive := .settling, outputs := ⟨false, false, false, false, x.outputs.lamp⟩, gapFrom := none, settleFrom := some now, park := none }

/-- A head as its leg slows (R64). -/
def Head.slowed (x : Head) (c : CueUp) : Head :=
  { x with drive := .cueInch, outputs := ⟨c.ahead, !c.ahead, false, false, x.outputs.lamp⟩, settleFrom := none, park := none }

theorem Head.enter_settling {x : Head} (now : Nat) : x.enter .settling now = x.settled now := by
  obtain ⟨drive, ⟨_, _, _, _, lamp⟩, policy⟩ := x
  cases policy <;> cases lamp <;> rfl

theorem Head.enter_inch {x : Head} {c : CueUp} (cue : x.cueUp = some c) (fast : x.drive = .cueFast) (now : Nat) :
    x.enter .cueInch now = x.slowed c := by
  obtain ⟨drive, ⟨_, _, _, _, lamp⟩, policy⟩ := x
  dsimp only at cue fast
  subst cue fast
  cases policy <;> cases lamp <;> rfl

/-- The leg of a cueing head at a counted perf: it ends, it slows, or it goes on (R64). -/
theorem followLeg_cueing (a : Rolls h x [] p q) (cueing : x.drive.cueing = true) {c : CueUp} (cue : x.cueUp = some c)
    (few : p.listens → Few 15 q) :
    (c.arrived x.settings.gauge x.pos = true →
      Rolls h (x.settled p.time.now) [headStateEvent h p.ref.count x .settling .cueUp] p (followLeg h q)) ∧
    (c.arrived x.settings.gauge x.pos = false → x.drive = .cueFast → (c.target - x.pos.frame).natAbs ≤ x.settings.approach →
      Rolls h (x.slowed c) [headStateEvent h p.ref.count x .cueInch .cueUp] p (followLeg h q)) ∧
    (c.arrived x.settings.gauge x.pos = false → ¬ (x.drive = .cueFast ∧ (c.target - x.pos.frame).natAbs ≤ x.settings.approach) →
      followLeg h q = q) := by
  have idle : x.drive.running = false := by
    cases drive : x.drive with
    | cueFast | cueInch => rfl
    | stopped | parked | settling | runup | locked | unlocked | stopping | fault =>
      rw [drive] at cueing
      exact nomatch cueing
  have is : followLeg h q = if c.arrived x.settings.gauge x.pos = true then settle (enterDrive h .settling .cueUp none q)
      else if x.drive = .cueFast ∧ (c.target - x.pos.frame).natAbs ≤ x.settings.approach then settle (enterDrive h .cueInch .cueUp none q)
      else q := by
    unfold followLeg
    rw [a.head]
    dsimp only
    rw [cue]
    dsimp only
    rw [if_neg (not_not.2 cueing)]
  refine ⟨fun arrived => ?_, fun short fast near => ?_, fun short far => ?_⟩
  · rw [is, if_pos arrived]
    have entered := a.enterIdle few idle .settling .cueUp
    rw [Head.enter_settling] at entered
    exact entered.scheduled rfl (settle_sched _) (settle_keeps (holds_reports _))
  · rw [is, if_neg (by rw [short]; exact Bool.false_ne_true), if_pos ⟨fast, near⟩]
    have entered := a.enterIdle few idle .cueInch .cueUp
    rw [Head.enter_inch cue fast] at entered
    exact entered.scheduled rfl (settle_sched _) (settle_keeps (holds_reports _))
  · rw [is, if_neg (by rw [short]; exact Bool.false_ne_true), if_neg far]

end

/-! ### The pulse -/

/-- A head a perf on, its cues following it over a boundary (R18, R59, R67). -/
def Head.arrives (x : Head) (now : Nat) (forward : Bool) : Head :=
  if (x.pos.perf x.settings.gauge forward).frame ≠ x.pos.frame then (x.counted now forward).followed else x.counted now forward

/-- A head, `x` before the perf, that has left the COUNT_LIMIT of the other direction behind it (R19). -/
def Head.relieved (x : Head) (forward : Bool) (y : Head) : Head := if x.countLimit = some (sideOf !forward) then y.unlimited else y

theorem Head.arrives_table (x : Head) (now : Nat) (forward : Bool) :
    ((x.pos.perf x.settings.gauge forward).frame = x.pos.frame →
      (x.arrives now forward).cues = x.cues ∧ (x.arrives now forward).mark = x.mark) ∧
    ((x.pos.perf x.settings.gauge forward).frame ≠ x.pos.frame → (x.arrives now forward).mark = none ∧
      ∀ c ∈ (x.arrives now forward).cues, c.passed = decide (c.frame ≤ (x.pos.perf x.settings.gauge forward).frame)) := by
  unfold Head.arrives
  refine ⟨fun same => ?_, fun crosses => ?_⟩
  · rw [if_neg (not_not.2 same)]
    exact ⟨rfl, rfl⟩
  · rw [if_pos crosses]
    exact ⟨rfl, Head.followed_passed (x := x.counted now forward)⟩

theorem Head.relieved_table (x : Head) (forward : Bool) (y : Head) :
    (x.relieved forward y).cues = y.cues ∧ (x.relieved forward y).mark = y.mark ∧ (x.relieved forward y).drive = y.drive := by
  unfold Head.relieved
  split <;> exact ⟨rfl, rfl, rfl⟩

/-- A head after a perf, but for its cues and its mark latch (R18, R19). -/
def Head.moved (x : Head) (now : Nat) (forward : Bool) : Head := x.relieved forward (x.counted now forward)

theorem Head.relieved_arrives (x : Head) (now : Nat) (forward : Bool) :
    x.relieved forward (x.arrives now forward) =
      { x.moved now forward with cues := (x.arrives now forward).cues, mark := (x.arrives now forward).mark } := by
  unfold Head.moved Head.relieved Head.arrives
  split <;> split <;> rfl

section
variable {h : HeadId} {p q : Part} {x y : Head} {es : List Event} {forward : Bool}

/-- What tells that head `y` has lost PARKED (R21, R36). -/
def Head.losses (h : HeadId) (n : Stamp) (y : Head) : List Event :=
  (match y.park with
    | some r => [⟨.head h, n, .parkLost r.position y.pos⟩]
    | none => []) ++ [headStateEvent h n y .stopped .motion]

/-- A counted perf loses PARKED (R21). -/
theorem Drives.loseParked (a : Drives h y 0 [] p q) (parked : y.drive = .parked) :
    ∃ k, Drives h y.halted k (y.losses h p.ref.count) p (loseParked h q) := by
  have idle : y.drive.running = false := by rw [parked]; rfl
  unfold Machine.loseParked
  rw [a.head]
  dsimp only
  rw [parked]
  unfold Head.losses
  cases park : y.park with
  | none => exact ⟨6, Head.enter_stopped y _ ▸ a.enterIdle (by decide) idle .stopped .motion none⟩
  | some r =>
    exact ⟨7, Head.enter_stopped y _ ▸ (a.post (.head h) (.parkLost r.position y.pos) (by decide)).enterIdle (by decide) idle .stopped .motion none⟩

variable (head : p.head h = x) (away : x.pos ≠ (sideOf forward).position x.settings.gauge)
include head away

/-- A counted perf of a head that is neither running, cueing nor PARKED. -/
theorem takeTach_idle (idle : x.drive.running = false) (uncued : x.drive.cueing = false) (unparked : x.drive ≠ .parked) :
    Acts h (x.relieved forward (x.arrives p.time.now forward)) [] p (takeTach h forward p) := by
  obtain ⟨q, drives, -, is⟩ := takeTach_counted head away
  have acts : Acts h (x.arrives p.time.now forward) [] p
      (if (x.pos.perf x.settings.gauge forward).frame ≠ x.pos.frame then reportBoundary h forward q else q) := by
    unfold Head.arrives
    split
    · exact drives.idleBoundary idle forward
    · exact drives.unchanged
  rw [is, loseParked_other (by rw [drives.head]; exact unparked), if_neg unparked]
  have drive : (x.arrives p.time.now forward).drive = x.drive := by
    unfold Head.arrives
    split <;> rfl
  generalize (if (x.pos.perf x.settings.gauge forward).frame ≠ x.pos.frame then reportBoundary h forward q else q) = b at acts
  rw [followLeg_still ?_]
  · exact acts.limitLeft forward x
  · obtain ⟨-, -, still | going⟩ := Head.steered_table acts.head
    · rw [still, drive]
      exact uncued
    · rw [going]
      rfl

/-- A counted perf of a PARKED head. -/
theorem takeTach_parked (parked : x.drive = .parked) :
    Acts h (x.relieved forward (x.arrives p.time.now forward).halted) ((x.counted p.time.now forward).losses h p.ref.count) p
      (takeTach h forward p) := by
  obtain ⟨q, drives, -, is⟩ := takeTach_counted head away
  obtain ⟨k, lost⟩ := drives.loseParked parked
  have acts : Acts h (x.arrives p.time.now forward).halted ((x.counted p.time.now forward).losses h p.ref.count) p (if (x.pos.perf x.settings.gauge forward).frame ≠ x.pos.frame
      then reportBoundary h forward (loseParked h q) else settle (loseParked h q)) := by
    unfold Head.arrives
    split
    · exact lost.idleBoundary rfl forward
    · exact lost.settle
  rw [is, if_pos parked]
  generalize (if (x.pos.perf x.settings.gauge forward).frame ≠ x.pos.frame then reportBoundary h forward (loseParked h q)
    else settle (loseParked h q)) = b at acts
  rw [followLeg_still ?_]
  · exact acts.limitLeft forward x
  · obtain ⟨-, -, still | going⟩ := Head.steered_table acts.head
    · rw [still]
      rfl
    · rw [going]
      rfl

/-- A counted perf of a cueing head, its leg to be followed. -/
theorem takeTach_cueing (cueing : x.drive.cueing = true) :
    ∃ b, Rolls h (x.arrives p.time.now forward) [] p b ∧ (p.listens → Few 15 b) ∧
      takeTach h forward p = limitLeft h forward x (followLeg h b) := by
  obtain ⟨q, drives, same, is⟩ := takeTach_counted head away
  have other : x.drive ≠ .parked := fun parked => by
    rw [parked] at cueing
    exact nomatch cueing
  have idle : x.drive.running = false ∧ x.drive.atRest = false := by
    cases drive : x.drive with
    | cueFast | cueInch => exact ⟨rfl, rfl⟩
    | stopped | parked | settling | runup | locked | unlocked | stopping | fault =>
      rw [drive] at cueing
      exact nomatch cueing
  rw [loseParked_other (by rw [drives.head]; exact other), if_neg other] at is
  have empty : p.listens → q.evt.queue = [] := fun l => by rw [← same .events (by simp)]; exact l.2
  refine ⟨_, ?_, fun l => ?_, is⟩
  · unfold Head.arrives
    split
    · exact (drives.idleBoundary idle.1 forward).rolls idle.2
    · exact drives.rolls
  · exact Few.ite ((idleBoundary_few drives.head idle.1 forward (empty l)).mono (by decide)) ⟨by rw [empty l]; exact Nat.zero_le _⟩

/-- A perf that makes no boundary, in a state in which nothing else follows it. -/
theorem takeTach_within (same : (x.pos.perf x.settings.gauge forward).frame = x.pos.frame) (unparked : x.drive ≠ .parked)
    (uncued : x.drive.cueing = false) : ∃ q, q.head h = x.counted p.time.now forward ∧ ChangesOnly [.head h] p q ∧
      takeTach h forward p = limitLeft h forward x q := by
  obtain ⟨q, drives, only, is⟩ := takeTach_counted head away
  refine ⟨q, drives.head, only, ?_⟩
  rw [is, if_neg (not_not.2 same), if_neg unparked, loseParked_other (by rw [drives.head]; exact unparked),
    followLeg_still (by rw [drives.head]; exact uncued)]

omit away

/-- A pulse at the end of the range (R19). -/
theorem takeTach_edge (edge : x.pos = (sideOf forward).position x.settings.gauge) :
    takeTach h forward p = raiseAlarm (.head h) .countLimit 0 0 ((p.modHead h fun x => { x with
      gapFrom := x.gapFrom.map fun _ => p.time.now, settleFrom := x.settleFrom.map fun _ => p.time.now }).modHead h fun x =>
        { x with countLimit := some (sideOf forward) }) := by
  unfold takeTach
  dsimp only
  rw [modHead_head, head]
  exact if_pos edge

end


theorem Head.moved_eq (x : Head) (now : Nat) (forward : Bool) : x.moved now forward = { x with
    pos := x.pos.perf x.settings.gauge forward, gapFrom := x.gapFrom.map fun _ => now, settleFrom := x.settleFrom.map fun _ => now
    countLimit := if x.countLimit = some (if forward then .lowest else .highest) then none else x.countLimit } := by
  have side : sideOf (!forward) = if forward then LimitSide.lowest else .highest := by cases forward <;> rfl
  unfold Head.moved Head.relieved
  rw [side]
  by_cases other : x.countLimit = some (if forward then .lowest else .highest)
  · rw [if_pos other, if_pos other]
    rfl
  · rw [if_neg other, if_neg other]
    rfl

theorem limitLeft_head {h : HeadId} {forward : Bool} {x y : Head} {q : Part} (head : q.head h = y) :
    (limitLeft h forward x q).head h = x.relieved forward y := by
  unfold limitLeft Head.relieved
  split
  · rw [endLimit_head, head]
  · exact head

theorem limitLeft_frame (h : HeadId) (forward : Bool) (x : Head) (q : Part) :
    ChangesOnly (.head h :: Block.alarming) q (limitLeft h forward x q) ∧ (x.countLimit = none → limitLeft h forward x q = q) := by
  unfold limitLeft
  split
  · rename_i other
    exact ⟨((modHead_frame h _ q).mono (by simp)).trans ((clearAlarm_frame _ _ _ _ _).mono (List.subset_cons_self _ _)), fun free =>
      nomatch free.symm.trans other⟩
  · exact ⟨.refl _ q, fun _ => rfl⟩

theorem Head.arrives_eq (x : Head) (now : Nat) (forward : Bool) : x.arrives now forward = { x.counted now forward with
    cues := (x.arrives now forward).cues, mark := (x.arrives now forward).mark } := by
  unfold Head.arrives
  split <;> rfl

/-- Settles O12, by what a counted perf meets: the end of the range, a head that nothing follows, a PARKED one, a leg. -/
theorem tachPulseMovesThePosition : Obligations.TachPulseMovesThePosition := by
  intro s dt h forward running x n t edge next moved
  have head : (elapse dt s.part).head h = x := elapse_head dt s.part h
  have now : (elapse dt s.part).time.now = t := elapse_now dt s.part
  have limit : edge = (sideOf forward).position x.settings.gauge := by cases forward <;> rfl
  have place : x.pos.perf x.settings.gauge forward = next := rfl
  have moves : x.moved t forward = moved := x.moved_eq t forward
  rw [limit]
  refine ⟨fun away => .of_event (f := takeTach h forward) rfl running ?_, fun there => .of_event (f := takeTach h forward) rfl running ?_,
    fun away same unparked uncued => .of_event (f := takeTach h forward) rfl running ?_,
    fun away idle => .of_event (f := takeTach h forward) rfl running ?_⟩
  · have placed := takeTach_placed head away
    exact ⟨(congrArg Timebase.now (placed.frame .time (by simp [Block.scheduling, Block.alarming, Block.posting])).symm).trans now, placed.pos,
      placed.settings, placed.assigned, placed.cues, fun j n => elapse_head dt s.part j ▸ placed.others j n,
      (placed.frame.mono (List.subset_cons_self _ _)).elapsed (List.mem_cons_self ..)⟩
  · rw [takeTach_edge head there]
    refine ⟨?_, ?_, raiseAlarm_alarms .., ?_⟩
    · rw [← raiseAlarm_frame (.head h) .countLimit 0 0 _ .time (by simp [Block.alarming, Block.posting])]
      exact now
    · rw [raiseAlarm_head, modHead_head, modHead_head, head, now]
      cases forward <;> rfl
    · have raised := (raiseAlarm_frame (.head h) .countLimit 0 0 (((elapse dt s.part).modHead h fun x => { x with
          gapFrom := x.gapFrom.map fun _ => (elapse dt s.part).time.now
          settleFrom := x.settleFrom.map fun _ => (elapse dt s.part).time.now }).modHead h fun x =>
            { x with countLimit := some (sideOf forward) })).mono (List.subset_append_right [Block.time, .head h] _)
      exact (((modHead_frame h _ _).trans (modHead_frame h _ _)).mono (by simp)).trans raised |>.elapsed (by simp)
  · obtain ⟨q, counted, only, is⟩ := takeTach_within head away same unparked uncued
    obtain ⟨frame, still⟩ := limitLeft_frame h forward x q
    rw [is]
    rw [now] at counted
    refine ⟨(limitLeft_head counted).trans moves, fun free => ?_, ?_⟩
    · rw [still free]
      exact (only.mono (by simp)).elapsed (by simp)
    · exact ((only.mono (by simp)).trans (frame.mono (by simp))).elapsed (by simp)
  · obtain ⟨within, crosses⟩ := x.arrives_table t forward
    have tables : ∀ {y : Head}, y.cues = (x.arrives t forward).cues → y.mark = (x.arrives t forward).mark →
        (next.frame = x.pos.frame → y.cues = x.cues ∧ y.mark = x.mark) ∧
        (next.frame ≠ x.pos.frame → y.mark = none ∧ ∀ c ∈ y.cues, c.passed = decide (c.frame ≤ next.frame)) ∧
        { moved with cues := y.cues, mark := y.mark } = x.relieved forward (x.arrives t forward) := fun cues mark => by
      rw [cues, mark, x.relieved_arrives, moves]
      exact ⟨within, crosses, rfl⟩
    by_cases parked : x.drive = .parked
    · have acts := takeTach_parked head away parked
      rw [now] at acts
      generalize takeTach h forward (elapse dt s.part) = q at acts
      have halts : x.relieved forward (x.arrives t forward).halted = (x.relieved forward (x.arrives t forward)).halted := by
        unfold Head.relieved
        split <;> rfl
      obtain ⟨cues, mark, -⟩ := Head.steered_table acts.head
      obtain ⟨same, marked, -⟩ := x.relieved_table forward (x.arrives t forward).halted
      obtain ⟨stays, follows, is⟩ := tables (cues.trans same) (mark.trans marked)
      rw [halts] at acts
      intro here stopped
      rw [show stopped = here.halted from rfl, show here = _ from is]
      refine ⟨stays, follows, fun no => absurd parked no, fun _ => ⟨acts.head, acts.sinceAlone, fun r park l => ?_⟩, fun c _ cueing => ?_⟩
      · refine acts.sinceTells l _ ?_
        unfold Head.losses
        rw [show (x.counted t forward).park = some r from park, elapse_ref, headStateEvent, show (x.counted t forward).drive = .parked from parked]
        rfl
      · rw [parked] at cueing
        exact nomatch cueing
    · by_cases cueing : x.drive.cueing = true
      · obtain ⟨b, rolls, few, leg⟩ := takeTach_cueing head away cueing
        rw [now] at rolls
        have ends : ∀ {z : Head}, ((followLeg h b).head h) = z → z.cues = (x.arrives t forward).cues → z.mark = (x.arrives t forward).mark →
            ((takeTach h forward (elapse dt s.part)).head h) = x.relieved forward z ∧
            (next.frame = x.pos.frame → (x.relieved forward z).cues = x.cues ∧ (x.relieved forward z).mark = x.mark) ∧
            (next.frame ≠ x.pos.frame → (x.relieved forward z).mark = none ∧
              ∀ c ∈ (x.relieved forward z).cues, c.passed = decide (c.frame ≤ next.frame)) ∧
            { moved with cues := (x.relieved forward z).cues, mark := (x.relieved forward z).mark } =
              x.relieved forward (x.arrives t forward) := fun {z} left cues mark => by
          obtain ⟨same, marked, -⟩ := x.relieved_table forward z
          exact ⟨leg ▸ limitLeft_head left, tables (same.trans cues) (marked.trans mark)⟩
        have last := x.arrives_eq t forward
        obtain cue | ⟨c, cue⟩ := Option.eq_none_or_eq_some x.cueUp
        · have still : followLeg h b = b := by
            unfold followLeg
            rw [rolls.head, last]
            dsimp only
            rw [show (x.counted t forward).cueUp = none from cue]
          obtain ⟨is, stays, follows, -⟩ := ends (by rw [still]; exact rolls.head) rfl rfl
          rw [is]
          exact ⟨stays, follows, fun _ no => absurd cueing (by rw [no]; exact Bool.false_ne_true), fun yes => absurd yes parked,
            fun d aim => nomatch cue.symm.trans aim⟩
        · obtain ⟨place, settings, drive, outputs, aims⟩ : (x.arrives t forward).pos = next ∧ (x.arrives t forward).settings = x.settings ∧
              (x.arrives t forward).drive = x.drive ∧ (x.arrives t forward).outputs = x.outputs ∧ (x.arrives t forward).cueUp = x.cueUp := by
            rw [last]
            exact ⟨rfl, rfl, rfl, rfl, rfl⟩
          obtain ⟨arrives, slows, goes⟩ := followLeg_cueing rolls (by rw [drive]; exact cueing) (aims.trans cue) few
          rw [now, place, settings] at arrives
          rw [place, settings, drive] at slows goes
          have told : ∀ {z : Head} {d : DriveState},
              Rolls h z [headStateEvent h (elapse dt s.part).ref.count (x.arrives t forward) d .cueUp] (elapse dt s.part) (followLeg h b) →
              z.drive.atRest = false → s.part.listens →
              (takeTach h forward (elapse dt s.part)).tells (.head h) [.headState d x.drive .cueUp next.frame] :=
            fun leaves moving l => leg ▸ (leaves.limitLeft moving forward x).tells (elapse_listens l) _ (by
              rw [headStateEvent, place, drive]
              rfl)
          have uncued : x.drive ≠ .parked ∧ x.drive.cueing = false → False := fun no => absurd cueing (by rw [no.2]; exact Bool.false_ne_true)
          have only : ∀ {d}, x.cueUp = some d → d = c := fun aim => Option.some.inj (aim.symm.trans cue)
          cases arrived : c.arrived x.settings.gauge next with
          | true =>
            have ended := arrives arrived
            obtain ⟨is, stays, follows, lies⟩ := ends ended.head rfl rfl
            have tells := told ended rfl
            generalize takeTach h forward (elapse dt s.part) = q at is tells
            rw [is]
            intro here stopped
            rw [show here = _ from lies]
            refine ⟨stays, follows, fun a b => (uncued ⟨a, b⟩).elim, fun yes => absurd yes parked, fun d aim _ => ?_⟩
            obtain rfl := only aim
            refine ⟨fun _ => ⟨?_, tells⟩, fun no => absurd (arrived.symm.trans no) nofun, fun no => absurd (arrived.symm.trans no) nofun⟩
            unfold Head.settled Head.relieved
            rw [outputs]
            split <;> rfl
          | false =>
            by_cases near : x.drive = .cueFast ∧ (c.target - next.frame).natAbs ≤ x.settings.approach
            · have slowed := slows arrived near.1 near.2
              obtain ⟨is, stays, follows, lies⟩ := ends slowed.head rfl rfl
              have tells := told slowed rfl
              generalize takeTach h forward (elapse dt s.part) = q at is tells
              rw [near.1] at tells
              rw [is]
              intro here stopped
              rw [show here = _ from lies]
              refine ⟨stays, follows, fun a b => (uncued ⟨a, b⟩).elim, fun yes => absurd yes parked, fun d aim _ => ?_⟩
              obtain rfl := only aim
              refine ⟨fun yes => absurd (arrived.symm.trans yes) nofun, fun _ _ _ => ⟨?_, tells⟩, fun _ far => ?_⟩
              · unfold Head.slowed Head.relieved
                rw [outputs]
                split <;> rfl
              · obtain inch | far := far
                · exact nomatch near.1.symm.trans inch
                · exact absurd near.2 (of_decide_eq_false far)
            · obtain ⟨is, stays, follows, lies⟩ := ends (by rw [goes arrived near]; exact rolls.head) rfl rfl
              rw [is]
              intro here stopped
              rw [show here = _ from lies]
              refine ⟨stays, follows, fun a b => (uncued ⟨a, b⟩).elim, fun yes => absurd yes parked, fun d aim _ => ?_⟩
              obtain rfl := only aim
              exact ⟨fun yes => absurd (arrived.symm.trans yes) nofun, fun _ fast close => absurd ⟨fast, of_decide_eq_true close⟩ near,
                fun _ _ => rfl⟩
      · have uncued := Bool.eq_false_iff.2 cueing
        have acts := takeTach_idle head away idle uncued parked
        rw [now] at acts
        generalize takeTach h forward (elapse dt s.part) = q at acts
        obtain ⟨cues, mark, -⟩ := Head.steered_table acts.head
        obtain ⟨same, marked, -⟩ := x.relieved_table forward (x.arrives t forward)
        obtain ⟨stays, follows, is⟩ := tables (cues.trans same) (mark.trans marked)
        intro here stopped
        rw [show here = _ from is]
        exact ⟨stays, follows, fun _ _ => ⟨acts.head, acts.sinceAlone⟩, fun yes => absurd yes parked, fun _ _ yes => absurd yes cueing⟩

end Sys2Proof.Machine
end

section
/-! PROOFS. A reply as it is assembled and read, and what a good one leaves of the link (R116, R120 to R122, R127, R129, R190). -/

namespace Sys2Proof.Machine

/-! ### A message of four characters -/

section
variable {a c g e : LinkChar} {p : Part}

theorem receive_deaf (deaf : p.link.listening p.time = false) (c : LinkChar) : receive c p = p :=
  if_pos (by rw [deaf]; exact Bool.false_ne_true)

/-- Outside AWAITING, or with the reply timer run out, nothing is taken (R120). -/
theorem receiveAll_deaf (deaf : p.link.listening p.time = false) (chars : List LinkChar) : receiveAll chars p = p := by
  unfold receiveAll
  induction chars with
  | nil => rfl
  | cons c rest ih => rw [List.foldl_cons, receive_deaf deaf, ih]

/-- The message as it is assembled (R121). -/
def Part.assembled (p : Part) (m : List LinkChar) : Part := { p with link := { p.link with assembling := m } }

theorem receive_first (hears : p.link.listening p.time = true) (first : a.address = true) : receive a p = p.assembled [a] := by
  unfold receive
  rw [if_neg (not_not.2 hears)]
  dsimp only
  rw [if_pos first]
  rfl

theorem receive_next (hears : p.link.listening p.time = true) (data : c.address = false) {m : List LinkChar} (some : m ≠ []) :
    receive c (p.assembled m) = if m.length < 3 then p.assembled (m ++ [c]) else judgeMessage (m ++ [c]) (p.assembled []) := by
  have heard : (p.assembled m).link.listening (p.assembled m).time = true := hears
  have filled : (p.assembled m).link.assembling.isEmpty = false := by simpa [Part.assembled] using some
  unfold receive
  have adds : (if c.address then [c] else if (p.assembled m).link.assembling.isEmpty then [] else (p.assembled m).link.assembling ++ [c]) =
      m ++ [c] := by
    rw [data, filled]
    rfl
  rw [if_neg (not_not.2 heard)]
  dsimp only
  rw [adds, List.length_append, List.length_singleton]
  by_cases short : m.length < 3
  · rw [if_pos (by omega), if_pos short]
    rfl
  · rw [if_neg (by omega), if_neg short]
    rfl

/-- Four characters, the address flag on the first alone, are a message (R121). -/
theorem receiveAll_message (hears : p.link.listening p.time = true) (first : a.address = true) (second : c.address = false)
    (third : g.address = false) (fourth : e.address = false) :
    receiveAll [a, c, g, e] p = judgeMessage [a, c, g, e] (p.assembled []) := by
  unfold receiveAll
  rw [List.foldl_cons, List.foldl_cons, List.foldl_cons, List.foldl_cons, List.foldl_nil, receive_first hears first,
    receive_next hears second (List.cons_ne_nil _ _), if_pos (by simp), receive_next hears third (by simp), if_pos (by simp),
    receive_next hears fourth (by simp), if_neg (by simp)]
  rfl

/-- What makes a message good before its code is read (R121, R190). -/
def goodMessage (address : Nat) (a c g e : LinkChar) : Prop :=
  a.framing = false ∧ c.framing = false ∧ g.framing = false ∧ e.framing = false ∧
    a.data + c.data + g.data + e.data = 0 ∧ a.data.toNat = 128 + address % 16

theorem replyAddress_iff (b : Byte) (address : Nat) : b = replyAddress address ↔ b.toNat = 128 + address % 16 := by
  have small : (replyAddress address).toNat = 128 + address % 16 := by
    rw [replyAddress, BitVec.toNat_ofNat]
    omega
  rw [← small, BitVec.toNat_inj]

variable {address : Nat} {r : Request}

theorem readReply_bad (bad : ¬ goodMessage address a c g e) : readReply address r [a, c, g, e] = none := by
  unfold readReply
  dsimp only
  by_cases framing : (a.framing || c.framing || g.framing || e.framing) = true
  · rw [if_pos framing]
  · rw [if_neg framing]
    by_cases sum : a.data + c.data + g.data + e.data = 0
    · rw [if_neg (not_not.2 sum), if_pos fun is => bad ?_]
      simp only [Bool.or_eq_true, not_or, Bool.not_eq_true] at framing
      obtain ⟨⟨⟨fa, fc⟩, fg⟩, fe⟩ := framing
      exact ⟨fa, fc, fg, fe, sum, (replyAddress_iff _ _).1 is⟩
    · rw [if_pos sum]

theorem readReply_good (good : goodMessage address a c g e) : readReply address r [a, c, g, e] =
    match r with
    | .move p _ =>
      if c.data = 0x81 then (if g.data.toNat = p.num then some .accept else none)
      else if c.data = 0x82 then some (.refuse g.data)
      else none
    | .poll =>
      if c.data = 0x83 then
        (portOfNat (g.data.toNat % 8)).map fun q => .status q (g.data.getLsbD 6) (g.data.getLsbD 7)
      else none := by
  obtain ⟨fa, fc, fg, fe, sum, from_⟩ := good
  unfold readReply
  dsimp only
  rw [fa, fc, fg, fe, if_neg (by decide), if_neg (not_not.2 sum), if_neg (not_not.2 ((replyAddress_iff _ _).2 from_))] <;>
    cases r <;> rfl

end

/-! ### The record of a good reply -/

/-- What a reply leaves of a station record: all but its poll timing (R122, R127). -/
def Station.report (s : Station) : Online × Option Port × Bool × Bool × Nat × Option Refusing :=
  (s.online, s.port, s.moving, s.fault, s.misses, s.refusal)

/-- The line rests in GAP with nothing in flight, and the record of island `i`'s station is that of `s`, its poll timing apart. -/
structure Gapped (i : IslandId) (s : Station) (p : Part) : Prop where
  line : p.link.line = .gap
  flight : p.link.flight = none
  report : (p.link.stations.get i).report = s.report

section
variable {i j : IslandId} {s : Station} {p q : Part}

theorem Gapped.of_link (a : Gapped i s p) (same : q.link = p.link) : Gapped i s q :=
  ⟨by rw [same]; exact a.line, by rw [same]; exact a.flight, by rw [same]; exact a.report⟩

theorem Gapped.frame {bs : List Block} (a : Gapped i s p) (same : ChangesOnly bs p q) (link : Block.link ∉ bs) : Gapped i s q :=
  a.of_link (same .link link).symm

theorem Gapped.modStation (a : Gapped i s p) {f : Station → Station} (keeps : ∀ s, (f s).report = s.report) :
    Gapped i s (p.modStation j f) := by
  refine ⟨a.line, a.flight, ?_⟩
  rw [Part.modStation_link]
  by_cases same : i = j
  · subst same
    rw [Two.get_set_same, keeps]
    exact a.report
  · rw [Two.get_set_ne _ _ same]
    exact a.report

theorem Gapped.pump (a : Gapped i s p) : Gapped i s (pumpLink p) := by
  have joins := pumpLink_of_busy (p := p) (by rw [a.line]; exact nofun)
  exact ⟨joins.line.trans a.line, joins.flight.trans a.flight, (pumpLink_station Station.report (fun _ => rfl) i p).trans a.report⟩

theorem Gapped.queue (a : Gapped i s p) (l : List Entry) : Gapped i s { p with link := { p.link with queue := l } } :=
  ⟨a.line, a.flight, a.report⟩

theorem Gapped.dropPoll (a : Gapped i s p) : Gapped i s (dropPoll p) := by
  unfold Machine.dropPoll
  split
  · exact a
  · split
    · refine (a.queue _).modStation fun _ => ?_
      rfl
    · exact a

theorem Gapped.submitMove (a : Gapped i s p) (k : IslandId) (port : Port) (f : Stamp) : Gapped i s (submitMove k port f p) := by
  unfold Machine.submitMove
  refine ((a.queue _).dropPoll.modStation fun _ => ?_).pump
  rfl

theorem Gapped.endFast (a : Gapped i s p) (k : IslandId) : Gapped i s (endFast k p) := by
  have met : Gapped i s (p.modStation k fun s =>
      { s.met p.link.settings.interval with fast := false, countdown := p.link.settings.interval }) :=
    a.modStation fun s => by
      unfold Station.met
      split <;> rfl
  exact ite_keeps met.pump met

/-- The scheduler's work leaves the line and the report as they are. -/
theorem gapped_scheduler (i : IslandId) (s : Station) : SchedulerKeeps (Gapped i s) where
  post x e p a := a.frame (post_frame x e p) (by decide)
  raise x k c d p a := a.frame (raiseAlarm_frame x k c d p) (by decide)
  clear x k c d p a := a.frame (clearAlarm_frame x k c d p) (by decide)
  islands _ _ a := a.of_link rfl
  move k port f p a := a.submitMove k port f
  fast k p a := a.endFast k
  start h p _ a := a.of_link (startDrive_link h .scheduler p)

end

/-- The part as a good reply has been recorded (R122). -/
def Part.recorded (f : Flight) (reply : Reply) (p : Part) : Part :=
  (enterGap p).modStation f.entry.island (Station.answered f.entry.request reply)

/-- The part as a good reply has been recorded, told and judged (R127 to R129). -/
def Part.judged (f : Flight) (reply : Reply) (p : Part) : Part :=
  let old := p.link.stations.get f.entry.island
  judgeReply f.entry.island (old.online = .offline) f.entry.request reply
    (reportReply f.entry.island f.sentTo old reply (p.recorded f reply))

/-- The part as the transaction of a good reply has ended, before its delivery. -/
def Part.noted (f : Flight) (reply : Reply) (p : Part) : Part := endEntry (p.judged f reply)

/-- A STATION event that shows record `s` (R129). -/
def Station.item (s : Station) (address : Nat) (c : StationCause) (r : Option Refusing) : EventItem :=
  .station c address s.online s.port s.moving s.fault s.misses r

/-- The STATION events of a good reply that takes a record from `old` to `s` (R129). -/
def Reply.said (address : Nat) (old s : Station) (reply : Reply) : List EventItem :=
  (if old.online = .online then [] else [s.item address .online none]) ++
    match reply with
    | .accept => []
    | .status _ _ _ => if old.port = s.port ∧ old.moving = s.moving ∧ old.fault = s.fault then [] else [s.item address .report none]
    | .refuse _ => [s.item address .refused s.refusal]

/-- Events of island `i` posted in their order. -/
def postAll (i : IslandId) (items : List EventItem) (p : Part) : Part := items.foldl (fun q e => post (.island i) e q) p

theorem postAll_link (i : IslandId) (items : List EventItem) (p : Part) : (postAll i items p).link = p.link := by
  unfold postAll
  induction items generalizing p with
  | nil => rfl
  | cons e rest ih => rw [List.foldl_cons, ih, ← post_frame (.island i) e p .link (by decide)]

theorem postAll_awaits {i : IslandId} {n : Stamp} (items : List EventItem) : ∀ {k : Nat} {es : List Event} {p : Part}, Awaits k es p →
    p.ref.count = n → k + items.length ≤ Config.maxEvents →
    Awaits (k + items.length) (es ++ items.map fun e => ⟨.island i, n, e⟩) (postAll i items p) := by
  induction items with
  | nil => exact fun {k es p} a _ _ => by simpa [postAll] using a
  | cons e rest ih =>
    intro k es p a ref room
    rw [List.length_cons] at room
    have posted := ih (a.post (.island i) e (by omega)) ((congrArg RefUnit.count (post_frame (.island i) e p .ref (by decide)).symm).trans ref)
      (by omega)
    rw [ref] at posted
    simpa [postAll, Nat.add_assoc, Nat.add_comm 1] using posted

theorem reportReply_posts (i : IslandId) (address : Nat) (old : Station) (reply : Reply) (p : Part) :
    reportReply i address old reply p = postAll i (reply.said address old (p.link.stations.get i)) p := by
  have shows : ∀ {c r} {q : Part}, q.link = p.link →
      postStation i c address r q = post (.island i) ((p.link.stations.get i).item address c r) q := fun {c r q} link => by
    unfold postStation Station.item
    rw [link]
  have online := post_frame (.island i) ((p.link.stations.get i).item address .online none) p .link (by decide)
  unfold reportReply Reply.said postAll
  dsimp only
  rw [shows rfl, List.foldl_append]
  by_cases was : old.online = .online
  · rw [if_pos was, if_pos was]
    cases reply with
    | accept => rfl
    | refuse _ => exact shows rfl
    | status _ _ _ =>
      dsimp only
      rw [shows rfl]
      split <;> rfl
  · rw [if_neg was, if_neg was]
    cases reply with
    | accept => rfl
    | refuse _ => exact shows online.symm
    | status _ _ _ =>
      dsimp only
      rw [shows online.symm]
      split <;> rfl

theorem Reply.said_length (address : Nat) (old s : Station) (reply : Reply) : (reply.said address old s).length ≤ 2 := by
  unfold Reply.said
  cases reply <;> dsimp only <;> split <;> (try split) <;> simp

section
variable {f : Flight} {reply : Reply} {p : Part}

theorem goodReply_orphan (orphan : f.orphan = true) : goodReply f reply p = endEntry (enterGap p) := if_pos orphan

theorem goodReply_noted (counted : f.orphan = false) :
    goodReply f reply p = deliver f.entry.island f.entry.request reply (p.noted f reply) :=
  if_neg (by rw [counted]; exact Bool.false_ne_true)

end

/-! ### The alarms of a good reply -/

section
variable {i : IslandId} {was : Bool} {r : Request} {reply : Reply} {p : Part}

theorem judgeReply_frame (i : IslandId) (was : Bool) (r : Request) (reply : Reply) (p : Part) :
    ChangesOnly Block.alarming p (judgeReply i was r reply p) := by
  have known : ChangesOnly Block.alarming p (if was then clearAlarm (.island i) .stationOffline 0 0 p else p) :=
    .ite (clearAlarm_frame _ _ _ _ _) (.refl _ _)
  unfold judgeReply
  dsimp only
  split
  · exact known.trans (raiseAlarm_frame _ _ _ _ _)
  · exact known
  · exact known.trans (raiseAlarm_frame _ _ _ _ _)
  · exact known.trans (clearAlarm_frame _ _ _ _ _)
  · exact known
  · exact known

theorem judgeReply_awaits {k : Nat} {es : List Event} (a : Awaits k es p) : Awaits (k + 3) es (judgeReply i was r reply p) := by
  have known : Awaits (k + 1) es (if was then clearAlarm (.island i) .stationOffline 0 0 p else p) :=
    (a.clear _ _ _ _).ite (a.mono (Nat.le_succ k))
  unfold judgeReply
  dsimp only
  split
  · exact known.raise _ _ _ _
  · exact known.mono (Nat.le_add_right _ 2)
  · exact known.raise _ _ _ _
  · exact (known.clear _ _ _ _).mono (Nat.le_succ _)
  · exact known.mono (Nat.le_add_right _ 2)
  · exact known.mono (Nat.le_add_right _ 2)

theorem judgeReply_entries (sound : EntriesSound p) : EntriesSound (judgeReply i was r reply p) := by
  have known : EntriesSound (if was then clearAlarm (.island i) .stationOffline 0 0 p else p) :=
    ite_keeps (entriesSound_drive.clear _ _ _ _ _ sound) sound
  unfold judgeReply
  dsimp only
  split
  · exact entriesSound_drive.raise _ _ _ _ _ known
  · exact known
  · exact entriesSound_drive.raise _ _ _ _ _ known
  · exact entriesSound_drive.clear _ _ _ _ _ known
  · exact known
  · exact known

/-- STATION_OFFLINE ends with the reply of a station that was so (R127). -/
theorem judgeReply_online (offline : was = true) : (judgeReply i was r reply p).alarms.rests (.island i) .stationOffline := by
  have known := clearAlarm_rests (.island i) .stationOffline 0 0 p
  unfold judgeReply
  rw [if_pos offline]
  dsimp only
  split
  · exact rests_raiseAlarm known (by simp) _ _
  · exact known
  · exact rests_raiseAlarm known (by simp) _ _
  · exact rests_clearAlarm known 0 0
  · exact known
  · exact known

/-- MIRROR_FAULT ends with a report at rest without the flag (R128). -/
theorem judgeReply_sound {port : Port} : (judgeReply i was r (.status port false false) p).alarms.rests (.island i) .mirrorFault := by
  unfold judgeReply
  dsimp only
  exact clearAlarm_rests _ _ _ _ _

/-- MIRROR_FAULT is raised by a refusal of a MOVE and by the station-fault flag (R128). -/
theorem judgeReply_faults (sound : EntriesSound p)
    (faults : (∃ port moving, reply = .status port moving true) ∨ ∃ c port asked, reply = .refuse c ∧ r = .move port asked) :
    Firm (.island i) .mirrorFault (judgeReply i was r reply p) := by
  have known : EntriesSound (if was then clearAlarm (.island i) .stationOffline 0 0 p else p) :=
    ite_keeps (entriesSound_drive.clear _ _ _ _ _ sound) sound
  have raised : ∀ {q : Part} (x y : Word), EntriesSound q → Firm (.island i) .mirrorFault (raiseAlarm (.island i) .mirrorFault x y q) :=
    fun x y sound => ⟨raiseAlarm_stands _ rfl x y _, entriesSound_drive.raise _ _ x y _ sound⟩
  unfold judgeReply
  obtain ⟨port, moving, rfl⟩ | ⟨c, port, asked, rfl, rfl⟩ := faults
  · exact raised _ _ known
  · exact raised _ _ known

end

/-! ### The part before the delivery -/

section
variable (f : Flight) (reply : Reply) (p : Part)

theorem recorded_station : (p.recorded f reply).link.stations.get f.entry.island =
    (p.link.stations.get f.entry.island).answered f.entry.request reply := Two.get_set_same _ _ _

theorem recorded_frame : ChangesOnly [.link] p (p.recorded f reply) := (setLink_frame _ p).trans (modStation_frame _ _ _)

theorem postAll_frame (i : IslandId) (items : List EventItem) : ChangesOnly Block.posting p (postAll i items p) := by
  unfold postAll
  induction items generalizing p with
  | nil => exact .refl _ p
  | cons e rest ih =>
    rw [List.foldl_cons]
    exact (post_frame _ e p).trans (ih _)

theorem judged_frame : ChangesOnly Block.alarming (p.recorded f reply) (p.judged f reply) := by
  unfold Part.judged
  dsimp only
  rw [reportReply_posts]
  exact ((postAll_frame _ _ _).mono (List.subset_cons_self _ _)).trans (judgeReply_frame _ _ _ _ _)

theorem judged_gap : (p.judged f reply).link.line = .gap :=
  (congrArg LinkUnit.line (judged_frame f reply p .link (by decide)).symm).trans rfl

theorem noted_joins : JoinsOnly { p.judged f reply with link := { (p.judged f reply).link with flight := none } } (p.noted f reply) :=
  endEntry_ends (judged_gap f reply p)

theorem noted_frame : ChangesOnly (.link :: Block.alarming) p (p.noted f reply) :=
  (((recorded_frame f reply p).mono (by simp)).trans ((judged_frame f reply p).mono (List.subset_cons_self _ _))).trans
    ((setLink_frame _ _).trans (noted_joins f reply p).frame |>.mono (by simp))

theorem noted_alarms : (p.noted f reply).alarms = (p.judged f reply).alarms := ((noted_joins f reply p).frame .alarms (by decide)).symm

theorem noted_gapped : Gapped f.entry.island ((p.link.stations.get f.entry.island).answered f.entry.request reply) (p.noted f reply) := by
  refine Gapped.pump (p := { p.judged f reply with link := { (p.judged f reply).link with flight := none } }) ⟨judged_gap f reply p, rfl, ?_⟩
  have link : (p.recorded f reply).link = (p.judged f reply).link := judged_frame f reply p .link (by decide)
  rw [← recorded_station f reply p, link]

/-- What a good reply posts before its delivery (R127 to R129). -/
theorem noted_awaits (l : p.listens) : Awaits 5
    ((reply.said f.sentTo (p.link.stations.get f.entry.island) ((p.link.stations.get f.entry.island).answered f.entry.request reply)).map
      fun e => ⟨.island f.entry.island, p.ref.count, e⟩) (p.noted f reply) := by
  have few := reply.said_length f.sentTo (p.link.stations.get f.entry.island)
    ((p.link.stations.get f.entry.island).answered f.entry.request reply)
  have posted := postAll_awaits (i := f.entry.island) (n := p.ref.count) (reply.said f.sentTo (p.link.stations.get f.entry.island)
    ((p.link.stations.get f.entry.island).answered f.entry.request reply)) (l.awaits.of_evt (q := p.recorded f reply) rfl) rfl
    (by simp only [Config.maxEvents]; omega)
  have judged : Awaits 5 ((reply.said f.sentTo (p.link.stations.get f.entry.island)
      ((p.link.stations.get f.entry.island).answered f.entry.request reply)).map fun e => ⟨.island f.entry.island, p.ref.count, e⟩)
      (p.judged f reply) := by
    unfold Part.judged
    dsimp only
    rw [reportReply_posts, recorded_station]
    exact (judgeReply_awaits posted).mono (by omega)
  exact (judged.of_evt (q := { p.judged f reply with link := { (p.judged f reply).link with flight := none } }) rfl).of_evt
    (noted_joins f reply p).evt

theorem reported_entries (sound : EntriesSound p) :
    EntriesSound (reportReply f.entry.island f.sentTo (p.link.stations.get f.entry.island) reply (p.recorded f reply)) := by
  have posted : ∀ (items : List EventItem) {q : Part}, EntriesSound q → EntriesSound (postAll f.entry.island items q) := fun items => by
    unfold postAll
    induction items with
    | nil => exact fun a => a
    | cons e rest ih => exact fun a => ih (entriesSound_drive.post _ e _ a)
  rw [reportReply_posts]
  exact posted _ (entriesSound_depends.keeps (recorded_frame f reply p) (by decide) sound)

theorem noted_mode : (p.noted f reply).mode = (p.judged f reply).mode := ((noted_joins f reply p).frame .mode (by decide)).symm

theorem noted_entries (sound : EntriesSound p) : EntriesSound (p.noted f reply) := by
  have judged : EntriesSound (p.judged f reply) := judgeReply_entries (reported_entries f reply p sound)
  exact ⟨(noted_mode f reply p).trans judged.1, by rw [noted_alarms]; exact judged.2⟩

theorem noted_online (offline : (p.link.stations.get f.entry.island).online = .offline) :
    (p.noted f reply).alarms.rests (.island f.entry.island) .stationOffline := by
  rw [noted_alarms]
  exact judgeReply_online (decide_eq_true offline)

theorem noted_sound {port : Port} (is : reply = .status port false false) :
    (p.noted f reply).alarms.rests (.island f.entry.island) .mirrorFault := by
  subst is
  rw [noted_alarms]
  exact judgeReply_sound (r := f.entry.request) (port := port)

theorem noted_faults (sound : EntriesSound p) (faults : (∃ port moving, reply = .status port moving true) ∨
    ∃ c port asked, reply = .refuse c ∧ f.entry.request = .move port asked) :
    Firm (.island f.entry.island) .mirrorFault (p.noted f reply) :=
  (judgeReply_faults (reported_entries f reply p sound) faults : Firm (.island f.entry.island) .mirrorFault (p.judged f reply)).of_alarms
    (noted_alarms f reply p) (noted_mode f reply p)

end

end Sys2Proof.Machine
end

section
/-! PROOFS. What the delivery of a reply keeps: the alarms it does not speak of, and the source on air with the mirror (R102 to R105). -/

namespace Sys2Proof.Machine

/-! ### Re-forming and examining -/

section
variable {i : IslandId} {I : Part → Prop} (K : Toils i I)
include K

theorem reform_toils {p : Part} (a : I p) : I (reform i p) := by
  unfold reform
  split
  · exact a
  · dsimp only
    split
    · exact a
    · split
      · exact endActive_toils K _ _ (K.front _ _ a)
      · rw [formCut_eq]
        exact workTake_toils K (ite_keeps (cutSoon_toils K (K.front _ _ a)) (K.refresh _ _ (K.front _ _ a)))

theorem reformOrActivate_toils {p : Part} (a : I p) : I (reformOrActivate i p) :=
  ite_keeps (reform_toils K a) (activate_toils K _ a)

theorem examine_toils {p : Part} (a : I p) : I (examine i p) := by
  unfold examine
  split
  · dsimp only
    exact ite_keeps (onAirFault_toils K a) (ite_keeps (ite_keeps (onAirFault_toils K a) a) (onAirStop_toils K (ite_keeps (onAirFault_toils K a) a)))
  · exact a
  · exact a

theorem meetGuardKnown_toils (known : ∀ p, I p → I (clearNoSafe i p)) {p : Part} (a : I p) : I (meetGuardKnown i p) := by
  unfold meetGuardKnown
  split
  · rename_i due
    have free := guardDue_free due
    unfold closeGuard raiseFallBack fallBack
    dsimp only
    split
    · exact known _ a
    · exact K.raise _ _ _ _ _ (by split <;> simp) (known _ (ite_keeps (K.ends _ _ _ (K.commit _ _ _ _ free a)) (K.commit _ _ _ _ free a)))
  · exact known _ a

end

theorem clearNoSafe_island (i : IslandId) (p : Part) : (clearNoSafe i p).island i = p.island i :=
  ((clearAlarm_frame (.island i) .noSafeSource 0 0 p) (.island i) (by cases i <;> decide)).symm

/-! ### A delivery -/

/-- A property that the delivery of a report keeps: what the scheduler's work on island `i` keeps, and so does a change of the source on
air, of the mirror, and of the wait for a move. -/
structure Minds (i : IslandId) (I : Part → Prop) : Prop extends Toils i I where
  air : ∀ n c o f p, I p → I (setOnAir i n c o f p)
  mirror : ∀ m p, I p → I (p.modIsland i fun x => { x with mirror := m })
  waits : ∀ p, I p → I (endConfirmation i p)
  known : ∀ p, I p → I (clearNoSafe i p)

section
variable {i : IslandId} {I : Part → Prop} (K : Minds i I) {p : Part}
include K

theorem endMove_minds (owner : Owner) (m : MirrorState) (new : Source) (cause : OnAirCause) (port : Option Port) (cut : Option Stamp)
    (out : Take → TakeOutcome) (r : Reason) (a : I p) : I (endMove i owner m new cause port cut out r p) := by
  have aired : I (airMove i m new cause port cut p) := K.air _ _ _ _ _ (K.waits _ (K.mirror _ _ a))
  obtain ⟨-, t, -, ends⟩ | ⟨-, ends⟩ := endMove_cases i owner m new cause port cut out r p
  · rw [ends]
    exact K.ends _ _ _ aired
  · rw [ends]
    exact aired

theorem meetGuardKnown_minds (a : I p) : I (meetGuardKnown i p) := meetGuardKnown_toils K.toToils K.known a

theorem confirmMove_minds (c : Confirmation) (a : I p) : I (confirmMove i c p) := by
  rw [confirmMove_eq]
  exact meetGuardKnown_minds K (meetCommit_toils K.toToils (reformOrActivate_toils K.toToils (examine_toils K.toToils
    (endMove_minds K _ _ _ _ _ _ _ _ a))))

theorem reportSource_minds (n : Source) (o : Option Port) (a : I p) : I (reportSource i n o p) := by
  have examined : I (examine i (reform i (setOnAir i n .report o none p))) := examine_toils K.toToils (reform_toils K.toToils (K.air _ _ _ _ _ a))
  unfold reportSource
  exact ite_keeps a (ite_keeps (meetGuard_toils K.toToils examined) (meetGuardKnown_minds K examined))

theorem deliverStatus_minds (port : Port) (moving : Bool) (a : I p) : I (deliverStatus i port moving p) := by
  unfold deliverStatus
  split
  · exact ite_keeps (confirmMove_minds K _ a) a
  · exact ite_keeps (reportSource_minds K _ _ (K.mirror _ _ a)) (ite_keeps a (reportSource_minds K _ _ (K.mirror _ _ a)))

end

/-- What turns on the alarms alone, and that the raise of LOCK_LOSS and the clears of a change of source leave. -/
theorem minds_of_alarms {i : IslandId} {I : Part → Prop} (K : Toils i I)
    (same : ∀ p q : Part, q.alarms = p.alarms → q.mode = p.mode → I p → I q)
    (raise : ∀ h p, I p → I (raiseAlarm (.head h) .lockLoss 0 0 p))
    (clear : ∀ s k p, k = .lockLoss ∨ k = .noSafeSource → I p → I (clearAlarm s k 0 0 p)) : Minds i I where
  toToils := K
  air n c o f p a := by
    have told : ∀ (old new : Source) {p : Part}, I p → I (tellMonitors old new p) := fun old new p a => by
      have cleared : ∀ h, I (if p.onAir h then p else clearAlarm (.head h) .lockLoss 0 0 p) := fun h =>
        ite_keeps a (clear _ _ _ (.inl rfl) a)
      have raised : ∀ {q : Part} h, I q → I (if (q.head h).drive = .unlocked then raiseAlarm (.head h) .lockLoss 0 0 q else q) := fun h b =>
        ite_keeps (raise _ _ b) b
      unfold tellMonitors
      cases old with
      | head g =>
        cases new with
        | head h => exact raised h (cleared g)
        | standby | unknown => exact cleared g
      | standby | unknown =>
        cases new with
        | head h => exact raised h a
        | standby | unknown => exact a
    have posted := K.post (.island i) (.onAir c n (p.island i).onAir o f) (p.modIsland i fun x =>
      { x with onAir := n, fEnd := if (p.island i).onAir = n then x.fEnd else none }) (same p _ rfl rfl a)
    have followed : ∀ {q : Part}, I q → I (followEnd i q) := fun {q} b => same q _ rfl rfl b
    exact followed (ite_keeps posted (told _ _ posted))
  mirror m p a := same p _ rfl rfl a
  waits p a := by
    have frame := endFast_frame i (p.modIsland i fun x => { x with confirm := none })
    exact same p _ (frame .alarms (by decide)).symm (frame .mode (by decide)).symm a
  known p a := clear _ _ _ (.inr rfl) a

theorem firm_minds (i : IslandId) : Minds i (Firm (.island i) .mirrorFault) :=
  minds_of_alarms (firm_toils rfl (by decide) i) (fun _ _ alarms mode a => a.of_alarms alarms mode) (fun _ _ a => a.raise (by decide) 0 0)
    fun _ _ _ kind a => a.clear (by obtain rfl | rfl := kind <;> decide) 0 0

theorem rests_minds (i : IslandId) {k : AlarmKind} (other : k ≠ .runout ∧ k ≠ .lateStart) :
    Minds i fun p => p.alarms.rests (.island i) k :=
  minds_of_alarms (rests_toils (fun j n kind same => by
      cases same
      exact kind.elim other.1 other.2) i)
    (fun _ _ alarms _ a => rests_of_alarms a alarms) (fun _ _ a => rests_raiseAlarm a (by simp) 0 0) fun _ _ _ _ a => rests_clearAlarm a 0 0

/-! ### The source on air and the mirror -/

/-- `new` is on air on island `i`, the mirror at rest as given, or under way to the port that is awaited. -/
structure Aired (i : IslandId) (new : Source) (m : MirrorState) (p : Part) : Prop where
  onAir : (p.island i).onAir = new
  mirror : (p.island i).mirror = m ∧ (p.island i).confirm = none ∨ ∃ d, (p.island i).confirm = some d ∧ (p.island i).mirror = .moving d.port

section
variable {i : IslandId} {new : Source} {m : MirrorState} {p q : Part}

theorem Aired.of_same (a : Aired i new m p) (onAir : (q.island i).onAir = (p.island i).onAir)
    (mirror : (q.island i).mirror = (p.island i).mirror) (confirm : (q.island i).confirm = (p.island i).confirm) : Aired i new m q :=
  ⟨onAir.trans a.onAir, by rw [mirror, confirm]; exact a.mirror⟩

theorem Aired.of_island (a : Aired i new m p) (same : q.island i = p.island i) : Aired i new m q :=
  a.of_same (by rw [same]) (by rw [same]) (by rw [same])

theorem Aired.of_gist (a : Aired i new m p) (same : (q.island i).gist = (p.island i).gist) : Aired i new m q :=
  a.of_same (congrArg Island.Gist.onAir same) (congrArg Island.Gist.mirror same) (congrArg Island.Gist.confirm same)

/-- The work of the scheduler on the island leaves what is on air, and moves the mirror by a commit alone. -/
theorem aired_toils (i : IslandId) (new : Source) (m : MirrorState) : Toils i (Aired i new m) where
  post s e p a := a.of_island (post_island s e p i)
  raise s k x y p _ a := a.of_island (raiseAlarm_island (.island s) k x y p i)
  front f p a := by
    obtain ⟨l, -, is⟩ := Island.modFront_keeps f (p.island i)
    refine a.of_same ?_ ?_ ?_ <;> rw [modFront_island, is]
  refresh k p a := a.of_gist (refreshTake_gist k p i)
  start h p _ a := a.of_gist (startRequest_gist h p i)
  commit s c o p _ a := by
    have moved := commit_island i s c o p
    exact ⟨by rw [moved]; exact a.onAir, .inr ⟨_, by rw [moved], by rw [moved]⟩⟩
  ends o r p a := by
    cases takes : (p.island i).takes with
    | nil =>
      rw [endFront, takes]
      exact a
    | cons t rest => refine a.of_same ?_ ?_ ?_ <;> rw [endFront_island takes]

theorem Aired.known (a : Aired i new m p) : Aired i new m (meetGuardKnown i p) :=
  meetGuardKnown_toils (aired_toils i new m) (fun p b => b.of_island (clearNoSafe_island i p)) a

end

end Sys2Proof.Machine
end

section
/-! PROOFS. The F_end record of the source on air behind a report, and the takes that follow it (R75, R82, R96, R104, R105). -/

namespace Sys2Proof.Machine

/-! ### The record of the film on air -/

/-- The source on air and the F_end record of island `i` are these. -/
structure Ends (i : IslandId) (new : Source) (e : Option Pred) (p : Part) : Prop where
  onAir : (p.island i).onAir = new
  fEnd : (p.island i).fEnd = e

section
variable {i : IslandId} {new : Source} {e : Option Pred} {p q : Part}

theorem Ends.of_island (a : Ends i new e p) (same : q.island i = p.island i) : Ends i new e q :=
  ⟨by rw [same]; exact a.onAir, by rw [same]; exact a.fEnd⟩

theorem Ends.frame {bs : List Block} (a : Ends i new e p) (same : ChangesOnly bs p q) (island : Block.island i ∉ bs) : Ends i new e q :=
  a.of_island (same (.island i) island).symm

theorem Ends.modFront (a : Ends i new e p) (f : Take → Take) : Ends i new e (p.modFront i f) := by
  obtain ⟨l, -, is⟩ := Island.modFront_keeps f (p.island i)
  refine ⟨?_, ?_⟩ <;> rw [modFront_island, is]
  · exact a.onAir
  · exact a.fEnd

theorem Ends.refresh (a : Ends i new e p) (j : IslandId) : Ends i new e (refreshTake j p) :=
  ⟨(congrArg Island.Gist.onAir (refreshTake_gist j p i)).trans a.onAir, (refreshTake_fEnd j i p).trans a.fEnd⟩

theorem Ends.commit (a : Ends i new e p) (s : Source) (c : Stamp) (o : Owner) : Ends i new e (commit i s c o p) := by
  refine ⟨?_, ?_⟩ <;> rw [commit_island]
  · exact a.onAir
  · exact a.fEnd

theorem Ends.endFront (a : Ends i new e p) (o : TakeOutcome) (r : Reason) : Ends i new e (endFront i o r p) := by
  cases takes : (p.island i).takes with
  | nil =>
    rw [Machine.endFront, takes]
    exact a
  | cons t rest =>
    refine ⟨?_, ?_⟩ <;> rw [endFront_island takes]
    · exact a.onAir
    · exact a.fEnd

theorem Ends.commitTake (a : Ends i new e p) (o : TakeOutcome) (l : Option Int) : Ends i new e (commitTake i o l p) := by
  unfold Machine.commitTake
  split
  · exact a
  · exact ((a.commit _ _ _).modFront _).of_island (post_island _ _ _ i)

theorem Ends.onAirFault (a : Ends i new e p) : Ends i new e (onAirFault i p) := by
  unfold Machine.onAirFault standbyNow
  split
  · exact a
  · split
    · exact ite_keeps ((((a.modFront _).modFront _).refresh i).commitTake _ _) (a.commit _ _ _)
    · exact a.commit _ _ _

theorem Ends.examine (a : Ends i new e p) : Ends i new e (examine i p) := by
  have stops : ∀ {p : Part}, Ends i new e p → Ends i new e (onAirStop i p) := fun b => ite_keeps b (b.commit _ _ _)
  unfold Machine.examine
  split
  · exact ite_keeps a.onAirFault (ite_keeps (ite_keeps a.onAirFault a) (stops (ite_keeps a.onAirFault a)))
  · exact a
  · exact a

theorem Ends.closeGuard (a : Ends i new e p) {known : Part → Part} (keeps : ∀ {p : Part}, Ends i new e p → Ends i new e (known p)) :
    Ends i new e (closeGuard i known p) := by
  unfold Machine.closeGuard raiseFallBack fallBack
  dsimp only
  split
  · exact keeps a
  · exact (keeps (ite_keeps ((a.commit _ _ _).endFront _ _) (a.commit _ _ _))).of_island (raiseAlarm_island _ _ _ _ _ i)

theorem Ends.guard (a : Ends i new e p) : Ends i new e (meetGuard i p) ∧ Ends i new e (meetGuardKnown i p) := by
  have clears : ∀ {p : Part}, Ends i new e p → Ends i new e (clearNoSafe i p) := fun b => b.of_island (clearNoSafe_island i _)
  exact ⟨ite_keeps (a.closeGuard id) a, ite_keeps (a.closeGuard clears) (clears a)⟩

end

/-- The F_end record follows the head on air, which the active take does not bring in. -/
structure Filmed (i : IslandId) (new : Source) (e : Option Pred) (p : Part) : Prop extends Ends i new e p where
  owned : ∀ r, e = some r → new = .head r.head
  other : ∀ t, (p.island i).active = some t → t.incoming ≠ new

section
variable {i : IslandId} {new : Source} {e : Option Pred}

theorem Filmed.of_island {p q : Part} (a : Filmed i new e p) (same : q.island i = p.island i) : Filmed i new e q :=
  ⟨a.toEnds.of_island same, a.owned, by rw [same]; exact a.other⟩

/-- The work of a take that brings in another head leaves the record of the film on air alone. -/
theorem filmed_takes (i : IslandId) (new : Source) (e : Option Pred) : TakesKeep i (Filmed i new e) where
  post s x p a := a.of_island (post_island s x p i)
  front j f t p active follows a := by
    by_cases same : i = j
    · subst same
      refine ⟨a.toEnds.modFront f, a.owned, fun u is => ?_⟩
      rw [Option.some.inj (is.symm.trans (modFront_active active follows.past)), follows.incoming]
      exact a.other t active
    · exact a.of_island (modFront_island_ne same f p)
  preds h x f p front _ a := by
    obtain ⟨t, active, is⟩ := Option.map_eq_some_iff.1 front
    have incoming : t.incoming = .head h := congrArg Prod.fst is
    have mapped := (leads_of_active active).mapPreds h f
    refine ⟨⟨?_, ?_⟩, a.owned, fun u is => ?_⟩
    · rw [mapPreds_island]
      exact a.onAir
    · rw [mapPreds_island]
      show (p.island i).fEnd.map (followedBy h f .cutOrEnd) = e
      rw [a.fEnd]
      cases known : e with
      | none => rfl
      | some r =>
        have apart : r.head ≠ h := fun same => a.other t active (by rw [incoming, a.owned r known, same])
        rw [Option.map_some, followedBy, if_neg apart]
    · rw [Option.some.inj (is.symm.trans mapped.active)]
      exact a.other t active
  start h x p _ _ a := a.of_island (startDrive_island h .scheduler p i)
  commit o l p a := by
    cases active : (p.island i).active with
    | none =>
      have same : commitTake i o l p = p := by simp only [commitTake, active]
      rwa [same]
    | some t =>
      refine ⟨a.toEnds.commitTake o l, a.owned, fun u is => ?_⟩
      rw [Option.some.inj (is.symm.trans ((leads_of_active active).commitTake o l rfl).active)]
      exact a.other t active

variable (owned : ∀ r, e = some r → new = .head r.head)
include owned

/-- An activation leaves the record of the film on air: a take that brings in the source on air ends. -/
theorem activate_ends (n : Nat) : ∀ {p : Part}, Ends i new e p → Ends i new e (activate n i p) := by
  induction n with
  | zero => exact id
  | succ n ih =>
    intro p a
    cases takes : (p.island i).takes with
    | nil => rwa [activate_empty takes]
    | cons t rest =>
      by_cases waits : t.state = .queued
      · by_cases awaits : p.awaits i = true
        · rwa [activate_awaits awaits]
        · have free := free_of_not_awaits awaits
          by_cases dead : t.incoming = (p.island i).onAir ∨ ∃ h, t.incoming = .head h ∧ (p.head h).drive = .fault
          · rw [activate_dead takes waits free dead]
            exact ih ((a.modFront _).endFront _ _)
          · rw [activate_enters takes waits free dead]
            have led : p.island i = (p.island i).led t := by
              rw [Island.led, takes]
              exact (congrArg (fun l => { p.island i with takes := l }) takes.symm).symm
            obtain ⟨q, leads, works, -⟩ := enterTake_works (p.island i).onAir led
            have filmed : Filmed i new e q := ⟨⟨by rw [leads.island]; exact a.onAir, by rw [leads.island]; exact a.fEnd⟩, owned, fun u is => by
              rw [Option.some.inj (is.symm.trans leads.active), (Take.active_activated p i (p.island i).onAir t).incoming, ← a.onAir]
              exact fun same => dead (.inl same)⟩
            rw [works]
            exact (workTake_takes (filmed_takes i new e) ((filmed_takes i new e).post _ _ _ filmed)).toEnds
      · unfold activate
        rw [takes]
        dsimp only
        rw [if_pos (.inl waits)]
        exact a

/-- A re-forming leaves the record of the film on air. -/
theorem reform_ends {p : Part} (a : Ends i new e p) : Ends i new e (reform i p) := by
  cases active : (p.island i).active with
  | none =>
    unfold reform
    rw [active]
    exact a
  | some t =>
    cases pending : t.state.pending with
    | false => rwa [reform_past active pending]
    | true =>
      by_cases same : t.incoming = (p.island i).onAir
      · rw [reform_same active pending same]
        exact activate_ends owned _ ((a.modFront _).endFront _ _)
      · obtain ⟨q, leads, works⟩ := reform_works active pending same
        have filmed : Filmed i new e q := ⟨⟨by rw [leads.island]; exact a.onAir, by rw [leads.island]; exact a.fEnd⟩, owned, fun u is => by
          rw [Option.some.inj (is.symm.trans leads.active), (Take.reformed_reformed pending).incoming, ← a.onAir]
          exact same⟩
        rw [works]
        exact (workTake_takes (filmed_takes i new e) filmed).toEnds

end

/-- The scheduler's work leaves the island's settings. -/
theorem settings_toils (i : IslandId) (z : IslandSettings) : Toils i fun p => (p.island i).settings = z where
  post s e p a := by rw [post_island]; exact a
  raise s k x y p _ a := by rw [raiseAlarm_island]; exact a
  front f p a := by
    obtain ⟨l, -, is⟩ := Island.modFront_keeps f (p.island i)
    rw [modFront_island, is]
    exact a
  refresh k p a := (congrArg Island.Gist.settings (refreshTake_gist k p i)).trans a
  start h p _ a := (congrArg Island.Gist.settings (startRequest_gist h p i)).trans a
  commit s c o p _ a := by rw [commit_island]; exact a
  ends o r p a := by
    cases takes : (p.island i).takes with
    | nil =>
      rw [endFront, takes]
      exact a
    | cons t rest =>
      rw [endFront_island takes]
      exact a

/-! ### What the new source does not call for -/

/-- A head that has come on air running, and without LAMP_FAIL, is left as it is (R102, R104). -/
theorem examine_still {i : IslandId} {p : Part} {new : Source} (onAir : (p.island i).onAir = new)
    (runs : ∀ h, new = .head h → (p.head h).drive.running = true ∧ (p.analog.lamp.get h).condition ≠ some .lampFail) : examine i p = p := by
  unfold examine
  rw [onAir]
  cases new with
  | head h =>
    obtain ⟨running, lit⟩ := runs h rfl
    have sane : (p.head h).drive ≠ .fault := fun fault => by
      rw [fault] at running
      exact nomatch running
    dsimp only
    rw [if_neg sane, if_neg lit, if_pos running]
  | standby | unknown => rfl

/-- The guard of a film whose end is not reached does not act (R105). -/
theorem guardDue_ahead {i : IslandId} {new : Source} {e : Option Pred} {v p : Part} (a : Ends i new e p)
    (ahead : ∀ f, e.bind (·.value) = some f → v.ahead i f) (ref : p.ref = v.ref) (settings : (p.island i).settings = (v.island i).settings) :
    guardDue i p = false := by
  have still : ∀ f, e.bind (·.value) = some f → reached p.ref.count (Stamp.minus f (p.island i).settings.lead) = false := fun f is => by
    have far := ahead f is
    rw [ref, settings]
    exact decide_eq_false (Nat.not_lt.2 far)
  unfold guardDue
  dsimp only
  rw [a.fEnd]
  cases (p.island i).onAir with
  | head h =>
    cases value : e.bind (·.value) with
    | none => exact Bool.and_false _
    | some f => exact (congrArg (!p.awaits i && ·) (still f value)).trans (Bool.and_false _)
  | standby | unknown => exact Bool.and_false _

theorem clearAlarm_closes (i : IslandId) (s : AlarmSource) (k : AlarmKind) (a b : Word) (p : Part) : Closes i p (clearAlarm s k a b p) where
  island := ((clearAlarm_frame s k a b p) (.island i) (by cases i <;> decide)).symm
  heads h := clearAlarm_head s k a b p h
  ref := ((clearAlarm_frame s k a b p) .ref (by decide)).symm
  told _ h := (h.awaits.clear _ _ _ _).holds

/-! ### A report that moves the source on air -/

theorem ending_owned (p : Part) (new : Source) : ∀ r, p.ending new = some r → new = .head r.head := fun r is => by
  obtain ⟨⟨h, c⟩, frame, rfl⟩ := Option.map_eq_some_iff.1 is
  rw [formPred_head]
  cases new with
  | head g =>
    obtain ⟨cue, -, pair⟩ := Option.map_eq_some_iff.1 frame
    exact congrArg Source.head (congrArg Prod.fst pair)
  | standby | unknown => exact nomatch frame

section
variable {i : IslandId} {new : Source} {port : Option Port} {p : Part} (changes : (p.island i).onAir ≠ new)
include changes

theorem reportSource_changes : reportSource i new port p =
    if new = .unknown then meetGuard i (examine i (reform i (setOnAir i new .report port none p)))
      else meetGuardKnown i (examine i (reform i (setOnAir i new .report port none p))) := if_neg changes

/-- The source on air becomes the one reported, and F_end follows its film (R75, R104). -/
theorem reportSource_ends : Ends i new (p.ending new) (reportSource i new port p) := by
  obtain ⟨e, island, is⟩ := setOnAir_air i new .report port none p
  have aired : Ends i new (p.ending new) (setOnAir i new .report port none p) := by
    refine ⟨?_, ?_⟩ <;> rw [island]
    exact is (.inl changes)
  obtain ⟨met, known⟩ := (reform_ends (ending_owned p new) aired).examine.guard
  rw [reportSource_changes changes]
  exact ite_keeps met known

theorem reportSource_aired (free : (p.island i).confirm = none) : Aired i new (p.island i).mirror (reportSource i new port p) := by
  obtain ⟨e, island, -⟩ := setOnAir_air i new .report port none p
  have K := aired_toils i new (p.island i).mirror
  have aired : Aired i new (p.island i).mirror (setOnAir i new .report port none p) := by
    refine ⟨?_, .inl ⟨?_, ?_⟩⟩ <;> rw [island]
    exact free
  have examined := examine_toils K (reform_toils K aired)
  rw [reportSource_changes changes]
  exact ite_keeps (meetGuard_toils K examined) examined.known

/-- ON_AIR tells of it (R112). -/
theorem reportSource_holds {k : Nat} {es : List Event} (a : Awaits k es p) (room : k < Config.maxEvents) :
    Holds (es ++ [⟨.island i, p.ref.count, .onAir .report new (p.island i).onAir port none⟩]) (reportSource i new port p) := by
  have K := holds_scheduler (es ++ [⟨.island i, p.ref.count, .onAir .report new (p.island i).onAir port none⟩])
  have examined := examine_keeps K i (reform_keeps K i (setOnAir_awaits a room i new .report port none).holds)
  rw [reportSource_changes changes]
  exact ite_keeps (meetGuard_keeps K i examined) (meetGuardKnown_keeps K i examined)

/-- The active take is re-formed for the new source (R96, R104). -/
theorem reportSource_follows {v : Part} (view : Views i v p) (active : (p.island i).active.isSome = true) (free : (p.island i).confirm = none)
    (heard : v.hears i → ∃ k es, Awaits k es p ∧ k + 4 + (p.island i).takes.length < Config.maxEvents)
    (runs : ∀ h, new = .head h → (p.head h).drive.running = true ∧ (p.analog.lamp.get h).condition ≠ some .lampFail)
    (ahead : ∀ f, ((reportSource i new port p).island i).fEnd.bind (·.value) = some f → v.ahead i f) :
    TakesFollow i new v (reportSource i new port p) (p.island i).takes := by
  obtain ⟨e, island, is⟩ := setOnAir_air i new .report port none p
  rw [(reportSource_ends changes).fEnd] at ahead
  have frame := setOnAir_frame i new .report port none p
  have aired : Ends i new (p.ending new) (setOnAir i new .report port none p) := by
    refine ⟨?_, ?_⟩ <;> rw [island]
    exact is (.inl changes)
  have follows := fun q => takes_follow (i := i) (v := v) (p := setOnAir i new .report port none p) (q := q) (list := (p.island i).takes)
    (r := reform i (setOnAir i new .report port none p))
    ⟨fun h => (frame.head (by cases i <;> cases h <;> decide)).trans (view.heads h), (frame .ref (by cases i <;> decide)).symm.trans view.ref,
      by rw [island]; exact view.settings⟩
    (by rw [island]) (by rw [island]; exact free)
    (fun h => have ⟨k, es, a, room⟩ := heard h
      ⟨k + 4, _, setOnAir_awaits a (by omega) i new .report port none, room⟩)
    (.inl (by rw [reformOrActivate, if_pos]; rw [island]; exact active))
  rw [aired.onAir] at follows
  have formed := reform_ends (ending_owned p new) aired
  have sched := (setOnAir_sched i new .report port none p).trans (reform_sched i _)
  have settings : ((reform i (setOnAir i new .report port none p)).island i).settings = (v.island i).settings :=
    reform_toils (settings_toils i _) (by rw [island]; exact view.settings)
  have wired : ∀ h, new = .head h → Wired h (p.head h) (p.analog.at h) (reform i (setOnAir i new .report port none p)) := fun h on => by
    refine reform_toils (wired_toils h _ _ i) ?_
    exact ⟨frame.head (by cases i <;> cases h <;> decide), (DriveState.running_moving (runs h on).1).1,
      congrArg (Analog.at · h) (frame .analog (by cases i <;> decide)).symm⟩
  have still := examine_still formed.onAir fun h on => by
    have lamp : (reform i (setOnAir i new .report port none p)).analog.lamp.get h = p.analog.lamp.get h :=
      congrArg Analog.View.lamp (wired h on).view
    rw [(wired h on).head, lamp]
    exact runs h on
  have undue := guardDue_ahead formed ahead ((sched.frame .ref (by decide)).symm.trans view.ref) settings
  rw [reportSource_changes changes, still]
  split
  · rw [meetGuard, undue, if_neg Bool.false_ne_true]
    exact follows _ (.refl i _)
  · rw [meetGuardKnown, undue, if_neg Bool.false_ne_true]
    exact follows _ (clearAlarm_closes i _ _ 0 0 _)

end

end Sys2Proof.Machine
end

section
/-! PROOFS. A move as it is confirmed (R102), and the replies of the stations (R116 to R129). -/

namespace Sys2Proof.Machine

/-! ### The end of a move while the line rests in GAP -/

section
variable {i : IslandId} {owner : Owner} {m : MirrorState} {new : Source} {cause : OnAirCause} {port : Option Port} {cut : Option Stamp}
  {out : Take → TakeOutcome} {r : Reason} {p : Part}

theorem endFast_gap (gap : p.link.line = .gap) (i : IslandId) : (endFast i p).evt = p.evt := by
  have busy : ∀ f : Station → Station, (p.modStation i f).link.line ≠ .idle := fun f idle => by
    rw [show (p.modStation i f).link.line = p.link.line from rfl, gap] at idle
    exact nomatch idle
  unfold endFast
  dsimp only
  split
  · exact (pumpLink_of_busy (busy _)).evt
  · rfl

/-- With the link busy the end of a move tells of no more than ON_AIR, LOCK_LOSS, and the take that owned it (R112). -/
theorem endMove_gap_awaits {k : Nat} {es : List Event} (a : Awaits k es p) (gap : p.link.line = .gap) (free : k + 4 < Config.maxEvents) :
    ∃ n, n + ((p.island i).leftBy owner).length ≤ k + 4 + (p.island i).takes.length ∧
      Awaits n (es ++ ((p.island i).endItems owner new cause port cut out r).map fun e => ⟨.island i, p.ref.count, e⟩)
        (endMove i owner m new cause port cut out r p) := by
  have waits : Awaits k es ((p.modIsland i fun x => { x with mirror := m }).modIsland i fun x => { x with confirm := none }) := a.of_evt rfl
  have ended : Awaits k es (endConfirmation i (p.modIsland i fun x => { x with mirror := m })) := waits.of_evt (by
    unfold endConfirmation
    exact endFast_gap (by exact gap) i)
  have aired := setOnAir_awaits ended (by omega) i new cause port cut
  rw [endConfirmation, ← (endFast_frame i _) .ref (by decide), ← (endFast_frame i _) (.island i) (by cases i <;> decide), modIsland_island,
    modIsland_island] at aired
  have aired : Awaits (k + 4) (es ++ [⟨.island i, p.ref.count, .onAir cause new (p.island i).onAir port cut⟩])
    (airMove i m new cause port cut p) := aired
  have same := airMove_active i m new cause port cut p
  obtain ⟨own, t, active, ends⟩ | ⟨none, ends⟩ := endMove_cases i owner m new cause port cut out r p
  · have told := endFront_awaits aired active free (out t) r
    rw [← (airMove_sched i m new cause port cut p) .ref (by decide), List.append_assoc] at told
    have active' := same.symm.trans active
    have takes := (List.cons_head?_tail (Island.active_eq_some.1 active').1).symm
    refine ⟨k + 5, ?_, ?_⟩
    · rw [Island.leftBy, if_pos ⟨own, by rw [active']; rfl⟩]
      have length := congrArg List.length takes
      rw [List.length_cons] at length
      omega
    · rw [ends, Island.endItems, if_pos own, active']
      exact told
  · rw [same] at none
    have unowned : (if owner = .take then (p.island i).active.toList.map fun t => t.endItem (out t) r else []) = [] := by
      split
      · rename_i own
        rw [Option.not_isSome_iff_eq_none.1 fun h => none ⟨own, h⟩]
        rfl
      · rfl
    refine ⟨k + 4, ?_, ?_⟩
    · rw [Island.leftBy, if_neg none]
    · rw [ends, Island.endItems, unowned]
      exact aired

end

/-! ### A source known again -/

/-- NO_SAFE_SOURCE has cleared once the source is known, whatever the guard did (R102, R104). -/
theorem meetGuardKnown_rests (i : IslandId) (p : Part) : (meetGuardKnown i p).alarms.rests (.island i) .noSafeSource := by
  have clears : ∀ p, (clearNoSafe i p).alarms.rests (.island i) .noSafeSource := fun p => clearAlarm_rests _ _ 0 0 p
  unfold meetGuardKnown
  split
  · unfold closeGuard raiseFallBack
    dsimp only
    split
    · exact clears p
    · exact rests_raiseAlarm (clears _) (by split <;> simp) 0 0
  · exact clears p

/-- A move awaits on island `i`, the mirror under way to its port. -/
def Committing (i : IslandId) (p : Part) : Prop := ∃ d, (p.island i).confirm = some d ∧ (p.island i).mirror = .moving d.port

theorem Committing.of_island {i : IslandId} {p q : Part} (a : Committing i p) (same : q.island i = p.island i) : Committing i q := by
  rwa [Committing, same]

theorem commit_committing (i : IslandId) (s : Source) (c : Stamp) (o : Owner) (p : Part) : Committing i (commit i s c o p) :=
  ⟨_, by rw [commit_island], by rw [commit_island]⟩

theorem Committing.endFront {i : IslandId} {p : Part} (a : Committing i p) (o : TakeOutcome) (r : Reason) :
    Committing i (endFront i o r p) := by
  cases takes : (p.island i).takes with
  | nil =>
    rw [Machine.endFront, takes]
    exact a
  | cons t rest =>
    rw [Committing, endFront_island takes]
    exact a

/-- The guard that acts has a film to end, and has committed (R105). -/
theorem meetGuardKnown_commits {i : IslandId} {p : Part} (due : guardDue i p = true) :
    ((meetGuardKnown i p).island i).fEnd.isSome = true ∧ Committing i (meetGuardKnown i p) := by
  have ended : ((meetGuardKnown i p).island i).fEnd = (p.island i).fEnd := (Ends.guard (p := p) ⟨rfl, rfl⟩).2.fEnd
  have some_ : (p.island i).fEnd.isSome = true := by
    cases known : (p.island i).fEnd with
    | some _ => rfl
    | none =>
      unfold guardDue at due
      dsimp only at due
      rw [known] at due
      cases (p.island i).onAir <;> simp at due
  refine ⟨by rw [ended]; exact some_, ?_⟩
  have fell : ∀ r f, Committing i (fallBack i r (commit i .standby f .island p)) := fun r f =>
    ite_keeps ((commit_committing i _ _ _ p).endFront _ _) (commit_committing i _ _ _ p)
  unfold meetGuardKnown
  rw [if_pos due]
  unfold closeGuard
  dsimp only
  split
  · rename_i value
    unfold guardDue at due
    dsimp only at due
    rw [value] at due
    cases (p.island i).onAir <;> simp at due
  · unfold raiseFallBack
    exact ((fell _ _).of_island (clearNoSafe_island i _)).of_island (raiseAlarm_island _ _ _ _ _ i)

/-! ### A move that is confirmed -/

section
variable (i : IslandId) (c : Confirmation) (p : Part)

/-- The part as the move of island `i` is confirmed, before the takes that are left. -/
def confirmedMove : Part := endMove i c.owner (.atPort c.port) c.target .confirmed (some c.port) (some c.cut) (·.outcome) .none p

theorem confirmedMove_frame : ChangesOnly (Block.guarding i) p (confirmedMove i c p) := by
  have aired : ChangesOnly (Block.guarding i) p (airMove i (.atPort c.port) c.target .confirmed (some c.port) (some c.cut) p) :=
    (((modIsland_frame i _ p).mono (by simp [Block.guarding, Block.committing])).trans
      (((modIsland_frame i _ _).mono (by simp [Block.guarding, Block.committing])).trans
        ((endFast_frame i _).mono (by simp [Block.guarding, Block.committing])))).trans (setOnAir_frame i _ _ _ _ _)
  obtain ⟨-, t, -, ends⟩ | ⟨-, ends⟩ := endMove_cases i c.owner (.atPort c.port) c.target .confirmed (some c.port) (some c.cut) (·.outcome)
    .none p
  · rw [confirmedMove, ends]
    exact aired.trans ((endFront_frame i _ _ _).mono fun b mem => committing_guarding i (taking_committing i mem))
  · rw [confirmedMove, ends]
    exact aired

variable {i c p}

section
variable (calm : c.target = .standby ∨ ∃ h, c.target = .head h ∧ (p.head h).drive = .locked ∧ (p.analog.lamp.get h).condition ≠ some .lampFail)
include calm

/-- STANDBY, and a LOCKED head with its lamp, come on air without more (R102). -/
theorem confirmMove_calm : confirmMove i c p = meetGuardKnown i (meetCommit i (reformOrActivate i (confirmedMove i c p))) := by
  rw [confirmMove_eq]
  obtain ⟨e, island, -⟩ := endMove_island i c.owner (.atPort c.port) c.target .confirmed (some c.port) (some c.cut) (·.outcome) .none p
  rw [examine_still (new := c.target) (by rw [island]) fun h on => ?_]
  · rfl
  · obtain standby | ⟨g, is, locked, lit⟩ := calm
    · rw [standby] at on
      exact nomatch on
    · cases is.symm.trans on
      have frame := confirmedMove_frame i c p
      refine ⟨?_, ?_⟩
      · rw [endMove_heads, locked]
        rfl
      · have same : (confirmedMove i c p).analog = p.analog := (frame .analog (by cases i <;> decide)).symm
        rw [confirmedMove] at same
        rw [same]
        exact lit

end

theorem confirmMove_aired : Aired i c.target (.atPort c.port) (confirmMove i c p) := by
  obtain ⟨e, island, -⟩ := endMove_island i c.owner (.atPort c.port) c.target .confirmed (some c.port) (some c.cut) (·.outcome) .none p
  have K := aired_toils i c.target (.atPort c.port)
  rw [confirmMove_eq]
  refine (meetCommit_toils K (reformOrActivate_toils K (examine_toils K ⟨?_, .inl ⟨?_, ?_⟩⟩))).known <;> rw [island]

theorem confirmMove_holds {k : Nat} {es : List Event} (a : Awaits k es p) (gap : p.link.line = .gap) (free : k + 4 < Config.maxEvents) :
    Holds (es ++ ((p.island i).endItems c.owner c.target .confirmed (some c.port) (some c.cut) (·.outcome) .none).map fun e =>
      ⟨.island i, p.ref.count, e⟩) (confirmMove i c p) := by
  obtain ⟨n, -, told⟩ := endMove_gap_awaits (i := i) (owner := c.owner) (m := .atPort c.port) (new := c.target) (cause := .confirmed)
    (port := some c.port) (cut := some c.cut) (out := (·.outcome)) (r := .none) a gap free
  have K := holds_scheduler (es ++ ((p.island i).endItems c.owner c.target .confirmed (some c.port) (some c.cut) (·.outcome) .none).map fun e =>
      ⟨.island i, p.ref.count, e⟩)
  rw [confirmMove_eq]
  exact meetGuardKnown_keeps K i (meetCommit_keeps K i (reformOrActivate_keeps K i (examine_keeps K i told.holds)))

end

section
variable {i : IslandId} {c : Confirmation} {p : Part}
variable (calm : c.target = .standby ∨ ∃ h, c.target = .head h ∧ (p.head h).drive = .locked ∧ (p.analog.lamp.get h).condition ≠ some .lampFail)
include calm

/-- F_end is that of the film now on air (R75, R102). -/
theorem confirmMove_fEnd (changes : c.target ≠ (p.island i).onAir) : ((confirmMove i c p).island i).fEnd = p.ending c.target := by
  obtain ⟨e, island, is⟩ := endMove_island i c.owner (.atPort c.port) c.target .confirmed (some c.port) (some c.cut) (·.outcome) .none p
  have known : e = p.ending c.target := is (.inl (Ne.symm changes))
  have airs : Airs i ((p.island i).settings, (p.island i).authority, c.target, (p.island i).preset) (p.ending c.target)
      (confirmedMove i c p) := by
    refine ⟨?_, ?_, fun r film => ?_⟩
    · rw [Fixed, confirmedMove, island]
      rfl
    · rw [confirmedMove, island]
      exact known
    · have own := ending_owned p c.target r film
      rw [confirmedMove, endMove_heads]
      obtain standby | ⟨h, on, locked, -⟩ := calm
      · rw [standby] at own
        exact nomatch own
      · cases on.symm.trans own
        exact locked
  obtain ⟨fixed, fEnd, -⟩ := follow_holds (airs_takes i i _ _) airs
  have ends := (Ends.guard (p := meetCommit i (reformOrActivate i (confirmedMove i c p))) ⟨rfl, fEnd⟩).2.fEnd
  rw [confirmMove_calm calm]
  exact ends

/-- The takes that a confirmed move leaves (R92, R96). -/
theorem confirmMove_follows {v : Part} (view : Views i v p)
    (heard : v.hears i → ∃ k es, Awaits k es (confirmedMove i c p) ∧ k + ((p.island i).leftBy c.owner).length < Config.maxEvents)
    (ahead : ∀ f, ((confirmMove i c p).island i).fEnd.bind (·.value) = some f → v.ahead i f) :
    TakesFollow i c.target v (confirmMove i c p) ((p.island i).leftBy c.owner) := by
  obtain ⟨e, island, -⟩ := endMove_island i c.owner (.atPort c.port) c.target .confirmed (some c.port) (some c.cut) (·.outcome) .none p
  have island : (confirmedMove i c p).island i =
    { p.island i with mirror := .atPort c.port, confirm := none, onAir := c.target, fEnd := e, takes := (p.island i).leftBy c.owner } := island
  have view' : Views i v (confirmedMove i c p) :=
    ⟨fun h => (endMove_heads ..).trans (view.heads h), (endMove_ref ..).trans view.ref, by rw [island]; exact view.settings⟩
  have follows := fun q => takes_follow (q := q) view' (list := (p.island i).leftBy c.owner) (by rw [island]) (by rw [island]) heard (.inr rfl)
  rw [island] at follows
  have sched := (reformOrActivate_sched i (confirmedMove i c p)).trans (meetCommit_sched i _)
  have settings : ((meetCommit i (reformOrActivate i (confirmedMove i c p))).island i).settings = (v.island i).settings :=
    meetCommit_toils (settings_toils i _) (reformOrActivate_toils (settings_toils i _) (by rw [island]; exact view.settings))
  rw [confirmMove_calm calm] at ahead ⊢
  rw [(Ends.guard (p := meetCommit i (reformOrActivate i (confirmedMove i c p))) ⟨rfl, rfl⟩).2.fEnd] at ahead
  have undue := guardDue_ahead (p := meetCommit i (reformOrActivate i (confirmedMove i c p))) ⟨rfl, rfl⟩ ahead
    ((sched.frame .ref (by decide)).symm.trans view'.ref) settings
  rw [meetGuardKnown, undue, if_neg Bool.false_ne_true]
  exact follows _ (clearAlarm_closes i _ _ 0 0 _)

/-- A confirmed move leaves the island calm, unless a take that is left, or the end guard, makes its own commit (R102, R105). -/
theorem confirmMove_rests :
    (((confirmMove i c p).island i).mirror = .atPort c.port ∧ ((confirmMove i c p).island i).confirm = none ∧
      ((confirmMove i c p).link.stations.get i).fast = false) ∨
    (((p.island i).takes ≠ [] ∧ (c.owner = .take → (p.island i).active.isSome = true → (p.island i).takes.length ≠ 1)) ∨
      ((confirmMove i c p).island i).fEnd.isSome = true) ∧ Committing i (confirmMove i c p) := by
  obtain ⟨e, island, -⟩ := endMove_island i c.owner (.atPort c.port) c.target .confirmed (some c.port) (some c.cut) (·.outcome) .none p
  have station := endMove_station i c.owner (.atPort c.port) c.target .confirmed (some c.port) (some c.cut) (·.outcome) .none p
  have ended : Calm i (.atPort c.port) p.link.settings.interval (confirmedMove i c p) :=
    ⟨by rw [confirmedMove, island], by rw [confirmedMove, island], station.1, station.2⟩
  have closes : ∀ r, guardDue i r = false → meetGuardKnown i r = clearNoSafe i r := fun r undue => by
    rw [meetGuardKnown, undue, if_neg Bool.false_ne_true]
  have clears : ∀ r, (clearNoSafe i r).island i = r.island i ∧ (clearNoSafe i r).link = r.link := fun r =>
    ⟨clearNoSafe_island i r, ((clearAlarm_frame (.island i) .noSafeSource 0 0 r) .link (by decide)).symm⟩
  have calmly : ∀ {r}, Calm i (.atPort c.port) p.link.settings.interval r → guardDue i r = false →
      (((meetGuardKnown i r).island i).mirror = .atPort c.port ∧ ((meetGuardKnown i r).island i).confirm = none ∧
        ((meetGuardKnown i r).link.stations.get i).fast = false) := fun {r} a undue => by
    rw [closes r undue, (clears r).1, (clears r).2]
    exact ⟨a.mirror, a.confirm, a.fast⟩
  rw [confirmMove_calm calm]
  have follows := follow_holds (calm_takes i (.atPort c.port) p.link.settings.interval) (.inl ended)
  by_cases gone : (p.island i).leftBy c.owner = []
  · rw [follow_idle (by rw [confirmedMove, island]; exact gone)]
    cases due : guardDue i (confirmedMove i c p) with
    | true => exact .inr ⟨.inr (meetGuardKnown_commits due).1, (meetGuardKnown_commits due).2⟩
    | false => exact .inl (calmly ended due)
  · have left := not_not.1 (mt Island.leftBy_eq_nil.2 gone)
    generalize meetCommit i (reformOrActivate i (confirmedMove i c p)) = r at follows
    cases due : guardDue i r with
    | true => exact .inr ⟨.inl left, (meetGuardKnown_commits due).2⟩
    | false =>
      refine follows.imp (calmly · due) fun ⟨t, _, _, d, confirm, _, _, mirror⟩ => ⟨.inl left, ?_⟩
      rw [closes r due]
      exact Committing.of_island ⟨d, confirm, mirror⟩ (clears r).1

end

/-- The takes of an island are no more for the work behind a move's end; the take that owned the move is gone (R92). -/
theorem confirmMove_fewer {i : IslandId} {c : Confirmation} {p : Part} (own : c.owner = .take) {t : Take}
    (active : (p.island i).active = some t) : ((confirmMove i c p).island i).takes.length < (p.island i).takes.length := by
  obtain ⟨e, island, -⟩ := endMove_island i c.owner (.atPort c.port) c.target .confirmed (some c.port) (some c.cut) (·.outcome) .none p
  have takes := congrArg List.length (List.cons_head?_tail (Island.active_eq_some.1 active).1)
  rw [List.length_cons] at takes
  have K := fewer_toils (i := i) (p.island i).takes.length i
  have ended : Fewer i (p.island i).takes.length (confirmedMove i c p) := by
    rw [Fewer, confirmedMove, island]
    show ((p.island i).leftBy c.owner).length < _
    rw [Island.leftBy, if_pos ⟨own, by rw [active]; rfl⟩]
    omega
  have followed := meetCommit_toils K (reformOrActivate_toils K (examine_toils K ended))
  rw [confirmMove_eq]
  exact meetGuardKnown_toils K (fun p a => a.of_gist (congrArg Island.gist (clearNoSafe_island i p))) followed

end Sys2Proof.Machine
end

section
/-! PROOFS. The replies of the stations (R116, R120 to R122, R127 to R130): what each delivers to the scheduler (R102 to R104). -/

namespace Sys2Proof.Machine

/-! ### The film of a source -/

theorem ending_eq (p : Part) (out : Source) : p.ending out = match out with
    | .head h => (p.cueFor .ending none out).map fun c => formPred p .cutOrEnd h c.frame
    | .standby => none
    | .unknown => none := by
  cases out with
  | head h =>
    have first : firstPending .ending (p.head h).cues = p.cueFor .ending none (.head h) := by
      unfold firstPending Part.cueFor
      congr 1
      funext c
      simp
    show ((firstPending .ending (p.head h).cues).map fun c => (h, c.frame)).map _ = _
    rw [first, Option.map_map]
    rfl
  | standby | unknown => rfl

theorem guardDue_unknown {i : IslandId} {p : Part} (onAir : (p.island i).onAir = .unknown) : guardDue i p = false := by
  unfold guardDue
  dsimp only
  rw [onAir]
  exact Bool.and_false _

/-- With no take in the list nothing follows a source that is lost (R104). -/
theorem reportSource_idle {i : IslandId} {o : Option Port} {p : Part} (changes : (p.island i).onAir ≠ .unknown)
    (empty : (p.island i).takes = []) : reportSource i .unknown o p = setOnAir i .unknown .report o none p := by
  obtain ⟨e, island, -⟩ := setOnAir_air i .unknown .report o none p
  have still : reform i (setOnAir i .unknown .report o none p) = setOnAir i .unknown .report o none p := by
    have idle : ((setOnAir i .unknown .report o none p).island i).active = none := by
      simp only [Island.active, island, empty]
    rw [reform, idle]
  rw [reportSource_changes changes, if_pos rfl, still, examine_still (new := .unknown) (by rw [island]) nofun, meetGuard,
    guardDue_unknown (by rw [island]), if_neg Bool.false_ne_true]

/-! ### The source at a port -/

theorem sourceAt_congr {p q : Part} (i : IslandId) (port : Port) (heads : ∀ h, q.head h = p.head h)
    (settings : (q.island i).settings = (p.island i).settings) : q.sourceAt i port = p.sourceAt i port := by
  unfold Part.sourceAt
  rw [settings]
  simp only [heads]

theorem sourceAt_head {p : Part} {i : IslandId} {port : Port} {h : HeadId} (here : (p.head h).assigned = some ⟨i, port⟩)
    (alone : ∀ n, n ≠ h → (p.head n).assigned ≠ some ⟨i, port⟩) : p.sourceAt i port = .head h := by
  unfold Part.sourceAt
  cases found : HeadId.list.find? fun h => decide ((p.head h).assigned = some ⟨i, port⟩) with
  | some g =>
    have its := List.find?_some found
    by_cases same : g = h
    · rw [same]
    · exact absurd (of_decide_eq_true its) (alone g same)
  | none =>
    have lost := List.find?_eq_none.1 found h (by cases h <;> decide)
    exact absurd (decide_eq_true here) lost

theorem sourceAt_none {p : Part} {i : IslandId} {port : Port} (none_ : ∀ h, (p.head h).assigned ≠ some ⟨i, port⟩) :
    p.sourceAt i port = if (p.island i).settings.standbyPort = port then .standby else .unknown := by
  unfold Part.sourceAt
  have lost : (HeadId.list.find? fun h => decide ((p.head h).assigned = some ⟨i, port⟩)) = none :=
    List.find?_eq_none.2 fun h _ is => none_ h (of_decide_eq_true is)
  rw [lost]

/-! ### The delivery of a report -/

/-- `n` is `v` as a good reply has been told, its transaction ended, before the delivery to the scheduler. -/
structure Reported (v n : Part) : Prop where
  frame : ChangesOnly (.time :: .link :: Block.alarming) v n
  gap : n.link.line = .gap
  heard : v.listens → ∃ es, Awaits 5 es n

/-- What R92 and R96 make of `takes` in the step from `v` to `q`, where the head now on air runs with its lamp and its guard is not
reached. -/
def FollowedBy (i : IslandId) (out : Source) (v q : Part) (takes : List Take) : Prop :=
  (∀ h, out = .head h → (v.head h).drive.running = true ∧ (v.analog.lamp.get h).condition ≠ some .lampFail) →
    (∀ f, (q.island i).fEnd.bind (·.value) = some f → v.ahead i f) → TakesFollow i out v q takes

section
variable {i : IslandId} {v n : Part} (R : Reported v n)
include R

theorem Reported.island (j : IslandId) : n.island j = v.island j := (R.frame (.island j) (by cases j <;> decide)).symm
theorem Reported.head (h : HeadId) : n.head h = v.head h := (R.frame (.head h) (by cases h <;> decide)).symm
theorem Reported.ref : n.ref = v.ref := (R.frame .ref (by decide)).symm
theorem Reported.analog : n.analog = v.analog := (R.frame .analog (by decide)).symm
theorem Reported.views : Views i v n := ⟨R.head, R.ref, by rw [R.island]⟩

omit R

theorem Holds.tells_last {q : Part} {es : List Event} {s : AlarmSource} {items : List EventItem} {c : Stamp}
    (a : Holds (es ++ items.map fun e => ⟨s, c, e⟩) q) (ref : q.ref.count = c) : q.tells s items := by
  subst ref
  exact Holds.tells ⟨a.1, (List.sublist_append_right _ _).trans a.2⟩ rfl

end

/-- The part with the mirror of island `i` as it is reported. -/
def Part.mirrored (i : IslandId) (m : MirrorState) (p : Part) : Part := p.modIsland i fun x => { x with mirror := m }

theorem mirrored_island (i : IslandId) (m : MirrorState) (p : Part) : (p.mirrored i m).island i = { p.island i with mirror := m } :=
  modIsland_island i _ p

theorem deliverStatus_free {i : IslandId} {port : Port} {moving : Bool} {p : Part} (free : (p.island i).confirm = none) :
    deliverStatus i port moving p = if moving then reportSource i .unknown none (p.mirrored i .unknown)
      else if (p.island i).mirror = .atPort port then p
      else reportSource i (p.sourceAt i port) (some port) (p.mirrored i (.atPort port)) := by
  unfold deliverStatus
  rw [free]
  rfl

theorem deliverStatus_waits {i : IslandId} {port : Port} {moving : Bool} {p : Part} {w : Confirmation} (waits : (p.island i).confirm = some w) :
    deliverStatus i port moving p = if ¬ moving = true ∧ port = w.port then confirmMove i w p else p := by
  unfold deliverStatus
  rw [waits]

section
variable {i : IslandId} {v n : Part} (R : Reported v n)
include R

/-- A report that moves the source on air: F_end, the active take, and what is told (R75, R96, R104, R112). -/
theorem Reported.moves (m : MirrorState) {new : Source} {o : Option Port} (free : (v.island i).confirm = none)
    (changes : (v.island i).onAir ≠ new) :
    let q := reportSource i new o (n.mirrored i m)
    (q.island i).fEnd = v.ending new ∧ ((v.island i).active.isSome = true → FollowedBy i new v q (v.island i).takes) ∧
      (v.listens → q.tells (.island i) [.onAir .report new (v.island i).onAir o none]) := by
  intro q
  have island : (n.mirrored i m).island i = { v.island i with mirror := m } := by rw [mirrored_island, R.island]
  have changes' : ((n.mirrored i m).island i).onAir ≠ new := by rw [island]; exact changes
  have view : Views i v (n.mirrored i m) := ⟨R.head, R.ref, by rw [island]⟩
  have awaits : v.listens → ∃ es, Awaits 5 es (n.mirrored i m) := fun l => (R.heard l).imp fun _ a => a.of_evt rfl
  refine ⟨?_, fun active runs ahead => ?_, fun l => ?_⟩
  · rw [(reportSource_ends changes').fEnd]
    exact ending_congr view.heads view.ref new
  · have follows := reportSource_follows changes' view (by rw [island]; exact active) (by rw [island]; exact free) (fun hears => ?_)
      (fun h on => ?_) ahead
    · rwa [island] at follows
    · obtain ⟨es, a⟩ := awaits hears.1
      have six : (v.island i).takes.length ≤ 6 := hears.2
      refine ⟨5, es, a, ?_⟩
      rw [island]
      show 5 + 4 + (v.island i).takes.length < 16
      omega
    · rw [view.heads, show (n.mirrored i m).analog = v.analog from R.analog]
      exact runs h on
  · obtain ⟨es, a⟩ := awaits l
    have told := reportSource_holds (port := o) changes' a (by decide)
    rw [island, view.ref] at told
    refine Holds.tells_last (items := [_]) told ?_
    rw [← (reportSource_sched i new o _).frame .ref (by decide), view.ref]

/-- A mirror under way with no move awaiting: no source is on air (R104). -/
theorem Reported.moving (free : (v.island i).confirm = none) (port : Port) :
    let q := deliverStatus i port true n
    (q.island i).onAir = .unknown ∧
      ((q.island i).mirror = .unknown ∧ (q.island i).confirm = none ∨ (v.island i).takes ≠ [] ∧ Committing i q) ∧
      ((v.island i).onAir ≠ .unknown → (q.island i).fEnd = none ∧
        ((v.island i).active.isSome = true → FollowedBy i .unknown v q (v.island i).takes) ∧
        (v.listens → q.tells (.island i) [.onAir .report .unknown (v.island i).onAir none none])) := by
  have island : (n.mirrored i .unknown).island i = { v.island i with mirror := .unknown } := by rw [mirrored_island, R.island]
  have free' : ((n.mirrored i .unknown).island i).confirm = none := by rw [island]; exact free
  rw [deliverStatus_free (by rw [R.island]; exact free), if_pos rfl]
  by_cases lost : (v.island i).onAir = .unknown
  · have same : reportSource i .unknown none (n.mirrored i .unknown) = n.mirrored i .unknown := if_pos (by rw [island]; exact lost)
    rw [same]
    dsimp only
    rw [island]
    exact ⟨lost, .inl ⟨rfl, free⟩, fun known => absurd lost known⟩
  · have changes : ((n.mirrored i .unknown).island i).onAir ≠ .unknown := by rw [island]; exact lost
    have aired := reportSource_aired (port := none) changes free'
    rw [island] at aired
    refine ⟨aired.onAir, ?_, fun _ => R.moves .unknown free lost⟩
    by_cases empty : (v.island i).takes = []
    · obtain ⟨e, is, -⟩ := setOnAir_air i .unknown .report none none (n.mirrored i .unknown)
      refine .inl ?_
      rw [reportSource_idle changes (by rw [island]; exact empty), is, island]
      exact ⟨rfl, free⟩
    · exact aired.mirror.imp id fun commits => ⟨empty, commits⟩

/-- A mirror at rest with no move awaiting: at the port of the record nothing comes of it, else the source is the one at its port (R104). -/
theorem Reported.rests (free : (v.island i).confirm = none) (port : Port) :
    let q := deliverStatus i port false n
    ((v.island i).mirror = .atPort port → q = n) ∧
    ((v.island i).mirror ≠ .atPort port →
      ((q.island i).mirror = .atPort port ∧ (q.island i).confirm = none ∨ Committing i q) ∧ (q.island i).onAir = v.sourceAt i port ∧
      ((q.island i).onAir ≠ (v.island i).onAir → (q.island i).fEnd = v.ending (q.island i).onAir ∧
        ((v.island i).active.isSome = true → FollowedBy i (q.island i).onAir v q (v.island i).takes) ∧
        ((q.island i).onAir ≠ .unknown → q.alarms.rests (.island i) .noSafeSource) ∧
        (v.listens → q.tells (.island i) [.onAir .report (q.island i).onAir (v.island i).onAir (some port) none]))) := by
  have island : (n.mirrored i (.atPort port)).island i = { v.island i with mirror := .atPort port } := by rw [mirrored_island, R.island]
  have source : n.sourceAt i port = v.sourceAt i port := sourceAt_congr i port R.head (by rw [R.island])
  rw [deliverStatus_free (by rw [R.island]; exact free), if_neg Bool.false_ne_true, R.island, source]
  dsimp only
  refine ⟨fun there => if_pos there, fun elsewhere => ?_⟩
  rw [if_neg elsewhere]
  by_cases same : (v.island i).onAir = v.sourceAt i port
  · have stays : reportSource i (v.sourceAt i port) (some port) (n.mirrored i (.atPort port)) = n.mirrored i (.atPort port) :=
      if_pos (by rw [island]; exact same)
    rw [stays, island]
    exact ⟨.inl ⟨rfl, free⟩, same, fun other => absurd rfl other⟩
  · have changes : ((n.mirrored i (.atPort port)).island i).onAir ≠ v.sourceAt i port := by rw [island]; exact same
    have aired := reportSource_aired (port := some port) changes (by rw [island]; exact free)
    rw [island] at aired
    refine ⟨aired.mirror, aired.onAir, fun _ => ?_⟩
    obtain ⟨film, follows, told⟩ := R.moves (o := some port) (.atPort port) free same
    rw [aired.onAir]
    refine ⟨film, follows, fun known => ?_, told⟩
    rw [reportSource_changes changes, if_neg known]
    exact meetGuardKnown_rests i _

end

/-! ### The end of a move by a reply -/

theorem Island.endItems_first (x : Island) (owner : Owner) (new : Source) (cause : OnAirCause) (port : Option Port) (cut : Option Stamp)
    (out : Take → TakeOutcome) (r : Reason) : [EventItem.onAir cause new x.onAir port cut].Sublist (x.endItems owner new cause port cut out r) :=
  List.singleton_sublist.2 List.mem_cons_self

theorem Island.endItems_take {x : Island} {owner : Owner} (own : owner = .take) {t : Take} (active : x.active = some t) (new : Source)
    (cause : OnAirCause) (port : Option Port) (cut : Option Stamp) (out : Take → TakeOutcome) (r : Reason) :
    x.endItems owner new cause port cut out r = [.onAir cause new x.onAir port cut, t.endItem (out t) r] := by
  rw [Island.endItems, if_pos own, active]
  rfl

theorem tells_of_items {q : Part} {s : AlarmSource} {items fewer : List EventItem} (a : q.tells s items) (sub : fewer.Sublist items) :
    q.tells s fewer := (sub.map _).trans a

section
variable {i : IslandId} {v n : Part} (R : Reported v n) (w : Confirmation)
include R

theorem Reported.left_heard {owner : Owner} {m : MirrorState} {new : Source} {cause : OnAirCause} {port : Option Port} {cut : Option Stamp}
    {out : Take → TakeOutcome} {r : Reason} (hears : v.hears i) :
    ∃ k es, Awaits k es (endMove i owner m new cause port cut out r n) ∧ k + ((n.island i).leftBy owner).length < Config.maxEvents := by
  obtain ⟨es, a⟩ := R.heard hears.1
  have six : (v.island i).takes.length ≤ 6 := hears.2
  obtain ⟨k, few, told⟩ := endMove_gap_awaits (i := i) (owner := owner) (m := m) (new := new) (cause := cause) (port := port) (cut := cut)
    (out := out) (r := r) a R.gap (by decide)
  refine ⟨k, _, told, ?_⟩
  rw [R.island] at few ⊢
  simp only [Config.maxEvents]
  omega

/-- The mirror at rest at the port awaited: the move is confirmed (R102). -/
theorem Reported.confirms (calm : w.target = .standby ∨ ∃ h, w.target = .head h ∧ (v.head h).drive = .locked ∧
      (v.analog.lamp.get h).condition ≠ some .lampFail) :
    let x := v.island i
    let q := confirmMove i w n
    (q.island i).onAir = w.target ∧ (w.target ≠ x.onAir → (q.island i).fEnd = v.ending w.target) ∧
      q.alarms.rests (.island i) .noSafeSource ∧
      (v.listens → q.tells (.island i) [.onAir .confirmed w.target x.onAir (some w.port) (some w.cut)]) ∧
      (∀ t, w.owner = .take → x.active = some t → (q.island i).takes.length < x.takes.length ∧
        (v.listens → q.tells (.island i) [.onAir .confirmed w.target x.onAir (some w.port) (some w.cut), t.endItem t.outcome .none])) ∧
      FollowedBy i w.target v q (x.leftBy w.owner) ∧
      ((q.island i).mirror = .atPort w.port ∧ (q.island i).confirm = none ∧ (q.link.stations.get i).fast = false ∨
        ((x.takes ≠ [] ∧ (w.owner = .take → x.active.isSome = true → x.takes.length ≠ 1)) ∨ (q.island i).fEnd.isSome = true) ∧
          Committing i q) := by
  intro x q
  have calm' : w.target = .standby ∨ ∃ h, w.target = .head h ∧ (n.head h).drive = .locked ∧
      (n.analog.lamp.get h).condition ≠ some .lampFail := by
    rw [R.analog]
    simpa only [R.head] using calm
  have told : v.listens → q.tells (.island i) (x.endItems w.owner w.target .confirmed (some w.port) (some w.cut) (·.outcome) .none) :=
    fun l => by
      obtain ⟨es, a⟩ := R.heard l
      have holds := confirmMove_holds (i := i) (c := w) a R.gap (by decide)
      rw [R.island] at holds
      exact holds.tells_last (by rw [← (confirmMove_sched i w n).frame .ref (by decide)])
  refine ⟨confirmMove_aired.onAir, fun changes => ?_, ?_, fun l => tells_of_items (told l) (x.endItems_first ..), fun t own active => ⟨?_, fun l => ?_⟩,
    fun _ ahead => ?_, ?_⟩
  · rw [confirmMove_fEnd calm' (by rw [R.island]; exact changes)]
    exact ending_congr R.head R.ref _
  · show (confirmMove i w n).alarms.rests _ _
    rw [confirmMove_eq]
    exact meetGuardKnown_rests i _
  · have fewer := confirmMove_fewer (i := i) (c := w) (p := n) own (t := t) (by rw [R.island]; exact active)
    rwa [R.island] at fewer
  · have all := told l
    rwa [Island.endItems_take own active] at all
  · have follows := confirmMove_follows calm' R.views (fun hears => R.left_heard hears) ahead
    rwa [R.island] at follows
  · have rests := confirmMove_rests (i := i) calm'
    rwa [R.island] at rests

/-- The port awaited is refused: the move fails (R103). -/
theorem Reported.fails :
    let x := v.island i
    let q := failMove i w n
    (q.island i).onAir = .unknown ∧ (q.island i).fEnd = none ∧
      (w.target = .standby → q.alarms.shows (.island i) .noSafeSource = true) ∧
      FollowedBy i .unknown v q (x.leftBy w.owner) ∧
      (∀ t, w.owner = .take → x.active = some t → v.listens → q.tells (.island i)
        [.onAir .failed .unknown x.onAir none none, t.endItem .failed .mirror]) ∧
      (v.listens → q.tells (.island i) [.onAir .failed .unknown x.onAir none none]) ∧
      ((q.island i).mirror = .unknown ∧ (q.island i).confirm = none ∨
        (x.takes ≠ [] ∧ (w.owner = .take → x.active.isSome = true → x.takes.length ≠ 1)) ∧ Committing i q) := by
  intro x q
  obtain ⟨onAir, fEnd, -, -⟩ := failMove_unknown i w n
  have told : v.listens → q.tells (.island i) (x.endItems w.owner .unknown .failed none none (fun _ => .failed) .mirror) := fun l => by
    obtain ⟨es, a⟩ := R.heard l
    have holds := failMove_holds i w n a (by decide)
    rw [R.island] at holds
    exact holds.tells_last (by rw [← (failMove_sched i w n).frame .ref (by decide)])
  refine ⟨onAir, fEnd, failMove_noSafe i w n, fun _ _ => ?_, fun t own active l => ?_, fun l => tells_of_items (told l) (x.endItems_first ..), ?_⟩
  · have follows := failMove_follow i w n R.views fun hears => R.left_heard hears
    rwa [R.island] at follows
  · have all := told l
    rwa [Island.endItems_take own active] at all
  · by_cases gone : x.leftBy w.owner = []
    · obtain ⟨-, calm⟩ := failMove_none i w n (by rw [R.island]; exact gone)
      exact .inl ⟨calm.mirror, calm.confirm⟩
    · refine (failMove_calm i w n).imp (fun calm => ⟨calm.mirror, calm.confirm⟩) fun ⟨_, _, _, d, confirm, _, _, mirror⟩ =>
        ⟨not_not.1 (mt Island.leftBy_eq_nil.2 gone), d, confirm, mirror⟩

end

/-- A failed move leaves an alarm of the island at rest that it does not raise (R103). -/
theorem failMove_rests {i : IslandId} {c : Confirmation} {p : Part} {k : AlarmKind} (other : k ≠ .runout ∧ k ≠ .lateStart)
    (silent : k ≠ .mirrorFault ∧ k ≠ .noSafeSource) (a : p.alarms.rests (.island i) k) : (failMove i c p).alarms.rests (.island i) k := by
  have K := rests_minds i other
  have follows := meetCommit_toils K.toToils (reformOrActivate_toils K.toToils
    (endMove_minds K c.owner .unknown .unknown .failed none none (fun _ => .failed) .mirror a))
  have raised := rests_raiseAlarm (a := .island i) (b := .mirrorFault) follows (fun same => silent.1 (by simpa using same)) (word c.port.num) 0
  rw [failMove_eq]
  dsimp only
  split
  · exact rests_raiseAlarm raised (fun same => silent.2 (by simpa using same)) 0 0
  · exact raised

end Sys2Proof.Machine
end

section
/-! PROOFS. O42. The replies of the stations (R102 to R104, R116, R120 to R122, R127 to R130). -/

namespace Sys2Proof.Machine

/-! ### What the delivery of any reply keeps -/

section
variable {i : IslandId} {r : Request} {reply : Reply} {p : Part}

theorem deliver_scheduler {I : Part → Prop} (K : SchedulerKeeps I) (a : I p) : I (deliver i r reply p) := by
  unfold deliver
  split
  · exact deliverStatus_keeps K i _ _ a
  · exact deliverRefusal_keeps K i _ a
  · exact a
  · exact a

theorem deliver_sched (i : IslandId) (r : Request) (reply : Reply) (p : Part) : Scheduled p (deliver i r reply p) := by
  unfold deliver
  split
  · exact deliverStatus_sched i _ _ p
  · exact deliverRefusal_sched i _ p
  · exact .refl p
  · exact .refl p

/-- An alarm of the island that rests goes on resting, but for those that a delivery can raise (R102 to R105). -/
theorem deliver_rests {k : AlarmKind} (other : k ≠ .runout ∧ k ≠ .lateStart) (silent : k ≠ .mirrorFault ∧ k ≠ .noSafeSource)
    (a : p.alarms.rests (.island i) k) : (deliver i r reply p).alarms.rests (.island i) k := by
  unfold deliver
  split
  · exact deliverStatus_minds (rests_minds i other) _ _ a
  · unfold deliverRefusal
    split
    · split
      · exact failMove_rests other silent a
      · exact a
    · exact a
  · exact a
  · exact a

theorem answered_online (s : Station) (r : Request) (reply : Reply) : (s.answered r reply).online = .online ∧ (s.answered r reply).misses = 0 := by
  cases reply <;> cases r <;> exact ⟨rfl, rfl⟩

end

theorem Gapped.station {i : IslandId} {s : Station} {p : Part} (a : Gapped i s p) : let y := p.link.stations.get i
    y.online = s.online ∧ y.port = s.port ∧ y.moving = s.moving ∧ y.fault = s.fault ∧ y.misses = s.misses ∧ y.refusal = s.refusal := by
  simpa [Station.report] using a.report

/-- A refusal answers a MOVE (R121). -/
theorem readReply_refuse {address : Nat} {r : Request} {a c g e : LinkChar} {reason : Byte}
    (refuses : readReply address r [a, c, g, e] = some (.refuse reason)) : ∃ port asked, r = .move port asked := by
  cases r with
  | move port asked => exact ⟨port, asked, rfl⟩
  | poll =>
    by_cases good : goodMessage address a c g e
    · rw [readReply_good good] at refuses
      dsimp only at refuses
      split at refuses
      · obtain ⟨port, -, is⟩ := Option.map_eq_some_iff.1 refuses
        exact nomatch is
      · exact nomatch refuses
    · rw [readReply_bad good] at refuses
      exact nomatch refuses

/-- The STATION events by the record that shows what they tell. -/
theorem Reply.said_eq {f : Flight} {reply : Reply} (address : Nat) (old : Station) {y : Station}
    (recorded : (old.answered f.entry.request reply).report = y.report) :
    reply.said address old (old.answered f.entry.request reply) =
      (if old.online = .online then [] else [.station .online address .online y.port y.moving y.fault 0 none]) ++
        match (generalizing := false) reply with
        | .accept => []
        | .status port moving fault =>
          if old.port = some port ∧ old.moving = moving ∧ old.fault = fault then []
          else [.station .report address .online y.port y.moving y.fault 0 none]
        | .refuse _ => [.station .refused address .online y.port y.moving y.fault 0 y.refusal] := by
  have same : y.online = (old.answered f.entry.request reply).online ∧ y.port = (old.answered f.entry.request reply).port ∧
      y.moving = (old.answered f.entry.request reply).moving ∧ y.fault = (old.answered f.entry.request reply).fault ∧
      y.misses = (old.answered f.entry.request reply).misses ∧ y.refusal = (old.answered f.entry.request reply).refusal := by
    simpa [Station.report] using recorded.symm
  obtain ⟨isOnline, noMisses⟩ := answered_online old f.entry.request reply
  obtain ⟨-, port, moving, fault, -, refusal⟩ := same
  rw [port, moving, fault, refusal]
  unfold Reply.said Station.item
  rw [isOnline, noMisses]
  cases reply with
  | accept => rfl
  | refuse c => rfl
  | status p m f => rfl

/-- The transaction of a reply that is not counted ends (R130). -/
theorem ended_gapped (i : IslandId) (p : Part) : Gapped i (p.link.stations.get i) (endEntry (enterGap p)) :=
  Gapped.pump (p := { enterGap p with link := { (enterGap p).link with flight := none } }) ⟨rfl, rfl, rfl⟩

theorem ended_frame (p : Part) : ChangesOnly [.link] p (endEntry (enterGap p)) :=
  (setLink_frame { p.link with line := .gap, since := p.time.crystal, assembling := [] } p).trans
    ((setLink_frame { (enterGap p).link with flight := none } (enterGap p)).trans (endEntry_ends (p := enterGap p) rfl).frame)

/-! ### The message in hand -/

/-- The part as a message of four characters has been assembled, `dt` ticks on. -/
def Part.messaged (dt : Nat) (p : Part) : Part := (elapse dt p).assembled []

section
variable (dt : Nat) (v : Part)

theorem messaged_frame : ChangesOnly [.time, .link] v (v.messaged dt) :=
  ((elapse_frame dt v).mono (by simp)).trans ((setLink_frame _ _).mono (by simp))

theorem messaged_link : (v.messaged dt).link = { v.link with assembling := [] } := by
  rw [Part.messaged, Part.assembled, elapse_link]

theorem messaged_listens (l : v.listens) : (v.messaged dt).listens := (elapse_listens l : (elapse dt v).listens)

/-- A good reply counted, told, and its transaction ended, but not yet delivered. -/
theorem noted_reported (f : Flight) (reply : Reply) : Reported v ((v.messaged dt).noted f reply) where
  frame := ((messaged_frame dt v).mono (by simp)).trans ((noted_frame f reply _).mono (by simp))
  gap := (noted_gapped f reply _).line
  heard l := ⟨_, noted_awaits f reply _ (messaged_listens dt v l)⟩

end

/-- Settles O42: a message is read (`readReply_good`), a good reply recorded and told (`noted_gapped`, `noted_awaits`), and what its delivery
brings (`Reported.moving`, `Reported.rests`, `Reported.confirms`, `Reported.fails`). -/
theorem repliesAreJudged : Obligations.RepliesAreJudged := by
  intro s dt a c g e running k m cmd first second third fourth
  refine ⟨fun deaf => .of_event (f := receiveAll m) rfl running ?_, fun f flight line prompt => ?_⟩
  · rw [receiveAll_deaf]
    · exact elapse_frame dt s.part
    · rw [elapse_link, LinkUnit.listening, elapse_now]
      obtain other | late := deaf
      · rw [decide_eq_false other, Bool.false_and]
      · rw [decide_eq_false (Nat.not_le.2 late), Bool.and_false]
  have hears : (elapse dt s.part).link.listening (elapse dt s.part).time = true := by
    rw [elapse_link, LinkUnit.listening, elapse_now]
    exact Bool.and_eq_true_iff.2 ⟨decide_eq_true line, decide_eq_true prompt⟩
  have message : receiveAll m (elapse dt s.part) = judgeMessage m (s.part.messaged dt) := receiveAll_message hears first second third fourth
  have link := messaged_link dt s.part
  have flies : (s.part.messaged dt).link.flight = some f := by rw [link]; exact flight
  intro i x good r
  have read : readReply f.sentTo f.entry.request m = r := by
    by_cases ok : goodMessage f.sentTo a c g e
    · refine (readReply_good ok).trans (Eq.trans ?_ (if_pos ok).symm)
      cases f.entry.request with
      | poll => rfl
      | move port asked =>
        by_cases accepts : c.data = 0x81
        · have no : (0x81 : Byte) ≠ 0x82 := by decide
          simp only [accepts, true_and, if_true, no, if_false]
        · simp only [accepts, false_and, if_false]
    · exact (readReply_bad ok).trans (if_neg ok).symm
  refine ⟨fun bad => .of_event (f := receiveAll m) rfl running ?_, fun some orphan => .of_event (f := receiveAll m) rfl running ?_,
    fun reply is counted => .of_event (f := receiveAll m) rfl running ?_⟩
  · rw [message, judgeMessage, flies]
    dsimp only
    rw [read, bad]
    exact ⟨link, messaged_frame dt s.part⟩
  · obtain ⟨reply, is⟩ := Option.isSome_iff_exists.1 some
    rw [message, judgeMessage, flies]
    dsimp only
    rw [read, is]
    dsimp only
    rw [goodReply_orphan orphan]
    have ended := ended_gapped i (s.part.messaged dt)
    rw [link] at ended
    obtain ⟨online, port, -, -, misses, refusal⟩ := ended.station
    refine ⟨ended.line, ended.flight, online, misses, port, refusal, (messaged_frame dt s.part).trans ?_⟩
    exact (ended_frame _).mono (by simp)
  · rw [message, judgeMessage, flies]
    dsimp only
    rw [read, is]
    dsimp only
    rw [goodReply_noted counted]
    have R := noted_reported dt s.part f reply
    have gapped : Gapped i ((k.stations.get i).answered f.entry.request reply) (deliver i f.entry.request reply ((s.part.messaged dt).noted f reply)) := by
      refine deliver_scheduler (gapped_scheduler i _) ?_
      have noted := noted_gapped f reply (s.part.messaged dt)
      rwa [link] at noted
    have sched := deliver_sched i f.entry.request reply ((s.part.messaged dt).noted f reply)
    have awaits : s.part.listens → Awaits 5 ((reply.said f.sentTo (k.stations.get i) ((k.stations.get i).answered f.entry.request reply)).map
        fun e => ⟨.island i, s.part.ref.count, e⟩) ((s.part.messaged dt).noted f reply) := fun l => by
      have told := noted_awaits f reply _ (messaged_listens dt s.part l)
      rwa [link, (messaged_frame dt s.part .ref (by decide)).symm] at told
    have sound : s.part.alarms.sound = true → EntriesSound (s.part.messaged dt) := fun sound =>
      entriesSound_depends.keeps (messaged_frame dt s.part) (by decide) ⟨running, sound⟩
    have offline := noted_online f reply (s.part.messaged dt)
    have rested := @noted_sound f reply (s.part.messaged dt)
    have faults := noted_faults f reply (s.part.messaged dt)
    rw [link] at offline
    generalize (s.part.messaged dt).noted f reply = n at R gapped sched awaits offline rested faults
    obtain ⟨online, port, moving, fault, misses, refusal⟩ := gapped.station
    obtain ⟨isOnline, noMisses⟩ := answered_online (k.stations.get i) f.entry.request reply
    refine ⟨gapped.line, gapped.flight, online.trans isOnline, misses.trans noMisses,
      fun _ was => deliver_rests ⟨nofun, nofun⟩ ⟨nofun, nofun⟩ (offline was), fun l => ?told, ?_⟩
    case told =>
      have told := deliver_scheduler (i := i) (r := f.entry.request) (reply := reply) (holds_scheduler _) (awaits l).holds
      refine told.tells ?_
      rw [← sched.frame .ref (by decide), R.ref]
      exact congrArg (List.map _) (Reply.said_eq f.sentTo (k.stations.get i) gapped.report.symm)
    refine ⟨fun is => ?accept, fun at_ goes flag is => ?status, fun reason is => ?refuse,
      fun h => by rw [← R.head]; exact sched.heads h, (R.frame.mono (by decide)).trans (sched.frame.mono (List.subset_cons_self _ _))⟩
    case accept =>
      subst is
      exact ⟨port.trans rfl, R.island i⟩
    case status =>
      subst is
      refine ⟨port.trans rfl, moving.trans rfl, fault.trans rfl, fun flagged ok => ?_, fun clean still _ => ?_,  fun free goes => ?_,
        fun free still there => ?_, fun free still elsewhere => ?_, fun w waits => ⟨fun apart => ?_, fun still there calm => ?_⟩⟩
      · subst flagged
        exact (deliverStatus_minds (firm_minds i) at_ goes (faults (sound ok) (.inl ⟨_, _, rfl⟩))).stands.shows
      · subst clean still
        exact deliverStatus_minds (rests_minds i (k := .mirrorFault) ⟨nofun, nofun⟩) at_ false (rested (port := at_) rfl)
      · subst goes
        exact R.moving free at_
      · subst still
        exact (congrArg (Part.island · i) ((R.rests free at_).1 there)).trans (R.island i)
      · subst still
        obtain ⟨settles, source, changes⟩ := (R.rests free at_).2 elsewhere
        refine ⟨settles, fun h here alone => source.trans (sourceAt_head here alone), fun none_ => source.trans (sourceAt_none none_),
          fun moved => ?_⟩
        obtain ⟨film, follows, known, told⟩ := changes moved
        exact ⟨film.trans (ending_eq ..), follows, fun safe _ => known safe, told⟩
      · have stays : deliverStatus i at_ goes n = n := by
          rw [deliverStatus_waits (by rw [R.island]; exact waits)]
          refine if_neg fun both => ?_
          exact apart.elim (fun goes => both.1 goes) fun other => other both.2
        exact (congrArg (Part.island · i) stays).trans (R.island i)
      · have confirms : deliverStatus i at_ goes n = confirmMove i w n := by
          rw [deliverStatus_waits (by rw [R.island]; exact waits)]
          exact if_pos ⟨by rw [still]; exact Bool.false_ne_true, there⟩
        have all := R.confirms (i := i) w calm
        rw [← confirms] at all
        obtain ⟨onAir, film, known, told, owned, follows, rests⟩ := all
        exact ⟨onAir, fun moved => (film moved).trans (ending_eq ..), fun _ => known, told, owned, follows, rests⟩
    case refuse =>
      subst is
      obtain ⟨own, asked, its⟩ := readReply_refuse (read.trans is)
      have asks : f.entry.request.port? = some own := by rw [its]; rfl
      have refused : ((k.stations.get i).answered f.entry.request (.refuse reason)).refusal = some ⟨own, reason⟩ := by rw [its]; rfl
      have delivers : deliver i f.entry.request (.refuse reason) n = deliverRefusal i own n := by rw [its]; rfl
      have firm := fun ok => faults (sound ok) (.inr ⟨reason, own, asked, rfl, its⟩)
      have fails : ∀ w, x.confirm = some w → deliverRefusal i own n = if own = w.port then failMove i w n else n := fun w waits => by
        rw [deliverRefusal, R.island, waits]
      have shown : s.part.alarms.sound = true → (deliverRefusal i own n).alarms.shows (.island i) .mirrorFault = true := fun ok => by
        cases waits : x.confirm with
        | none =>
          rw [deliverRefusal, R.island, waits]
          exact (firm ok).stands.shows
        | some w =>
          rw [fails w waits]
          split
          · exact failMove_shows i w n (firm ok).sound
          · exact (firm ok).stands.shows
      rw [refused] at refusal
      rw [delivers] at refusal ⊢
      refine ⟨by rw [refusal]; rfl, by rw [refusal, asks]; rfl, shown, fun w waits => ⟨fun other => ?_, fun same => ?_⟩⟩
      · rw [fails w waits, if_neg fun there => other (asks.trans (congrArg some there))]
        exact R.island i
      · rw [fails w waits, if_pos (Option.some.inj (asks.symm.trans same))]
        exact R.fails w

end Sys2Proof.Machine
end

section
/-! PROOFS. Parts that differ in the Memory Agent, the port and the Command Unit alone (R170, R171, R177): the scheduler works them alike. -/

namespace Sys2Proof.Machine

/-! ### Twins -/

/-- `p` with the agent, the memory port and the Command Unit given. -/
def Part.served (p : Part) (a : Agent) (h : Holder) (w : Option BusCycle) (c : CommandUnit) : Part :=
  { p with agent := a, cmd := c, bus := { p.bus with holder := h, waiting := w } }

/-- `q` is `p` but for the agent, the memory port and the Command Unit. -/
def Twin (p q : Part) : Prop := ∃ a h w c, q = p.served a h w c

/-- A request that neither reads nor hands on the agent, the port and the Command Unit. -/
def Twins (f : Part → Part) : Prop := ∀ ⦃p q⦄, Twin p q → Twin (f p) (f q)

variable {p q r s : Part}

theorem Twin.refl (p : Part) : Twin p p := ⟨p.agent, p.bus.holder, p.bus.waiting, p.cmd, rfl⟩

theorem Twin.trans (a : Twin p q) (b : Twin q r) : Twin p r := by
  obtain ⟨_, _, _, _, rfl⟩ := a
  obtain ⟨a, h, w, c, rfl⟩ := b
  exact ⟨a, h, w, c, rfl⟩

theorem Twin.symm (a : Twin p q) : Twin q p := by
  obtain ⟨_, _, _, _, rfl⟩ := a
  exact ⟨p.agent, p.bus.holder, p.bus.waiting, p.cmd, rfl⟩

theorem Twin.frame (a : Twin p q) : ChangesOnly [.agent, .port, .rings, .status] p q := by
  obtain ⟨_, _, _, _, rfl⟩ := a
  intro b m
  cases b <;> simp_all [Block.same, Part.served, Part.head, Part.island]

/-- What a reading of the part that leaves the agent, the port and the Command Unit aside finds. -/
theorem Twin.read {α : Type} (f : Part → α) (b : ∀ p a h w c, f (p.served a h w c) = f p) (a : Twin p q) : f q = f p := by
  obtain ⟨_, _, _, _, rfl⟩ := a
  exact b ..

theorem Twins.of_served {f : Part → Part} (b : ∀ p a h w c, f (p.served a h w c) = (f p).served a h w c) : Twins f := by
  rintro p _ ⟨a, h, w, c, rfl⟩
  exact ⟨a, h, w, c, b p a h w c⟩

theorem Twin.ite {c d : Prop} [Decidable c] [Decidable d] (same : d ↔ c) (a : Twin p q) (b : Twin r s) :
    Twin (if c then p else r) (if d then q else s) := by
  by_cases is : c
  · rwa [if_pos is, if_pos (same.2 is)]
  · rwa [if_neg is, if_neg (mt same.1 is)]

theorem Twin.served (p : Part) (a : Agent) (h : Holder) (w : Option BusCycle) (c : CommandUnit) : Twin p (p.served a h w c) :=
  ⟨a, h, w, c, rfl⟩

section
variable (a : Twin p q)
include a

theorem Twin.island (i : IslandId) : q.island i = p.island i := a.read (·.island i) fun _ _ _ _ _ => rfl
theorem Twin.head (h : HeadId) : q.head h = p.head h := a.read (·.head h) fun _ _ _ _ _ => rfl
theorem Twin.ref : q.ref = p.ref := a.read (·.ref) fun _ _ _ _ _ => rfl
theorem Twin.link : q.link = p.link := a.read (·.link) fun _ _ _ _ _ => rfl
theorem Twin.evt : q.evt = p.evt := a.read (·.evt) fun _ _ _ _ _ => rfl
theorem Twin.init : q.init = p.init := a.read (·.init) fun _ _ _ _ _ => rfl
theorem Twin.alarms : q.alarms = p.alarms := a.read (·.alarms) fun _ _ _ _ _ => rfl
theorem Twin.analog : q.analog = p.analog := a.read (·.analog) fun _ _ _ _ _ => rfl
theorem Twin.windows : q.bus.windows = p.bus.windows := a.read (·.bus.windows) fun _ _ _ _ _ => rfl

end

/-! ### The port, events and alarms -/

theorem arbitrate_twin (p : Part) : Twin p (arbitrate p) := by
  unfold arbitrate
  split
  · split <;> exact ⟨_, _, _, _, rfl⟩
  · exact .refl p
  · exact .refl p

theorem submit_twin (j : Job) (p : Part) : Twin p (submit j p) := by
  unfold submit
  split
  · exact .trans ⟨_, _, _, _, rfl⟩ (arbitrate_twin _)
  · exact ⟨_, _, _, _, rfl⟩

theorem submit_twins (j k : Job) (a : Twin p q) : Twin (submit j p) (submit k q) :=
  ((submit_twin j p).symm.trans a).trans (submit_twin k q)

theorem Twin.setEvt (a : Twin p q) {e u : EventUnit} (same : u = e) : Twin { p with evt := e } { q with evt := u } := by
  obtain ⟨_, _, _, _, rfl⟩ := a
  exact ⟨_, _, _, _, by rw [same]; rfl⟩

theorem pumpEvents_twins : Twins pumpEvents := by
  intro p q a
  unfold pumpEvents
  rw [a.evt]
  split
  · exact a
  · refine Twin.ite (by rw [a.init, Bus.ringSize_windows a.windows]) (submit_twins _ _ ?_) a
    exact a.setEvt rfl

theorem post_twins (s : AlarmSource) (e : EventItem) : Twins (post s e) := by
  intro p q a
  unfold post
  rw [a.evt]
  dsimp only
  split
  · exact pumpEvents_twins (a.setEvt (by rw [a.ref]))
  · exact a.setEvt rfl

theorem Twin.setAlarms (a : Twin p q) {t u : AlarmTable} (same : u = t) : Twin { p with alarms := t } { q with alarms := u } := by
  obtain ⟨_, _, _, _, rfl⟩ := a
  exact ⟨_, _, _, _, by rw [same]; rfl⟩

theorem judgeHorn_twins : Twins judgeHorn := .of_served fun _ _ _ _ _ => rfl

theorem enterAlarm_twins (s : AlarmSource) (k : AlarmKind) (e : EntryState) (b c : Word) : Twins (enterAlarm s k e b c) := by
  intro p q a
  unfold enterAlarm
  rw [a.alarms]
  dsimp only
  exact post_twins _ _ (a.setAlarms (by rw [a.ref]))

theorem addAlarm_twins (s : AlarmSource) (k : AlarmKind) (e : EntryState) (b c : Word) : Twins (addAlarm s k e b c) := by
  intro p q a
  unfold addAlarm
  rw [a.alarms]
  dsimp only
  split
  · exact enterAlarm_twins _ _ _ _ _ a
  · split
    · exact enterAlarm_twins _ _ _ _ _ (post_twins _ _ (a.setAlarms rfl))
    · exact post_twins _ _ (a.setAlarms rfl)

theorem raiseAlarm_twins (s : AlarmSource) (k : AlarmKind) (b c : Word) : Twins (raiseAlarm s k b c) := by
  intro p q a
  unfold raiseAlarm
  refine judgeHorn_twins ?_
  rw [a.alarms]
  split
  · exact addAlarm_twins _ _ _ _ _ a
  · exact post_twins _ _ a
  · exact addAlarm_twins _ _ _ _ _ a
  · split
    · exact post_twins _ _ (a.setAlarms rfl)
    · exact a
    · exact a

theorem clearAlarm_twins (s : AlarmSource) (k : AlarmKind) (b c : Word) : Twins (clearAlarm s k b c) := by
  intro p q a
  unfold clearAlarm
  refine judgeHorn_twins ?_
  rw [a.alarms]
  split
  · exact a
  · split
    · exact post_twins _ _ (a.setAlarms rfl)
    · exact post_twins _ _ (a.setAlarms rfl)
    · exact a

/-! ### Heads -/

theorem Twin.setAnalog (a : Twin p q) {x y : Analog} (same : y = x) : Twin { p with analog := x } { q with analog := y } := by
  obtain ⟨_, _, _, _, rfl⟩ := a
  exact ⟨_, _, _, _, by rw [same]; rfl⟩

theorem modHead_twins (h : HeadId) (f : Head → Head) : Twins fun p => p.modHead h f := .of_served fun _ _ _ _ _ => rfl

theorem lampChanged_twins (h : HeadId) : Twins (lampChanged h) := by
  intro p q a
  unfold lampChanged
  rw [a.analog, a.head]
  dsimp only
  refine Twin.ite Iff.rfl a ?_
  split
  · exact clearAlarm_twins _ _ _ _ (a.setAnalog rfl)
  · exact a.setAnalog rfl

theorem tensionIdle_twins (h : HeadId) : Twins (tensionIdle h) := by
  intro p q a
  unfold tensionIdle
  rw [a.analog]
  exact Twin.ite Iff.rfl a (a.setAnalog rfl)

theorem stopMeasuring_twins (h : HeadId) : Twins (stopMeasuring h) := fun _ _ a =>
  clearAlarm_twins _ _ _ _ (clearAlarm_twins _ _ _ _ (modHead_twins h _ a))

theorem enterDrive_twins (h : HeadId) (n : DriveState) (c : Cause) (k : Option FaultKind) : Twins (enterDrive h n c k) := by
  intro p q a
  have same : q.time.now = p.time.now := a.read (·.time.now) fun _ _ _ _ _ => rfl
  have told : Twin (post (.head h) (.headState n (p.head h).drive c (p.head h).pos.frame) (p.modHead h fun x => x.enter n p.time.now))
      (post (.head h) (.headState n (p.head h).drive c (p.head h).pos.frame) (q.modHead h fun x => x.enter n p.time.now)) :=
    post_twins _ _ (modHead_twins h _ a)
  unfold enterDrive
  rw [a.head, same]
  extract_lets old entered posted alarmed lamped idled entered' posted' alarmed' lamped' idled'
  have alarms : Twin alarmed alarmed' := by
    unfold alarmed alarmed'
    split
    · exact raiseAlarm_twins _ _ _ _ told
    · exact told
  have lamps : Twin lamped lamped' := .ite (.of_eq (by rw [alarms.head])) alarms (lampChanged_twins h alarms)
  have idles : Twin idled idled' := .ite Iff.rfl (tensionIdle_twins h lamps) lamps
  exact .ite Iff.rfl (stopMeasuring_twins h idles) idles

theorem startDrive_twins (h : HeadId) (c : Cause) : Twins (startDrive h c) := by
  intro p q a
  unfold startDrive
  rw [a.ref, a.head]
  exact enterDrive_twins h _ _ _ (modHead_twins h _ a)

/-! ### The Mirror Link -/

theorem Twin.setLink (a : Twin p q) {x y : LinkUnit} (same : y = x) : Twin { p with link := x } { q with link := y } := by
  obtain ⟨_, _, _, _, rfl⟩ := a
  exact ⟨_, _, _, _, by rw [same]; rfl⟩

theorem modStation_twins (i : IslandId) (f : Station → Station) : Twins fun p => p.modStation i f := .of_served fun _ _ _ _ _ => rfl

theorem joinPoll_twins (i : IslandId) : Twins (joinPoll i) := by
  intro p q a
  unfold joinPoll
  rw [a.link]
  exact .ite Iff.rfl (modStation_twins i _ (a.setLink rfl)) a

theorem joinPolls_twins : Twins joinPolls := by
  intro p q a
  have first := joinPoll_twins .i1 a
  exact .ite (by rw [first.read (pollExpired .i1) fun _ _ _ _ _ => rfl]) first (joinPoll_twins .i2 first)

theorem reportLate_twins (e : Entry) (x : Nat) : Twins (reportLate e x) := by
  intro p q a
  unfold reportLate
  rw [a.ref]
  split
  · exact .ite Iff.rfl (post_twins _ _ a) a
  · exact a

theorem beginTransaction_twins (f : Flight) : Twins (beginTransaction f) := by
  intro p q a
  unfold beginTransaction
  have sent := a.setLink (x := { p.link with
    flight := some { f with tries := f.tries + 1, sentTo := (p.island f.entry.island).settings.address }, line := .sending,
    transmit := true, sending := messageChars (requestBytes (p.island f.entry.island).settings.address f.entry.request),
    since := p.time.crystal, assembling := [] }) rfl
  have time : q.time = p.time := a.read (·.time) fun _ _ _ _ _ => rfl
  rw [a.island, a.link]
  dsimp only
  rw [show q.time.crystal = p.time.crystal from congrArg _ time]
  exact .ite Iff.rfl (reportLate_twins _ _ sent) sent

theorem selectEntry_twins : Twins selectEntry := by
  intro p q a
  unfold selectEntry
  rw [a.link]
  split
  · exact beginTransaction_twins _ (a.setLink rfl)
  · exact a

theorem pumpLink_twins : Twins pumpLink := fun _ _ a => joinPolls_twins (selectEntry_twins (joinPolls_twins a))

theorem dropPoll_twins : Twins dropPoll := by
  intro p q a
  unfold dropPoll
  rw [a.link]
  refine .ite Iff.rfl a ?_
  split
  · exact modStation_twins _ _ (a.setLink rfl)
  · exact a

theorem submitMove_twins (i : IslandId) (x : Port) (f : Stamp) : Twins (submitMove i x f) := by
  intro p q a
  exact pumpLink_twins (modStation_twins i _ (dropPoll_twins (a.setLink (by rw [a.link]))))

/-! ### Takes -/

theorem modIsland_twins (i : IslandId) (f : Island → Island) : Twins fun p => p.modIsland i f := .of_served fun _ _ _ _ _ => rfl

theorem modFront_twins (i : IslandId) (f : Take → Take) : Twins (Part.modFront i f) := .of_served fun _ _ _ _ _ => rfl

theorem mapPreds_twins (h : HeadId) (f : PredKind → Pred → Pred) : Twins (mapPreds h f) := .of_served fun _ _ _ _ _ => rfl

theorem refreshStart_twins (i : IslandId) : Twins (refreshStart i) := by
  intro p q a
  unfold refreshStart
  rw [a.island]
  split
  · exact a
  next t _ =>
    rw [a.read t.planned fun _ _ _ _ _ => rfl, a.ref]
    split
    · dsimp only
      rw [a.head]
      exact .ite Iff.rfl (post_twins _ _ (modFront_twins i _ a)) (modFront_twins i _ a)
    · exact .ite Iff.rfl (modFront_twins i _ a) a

theorem refreshTake_twins (i : IslandId) : Twins (refreshTake i) := by
  intro p q a
  unfold refreshTake
  rw [a.island]
  split
  · exact a
  · exact refreshStart_twins i (modFront_twins i _ a)

theorem leadField_twin (i : IslandId) (a : Twin p q) : q.leadField i = p.leadField i :=
  a.read (·.leadField i) fun _ _ _ _ _ => rfl

theorem commit_twins (i : IslandId) (s : Source) (c : Stamp) (o : Owner) : Twins (commit i s c o) := by
  intro p q a
  have port : q.portOf i s = p.portOf i s := a.read (·.portOf i s) fun _ _ _ _ _ => rfl
  unfold commit commitAsked
  dsimp only
  rw [port, a.ref]
  exact submitMove_twins i _ _ (modIsland_twins i _ a)

theorem commitTake_twins (i : IslandId) (o : TakeOutcome) (l : Option Int) : Twins (commitTake i o l) := by
  intro p q a
  unfold commitTake
  rw [a.island]
  split
  · exact a
  next t _ =>
    have port : q.portOf i t.incoming = p.portOf i t.incoming := a.read (·.portOf i t.incoming) fun _ _ _ _ _ => rfl
    dsimp only
    rw [port, leadField_twin i a]
    exact post_twins _ _ (modFront_twins i _ (commit_twins i _ _ _ a))

theorem endFront_twins (i : IslandId) (o : TakeOutcome) (r : Reason) : Twins (endFront i o r) := by
  intro p q a
  unfold endFront
  rw [a.island]
  split
  · exact a
  · exact post_twins _ _ (modIsland_twins i _ a)

theorem startRequest_twins (h : HeadId) : Twins (startRequest h) := by
  intro p q a
  have started := startDrive_twins h .scheduler a
  unfold startRequest
  rw [a.head]
  dsimp only
  rw [started.read Pred.atStart fun _ _ _ _ _ => rfl]
  exact .ite Iff.rfl (refreshTake_twins .i2 (refreshTake_twins .i1 (mapPreds_twins h _ started))) a

theorem cutSoon_twins (i : IslandId) : Twins (cutSoon i) := by
  intro p q a
  unfold cutSoon
  rw [leadField_twin i a]
  exact refreshTake_twins i (modFront_twins i _ a)

theorem convertNow_twins (i : IslandId) : Twins (convertNow i) := by
  intro p q a
  unfold convertNow
  rw [a.island]
  split
  · exact a
  · split
    · exact a
    · exact .ite Iff.rfl (.ite Iff.rfl (cutSoon_twins i (modFront_twins i _ a)) (refreshTake_twins i (modFront_twins i _ a))) a

theorem sendStart_twins (i : IslandId) : Twins (sendStart i) := by
  intro p q a
  unfold sendStart
  rw [a.island]
  split
  · exact a
  · split
    · exact .ite (by rw [a.head]) (startRequest_twins _ a) a
    · exact a

theorem followRunning_twins (i : IslandId) : Twins (followRunning i) := by
  intro p q a
  unfold followRunning
  rw [a.island]
  split
  · exact a
  · split
    · exact .ite (by rw [a.head]) (modFront_twins i _ a) a
    · exact a

theorem becomeReady_twins (i : IslandId) : Twins (becomeReady i) := by
  intro p q a
  unfold becomeReady
  have ready := modFront_twins i (fun t => { t with state := .ready }) a
  extract_lets r r'
  change Twin r r' at ready
  rw [ready.island]
  split
  · exact ready
  next t _ =>
    have cut : Twin (if t.effective = .now then cutSoon i r else refreshTake i r)
        (if t.effective = .now then cutSoon i r' else refreshTake i r') :=
      .ite Iff.rfl (cutSoon_twins i ready) (refreshTake_twins i ready)
    dsimp only
    rw [cut.island]
    split
    · exact cut
    · exact post_twins _ _ cut

theorem judgeReady_twins (i : IslandId) : Twins (judgeReady i) := by
  intro p q a
  unfold judgeReady
  rw [a.island]
  split
  · exact a
  next t _ =>
    have may : t.mayReady q (p.island i) = t.mayReady p (p.island i) := a.read (t.mayReady · _) fun _ _ _ _ _ => rfl
    have stays : t.staysReady q (p.island i) = t.staysReady p (p.island i) := a.read (t.staysReady · _) fun _ _ _ _ _ => rfl
    exact .ite (by rw [may]) (becomeReady_twins i a) (.ite (by rw [stays]) (modFront_twins i _ a) a)

theorem retarget_twins (i : IslandId) : Twins (retarget i) := by
  intro p q a
  unfold retarget
  rw [a.island]
  split
  · exact a
  next t _ =>
    refine .ite Iff.rfl a ?_
    rw [a.read t.heldSop fun _ _ _ _ _ => rfl]
    split
    · exact modFront_twins i _ a
    · dsimp only
      rw [a.ref, leadField_twin i a]
      have moved := refreshTake_twins i (modFront_twins i (fun t =>
        { t with fCut := some (p.leadField i), commitAt := some p.ref.count, slip := t.slipTo (p.leadField i) }) a)
      exact .ite Iff.rfl (.ite (by rw [a.read (·.awaits i) fun _ _ _ _ _ => rfl]) moved (commitTake_twins i _ _ moved))
        (refreshTake_twins i (modFront_twins i _ a))

theorem evalTake_twins (i : IslandId) : Twins (evalTake i) := fun _ _ a =>
  retarget_twins i (judgeReady_twins i (followRunning_twins i (sendStart_twins i (convertNow_twins i a))))

theorem enterHeld_twins (i : IslandId) : Twins (enterHeld i) := by
  intro p q a
  unfold enterHeld
  rw [a.island]
  split
  · exact a
  · have held := modFront_twins i (fun t => { t with state := .held, heldCut := t.fCut, cut := none, commitAt := none }) a
    dsimp only
    split
    · exact evalTake_twins i (.ite Iff.rfl (startRequest_twins _ held) held)
    · exact evalTake_twins i held

theorem takeCommitField_twins (i : IslandId) : Twins (takeCommitField i) := by
  intro p q a
  unfold takeCommitField
  rw [a.island]
  split
  · exact a
  next t _ =>
    rw [a.ref, leadField_twin i a]
    extract_lets cut r r'
    have late : Twin r r' := .ite Iff.rfl a (judgeReady_twins i (refreshTake_twins i (modFront_twins i _ a)))
    rw [late.island]
    split
    · exact late
    · split
      · exact commitTake_twins i _ _ late
      · exact enterHeld_twins i late

theorem takeStartField_twins (i : IslandId) : Twins (takeStartField i) := by
  intro p q a
  unfold takeStartField
  rw [a.island]
  split
  · exact evalTake_twins i (startRequest_twins _ (modFront_twins i _ a))
  · exact a

theorem workTake_twins (i : IslandId) : Twins (workTake i) := by
  intro p q a
  have judged := evalTake_twins i a
  have met : Twin (meetStart i (evalTake i p)) (meetStart i (evalTake i q)) :=
    .ite (by rw [judged.read (startDue i) fun _ _ _ _ _ => rfl]) (takeStartField_twins i judged) judged
  exact .ite (by rw [met.read (commitDue i) fun _ _ _ _ _ => rfl]) (takeCommitField_twins i met) met

theorem formCut_twins (i : IslandId) (o : Source) (k : Bool) : Twins (formCut i o k) := .of_served fun _ _ _ _ _ => rfl

theorem enterTake_twins (i : IslandId) (o : Source) : Twins (enterTake i o) := by
  intro p q a
  unfold enterTake
  extract_lets formed chosen entered formed' chosen' entered'
  have forms : Twin formed formed' := formCut_twins i o false a
  have chooses : Twin chosen chosen' := by
    obtain ⟨_, _, _, _, rfl⟩ := a
    exact modFront_twins i _ forms
  have enters : Twin entered entered' := convertNow_twins i (refreshTake_twins i chooses)
  rw [enters.island]
  split
  · exact enters
  · exact workTake_twins i (post_twins _ _ enters)

theorem activate_twins (n : Nat) (i : IslandId) : Twins (activate n i) := by
  intro p q a
  induction n generalizing p q with
  | zero => exact a
  | succ n ih =>
    unfold activate
    rw [a.island]
    split
    · exact a
    next t _ _ =>
      have awaits : q.awaits i = p.awaits i := a.read (·.awaits i) fun _ _ _ _ _ => rfl
      have fault : (t.head?.any fun h => (q.head h).drive = .fault) = t.head?.any fun h => (p.head h).drive = .fault :=
        a.read (fun p => t.head?.any fun h => (p.head h).drive = .fault) fun _ _ _ _ _ => rfl
      dsimp only
      exact .ite (by rw [awaits]) a (.ite Iff.rfl (ih (endFront_twins i _ _ (modFront_twins i _ a)))
        (.ite (by rw [fault]) (ih (endFront_twins i _ _ (modFront_twins i _ a))) (enterTake_twins i _ a)))

theorem activateFront_twins (i : IslandId) : Twins (activateFront i) := by
  intro p q a
  unfold activateFront
  rw [a.island]
  exact activate_twins _ i a

end Sys2Proof.Machine
end

section
/-! PROOFS. The words of the Memory Agent (R170 to R172, R176 to R178, R182, R183): what each unit does at the end of its job. -/

namespace Sys2Proof.Machine

/-! ### Addresses and index values -/

/-- The consumer index after the end of a status write (R178). -/
def Part.consumerNext (p : Part) : Nat :=
  if p.cmd.consumer = p.cmd.producer then p.cmd.consumer else (p.cmd.consumer + 1) % p.bus.ringSize .command

/-- The job that writes the status of the entry at the consumer index. -/
def Part.statusJob (p : Part) (st : Status) : Job :=
  { kind := .statusWrite, reads := 0, data := [BitVec.ofNat 16 (st.code + 128 * 256)]
    addr := BitVec.ofNat 20 (p.bus.base .command + 16 + 32 * p.cmd.consumer + 30) }

theorem statusWord_eq (st : Status) : statusWord st = BitVec.ofNat 16 (st.code + 128 * 256) := by cases st <;> rfl

theorem complete_eq (st : Status) (p : Part) :
    complete st p = submit (p.statusJob st) { p with cmd := { p.cmd with status := some st, fetch := .completing } } := by
  unfold complete writeJob Part.statusJob commandEntry
  rw [statusWord_eq, BitVec.ofNat_add (p.bus.base .command + 16 + 32 * p.cmd.consumer)]
  rfl

/-- Both rings have at most 65,535 entries, and their indices lie in them. -/
structure Part.Ringed (p : Part) : Prop where
  command : p.bus.ringSize .command ≤ 65535
  event : p.bus.ringSize .event ≤ 65535
  consumer : p.cmd.consumer < p.bus.ringSize .command
  producer : p.evt.producer < p.bus.ringSize .event

section
variable {p : Part}

theorem Part.Ringed.consumerNext (a : p.Ringed) : p.consumerNext ≤ 65535 := by
  have pos : 0 < p.bus.ringSize .command := Nat.zero_lt_of_lt a.consumer
  have next := Nat.mod_lt (p.cmd.consumer + 1) pos
  have command := a.command
  have consumer := a.consumer
  unfold Part.consumerNext
  split <;> omega

theorem Part.Ringed.producerNext (a : p.Ringed) : (p.evt.producer + 1) % p.bus.ringSize .event ≤ 65535 :=
  (Nat.mod_lt _ (Nat.zero_lt_of_lt a.producer)).le.trans a.event

end

/-! ### What a unit does at the end of its job -/

/-- The consumer index moves on and is written (R178). -/
structure Advances (p q : Part) : Prop where
  cmd : q.cmd = { p.cmd with consumer := p.consumerNext }
  writes : { kind := .consumerWrite, addr := BitVec.ofNat 20 (p.bus.base .command + 2), reads := 0
             data := [BitVec.ofNat 16 p.consumerNext] } ∈ q.agent.jobs

/-- The next entry is fetched, or the unit is IDLE (R178). -/
structure Resumes (p q : Part) : Prop where
  rests : p.cmd.consumer = p.cmd.producer → q.cmd = { p.cmd with fetch := .idle }
  fetches : p.cmd.consumer ≠ p.cmd.producer → q.cmd = { p.cmd with fetch := .fetching } ∧
    { kind := .commandFetch, reads := 15, data := [], addr := commandEntry p.bus p.cmd.consumer } ∈ q.agent.jobs

/-- The attention line is judged, the indices kept (R183). -/
structure JudgesLine (p q : Part) : Prop where
  producer : q.evt.producer = p.evt.producer
  consumer : q.evt.consumer = p.evt.consumer
  attention : q.evt.attention = decide (p.evt.producer ≠ p.evt.consumer)

section
variable {p q r : Part}

theorem Advances.posted (a : Advances p q) (b : Posted q r) : Advances p r := ⟨b.cmd.trans a.cmd, b.jobs a.writes⟩

theorem Resumes.posted (a : Resumes p q) (b : Posted q r) : Resumes p r :=
  ⟨fun agree => b.cmd.trans (a.rests agree), fun differ => ⟨b.cmd.trans (a.fetches differ).1, b.jobs (a.fetches differ).2⟩⟩

theorem JudgesLine.posted (a : JudgesLine p q) (b : Posted q r) : JudgesLine p r :=
  ⟨b.producer.trans a.producer, b.consumer.trans a.consumer, b.attention.trans a.attention⟩

end

section
variable (p : Part)

theorem setRings_frame {p : Part} {c : CommandUnit} (status : c.status = p.cmd.status) : ChangesOnly [.rings] p { p with cmd := c } := by
  intro b m
  cases b <;> simp_all [Block.same, Part.head, Part.island]

theorem endStatus_advances {p : Part} (a : p.Ringed) : Advances p (endStatus p) ∧ ChangesOnly [.rings, .agent, .port] p (endStatus p) := by
  obtain ⟨same, jobs⟩ := submit_leaves (writeJob .consumerWrite (indexWord p.bus .command 1) (word p.consumerNext))
    { p with cmd := { p.cmd with consumer := p.consumerNext } }
  have writes : endStatus p = submit (writeJob .consumerWrite (indexWord p.bus .command 1) (word p.consumerNext))
    { p with cmd := { p.cmd with consumer := p.consumerNext } } := rfl
  rw [writes]
  refine ⟨⟨same.cmd, ?_⟩, ((setRings_frame (c := { p.cmd with consumer := p.consumerNext }) rfl).mono (by simp)).trans ((submit_frame _ _).mono (by simp))⟩
  rw [jobs, ← word_of_le a.consumerNext]
  exact List.mem_append_right _ (List.mem_singleton_self _)

theorem endConsumer_resumes : Resumes p (endConsumer p) ∧ ChangesOnly [.rings, .agent, .port] p (endConsumer p) := by
  unfold endConsumer
  split
  next agree =>
    refine ⟨⟨fun _ => rfl, fun differ => absurd agree differ⟩, (setRings_frame (c := { p.cmd with fetch := .idle }) rfl).mono (by simp)⟩
  next differ =>
    obtain ⟨cmd, jobs, -, frame⟩ := fetchEntry_does p
    refine ⟨⟨fun agree => absurd agree differ, fun _ => ⟨cmd, ?_⟩⟩, frame⟩
    rw [jobs]
    exact List.mem_append_right _ (List.mem_singleton_self _)

/-- The job that writes an event to the entry at the producer index. -/
def Part.eventJob (v : Event) : Job :=
  { kind := .eventWrite, addr := BitVec.ofNat 20 (p.bus.base .event + 16 + 16 * p.evt.producer), reads := 0, data := v.words }

theorem pumpEvents_line : JudgesLine p (pumpEvents { p with evt := { p.evt.judged with writing := false } }) :=
  have still := pumpEvents_posted { p with evt := { p.evt.judged with writing := false } }
  ⟨still.producer, still.consumer, still.attention⟩

/-- What the end of the producer index write leaves of the event ring (R182, R183). -/
theorem endProducer_does {p : Part} (done : p.init = .done) :
    JudgesLine p (endProducer p) ∧ (endProducer p).evt.lost = p.evt.lost ∧
    (p.evt.room (p.bus.ringSize .event) = false ∨ p.evt.queue = [] →
      (endProducer p).evt.writing = false ∧ (endProducer p).evt.queue = p.evt.queue) ∧
    (∀ v, p.evt.queue.head? = some v → p.evt.room (p.bus.ringSize .event) = true →
      (endProducer p).evt.writing = true ∧ (endProducer p).evt.queue = p.evt.queue.tail ∧ p.eventJob v ∈ (endProducer p).agent.jobs) ∧
    ChangesOnly [.events, .agent, .port] p (endProducer p) := by
  refine ⟨pumpEvents_line p, pumpEvents_lost _, fun rests => ?_, fun v front room => ?_, ?_⟩
  · obtain full | empty := rests
    · have still : endProducer p = { p with evt := { p.evt.judged with writing := false } } :=
        pumpEvents_of_still (p := { p with evt := { p.evt.judged with writing := false } }) (.inr full)
      rw [still]
      exact ⟨rfl, rfl⟩
    · have queue : (endProducer p) = { p with evt := { p.evt.judged with writing := false } } := by
        unfold endProducer pumpEvents EventUnit.judged
        rw [empty]
      rw [queue]
      exact ⟨rfl, rfl⟩
  · obtain ⟨rest, queue⟩ := List.head?_eq_some_iff.1 front
    obtain ⟨same, jobs⟩ := submit_leaves (p.eventJob v) { p with evt := { p.evt.judged with queue := rest, writing := true } }
    have writes : endProducer p = submit (p.eventJob v) { p with evt := { p.evt.judged with queue := rest, writing := true } } :=
      pumpEvents_writes (p := { p with evt := { p.evt.judged with writing := false } }) queue done rfl room
    rw [writes, same.evt, jobs, queue]
    exact ⟨rfl, rfl, List.mem_append_right _ (List.mem_singleton_self _)⟩
  · exact ((setEvents_frame { p.evt.judged with writing := false } p).mono (by simp)).trans ((pumpEvents_frame _).mono (by simp [Block.posting]))

/-- The producer index moves on and is written (R182). -/
theorem endEvent_advances {p : Part} (a : p.Ringed) :
    (endEvent true p).evt = { p.evt with producer := (p.evt.producer + 1) % p.bus.ringSize .event } ∧
    { kind := .producerWrite, addr := BitVec.ofNat 20 (p.bus.base .event), reads := 0
      data := [BitVec.ofNat 16 ((p.evt.producer + 1) % p.bus.ringSize .event)] } ∈ (endEvent true p).agent.jobs ∧
    ChangesOnly [.events, .agent, .port] p (endEvent true p) := by
  obtain ⟨same, jobs⟩ := submit_leaves
    (writeJob .producerWrite (indexWord p.bus .event 0) (word ((p.evt.producer + 1) % p.bus.ringSize .event)))
    { p with evt := { p.evt with producer := (p.evt.producer + 1) % p.bus.ringSize .event } }
  refine ⟨same.evt, ?_, ((setEvents_frame _ p).mono (by simp)).trans ((submit_frame _ _).mono (by simp))⟩
  show _ ∈ (submit _ _).agent.jobs
  rw [jobs, ← word_of_le a.producerNext]
  exact List.mem_append_right _ (List.mem_singleton_self _)

/-- An event whose write fails is lost (R172). -/
theorem endEvent_fails : (endEvent false p).evt.lost = true ∧ (endEvent false p).evt.producer = p.evt.producer ∧
    ChangesOnly [.events, .agent, .port] p (endEvent false p) :=
  ⟨pumpEvents_lost _, (pumpEvents_posted { p with evt := { p.evt with lost := true, writing := false } }).producer,
    ((setEvents_frame { p.evt with lost := true, writing := false } p).mono (by simp)).trans
      ((pumpEvents_frame _).mono (by simp [Block.posting]))⟩

end

end Sys2Proof.Machine
end

section
/-! PROOFS. The end of a fetch and of a word (R93, R170 to R172, R177): the entry's status is written before the activation that a TAKE brings. -/

namespace Sys2Proof.Machine

/-! ### The end of a fetch -/

/-- The Command Unit of a part is `c`. -/
def Commands (c : CommandUnit) (p : Part) : Prop := p.cmd = c

/-- The jobs `l` stand at the front of the agent's queue. -/
def Queued (l : List Job) (p : Part) : Prop := l <+: p.agent.jobs

theorem commands_posts (c : CommandUnit) : PostsKeep (Commands c) where
  post s e p a := (post_posted s e p).cmd.trans a
  same _ _ same a := same.2.2.2.2.1.trans a

theorem commands_commands (c : CommandUnit) : CommandKeeps (Commands c) :=
  (commands_posts c).commands (fun _ a => a) fun _ _ a => a

theorem arbitrate_queued {l : List Job} {p : Part} (a : Queued l p) : Queued l (arbitrate p) := by
  unfold Queued
  rwa [(arbitrate_leaves p).2]

theorem submit_queued {l : List Job} {p : Part} (j : Job) (a : Queued l p) : Queued l (submit j p) := by
  unfold Queued
  rw [(submit_leaves j p).2]
  exact a.trans (List.prefix_append _ _)

theorem pumpEvents_queued {l : List Job} {p : Part} (a : Queued l p) : Queued l (pumpEvents p) := by
  unfold pumpEvents
  split
  · exact a
  · exact ite_keeps (submit_queued _ a) a

theorem queued_posts (l : List Job) : PostsKeep (Queued l) where
  post s e p a := by
    unfold post
    split
    · exact pumpEvents_queued a
    · exact a
  same p q same a := by
    unfold Queued
    rwa [same.2.2.2.1]

/-- What follows a TAKE's status, without regard to the units (R93). -/
theorem followTakeOf_posts {I : Part → Prop} (K : PostsKeep I) (w : Word) (before : Part) {p : Part} (a : I p) :
    I (followTakeOf w before p) := by
  unfold followTakeOf
  split
  · exact ite_keeps (activateFront_keeps K.scheduler _ a) a
  · exact a

theorem followTakeOf_twins (w : Word) (before : Part) : Twins (followTakeOf w before) := by
  intro p q a
  unfold followTakeOf
  split
  · exact .ite Iff.rfl (activateFront_twins _ a) a
  · exact a

theorem complete_twin (st : Status) (p : Part) : Twin p (complete st p) :=
  complete_eq st p ▸ (Twin.served p p.agent p.bus.holder p.bus.waiting _).trans (submit_twin _ _)

/-- What the completion of an entry leaves, whose run left `r` with the status `st` (R93, R177, R178). -/
structure Finishes (r : Part) (st : Status) (q : Part) : Prop where
  cmd : q.cmd = { r.cmd with status := some st, fetch := .completing }
  writes : r.statusJob st ∈ q.agent.jobs
  base : q.bus.base .command = r.bus.base .command
  frame : ChangesOnly [.agent, .port, .rings, .status] r q

theorem complete_finishes (st : Status) (r : Part) : Finishes r st (complete st r) := by
  obtain ⟨same, jobs⟩ := submit_leaves (r.statusJob st) { r with cmd := { r.cmd with status := some st, fetch := .completing } }
  refine ⟨?_, ?_, ?_, (complete_twin st r).frame⟩
  · rw [complete_eq, same.cmd]
  · rw [complete_eq, jobs]
    exact List.mem_append_right _ (List.mem_singleton_self _)
  · rw [complete_eq]
    exact Bus.base_windows same.windows _

theorem Finishes.posted {r q q' : Part} {st : Status} (a : Finishes r st q) (b : Posted q q') (frame : ChangesOnly [.agent, .port] q q') :
    Finishes r st q' :=
  ⟨b.cmd.trans a.cmd, b.jobs a.writes, (Bus.base_windows b.windows _).trans a.base, a.frame.trans (frame.mono (by simp))⟩

theorem runEntry_take {w : Nat → Word} (take : isTakeEntry w = true) (p : Part) : runEntry w p =
    (followTakeOf (w 1) p (enterEntry w p).1, (enterEntry w p).2) := by
  have code : (w 0).toNat % 256 = 0x31 := of_decide_eq_true take
  unfold enterEntry runEntry
  rw [if_pos take, code]
  rfl

theorem followEntry_finishes {w : Nat → Word} (p : Part) :
    Finishes (runEntry w p).1 (runEntry w p).2 (followEntry w p (complete (enterEntry w p).2 (enterEntry w p).1)) := by
  cases take : isTakeEntry w with
  | false =>
    have no : ¬ isTakeEntry w = true := by rw [take]; exact Bool.false_ne_true
    rw [followEntry, if_neg no, enterEntry, if_neg no]
    exact complete_finishes _ _
  | true =>
    rw [followEntry, if_pos take, runEntry_take take]
    have completes := complete_finishes (enterEntry w p).2 (enterEntry w p).1
    have follows : Posted (enterEntry w p).1 (followTakeOf (w 1) p (enterEntry w p).1) :=
      followTakeOf_posts (posted_posts _) _ _ (.refl _)
    have late : Posted (complete (enterEntry w p).2 (enterEntry w p).1)
        (followTakeOf (w 1) p (complete (enterEntry w p).2 (enterEntry w p).1)) :=
      followTakeOf_posts (posted_posts _) _ _ (.refl _)
    have base := Bus.base_windows follows.windows .command
    have job : Part.statusJob (followTakeOf (w 1) p (enterEntry w p).1) (enterEntry w p).2 =
        Part.statusJob (enterEntry w p).1 (enterEntry w p).2 := by
      unfold Part.statusJob
      rw [base, follows.cmd]
    refine ⟨?_, ?_, ?_, (followTakeOf_twins _ _ (complete_twin _ _)).frame⟩
    · rw [late.cmd, completes.cmd, follows.cmd]
    · rw [job]
      exact late.jobs completes.writes
    · exact (Bus.base_windows late.windows _).trans (completes.base.trans base.symm)

theorem runEntry_cmd (w : Nat → Word) (p : Part) : (runEntry w p).1.cmd = p.cmd :=
  runEntry_keeps (commands_commands p.cmd) w rfl

theorem requestTake_agent (i : IslandId) (t : Take) (c : Bool) (p : Part) : (requestTake i t c p).1.agent = p.agent := by
  unfold requestTake
  split_ifs <;> rfl

theorem queueTake_agent (w tag n m : Word) (f : Stamp) (o c t r : Word) (p : Part) :
    (queueTake w tag n m f o c t r p).1.agent = p.agent := by
  unfold queueTake onIsland unlessPanel
  split
  · split
    · rfl
    · split
      · split
        · rfl
        · exact requestTake_agent ..
      · rfl
  · rfl

/-- The status write of a TAKE comes before the jobs that its activation brings (log entry 44). -/
theorem followEntry_queued {w : Nat → Word} (take : isTakeEntry w = true) (p : Part) :
    Queued (p.agent.jobs ++ [(runEntry w p).1.statusJob (runEntry w p).2])
      (followEntry w p (complete (enterEntry w p).2 (enterEntry w p).1)) := by
  have follows : Posted (enterEntry w p).1 (followTakeOf (w 1) p (enterEntry w p).1) :=
    followTakeOf_posts (posted_posts _) _ _ (.refl _)
  have enters : (enterEntry w p).1.agent = p.agent := by
    rw [enterEntry, if_pos take]
    exact queueTake_agent ..
  rw [followEntry, if_pos take, runEntry_take take]
  refine followTakeOf_posts (queued_posts _) _ _ ?_
  unfold Queued
  rw [complete_eq, (submit_leaves _ _).2]
  unfold Part.statusJob
  dsimp only
  rw [follows.cmd, Bus.base_windows follows.windows, enters]

/-! ### The end of a word -/

theorem arbitrate_agent (p : Part) : (arbitrate p).agent.done = p.agent.done ∧ (arbitrate p).agent.got = p.agent.got ∧
    (arbitrate p).agent.starved = p.agent.starved := by
  unfold arbitrate
  split
  · split <;> exact ⟨rfl, rfl, rfl⟩
  · exact ⟨rfl, rfl, rfl⟩
  · exact ⟨rfl, rfl, rfl⟩

section
variable {p : Part} {j : Job} {rest : List Job} (jobs : p.agent.jobs = j :: rest)
include jobs

/-- A word that is not the last of its job (R170). -/
theorem finishWord_next (more : p.agent.done + 1 < j.words) (d : Word) :
    (finishWord d p).agent.jobs = p.agent.jobs ∧ (finishWord d p).agent.done = p.agent.done + 1 ∧
    (finishWord d p).agent.starved = false ∧
    (finishWord d p).agent.got = (if j.data = [] then p.agent.got ++ [d] else p.agent.got) ∧
    ChangesOnly [.agent, .port] p (finishWord d p) := by
  have is : finishWord d p = arbitrate { p with
      bus := { p.bus with holder := .free }
      agent := { p.agent with done := p.agent.done + 1, word := .ready p.time.now, starved := false,
                              got := if j.data.isEmpty then p.agent.got ++ [d] else p.agent.got } } := by
    unfold finishWord
    rw [jobs]
    exact if_pos more
  obtain ⟨done, got, starved⟩ := arbitrate_agent { p with
    bus := { p.bus with holder := .free }
    agent := { p.agent with done := p.agent.done + 1, word := .ready p.time.now, starved := false,
                            got := if j.data.isEmpty then p.agent.got ++ [d] else p.agent.got } }
  rw [is]
  refine ⟨(arbitrate_leaves _).2, done, starved, got.trans ?_, (bus_agent.mono (by simp)).trans (arbitrate_frame _)⟩
  exact if_congr List.isEmpty_iff rfl rfl

theorem failWord_posted : Posted (report j.kind none (dropJob p)) (failWord p) ∧
    (failWord p).alarms.shows .device .memoryFault = true ∧
    ((report j.kind none (dropJob p)).evt.lost = true → (failWord p).evt.lost = true) := by
  have lost : PostsKeep fun q : Part => q.evt.lost = true := {
    post := fun s e q a => by
      unfold post
      split
      · exact (pumpEvents_lost _).trans a
      · rfl
    same := fun _ _ same a => same.2.2.2.2.2 ▸ a }
  rw [failWord_eq jobs]
  refine ⟨(raiseAlarm_posts (posted_posts _) _ _ _ _ (.refl _)).trans (arbitrate_posted _), ?_, fun a => ?_⟩
  · rw [← (arbitrate_frame _ .alarms (by simp) : _ = (arbitrate _).alarms)]
    exact raiseAlarm_alarms ..
  · rw [(arbitrate_leaves _).1.evt]
    exact raiseAlarm_posts lost _ _ _ _ a

end

section
variable {p : Part} (w : Option (List Word))

theorem report_fetch : report .commandFetch w p = endFetch w p := rfl
theorem report_status : report .statusWrite w p = endStatus p := rfl
theorem report_event : report .eventWrite w p = endEvent w.isSome p := rfl

theorem report_consumer (done : p.init = .done) : report .consumerWrite w p = endConsumer p := by
  unfold report
  rw [done]

theorem report_producer (done : p.init = .done) : report .producerWrite w p = endProducer p := by
  unfold report
  rw [done]

end

/-! ### The last word of a job -/

section
variable {p : Part} {j : Job} {rest : List Job} (jobs : p.agent.jobs = j :: rest)
include jobs

theorem finishWord_reports (last : j.words ≤ p.agent.done + 1) {q : Part} (d : Word)
    (is : ∀ w, report j.kind (some w) (dropJob p) = q) :
    Posted q (finishWord d p) ∧ ChangesOnly [.agent, .port] q (finishWord d p) ∧ (finishWord d p).evt = q.evt := by
  rw [finishWord_last jobs last, is]
  exact ⟨arbitrate_posted q, arbitrate_frame q, (arbitrate_leaves q).1.evt⟩

theorem statusWord_ends (ringed : p.Ringed) (last : j.words ≤ p.agent.done + 1) (kind : j.kind = .statusWrite) (d : Word) :
    Advances p (finishWord d p) ∧ ChangesOnly [.agent, .port, .rings] p (finishWord d p) := by
  obtain ⟨advances, frame⟩ := endStatus_advances (p := dropJob p) ⟨ringed.command, ringed.event, ringed.consumer, ringed.producer⟩
  obtain ⟨posted, kept, -⟩ := finishWord_reports jobs last d fun w => by rw [kind, report_status]
  obtain ⟨cmd, writes⟩ := advances.posted posted
  exact ⟨⟨cmd, writes⟩, ((dropJob_frame p).mono (by simp)).trans ((frame.mono (by simp)).trans (kept.mono (by simp)))⟩

theorem consumerWord_ends (done : p.init = .done) (last : j.words ≤ p.agent.done + 1) (kind : j.kind = .consumerWrite) (d : Word) :
    Resumes p (finishWord d p) ∧ ChangesOnly [.agent, .port, .rings] p (finishWord d p) := by
  obtain ⟨resumes, frame⟩ := endConsumer_resumes (dropJob p)
  obtain ⟨posted, kept, -⟩ := finishWord_reports jobs last d fun w => by rw [kind, report_consumer _ (show (dropJob p).init = .done from done)]
  obtain ⟨rests, fetches⟩ := resumes.posted posted
  exact ⟨⟨rests, fetches⟩, ((dropJob_frame p).mono (by simp)).trans ((frame.mono (by simp)).trans (kept.mono (by simp)))⟩

theorem eventWord_ends (ringed : p.Ringed) (last : j.words ≤ p.agent.done + 1) (kind : j.kind = .eventWrite) (d : Word) :
    (finishWord d p).evt = { p.evt with producer := (p.evt.producer + 1) % p.bus.ringSize .event } ∧
    { kind := .producerWrite, addr := BitVec.ofNat 20 (p.bus.base .event), reads := 0
      data := [BitVec.ofNat 16 ((p.evt.producer + 1) % p.bus.ringSize .event)] } ∈ (finishWord d p).agent.jobs ∧
    ChangesOnly [.agent, .port, .events] p (finishWord d p) := by
  obtain ⟨evt, writes, frame⟩ := endEvent_advances (p := dropJob p) ⟨ringed.command, ringed.event, ringed.consumer, ringed.producer⟩
  obtain ⟨posted, kept, same⟩ := finishWord_reports jobs last d fun w => by rw [kind, report_event, Option.isSome_some]
  exact ⟨same.trans evt, posted.jobs writes,
    ((dropJob_frame p).mono (by simp)).trans ((frame.mono (by simp)).trans (kept.mono (by simp)))⟩

theorem producerWord_ends (done : p.init = .done) (last : j.words ≤ p.agent.done + 1) (kind : j.kind = .producerWrite) (d : Word) :
    JudgesLine p (finishWord d p) ∧ (finishWord d p).evt.lost = p.evt.lost ∧
    (p.evt.room (p.bus.ringSize .event) = false ∨ p.evt.queue = [] →
      (finishWord d p).evt.writing = false ∧ (finishWord d p).evt.queue = p.evt.queue) ∧
    (∀ v, p.evt.queue.head? = some v → p.evt.room (p.bus.ringSize .event) = true →
      (finishWord d p).evt.writing = true ∧ (finishWord d p).evt.queue = p.evt.queue.tail ∧ p.eventJob v ∈ (finishWord d p).agent.jobs) ∧
    ChangesOnly [.agent, .port, .events] p (finishWord d p) := by
  have at_ : (dropJob p).init = .done := done
  obtain ⟨line, lost, rests, writes, frame⟩ := endProducer_does at_
  obtain ⟨posted, kept, same⟩ := finishWord_reports jobs last d fun w => by rw [kind, report_producer _ at_]
  obtain ⟨producer, consumer, attention⟩ := line.posted posted
  rw [same]
  exact ⟨⟨producer, consumer, attention⟩, lost, rests,
    fun v front room => ⟨(writes v front room).1, (writes v front room).2.1, posted.jobs (writes v front room).2.2⟩,
    ((dropJob_frame p).mono (by simp)).trans ((frame.mono (by simp)).trans (kept.mono (by simp)))⟩

/-- The last word of a fetch: the entry that has been read is executed, and its status written (R177, R178). -/
theorem fetchWord_ends (last : j.words ≤ p.agent.done + 1) (kind : j.kind = .commandFetch) (read : j.data = []) (d : Word) :
    let w := fun n => (p.agent.got ++ [d]).getD n 0
    let before := { dropJob p with cmd := { p.cmd with fetch := .executing } }
    Finishes (runEntry w before).1 (runEntry w before).2 (finishWord d p) ∧
    (isTakeEntry w = true → Queued (rest ++ [(runEntry w before).1.statusJob (runEntry w before).2]) (finishWord d p)) := by
  intro w before
  have is : finishWord d p = arbitrate (followEntry w before (complete (enterEntry w before).2 (enterEntry w before).1)) := by
    rw [finishWord_last jobs last, kind, report_fetch, read]
    rfl
  rw [is]
  refine ⟨(followEntry_finishes before).posted (arbitrate_posted _) (arbitrate_frame _), fun take => arbitrate_queued ?_⟩
  have queued := followEntry_queued take before
  rwa [show before.agent.jobs = rest from dropJob_jobs jobs] at queued

/-- A memory error on a word: the unit is told as at the end of the job, and MEMORY_FAULT is shown (R172). -/
structure Fails (p : Part) (j : Job) (q : Part) : Prop where
  shows : q.alarms.shows .device .memoryFault = true
  fetch : j.kind = .commandFetch →
    q.cmd = { p.cmd with status := some .memFault, fetch := .completing } ∧ p.statusJob .memFault ∈ q.agent.jobs
  status : j.kind = .statusWrite → Advances p q
  consumer : j.kind = .consumerWrite → Resumes p q
  event : j.kind = .eventWrite → q.evt.lost = true ∧ q.evt.producer = p.evt.producer
  producer : j.kind = .producerWrite → JudgesLine p q

theorem failWord_fails (ringed : p.Ringed) (done : p.init = .done) : Fails p j (failWord p) := by
  obtain ⟨posted, shows, lost⟩ := failWord_posted jobs
  have at_ : (dropJob p).init = .done := done
  refine ⟨shows, fun kind => ?_, fun kind => ?_, fun kind => ?_, fun kind => ?_, fun kind => ?_⟩
  · rw [kind, report_fetch] at posted
    have ends := complete_finishes .memFault (dropJob p)
    exact ⟨posted.cmd.trans ends.cmd, posted.jobs ends.writes⟩
  · rw [kind, report_status] at posted
    obtain ⟨cmd, writes⟩ := (endStatus_advances (p := dropJob p)
      ⟨ringed.command, ringed.event, ringed.consumer, ringed.producer⟩).1.posted posted
    exact ⟨cmd, writes⟩
  · rw [kind, report_consumer _ at_] at posted
    obtain ⟨rests, fetches⟩ := (endConsumer_resumes (dropJob p)).1.posted posted
    exact ⟨rests, fetches⟩
  · rw [kind, report_event] at posted lost
    exact ⟨lost (endEvent_fails (dropJob p)).1, posted.producer.trans (endEvent_fails (dropJob p)).2.1⟩
  · rw [kind, report_producer _ at_] at posted
    obtain ⟨producer, consumer, attention⟩ := (endProducer_does at_).1.posted posted
    exact ⟨producer, consumer, attention⟩

theorem failWord_frame (ringed : p.Ringed) (done : p.init = .done) (work : j.unit ≠ 2) :
    ChangesOnly ([.rings, .status] ++ Block.alarming) p (failWord p) := by
  have at_ : (dropJob p).init = .done := done
  have reports : ChangesOnly [.agent, .port, .rings, .status, .events] (dropJob p) (report j.kind none (dropJob p)) := by
    cases kind : j.kind with
    | commandFetch => exact (complete_finishes .memFault (dropJob p)).frame.mono (by simp)
    | statusWrite =>
      exact (endStatus_advances (p := dropJob p) ⟨ringed.command, ringed.event, ringed.consumer, ringed.producer⟩).2.mono (by simp)
    | consumerWrite => exact report_consumer none at_ ▸ (endConsumer_resumes (dropJob p)).2.mono (by simp)
    | eventWrite => exact (endEvent_fails (dropJob p)).2.2.mono (by simp)
    | producerWrite => exact report_producer none at_ ▸ (endProducer_does at_).2.2.2.2.mono (by simp)
    | startupCommand => exact absurd (by rw [Job.unit, kind]) work
    | startupEvent => exact absurd (by rw [Job.unit, kind]) work
  rw [failWord_eq jobs]
  exact ((dropJob_frame p).mono (by simp [Block.alarming, Block.posting])).trans
    ((reports.mono (by simp [Block.alarming, Block.posting])).trans (((raiseAlarm_frame _ _ _ _ _).mono (by simp)).trans
      ((arbitrate_frame _).mono (by simp [Block.alarming, Block.posting]))))

end

/-- The ready word is starved: the port is held, and nothing else changes (R171). -/
theorem takeStarve_eq {p : Part} {since : Nat} (sound : PortAt true p) (ready : p.agent.word = .ready since) :
    takeStarve p = { p with agent := { p.agent with starved := true } } := by
  refine arbitrate_held fun free => ?_
  have idle := (sound.handed rfl free).1
  rw [ready] at idle
  exact nomatch idle

end Sys2Proof.Machine
end

section
/-! PROOFS. The commands of the ring's entries (R177, R180), and the words of an event's record (R186, R187). -/

namespace Sys2Proof.Machine

/-! ### Entries -/

/-- The command that an entry's words name (R180). -/
def entryCommand (v : Nat → Word) : Option Instr :=
  match (v 0).toNat % 256 with
  | 0x01 => some (.setTrim (v 3))
  | 0x02 => some .clear
  | 0x03 => some (.ackAlarms (v 3))
  | 0x04 => some .resetFlags
  | 0x05 => some (.setAnalogLimits (v 1) (v 3) (v 4) (v 5))
  | 0x06 => some (.setPanelMode (v 3) (v 4))
  | 0x10 => some (.configureHead (v 1) (headWords v))
  | 0x11 => some (.assignHead (v 1) (v 3) (v 4))
  | 0x12 => some (.setPosition (v 1) (join32 (v 3) (v 4)))
  | 0x13 => some (.cueUp (v 1) (v 3) (join32 (v 4) (v 5)))
  | 0x14 => some (.start (v 1))
  | 0x15 => some (.stop (v 1))
  | 0x16 => some (.lamp (v 1) (v 3))
  | 0x17 => some (.clearFault (v 1))
  | 0x20 => some (.loadCue (v 1) (v 3) (v 4) (join32 (v 5) (v 6)) (v 7) (v 8))
  | 0x21 => some (.deleteCue (v 1) (v 3))
  | 0x22 => some (.clearCues (v 1))
  | 0x30 => some (.configureIsland (v 1) (v 3) (v 4) (v 5) (v 6) (v 7) (v 8))
  | 0x31 => some (.take (v 1) (v 2) (v 3) (v 4) (join32 (v 5) (v 6)) (v 7) (v 8) (v 9) (v 10))
  | 0x32 => some (.cancelTake (v 1) (v 2))
  | 0x33 => some (.abortTake (v 1))
  | 0x34 => some (.standby (v 1))
  | _ => none

/-- A ring command given outside the ring does what `f` does, and keeps its status in hand. -/
theorem exec_of_commanded {c : Instr} {p : Part} {f : Part → Part × Status} (e : exec c ⟨p, []⟩ = onPart (commanded f) ⟨p, []⟩)
    (running : p.mode = .running) :
    exec c ⟨p, []⟩ = .next ⟨{ (f p).1 with cmd := { (f p).1.cmd with status := some (f p).2 } }, []⟩ := by
  rw [e, onPart_eq, commanded_eq running]

/-- The codes of the entries that name a command (R180). -/
def entryCodes : List Nat :=
  [0x01, 0x02, 0x03, 0x04, 0x05, 0x06, 0x10, 0x11, 0x12, 0x13, 0x14, 0x15, 0x16, 0x17, 0x20, 0x21, 0x22, 0x30, 0x31, 0x32, 0x33, 0x34]

theorem runEntry_other {v : Nat → Word} (other : (v 0).toNat % 256 ∉ entryCodes) (p : Part) : runEntry v p = (p, .badCommand) := by
  unfold runEntry
  revert other
  generalize (v 0).toNat % 256 = code
  intro other
  split
  case h_23 => rfl
  all_goals exact absurd other (by decide)

theorem entryCommand_named {v : Nat → Word} (named : (v 0).toNat % 256 ∈ entryCodes) : entryCommand v ≠ none := by
  unfold entryCommand
  revert named
  generalize (v 0).toNat % 256 = code
  intro named
  split
  case h_23 =>
    exact absurd named (by simp_all [entryCodes])
  all_goals exact nofun

/-- An entry runs the command that its words name; any other is BAD_COMMAND and changes nothing (R177, R180). -/
theorem runEntry_runs (p : Part) (v : Nat → Word) (running : p.mode = .running) :
    (entryCommand v = none → runEntry v p = (p, .badCommand)) ∧
    ∀ c, entryCommand v = some c → exec c ⟨p, []⟩ =
      .next ⟨{ (runEntry v p).1 with cmd := { (runEntry v p).1.cmd with status := some (runEntry v p).2 } }, []⟩ := by
  refine ⟨fun absent => runEntry_other (fun named => entryCommand_named named absent) p, fun c named => ?_⟩
  unfold entryCommand at named
  split at named
  case h_23 => exact nomatch named
  all_goals
    rename_i code
    obtain rfl := Option.some.inj named
    rw [runEntry, code]
    exact exec_of_commanded rfl running

/-! ### Words of a record -/

/-- The low and the high byte of a word, each limited to its range. -/
def Bytes (x : Word) (l h : Nat) : Prop := x.toNat % 256 = min l 255 ∧ x.toNat / 256 = min h 255

theorem limit_le (w n : Nat) : limit w n ≤ 2 ^ w - 1 := Nat.min_le_right ..

theorem limit_of_le {w n : Nat} (small : n ≤ 2 ^ w - 1) : limit w n = n := Nat.min_eq_left small

theorem pair_toNat (l h : Nat) : (pair l h).toNat = min l 255 + 256 * min h 255 := by
  have value : pack [(8, l), (8, h)] = min l 255 + 256 * (min h 255 + 256 * 0) := rfl
  rw [pair, BitVec.toNat_ofNat, value]
  omega

theorem pair_bytes (l h : Nat) : Bytes (pair l h) l h := by
  unfold Bytes
  rw [pair_toNat]
  omega

theorem word_toNat_of_le {n : Nat} (small : n ≤ 65535) : (word n).toNat = n := by
  rw [word_of_le small, BitVec.toNat_ofNat]
  omega

theorem two_long (x : BitVec 32) : (lowWord x).toNat = x.toNat % 65536 ∧ (highWord x).toNat = x.toNat / 65536 := by
  have bound := x.isLt
  unfold lowWord highWord
  rw [BitVec.extractLsb'_toNat, BitVec.extractLsb'_toNat, Nat.shiftRight_zero, Nat.shiftRight_eq_div_pow]
  omega

/-- The kind code, byte X and byte Y of a record. -/
theorem words_kind (e : Event) {y : Nat} (is : e.item.byteY = y) (small : y ≤ 255) :
    Bytes (e.words.getD 0 0) e.item.code e.item.byteX ∧ (e.words.getD 1 0).toNat / 256 = y := by
  refine ⟨pair_bytes .., (pair_bytes e.source.code e.item.byteY).2.trans ?_⟩
  rw [is]
  exact Nat.min_eq_left small

theorem AlarmSource.code_le (s : AlarmSource) : s.code ≤ 255 := by
  cases s with
  | head h => cases h <;> decide
  | island i => cases i <;> decide
  | _ => decide

theorem words_source (e : Event) : (e.words.getD 1 0).toNat % 256 = e.source.code :=
  (pair_bytes e.source.code e.item.byteY).1.trans (Nat.min_eq_left e.source.code_le)

theorem Cause.code_le (c : Cause) : c.code ≤ 65535 := by cases c <;> decide

theorem Status.code_le (s : Status) : s.code ≤ 65535 := by cases s <;> decide

theorem flag_le (b : Bool) : flag b ≤ 1 := by cases b <;> decide

theorem Port.num_le (x : Port) : x.num ≤ 4 := by cases x <;> decide

theorem Source.code_le (x : Source) : x.code ≤ 7 := by
  cases x with
  | head h => cases h <;> decide
  | _ => decide

/-! ### Packed bytes -/

/-- Byte X of TAKE_ACTIVE: mode, basis, and which cues it has. -/
theorem takeActive_byteX (mode : TakeMode) (basis : Option Basis) (s c : Bool) :
    let x := pack [(2, mode.code), (3, cutBasisCode basis), (1, flag s), (1, flag c)]
    x ≤ 255 ∧ x % 4 = mode.code ∧ (∀ b, basis = some b → x / 4 % 8 = b.code) ∧ x / 32 = flag s + 2 * flag c := by
  have value : pack [(2, mode.code), (3, cutBasisCode basis), (1, flag s), (1, flag c)] =
      min mode.code 3 + 4 * (min (cutBasisCode basis) 7 + 8 * (min (flag s) 1 + 2 * (min (flag c) 1 + 2 * 0))) := rfl
  have modes : mode.code ≤ 3 := by cases mode <;> decide
  have first := flag_le s
  have second := flag_le c
  intro x
  have is : x = mode.code + 4 * min (cutBasisCode basis) 7 + 32 * flag s + 64 * flag c := by
    show pack _ = _
    rw [value]
    omega
  refine ⟨by omega, by omega, fun b named => ?_, by omega⟩
  have bases : b.code ≤ 7 := by cases b <;> decide
  have code : cutBasisCode basis = b.code := by rw [named]; rfl
  rw [code] at is
  omega

/-- Two four-bit codes in a byte. -/
theorem pack_nibbles (l h : Nat) : pack [(4, l), (4, h)] = min l 15 + 16 * min h 15 := by
  have value : pack [(4, l), (4, h)] = min l 15 + 16 * (min h 15 + 16 * 0) := rfl
  rw [value]
  omega

theorem pack_nibbles_of_le {l h : Nat} (low : l ≤ 15) (high : h ≤ 15) : pack [(4, l), (4, h)] = l + 16 * h := by
  rw [pack_nibbles]
  omega

/-- Byte Y of a record that carries the incoming and the outgoing source of a take. -/
theorem sources_byteY (incoming : Source) (outgoing : Option Source) :
    let y := pack [(4, incoming.code), (4, outgoingCode outgoing)]
    y ≤ 255 ∧ y % 16 = incoming.code ∧ ∀ o, outgoing = some o → y / 16 = o.code := by
  have incomings := incoming.code_le
  intro y
  have is : y = min incoming.code 15 + 16 * min (outgoingCode outgoing) 15 := pack_nibbles ..
  refine ⟨by omega, by omega, fun o named => ?_⟩
  have outgoings := o.code_le
  have code : outgoingCode outgoing = o.code := by rw [named]; rfl
  rw [code] at is
  omega

/-- The port reported, and the flags of its station. -/
theorem station_word (port : Option Port) (moving fault : Bool) :
    (BitVec.ofNat 16 (pack [(8, portCode port), (1, flag moving), (1, flag fault)])).toNat =
      portCode port + 256 * flag moving + 512 * flag fault := by
  have value : pack [(8, portCode port), (1, flag moving), (1, flag fault)] =
      min (portCode port) 255 + 256 * (min (flag moving) 1 + 2 * (min (flag fault) 1 + 2 * 0)) := rfl
  have ports : portCode port ≤ 4 := by
    cases port with
    | none => decide
    | some x => exact Port.num_le x
  have first := flag_le moving
  have second := flag_le fault
  rw [BitVec.toNat_ofNat, value]
  omega

end Sys2Proof.Machine
end

section
/-! PROOFS. The settling of AgentWordsDoTheJobs: the Memory Agent's words, the entries they bring, and the records they write (R93, R170 to R187). -/

namespace Sys2Proof.Machine

/-- The rings of a part whose units are at work. -/
theorem ringed_of_sound {p : Part} (sound : p.ringsSound = true) (done : p.init = .done) :
    p.Ringed ∧ PortAt true p ∧ ∀ j ∈ p.agent.jobs, j.unit ≠ 2 := by
  obtain ⟨n, busy, a, -⟩ := ringsRules_iff.2 sound
  obtain rfl : n = .done := a.init.symm.trans done
  obtain ⟨command, event, consumer, -, producer, -⟩ := a.sizes nofun
  refine ⟨⟨command, event, consumer, producer⟩, a.toPortAt, fun j m start => ?_⟩
  have none := List.length_eq_zero_iff.1 (a.starts rfl)
  exact List.not_mem_nil (none ▸ List.mem_filter.2 ⟨m, decide_eq_true start⟩)

theorem elapsed_frame {t : List Block} {dt : Nat} {p q : Part} (x : ChangesOnly t (elapse dt p) q) : ChangesOnly (.time :: t) p q :=
  ((elapse_frame dt p).mono (by simp)).trans (x.mono (List.subset_cons_self ..))

theorem agentWordsDoTheJobs : Obligations.AgentWordsDoTheJobs := by
  refine ⟨fun s dt data running done sound => ?_, fun p v running => ?_, fun source stamp item => ?_, ?_⟩
  · intro a u e now commands events wants next after room advanced resumed lineJudged failed
    obtain ⟨ringed, port, work⟩ := ringed_of_sound sound done
    obtain ⟨x, lapse⟩ : ∃ x, elapse dt s.part = { s.part with time := x } := ⟨_, elapse_eq dt s.part⟩
    have ringed' : Part.Ringed { s.part with time := x } := ⟨ringed.command, ringed.event, ringed.consumer, ringed.producer⟩
    have since : ∀ {t : List Block} {q : Part}, ChangesOnly t { s.part with time := x } q → ChangesOnly (.time :: t) s.part q :=
      fun c => elapsed_frame (dt := dt) (lapse ▸ c)
    have fails : ∀ {j : Job}, a.jobs.head? = some j → failed j (failWord { s.part with time := x }) := by
      intro j front
      obtain ⟨rest, jobs⟩ := List.head?_eq_some_iff.1 front
      have fell := failWord_fails (p := { s.part with time := x }) jobs ringed' done
      have frame := failWord_frame (p := { s.part with time := x }) jobs ringed' done (work j (List.mem_of_mem_head? front))
      refine ⟨fell.shows, fun kind => ⟨(fell.fetch kind).1, _, (fell.fetch kind).2, rfl⟩,
        fun kind => ⟨(fell.status kind).cmd, _, (fell.status kind).writes, rfl⟩, fun kind => ⟨(fell.consumer kind).rests, fun differ => ?_⟩,
        fell.event, fun kind => ⟨(fell.producer kind).producer, (fell.producer kind).consumer, (fell.producer kind).attention⟩, since frame⟩
      exact ⟨((fell.consumer kind).fetches differ).1, _, ((fell.consumer kind).fetches differ).2, rfl⟩
    refine ⟨?_, ?_, ?_⟩
    · intro j front onPort ends cmd
      obtain ⟨rest, jobs⟩ := List.head?_eq_some_iff.1 front
      have completes : ∀ {r : MemReply} {P : Part → Prop}, P (endWord r { s.part with time := x }) → Completes (.agentWordEnd dt r) s P := by
        intro r P b
        refine .of_timed (f := endWord r) rfl running ?_ ?_
        · rw [lapse]
          exact onPort
        · rwa [lapse]
      refine ⟨fun more => completes ?_, fun last kind read => completes ?_, fun last kind => completes ?_, fun last kind => completes ?_,
        fun last kind => completes ?_, fun last kind => completes ?_, completes (fails front)⟩
      · obtain ⟨same, next, fresh, got, frame⟩ := finishWord_next (p := { s.part with time := x }) jobs
          (Nat.lt_of_not_le (of_decide_eq_false more)) data
        exact ⟨same, next, fresh, got, since frame⟩
      · rw [lapse]
        obtain ⟨finishes, queued⟩ := fetchWord_ends (p := { s.part with time := x }) jobs (of_decide_eq_true last) kind read data
        intro free words run write
        have consumer : run.1.cmd.consumer = u.consumer := by
          unfold run
          rw [runEntry_cmd]
        have same : write = run.1.statusJob run.2 := by
          unfold write Part.statusJob
          rw [consumer]
          exact congrArg (fun n => { kind := .statusWrite, reads := 0, data := [BitVec.ofNat 16 (run.2.code + 128 * 256)]
                                     addr := BitVec.ofNat 20 (n + 16 + 32 * u.consumer + 30) : Job }) finishes.base
        refine ⟨finishes.cmd, (congrArg CommandUnit.consumer finishes.cmd).trans consumer, ?_, fun take => ?_, finishes.frame⟩
        · rw [same]
          exact List.contains_iff_mem.2 finishes.writes
        · rw [same, show a.jobs.tail = rest from congrArg List.tail jobs]
          exact List.isPrefixOf_iff_prefix.2 (queued (decide_eq_true take))
      · obtain ⟨⟨index, writes⟩, frame⟩ := statusWord_ends (p := { s.part with time := x }) jobs ringed' (of_decide_eq_true last) kind data
        exact ⟨⟨index, _, writes, rfl⟩, since frame⟩
      · obtain ⟨⟨rests, fetches⟩, frame⟩ := consumerWord_ends (p := { s.part with time := x }) jobs done (of_decide_eq_true last) kind data
        exact ⟨⟨rests, fun differ => ⟨(fetches differ).1, _, (fetches differ).2, rfl⟩⟩, since frame⟩
      · obtain ⟨index, writes, frame⟩ := eventWord_ends (p := { s.part with time := x }) jobs ringed' (of_decide_eq_true last) kind data
        exact ⟨index, ⟨_, writes, rfl⟩, since frame⟩
      · obtain ⟨⟨producer, consumer, attention⟩, lost, rests, writes, frame⟩ :=
          producerWord_ends (p := { s.part with time := x }) jobs done (of_decide_eq_true last) kind data
        refine ⟨⟨producer, consumer, attention⟩, lost, rests, fun v waits free => ?_, since frame⟩
        obtain ⟨writing, queue, job⟩ := writes v waits free
        exact ⟨writing, queue, _, job, rfl⟩
    · intro j front began active late
      refine .of_timed (f := failWord) rfl running ?_ ?_
      · have word : (elapse dt s.part).agent.word = .active began := by rw [elapse_agent, active]
        rw [wordTimedOut, word, elapse_now]
        exact decide_eq_true late
      · rw [lapse]
        exact fails front
    · intro began ready starves mild
      refine .of_timed (f := takeStarve) rfl running ?_ ?_
      · have agent : (elapse dt s.part).agent = s.part.agent := elapse_agent ..
        rw [starveDue, agent, ready, mild, elapse_now]
        exact decide_eq_true starves
      · rw [lapse, takeStarve_eq (p := { s.part with time := x }) ⟨port.port, port.word, port.handed⟩ ready]
        exact ⟨rfl, since ((setAgent_frame _ _).mono (by simp))⟩
  · exact runEntry_runs p v running
  · intro w word low high bytes long frame kind count figure near yes onto
    have kinds : ∀ {x y : Nat}, item.byteX = x → item.byteY = y → y ≤ 255 → kind item.code x y := by
      intro x y byteX byteY small
      obtain ⟨first, second⟩ := words_kind ⟨source, stamp, item⟩ byteY small
      rw [byteX] at first
      exact ⟨first, second⟩
    have longs : ∀ x n, word n = lowWord x → word (n + 1) = highWord x → long n x := by
      intro x n l h
      exact ⟨(congrArg _ l).trans (two_long x).1, (congrArg _ h).trans (two_long x).2⟩
    have pairs : ∀ n l h, word n = pair l h → bytes n l h := by
      intro n l h is
      have b := pair_bytes l h
      rw [← is] at b
      exact b
    have figures : ∀ x, figure16 x = figure x := fun x => by cases x <;> rfl
    have sources : ∀ x : Source, x.code = onto x := fun x => by cases x <;> rfl
    have nears : ∀ x, Machine.near stamp x = near x := fun x => by cases x <;> rfl
    refine ⟨by cases item <;> rfl, longs stamp 2 rfl rfl, (words_source _).trans (by cases source <;> rfl), ?_⟩
    cases item with
    | started c e => exact ⟨kinds rfl rfl (by decide), rfl, rfl⟩
    | headState new old cause f =>
      exact ⟨kinds rfl rfl (by decide), pairs _ _ _ rfl, word_toNat_of_le cause.code_le, longs _ _ rfl rfl⟩
    | parkLost a b => exact ⟨kinds rfl rfl (by decide), longs _ _ rfl rfl, longs _ _ rfl rfl⟩
    | lock k frames fields f =>
      refine ⟨kinds rfl rfl (by decide), fun n named => ?_, rfl, longs _ _ rfl rfl⟩
      subst named
      rfl
    | unlock unsettled measured expected f => exact ⟨kinds rfl rfl (by decide), rfl, rfl, longs _ _ rfl rfl⟩
    | cuePassed id k confirm fired f =>
      exact ⟨kinds rfl rfl (by decide), pairs _ _ _ rfl, pairs _ _ _ rfl, longs _ _ rfl rfl⟩
    | cueConfirmed off id corrected delta f =>
      exact ⟨kinds (BitVec.toNat_ofInt ..) rfl (by decide), pairs _ _ _ rfl, figures (some delta), longs _ _ rfl rfl⟩
    | markMissed id passed deadline f =>
      exact ⟨kinds rfl rfl (by decide), pairs _ _ _ rfl, figures (some (deadline - f)), longs _ _ rfl rfl⟩
    | strayMark f => exact ⟨kinds rfl rfl (by decide), rfl, rfl, longs _ _ rfl rfl⟩
    | shortLeader tag h distance d => exact ⟨kinds rfl rfl (by decide), rfl, pairs _ _ _ rfl, longs _ _ rfl rfl⟩
    | takeActive tag incoming outgoing mode basis sop change cut start =>
      obtain ⟨small, modes, bases, cues⟩ := takeActive_byteX mode basis sop.isSome change.isSome
      obtain ⟨small', incomings, outgoings⟩ := sources_byteY incoming outgoing
      obtain ⟨⟨first, second⟩, third⟩ := kinds rfl rfl small'
      replace second := second.trans (Nat.min_eq_left small)
      have cues' := pair_bytes (orAbsent .takeCue sop) (orAbsent .takeCue change)
      refine ⟨first, ?_, fun b named => ?_, ?_, ?_, fun o named => ?_, rfl, fun id named => ?_, fun id named => ?_, nears _, nears _⟩
      · exact (congrArg (· % 4) second).trans modes
      · exact (congrArg (· / 4 % 8) second).trans (bases b named)
      · exact (congrArg (· / 32) second).trans cues
      · exact (congrArg (· % 16) third).trans (incomings.trans (sources _))
      · exact (congrArg (· / 16) third).trans ((outgoings o named).trans (sources o))
      · subst named
        exact cues'.1
      · subst named
        exact cues'.2
    | takeReady tag cut sop basis e =>
      exact ⟨kinds rfl rfl (by decide), rfl, nears _, nears _, figures _⟩
    | takeCommit tag port cut e outcome slip =>
      exact ⟨kinds rfl rfl ((Port.num_le port).trans (by decide)), rfl, nears _, figures _, rfl⟩
    | takeEnd tag outcome reason incoming outgoing cut e slip lost =>
      obtain ⟨small', incomings, outgoings⟩ := sources_byteY incoming outgoing
      have codes : (EventItem.takeEnd tag outcome reason incoming outgoing cut e slip lost).byteX = outcome.code + 16 * reason.code :=
        pack_nibbles_of_le (by cases outcome <;> decide) (by cases reason <;> decide)
      obtain ⟨first, third⟩ := kinds codes rfl small'
      refine ⟨first, ?_, fun o named => ?_, rfl, nears _, figures _, rfl⟩
      · exact (congrArg (· % 16) third).trans (incomings.trans (sources _))
      · exact (congrArg (· / 16) third).trans ((outgoings o named).trans (sources o))
    | onAir cause new old port cut =>
      have news := new.code_le
      have olds := old.code_le
      have codes : (EventItem.onAir cause new old port cut).byteY = onto new + 16 * onto old := by
        rw [← sources, ← sources]
        exact pack_nibbles_of_le (by omega) (by omega)
      refine ⟨kinds rfl codes (by rw [← sources, ← sources]; omega), fun x named => ?_, nears _⟩
      subst named
      exact word_toNat_of_le ((Port.num_le x).trans (by decide))
    | station cause address health port moving fault misses refusal =>
      refine ⟨kinds rfl rfl (by decide), pairs _ _ _ rfl, (station_word ..).trans ?_, rfl, fun r named => ?_⟩
      · cases port <;> rfl
      · subst named
        exact pairs _ _ _ rfl
    | moveLate address port asked now fields =>
      exact ⟨kinds rfl rfl (by decide), pairs _ _ _ rfl, longs _ _ rfl rfl, figures (some fields)⟩
    | alarm action cause state k notEntered d1 d2 =>
      have codes : (EventItem.alarm action cause state k notEntered d1 d2).byteX = action.code + 16 * (cause.map (·.code)).getD 0 :=
        pack_nibbles_of_le (by cases action <;> simp [AlarmAction.code])
          (by rcases cause with _ | _ | _ | _ <;> simp [RemovalCause.code])
      exact ⟨kinds codes rfl (by rcases state with _ | _ | _ | _ <;> decide), pairs _ _ _ rfl,
        word_toNat_of_le ((flag_le notEntered).trans (by decide)), rfl, rfl⟩
    | key outcome authority row line refusal =>
      refine ⟨kinds rfl rfl (by rcases authority with _ | _ | _ <;> decide), pairs _ _ _ rfl, fun x named => ?_⟩
      subst named
      exact word_toNat_of_le x.code_le
    | refState new old => exact ⟨kinds rfl rfl (by decide), pairs _ _ _ rfl⟩
  · exact ⟨rfl, rfl, rfl, rfl, rfl, rfl, rfl, rfl, rfl, rfl, rfl, rfl, rfl, rfl, rfl, rfl, fun _ => rfl, fun _ => rfl, rfl, rfl, rfl⟩

end Sys2Proof.Machine
end

section
/-! PROOFS. The take of TAKE as its activation forms it: its cut, its error, its commit field and its start field (R76, R79, R81, R82, R95 to R98). -/

namespace Sys2Proof.Machine

/-! ### Figures that agree with the cut -/

/-- The error and the commit field of a take agree with its F_cut, and that with the record it follows (R82, R83, R98). -/
structure Take.Figured (n : Nat) (t : Take) : Prop where
  error : t.error = t.errorOf
  commitAt : t.state = .armed ∨ t.state = .starting ∨ t.state = .ready → t.commitAt = t.fCut.map fun c => Stamp.minus c n
  record : ∀ r, t.cut = some r → t.fCut = r.value

theorem Take.figures_figured (n : Nat) (t : Take) : (t.figures n).Figured n where
  error := rfl
  commitAt state := by
    have is : t.state = .armed ∨ t.state = .starting ∨ t.state = .ready := state
    unfold Take.figures
    dsimp only
    obtain is | is | is := is <;> rw [is]
  record r is := by
    have cut : t.cut = some r := is
    simp only [Take.figures, cut]

theorem Take.Figured.replanned {n : Nat} {t : Take} (a : t.Figured n) (v : Part) : (t.replanned v).Figured n := by
  rw [Take.replanned_keeps]
  exact ⟨a.error, a.commitAt, a.record⟩

theorem Take.refreshed_figured (v : Part) (n : Nat) (t : Take) : (t.refreshed v n).Figured n :=
  (Take.figures_figured n t).replanned v

theorem Take.converted_figured {n : Nat} {t : Take} (a : t.Figured n) (v : Part) : (t.converted v n).Figured n := by
  unfold Take.converted
  split
  · split <;> exact Take.refreshed_figured ..
  · exact a

/-- A take whose F_cut agrees with its record keeps it as the figures are recomputed. -/
theorem Take.refreshed_fCut_of {t : Take} (record : ∀ r, t.cut = some r → t.fCut = r.value) (v : Part) (n : Nat) :
    (t.refreshed v n).fCut = t.fCut := by
  rw [Take.refreshed_fCut]
  cases cut : t.cut with
  | none => exact Take.figures_fCut n t cut
  | some r => simp only [Take.figures, cut, record r cut]

/-! ### The start field -/

/-- The start field of a take that keeps one, for the cut given (R81). -/
def Take.startFor (v : Part) (t : Take) : Option Stamp :=
  (t.planned v).bind fun h => t.fCut.map (startField v.ref.standard (v.head h) (t.leader (v.head h)))

theorem Take.replanned_fStart {v : Part} {t : Take} (unset : t.fStart = none) : (t.replanned v).fStart = t.startFor v := by
  unfold Take.startFor
  by_cases no : t.planned v = none ∨ t.fCut = none
  · have none : ((t.planned v).bind fun h => t.fCut.map (startField v.ref.standard (v.head h) (t.leader (v.head h)))) = none := by
      obtain no | no := no <;> simp [no]
    rw [Take.replanned_none no, none]
    split
    · rfl
    · exact unset
  · obtain ⟨⟨h, plan⟩, cut, is⟩ := (not_or.1 no).imp Option.ne_none_iff_exists'.1 Option.ne_none_iff_exists'.1
    rw [Take.replanned_plan plan is, plan, is]
    rfl

theorem Take.planned_of_now {v : Part} {t : Take} (now : t.effective = .now) : t.planned v = none := by
  unfold Take.planned
  split
  · exact if_neg fun plan => plan.2.2.1 now
  · rfl

/-- The start field of a take on a head at rest, the leader `d` given where it has a SOP cue (R79, R81). -/
theorem startField_eq (s : Standard) (x : Head) (d : Option Int) (cut : Stamp) : startField s x d cut =
    cut - BitVec.ofNat 32 (x.settings.runupLead + match d with
      | none => 0
      | some d => if d < x.settings.runupDistance ∨ d ≤ 0 then 0
          else if s = .f50 then 2 * (d - x.settings.runupDistance).toNat else (5 * (d - x.settings.runupDistance).toNat + 1) / 2) := by
  unfold startField
  cases d with
  | none => rfl
  | some d =>
    dsimp only
    by_cases short : d < x.settings.runupDistance ∨ d ≤ 0
    · rw [if_pos short, if_pos (by simpa [shortLeader] using short)]
      rfl
    · rw [if_neg short, if_neg (by simpa [shortLeader] using short)]
      cases s <;> rfl

/-! ### The take at its activation -/

/-- A take as it waits to be activated: it has no figures, and no start field (R92, R93). -/
structure Take.Blank (t : Take) : Prop where
  fStart : t.fStart = none
  slip : t.slip = 0
  short : t.short = none

/-- A take as its activation leaves it, before its conditions are first evaluated (R95 to R98). -/
structure Take.Fresh (v : Part) (n : Nat) (t : Take) : Prop where
  firm : t.Firm
  figured : t.Figured n
  now : t.effective = .now → t.cut = none ∧ t.fCut = none
  state : t.state = match t.head? with
    | some h => if (v.head h).drive.running then .starting else .armed
    | none => .starting
  sop : t.sop = match t.head?, t.sopCue with
    | some h, some c => some (formPred v .sop h c.frame)
    | _, _ => none
  fStart : t.fStart = t.startFor v
  slip : t.slip = 0

section
variable {p : Part} {i : IslandId} {out : Source} {t : Take}

theorem Take.active_cases (p : Part) (i : IslandId) (out : Source) (t : Take) :
    t.active p i out = (t.entered p i out).refreshed p (p.island i).settings.lead ∨
    t.active p i out = (t.entered p i out |>.refreshed p (p.island i).settings.lead).turned.refreshed p (p.island i).settings.lead := by
  unfold Take.active Take.converted
  split
  · have unready : ((t.entered p i out).refreshed p (p.island i).settings.lead).state ≠ .ready := by
      rw [Take.refreshed_state]
      obtain state | state := Take.entered_pending p i out t <;> rw [state] <;> exact nofun
    exact .inr (if_neg unready)
  · exact .inl rfl

theorem Take.active_fresh (blank : t.Blank) (other : t.incoming ≠ out) : (t.active p i out).Fresh p (p.island i).settings.lead := by
  have entered : ((t.entered p i out).figures (p.island i).settings.lead).fStart = none := by
    show (if t.state = .armed ∨ t.formMode p i out false = .now then none else t.fStart) = none
    rw [blank.fStart, ite_self]
  have startFor : ∀ u : Take, (u.figures (p.island i).settings.lead).fStart = none →
      (u.refreshed p (p.island i).settings.lead).fStart = (u.refreshed p (p.island i).settings.lead).startFor p := fun u unset => by
    have same : (u.refreshed p (p.island i).settings.lead).startFor p = (u.figures (p.island i).settings.lead).startFor p := by
      rw [Take.refreshed_eq]
      rfl
    rw [same]
    exact Take.replanned_fStart unset
  have incoming : (t.active p i out).incoming = t.incoming := (Take.active_activated p i out t).incoming
  refine ⟨Take.active_firm other, Take.converted_figured (Take.refreshed_figured ..) p, fun now => Take.active_now
    ((Take.active_activated p i out t).effective.symm.trans now), ?_, ?_, ?_, ?_⟩
  · have head : (t.active p i out).head? = t.head? := by rw [Take.head?, Take.head?, incoming]
    rw [Take.active_state, Take.entered_state, head] <;> rfl
  · have same : (t.active p i out).sop = (t.entered p i out).sop ∧ (t.active p i out).sopCue = (t.entered p i out).sopCue := by
      obtain is | is := Take.active_cases p i out t <;> rw [is]
      · exact ⟨Take.refreshed_sop .., Take.refreshed_sopCue ..⟩
      · exact ⟨(Take.refreshed_sop ..).trans (Take.refreshed_sop ..), (Take.refreshed_sopCue ..).trans (Take.refreshed_sopCue ..)⟩
    rw [same.1, same.2, Take.head?, incoming]
    rfl
  · obtain is | is := Take.active_cases p i out t <;> rw [is]
    · exact startFor _ entered
    · exact startFor _ rfl
  · obtain is | is := Take.active_cases p i out t <;> rw [is]
    · exact (Take.refreshed_slip ..).trans blank.slip
    · exact (Take.refreshed_slip ..).trans ((Take.refreshed_slip p (p.island i).settings.lead (t.entered p i out)).trans blank.slip)

/-- The F_cut of a take that is not NOW: the field it names, or that of its record (R95). -/
theorem Take.active_cut (planned : (t.active p i out).effective ≠ .now) :
    ((t.active p i out).effective = .atField → (t.active p i out).cut = none ∧ (t.active p i out).fCut = some t.field) ∧
    ((t.active p i out).effective = .atCue → ∃ g c, out = .head g ∧ p.cueFor .changeover t.outCue out = some c ∧
      (t.active p i out).cut = some (formPred p .cutOrEnd g c.frame) ∧
      (t.active p i out).fCut = (formPred p .cutOrEnd g c.frame).value) := by
  have is : t.active p i out = (t.entered p i out).refreshed p (p.island i).settings.lead :=
    (Take.active_cases p i out t).resolve_right fun turned => planned (by rw [turned, Take.refreshed_effective]; rfl)
  have mode : (t.active p i out).effective = t.formMode p i out false := by
    rw [is]
    exact Take.refreshed_effective ..
  have cut : (t.active p i out).cut = (t.formed p i out false).cut := by
    rw [is]
    exact Take.refreshed_cut ..
  have fCut : (t.active p i out).fCut = (t.formed p i out false).fCut := by
    rw [is, Take.refreshed_fCut]
    exact Take.formed_figures_fCut p i out false t (p.island i).settings.lead
  rw [mode, cut, fCut]
  refine ⟨fun field => ⟨Take.formed_uncued (by rw [field]; exact nofun), if_pos field⟩, fun atCue => ?_⟩
  obtain ⟨g, c, rfl, change, record⟩ := Take.formed_atCue atCue
  rw [chooseChange_eq] at change
  obtain ⟨d, found, rfl⟩ := Option.map_eq_some_iff.1 change
  refine ⟨g, d, rfl, found, record, ?_⟩
  show (if t.formMode p i (.head g) false = .atField then some t.field else (t.formed p i (.head g) false).cut.bind (·.value)) = _
  rw [if_neg (by rw [atCue]; exact nofun), record]
  rfl

end

end Sys2Proof.Machine
end

section
/-! PROOFS. The work of a take that has just been activated (R97 to R101): its judgement, and the decision where its commit field is reached already. -/

namespace Sys2Proof.Machine

/-! ### The decision on a take as it stands -/

/-- The cut with which a take commits at once, where its commit field is reached: that of the take at the field itself, and M
fields on after it (R98, R99). -/
def Part.cutNow (v : Part) (n : Nat) (cut : Option Stamp) : Option Stamp :=
  (cut.filter fun g => reached v.ref.count (Stamp.minus g n)).map fun g =>
    if Stamp.minus g n = v.ref.count then g else Stamp.plus v.ref.count n

theorem Part.cutNow_eq_some {v : Part} {n : Nat} {cut : Option Stamp} {f : Stamp} (is : v.cutNow n cut = some f) :
    ∃ g, cut = some g ∧ reached v.ref.count (Stamp.minus g n) = true ∧
      f = if Stamp.minus g n = v.ref.count then g else Stamp.plus v.ref.count n := by
  obtain ⟨g, found, rfl⟩ := Option.map_eq_some_iff.1 is
  obtain ⟨cut, due⟩ := Option.filter_eq_some_iff.1 found
  exact ⟨g, cut, due, rfl⟩

theorem Part.cutNow_eq_none {v : Part} {n : Nat} {cut : Option Stamp} (is : v.cutNow n cut = none) :
    ∀ g, cut = some g → reached v.ref.count (Stamp.minus g n) = false := by
  rintro g rfl
  by_contra due
  simp [Part.cutNow, Option.filter, due] at is

theorem Part.cutNow_soon (v : Part) (n : Nat) : v.cutNow n (some (Stamp.plus v.ref.count n)) = some (Stamp.plus v.ref.count n) := by
  simp [Part.cutNow, Option.filter, Stamp.minus_plus, reached_self]

section
variable {v : Part} {x : Island} {t : Take} {f : Stamp}

/-- What the decision has of a pending take whose figures agree: the cut, and the error of that cut (R82, R99). -/
theorem Take.Figured.recut (a : t.Figured x.settings.lead) (state : t.state = .armed ∨ t.state = .starting ∨ t.state = .ready)
    (now : v.cutNow x.settings.lead t.fCut = some f) :
    (t.recut v x).fCut = some f ∧ (t.recut v x).error = t.errorAt f ∧ (t.recut v x).slip = t.slip := by
  obtain ⟨g, cut, -, rfl⟩ := Part.cutNow_eq_some now
  have commitAt : t.commitAt = some (Stamp.minus g x.settings.lead) := by rw [a.commitAt state, cut]; rfl
  by_cases prompt : Stamp.minus g x.settings.lead = v.ref.count
  · rw [if_pos prompt, Take.recut_prompt (by rw [commitAt, prompt])]
    refine ⟨cut, ?_, rfl⟩
    rw [a.error, Take.errorAt, Take.errorOf, Take.errorOf, cut]
  · obtain ⟨at_, error⟩ := Take.recut_late (x := x) (show t.commitAt ≠ some v.ref.count by rw [commitAt]; simpa using prompt)
    rw [if_neg prompt]
    refine ⟨at_.fCut, error, at_.slip.trans (if_neg ?_)⟩
    obtain state | state | state := state <;> rw [state] <;> exact nofun

/-- A READY take, and one in STARTING that may be READY by the cut, is READY at the decision (R98, R99). -/
theorem Take.recut_isReady (ready : t.state = .ready)
    (stays : t.commitAt ≠ some v.ref.count → (t.redone v x).staysReady v x = true) : (t.recut v x).state = .ready := by
  by_cases prompt : t.commitAt = some v.ref.count
  · rwa [Take.recut_prompt prompt]
  · exact Take.recut_ready prompt (.inl ⟨ready, stays prompt⟩)

end

/-- The island as a commit of its take leaves it (R101). -/
def Island.moved (x : Island) (s : Source) (port : Port) (cut : Stamp) : Island :=
  { x with
    mirror := .moving port
    confirm := some { target := s, port := port, cut := cut, deadline := Stamp.plus cut x.settings.grace, owner := .take } }

/-- A take as its commit leaves it (R101). -/
def Take.ended (t : Take) (o : TakeOutcome) (l : Option Int) : Take :=
  { t with state := .committed, cut := none, commitAt := none, outcome := o, lost := l }

section
variable {i : IslandId} {v : Part} {x : Island} {t : Take} {p : Part}

/-- The commit field is met, and the take commits (R98 to R101, R112). -/
theorem Leads.meetCommit_cuts (a : Leads i v x t p) (free : x.confirm = none) {c f : Stamp} {o : TakeOutcome} {l : Option Int}
    (at_ : t.commitAt = some c) (due : reached v.ref.count c = true) (waits : t.state.pending = true ∨ t.state = .held)
    (decides : (t.recut v x).decide x = .cut o l) (cut : (t.recut v x).fCut = some f) :
    Leads i v (x.moved t.incoming (p.portOf i t.incoming) f) ((t.recut v x).ended o l) (meetCommit i p) ∧
    ∀ k es, Awaits k es p → k + 4 < Config.maxEvents → Holds (es ++ [⟨.island i, v.ref.count,
      .takeCommit t.tag (p.portOf i t.incoming) (some f) (t.recut v x).error o (t.recut v x).slip⟩]) (meetCommit i p) := by
  have isDue : commitDue i p = true :=
    commitDue_of (by rw [a.island]; exact free) a.active at_ (by rw [a.ref]; exact due) waits
  obtain ⟨q, b, frame, awaits, does, -⟩ := a.recut
  have same := Take.recut_alike v x t
  have settings : ∀ h, q.head h = p.head h := fun h => (b.heads h).trans (a.heads h).symm
  have port : q.portOf i t.incoming = p.portOf i t.incoming := by
    unfold Part.portOf
    rw [a.settings, b.settings]
    split <;> simp only [settings]
  rw [meetCommit, if_pos isDue, does o l decides]
  have committed : Leads i v (x.moved (t.recut v x).incoming (q.portOf i (t.recut v x).incoming) f) ((t.recut v x).ended o l)
      (Machine.commitTake i o l q) := b.commitTake o l (by rw [cut]; rfl)
  rw [same.incoming, port] at committed
  refine ⟨committed, fun k es w room => ?_⟩
  have told := (b.commitTake_awaits (awaits k es w) (by omega) o l (cut := f) (by rw [cut]; rfl)).holds
  rwa [same.incoming, port, same.tag, b.ref] at told

end

/-! ### The judgement of a fresh take -/

/-- A take as it becomes READY (R98). -/
def Take.shown (v : Part) (x : Island) (t : Take) : Take :=
  if t.effective = .now then { t with state := .ready }.soon v x.settings.lead else { t with state := .ready }.refreshed v x.settings.lead

/-- What a take that becomes READY is (R82, R98). -/
structure Take.Shows (v : Part) (n : Nat) (t u : Take) : Prop where
  same : t.Same u
  figured : u.Figured n
  state : u.state = .ready
  fCut : u.fCut = if t.effective = .now then some (Stamp.plus v.ref.count n) else t.fCut
  cut : u.cut = if t.effective = .now then none else t.cut
  sop : u.sop = t.sop
  slip : u.slip = t.slip

theorem Take.shown_shows {v : Part} {x : Island} {t : Take} (a : t.Figured x.settings.lead) : t.Shows v x.settings.lead (t.shown v x) := by
  have start : t.Same { t with state := .ready } := ⟨rfl, rfl, rfl, rfl, rfl, rfl, rfl, rfl⟩
  unfold Take.shown
  by_cases now : t.effective = .now
  · rw [if_pos now]
    refine ⟨start.trans (Take.soon_same ..), Take.refreshed_figured .., Take.refreshed_state .., ?_, ?_, Take.refreshed_sop ..,
      Take.refreshed_slip ..⟩
    · rw [if_pos now, Take.soon, Take.refreshed_fCut, Take.figures_fCut _ _ rfl]
    · rw [if_pos now]
      exact Take.refreshed_cut ..
  · rw [if_neg now]
    refine ⟨start.trans (Take.refreshed_same ..), Take.refreshed_figured .., Take.refreshed_state .., ?_, ?_, Take.refreshed_sop ..,
      Take.refreshed_slip ..⟩
    · rw [if_neg now]
      exact Take.refreshed_fCut_of (t := { t with state := .ready }) a.record v _
    · rw [if_neg now]
      exact Take.refreshed_cut ..

/-- TAKE_READY of a take (R112). -/
def Take.readyItem (t : Take) : EventItem := .takeReady t.tag t.fCut (t.sop.bind (·.value)) (t.sop.map (·.basis)) t.error

section
variable {i : IslandId} {v : Part} {x : Island} {t : Take} {p : Part} (a : Leads i v x t p)
include a

theorem Leads.becomeReady_awaits {k : Nat} {es : List Event} (w : Awaits k es p) (room : k + 1 < Config.maxEvents) :
    Awaits (k + 2) (es ++ [⟨.island i, v.ref.count, (t.shown v x).readyItem⟩]) (Machine.becomeReady i p) := by
  have entered := a.modFront (f := fun u => { u with state := .ready }) nofun
  have waits : Awaits k es (p.modFront i fun u => { u with state := .ready }) := w.of_evt rfl
  unfold Machine.becomeReady
  dsimp only
  rw [entered.active]
  have formed : Leads i v x (t.shown v x) (if t.effective = .now then Machine.cutSoon i (p.modFront i fun u => { u with state := .ready })
        else refreshTake i (p.modFront i fun u => { u with state := .ready })) := by
    unfold Take.shown
    split
    · exact entered.cutSoon
    · exact entered.refresh
  dsimp only
  rw [formed.active]
  have told := (ite_keeps (c := t.effective = .now) (cutSoon_awaits waits i) (refreshTake_awaits waits i)).post (.island i)
    (t.shown v x).readyItem room
  rwa [formed.ref] at told

/-- A fresh take that sends no start is judged, and nothing else is done (R97, R98). -/
theorem Leads.evalTake_fresh (fresh : t.Fresh v x.settings.lead)
    (unsent : ∀ h, t.head? = some h → ¬ (t.state = .armed ∧ t.preroll = .auto ∧ t.effective = .now ∧ (v.head h).drive.atRest = true)) :
    (t.state = .starting ∧ t.mayReady v x = true → Leads i v x (t.shown v x) (evalTake i p) ∧
      ∀ k es, Awaits k es p → k + 1 < Config.maxEvents →
        Awaits (k + 2) (es ++ [⟨.island i, v.ref.count, (t.shown v x).readyItem⟩]) (evalTake i p)) ∧
    (¬ (t.state = .starting ∧ t.mayReady v x = true) → evalTake i p = p) := by
  have follows : ∀ h, t.head? = some h → ¬ (t.state = .armed ∧ (v.head h).drive.running = true) := by
    rintro h is ⟨armed, running⟩
    have state := fresh.state
    rw [is] at state
    exact nomatch armed.symm.trans (state.trans (if_pos running))
  have state : t.state = .starting ∨ t.state = .armed := by
    rw [fresh.state]
    split
    · split
      · exact .inl rfl
      · exact .inr rfl
    · exact .inl rfl
  have same : evalTake i p = retarget i (Machine.judgeReady i p) := by
    unfold evalTake
    rw [a.convertNow_keeps fresh.firm.stays, a.sendStart_stays unsent, a.followRunning_stays follows]
  have judged : Machine.judgeReady i p = if t.state = .starting ∧ t.mayReady v x then Machine.becomeReady i p else p := by
    unfold Machine.judgeReady
    rw [a.active]
    dsimp only
    rw [a.mayReady]
    refine ite_congr rfl (fun _ => rfl) fun _ => if_neg fun ready => ?_
    obtain state | state := state <;> exact nomatch state.symm.trans ready.1
  refine ⟨fun may => ?_, fun may => ?_⟩
  · have shows : Leads i v x (t.shown v x) (Machine.becomeReady i p) := a.becomeReady
    have ready := (Take.shown_shows (v := v) fresh.figured).state
    rw [same, judged, if_pos may, shows.retarget_stays (by rw [ready]; exact nofun)]
    exact ⟨shows, fun k es w room => a.becomeReady_awaits w room⟩
  · rw [same, judged, if_neg may, a.retarget_stays (by obtain state | state := state <;> rw [state] <;> exact nofun)]

end

end Sys2Proof.Machine
end

section
/-! PROOFS. The outcomes of a take that has just been activated, where no head is started (R97 to R101). -/

namespace Sys2Proof.Machine

/-! ### An outcome at once -/

/-- The take `t` of island `x` has committed at once on `port`, with the outcome, the fields lost, the cut and the error given; where
the step is heard, TAKE_COMMIT tells of it (R101, R112). -/
structure EndsAt (i : IslandId) (v : Part) (x : Island) (t : Take) (port : Port) (heard : Prop) (o : TakeOutcome) (l : Option Int) (f : Stamp)
    (e : Option Int) (q : Part) : Prop where
  take : ∃ u, (q.island i).active = some u ∧ u.state = .committed ∧ u.outcome = o ∧ u.lost = l ∧ u.fCut = some f ∧ u.error = e
  mirror : (q.island i).mirror = .moving port
  confirm : (q.island i).confirm = some { target := t.incoming, port := port, cut := f, owner := .take
                                          deadline := Stamp.plus f x.settings.grace }
  told : heard → Holds [⟨.island i, v.ref.count, .takeCommit t.tag port (some f) e o 0⟩] q

theorem Holds.last {es : List Event} {e : Event} {p : Part} (a : Holds (es ++ [e]) p) : Holds [e] p :=
  ⟨a.1, (List.sublist_append_right es [e]).trans a.2⟩

section
variable {i : IslandId} {v : Part} {x : Island} {t : Take} {p : Part} {heard : Prop}

theorem Leads.portOf_led (a : Leads i v x t p) {q : Part} {u : Take} (b : Leads i v x u q) (s : Source) : q.portOf i s = p.portOf i s := by
  unfold Part.portOf
  rw [a.settings, b.settings]
  split <;> simp only [fun h => (b.heads h).trans (a.heads h).symm]

theorem meetStart_unarmed (a : Leads i v x t p) (state : t.state ≠ .armed) : meetStart i p = p := by
  refine meetStart_stays a ?_
  unfold Take.planned
  split
  · exact if_neg fun plan => state plan.1
  · rfl

theorem Take.Figured.pending_or (state : t.state = .armed ∨ t.state = .starting ∨ t.state = .ready) : t.state.pending = true := by
  obtain state | state | state := state <;> rw [state] <;> rfl

/-- A take whose commit field lies ahead, or that has none, waits on. -/
theorem Leads.meetCommit_ahead (a : Leads i v x t p) (figured : t.Figured x.settings.lead)
    (state : t.state = .armed ∨ t.state = .starting ∨ t.state = .ready) (later : v.cutNow x.settings.lead t.fCut = none) :
    meetCommit i p = p := by
  refine meetCommit_stays a fun c at_ _ => ?_
  rw [figured.commitAt state] at at_
  obtain ⟨g, cut, rfl⟩ := Option.map_eq_some_iff.1 at_
  exact Part.cutNow_eq_none later g cut

theorem Leads.meetCommit_ends (a : Leads i v x t p) (free : x.confirm = none) (figured : t.Figured x.settings.lead)
    (state : t.state = .armed ∨ t.state = .starting ∨ t.state = .ready) (slip : t.slip = 0) {f : Stamp} {o : TakeOutcome} {l : Option Int}
    (now : v.cutNow x.settings.lead t.fCut = some f) (decides : (t.recut v x).decide x = .cut o l)
    (w : heard → ∃ k es, Awaits k es p ∧ k + 4 < Config.maxEvents) :
    EndsAt i v x t (p.portOf i t.incoming) heard o l f (t.errorAt f) (meetCommit i p) := by
  obtain ⟨cut, error, slips⟩ := figured.recut state now
  obtain ⟨g, at_, due, -⟩ := Part.cutNow_eq_some now
  have commitAt : t.commitAt = some (Stamp.minus g x.settings.lead) := by rw [figured.commitAt state, at_]; rfl
  obtain ⟨committed, told⟩ := a.meetCommit_cuts free commitAt due (.inl (Take.Figured.pending_or state)) decides cut
  refine ⟨⟨_, committed.active, rfl, rfl, rfl, cut, error⟩, by rw [committed.island]; rfl, by rw [committed.island]; rfl, fun h => ?_⟩
  obtain ⟨k, es, waits, room⟩ := w h
  have last := (told k es waits room).last
  rwa [error, slips, slip] at last

/-- A fresh take that may be READY: it waits READY, or its decision is taken at once (R98, R99). -/
theorem Leads.work_ready (a : Leads i v x t p) (free : x.confirm = none) (fresh : t.Fresh v x.settings.lead) (state : t.state = .starting)
    (may : t.mayReady v x = true) (w : heard → ∃ k es, Awaits k es p ∧ k + 6 < Config.maxEvents) :
    (v.cutNow x.settings.lead (t.shown v x).fCut = none → Leads i v x (t.shown v x) (workTake i p) ∧
      (heard → Holds [⟨.island i, v.ref.count, (t.shown v x).readyItem⟩] (workTake i p))) ∧
    ∀ f o l, v.cutNow x.settings.lead (t.shown v x).fCut = some f → ((t.shown v x).recut v x).decide x = .cut o l →
      EndsAt i v x t (p.portOf i t.incoming) heard o l f ((t.shown v x).errorAt f) (workTake i p) := by
  obtain ⟨shows, told⟩ := (a.evalTake_fresh fresh (fun _ _ armed => nomatch state.symm.trans armed.1)).1 ⟨state, may⟩
  have u := Take.shown_shows (v := v) fresh.figured
  have ready : (t.shown v x).state = .armed ∨ (t.shown v x).state = .starting ∨ (t.shown v x).state = .ready := .inr (.inr u.state)
  rw [workTake, meetStart_unarmed shows (by rw [u.state]; exact nofun)]
  refine ⟨fun later => ?_, fun f o l now decides => ?_⟩
  · rw [shows.meetCommit_ahead u.figured ready later]
    refine ⟨shows, fun h => ?_⟩
    obtain ⟨k, es, waits, room⟩ := w h
    exact (told k es waits (by omega)).holds.last
  · have ends := shows.meetCommit_ends (heard := heard) free u.figured ready (u.slip.trans fresh.slip) now decides fun h => by
      obtain ⟨k, es, waits, room⟩ := w h
      exact ⟨_, _, told k es waits (by omega), by omega⟩
    rw [u.same.incoming, a.portOf_led shows] at ends
    exact ⟨ends.take, ends.mirror, by rw [ends.confirm, u.same.incoming], fun h => by rw [← u.same.tag]; exact ends.told h⟩

/-! ### What the decision says of a take with no F_sop -/

/-- STANDBY, and a LOCKED head without a SOP cue (R98, R99). -/
theorem Take.decide_sits (ready : t.state = .ready) (sits : t.Sits v) (uncued : t.sopCue = none) :
    (t.recut v x).decide x = .cut .done none :=
  Take.decide_ready_uncued (Take.recut_isReady ready fun _ => (Take.redone_sits sits uncued).1)
    ((Take.recut_alike v x t).sopCue.trans uncued)

/-- A LOCKED head whose SOP cue lies behind it (R98, R99). -/
theorem Take.decide_behind {h : HeadId} {r : Pred} (ready : t.state = .ready) (is : t.incoming = .head h)
    (locked : (v.head h).drive = .locked) (cued : t.sopCue.isSome = true) (sop : t.sop = some r) (basis : r.basis = .reached)
    (lost : r.value = none) (error : t.error = none) : (t.recut v x).decide x = .cut .early none := by
  have same := Take.recut_alike v x t
  have inexact : ∀ c, t.errorAt c = none := fun c =>
    Take.errorOf_inexact (t := { t with fCut := some c }) is sop (by rw [basis]; exact nofun)
  have recut : (t.recut v x).error = none := by
    by_cases prompt : t.commitAt = some v.ref.count
    · rw [Take.recut_prompt prompt, error]
    · rw [(Take.recut_late prompt).2, inexact]
  have still : (t.recut v x).state = .ready := by
    refine Take.recut_isReady ready fun _ => ?_
    rw [staysReady_head ((Take.redone_alike v x t).incoming.trans is) locked, Take.redone_error, inexact]
    simp
  rw [Take.decide_ready_reached still (by rw [same.sopCue]; exact cued) recut (same.sop.trans sop) basis, lost]

end

/-! ### The decision on an exact F_sop -/

section
variable {i : IslandId} {v : Part} {x : Island} {t : Take} {p : Part}

/-- A pending take on a LOCKED head with a SOP cue ahead: at most the tolerance from its cut it commits DONE, and earlier EARLY
(R82, R98, R99). -/
theorem Take.decide_exact {h : HeadId} {r : Pred} {s f : Stamp} {allowed : Nat} (figured : t.Figured x.settings.lead)
    (state : t.state = .starting ∨ t.state = .ready) (is : t.incoming = .head h) (locked : (v.head h).drive = .locked)
    (cued : t.sopCue.isSome = true) (sop : t.sop = some r) (basis : r.basis = .exact) (value : r.value = some s)
    (tolerance : t.tolerance.getD x.settings.tolerance = allowed) (now : v.cutNow x.settings.lead t.fCut = some f)
    (unready : t.state = .starting → t.fCut = some f → allowed < (s - f).toInt) :
    t.errorAt f = some (s - f).toInt ∧
    ((s - f).toInt.natAbs ≤ allowed → (t.recut v x).decide x = .cut .done none) ∧
    ((s - f).toInt < -allowed → (t.recut v x).decide x = .cut .early (some (-(s - f).toInt))) := by
  have same := Take.recut_alike v x t
  have errorAt : ∀ c, t.errorAt c = some (s - c).toInt := fun c => Take.errorOf_exact (t := { t with fCut := some c }) is sop basis value rfl
  obtain ⟨-, error, -⟩ := figured.recut (.inr state) now
  have allow : ∀ u : Take, t.Alike u → u.allowed x = allowed := fun u like => by
    rw [Take.allowed, like.tolerance, tolerance]
  have ready : (s - f).toInt ≤ allowed → (t.recut v x).state = .ready := fun within => by
    obtain ⟨g, cut, due, isCut⟩ := Part.cutNow_eq_some now
    have commitAt : t.commitAt = some (Stamp.minus g x.settings.lead) := by rw [figured.commitAt (.inr state), cut]; rfl
    by_cases prompt : Stamp.minus g x.settings.lead = v.ref.count
    · rw [if_pos prompt] at isCut
      rw [Take.recut_prompt (by rw [commitAt, prompt])]
      refine state.resolve_left fun starting => ?_
      exact absurd (unready starting (isCut ▸ cut)) (by omega)
    · rw [if_neg prompt] at isCut
      subst isCut
      have like := Take.redone_alike v x t
      refine Take.recut_ready (by rw [commitAt]; simpa using prompt) (state.symm.imp (fun e => ⟨e, ?_⟩) fun e => ⟨e, ?_⟩)
      · rw [staysReady_head (like.incoming.trans is) locked, Take.redone_error, errorAt, allow _ like]
        simp [-BitVec.toInt_sub, within]
      · rw [mayReady_head (like.incoming.trans is) locked, Take.redone_error, errorAt, allow _ like]
        simp [-BitVec.toInt_sub, within]
  have decides : (s - f).toInt ≤ allowed → (t.recut v x).decide x =
      if (s - f).toInt.natAbs ≤ allowed then .cut .done none
      else if (s - f).toInt < 0 then .cut .early (some (-(s - f).toInt)) else .hold := fun within => by
    rw [Take.decide_ready_error (ready within) (by rw [same.sopCue]; exact cued) (error.trans (errorAt f)), allow _ same, Int.toNat_natCast]
  refine ⟨errorAt f, fun within => ?_, fun early => ?_⟩
  · rw [decides (by omega), if_pos within]
  · rw [decides (by omega), if_neg (by omega), if_pos (by omega)]

/-! ### A take that is HELD at once -/

/-- What the commit field brings is what is met at once. -/
theorem meetCommit_of_completes {P : Part → Prop} (running : p.mode = .running) (due : commitDue i p = true)
    (completes : Completes (.commitFieldReached i) ⟨p, []⟩ P) : P (meetCommit i p) := by
  obtain ⟨q, is, holds⟩ := completes
  have does : exec (.commitFieldReached i) ⟨p, []⟩ = .next ⟨takeCommitField i p, []⟩ :=
    (onPart_eq _ _).trans (by rw [onField_due running due])
  rw [does] at is
  rw [meetCommit, if_pos due]
  cases is
  exact holds

section
variable (active : (p.island i).active = some t) (running : p.mode = .running) (free : (p.island i).confirm = none)
  (figured : t.Figured (p.island i).settings.lead)
include active running free figured

/-- Above its tolerance a take on a LOCKED head is HELD, and follows its F_sop (R99, R100). -/
theorem meetCommit_follows {h : HeadId} {r : Pred} {s f : Stamp} {allowed : Nat} (state : t.state = .starting ∨ t.state = .ready)
    (is : t.incoming = .head h) (locked : (p.head h).drive = .locked) (cued : t.sopCue.isSome = true) (sop : t.sop = some r)
    (basis : r.basis = .exact) (value : r.value = some s) (tolerance : t.tolerance.getD (p.island i).settings.tolerance = allowed)
    (now : p.cutNow (p.island i).settings.lead t.fCut = some f) (above : allowed < (s - f).toInt) :
    ∃ u, ((meetCommit i p).island i).active = some u ∧ u.state = .held ∧ u.heldCut = some f ∧ u.fCut = some s ∧ u.slip = (s - f).toInt ∧
      u.error = some 0 ∧ u.commitAt = some (Stamp.minus s (p.island i).settings.lead) := by
  obtain ⟨g, cut, due, isCut⟩ := Part.cutNow_eq_some now
  have commitAt : t.commitAt = some (Stamp.minus g (p.island i).settings.lead) := by rw [figured.commitAt (.inr state), cut]; rfl
  have isDue : commitDue i p = true := commitDue_of free active commitAt due (.inl (Take.Figured.pending_or (.inr state)))
  obtain ⟨-, -, -, -, prompt, -, late, -⟩ := commitFieldDecides ⟨p, []⟩ i running free t active
    (Stamp.minus g (p.island i).settings.lead) commitAt (of_decide_eq_true due)
  by_cases at_ : Stamp.minus g (p.island i).settings.lead = p.ref.count
  · rw [if_pos at_] at isCut
    subst isCut
    have count : Stamp.plus p.ref.count (p.island i).settings.lead = f := by
      rw [← at_]
      exact sub_add_cancel f _
    have ahead := reached_of_ahead (c := p.ref.count) (v := s) (n := (p.island i).settings.lead)
      (by rw [count]; exact lt_of_le_of_lt (Int.natCast_nonneg _) above)
    have waits : t.state = .starting ∨ t.state = .ready ∧ t.sopCue.isSome = true ∧ ∃ e, t.error = some e ∧ (allowed : Int) < e := by
      refine state.imp_right fun ready => ⟨ready, cued, _, ?_, above⟩
      rw [figured.error]
      exact Take.errorOf_exact is sop basis value cut
    have held := (prompt h r s f is locked sop basis value cut at_ (by rw [tolerance]; exact waits)).1
      (Nat.not_lt.1 (of_decide_eq_false ahead))
    obtain ⟨⟨u, found, -, rest⟩, -⟩ := meetCommit_of_completes running isDue held
    exact ⟨u, found, rest⟩
  · rw [if_neg at_] at isCut
    subst isCut
    have held := ((late h r s is locked cued sop state at_).1 basis value).2.2
    rw [if_neg at_, tolerance] at held
    obtain ⟨⟨u, found, -, rest⟩, -⟩ := meetCommit_of_completes running isDue (held above)
    exact ⟨u, found, rest⟩

/-- A take whose head is not LOCKED is HELD, and a head at rest is started under AUTO (R99, R100). -/
theorem meetCommit_holds {f : Stamp} (state : t.state = .armed ∨ t.state = .starting)
    (unlocked : ∀ h, t.head? = some h → (p.head h).drive ≠ .locked) (known : t.head?.isSome = true)
    (now : p.cutNow (p.island i).settings.lead t.fCut = some f) :
    (∃ u, ((meetCommit i p).island i).active = some u ∧ u.state = .held ∧ u.heldCut = some f) ∧
    (∀ h, t.head? = some h → t.preroll = .auto → (p.head h).drive.atRest = true → ((meetCommit i p).head h).drive = .runup) ∧
    HeadsSteered p (meetCommit i p) := by
  have pending : t.state = .armed ∨ t.state = .starting ∨ t.state = .ready := state.imp_right .inl
  obtain ⟨g, cut, due, isCut⟩ := Part.cutNow_eq_some now
  have commitAt : t.commitAt = some (Stamp.minus g (p.island i).settings.lead) := by rw [figured.commitAt pending, cut]; rfl
  have isDue : commitDue i p = true := commitDue_of free active commitAt due (.inl (Take.Figured.pending_or pending))
  obtain ⟨-, -, -, -, -, -, -, waits⟩ := commitFieldDecides ⟨p, []⟩ i running free t active
    (Stamp.minus g (p.island i).settings.lead) commitAt (of_decide_eq_true due)
  obtain ⟨held, heldCut, -, -, -, -, -, starts, steered, -⟩ := meetCommit_of_completes running isDue (waits state unlocked (.inl known))
  obtain ⟨u, found, state'⟩ := Option.map_eq_some_iff.1 held
  refine ⟨⟨u, found, state', ?_⟩, starts, steered⟩
  rw [found, Option.bind_some] at heldCut
  rw [heldCut]
  by_cases at_ : Stamp.minus g (p.island i).settings.lead = p.ref.count
  · rw [if_pos at_] at isCut ⊢
    rw [cut, isCut]
  · rw [if_neg at_] at isCut
    rw [if_neg at_, if_neg at_, isCut]
    rfl

end

end

end Sys2Proof.Machine
end

section
/-! PROOFS. The outcomes of a take that has just been activated on a head at rest (R81, R97, R100). -/

namespace Sys2Proof.Machine

section
variable {i : IslandId} {v : Part} {x : Island} {t : Take} {p : Part} {h : HeadId}

/-- What a start by the start field leaves: the take in STARTING, its cut and its start field kept, and its head in RUNUP (R81, R97). -/
structure Started (i : IslandId) (v : Part) (x : Island) (t : Take) (h : HeadId) (u : Take) (q : Part) : Prop where
  active : (q.island i).active = some u
  same : t.Same u
  state : u.state = .starting
  cut : u.cut = t.cut
  fCut : u.fCut = t.fCut
  fStart : u.fStart = t.fStart
  figured : u.Figured x.settings.lead
  settings : (q.island i).settings = x.settings
  confirm : (q.island i).confirm = x.confirm
  ref : q.ref = v.ref
  runup : (q.head h).drive = .runup

theorem Take.Firm.mapPreds (firm : t.Firm) (is : t.incoming = .head h) (f : PredKind → Pred → Pred) : (t.mapPreds h f).cut = t.cut := by
  cases cut : t.cut with
  | none => simp only [Take.mapPreds, cut, Option.map_none]
  | some r => simp only [Take.mapPreds, cut, Option.map_some, followedBy, (firm r cut).2 h is, if_false]

theorem Leads.takeStartField_starts (a : Leads i v x t p) (is : t.incoming = .head h) (rest : (v.head h).drive.atRest = true)
    (firm : t.Firm) (figured : t.Figured x.settings.lead) : ∃ u, Started i v x t h u (takeStartField i p) := by
  have head : t.head? = some h := by simp only [Take.head?, is]
  have starting : Leads i v x { t with state := .starting } (p.modFront i fun u => { u with state := .starting }) :=
    a.modFront (f := fun u => { u with state := .starting }) nofun
  obtain ⟨drives, -, ref, requested⟩ := starting.startRequest rest
  have takes : takeStartField i p = evalTake i (Machine.startRequest h (p.modFront i fun u => { u with state := .starting })) := by
    rw [takeStartField, a.active]
    simp only [Option.bind_some, head]
  generalize startDrive h .scheduler (p.modFront i fun u => { u with state := .starting }) = w at drives ref requested
  rw [Take.refreshed_of_state (by exact nofun)] at requested
  have runup : (w.head h).drive = .runup := by
    rw [drives]
    rfl
  have ends := requested.evalTake_starting (h := h) rfl head (by rw [runup]; exact nofun)
  have cut : (Take.mapPreds h (Pred.atStart w) { t with state := .starting }).cut = t.cut :=
    Take.Firm.mapPreds (t := { t with state := .starting }) firm is _
  have stays : ((Take.mapPreds h (Pred.atStart w) { t with state := .starting }).figures x.settings.lead).loses = false :=
    Take.Firm.stays (fun r at_ => firm r (cut.symm.trans at_))
  rw [← takes] at ends
  unfold Take.converted at ends
  rw [show (Island.mapEnd h (Pred.atStart w) x).settings = x.settings from rfl, stays, if_neg Bool.false_ne_true] at ends
  refine ⟨_, ends.active, ⟨rfl, rfl, rfl, rfl, rfl, rfl, rfl, rfl⟩, rfl, cut, ?_, rfl, Take.figures_figured _ _, ?_, ?_,
    ends.ref.trans ref, by rw [ends.heads, runup]⟩
  · show (match (Take.mapPreds h (Pred.atStart w) { t with state := .starting }).cut with
      | some r => r.value
      | none => t.fCut) = t.fCut
    rw [cut]
    cases at_ : t.cut with
    | none => rfl
    | some r => exact (figured.record r at_).symm
  · rw [ends.island]
    rfl
  · rw [ends.island]
    rfl

theorem Take.head?_of (is : t.incoming = .head h) : t.head? = some h := by simp only [Take.head?, is]

theorem Take.Fresh.armed {n : Nat} (fresh : t.Fresh v n) (is : t.incoming = .head h) (stands : (v.head h).drive.running = false) :
    t.state = .armed := by
  have state := fresh.state
  rw [Take.head?_of is] at state
  exact state.trans (if_neg (by rw [stands]; exact Bool.false_ne_true))

theorem Take.Fresh.starting {n : Nat} (fresh : t.Fresh v n) (is : t.incoming = .head h) (runs : (v.head h).drive.running = true) :
    t.state = .starting := by
  have state := fresh.state
  rw [Take.head?_of is] at state
  exact state.trans (if_pos runs)

theorem Take.Fresh.waits {n : Nat} (fresh : t.Fresh v n) : t.state = .armed ∨ t.state = .starting := by
  rw [fresh.state]
  split
  · split
    · exact .inr rfl
    · exact .inl rfl
  · exact .inr rfl

/-- What the work of a fresh take on a head that is not LOCKED comes to (R81, R97 to R100). -/
structure Unlocked (i : IslandId) (v : Part) (x : Island) (t : Take) (h : HeadId) (p q : Part) : Prop where
  waits : v.cutNow x.settings.lead t.fCut = none → (t.planned v = some h → t.fStart.any (reached v.ref.count) = false) → q = p
  starts : v.cutNow x.settings.lead t.fCut = none → t.planned v = some h → t.fStart.any (reached v.ref.count) = true →
    q = takeStartField i p ∧ ∃ u, Started i v x t h u q
  holds : ∀ f, v.cutNow x.settings.lead t.fCut = some f → (∃ u, (q.island i).active = some u ∧ u.state = .held ∧ u.heldCut = some f) ∧
    (t.preroll = .auto → (v.head h).drive.atRest = true → (q.head h).drive = .runup)

theorem Part.cutNow_ref {w : Part} (same : w.ref = v.ref) (n : Nat) (c : Option Stamp) : w.cutNow n c = v.cutNow n c := by
  unfold Part.cutNow
  rw [same]

theorem Leads.work_unlocked (a : Leads i v x t p) (running : p.mode = .running) (free : x.confirm = none) (fresh : t.Fresh v x.settings.lead)
    (is : t.incoming = .head h) (unlocked : (v.head h).drive ≠ .locked)
    (unsent : ¬ (t.state = .armed ∧ t.preroll = .auto ∧ t.effective = .now ∧ (v.head h).drive.atRest = true)) :
    Unlocked i v x t h p (workTake i p) := by
  have head := Take.head?_of is
  have only : ∀ k, t.head? = some k → k = h := fun k is' => Option.some.inj (is'.symm.trans head)
  have judged : evalTake i p = p := (a.evalTake_fresh fresh (fun k is' => only k is' ▸ unsent)).2 fun may => by
    rw [mayReady_unlocked is unlocked] at may
    exact nomatch may.2
  have pending : t.state = .armed ∨ t.state = .starting ∨ t.state = .ready := fresh.waits.imp_right .inl
  have planned : ∀ k, t.planned v = some k → k = h := fun k plan => by
    unfold Take.planned at plan
    rw [head] at plan
    dsimp only at plan
    split at plan
    · exact (Option.some.inj plan).symm
    · exact nomatch plan
  have stays : (t.planned v = some h → t.fStart.any (reached v.ref.count) = false) → meetStart i p = p := fun undue => by
    have no : startDue i p = false := by
      simp only [startDue, a.active, a.planned, a.ref]
      cases plan : t.planned v with
      | none => rfl
      | some k =>
        rw [planned k plan] at plan
        rw [undue plan]
        rfl
    rw [meetStart, no]
    exact if_neg Bool.false_ne_true
  have meets : t.planned v = some h → t.fStart.any (reached v.ref.count) = true → meetStart i p = takeStartField i p := fun plan due => by
    have yes : startDue i p = true := by
      simp only [startDue, a.active, a.planned, a.ref, plan, due, Option.isSome_some, Bool.and_self]
    rw [meetStart, if_pos yes]
  have begins : t.planned v = some h → ∃ u, Started i v x t h u (takeStartField i p) := fun plan => by
    unfold Take.planned at plan
    rw [head] at plan
    dsimp only at plan
    split at plan
    next plan' => exact a.takeStartField_starts is plan'.2.2.2 fresh.firm fresh.figured
    next => exact nomatch plan
  rw [workTake, judged]
  refine ⟨fun later undue => ?_, fun later plan due => ?_, fun f now => ?_⟩
  · rw [stays undue, a.meetCommit_ahead fresh.figured pending later]
  · obtain ⟨u, b⟩ := begins plan
    have rests : meetCommit i (takeStartField i p) = takeStartField i p := by
      refine (leads_of_active b.active).meetCommit_ahead (by rw [b.settings]; exact b.figured) (.inr (.inl b.state)) ?_
      rw [b.settings, b.fCut, Part.cutNow_ref b.ref, later]
    rw [meets plan due, rests]
    exact ⟨rfl, u, b⟩
  · by_cases starts : t.planned v = some h ∧ t.fStart.any (reached v.ref.count) = true
    · obtain ⟨u, b⟩ := begins starts.1
      rw [meets starts.1 starts.2]
      have mode : (takeStartField i p).mode = .running :=
        ((takeStartField_sched i p).frame .mode (by simp [Block.scheduling, Block.alarming, Block.posting])).symm.trans running
      obtain ⟨held, -, steered⟩ := meetCommit_holds b.active mode (b.confirm.trans free) (by rw [b.settings]; exact b.figured)
        (.inr b.state) (fun k is' => by
          have mine : k = h := only k (by rw [← is', Take.head?, Take.head?, b.same.incoming])
          rw [mine, b.runup]
          exact nofun) (by rw [Take.head?_of (b.same.incoming.trans is)]; rfl)
        (f := f) (by rw [b.settings, b.fCut, Part.cutNow_ref b.ref, now])
      refine ⟨held, fun _ _ => ?_⟩
      obtain same | ⟨-, runup, -⟩ := steered h
      · rw [same, b.runup]
      · exact runup
    · rw [stays fun plan => Bool.eq_false_iff.2 fun due => starts ⟨plan, due⟩]
      obtain ⟨held, starts, -⟩ := meetCommit_holds a.active running (a.free free) (by rw [a.settings]; exact fresh.figured) fresh.waits
        (fun k is' => by rw [only k is', a.heads]; exact unlocked) (by rw [head]; rfl) (f := f)
        (by rw [a.settings, Part.cutNow_ref a.ref, now])
      exact ⟨held, fun auto rest => starts h head auto (by rw [a.heads]; exact rest)⟩

end

end Sys2Proof.Machine
end

section
/-! PROOFS. SHORT_LEADER, which tells of a take that enters the short-leader case, and of no other (R81). -/

namespace Sys2Proof.Machine

/-- While an event is being written, none that waits is a SHORT_LEADER of island `i`. -/
def Brief (i : IslandId) (p : Part) : Prop := p.evt.writing = true ∧ ∀ e ∈ p.evt.queue, e.source = .island i → e.item.code ≠ 9

section
variable {i : IslandId} {p : Part} (a : Brief i p)
include a

theorem Brief.of_evt {q : Part} (same : q.evt = p.evt) : Brief i q := by
  unfold Brief
  rw [same]
  exact a

theorem Brief.post (s : AlarmSource) (e : EventItem) (other : s = .island i → e.code ≠ 9) : Brief i (Machine.post s e p) := by
  refine ⟨post_writing a.1 s e, ?_⟩
  rw [post_queue a.1]
  split
  · intro f member
    obtain old | new := List.mem_append.1 member
    · exact a.2 f old
    · rw [List.mem_singleton.1 new]
      exact other
  · exact a.2

theorem Brief.clear (s : AlarmSource) (k : AlarmKind) (d1 d2 : Word) : Brief i (clearAlarm s k d1 d2 p) := by
  have kept : ∀ l, Brief i { p with alarms := l } := fun _ => a.of_evt rfl
  unfold clearAlarm
  refine Brief.of_evt (p := match p.alarms.find? s k with | none => p | some e => _) ?_ rfl
  split
  · exact a
  · split
    · exact (kept _).post s _ fun _ => nofun
    · exact (kept _).post s _ fun _ => nofun
    · exact a

theorem Brief.lamp (h : HeadId) : Brief i (lampChanged h p) := by
  have kept : ∀ x, Brief i { p with analog := x } := fun _ => a.of_evt rfl
  unfold lampChanged
  split
  · exact a
  · dsimp only
    split
    · exact (kept _).clear ..
    · exact kept _

/-- A start tells of nothing but the head, and of its lamp. -/
theorem Brief.startDrive {h : HeadId} (rest : (p.head h).drive.atRest = true) (c : Cause) : Brief i (Machine.startDrive h c p) := by
  have old : ((p.modCadence h fun c => c.started p.ref.count (p.head h).pos.frame).head h).drive = (p.head h).drive := by
    rw [modCadence_head]
  have still : (p.head h).drive.driven = false ∧ (p.head h).drive.running = false := by
    revert rest
    generalize (p.head h).drive = d
    cases d <;> decide
  unfold Machine.startDrive enterDrive
  extract_lets frame was entered posted alarmed lamped idled
  have told : Brief i posted := (a.of_evt (q := entered) rfl).post _ _ nofun
  have lit : Brief i lamped := ite_keeps told (told.lamp h)
  have idle : idled = lamped := if_neg (by rw [old, still.1]; exact nofun)
  rw [if_neg (by rw [old, still.2]; exact nofun), idle]
  exact lit

/-- The figures of a take that is not ARMED are recomputed without a word. -/
theorem Brief.refresh {j : IslandId} (unarmed : j = i → ∀ t, (p.island j).active = some t → t.state ≠ .armed) :
    Brief i (refreshTake j p) := by
  unfold refreshTake
  split
  · exact a
  · rename_i t active
    have figured := modFront_active (f := Take.figures (p.island j).settings.lead) active (by exact (Island.active_eq_some.1 active).2)
    have kept : ∀ f, Brief i (p.modFront j f) := fun _ => a.of_evt rfl
    unfold refreshStart
    rw [figured]
    dsimp only
    split
    · rename_i h cut plan _
      have armed : t.state = .armed := by
        unfold Take.planned at plan
        split at plan
        · split at plan
          next is => exact is.1
          next => exact nomatch plan
        · exact nomatch plan
      have again : ∀ f, Brief i ((p.modFront j (Take.figures (p.island j).settings.lead)).modFront j f) := fun _ => a.of_evt rfl
      refine ite_keeps ((again _).post _ _ fun same => absurd armed (unarmed (AlarmSource.island.inj same) t active)) (again _)
    · exact ite_keeps (a.of_evt rfl) (kept _)

end

section
variable {i : IslandId} {v : Part} {x : Island} {t : Take} {p : Part}

/-- The start field of a take that stands at rest is taken without a SHORT_LEADER. -/
theorem Leads.takeStartField_brief (a : Leads i v x t p) (brief : Brief i p) {h : HeadId} (is : t.incoming = .head h)
    (rest : (v.head h).drive.atRest = true) (firm : t.Firm) : Brief i (takeStartField i p) := by
  have head : t.head? = some h := Take.head?_of is
  have starting : Leads i v x { t with state := .starting } (p.modFront i fun u => { u with state := .starting }) :=
    a.modFront (f := fun u => { u with state := .starting }) nofun
  have still : ((p.modFront i fun u => { u with state := .starting }).head h).drive.atRest = true := by
    rw [starting.heads]
    exact rest
  obtain ⟨drives, -, -, requested⟩ := starting.startRequest rest
  have takes : takeStartField i p = evalTake i (Machine.startRequest h (p.modFront i fun u => { u with state := .starting })) := by
    rw [takeStartField, a.active]
    simp only [Option.bind_some, head]
  have asked : Brief i (Machine.startRequest h (p.modFront i fun u => { u with state := .starting })) := by
    rw [startRequest_rest still]
    have driven : Leads i (Machine.startDrive h .scheduler (p.modFront i fun u => { u with state := .starting })) x
        { t with state := .starting } (Machine.startDrive h .scheduler (p.modFront i fun u => { u with state := .starting })) :=
      ⟨(startDrive_island ..).trans starting.island, starting.past, fun _ => rfl, rfl⟩
    have started := (brief.of_evt (q := p.modFront i fun u => { u with state := .starting }) rfl).startDrive still .scheduler
    generalize Machine.startDrive h .scheduler (p.modFront i fun u => { u with state := .starting }) = w at driven started
    have mapped := driven.mapPreds h (Pred.atStart w)
    have told : Brief i (Machine.mapPreds h (Pred.atStart w) w) := started.of_evt rfl
    have unarmed : ∀ {u : Take} {y : Island} {r : Part}, Leads i w y u r → u.state = .starting → ∀ s, (r.island i).active = some s →
        s.state ≠ .armed := fun b state s active => by
      rw [← Option.some.inj (b.active.symm.trans active), state]
      exact nofun
    have first : Brief i (refreshTake .i1 (Machine.mapPreds h (Pred.atStart w) w)) := told.refresh fun one => one ▸ unarmed mapped rfl
    refine first.refresh fun two => ?_
    subst two
    exact unarmed (mapped.refresh_other (by decide)) rfl
  have cut := Take.Firm.mapPreds (t := { t with state := .starting }) firm is
    (Pred.atStart (Machine.startDrive h .scheduler (p.modFront i fun u => { u with state := .starting })))
  rw [takes, requested.evalTake_converts (h := h) ?_ ?_ ?_]
  · exact asked.of_evt (convertNow_silent ..)
  · exact Take.refreshed_state ..
  · rw [Take.head?, Take.refreshed_incoming]
    exact head
  · rw [drives]
    exact nofun

/-- A take whose start field is formed tells of a short leader, and says nothing else (R81). -/
theorem Leads.refresh_short (a : Leads i v x t p) (none : t.short = none) :
    (∀ h cut d, (t.figures x.settings.lead).planned v = some h → (t.figures x.settings.lead).fCut = some cut →
      t.leader (v.head h) = some d → shortLeader (v.head h) d = true → ∀ k es, Awaits k es p → k < Config.maxEvents →
      Awaits (k + 1) (es ++ [⟨.island i, v.ref.count, .shortLeader t.tag h (v.head h).settings.runupDistance d⟩]) (refreshTake i p)) ∧
    ((∀ h cut d, (t.figures x.settings.lead).planned v = some h → (t.figures x.settings.lead).fCut = some cut →
      t.leader (v.head h) = some d → shortLeader (v.head h) d = false) → (refreshTake i p).evt = p.evt) := by
  have figured := a.modFront (f := Take.figures x.settings.lead) a.past
  have does : refreshTake i p = Machine.refreshStart i (p.modFront i (Take.figures x.settings.lead)) := by
    unfold refreshTake
    rw [a.active, a.settings]
  rw [does]
  refine ⟨fun h cut d plan is leader short k es w room => ?_, fun long => ?_⟩
  · rw [figured.refreshStart_plan plan is]
    have lead : (t.figures x.settings.lead).leader (v.head h) = some d := leader
    have unset : (t.figures x.settings.lead).short = Option.none := none
    simp only [lead, Option.map_some, short, unset]
    rw [if_pos ⟨trivial, nofun⟩]
    have told := (w.of_evt (q := (p.modFront i (Take.figures x.settings.lead)).modFront i fun u => { u with
      fStart := some (startField v.ref.standard (v.head h) (some d) cut), short := some true }) rfl).post (.island i)
        (.shortLeader t.tag h (v.head h).settings.runupDistance d) room
    rwa [show ((p.modFront i (Take.figures x.settings.lead)).modFront i fun u => { u with
      fStart := some (startField v.ref.standard (v.head h) (some d) cut), short := some true }).ref = v.ref from
        (figured.modFront (f := fun u => { u with
          fStart := some (startField v.ref.standard (v.head h) (some d) cut), short := some true }) figured.past).ref] at told
  · by_cases no : (t.figures x.settings.lead).planned v = Option.none ∨ (t.figures x.settings.lead).fCut = Option.none
    · rw [figured.refreshStart_none no]
      split <;> rfl
    · obtain ⟨⟨h, plan⟩, cut, is⟩ := (not_or.1 no).imp Option.ne_none_iff_exists'.1 Option.ne_none_iff_exists'.1
      rw [figured.refreshStart_plan plan is]
      refine (congrArg Part.evt (if_neg fun both => ?_)).trans rfl
      obtain ⟨d, leader, short⟩ := Option.map_eq_some_iff.1 both.1
      exact nomatch short.symm.trans (long h cut d plan is leader)

end

end Sys2Proof.Machine
end

section
/-! PROOFS. What a take just activated has of its cut and its commit field, whatever its first work comes to (R98 to R100, R112). -/

namespace Sys2Proof.Machine

/-- What the first work of take `t` leaves it of its plan, as take `w`: a cut whose commit field lies ahead, or the record that has
no value yet; and a READY take is told of (R82, R98, R112). -/
structure Plans (i : IslandId) (v : Part) (x : Island) (t : Take) (heard : Prop) (w : Take) (q : Part) : Prop where
  later : ∀ f, t.fCut = some f → reached v.ref.count (Stamp.minus f x.settings.lead) = false →
    w.fCut = some f ∧ w.commitAt = some (Stamp.minus f x.settings.lead)
  uncut : t.fCut = none → t.effective ≠ .now → w.fCut = none ∧ w.commitAt = none ∧ w.cut = t.cut
  ready : w.state = .ready → heard → Holds [⟨.island i, v.ref.count, w.readyItem⟩] q

/-- The island has an active take that so plans. -/
def PlansAt (i : IslandId) (v : Part) (x : Island) (t : Take) (heard : Prop) (q : Part) : Prop :=
  ∃ w, (q.island i).active = some w ∧ Plans i v x t heard w q

theorem Part.cutNow_ahead {v : Part} {n : Nat} {f : Stamp} (ahead : reached v.ref.count (Stamp.minus f n) = false) :
    v.cutNow n (some f) = none := by
  simp [Part.cutNow, Option.filter, ahead]

section
variable {i : IslandId} {v : Part} {x : Island} {t w : Take} {p q : Part} {heard : Prop} {h : HeadId}

/-- A take that keeps its cut. -/
theorem Plans.of_kept (figured : w.Figured x.settings.lead) (pending : w.state = .armed ∨ w.state = .starting ∨ w.state = .ready)
    (now : t.effective = .now → t.fCut = none) (kept : t.effective ≠ .now → w.fCut = t.fCut ∧ w.cut = t.cut)
    (ready : w.state = .ready → heard → Holds [⟨.island i, v.ref.count, w.readyItem⟩] q) : Plans i v x t heard w q where
  later f at_ _ := by
    have planned : t.effective ≠ .now := fun is => nomatch at_.symm.trans (now is)
    rw [figured.commitAt pending, (kept planned).1, at_]
    exact ⟨rfl, rfl⟩
  uncut none planned := by
    rw [figured.commitAt pending, (kept planned).1, none]
    exact ⟨rfl, rfl, (kept planned).2⟩
  ready := ready

/-- A take on which the decision has been taken. -/
theorem Plans.of_decided (soon : t.effective ≠ .now → ∃ f, v.cutNow x.settings.lead t.fCut = some f) (now : t.effective = .now → t.fCut = none)
    (past : w.state = .held ∨ w.state = .committed) : Plans i v x t heard w q where
  later f at_ ahead := by
    have planned : t.effective ≠ .now := fun is => nomatch at_.symm.trans (now is)
    obtain ⟨g, is⟩ := soon planned
    rw [at_, Part.cutNow_ahead ahead] at is
    exact nomatch is
  uncut none planned := by
    obtain ⟨g, is⟩ := soon planned
    rw [none] at is
    exact nomatch is
  ready is := by
    obtain past | past := past <;> exact nomatch past.symm.trans is

/-- The decision leaves no take on a LOCKED head as it was: it is HELD or has committed (R99, R100). -/
theorem Leads.meetCommit_decides (a : Leads i v x t p) (free : x.confirm = none) (figured : t.Figured x.settings.lead)
    (state : t.state = .armed ∨ t.state = .starting ∨ t.state = .ready) (is : t.incoming = .head h) (locked : (v.head h).drive = .locked)
    {f : Stamp} (now : v.cutNow x.settings.lead t.fCut = some f) :
    ∃ w, ((meetCommit i p).island i).active = some w ∧ (w.state = .held ∨ w.state = .committed) := by
  obtain ⟨g, at_, due, -⟩ := Part.cutNow_eq_some now
  have commitAt : t.commitAt = some (Stamp.minus g x.settings.lead) := by rw [figured.commitAt state, at_]; rfl
  have isDue : commitDue i p = true :=
    commitDue_of (a.free free) a.active commitAt (by rw [a.ref]; exact due) (.inl (Take.Figured.pending_or state))
  have same := Take.recut_alike v x t
  obtain ⟨q, b, -, -, cuts, holds⟩ := a.recut
  rw [meetCommit, if_pos isDue]
  cases decides : (t.recut v x).decide x with
  | cut o l =>
    rw [cuts o l decides]
    exact ⟨_, (b.commitTake o l rfl).active, .inr rfl⟩
  | hold =>
    obtain ⟨q', held, enters⟩ := b.enterHeld_unstarted fun k incoming _ => by
      have mine := Take.incoming_of_head? incoming
      rw [same.incoming, is] at mine
      cases mine
      rw [locked]
      rfl
    rw [holds decides, enters]
    obtain lost | ⟨sop, exact_⟩ := Option.eq_none_or_eq_some ((t.recut v x).hold.heldSop v)
    · exact ⟨_, (held.retarget_waits rfl lost).active, .inl rfl⟩
    · by_cases gone : reached v.ref.count (Stamp.minus sop x.settings.lead) = true
      · obtain ⟨q'', aimed, commits⟩ := held.retarget_commits rfl exact_ gone free
        rw [commits]
        exact ⟨_, (aimed.commitTake .slipped none rfl).active, .inr rfl⟩
      · exact ⟨_, (held.retarget_follows rfl exact_ (Bool.eq_false_iff.2 gone)).active, .inl (Take.refreshed_state ..)⟩

variable (a : Leads i v x t p) (free : x.confirm = none) (fresh : t.Fresh v x.settings.lead)
include a free fresh

/-- A take that may be READY at once. -/
theorem Leads.plans_ready (state : t.state = .starting) (may : t.mayReady v x = true)
    (heardBy : heard → ∃ k es, Awaits k es p ∧ k + 6 < Config.maxEvents)
    (decides : ∀ f, v.cutNow x.settings.lead (t.shown v x).fCut = some f →
      ∃ w, ((workTake i p).island i).active = some w ∧ (w.state = .held ∨ w.state = .committed)) : PlansAt i v x t heard (workTake i p) := by
  have u := Take.shown_shows (v := v) fresh.figured
  have now := fun is => (fresh.now is).2
  obtain later | ⟨f, soon⟩ := Option.eq_none_or_eq_some (v.cutNow x.settings.lead (t.shown v x).fCut)
  · obtain ⟨shows, told⟩ := (a.work_ready (heard := heard) free fresh state may heardBy).1 later
    exact ⟨_, shows.active, .of_kept u.figured (.inr (.inr u.state)) now
      (fun planned => ⟨u.fCut.trans (if_neg planned), u.cut.trans (if_neg planned)⟩) fun _ => told⟩
  · obtain ⟨w, active, past⟩ := decides f soon
    refine ⟨w, active, .of_decided (fun planned => ⟨f, ?_⟩) now past⟩
    rw [← soon, u.fCut, if_neg planned]

theorem Leads.plans_standby (standby : t.incoming = .standby) (heardBy : heard → ∃ k es, Awaits k es p ∧ k + 6 < Config.maxEvents)
    (uncued : t.sopCue = none) : PlansAt i v x t heard (workTake i p) := by
  have headless : t.head? = none := by simp only [Take.head?, standby]
  have state : t.state = .starting := by
    have is := fresh.state
    rwa [headless] at is
  have may : t.mayReady v x = true := by simp only [Take.mayReady, standby]
  have u := Take.shown_shows (v := v) (x := x) fresh.figured
  refine a.plans_ready free fresh state may heardBy fun f soon => ?_
  have sits : (t.shown v x).Sits v := ⟨by rw [u.same.incoming, standby]; exact nofun, by
    rw [u.sop, fresh.sop, headless], fun k is => by
    rw [Take.head?, u.same.incoming, standby] at is
    exact nomatch is⟩
  obtain ⟨w, active, committed, -⟩ := ((a.work_ready (heard := heard) free fresh state may heardBy).2 f _ _ soon
    (Take.decide_sits u.state sits (u.same.sopCue.trans uncued))).take
  exact ⟨w, active, .inr committed⟩

theorem Leads.plans_locked (is : t.incoming = .head h) (locked : (v.head h).drive = .locked)
    (heardBy : heard → ∃ k es, Awaits k es p ∧ k + 6 < Config.maxEvents) : PlansAt i v x t heard (workTake i p) := by
  have state : t.state = .starting := fresh.starting is (by rw [locked]; rfl)
  have only : ∀ k, t.head? = some k → ¬ (t.state = .armed ∧ t.preroll = .auto ∧ t.effective = .now ∧ (v.head k).drive.atRest = true) :=
    fun _ _ armed => nomatch state.symm.trans armed.1
  by_cases may : t.mayReady v x = true
  · have u := Take.shown_shows (v := v) (x := x) fresh.figured
    refine a.plans_ready free fresh state may heardBy fun f soon => ?_
    obtain ⟨shows, -⟩ := (a.evalTake_fresh fresh only).1 ⟨state, may⟩
    rw [workTake, meetStart_unarmed shows (by rw [u.state]; exact nofun)]
    exact shows.meetCommit_decides free u.figured (.inr (.inr u.state)) (u.same.incoming.trans is) locked soon
  · have judged : evalTake i p = p := (a.evalTake_fresh fresh only).2 fun both => may both.2
    have planned : t.effective ≠ .now := fun now => may (by rw [mayReady_head is locked, now]; rfl)
    have now := fun is => (fresh.now is).2
    have pending : t.state = .armed ∨ t.state = .starting ∨ t.state = .ready := .inr (.inl state)
    rw [workTake, judged, meetStart_unarmed a (by rw [state]; exact nofun)]
    obtain later | ⟨f, soon⟩ := Option.eq_none_or_eq_some (v.cutNow x.settings.lead t.fCut)
    · rw [a.meetCommit_ahead fresh.figured pending later]
      exact ⟨t, a.active, .of_kept fresh.figured pending now (fun _ => ⟨rfl, rfl⟩) fun ready => nomatch state.symm.trans ready⟩
    · obtain ⟨w, active, past⟩ := a.meetCommit_decides free fresh.figured pending is locked soon
      exact ⟨w, active, .of_decided (fun _ => ⟨f, soon⟩) now past⟩

theorem Leads.plans_unlocked (running : p.mode = .running) (is : t.incoming = .head h) (unlocked : (v.head h).drive ≠ .locked) :
    PlansAt i v x t heard (workTake i p) := by
  have now := fun is => (fresh.now is).2
  by_cases starts : t.state = .armed ∧ t.preroll = .auto ∧ t.effective = .now ∧ (v.head h).drive.atRest = true
  · obtain ⟨armed, auto, isNow, rest⟩ := starts
    obtain ⟨cut, fCut⟩ := fresh.now isNow
    obtain ⟨w, y, u, done, -, -, starting, -⟩ := a.works_start is armed auto isNow rest cut fCut
    exact ⟨u, done.active, fun f at_ => (nomatch fCut.symm.trans at_), fun _ planned => absurd isNow planned,
      fun ready => nomatch starting.symm.trans ready⟩
  · have work := a.work_unlocked running free fresh is unlocked starts
    obtain later | ⟨f, soon⟩ := Option.eq_none_or_eq_some (v.cutNow x.settings.lead t.fCut)
    · by_cases due : t.planned v = some h ∧ t.fStart.any (reached v.ref.count) = true
      · obtain ⟨-, u, b⟩ := work.starts later due.1 due.2
        exact ⟨u, b.active, .of_kept b.figured (.inr (.inl b.state)) now (fun _ => ⟨b.fCut, b.cut⟩)
          fun ready => nomatch b.state.symm.trans ready⟩
      · rw [work.waits later fun plan => Bool.eq_false_iff.2 fun reached => due ⟨plan, reached⟩]
        exact ⟨t, a.active, .of_kept fresh.figured (fresh.waits.imp_right .inl) now (fun _ => ⟨rfl, rfl⟩) fun ready => by
          obtain state | state := fresh.waits <;> exact nomatch state.symm.trans ready⟩
    · obtain ⟨⟨u, active, held, -⟩, -⟩ := work.holds f soon
      exact ⟨u, active, .of_decided (fun _ => ⟨f, soon⟩) now (.inl held)⟩

end

end Sys2Proof.Machine
end

section
/-! PROOFS. The outcomes of a take just activated, on STANDBY and on a LOCKED head (R97 to R101). -/

namespace Sys2Proof.Machine

/-- The cut with which the decision is taken at once: M fields on for a NOW take that becomes READY, and for another where its commit
field is reached already (R98, R99). -/
def Take.soonCut (v : Part) (n : Nat) (t : Take) : Option Stamp :=
  if t.effective = .now then some (Stamp.plus v.ref.count n) else v.cutNow n t.fCut

section
variable {i : IslandId} {v : Part} {x : Island} {t u : Take} {p q : Part} {heard : Prop} {h : HeadId} {f : Stamp}

theorem Take.Shows.soon {n : Nat} (shows : t.Shows v n u) : v.cutNow n u.fCut = t.soonCut v n := by
  rw [shows.fCut, Take.soonCut]
  split
  · exact Part.cutNow_soon v n
  · rfl

theorem Take.Shows.sits {n : Nat} (shows : t.Shows v n u) (sits : t.Sits v) : u.Sits v := by
  obtain ⟨known, unaimed, locked⟩ := sits
  refine ⟨by rw [shows.same.incoming]; exact known, shows.sop.trans unaimed, fun h is => locked h ?_⟩
  rwa [Take.head?, shows.same.incoming] at is

/-- The error of a take on STANDBY is 0 (R98). -/
theorem Take.errorOf_standby (standby : t.incoming = .standby) : t.errorOf = some 0 := if_pos standby

variable (a : Leads i v x t p) (free : x.confirm = none) (fresh : t.Fresh v x.settings.lead)
include a free fresh

/-- STANDBY, and a LOCKED head without a SOP cue: READY, and DONE at once where the decision is taken (R98, R99). -/
theorem Leads.work_sits (state : t.state = .starting) (sits : t.Sits v) (uncued : t.sopCue = none) (may : t.mayReady v x = true)
    (heardBy : heard → ∃ k es, Awaits k es p ∧ k + 6 < Config.maxEvents) :
    (t.soonCut v x.settings.lead = none → ((workTake i p).island i).active = some (t.shown v x)) ∧
    ∀ f, t.soonCut v x.settings.lead = some f →
      EndsAt i v x t (p.portOf i t.incoming) heard .done none f ((t.shown v x).errorAt f) (workTake i p) := by
  have shows := Take.shown_shows (v := v) (x := x) fresh.figured
  obtain ⟨waits, ends⟩ := a.work_ready (heard := heard) free fresh state may heardBy
  rw [shows.soon] at waits ends
  exact ⟨fun none => (waits none).1.active, fun f soon => ends f _ _ soon
    (Take.decide_sits shows.state (shows.sits sits) (shows.same.sopCue.trans uncued))⟩

/-- A LOCKED head whose SOP cue lies behind it: READY with no error, and EARLY at once, the fields lost unknown (R98, R99). -/
theorem Leads.work_behind {r : Pred} (is : t.incoming = .head h) (locked : (v.head h).drive = .locked) (cued : t.sopCue.isSome = true)
    (sop : t.sop = some r) (basis : r.basis = .reached) (lost : r.value = none)
    (heardBy : heard → ∃ k es, Awaits k es p ∧ k + 6 < Config.maxEvents) :
    (t.soonCut v x.settings.lead = none → ((workTake i p).island i).active = some (t.shown v x)) ∧ (t.shown v x).error = none ∧
    ∀ f, t.soonCut v x.settings.lead = some f → EndsAt i v x t (p.portOf i t.incoming) heard .early none f none (workTake i p) := by
  have shows := Take.shown_shows (v := v) (x := x) fresh.figured
  have inexact : ∀ {w : Take}, w.incoming = .head h → w.sop = some r → w.errorOf = none := fun is sop =>
    Take.errorOf_inexact is sop (by rw [basis]; exact nofun)
  have state : t.state = .starting := fresh.starting is (by rw [locked]; rfl)
  have may : t.mayReady v x = true := by
    rw [mayReady_head is locked, fresh.figured.error, inexact is sop, sop]
    simp [basis, lost]
  have incoming := shows.same.incoming.trans is
  have error : (t.shown v x).error = none := shows.figured.error.trans (inexact incoming (shows.sop.trans sop))
  have errorAt : ∀ f, (t.shown v x).errorAt f = none := fun f => inexact (w := { t.shown v x with fCut := some f }) incoming
    (shows.sop.trans sop)
  obtain ⟨waits, ends⟩ := a.work_ready (heard := heard) free fresh state may heardBy
  rw [shows.soon] at waits ends
  refine ⟨fun none => (waits none).1.active, error, fun f soon => ?_⟩
  have done := ends f _ _ soon (Take.decide_behind shows.state incoming locked (by rw [shows.same.sopCue]; exact cued)
    (shows.sop.trans sop) basis lost error)
  rwa [errorAt f] at done

/-- A LOCKED head whose SOP cue lies ahead, its F_sop exact: judged by the error, and decided by that of the cut at once (R82, R98 to R100). -/
structure Exact (i : IslandId) (v : Part) (x : Island) (t : Take) (port : Port) (heard : Prop) (s : Stamp) (allowed : Nat) (q : Part) :
    Prop where
  uncut : t.fCut = none → t.effective ≠ .now → ∃ w, (q.island i).active = some w ∧ w.error = none ∧ w.state = .starting
  later : ∀ f, t.fCut = some f → reached v.ref.count (Stamp.minus f x.settings.lead) = false →
    ∃ w, (q.island i).active = some w ∧ w.error = some (s - f).toInt ∧
      w.state = if (s - f).toInt ≤ allowed then .ready else .starting
  done : ∀ f, t.soonCut v x.settings.lead = some f → (s - f).toInt.natAbs ≤ allowed →
    EndsAt i v x t port heard .done none f (some (s - f).toInt) q
  early : ∀ f, t.soonCut v x.settings.lead = some f → (s - f).toInt < -allowed →
    EndsAt i v x t port heard .early (some (-(s - f).toInt)) f (some (s - f).toInt) q
  held : ∀ f, t.soonCut v x.settings.lead = some f → (allowed : Int) < (s - f).toInt → ∃ w, (q.island i).active = some w ∧ w.state = .held ∧
    w.heldCut = some f ∧ w.fCut = some s ∧ w.slip = (s - f).toInt ∧ w.error = some 0 ∧ w.commitAt = some (Stamp.minus s x.settings.lead)

theorem Leads.work_exact {r : Pred} {s : Stamp} {allowed : Nat} (running : p.mode = .running) (is : t.incoming = .head h)
    (locked : (v.head h).drive = .locked) (cued : t.sopCue.isSome = true) (sop : t.sop = some r) (basis : r.basis = .exact)
    (value : r.value = some s) (tolerance : t.tolerance.getD x.settings.tolerance = allowed)
    (heardBy : heard → ∃ k es, Awaits k es p ∧ k + 6 < Config.maxEvents) :
    Exact i v x t (p.portOf i t.incoming) heard s allowed (workTake i p) := by
  have state : t.state = .starting := fresh.starting is (by rw [locked]; rfl)
  have only : ∀ k, t.head? = some k → ¬ (t.state = .armed ∧ t.preroll = .auto ∧ t.effective = .now ∧ (v.head k).drive.atRest = true) :=
    fun _ _ armed => nomatch state.symm.trans armed.1
  have error : ∀ {w : Take} {f : Stamp}, w.incoming = .head h → w.sop = some r → w.fCut = some f → w.errorOf = some (s - f).toInt :=
    fun is sop cut => Take.errorOf_exact is sop basis value cut
  have allowedIs : t.allowed x = allowed := by rw [Take.allowed, tolerance]
  by_cases may : t.mayReady v x = true
  · have shows := Take.shown_shows (v := v) (x := x) fresh.figured
    have incoming := shows.same.incoming.trans is
    have record := shows.sop.trans sop
    obtain ⟨waits, ends⟩ := a.work_ready (heard := heard) free fresh state may heardBy
    have decides := fun f (soon : t.soonCut v x.settings.lead = some f) =>
      Take.decide_exact (allowed := allowed) shows.figured (.inr shows.state) incoming locked (by rw [shows.same.sopCue]; exact cued) record basis value
        (by rw [shows.same.tolerance]; exact tolerance) (shows.soon.trans soon) fun starting => nomatch shows.state.symm.trans starting
    refine ⟨fun none planned => ?_, fun f at_ ahead => ?_, fun f soon within => ?_, fun f soon under => ?_, fun f soon above => ?_⟩
    · rw [mayReady_head is locked, fresh.figured.error, Take.errorOf, is, sop, none] at may
      simp [planned, basis, Option.isNone_iff_eq_none] at may
      simp [may] at cued
    · have planned : t.effective ≠ .now := fun now => nomatch at_.symm.trans (fresh.now now).2
      have cut : (t.shown v x).fCut = some f := shows.fCut.trans ((if_neg planned).trans at_)
      have active := (waits (by rw [cut, Part.cutNow_ahead ahead])).1.active
      refine ⟨_, active, shows.figured.error.trans (error incoming record cut), ?_⟩
      rw [mayReady_head is locked, fresh.figured.error, error is sop at_, allowedIs] at may
      simp only [planned, decide_false, Bool.false_or, decide_eq_true_eq] at may
      rw [if_pos may, shows.state]
    · obtain ⟨errorAt, done, -⟩ := decides f soon
      rw [← errorAt]
      exact ends f _ _ (shows.soon.trans soon) (done within)
    · obtain ⟨errorAt, -, early⟩ := decides f soon
      have done := ends f _ _ (shows.soon.trans soon) (early under)
      rwa [errorAt] at done
    · obtain ⟨led, -⟩ := (a.evalTake_fresh fresh only).1 ⟨state, may⟩
      have mode : (evalTake i p).mode = .running := ((evalTake_sched i p).frame .mode
        (by simp [Block.scheduling, Block.alarming, Block.posting])).symm.trans running
      rw [workTake, meetStart_unarmed led (by rw [shows.state]; exact nofun), ← led.settings]
      refine meetCommit_follows led.active mode (led.free free) (by rw [led.settings]; exact shows.figured) (.inr shows.state) incoming
        (by rw [led.heads]; exact locked) (by rw [shows.same.sopCue]; exact cued) record basis value
        (by rw [led.settings, shows.same.tolerance]; exact tolerance) ?_ above
      rw [led.settings, Part.cutNow_ref led.ref]
      exact shows.soon.trans soon
  · have planned : t.effective ≠ .now := fun now => may (by rw [mayReady_head is locked, now]; rfl)
    have judged : evalTake i p = p := (a.evalTake_fresh fresh only).2 fun both => may both.2
    have work : workTake i p = meetCommit i p := by
      rw [workTake, judged, meetStart_unarmed a (by rw [state]; exact nofun)]
    have soonCut : t.soonCut v x.settings.lead = v.cutNow x.settings.lead t.fCut := if_neg planned
    have pending : t.state = .armed ∨ t.state = .starting ∨ t.state = .ready := .inr (.inl state)
    have above : ∀ f, t.fCut = some f → (allowed : Int) < (s - f).toInt := fun f at_ => by
      rw [mayReady_head is locked, fresh.figured.error, error is sop at_, allowedIs] at may
      simpa [planned, -BitVec.toInt_sub] using may
    have decides := fun f (soon : v.cutNow x.settings.lead t.fCut = some f) =>
      Take.decide_exact fresh.figured (.inl state) is locked cued sop basis value tolerance soon fun _ at_ => above f at_
    have heardHere : heard → ∃ k es, Awaits k es p ∧ k + 4 < Config.maxEvents := fun hears => by
      obtain ⟨k, es, w, room⟩ := heardBy hears
      exact ⟨k, es, w, by omega⟩
    rw [work]
    refine ⟨fun none _ => ?_, fun f at_ ahead => ?_, fun f soon within => ?_, fun f soon under => ?_, fun f soon over_ => ?_⟩
    · rw [a.meetCommit_ahead fresh.figured pending (by rw [none]; rfl)]
      refine ⟨t, a.active, ?_, state⟩
      rw [fresh.figured.error, Take.errorOf, is, sop, none] <;> rfl
    · rw [a.meetCommit_ahead fresh.figured pending (by rw [at_, Part.cutNow_ahead ahead])]
      refine ⟨t, a.active, fresh.figured.error.trans (error is sop at_), ?_⟩
      rw [if_neg (Int.not_le.2 (above f at_)), state]
    · obtain ⟨errorAt, done, -⟩ := decides f (soonCut.symm.trans soon)
      rw [← errorAt]
      exact a.meetCommit_ends free fresh.figured pending fresh.slip (soonCut.symm.trans soon) (done within) heardHere
    · obtain ⟨errorAt, -, early⟩ := decides f (soonCut.symm.trans soon)
      have done := a.meetCommit_ends free fresh.figured pending fresh.slip (soonCut.symm.trans soon) (early under) heardHere
      rwa [errorAt] at done
    · rw [← a.settings]
      refine meetCommit_follows a.active running (a.free free) (by rw [a.settings]; exact fresh.figured) (.inl state) is
        (by rw [a.heads]; exact locked) cued sop basis value (by rw [a.settings]; exact tolerance) ?_ over_
      rw [a.settings, Part.cutNow_ref a.ref]
      exact soonCut.symm.trans soon

end

end Sys2Proof.Machine
end

section
/-! PROOFS. A TAKE to an empty list as its status leaves it, and the take as its activation begins its work (R93, R95, R112). -/

namespace Sys2Proof.Machine

/-! ### The TAKE that joins -/

section
variable {w tag incoming mode outCue inCue tolerance preroll : Word} {field : Stamp} {i : IslandId} {p : Part} {src : Source}

/-- The take that a TAKE makes (R93). -/
def Take.asked (tag mode : Word) (field : Stamp) (outCue inCue tolerance preroll : Word) (src : Source) : Take :=
  .new tag src (if mode = 0 then .atCue else if mode = 1 then .atField else .now) field
    (if outCue = 65535 then none else some outCue.toNat) (if inCue = 65535 then none else some inCue.toNat) (readTolerance tolerance)
    (if preroll = 0 then .auto else .manual)

theorem readMode_le (le : mode.toNat ≤ 2) :
    readMode mode = some (if mode = 0 then .atCue else if mode = 1 then .atField else .now) := by
  have cases : mode = 0 ∨ mode = 1 ∨ mode = 2 := by bv_omega
  obtain rfl | rfl | rfl := cases <;> decide

theorem readPreroll_le (le : preroll.toNat ≤ 1) : readPreroll preroll = some (if preroll = 0 then .auto else .manual) := by
  have cases : preroll = 0 ∨ preroll = 1 := by bv_omega
  obtain rfl | rfl := cases <;> decide

/-- A TAKE whose checks hold, to an empty list: the take joins, and the list is activated (R93). -/
theorem takeCommand_joins (named : readIsland w = some i) (remote : (p.island i).authority = .remote) (empty : (p.island i).takes = [])
    (read : readIncoming incoming = some src) (assigned : ∀ h, src = .head h → (p.head h).assigned.map (·.island) = some i)
    (modes : mode.toNat ≤ 2) (prerolls : preroll.toNat ≤ 1)
    (cueIn : inCue = 65535 ∨ inCue.toNat ≤ 255 ∧ ∃ h, src = .head h ∧ ∃ c ∈ (p.head h).cues, c.id = inCue.toNat)
    (cueOut : outCue = 65535 ∨ outCue.toNat ≤ 255 ∧ ∃ h, (p.head h).assigned.map (·.island) = some i ∧
      ∃ c ∈ (p.head h).cues, c.id = outCue.toNat) :
    takeCommand w tag incoming mode field outCue inCue tolerance preroll p =
      (activateFront i (joinTake i (.asked tag mode field outCue inCue tolerance preroll src) p),
        if 8 < tolerance.toNat ∧ tolerance ≠ 65535 then .clamped else .ok) := by
  have good : ¬ badTake incoming mode outCue inCue preroll := by
    rintro (far | far | far | ⟨far, given⟩ | ⟨far, given⟩ | ⟨standby, given⟩)
    · exact nomatch (readIncoming_eq_none.2 far).symm.trans read
    · omega
    · omega
    · obtain absent | ⟨near, -⟩ := cueOut
      · exact given absent
      · omega
    · obtain absent | ⟨near, -⟩ := cueIn
      · exact given absent
      · omega
    · obtain absent | ⟨-, h, is, -⟩ := cueIn
      · exact given absent
      · rw [readIncoming_standby.2 standby] at read
        rw [is] at read
        exact nomatch read
  have there : ¬ cueLost p i (.asked tag mode field outCue inCue tolerance preroll src) := by
    rintro (⟨h, is, id, known, gone⟩ | ⟨id, known, gone⟩)
    · obtain ⟨given, rfl⟩ := given_iff.1 known
      obtain ⟨-, k, is', c, member, found⟩ := cueIn.resolve_left given
      cases is'.symm.trans is
      exact gone c member found
    · obtain ⟨given, rfl⟩ := given_iff.1 known
      obtain ⟨-, h, at_, c, member, found⟩ := cueOut.resolve_left given
      exact gone h at_ c member found
  have status : doneStatus (decide (tolerance ≠ 0xFFFF) && decide (8 < tolerance.toNat)) =
      if 8 < tolerance.toNat ∧ tolerance ≠ 65535 then .clamped else .ok := by
    simp only [doneStatus, Bool.and_eq_true, decide_eq_true_eq]
    exact if_congr and_comm rfl rfl
  have joins := (queueTake_good (tag := tag) (tolerance := tolerance) (field := field) named remote good read (readMode_le modes)
    (readPreroll_le prerolls)).trans (requestTake_joins (t := .asked tag mode field outCue inCue tolerance preroll src)
      (by rw [empty]; decide) _ (fun ⟨h, is, stray⟩ => stray (assigned h is)) there)
  rw [status] at joins
  rw [takeCommand, joins]
  simp only [followTakeOf, named, followTake, empty, List.isEmpty_nil, if_true]

theorem Take.asked_blank : (Take.asked tag mode field outCue inCue tolerance preroll src).Blank := ⟨rfl, rfl, rfl⟩

/-- An island whose list was empty, as the take has joined it. -/
theorem joinTake_led (empty : (p.island i).takes = []) (t : Take) : (joinTake i t p).island i = (p.island i).led t := by
  rw [joinTake_island, empty, Island.led, empty]
  rfl

end

/-! ### The activation of a take -/

section
variable {i : IslandId} {p : Part} {x : Island} {t : Take} {out : Source}

/-- The part as TAKE_ACTIVE has been told, before the take's conditions are first evaluated (R112). -/
def Part.entered (i : IslandId) (out : Source) (t : Take) (p : Part) : Part :=
  post (.island i) (t.active p i out).activeItem (convertNow i (refreshTake i (p.entering i out)))

theorem Part.entered_leads (out : Source) (island : p.island i = x.led t) : Leads i p x (t.active p i out) (p.entered i out t) :=
  (Machine.entered_leads out island).post _ _

theorem Part.entered_mode (i : IslandId) (out : Source) (t : Take) (p : Part) : (p.entered i out t).mode = p.mode := by
  have entering := (front_taking i (Take.formed p i out false) p).trans (front_taking i (Take.activated p i) _)
  have formed := (entering.trans (refreshTake_frame i _)).trans (convertNow_frame i _)
  exact ((formed.trans (post_taking i (.island i) (t.active p i out).activeItem _)) .mode (by simp [Block.taking, Block.posting])).symm

theorem Part.entered_awaits (out : Source) (island : p.island i = x.led t) {k : Nat} {es : List Event} (w : Awaits k es p)
    (room : k + 1 < Config.maxEvents) :
    Awaits (k + 2) (es ++ [⟨.island i, p.ref.count, (t.active p i out).activeItem⟩]) (p.entered i out t) := by
  have told := (convertNow_awaits (refreshTake_awaits (w.of_evt (q := p.entering i out) rfl) i) i).post (.island i)
    (t.active p i out).activeItem room
  rwa [(Machine.entered_leads out island).ref] at told

/-- The plan of a take that is not NOW stands as it is formed. -/
theorem Take.active_plan (planned : (t.active p i out).effective ≠ .now) :
    ((t.entered p i out).figures (p.island i).settings.lead).planned p = (t.active p i out).planned p ∧
    ((t.entered p i out).figures (p.island i).settings.lead).fCut = (t.active p i out).fCut ∧
    (t.entered p i out).sopCue = (t.active p i out).sopCue ∧ (t.entered p i out).tag = (t.active p i out).tag := by
  have is : t.active p i out = (t.entered p i out).refreshed p (p.island i).settings.lead :=
    (Take.active_cases p i out t).resolve_right fun turned => planned (by rw [turned, Take.refreshed_effective]; rfl)
  rw [is, Take.refreshed_eq]
  exact ⟨rfl, rfl, rfl, rfl⟩

/-- SHORT_LEADER as a take that keeps a start field is activated: with a short leader, and only then (R81). -/
theorem Part.entered_short (out : Source) (island : p.island i = x.led t) (blank : t.Blank) {h : HeadId} {cut : Stamp} {d : Int}
    (plan : (t.active p i out).planned p = some h) (fCut : (t.active p i out).fCut = some cut)
    (leader : (t.active p i out).leader (p.head h) = some d) :
    (shortLeader (p.head h) d = true → ∀ k es, Awaits k es p → k + 1 < Config.maxEvents → Awaits (k + 2)
      (es ++ [⟨.island i, p.ref.count, .shortLeader (t.active p i out).tag h (p.head h).settings.runupDistance d⟩])
      (p.entered i out t)) ∧
    (shortLeader (p.head h) d = false → Brief i p → Brief i (p.entered i out t)) := by
  have planned : (t.active p i out).effective ≠ .now := fun now => nomatch (Take.planned_of_now now).symm.trans plan
  obtain ⟨samePlan, sameCut, sameCue, sameTag⟩ := Take.active_plan planned
  rw [← Island.led_settings island] at samePlan sameCut
  have unset : (t.entered p i out).short = none := blank.short
  have sameLeader : (t.entered p i out).leader (p.head h) = some d := by
    rw [Take.leader, sameCue]
    exact leader
  obtain ⟨tells, silent⟩ := (entering_leads out island).refresh_short unset
  refine ⟨fun short k es w room => ?_, fun long brief => ?_⟩
  · have told := tells h cut d (samePlan.trans plan) (sameCut.trans fCut) sameLeader short k es (w.of_evt rfl) (by omega)
    rw [sameTag] at told
    exact (convertNow_awaits told i).other (.island i) (t.active p i out).activeItem
  · have quiet := silent fun h' cut' d' plan' _ leader' => ?_
    · exact (((brief.of_evt (q := p.entering i out) rfl).of_evt quiet).of_evt (convertNow_silent i _)).post _ _ nofun
    · cases Option.some.inj ((samePlan.trans plan).symm.trans plan')
      cases Option.some.inj (sameLeader.symm.trans leader')
      exact long

end

end Sys2Proof.Machine
end

section
/-! PROOFS. The take of a TAKE as its words give it: its cut, its start field and what TAKE_ACTIVE tells (R76, R79, R81, R93, R95, R112). -/

namespace Sys2Proof.Machine

/-- The record that an AT_CUE take follows for an outgoing source: that of its CHANGEOVER cue on the outgoing head (R75, R95). -/
def Part.recordFor (p : Part) (change : Option Cue) : Source → Option Pred
  | .head h => change.map fun c => formPred p .cutOrEnd h c.frame
  | .standby => none
  | .unknown => none

section
variable {tag mode outCue inCue tolerance preroll : Word} {field : Stamp} {i : IslandId} {o p : Part} {src out : Source}

theorem cueFor_word (p : Part) (k : CueKind) (id : Word) (h : HeadId) :
    ((p.head h).cues.find? fun c => if id = 65535 then decide (c.kind = k) && !c.passed else decide (c.id = id.toNat)) =
      p.cueFor k (if id = 65535 then none else some id.toNat) (.head h) := by
  rw [Part.cueFor]
  by_cases absent : id = 65535 <;> simp only [absent, if_true, if_false]

theorem Views.formPred (view : Views i o p) (k : PredKind) (h : HeadId) (c : Int) : formPred p k h c = Machine.formPred o k h c := by
  simp only [Machine.formPred, Pred.ahead, view.heads, view.ref]

theorem Views.joined (t : Take) : Views i o (joinTake i t o) := ⟨fun _ => rfl, rfl, by rw [joinTake_island]⟩

theorem formPred_basis (p : Part) (k : PredKind) (h : HeadId) (c : Int) :
    (formPred p k h c).basis ≠ .reached ↔ (p.head h).pos.frame < c := by
  by_cases behind : c ≤ (p.head h).pos.frame
  · rw [formPred_behind behind]
    exact ⟨fun ahead => absurd rfl ahead, fun ahead => absurd behind (Int.not_le.2 ahead)⟩
  · rw [formPred_ahead (Int.not_le.1 behind)]
    exact ⟨fun _ => Int.not_le.1 behind, fun _ => Pred.ahead_basis p k _⟩

/-- AT_CUE holds while the CHANGEOVER cue's record is not REACHED, and AT_FIELD while the field lies M fields ahead (R95, R96). -/
theorem modeFor_asked : o.modeFor i (.asked tag mode field outCue inCue tolerance preroll src) out =
    if mode = 1 ∧ 2 ^ 31 ≤ (o.ref.count - field).toNat ∧ ((o.island i).settings.lead : Int) ≤ (field - o.ref.count).toInt then .atField
    else if mode = 0 ∧ (o.recordFor (o.cueFor .changeover (if outCue = 65535 then none else some outCue.toNat) out) out).any
      (fun r => decide (r.basis ≠ .reached)) = true then .atCue else .now := by
  unfold Part.modeFor
  by_cases zero : mode = 0
  · have other : ¬ (0 : Word) = 1 := by decide
    subst zero
    simp only [Take.asked, Take.new, other, if_true, if_false, true_and, false_and]
    cases out with
    | standby => rfl
    | unknown => rfl
    | head g => simp only [Part.recordFor, Option.any_map, formPred_basis]
  · by_cases one : mode = 1
    · have other : ¬ (1 : Word) = 0 := by decide
      subst one
      simp only [Take.asked, Take.new, other, if_true, if_false, true_and, false_and]
    · simp only [Take.asked, Take.new, zero, one, if_false, false_and]

end


section
variable {i : IslandId} {o v : Part} {n : Nat} {t : Take} {h : HeadId} {f : Stamp}

/-! ### The start field of a fresh take -/

/-- The start field of a take for the cut given: of a head at rest, under AUTO (R81). -/
def Take.startAt (v : Part) (t : Take) (f : Stamp) : Option Stamp :=
  match t.incoming with
  | .head h => if (v.head h).drive.atRest = true ∧ t.preroll = .auto
      then some (startField v.ref.standard (v.head h) (t.leader (v.head h)) f) else none
  | .standby => none
  | .unknown => none

theorem DriveState.running_of_rest {d : DriveState} (rest : d.atRest = true) : d.running = false := by
  revert rest
  cases d <;> decide

/-- A fresh take keeps a start field for a head at rest, under AUTO, where it is not NOW (R81, R97). -/
theorem Take.Fresh.planned_iff (fresh : t.Fresh v n) (is : t.incoming = .head h) :
    t.planned v = some h ↔ t.effective ≠ .now ∧ (v.head h).drive.atRest = true ∧ t.preroll = .auto := by
  rw [Take.planned, Take.head?_of is]
  dsimp only
  refine ⟨fun plan => ?_, fun ⟨planned, rest, auto⟩ => if_pos ⟨fresh.armed is (DriveState.running_of_rest rest), auto, planned, rest⟩⟩
  split at plan
  next keeps => exact ⟨keeps.2.2.1, keeps.2.2.2, keeps.2.1⟩
  next => exact nomatch plan

theorem Take.Fresh.unplanned (fresh : t.Fresh v n) (is : t.incoming = .head h)
    (no : ¬ (t.effective ≠ .now ∧ (v.head h).drive.atRest = true ∧ t.preroll = .auto)) : t.planned v = none := by
  obtain none | ⟨k, plan⟩ := Option.eq_none_or_eq_some (t.planned v)
  · exact none
  · have mine : k = h := by
      rw [Take.planned, Take.head?_of is] at plan
      dsimp only at plan
      split at plan
      · exact (Option.some.inj plan).symm
      · exact nomatch plan
    exact absurd ((fresh.planned_iff is).1 (mine ▸ plan)) no

theorem Take.Fresh.start (fresh : t.Fresh v n) : t.fStart = t.fCut.bind (t.startAt v) := by
  rw [fresh.fStart, Take.startFor]
  cases is : t.incoming with
  | head h =>
    by_cases rest : (v.head h).drive.atRest = true ∧ t.preroll = .auto
    · by_cases now : t.effective = .now
      · rw [Take.planned_of_now now, (fresh.now now).2]
        rfl
      · rw [(fresh.planned_iff is).2 ⟨now, rest⟩]
        have at_ : ∀ f, t.startAt v f = some (startField v.ref.standard (v.head h) (t.leader (v.head h)) f) := fun f => by
          rw [Take.startAt, is]
          exact if_pos rest
        cases t.fCut with
        | none => rfl
        | some f => exact (at_ f).symm
    · rw [fresh.unplanned is fun all => rest all.2]
      have at_ : ∀ f, t.startAt v f = none := fun f => by
        rw [Take.startAt, is]
        exact if_neg rest
      cases t.fCut with
      | none => rfl
      | some f => exact (at_ f).symm
  | standby =>
    have at_ : t.startAt v = fun _ => none := by funext f; rw [Take.startAt, is]
    simp only [Take.planned, Take.head?, is, at_, Option.bind_none, Option.bind_fun_none]
  | unknown =>
    have at_ : t.startAt v = fun _ => none := by funext f; rw [Take.startAt, is]
    simp only [Take.planned, Take.head?, is, at_, Option.bind_none, Option.bind_fun_none]

/-! ### The exact F_sop -/

theorem exactField_eq (s : Standard) (b : Stamp) (l d : Nat) : exactField s b l d =
    b + BitVec.ofNat 32 (l + if s = .f50 then 2 * (d - 1) else 5 * ((d - 1) / 2) + if (d - 1) % 2 = 1 then 5 - l else 0) := by
  cases s <;> rfl

/-- The record of a cue ahead of a LOCKED head (R76, R77). -/
theorem formPred_locked {c : Int} {k : PredKind} {b : Stamp} {l : Nat} (locked : (v.head h).drive = .locked)
    (ahead : (v.head h).pos.frame < c) (boundary : (v.head h).cadence.boundary = some b)
    (expected : (v.head h).cadence.expected v.ref.standard = some l) :
    formPred v k h c = ⟨h, c, some (exactField v.ref.standard b l (c - (v.head h).pos.frame).toNat), .exact⟩ := by
  rw [formPred_ahead ahead]
  simp only [Pred.ahead, locked, exactPrediction, boundary, expected]

end

/-! ### The cut of the take of a TAKE -/

section
variable {tag mode outCue inCue tolerance preroll : Word} {field : Stamp} {i : IslandId} {o : Part} {src out : Source}

/-- The take of a TAKE as it has been activated (R95). -/
def Part.askedActive (o : Part) (i : IslandId) (out : Source) (t : Take) : Take := t.active (joinTake i t o) i out

theorem askedActive_effective (t : Take) : (o.askedActive i out t).effective = o.modeFor i t out :=
  (Take.active_activated (joinTake i t o) i out t).effective.trans ((Views.joined t).modeFor t out)

/-- What the take has of its cut, and what TAKE_ACTIVE says of it (R95, R96, R112). -/
theorem askedActive_cut (u : Take) (is : u = o.askedActive i out (.asked tag mode field outCue inCue tolerance preroll src))
    (other : src ≠ out) (record : Option Pred)
    (recordIs : record = o.recordFor (o.cueFor .changeover (if outCue = 65535 then none else some outCue.toNat) out) out) :
    u.fCut = (if u.effective = .now then none else if mode = 1 then some field else if mode = 0 then record.bind (·.value) else none) ∧
    u.cut = (if u.effective = .atCue then record else none) ∧
    u.cutBasis = (if u.effective = .now then some .absent else if u.effective = .atCue then record.map (·.basis) else none) ∧
    (u.effective ≠ .now → u.effective ≠ .atCue → mode = 1) := by
  subst is
  generalize ask : Take.asked tag mode field outCue inCue tolerance preroll src = t
  have effective := askedActive_effective (o := o) (i := i) (out := out) t
  have words := (congrArg (o.modeFor i · out) ask).symm.trans modeFor_asked
  have blank : t.Blank := ask ▸ Take.asked_blank
  have fresh : (o.askedActive i out t).Fresh (joinTake i t o) _ := Take.active_fresh (i := i) blank (by rw [← ask]; exact other)
  have cuts : (o.askedActive i out t).effective ≠ .now → _ := Take.active_cut (t := t) (i := i) (out := out)
  have fieldIs : t.field = field := by rw [← ask]; rfl
  have outIs : t.outCue = if outCue = 65535 then none else some outCue.toNat := by rw [← ask]; rfl
  have now := fresh.now
  rw [← effective] at words
  clear effective fresh
  rw [Take.cutBasis]
  cases mode' : (o.askedActive i out t).effective with
  | now =>
    obtain ⟨cut, fCut⟩ := now mode'
    rw [cut, fCut]
    exact ⟨rfl, rfl, rfl, fun planned => absurd rfl planned⟩
  | atField =>
    obtain ⟨cut, fCut⟩ := (cuts (by rw [mode']; exact nofun)).1 mode'
    have one : mode = 1 := by
      by_contra other
      rw [mode', if_neg fun both => other both.1, eq_comm, ite_eq_iff] at words
      obtain ⟨-, no⟩ | ⟨-, no⟩ := words <;> exact nomatch no
    rw [show (o.askedActive i out t).cut = none from cut, show (o.askedActive i out t).fCut = some t.field from fCut, fieldIs, one]
    exact ⟨rfl, rfl, rfl, fun _ _ => rfl⟩
  | atCue =>
    obtain ⟨g, c, rfl, found, cut, fCut⟩ := (cuts (by rw [mode']; exact nofun)).2 mode'
    have zero : mode = 0 := by
      by_contra other
      rw [mode', if_neg (c := mode = 0 ∧ _) fun both => other both.1, eq_comm, ite_eq_iff] at words
      obtain ⟨-, no⟩ | ⟨-, no⟩ := words <;> exact nomatch no
    rw [(Views.joined t).formPred] at cut fCut
    rw [(Views.joined t).cueFor, outIs] at found
    have record' : record = some (formPred o .cutOrEnd g c.frame) := by
      rw [recordIs, found]
      rfl
    rw [show (o.askedActive i (.head g) t).cut = _ from cut, show (o.askedActive i (.head g) t).fCut = _ from fCut, record', zero]
    exact ⟨rfl, rfl, rfl, fun _ other => absurd rfl other⟩

end

end Sys2Proof.Machine
end

section
/-! PROOFS. O34: a TAKE to an empty list is activated at once. -/

namespace Sys2Proof.Machine

section
variable {i : IslandId} {v : Part} {x : Island} {t : Take} {p : Part} {h : HeadId} {f : Stamp}

/-- A take that keeps a start field, its commit field ahead, is worked without a SHORT_LEADER (R81, R97). -/
theorem Leads.work_brief (a : Leads i v x t p) (running : p.mode = .running) (free : x.confirm = none) (fresh : t.Fresh v x.settings.lead)
    (is : t.incoming = .head h) (plan : t.planned v = some h) (later : v.cutNow x.settings.lead t.fCut = none) (brief : Brief i p) :
    Brief i (workTake i p) := by
  obtain ⟨planned, rest, -⟩ := (fresh.planned_iff is).1 plan
  have unlocked : (v.head h).drive ≠ .locked := fun locked => by
    rw [locked] at rest
    exact nomatch rest
  have work := a.work_unlocked running free fresh is unlocked fun starts => planned starts.2.2.1
  by_cases due : t.fStart.any (reached v.ref.count) = true
  · rw [(work.starts later plan due).1]
    exact a.takeStartField_brief brief is rest fresh.firm
  · rw [work.waits later fun _ => Bool.eq_false_iff.2 due]
    exact brief

end

section
variable {tag mode outCue inCue tolerance preroll : Word} {field : Stamp} {i : IslandId} {p : Part} {src : Source}

/-- The activation of a TAKE to the source on air, or to a head in FAULT: it ends there (R95, R112). -/
theorem asked_ends (t : Take) (queued : t.state = .queued) (empty : (p.island i).takes = []) (free : (p.island i).confirm = none)
    (dead : t.incoming = (p.island i).onAir ∨ ∃ h, t.incoming = .head h ∧ (p.head h).drive = .fault) :
    let r : Reason := if t.incoming = (p.island i).onAir then .sameSource else .incomingFault
    (activateFront i (joinTake i t p)).island i = p.island i ∧
    (p.listens → (activateFront i (joinTake i t p)).tells (.island i)
      [.takeEnd t.tag .failed r t.incoming (some (p.island i).onAir) t.fCut t.error t.slip t.lost]) ∧
    ChangesOnly Block.posting p (activateFront i (joinTake i t p)) := by
  intro r
  have led := joinTake_led empty t
  have takes : ((joinTake i t p).island i).takes = [t] := by rw [led, Island.led, empty]; rfl
  have onAir : ((joinTake i t p).island i).onAir = (p.island i).onAir := by rw [led]; rfl
  have ended := endFailed (i := i) (Views.joined t) takes (p.island i).onAir r
  have does : activateFront i (joinTake i t p) =
      endFront i .failed r ((joinTake i t p).modFront i fun t => { t with outgoing := some (p.island i).onAir }) := by
    have died := activate_dead (n := 0) takes queued (by rw [led]; exact free) (onAir.symm ▸ dead)
    rw [onAir] at died
    rw [activateFront, takes]
    exact died
  rw [does]
  obtain ⟨view, island, awaits⟩ := ended
  have joined : ChangesOnly (Block.taking i) p (joinTake i t p) := (modIsland_frame i _ p).mono (by simp [Block.taking])
  have frame := (joined.trans (front_taking i (fun t => { t with outgoing := some (p.island i).onAir }) _)).trans
    (endFront_frame i .failed r _)
  have same : (endFront i .failed r ((joinTake i t p).modFront i fun t => { t with outgoing := some (p.island i).onAir })).island i =
      p.island i := by
    rw [island, led, Island.led]
    exact congrArg (fun l => { p.island i with takes := l }) empty.symm
  refine ⟨same, fun l => ?_, fun b other => ?_⟩
  · have told := (awaits 0 [] (l.awaits.of_evt rfl) (by decide)).holds
    refine told.tells ?_
    rw [view.ref]
    rfl
  · by_cases mine : b = .island i
    · subst mine
      exact same.symm
    · exact frame b (by simp [Block.taking, mine, other])

end


section
variable {i : IslandId} {o : Part} {t : Take}

/-- The activation of a TAKE to another source: TAKE_ACTIVE, and the work of the take so formed (R95, R97, R112). -/
structure Asked (i : IslandId) (o : Part) (t u : Take) (p : Part) : Prop where
  leads : Leads i o (o.island i) u p
  fresh : u.Fresh o (o.island i).settings.lead
  given : t.Activated o i (o.island i).onAir u
  works : activateFront i (joinTake i t o) = workTake i p
  mode : p.mode = o.mode
  told : o.listens → Awaits 2 [⟨.island i, o.ref.count, u.activeItem⟩] p
  short : o.listens → ∀ h cut d, u.planned o = some h → u.fCut = some cut → u.leader (o.head h) = some d →
    (shortLeader (o.head h) d = true →
      Awaits 2 [⟨.island i, o.ref.count, .shortLeader u.tag h (o.head h).settings.runupDistance d⟩] p) ∧
    (shortLeader (o.head h) d = false → Brief i p)

theorem asked_works (blank : t.Blank) (queued : t.state = .queued) (empty : (o.island i).takes = []) (free : (o.island i).confirm = none)
    (live : ¬ (t.incoming = (o.island i).onAir ∨ ∃ h, t.incoming = .head h ∧ (o.head h).drive = .fault)) :
    ∃ p, Asked i o t (o.askedActive i (o.island i).onAir t) p := by
  have led := joinTake_led empty t
  have takes : ((joinTake i t o).island i).takes = [t] := by rw [led, Island.led, empty]; rfl
  have onAir : ((joinTake i t o).island i).onAir = (o.island i).onAir := by rw [led]; rfl
  have other : t.incoming ≠ (o.island i).onAir := fun same => live (.inl same)
  have view := Views.joined (i := i) (o := o) t
  have leads := Part.entered_leads (o.island i).onAir led
  have fresh := Take.active_fresh (p := joinTake i t o) (i := i) blank other
  rw [← Island.led_settings led] at fresh
  have given := Take.active_activated (joinTake i t o) i (o.island i).onAir t
  have enters := activate_enters (n := 0) takes queued (by rw [led]; exact free) (onAir.symm ▸ live)
  rw [onAir, enterTake_eq _ led] at enters
  refine ⟨(joinTake i t o).entered i (o.island i).onAir t, leads.seen (w := o) leads.heads leads.ref, ?_, ?_, ?_,
    Part.entered_mode .., fun l => ?_, fun l h cut d plan at_ leader => ?_⟩
  · obtain ⟨firm, figured, now, state, sop, fStart, slip⟩ := fresh
    exact ⟨firm, figured, now, state, sop.trans (by exact rfl), fStart.trans (by exact rfl), slip⟩
  · obtain ⟨tag, incoming, outgoing, tolerance, preroll, sopCue, changeCue, effective⟩ := given
    refine ⟨tag, incoming, outgoing, ?_, preroll, ?_, ?_, ?_⟩
    · rw [Part.askedActive, tolerance, view.settings]
    · rw [Part.askedActive, sopCue, view.cueFor]
    · rw [Part.askedActive, changeCue, view.cueFor]
    · rw [Part.askedActive, effective, view.modeFor]
  · rw [activateFront, takes]
    exact enters
  · exact Part.entered_awaits _ led (l.awaits.of_evt rfl) (by decide)
  · obtain ⟨tells, brief⟩ := Part.entered_short _ led blank plan at_ leader
    refine ⟨fun short => tells short 0 [] (l.awaits.of_evt rfl) (by decide), fun long => brief long ⟨l.1, ?_⟩⟩
    intro e member
    rw [show (joinTake i t o).evt.queue = [] from l.2] at member
    exact nomatch member

end


/-! ### What the work of the take comes to, by its head -/

section
variable {i : IslandId} {v : Part} {x : Island} {t : Take} {p q : Part} {h : HeadId} {f : Stamp}

/-- What the work of a fresh take comes to on a head that is not LOCKED (R81, R97 to R100). -/
structure Unlatched (i : IslandId) (v : Part) (x : Island) (t : Take) (h : HeadId) (q : Part) : Prop where
  now : (v.head h).drive.atRest = true ∧ t.preroll = .auto → t.effective = .now →
    ∃ w, (q.island i).active = some w ∧ w.state = .starting ∧ (q.head h).drive = .runup
  idle : ¬ ((v.head h).drive.atRest = true ∧ t.preroll = .auto) → t.effective = .now ∨ t.soonCut v x.settings.lead = none →
    (q.island i).active = some t
  uncut : (v.head h).drive.atRest = true ∧ t.preroll = .auto → t.fCut = none → t.effective ≠ .now →
    (q.island i).active = some t ∧ t.fStart = none
  later : (v.head h).drive.atRest = true ∧ t.preroll = .auto → ∀ f, t.fCut = some f →
    reached v.ref.count (Stamp.minus f x.settings.lead) = false → ∃ w, (q.island i).active = some w ∧ w.fStart = t.startAt v f ∧
      ((t.startAt v f).any (reached v.ref.count) = false → w.state = .armed) ∧
      ((t.startAt v f).any (reached v.ref.count) = true → w.state = .starting ∧ (q.head h).drive = .runup)
  soon : t.effective ≠ .now → ∀ f, t.soonCut v x.settings.lead = some f → (∃ w, (q.island i).active = some w ∧ w.state = .held ∧
      w.heldCut = some f) ∧ ((v.head h).drive.atRest = true ∧ t.preroll = .auto → (q.head h).drive = .runup)

theorem Leads.work_unlatched (a : Leads i v x t p) (running : p.mode = .running) (free : x.confirm = none)
    (fresh : t.Fresh v x.settings.lead) (is : t.incoming = .head h) (unlocked : (v.head h).drive ≠ .locked) :
    Unlatched i v x t h (workTake i p) := by
  have work := a.work_unlocked running free fresh is unlocked
  have armed : (v.head h).drive.atRest = true → t.state = .armed := fun rest => fresh.armed is (DriveState.running_of_rest rest)
  refine ⟨fun rest isNow => ?_, fun moving soon => ?_, fun rest uncut planned => ?_, fun rest f at_ ahead => ?_, fun planned f soon => ?_⟩
  · obtain ⟨cut, fCut⟩ := fresh.now isNow
    obtain ⟨y, z, w, done, -, -, starting, -, -, runup, -⟩ := a.works_start is (armed rest.1) rest.2 isNow rest.1 cut fCut
    exact ⟨w, done.active, starting, by rw [done.heads]; exact runup⟩
  · have later : v.cutNow x.settings.lead t.fCut = none := by
      by_cases now : t.effective = .now
      · rw [(fresh.now now).2]
        rfl
      · have none := soon.resolve_left now
        rwa [Take.soonCut, if_neg now] at none
    rw [(work fun starts => moving ⟨starts.2.2.2, starts.2.1⟩).waits later fun plan =>
      absurd ((fresh.planned_iff is).1 plan).2 moving]
    exact a.active
  · have start : t.fStart = none := by rw [fresh.start, uncut]; rfl
    rw [(work fun starts => planned starts.2.2.1).waits (by rw [uncut]; rfl) fun _ => by rw [start]; rfl]
    exact ⟨a.active, start⟩
  · have planned : t.effective ≠ .now := fun now => nomatch at_.symm.trans (fresh.now now).2
    have later : v.cutNow x.settings.lead t.fCut = none := by rw [at_, Part.cutNow_ahead ahead]
    have start : t.fStart = t.startAt v f := by rw [fresh.start, at_]; rfl
    have plan := (fresh.planned_iff is).2 ⟨planned, rest⟩
    have unsent := work fun starts => planned starts.2.2.1
    rw [← start]
    by_cases due : t.fStart.any (reached v.ref.count) = true
    · obtain ⟨-, w, b⟩ := unsent.starts later plan due
      exact ⟨w, b.active, b.fStart, fun undue => (nomatch undue.symm.trans due), fun _ => ⟨b.state, b.runup⟩⟩
    · have undue := Bool.eq_false_iff.2 due
      rw [unsent.waits later fun _ => undue]
      exact ⟨t, a.active, rfl, fun _ => armed rest.1, fun is => absurd is due⟩
  · rw [Take.soonCut, if_neg planned] at soon
    obtain ⟨held, runup⟩ := (work fun starts => planned starts.2.2.1).holds f soon
    exact ⟨held, fun rest => runup rest.2 rest.1⟩

/-- The fields that the leader to a SOP cue adds to the run-up lead of a head at rest (R79, R81). -/
def Head.leaderFields (n : Standard) (y : Head) : Option Cue → Nat
  | none => 0
  | some c =>
    let d : Int := c.frame - y.parkedFrame
    let k := (d - y.settings.runupDistance).toNat
    if d < y.settings.runupDistance ∨ d ≤ 0 then 0 else if n = .f50 then 2 * k else (5 * k + 1) / 2

/-- The start field by the words of a TAKE, its leader by the cue given (R79, R81). -/
theorem Take.startAt_word {preroll : Word} (auto : t.preroll = .auto ↔ preroll = 0) (sop : Option Cue)
    (cue : t.sopCue = sop.map fun c => ⟨c.id, c.frame⟩) : t.startAt v f = match t.incoming with
      | .head h => if (v.head h).drive.atRest = true ∧ preroll = 0
          then some (f - BitVec.ofNat 32 ((v.head h).settings.runupLead + (v.head h).leaderFields v.ref.standard sop)) else none
      | _ => none := by
  rw [Take.startAt]
  cases t.incoming with
  | head h =>
    have leader : t.leader (v.head h) = sop.map fun c => c.frame - (v.head h).parkedFrame := by
      rw [Take.leader, cue, Option.map_map]
      rfl
    dsimp only
    rw [startField_eq, leader]
    simp only [auto]
    cases sop <;> rfl
  | standby => rfl
  | unknown => rfl

theorem preroll_word (w : Word) : (if w = 0 then Preroll.auto else .manual) = .auto ↔ w = 0 := by
  by_cases zero : w = 0 <;> simp only [zero, if_true, if_false, reduceCtorEq]

theorem Asked.portOf {o : Part} {u : Take} (a : Asked i o t u p) (s : Source) : p.portOf i s = o.portOf i s := by
  unfold Part.portOf
  rw [a.leads.settings]
  split <;> simp only [a.leads.heads]

/-- SHORT_LEADER tells of a take that keeps a start field just where its leader is short (R81). -/
theorem Asked.short_iff {o : Part} {u : Take} (a : Asked i o t u p) (running : o.mode = .running) (free : (o.island i).confirm = none)
    (l : o.listens) {d : Int} (is : u.incoming = .head h) (plan : u.planned o = some h) (at_ : u.fCut = some f)
    (ahead : reached o.ref.count (Stamp.minus f (o.island i).settings.lead) = false) (leader : u.leader (o.head h) = some d) :
    (⟨.island i, o.ref.count, .shortLeader u.tag h (o.head h).settings.runupDistance d⟩ : Event) ∈ (workTake i p).evt.queue ↔
      d < (o.head h).settings.runupDistance ∨ d ≤ 0 := by
  obtain ⟨tells, silent⟩ := a.short l h f d plan at_ leader
  have shortIs : shortLeader (o.head h) d = true ↔ d < (o.head h).settings.runupDistance ∨ d ≤ 0 := by
    simp only [shortLeader, Bool.or_eq_true, decide_eq_true_eq]
  rw [← shortIs]
  constructor
  · intro member
    by_contra long
    have brief := a.leads.work_brief (a.mode.trans running) free a.fresh is plan (by rw [at_, Part.cutNow_ahead ahead])
      (silent (Bool.eq_false_iff.2 long))
    exact brief.2 _ member rfl rfl
  · intro isShort
    exact (workTake_keeps (holds_scheduler _) i (tells isShort).holds).2.subset (List.mem_singleton.2 rfl)

end

section
variable {i : IslandId} {v : Part} {x : Island} {t w : Take} {p q : Part} {heard : Prop} {port : Port} {ot : TakeOutcome} {l : Option Int}
  {f : Stamp} {e : Option Int}

theorem EndsAt.of_active (a : EndsAt i v x t port heard ot l f e q) (active : (q.island i).active = some w) :
    w.state = .committed ∧ w.outcome = ot ∧ w.lost = l ∧ w.fCut = some f ∧ w.error = e := by
  obtain ⟨u, found, all⟩ := a.take
  cases found.symm.trans active
  exact all

end

/-- Settles O34: a dead take ends where it stands; any other is formed, told of by TAKE_ACTIVE, and worked. -/
theorem takeActivates : Obligations.TakeActivates := by
  intro s word tag incoming mode field outCue inCue tolerance preroll i running named remote empty free
  intro cmd x count f50 m holds src read assigned modes prerolls cueIn cueOut status dead port chosen sop change record plan
  have joins := takeCommand_joins (tag := tag) (field := field) (tolerance := tolerance) named remote empty read assigned modes prerolls
    cueIn cueOut
  have replies : ∀ {P : Part → Prop}, P { activateFront i (joinTake i (.asked tag mode field outCue inCue tolerance preroll src) s.part)
      with cmd := { (activateFront i (joinTake i (.asked tag mode field outCue inCue tolerance preroll src) s.part)).cmd with
        status := some status } } → Replies cmd s status P := fun {P} =>
    Replies.of_commanded (f := takeCommand word tag incoming mode field outCue inCue tolerance preroll) rfl running joins
  have sched := (activateFront_sched i (joinTake i (.asked tag mode field outCue inCue tolerance preroll src) s.part))
  have frame : ChangesOnly Block.scheduling s.part
      (activateFront i (joinTake i (.asked tag mode field outCue inCue tolerance preroll src) s.part)) :=
    ((modIsland_frame i _ s.part).mono (by cases i <;> simp [Block.scheduling])).trans sched.frame
  have blank := Take.asked_blank (tag := tag) (mode := mode) (field := field) (outCue := outCue) (inCue := inCue)
    (tolerance := tolerance) (preroll := preroll) (src := src)
  refine ⟨fun isDead => replies ?_, fun live => replies ?_⟩
  · obtain ⟨same, told, only⟩ := asked_ends (.asked tag mode field outCue inCue tolerance preroll src) rfl empty free isDead
    exact ⟨same, told, only.answered status⟩
  obtain ⟨p, asked⟩ := asked_works blank rfl empty free live
  have chosenIs : ∀ k id a, chosen k id a = s.part.cueFor k (if id = 65535 then none else some id.toNat) a := by
    intro k id a
    cases a with
    | head h => exact cueFor_word ..
    | standby => rfl
    | unknown => rfl
  have recordIs : record = s.part.recordFor (s.part.cueFor .changeover (if outCue = 65535 then none else some outCue.toNat) x.onAir) x.onAir := by
    rw [← chosenIs]
    unfold record change
    generalize x.onAir = out
    cases out <;> rfl
  obtain ⟨fCut, cut_, basis, atField⟩ := askedActive_cut (i := i) (o := s.part) (out := x.onAir)
    (s.part.askedActive i x.onAir (.asked tag mode field outCue inCue tolerance preroll src)) rfl (fun same => live (.inl same)) record
    recordIs
  obtain ⟨leads, fresh, ⟨isTag, isIncoming, isOutgoing, isTolerance, isPreroll, isSop, isChange, isMode⟩, works, stays, told, -⟩ :=
    id asked
  generalize s.part.askedActive i x.onAir (.asked tag mode field outCue inCue tolerance preroll src) = u at *
  replace isTag : u.tag = tag := isTag
  replace isIncoming : u.incoming = src := isIncoming
  rw [works] at frame sched ⊢
  have sopCue : u.sopCue = sop.map fun c => ⟨c.id, c.frame⟩ := isSop.trans (congrArg _ (chosenIs ..).symm)
  have changeCue : u.changeCue = change.map fun c => ⟨c.id, c.frame⟩ := isChange.trans (congrArg _ (chosenIs ..).symm)
  have tolerated : u.tolerance = some (if tolerance = 65535 then x.settings.tolerance else min 8 tolerance.toNat) := by
    rw [isTolerance]
    show some ((readTolerance tolerance).getD x.settings.tolerance) = _
    unfold readTolerance
    split <;> rfl
  rw [modeFor_asked, ← recordIs] at isMode
  obtain ⟨w, active, same, -, tail⟩ : Goes i u [] (workTake i p) :=
    Goes.workTake (leads.goes (.refl u) fresh.firm (by rw [empty]; rfl))
  obtain ⟨front, past⟩ := Island.active_eq_some.1 active
  have mine : ∀ {w'}, ((workTake i p).island i).active = some w' → w' = w := fun is => Option.some.inj (is.symm.trans active)
  have counts : (workTake i p).ref.count = count :=
    congrArg RefUnit.count (frame .ref (by simp [Block.scheduling, Block.alarming, Block.posting])).symm
  have tells : ∀ {e}, Holds [⟨.island i, count, e⟩] (workTake i p) → (workTake i p).tells (.island i) [e] := fun holds =>
    holds.tells (by rw [counts]; rfl)
  have heardBy : s.part.listens → ∃ k es, Awaits k es p ∧ k + 6 < Config.maxEvents := fun l => ⟨2, _, told l, by decide⟩
  refine ⟨w, (List.cons_head?_tail front).symm.trans (by rw [tail]), same.tag.trans isTag, same.incoming.trans isIncoming,
    same.outgoing.trans isOutgoing, past, same.tolerance.trans tolerated, same.sopCue.trans sopCue, same.changeCue.trans changeCue,
    same.effective.trans isMode, ?_⟩
  intro cut reached later soon waits start ends
  have cutIs : cut = u.fCut := by
    rw [fCut, ← same.effective]
  have soonIs : soon = u.soonCut s.part x.settings.lead := by
    rw [Take.soonCut, ← same.effective, ← cutIs]
    rfl
  have laterIs : ∀ {f}, later = some f → u.fCut = some f ∧ Machine.reached count (Stamp.minus f x.settings.lead) = false := fun {f} is => by
    obtain ⟨at_, ahead⟩ := Option.filter_eq_some_iff.1 is
    exact ⟨cutIs.symm.trans at_, Bool.not_eq_true' _ ▸ ahead⟩
  have waitsIs : waits → u.fCut = none ∧ u.effective ≠ .now := fun ⟨uncut, planned⟩ =>
    ⟨cutIs.symm.trans uncut, fun now => planned (same.effective.trans now)⟩
  have portIs : p.portOf i u.incoming = port := by
    rw [isIncoming]
    exact asked.portOf src
  have auto : u.preroll = .auto ↔ preroll = 0 := by
    rw [isPreroll]
    exact preroll_word preroll
  have endsIs : ∀ {o l f e}, EndsAt i s.part x u (p.portOf i u.incoming) s.part.listens o l f e (workTake i p) →
      ends o l f ∧ w.error = e := by
    intro o l f e done
    obtain ⟨state, outcome, lost, fCut, error⟩ := done.of_active active
    have confirm := done.confirm
    have told := done.told
    rw [portIs, isIncoming] at confirm
    rw [isTag, portIs, ← error] at told
    exact ⟨⟨state, outcome, lost, fCut, done.mirror.trans (congrArg _ portIs), confirm, fun l => tells (told l)⟩, error⟩
  have startIs : ∀ f, start f = u.startAt s.part f := fun f => by
    have words := Take.startAt_word (v := s.part) (f := f) auto sop sopCue
    rw [isIncoming] at words
    exact words.symm
  have mode : p.mode = .running := stays.trans running
  have uncued : u.incoming = .standby → u.sopCue = none := fun standby => by
    rw [sopCue, show sop = chosen .sop inCue src from rfl, ← isIncoming, standby]
    rfl
  have plans : Plans i s.part x u s.part.listens w (workTake i p) := by
    have at_ : PlansAt i s.part x u s.part.listens (workTake i p) := by
      cases is : u.incoming with
      | standby => exact leads.plans_standby free fresh is heardBy (uncued is)
      | unknown => exact absurd (isIncoming.symm.trans is) (readIncoming_known read)
      | head h =>
        by_cases locked : (s.part.head h).drive = .locked
        · exact leads.plans_locked free fresh is locked heardBy
        · exact leads.plans_unlocked free fresh mode is locked
    obtain ⟨w', found, plans⟩ := at_
    exact mine found ▸ plans
  refine ⟨fun l => ?_, fun f is => ?_, fun is => ?_, fun ready l => ?_, fun standby => ?_, fun h is => ?_,
    fun h => ?_, frame.answered status⟩
  · have active' := tells (workTake_keeps (holds_scheduler _) i (told l).holds)
    rw [Take.activeItem, isTag, isIncoming, isOutgoing, basis, sopCue, changeCue, Option.map_map, Option.map_map, fresh.start,
      ← same.effective, ← cutIs, ← funext startIs] at active'
    exact active'
  · exact plans.later f (laterIs is).1 (laterIs is).2
  · obtain ⟨uncut, planned⟩ := waitsIs is
    obtain ⟨fCut', commitAt, cut'⟩ := plans.uncut uncut planned
    refine ⟨fCut', commitAt, cut'.trans ?_⟩
    rw [cut_]
    refine if_pos ?_
    by_contra other
    rw [fCut, if_neg planned, if_pos (atField planned other)] at uncut
    exact nomatch uncut
  · have told' := plans.ready ready l
    rw [Take.readyItem, same.tag.trans isTag] at told'
    exact tells told'
  · have is : u.incoming = .standby := isIncoming.trans standby
    have headless : u.head? = none := by rw [Take.head?, is]
    have state : u.state = .starting := by rw [fresh.state, headless] <;> rfl
    have sits : u.Sits s.part := ⟨by rw [is]; exact nofun, by rw [fresh.sop, headless] <;> rfl, fun h has => nomatch headless.symm.trans has⟩
    obtain ⟨waits, done⟩ := leads.work_sits (heard := s.part.listens) free fresh state sits (uncued is) (by rw [Take.mayReady, is]) heardBy
    have shows := Take.shown_shows (v := s.part) (x := x) fresh.figured
    rw [← soonIs] at waits done
    refine ⟨?_, fun f is => (endsIs (done f is)).1, fun none => by rw [← mine (waits none)]; exact shows.state⟩
    obtain none | ⟨f, is'⟩ := Option.eq_none_or_eq_some soon
    · rw [← mine (waits none), shows.figured.error]
      exact Take.errorOf_standby (shows.same.incoming.trans is)
    · exact (endsIs (done f is')).2.trans (Take.errorOf_standby (shows.same.incoming.trans is))
  · intro y rest begun
    have at_ : u.incoming = .head h := isIncoming.trans is
    have restIs : (s.part.head h).drive.atRest = true ∧ u.preroll = .auto ↔ rest := and_congr_right fun _ => auto
    have stands : rest → y.drive ≠ .locked := fun rest locked => by
      have still := rest.1
      rw [locked] at still
      exact nomatch still
    have work := fun unlocked => leads.work_unlatched mode free fresh at_ (h := h) unlocked
    have record : ∀ c, sop = some c → u.sop = some (formPred s.part .sop h c.frame) := fun c is => by
      rw [fresh.sop, Take.head?_of at_, sopCue, is]
      rfl
    refine ⟨fun resting isNow => ?_, fun unlocked early moving => ?_, fun resting waits => ?_, fun resting f is => ?_,
      fun unlocked planned f is => ?_, fun locked none => ?_, fun c is => ?_⟩
    · obtain ⟨w', found, starting, runup⟩ := (work (stands resting)).now (restIs.2 resting) (same.effective.symm.trans isNow)
      exact ⟨mine found ▸ starting, runup⟩
    · rw [← mine ((work unlocked).idle (mt restIs.1 moving) (early.imp (same.effective.symm.trans ·) (soonIs.symm.trans ·))), fresh.state,
        Take.head?_of at_]
    · obtain ⟨uncut, planned⟩ := waitsIs waits
      obtain ⟨found, unset⟩ := (work (stands resting)).uncut (restIs.2 resting) uncut planned
      rw [← mine found]
      exact ⟨fresh.armed at_ (DriveState.running_of_rest resting.1), unset⟩
    · obtain ⟨w', found, start', ahead, due⟩ := (work (stands resting)).later (restIs.2 resting) f (laterIs is).1 (laterIs is).2
      cases mine found
      rw [startIs]
      exact ⟨start', ahead, due⟩
    · obtain ⟨⟨w', found, held, heldCut⟩, runup⟩ := (work unlocked).soon (fun isNow => planned (same.effective.trans isNow)) f
        (soonIs.symm.trans is)
      rw [← mine found]
      exact ⟨held, heldCut, fun resting => runup (restIs.2 resting)⟩
    · have cueless : u.sopCue = Option.none := by rw [sopCue, none] <;> rfl
      have sits : u.Sits s.part := ⟨by rw [at_]; exact nofun, by rw [fresh.sop, Take.head?_of at_, cueless], fun k has => by
        rw [Take.head?_of at_] at has
        cases has
        exact locked⟩
      have aimless : u.error = Option.none := fresh.figured.error.trans (Take.errorOf_uncued at_ sits.2.1)
      obtain ⟨waits, done⟩ := leads.work_sits (heard := s.part.listens) free fresh (fresh.starting at_ (by rw [locked]; rfl)) sits cueless
        (by rw [mayReady_head at_ locked, aimless, cueless]; exact Bool.or_true _) heardBy
      rw [← soonIs] at waits done
      exact ⟨fun f is => (endsIs (done f is)).1,
        fun none => by rw [← mine (waits none)]; exact (Take.shown_shows (v := s.part) (x := x) fresh.figured).state⟩
    · intro distance d spans
      have leader : u.leader (s.part.head h) = some d := by
        rw [Take.leader, sopCue, is] <;> rfl
      have cued : u.sopCue.isSome = true := by rw [sopCue, is]; rfl
      refine ⟨fun resting aims l => ?_, fun locked behind => ?_, fun b len locked ahead boundary expected => ?_⟩
      · obtain ⟨f, laterF⟩ := Option.isSome_iff_exists.1 aims
        have planned : u.effective ≠ .now := fun now => nomatch (laterIs laterF).1.symm.trans (fresh.now now).2
        have told' := asked.short_iff running free l at_ ((fresh.planned_iff at_).2 ⟨planned, restIs.2 resting⟩) (laterIs laterF).1
          (laterIs laterF).2 leader
        rw [isTag] at told'
        exact told'
      · have reached' := formPred_behind (k := .sop) behind
        obtain ⟨waits, error, done⟩ := leads.work_behind (heard := s.part.listens) free fresh at_ locked cued (record c is)
          (by rw [reached']) (by rw [reached']) heardBy
        rw [← soonIs] at waits done
        refine ⟨?_, fun f is => (endsIs (done f is)).1,
          fun none => by rw [← mine (waits none)]; exact (Take.shown_shows (v := s.part) (x := x) fresh.figured).state⟩
        obtain none | ⟨f, is'⟩ := Option.eq_none_or_eq_some soon
        · rw [← mine (waits none), error]
        · exact (endsIs (done f is')).2
      · intro sopField allowed
        have formed := formPred_locked (k := .sop) locked ahead boundary expected
        rw [exactField_eq] at formed
        have judged := leads.work_exact (heard := s.part.listens) (s := sopField) (allowed := allowed) free fresh mode at_ locked cued
          (record c is) (by rw [formed]) (by rw [formed] <;> rfl) (by rw [tolerated] <;> rfl) heardBy
        refine ⟨fun waits => ?_, fun f is => ?_, fun f is => ?_⟩
        · obtain ⟨w', found, error, state⟩ := judged.uncut (waitsIs waits).1 (waitsIs waits).2
          cases mine found
          exact ⟨error, state⟩
        · obtain ⟨w', found, error, state⟩ := judged.later f (laterIs is).1 (laterIs is).2
          cases mine found
          exact ⟨error, state⟩
        · intro e
          have at' := soonIs.symm.trans is
          refine ⟨fun within => endsIs (judged.done f at' within), fun early => endsIs (judged.early f at' early), fun above => ?_⟩
          obtain ⟨w', found, held⟩ := judged.held f at' above
          cases mine found
          exact held
  · exact sched.heads h

end Sys2Proof.Machine
end
